-- ==== Sys2Proof/Word.lean ====
section
/-!
DEFINITION. The word types of the Trosol Y1 and the type of a sparse map, in which every memory, register file
and set of parts is held.
-/

namespace Sys2Proof

/-- A scratchpad word, a register of a window (R119, R12). -/
abbrev Word := BitVec 32
/-- A scalar register, an instruction word (R144, R147). -/
abbrev DWord := BitVec 64
/-- A byte of site memory. -/
abbrev Byte := BitVec 8

/-- A sparse map: the listed keys, strictly rising, none holding the value an unlisted key reads as. -/
abbrev Map (α : Type) := List (Nat × α)

end Sys2Proof
end

