-- ==== Sys2Proof/Syntax.lean ====
section
/-!
DEFINITION. The commands of the Trosol Y1: one constructor of Instr per row of spec/opcode_table.json. An instruction
of a tile carries the operand fields of its 64-bit word as the layouts of spec/06_greset_isa.md place them, the fields
marked 0 (`rsv`) among them, so that a reserved encoding (R146) can be written.
-/

namespace Sys2Proof

/-- Layout B (R156). -/
structure LB where
  sa : BitVec 5
  sb : BitVec 5
  rsv : BitVec 24 := 0
  tgt : BitVec 16
  deriving DecidableEq, Repr

/-- Layout SI (R156). -/
structure LSI where
  sd : BitVec 5
  sa : BitVec 5
  rsv : BitVec 8 := 0
  imm : BitVec 32
  deriving DecidableEq, Repr

/-- Layout SR (R159). -/
structure LSR where
  sd : BitVec 5
  sa : BitVec 5
  sb : BitVec 5
  rsv : BitVec 35 := 0
  deriving DecidableEq, Repr

/-- Layout SM (R159). -/
structure LSM where
  sd : BitVec 5
  sa : BitVec 5
  rsv : BitVec 22 := 0
  off : BitVec 18
  deriving DecidableEq, Repr

/-- Layout MV (R162). -/
structure LMV where
  s : BitVec 5
  v : BitVec 4
  p : BitVec 3
  rsv : BitVec 33 := 0
  lane : BitVec 5
  deriving DecidableEq, Repr

/-- Layout Q (R163). -/
structure LQ where
  rg : BitVec 4
  sa : BitVec 5
  sb : BitVec 5
  ns : BitVec 1
  rsv : BitVec 18 := 0
  n : BitVec 17
  deriving DecidableEq, Repr

/-- Layout VA (R165). -/
structure LVA where
  vd : BitVec 4
  va : BitVec 4
  vb : BitVec 4
  vc : BitVec 4
  pe : BitVec 1
  pr : BitVec 3
  fmt : BitVec 4
  bs : BitVec 1
  sb : BitVec 5
  rsv : BitVec 20 := 0
  deriving DecidableEq, Repr

/-- Layout VS (R167). -/
structure LVS where
  sd : BitVec 5
  va : BitVec 4
  pe : BitVec 1
  pr : BitVec 3
  fmt : BitVec 4
  acc : BitVec 1
  sbase : BitVec 5
  rsv : BitVec 27 := 0
  deriving DecidableEq, Repr

/-- Layout VM (R168). -/
structure LVM where
  vr : BitVec 4
  rg : BitVec 4
  adv : BitVec 1
  so : BitVec 1
  soff : BitVec 5
  pe : BitVec 1
  pr : BitVec 3
  tfmt : BitVec 4
  sfmt : BitVec 4
  rnd : BitVec 1
  sat : BitVec 1
  srg : BitVec 4
  off : BitVec 17
  deriving DecidableEq, Repr

/-- Layout OM (Table 6.6), with the set that MAJOR[0] names. -/
structure LOM where
  set : BitVec 1
  lm1 : BitVec 14
  cfmt : BitVec 4
  rfmt : BitVec 4
  crg : BitVec 4
  rrg : BitVec 4
  csrg : BitVec 4
  rsrg : BitVec 4
  ct : BitVec 1
  rt : BitVec 1
  cpx : BitVec 1
  msk : BitVec 5
  mall : BitVec 1
  rsv : BitVec 9 := 0
  deriving DecidableEq, Repr

/-- Layout OD (R177), with the set that MAJOR[0] names. -/
structure LOD where
  set : BitVec 1
  dst : BitVec 1
  fmt : BitVec 4
  rnd : BitVec 1
  sat : BitVec 1
  drg : BitVec 4
  tag : BitVec 5
  rsv : BitVec 40 := 0
  deriving DecidableEq, Repr

/-- Layout OC (R180). -/
structure LOC where
  set : BitVec 1
  cont : BitVec 1
  fmt : BitVec 4
  crg : BitVec 4
  rrg : BitVec 4
  rsv : BitVec 42 := 0
  deriving DecidableEq, Repr

/-- Layout N (R181). -/
structure LN where
  rg : BitVec 4
  sa : BitVec 5
  sb : BitVec 5
  rrg : BitVec 4
  rsv : BitVec 32 := 0
  deriving DecidableEq, Repr

/-- Header of a host message (R406): the session it came by, PART and TAG. -/
structure Hdr where
  session : Nat
  part : Nat
  tag : Nat
  deriving DecidableEq, Repr

/-- An entry of the BINARY section (Table 16.4). -/
structure BinRef where
  digest : Nat
  addr : Nat
  len : Nat
  deriving DecidableEq, Repr

/-- An entry of the ARGS section: tile class, binary, s0 to s31. -/
structure ArgBlock where
  cls : Nat
  bin : Nat
  vals : List DWord
  deriving DecidableEq, Repr

/-- A register image of the TILEREGS, SITEREGS and MINUET sections: tile or site, offset, value. -/
structure RegImage where
  unit : Nat
  off : Nat
  val : DWord
  deriving DecidableEq, Repr

/-- An entry of the HALO section. -/
structure HaloImage where
  port : Nat
  win : Nat
  base : Nat
  len : Nat
  ctl : Nat
  deriving DecidableEq, Repr

/-- An entry of the BASE section: a class's resident image. -/
structure BaseRef where
  cls : Nat
  addr : Nat
  len : Nat
  deriving DecidableEq, Repr

/-- A job manifest (Tables 16.3, 16.4) with its signature block (Table 17.3). `rsv` is the sum of all its reserved bytes,
`tileRegs1` and `siteRegs1` are the register images of sections with INDEX 1, for the second binary of a pair (R346, log entry 59); `keyId` and
`sigOk` stand for KEYID and a signature that verifies under that key for this module (log entry 20). -/
structure Manifest where
  magic : Nat
  ver : Nat
  part : Nat
  flags : Nat
  mseq : Nat
  layout : Nat
  wdog : Nat
  cap : Nat
  pseed : Nat
  tau : Word
  escale : Nat
  emin : Nat
  emax : Nat
  dsite : Nat
  grow : Nat
  srate : Nat
  srateMax : Nat
  rmin : Nat
  rmax : Nat
  expDefer : Nat
  expW : Nat
  ntied : Nat
  kvtok : Nat
  rsv : Nat
  length : Nat
  bins : List BinRef
  fmap : List Nat
  args : List ArgBlock
  tileRegs : List RegImage
  siteRegs : List RegImage
  tileRegs1 : List RegImage
  siteRegs1 : List RegImage
  minuet : List RegImage
  halo : List HaloImage
  base : List BaseRef
  fields : List Nat
  sites : List Nat
  chans : List Nat
  ports : List Nat
  digest : Nat
  slot : Nat
  keyId : Nat
  sigOk : Bool
  deriving DecidableEq, Repr

/-- An entry of the sequence table (Table 12.3); `rsv` its reserved bits. -/
structure SeqEntry where
  start : Nat
  len : Nat
  flags : Nat
  var : Nat
  rsv : Nat
  deriving DecidableEq, Repr

/-- An entry of the stream table (Table 12.4). -/
structure StreamEntry where
  plen : Nat
  gmax : Nat
  seed : Nat
  var : Nat
  flags : Nat
  deriving DecidableEq, Repr

/-- The payload of RUN (Table 16.5). -/
structure RunReq where
  bin : Nat
  n : Nat
  input : Nat
  samples : Nat
  seqs : List SeqEntry
  streams : List StreamEntry
  deriving DecidableEq, Repr

/-- A Halo-native flit as it arrives (Table 15.1): its command gives TYPE, but where `rtype` is a reserved TYPE; `crc` is the CRC-64 it
carries; `codewords` what the FEC of each lane found since the flit before: lane, corrected symbols, uncorrectable codewords. -/
structure HFlit where
  seq : Nat
  ack : Nat
  nak : Bool
  cred : Nat
  tag : Nat
  off : Nat
  data : List Byte
  crc : Nat
  rtype : Nat
  codewords : List (Nat × Nat × Nat)
  deriving DecidableEq, Repr

/-- A signed image (Table 17.2): its key slot (0 or 1 firmware, 2 factory), and whether digest and signature verify. -/
structure Image where
  magic : Nat
  cls : Nat
  hdrVer : Nat
  commit : Bool
  svn : Nat
  version : Nat
  key : Nat
  digest : Nat
  steps : Nat
  sigOk : Bool
  deriving DecidableEq, Repr

/-- What CAPACITY_CHANGE moves (R417). -/
inductive ResKind where
  | field | site | chan | port
  deriving DecidableEq, Repr

/-- A word of a tile-map change (R28): index of the entry and its new value. -/
structure MapWord where
  idx : Nat
  val : Word
  deriving DecidableEq, Repr

/-- How a tile-map change ends (R28): the bypassed column that its summary takes; and after how many words the module loses 52 V, if it does. -/
structure MapEnd where
  col : Nat
  cut : Option Nat := none
  deriving DecidableEq, Repr

/-- A fill of a pull window's unit at a site (R243, R264): by the request that waits, or by the copy engine from one unit to another; and the
bits that the memory gets wrong where the copy engine reads. -/
structure FillAt where
  site : Nat
  copy : Option (Nat × Nat) := none
  flips : List Nat := []
  deriving DecidableEq, Repr


inductive Instr where
  /-- SUBMIT: A host submits a signed manifest; the job service checks it in the order of Table 16.6 and starts loading it or refuses it (R405) -/
  | submit (h : Hdr) (m : Manifest)
  /-- LOADED: Manifest loading completes, the partition goes to STATE 2 and LOADED is sent with the guarantee g (R405) -/
  | loaded (p : Nat)
  /-- RUN: A host asks the partition to run n steps of a binary from an INPUT address (R407) -/
  | run (h : Hdr) (r : RunReq)
  /-- HALT: A host asks the partition to stop after the running step (R407) -/
  | halt (h : Hdr)
  /-- ABORT: A host asks for the abort of its partition (R413) -/
  | abort (h : Hdr)
  /-- TAINT: A host asks for the running step to be tainted, with or without halving the loss scale (R320) -/
  | taint (h : Hdr) (halve : Bool)
  /-- EXPORT: A host asks for an export of its partition's state (R331) -/
  | exportMsg (h : Hdr)
  /-- STATUS: A host asks for the partition status, the Pavane state and the ledger (R406) -/
  | status (h : Hdr)
  /-- RELEASE: A host unloads its job; the partition goes to STATE 1 once quiescent (R406) -/
  | release (h : Hdr)
  /-- CAP: A host sets a new partition cap within the administrator's limit (R406) -/
  | cap (h : Hdr) (cap : Nat)
  /-- PUT: A host writes data to a site address of its partition, and the job service answers once it is written (R404) -/
  | put (h : Hdr) (addr : Nat) (data : List Byte)
  /-- INVOCATION_START: The job service writes the layout block, the registers and the descriptors, and starts an invocation on every tile (R147) -/
  | invocationStart (p : Nat)
  /-- PHASE_SWAP: The job service swaps a phase pair between rollout and learn, writing only the programs and tables that differ (R346) -/
  | phaseSwap (p : Nat)
  /-- TILE_END_REPORT: A tile that has executed CTL.END reports its end once its queues, products, transfers and pending scalars are clear (R154) -/
  | tileEndReport (t : Nat)
  /-- BEQZ: Branch when s[sa] is zero (R156) -/
  | beqz (t : Nat) (f : LB)
  /-- BNEZ: Branch when s[sa] is not zero (R156) -/
  | bnez (t : Nat) (f : LB)
  /-- BEQ: Branch when two scalars are equal (R156) -/
  | beq (t : Nat) (f : LB)
  /-- BNE: Branch when two scalars differ (R156) -/
  | bne (t : Nat) (f : LB)
  /-- BLT: Branch when s[sa] is less than s[sb], signed (R156) -/
  | blt (t : Nat) (f : LB)
  /-- BGE: Branch when s[sa] is greater than or equal to s[sb], signed (R156) -/
  | bge (t : Nat) (f : LB)
  /-- BLTU: Branch when s[sa] is less than s[sb], unsigned (R156) -/
  | bltu (t : Nat) (f : LB)
  /-- BGEU: Branch when s[sa] is greater than or equal to s[sb], unsigned (R156) -/
  | bgeu (t : Nat) (f : LB)
  /-- JMP: Jump to an instruction index (R156) -/
  | jmp (t : Nat) (f : LB)
  /-- JAL: Write the index of the next instruction to s[sd], then jump (R156) -/
  | jal (t : Nat) (f : LB)
  /-- JR: Jump to the index held in s[sa][11:0] (R156) -/
  | jr (t : Nat) (f : LB)
  /-- LOOP: Decrement s[sa] as an unsigned value and branch when the result is not zero (R157) -/
  | loop (t : Nat) (f : LB)
  /-- CTL_END: End the tile's invocation; nothing issues after it (R154) -/
  | ctlEnd (t : Nat) (f : LB)
  /-- SYS_NOP: No operation (R156) -/
  | sysNop (t : Nat) (f : LSI)
  /-- SYS_FENCE: Hold issue until every earlier instruction of the named units has completed (R153) -/
  | sysFence (t : Nat) (f : LSI)
  /-- SYS_TIME: Read the Cirrus timestamp into a scalar (R157) -/
  | sysTime (t : Nat) (f : LSI)
  /-- SYS_EVENT: Post an event code and value to the job service on VC0 and wait until it is accepted (R158) -/
  | sysEvent (t : Nat) (f : LSI)
  /-- EVENT_POST: A site die places an arriving EVENT flit in the partition's mailbox ring, or answers ECODE 0x41 when the ring is full (R400) -/
  | eventPost (t : Nat)
  /-- EVENT_RESEND: One microsecond after ECODE 0x41, the tile's router sends the EVENT flit again (R400) -/
  | eventResend (t : Nat)
  /-- ADD: Scalar 64-bit add (R160) -/
  | add (t : Nat) (f : LSR)
  /-- SUB: Scalar 64-bit subtract (R160) -/
  | sub (t : Nat) (f : LSR)
  /-- MUL: Scalar multiply, keeping the low 64 bits (R160) -/
  | mul (t : Nat) (f : LSR)
  /-- AND: Scalar bitwise and (R160) -/
  | and (t : Nat) (f : LSR)
  /-- OR: Scalar bitwise or (R160) -/
  | or (t : Nat) (f : LSR)
  /-- XOR: Scalar bitwise exclusive-or (R160) -/
  | xor (t : Nat) (f : LSR)
  /-- SLL: Scalar shift left logical (R160) -/
  | sll (t : Nat) (f : LSR)
  /-- SRL: Scalar shift right logical (R160) -/
  | srl (t : Nat) (f : LSR)
  /-- SRA: Scalar shift right arithmetic (R160) -/
  | sra (t : Nat) (f : LSR)
  /-- SLT: Scalar set-less-than, signed (R160) -/
  | slt (t : Nat) (f : LSR)
  /-- SLTU: Scalar set-less-than, unsigned (R160) -/
  | sltu (t : Nat) (f : LSR)
  /-- MIN: Scalar signed minimum (R160) -/
  | min (t : Nat) (f : LSR)
  /-- MAX: Scalar signed maximum (R160) -/
  | max (t : Nat) (f : LSR)
  /-- MINU: Scalar unsigned minimum (R160) -/
  | minu (t : Nat) (f : LSR)
  /-- MAXU: Scalar unsigned maximum (R160) -/
  | maxu (t : Nat) (f : LSR)
  /-- MOV: Copy one scalar to another (R159) -/
  | mov (t : Nat) (f : LSR)
  /-- ADDI: Add a sign-extended immediate (R160) -/
  | addi (t : Nat) (f : LSI)
  /-- ANDI: And with a sign-extended immediate (R160) -/
  | andi (t : Nat) (f : LSI)
  /-- ORI: Or with a sign-extended immediate (R160) -/
  | ori (t : Nat) (f : LSI)
  /-- XORI: Exclusive-or with a sign-extended immediate (R160) -/
  | xori (t : Nat) (f : LSI)
  /-- SLLI: Shift left logical by an immediate (R160) -/
  | slli (t : Nat) (f : LSI)
  /-- SRLI: Shift right logical by an immediate (R160) -/
  | srli (t : Nat) (f : LSI)
  /-- SRAI: Shift right arithmetic by an immediate (R160) -/
  | srai (t : Nat) (f : LSI)
  /-- SLTI: Set-less-than an immediate, signed (R160) -/
  | slti (t : Nat) (f : LSI)
  /-- SLTIU: Set-less-than an immediate, unsigned (R160) -/
  | sltiu (t : Nat) (f : LSI)
  /-- LI: Load a sign-extended immediate (R159) -/
  | li (t : Nat) (f : LSI)
  /-- LIU: Load a zero-extended immediate (R159) -/
  | liu (t : Nat) (f : LSI)
  /-- LIH: Load an immediate into the high half of a scalar (R159) -/
  | lih (t : Nat) (f : LSI)
  /-- LDW: Load one scratchpad word by absolute address through port 7 (R161) -/
  | ldw (t : Nat) (f : LSM)
  /-- LDD: Load two scratchpad words by absolute address through port 7 (R161) -/
  | ldd (t : Nat) (f : LSM)
  /-- STW: Store one scratchpad word by absolute address (R161) -/
  | stw (t : Nat) (f : LSM)
  /-- STD: Store two scratchpad words by absolute address (R161) -/
  | std (t : Nat) (f : LSM)
  /-- CSRR: Read a tile CSR into a scalar (R161) -/
  | csrr (t : Nat) (f : LSM)
  /-- MOV_VS: Move one vector word to a scalar, with a pending result (R162) -/
  | movVs (t : Nat) (f : LMV)
  /-- MOV_SV: Move a scalar into one vector word (R162) -/
  | movSv (t : Nat) (f : LMV)
  /-- MOV_VV: Copy one vector register to another (R162) -/
  | movVv (t : Nat) (f : LMV)
  /-- MOV_PS: Move a predicate to a scalar, with a pending result (R162) -/
  | movPs (t : Nat) (f : LMV)
  /-- MOV_SP: Move a scalar to a predicate (R162) -/
  | movSp (t : Nat) (f : LMV)
  /-- Q_WAIT: Wait until a region's occupancy reaches n (R133) -/
  | qWait (t : Nat) (f : LQ)
  /-- Q_SPACE: Wait until a region has n free words (R133) -/
  | qSpace (t : Nat) (f : LQ)
  /-- Q_POP: Advance a region's head as the sequencer (R163) -/
  | qPop (t : Nat) (f : LQ)
  /-- Q_PUSH: Advance a region's tail as the sequencer (R163) -/
  | qPush (t : Nat) (f : LQ)
  /-- RG_SET: Write a region descriptor from two scalars, once earlier users of the region have completed (R164) -/
  | rgSet (t : Nat) (f : LQ)
  /-- RG_GET: Read a region's occupancy and head into a scalar (R163) -/
  | rgGet (t : Nat) (f : LQ)
  /-- SPD_CLR: Clear a word range of the scratchpad through free slots (R140) -/
  | spdClr (t : Nat) (f : LQ)
  /-- VADD: Vector add, rounded once (R104) -/
  | vadd (t : Nat) (f : LVA)
  /-- VSUB: Vector subtract, rounded once (R104) -/
  | vsub (t : Nat) (f : LVA)
  /-- VMUL: Vector multiply, rounded once (R104) -/
  | vmul (t : Nat) (f : LVA)
  /-- VFMA: Vector fused multiply-add, with one rounding (R104) -/
  | vfma (t : Nat) (f : LVA)
  /-- VMIN: Vector floating minimum (R104) -/
  | vmin (t : Nat) (f : LVA)
  /-- VMAX: Vector floating maximum (R104) -/
  | vmax (t : Nat) (f : LVA)
  /-- VABS: Vector absolute value (R104) -/
  | vabs (t : Nat) (f : LVA)
  /-- VNEG: Vector negation (R104) -/
  | vneg (t : Nat) (f : LVA)
  /-- VDIV: Vector division, correctly rounded (R105) -/
  | vdiv (t : Nat) (f : LVA)
  /-- VSQRT: Vector square root, correctly rounded (R105) -/
  | vsqrt (t : Nat) (f : LVA)
  /-- VRCP: Vector reciprocal (R105) -/
  | vrcp (t : Nat) (f : LVA)
  /-- VRSQRT: Vector reciprocal square root (R105) -/
  | vrsqrt (t : Nat) (f : LVA)
  /-- VEXP2: Vector base-2 exponential (R105) -/
  | vexp2 (t : Nat) (f : LVA)
  /-- VLOG2: Vector base-2 logarithm (R105) -/
  | vlog2 (t : Nat) (f : LVA)
  /-- VEXP: Vector natural exponential (R105) -/
  | vexp (t : Nat) (f : LVA)
  /-- VLOG: Vector natural logarithm (R105) -/
  | vlog (t : Nat) (f : LVA)
  /-- VTANH: Vector hyperbolic tangent (R106) -/
  | vtanh (t : Nat) (f : LVA)
  /-- VSIGM: Vector logistic sigmoid (R106) -/
  | vsigm (t : Nat) (f : LVA)
  /-- VERF: Vector error function (R106) -/
  | verf (t : Nat) (f : LVA)
  /-- VIADD: Vector 32-bit integer add (R166) -/
  | viadd (t : Nat) (f : LVA)
  /-- VISUB: Vector 32-bit integer subtract (R166) -/
  | visub (t : Nat) (f : LVA)
  /-- VIMUL: Vector 32-bit integer multiply, low half (R166) -/
  | vimul (t : Nat) (f : LVA)
  /-- VAND: Vector bitwise and (R166) -/
  | vand (t : Nat) (f : LVA)
  /-- VOR: Vector bitwise or (R166) -/
  | vor (t : Nat) (f : LVA)
  /-- VXOR: Vector bitwise exclusive-or (R166) -/
  | vxor (t : Nat) (f : LVA)
  /-- VSLL: Vector shift left logical (R166) -/
  | vsll (t : Nat) (f : LVA)
  /-- VSRL: Vector shift right logical (R166) -/
  | vsrl (t : Nat) (f : LVA)
  /-- VSRA: Vector shift right arithmetic (R166) -/
  | vsra (t : Nat) (f : LVA)
  /-- VIMIN: Vector signed integer minimum (R166) -/
  | vimin (t : Nat) (f : LVA)
  /-- VIMAX: Vector signed integer maximum (R166) -/
  | vimax (t : Nat) (f : LVA)
  /-- VCMP_EQ: Floating compare for equality into a predicate (R103) -/
  | vcmpEq (t : Nat) (f : LVA)
  /-- VCMP_NE: Floating compare for inequality into a predicate (R103) -/
  | vcmpNe (t : Nat) (f : LVA)
  /-- VCMP_LT: Floating compare less-than into a predicate (R103) -/
  | vcmpLt (t : Nat) (f : LVA)
  /-- VCMP_LE: Floating compare less-or-equal into a predicate (R103) -/
  | vcmpLe (t : Nat) (f : LVA)
  /-- VCMP_GT: Floating compare greater-than into a predicate (R103) -/
  | vcmpGt (t : Nat) (f : LVA)
  /-- VCMP_GE: Floating compare greater-or-equal into a predicate (R103) -/
  | vcmpGe (t : Nat) (f : LVA)
  /-- VICMP_EQ: Signed integer compare for equality into a predicate (R103) -/
  | vicmpEq (t : Nat) (f : LVA)
  /-- VICMP_NE: Signed integer compare for inequality into a predicate (R103) -/
  | vicmpNe (t : Nat) (f : LVA)
  /-- VICMP_LT: Signed integer compare less-than into a predicate (R103) -/
  | vicmpLt (t : Nat) (f : LVA)
  /-- VICMP_LE: Signed integer compare less-or-equal into a predicate (R103) -/
  | vicmpLe (t : Nat) (f : LVA)
  /-- VICMP_GT: Signed integer compare greater-than into a predicate (R103) -/
  | vicmpGt (t : Nat) (f : LVA)
  /-- VICMP_GE: Signed integer compare greater-or-equal into a predicate (R103) -/
  | vicmpGe (t : Nat) (f : LVA)
  /-- PAND: Predicate and (R166) -/
  | pand (t : Nat) (f : LVA)
  /-- POR: Predicate or (R166) -/
  | por (t : Nat) (f : LVA)
  /-- PXOR: Predicate exclusive-or (R166) -/
  | pxor (t : Nat) (f : LVA)
  /-- PNOT: Predicate not (R166) -/
  | pnot (t : Nat) (f : LVA)
  /-- PPOP: Population count of a predicate into a scalar, with a pending result (R166) -/
  | ppop (t : Nat) (f : LVA)
  /-- VCVT: Convert one register between FP32, BF16 and FP16 (R107) -/
  | vcvt (t : Nat) (f : LVA)
  /-- VCVT_N2: Narrow two FP32 registers into one 16-bit register (R107) -/
  | vcvtN2 (t : Nat) (f : LVA)
  /-- SUM_NF: Count the non-finite enabled elements of a register into a scalar (R113) -/
  | sumNf (t : Nat) (f : LVS)
  /-- SUM_AMAX: Find the largest magnitude of a register into a scalar (R113) -/
  | sumAmax (t : Nat) (f : LVS)
  /-- SUM_ADD: Sum a register by a balanced tree into a scalar (R114) -/
  | sumAdd (t : Nat) (f : LVS)
  /-- SUM_ARGMAX: Find the position and value of the largest element into a scalar pair (R114) -/
  | sumArgmax (t : Nat) (f : LVS)
  /-- VLD: Load 32 words from a region at head offset o into a vector register (R169) -/
  | vld (t : Nat) (f : LVM)
  /-- VST: Store 32 words from a vector register to a region at tail offset o (R169) -/
  | vst (t : Nat) (f : LVM)
  /-- VST_CVT: Convert and store one destination register's worth of data from one, two or four source registers (R108) -/
  | vstCvt (t : Nat) (f : LVM)
  /-- VST_MX: Convert one lane's block to an MX format and write its elements and scale byte (R171) -/
  | vstMx (t : Nat) (f : LVM)
  /-- VQ_POP: Advance a region's head for the vector engine (R169) -/
  | vqPop (t : Nat) (f : LVM)
  /-- VQ_PUSH: Advance a region's tail for the vector engine (R169) -/
  | vqPush (t : Nat) (f : LVM)
  /-- SHARED_PORT_ACCESS: A shared-port access is served, word by word, in free bank slots by drain-first round-robin arbitration (R126) -/
  | sharedPortAccess (t bank : Nat) (feed : Bool) (want : List Nat)
  /-- OPE_MUL_CLR: Issue a product into an empty set, waiting for any undrained product to drain (R48) -/
  | opeMulClr (t : Nat) (f : LOM)
  /-- OPE_MUL_CONT: Issue a product that joins the set's current product or begins a new one (R48) -/
  | opeMulCont (t : Nat) (f : LOM)
  /-- OPE_DRN: Name the drain destination, format and tag of a set's product (R177) -/
  | opeDrn (t : Nat) (f : LOD)
  /-- OPE_CUBE: Compute a 4 × 4 × 4 cube product into the corner of one set, entering cube mode when both sets are empty (R73) -/
  | opeCube (t : Nat) (f : LOC)
  /-- OPE_FEED_BEAT: The feeds read the operand words of one feed beat, once the words are present, in the phases of Table 5.2 (R197) -/
  | opeFeedBeat (t : Nat)
  /-- OPE_SET_READY: The last contribution reaches cell (31, 31) and the set is ready to drain (R51) -/
  | opeSetReady (t k : Nat)
  /-- OPE_DRAIN_START: The drain begins once the set is ready, OPE.DRN is issued, the drain port is free and, for reduction, a staging record and space are free (R274) -/
  | opeDrainStart (t k : Nat)
  /-- OPE_CHECK: The comparator checks the drained rows and columns against the checksum bound at the check-result beat (R63) -/
  | opeCheck (t k : Nat) (upset : List (Nat × Nat × Nat))
  /-- TILE_SR_STEP_WRITE: A write of TILE_SR_STEP while the partition is quiescent sets the step and returns the drain and store ordinals to zero (R100) -/
  | tileSrStepWrite (priv : Bool) (t : Nat) (v : Word)
  /-- TILE_RG_WRITE: A host write to a region-descriptor register is checked against quiescence and the whole descriptor, and then applied or refused (R136) -/
  | tileRgWrite (priv : Bool) (t off : Nat) (v : Word)
  /-- HZD_CTL_WRITE: A write to HZD_CTL clears FAULT at any time and changes ACTION only while the partition is quiescent (R210) -/
  | hzdCtlWrite (priv : Bool) (t : Nat) (v : Word)
  /-- REGISTER_WRITE: A write to a register with no row of its own is admitted or refused with the ECODE of the first failing condition (R475) -/
  | registerWrite (priv wafer : Bool) (addr : Nat) (v : Word)
  /-- NET_PULL: Read LEN × 8 words from a site address into a region, split into units at 256-byte boundaries (R231) -/
  | netPull (t : Nat) (f : LN)
  /-- NET_PUSH: Write LEN × 8 words from a region to a site address, split into units (R231) -/
  | netPush (t : Nat) (f : LN)
  /-- NET_SEND: Send LEN × 8 words from a region to a region of another tile on VC4 (R237) -/
  | netSend (t : Nat) (f : LN)
  /-- ATOM_ADD: Add operands to site elements atomically, returning the old values (R259) -/
  | atomAdd (t : Nat) (f : LN)
  /-- ATOM_MIN: Apply minimum to site elements atomically (R259) -/
  | atomMin (t : Nat) (f : LN)
  /-- ATOM_MAX: Apply maximum to site elements atomically (R259) -/
  | atomMax (t : Nat) (f : LN)
  /-- ATOM_SWAP: Swap operands into site elements atomically (R259) -/
  | atomSwap (t : Nat) (f : LN)
  /-- ATOM_CAS: Compare and swap site elements atomically by bit pattern (R259) -/
  | atomCas (t : Nat) (f : LN)
  /-- NET_UNIT_ISSUE: The router issues a unit's RD, WR or AT once the unit's destination words are reserved and fewer than 32 units are outstanding (R231) -/
  | netUnitIssue (t tid : Nat)
  /-- FLIT_INJECT: A router injects a flit, setting CLS, EP and PART, with VC0 injection shaped to one flit in 256 beats (R224) -/
  | flitInject (t : Nat)
  /-- FLIT_HOP: A router forwards a flit to its next port by the routing function and output arbitration (R223) -/
  | flitHop (t port : Nat) (crcFail : Bool)
  /-- COMBINED_RETURN_COPY: A combining router sends one copy of each return flit to each requester and frees the entry after the last flit (R236) -/
  | combinedReturnCopy (t : Nat)
  /-- RDATA_ARRIVE: A return flit arrives at its tile and is written at its reserved region offset (R231) -/
  | rdataArrive (t : Nat)
  /-- UNIT_ACK_ARRIVE: An ACK or ERR for a WR or AT unit arrives at its requester (R231) -/
  | unitAckArrive (t : Nat)
  /-- NET_TRANSFER_COMPLETE: A transfer completes and, once every earlier transfer on the region is complete, its region's tail or head advances (R183) -/
  | netTransferComplete (t tid : Nat)
  /-- SEND_FLIT_ARRIVE: A SEND flit is checked against the destination descriptor and written when there is space, with an ACK per group of 8 (R237) -/
  | sendFlitArrive (t : Nat)
  /-- TILE_WINDOW_READ: A CTL window read reaches a tile's scratchpad, instruction store or CSRs and returns read data (R122) -/
  | tileWindowRead (priv wafer : Bool) (addr : Nat)
  /-- TILE_WINDOW_WRITE: A CTL window write reaches a tile's scratchpad, instruction store or CSRs (R122) -/
  | tileWindowWrite (priv wafer : Bool) (addr : Nat) (v : Word)
  /-- ROUTE_ENTRY_WRITE: A write of a field route table entry reaches every router of the field, refused when it targets the active bank (R226) -/
  | routeEntryWrite (priv : Bool) (f bank d : Nat) (v : Word)
  /-- EPOCH_SWAP: A write of ACTIVE makes new injections stamp the new bank while flits in flight keep their own (R229) -/
  | epochSwap (priv : Bool) (f : Nat) (v : Word)
  /-- ROUTE_RECOMPUTE: When the set of holes changes, the job service computes and loads new route tables and swaps the epoch (R35) -/
  | routeRecompute
  /-- RDESC_WRITE: A write of a router reduction descriptor entry while the partition is quiescent (R281) -/
  | rdescWrite (priv : Bool) (t d : Nat) (v : Word)
  /-- RED_FLIT_SEND: The router sends a staged block's next RED flit on a descriptor when it holds a credit and R277 permits (R276) -/
  | redFlitSend (t d : Nat)
  /-- RED_COMBINE: An adding router combines the head flits of all inputs of a descriptor once all are present, and forwards the sum (R239) -/
  | redCombine (t d : Nat)
  /-- RED_ROOT_FLIT: A site accepts a root flit whose bucket lies in the reorder window, or withholds credits or stops the descriptor (R289) -/
  | redRootFlit (n d : Nat)
  /-- BUCKET_COMMIT: A complete bucket at the head of the window is committed in block order and acknowledged (R290) -/
  | bucketCommit (n : Nat)
  /-- BUCKET_ACK_RECEIVE: A router receives a bucket acknowledgement, copies it to its inputs and applies it to its own staging maps (R279) -/
  | bucketAckReceive (t : Nat)
  /-- RETRY_DECISION: When the retry sums have arrived, the site commits the primary or the retry sums, or aborts the step (R295) -/
  | retryDecision (n : Nat)
  /-- SITE_RED_STEP_WRITE: A write of SITE_RED_STEP places the window at the first record and clears partial sums and DONE (R291) -/
  | siteRedStepWrite (priv : Bool) (n : Nat) (v : Word)
  /-- SITE_REQUEST_ARRIVE: A site receives a request flit, checks its ownership and queues it, or withholds credits when the queue is full (R265) -/
  | siteRequestArrive (t : Nat)
  /-- SITE_REQUEST_SERVE: A site serves its oldest queued unit request from HBM, Stratus or the memory cache (R256) -/
  | siteRequestServe (n : Nat) (flips : List Nat)
  /-- PWIN_READ: A read of a pull-window unit lowers its reader count by RCNT, or is parked until the unit is filled (R234) -/
  | pwinRead (n : Nat) (flips : List Nat)
  /-- PWIN_FILL: A whole-unit write fills a window unit when its count is zero, setting the count to RDEF, or is parked (R264) -/
  | pwinFill (n : FillAt)
  /-- ARM_FILLED: Arm a pull window with every reader count set to RDEF (R263) -/
  | armFilled (priv : Bool) (n w : Nat)
  /-- ARM_EMPTY: Arm a pull window with every reader count set to zero (R263) -/
  | armEmpty (priv : Bool) (n w : Nat)
  /-- DISARM: Disarm a pull window and free its counts (R263) -/
  | disarm (priv : Bool) (n w : Nat)
  /-- SITE_SC_ALLOC_WRITE: A write dividing the site cache, refused unless the site is idle and the parts fit (R258) -/
  | siteScAllocWrite (priv : Bool) (n : Nat) (v : Word)
  /-- SITE_OWN_WRITE: A write of the site's owner, refused while the site holds state of its present owner (R265) -/
  | siteOwnWrite (priv : Bool) (n : Nat) (v : Word)
  /-- PATROL_READ: The site reads its stack and Stratus share on patrol, applying error correction (R251) -/
  | patrolRead (n : Nat) (str : Bool) (flips : List Nat)
  /-- SELF_REFRESH_ENTRY: After 1 ms with no request, the stack or RDIMM enters self-refresh (R244) -/
  | selfRefreshEntry (n : Nat) (str : Bool)
  /-- REFRESH: Refresh or refresh management delays requests without changing data (R268) -/
  | refresh (n : Nat)
  /-- STACK_THERMAL_READING: The site compares a stack sensor reading against the thermal levels and applies the new level (R269) -/
  | stackThermalReading (n temp : Nat)
  /-- SITE_DISABLE: A site is disabled, drains its begun requests and answers new ones with ERR 0x17 (R270) -/
  | siteDisable (priv : Bool) (n : Nat)
  /-- KEY_SLOT_LOAD: The root of trust loads a partition's key into a site slot (R267) -/
  | keySlotLoad (n p : Nat)
  /-- BIND_RECORD: The update engine binds the next binding record once its entry and, for Stratus, a landing slot are free (R310) -/
  | bindRecord (n : Nat)
  /-- BLOCK_UPDATE: The update engine updates a committed block, once its record is bound, and adds its squares to the norm (R306) -/
  | blockUpdate (n : Nat)
  /-- UPDATE_WRITE_COMPLETE: An update's writes complete and its entry and landing slot are freed (R310) -/
  | updateWriteComplete (n : Nat)
  /-- TAINT_PROPAGATE: A site learns of a taint and stops computing and binding while it keeps accepting blocks (R321) -/
  | taintPropagate (n : Nat)
  /-- SITE_FINISHED: A site whose reduction is done and writes are complete sends its partial to DSITE (R319) -/
  | siteFinished (n : Nat)
  /-- PAVANE_DECIDE: DSITE adds every site's partial and decides to withhold, flip or fold (R319) -/
  | pavaneDecide (p : Nat)
  /-- FOLD: A site rewrites the shadow half of each fired CLIP 1 block with the clip factor c (R324) -/
  | fold (n : Nat)
  /-- FOLD_COMPLETE: Every site has folded and DSITE enters FLIP (R322) -/
  | foldComplete (p : Nat)
  /-- FLIP_COMPLETE: Every site has flipped; DSITE advances STEP, sets c_lag and the loss scale, and writes the step record (R323) -/
  | flipComplete (p : Nat)
  /-- ARM: Arm the next step at DSITE, checking the step counters and exports over the ring (R329) -/
  | arm (priv : Bool) (n : Nat)
  /-- TAINT_HALVE: Taint the running step with halving of the loss scale (R320) -/
  | taintHalve (priv : Bool) (n : Nat)
  /-- TAINT_NO_HALVE: Taint the running step without halving the loss scale (R320) -/
  | taintNoHalve (priv : Bool) (n : Nat)
  /-- CLEAR: Return a LOST partition to IDLE after its state is restored (R322) -/
  | clear (priv : Bool) (n : Nat)
  /-- EXPORT_START: Start an export of the live half from the site's export list (R331) -/
  | exportStart (priv : Bool) (n : Nat)
  /-- EXPORT_CANCEL: Cancel an export, keeping the records already written (R331) -/
  | exportCancel (priv : Bool) (n : Nat)
  /-- EXPORT_COMPLETE: An export has written a shard record for every part of every entry (R332) -/
  | exportComplete (n : Nat)
  /-- DSITE_REASSIGN: The job service names a new DSITE after the old one fails and copies the last step record to it (R328) -/
  | dsiteReassign (p : Nat)
  /-- FIELD_RELOCATE: The job service moves a lost binary field to a reserve field and resumes from the last committed step (R338) -/
  | fieldRelocate (p f : Nat)
  /-- FEED_VOLTAGE_SAMPLE: Every 10 µs the module classifies each feed's voltage and acts on the feed's half (R350) -/
  | feedVoltageSample (feed mv10 : Nat)
  /-- FIELD_SENSOR_READING: A field reads its junction sensors and throttles or switches off under the thresholds (R356) -/
  | fieldSensorReading (f : Nat) (temps : List (Option Nat))
  /-- THROTTLE_ESCALATE: At the end of each further 100 µs at 95 °C or more, VTH falls one level or the pace tightens (R357) -/
  | throttleEscalate (f : Nat)
  /-- THROTTLE_RELEASE: After each 10 ms at 90 °C or less, the last throttling step is undone (R357) -/
  | throttleRelease (f : Nat)
  /-- SQUALL_DRAIN_COMPLETE: A draining field disables its crossing buffers and switches its stage off (R358) -/
  | squallDrainComplete (f : Nat)
  /-- FUSE_OPEN: A field's fuse opens on overcurrent or undervoltage, losing its flits and requesting aborts (R359) -/
  | fuseOpen (f : Nat)
  /-- FIELD_POWER_UP: CMD 1 powers a field up from POWER 0 through the map check, microcode load, lock and clear (R465) -/
  | fieldPowerUp (priv : Bool) (f : Nat)
  /-- FIELD_READY: A field's power-up completes and POWER becomes 2 (R465) -/
  | fieldReady (f : Nat) (microcode lock : Bool)
  /-- FIELD_POWER_DOWN: CMD 2 drains and powers down a field with no owner or a quiescent owner (R366) -/
  | fieldPowerDown (priv : Bool) (f : Nat)
  /-- FIELD_DRAIN_COMPLETE: A commanded drain ends and the field's stage is off (R366) -/
  | fieldDrainComplete (f : Nat)
  /-- FUSE_RETEST: CMD 3 drives the tile supply toward 0.10 V to re-test an open fuse (R362) -/
  | fuseRetest (priv : Bool) (f : Nat)
  /-- FUSE_RETEST_COMPLETE: A fuse re-test ends, leaving the field at POWER 0 or 4 (R362) -/
  | fuseRetestComplete (f : Nat) (reached : Bool)
  /-- COOLANT_SAMPLE: Every 10 ms the module reads the coolant and sets COOLST and the coolant cap (R363) -/
  | coolantSample (tin tout flow : Nat)
  /-- ENERGY_WINDOW_END: At the end of each 1 ms window, the governors compare the energy with the caps and adjust ceilings and pace (R369) -/
  | energyWindowEnd (feedA feedB module_ : Nat) (parts fields : List Nat)
  /-- PACING_TICK: At each pacing tick, every tile of a paced field refills its credit (R375) -/
  | pacingTick
  /-- CIR_SET: The first write of CIR_SET loads the count into every node, the first lock; later writes are refused (R464) -/
  | cirSet (priv : Bool) (v : DWord)
  /-- CIRRUS_PHASE_LOSS: A node whose phase error exceeds 1.0 ns for 10 µs sets LOSS and raises an error record (R377) -/
  | cirrusPhaseLoss (f perr : Nat)
  /-- CIRRUS_NODE_STOP: When a node stops, its neighbours drop its coupling and unlocked fields are treated as lost (R376) -/
  | cirrusNodeStop (f : Nat)
  /-- HALO_ENABLE: CMD 1 enables and trains a Halo port (R388) -/
  | haloEnable (priv : Bool) (q : Nat)
  /-- HALO_DISABLE: CMD 2 disables a port, cancelling its transfers with STATUS 4 (R393) -/
  | haloDisable (priv : Bool) (q : Nat)
  /-- HALO_RETRAIN: CMD 3 retrains a Halo port (R388) -/
  | haloRetrain (priv : Bool) (q : Nat)
  /-- HALO_TRAINING_COMPLETE: A port's training ends with STATE 2, or STATE 5 after three failures (R388) -/
  | haloTrainingComplete (q : Nat) (ok : Bool) (rtt : Nat)
  /-- IDLE: An IDLE flit delivers ACK, NAK and credits; a NAK starts a replay from ACK + 1 (R385) -/
  | idle (q : Nat) (x : HFlit)
  /-- WREQ: A write request is checked against its window and begins a write (R389) -/
  | wreq (q : Nat) (x : HFlit)
  /-- WDATA: A write data flit delivers two units, written under R256 (R390) -/
  | wdata (q : Nat) (x : HFlit)
  /-- RREQ: A read request is checked against its window and begins a read (R389) -/
  | rreq (q : Nat) (x : HFlit)
  /-- RDATA: A read data flit delivers two units of a read (R390) -/
  | rdata (q : Nat) (x : HFlit)
  /-- CMPL: A completion flit ends a transfer with its status (R390) -/
  | cmpl (q : Nat) (x : HFlit)
  /-- CTRL: A control flit names the SEQ at which a lane swap, width change or retrain takes effect (R387) -/
  | ctrl (q : Nat) (x : HFlit)
  /-- HALO_WRITE_COMPLETE: Every unit of a write has been written and CMPL STATUS 0 is sent (R390) -/
  | haloWriteComplete (q tag : Nat)
  /-- HALO_LANE_BAD: A lane marked bad is replaced by the spare, or the port narrows or retrains (R387) -/
  | haloLaneBad (q lane : Nat)
  /-- RING_BREAK: A ring link fails; neighbours flag it, traffic reroutes and affected transfers and steps end (R382) -/
  | ringBreak (link : Nat)
  /-- HALO_WIN_WRITE: A write of a Halo window advances KEYGEN, refused while a transfer uses the window (R396) -/
  | haloWinWrite (priv : Bool) (q off : Nat) (v : Word)
  /-- HALO_MODULE_TRANSFER: The module starts its own Halo transfer for an export or input staging on the job service's command (R392) -/
  | haloModuleTransfer (q win unit n : Nat) (read : Bool)
  /-- ROCE_WRITE: An RDMA WRITE lands in a port window (R396) -/
  | roceWrite (q qp key off : Nat) (data : List Byte)
  /-- ROCE_WRITE_IMM: An RDMA WRITE with immediate lands in a port window (R396) -/
  | roceWriteImm (q qp key off : Nat) (data : List Byte) (imm : Word)
  /-- ROCE_READ: An RDMA READ returns data from a port window (R396) -/
  | roceRead (q qp key off len : Nat)
  /-- ROCE_SEND: A SEND lands in the next posted receive area of its queue pair (R396) -/
  | roceSend (q qp : Nat) (data : List Byte)
  /-- CNP_RECEIVED: A congestion notification lowers the sending rate of module-initiated traffic (R395) -/
  | cnpReceived (q qp : Nat)
  /-- ECN_MARKED_PACKET: A received ECN-marked packet causes a congestion notification to be sent (R395) -/
  | ecnMarkedPacket (q qp : Nat)
  /-- ARP_REQUEST: The job service answers ARP (R395) -/
  | arpRequest (q addr : Nat)
  /-- NEIGHBOUR_DISCOVERY: The job service answers IPv6 neighbour discovery (R395) -/
  | neighbourDiscovery (q addr : Nat)
  /-- ICMP_ECHO: The job service answers ICMP echo (R395) -/
  | icmpEcho (q addr id : Nat) (data : List Byte)
  /-- NON_ROCE_FRAME: Other non-RoCEv2 traffic is dropped and counted (R395) -/
  | nonRoceFrame (q : Nat)
  /-- PART_ABORT: PART_CTL CMD 1 aborts the partition's step through Table 16.11 (R413) -/
  | partAbort (priv : Bool) (p : Nat)
  /-- PART_RESET: PART_CTL CMD 2 aborts the partition and unloads its job (R415) -/
  | partReset (priv : Bool) (p : Nat)
  /-- PART_DISABLE: PART_CTL CMD 3 disables the partition and aborts its work (R416) -/
  | partDisable (priv : Bool) (p : Nat)
  /-- PART_ENABLE: PART_CTL CMD 4 enables a disabled partition (R416) -/
  | partEnable (priv : Bool) (p : Nat)
  /-- ABORT_COMPLETE: A partition abort ends with QUIESCENT set, STATE 2, and ABORTED posted (R413) -/
  | abortComplete (p : Nat)
  /-- MOD_ABORT: MOD_ABORT CMD 1 aborts every partition at once and stops self-test (R414) -/
  | modAbort (priv : Bool)
  /-- WATCHDOG_EXPIRY: When ELAPSED reaches LIMIT, the Ezper block requests the partition's abort with ACAUSE 2 (R410) -/
  | watchdogExpiry (p : Nat)
  /-- STALL_ADVISORY: A tile waiting with nothing issued for 10 ms raises the stall advisory, repeated at most once a second (R411) -/
  | stallAdvisory (p : Nat) (held : List Nat)
  /-- CC_RESTART: The control-complex operating system restarts while the wafer keeps running (R401) -/
  | ccRestart
  /-- CC_RESTART_COMPLETE: The job service returns, rebuilds its state and posts held outcomes and events (R401) -/
  | ccRestartComplete
  /-- CAPACITY_CHANGE: The job service changes the owner of a field, site, channel or port once both owners are quiescent (R417) -/
  | capacityChange (kind : ResKind) (u owner : Nat)
  /-- PARTITION_DEFINE: A partition is defined and the root of trust draws its key (R427) -/
  | partitionDefine (p cert limit : Nat)
  /-- PARTITION_FREE: A partition is freed; its key is destroyed and its mailbox and tables zeroed (R429) -/
  | partitionFree (p : Nat)
  /-- SITE_WIPE: The job service wipes a dirty site under its new owner's key before writing SITE_OWN (R428) -/
  | siteWipe (n p : Nat) (str : Bool)
  /-- WIPE_COMPLETE: A wipe ends, DIRTY or STRDIRTY clears and SITE_OWN is written (R428) -/
  | wipeComplete (n : Nat)
  /-- RESERVE_SET: The administrator sets the reserve count and named reserve fields through Redfish (R39) -/
  | reserveSet (count : Nat) (named : List Nat)
  /-- DEBUG_POLICY_SET: The administrator changes a partition's debug policy, applied by a partition reset (R433) -/
  | debugPolicySet (p : Nat) (on : Bool)
  /-- QUIET_WINDOW_SET: The administrator declares a quiet window for a partition through Redfish (R458) -/
  | quietWindowSet (p : Nat) (on : Bool)
  /-- HOST_KEY_REGISTER: The administrator registers or removes a host key and its rights in a partition slot (R424) -/
  | hostKeyRegister (p slot : Nat) (key : Option Nat) (rights : Nat)
  /-- FIRMWARE_UPDATE: A signed image is written to the inactive flash copy through the UpdateService (R423) -/
  | firmwareUpdate (img : Image)
  /-- COMMIT_SECURITY_VERSION: The administrator raises an anti-rollback counter to the running image's SVN (R423) -/
  | commitSecurityVersion (cls : Nat)
  /-- GET_VERSION: SPDM GET_VERSION request (R431) -/
  | getVersion (c : Nat)
  /-- GET_CAPABILITIES: SPDM GET_CAPABILITIES request (R431) -/
  | getCapabilities (c : Nat)
  /-- NEGOTIATE_ALGORITHMS: SPDM NEGOTIATE_ALGORITHMS request (R431) -/
  | negotiateAlgorithms (c : Nat) (falcon shake : Bool)
  /-- GET_DIGESTS: SPDM GET_DIGESTS request (R431) -/
  | getDigests (c : Nat)
  /-- GET_CERTIFICATE: SPDM GET_CERTIFICATE request (R431) -/
  | getCertificate (c slot : Nat)
  /-- CHALLENGE: SPDM CHALLENGE request, signed with the attestation key (R431) -/
  | challenge (c slot nonce : Nat)
  /-- GET_MEASUREMENTS: SPDM GET_MEASUREMENTS request, answered from a single instant (R432) -/
  | getMeasurements (c idx nonce : Nat)
  /-- DEBUG_UNLOCK: A signed unlock token aborts the module, destroys every key and sets MODDBG (R434) -/
  | debugUnlock (serial nonce : Nat) (sigOk : Bool)
  /-- ENTROPY_HEALTH_FAIL: An entropy health test fails; the root of trust generates no key and logs the failure (R420) -/
  | entropyHealthFail
  /-- ERROR_RECORD_JUDGE: The job service judges an error record, marking tiles suspect or bad (R455) -/
  | errorRecordJudge (seqno : Nat)
  /-- FIELD_RESPARE: At a step boundary with the field quiescent, the job service rewrites its map with a new bypassed column and powers it up (R41) -/
  | fieldRespare (f : Nat)
  /-- TMAP_CHANGE: The job service journals a tile-map change and writes entries, summary and CRC in order (R28) -/
  | tmapChange (f : Nat) (words : List MapWord) (bad : Nat) (byp : MapEnd)
  /-- PREG_WRITE: A write to a persistent word persists, counts against wear and reads back beyond its rating (R461) -/
  | pregWrite (priv : Bool) (addr : Nat) (v : Word) (back : Word)
  /-- STEP_RETRY: After an abort for a hard fault, the job service runs the same step again, stopping after three failures (R440) -/
  | stepRetry (p : Nat)
  /-- TILE_INJ_PARITY: Arm kind 1: the next read of a word reports a failing byte parity (R447) -/
  | tileInjParity (priv : Bool) (t arg b : Nat)
  /-- TILE_INJ_ACCUMULATOR: Arm kind 2: flip an accumulator bit after the last contribution of the next product (R447) -/
  | tileInjAccumulator (priv : Bool) (t arg b : Nat)
  /-- TILE_INJ_LANE: Arm kind 3: flip a bit of the next sampled instruction's data-lane result (R447) -/
  | tileInjLane (priv : Bool) (t b : Nat)
  /-- TILE_INJ_INSTR_PARITY: Arm kind 4: the next issue of an instruction fails parity (R447) -/
  | tileInjInstrParity (priv : Bool) (t arg : Nat)
  /-- TILE_INJ_FLIT: Arm kind 5: flip a payload bit of the next flit sent on a port after its CRC (R447) -/
  | tileInjFlit (priv : Bool) (t port arg b : Nat)
  /-- TILE_INJ_ADDER: Arm kind 6: flip a bit of the next flit a descriptor's adder forms (R447) -/
  | tileInjAdder (priv : Bool) (t arg b : Nat)
  /-- TILE_INJ_STORED_BITS: Kind 7: flip two stored bits of a word at once with parity unchanged (R447) -/
  | tileInjStoredBits (priv : Bool) (t arg b : Nat)
  /-- TILE_INJ_HAZARD: Arm kind 8: add one extra claim to a bank in the next feed beat (R447) -/
  | tileInjHazard (priv : Bool) (t arg : Nat)
  /-- SITE_INJ_HBM: Arm corruption of N symbols in the next HBM write of a unit (R448) -/
  | siteInjHbm (priv : Bool) (n unit count : Nat)
  /-- SITE_INJ_STRATUS: Arm corruption of N devices in the next Stratus write of a unit (R448) -/
  | siteInjStratus (priv : Bool) (n unit count : Nat)
  /-- SITE_INJ_CACHE: Arm N flipped bits in the next fill of a cache line (R448) -/
  | siteInjCache (priv : Bool) (n unit count : Nat)
  /-- SITE_INJ_TEMP: Substitute the stack temperature readings for 100 ms (R448) -/
  | siteInjTemp (priv : Bool) (n temp : Nat)
  /-- SITE_INJ_TEMP_EXPIRY: The 100 ms temperature substitution ends (R448) -/
  | siteInjTempExpiry (n : Nat)
  /-- HALO_INJ_CRC: Arm a CRC failure in the next sequenced flit received (R449) -/
  | haloInjCrc (priv : Bool) (q : Nat)
  /-- HALO_INJ_CODEWORDS: Inject COUNT uncorrectable codewords on a lane (R449) -/
  | haloInjCodewords (priv : Bool) (q lane count : Nat)
  /-- HALO_INJ_LOCK: Make a lane lose codeword lock (R449) -/
  | haloInjLock (priv : Bool) (q lane : Nat)
  /-- EZ_INJ_FEED_VOLTAGE: Substitute a feed voltage reading while ACTIVE (R450) -/
  | ezInjFeedVoltage (priv : Bool) (feed value dur : Nat)
  /-- EZ_INJ_SENSOR_READING: Substitute a field sensor reading while ACTIVE (R450) -/
  | ezInjSensorReading (priv : Bool) (f sensor value dur : Nat)
  /-- EZ_INJ_SENSOR_INVALID: Mark a field sensor invalid while ACTIVE (R450) -/
  | ezInjSensorInvalid (priv : Bool) (f sensor dur : Nat)
  /-- EZ_INJ_STAGE_FAULT: Drive the stage undervoltage detector once, opening the fuse (R450) -/
  | ezInjStageFault (priv : Bool) (f : Nat)
  /-- EZ_INJ_PHASE_ERROR: Substitute a Cirrus phase error while ACTIVE (R450) -/
  | ezInjPhaseError (priv : Bool) (f value dur : Nat)
  /-- EZ_INJ_COOLANT: Substitute a coolant reading while ACTIVE (R450) -/
  | ezInjCoolant (priv : Bool) (target value dur : Nat)
  /-- EZ_INJ_EXPIRY: DUR elapses and ACTIVE clears, ending the substitution (R450) -/
  | ezInjExpiry
  /-- FP_SWEEP_START: CMD 1 starts a fingerprint sweep of NGRP groups from CURSOR while RUN is clear (R453) -/
  | fpSweepStart (priv : Bool) (t : Nat)
  /-- FP_SWEEP_STOP: CMD 2 stops a fingerprint sweep (R453) -/
  | fpSweepStop (priv : Bool) (t : Nat)
  /-- FP_GROUP_CHECK: The sweep compares a group's computed fingerprint with the pulled one and refetches on mismatch (R453) -/
  | fpGroupCheck (t : Nat)
  /-- FIELD_LOGIC_TEST: Start the field logic self-test, kind 1 (R459) -/
  | fieldLogicTest (priv : Bool) (f : Nat)
  /-- FIELD_LINK_TEST: Start the field link self-test, kind 2 (R459) -/
  | fieldLinkTest (priv : Bool) (f : Nat)
  /-- RATE_CALIBRATION: Start the beat-rate calibration, kind 3 (R459) -/
  | rateCalibration (priv : Bool) (f : Nat)
  /-- SENSOR_CHECK: Start the sensor check, kind 4, in any state (R459) -/
  | sensorCheck (priv : Bool) (f : Nat)
  /-- FLD_TEST_STOP: CMD 2 stops a running field test (R460) -/
  | fldTestStop (priv : Bool) (f : Nat)
  /-- FLD_TEST_COMPLETE: A field test ends with a RESULT, recording any failing tile (R459) -/
  | fldTestComplete (f : Nat) (fail : Option (Nat × Nat × Nat)) (outliers : List Nat)
  /-- POWER_ON: Power-on begins after a feed has been normal for 10 ms and passes through the stages (R463) -/
  | powerOn (a b : Bool)
  /-- POWER_ON_STAGE_COMPLETE: A power-on stage completes and STAGE advances (R463) -/
  | powerOnStageComplete (failed : List Nat)
  /-- MODULE_READY: The module becomes ready; partitions are redefined and the reserve filled (R467) -/
  | moduleReady
  /-- MODULE_RESET: MOD_RESET CMD 1 aborts, destroys keys, powers fields down and restarts power-on (R470) -/
  | moduleReset (priv : Bool)
  /-- TILE_RESET: TILE_RST CMD 1 clears a quiescent tile's scratchpad and resets its state (R472) -/
  | tileReset (priv : Bool) (t : Nat)
  /-- EVENT_ACKNOWLEDGE: The job service copies an EVENT entry out of its mailbox ring and only then acknowledges the EVENT flit, which lets the waiting SYS.EVENT complete (R400) -/
  | eventAcknowledge (ring : Nat)
  /-- HOST_SESSION_OPEN: A host opens a TLS 1.3 session to TCP port 7460 with mutual certificate authentication, and the job service binds it to the partition whose certificate it presents (R406) -/
  | hostSessionOpen (cert : Nat) (port : Nat)
  /-- ETHERNET_LINK_DOWN: In Ethernet mode a lane failure takes the 1.6 Tb/s link down, as IEEE 802.3dj lays down, without any lane swap (R395) -/
  | ethernetLinkDown (q : Nat)
  /-- PRIORITY_FLOW_CONTROL_FRAME: A received IEEE 802.1Qbb priority flow control frame pauses or resumes the port's transmission on its priority (R395) -/
  | priorityFlowControlFrame (q prio : Nat) (pause : Bool)
  /-- ROCE_ACKNOWLEDGE: A RoCEv2 acknowledgement or NAK for a module-initiated transfer arrives and completes the transfer or makes it retry (R396) -/
  | roceAcknowledge (q tag : Nat) (nak : Bool)
  /-- ROCE_RETRANSMIT_TIMEOUT: The RoCEv2 transport timer of a module-initiated transfer expires, and the lost packets are sent again (R396) -/
  | roceRetransmitTimeout (q tag : Nat)
  /-- SUSPICION_LAPSE: A tile's entry leaves the suspect list after 24 h without a further record (R455) -/
  | suspicionLapse (phys : Nat)
  /-- SITE_MEMORY_MARCH: The job service runs the copy-engine HBM march self-test on a dirty site with no owner, leaving the site dirty (R459) -/
  | siteMemoryMarch (n : Nat) (bad : List Nat)
  deriving DecidableEq, Repr

end Sys2Proof
end

