-- ==== Sys2Proof/Decode.lean ====
section
/-!
DEFINITION. The 64-bit instruction words of Greset GL1: the layouts, the decoder and the encoder (R144 to R146, Tables 6.1 to
6.8), with which the job service and the sequencer's instruction store are written. spec/opcode_table.json gives its rows no
bits, so no command is spelled by a table word.
-/

namespace Sys2Proof

/-- The table of commands gives no row any bits: no word spells a command. -/
def decodeTableWord (_ _ : Nat) : Option Instr := none

/-- MAJOR, X and MINOR of a word (R144). -/
def majorOf (w : DWord) : Nat := (w.extractLsb' 57 7).toNat
@[inherit_doc majorOf] def xOf (w : DWord) : BitVec 1 := w.extractLsb' 56 1
@[inherit_doc majorOf] def minorOf (w : DWord) : Nat := (w.extractLsb' 50 6).toNat

/-- The first fourteen bits of a word with a MINOR. -/
def opBits (major minor : Nat) : BitVec 14 := BitVec.ofNat 7 major ++ 0#1 ++ BitVec.ofNat 6 minor

/-- Layout B read from a word, and its bits [49:0] (R156). -/
def LB.ofWord (w : DWord) : LB :=
  { sa := w.extractLsb' 45 5, sb := w.extractLsb' 40 5, rsv := w.extractLsb' 16 24, tgt := w.extractLsb' 0 16 }
@[inherit_doc LB.ofWord] def LB.toBits (f : LB) : BitVec 50 :=
  f.sa ++ f.sb ++ f.rsv ++ f.tgt

/-- Layout SI read from a word, and its bits [49:0] (R156). -/
def LSI.ofWord (w : DWord) : LSI :=
  { sd := w.extractLsb' 45 5, sa := w.extractLsb' 40 5, rsv := w.extractLsb' 32 8, imm := w.extractLsb' 0 32 }
@[inherit_doc LSI.ofWord] def LSI.toBits (f : LSI) : BitVec 50 :=
  f.sd ++ f.sa ++ f.rsv ++ f.imm

/-- Layout SR read from a word, and its bits [49:0] (R159). -/
def LSR.ofWord (w : DWord) : LSR :=
  { sd := w.extractLsb' 45 5, sa := w.extractLsb' 40 5, sb := w.extractLsb' 35 5, rsv := w.extractLsb' 0 35 }
@[inherit_doc LSR.ofWord] def LSR.toBits (f : LSR) : BitVec 50 :=
  f.sd ++ f.sa ++ f.sb ++ f.rsv

/-- Layout SM read from a word, and its bits [49:0] (R159). -/
def LSM.ofWord (w : DWord) : LSM :=
  { sd := w.extractLsb' 45 5, sa := w.extractLsb' 40 5, rsv := w.extractLsb' 18 22, off := w.extractLsb' 0 18 }
@[inherit_doc LSM.ofWord] def LSM.toBits (f : LSM) : BitVec 50 :=
  f.sd ++ f.sa ++ f.rsv ++ f.off

/-- Layout MV read from a word, and its bits [49:0] (R162). -/
def LMV.ofWord (w : DWord) : LMV :=
  { s := w.extractLsb' 45 5, v := w.extractLsb' 41 4, p := w.extractLsb' 38 3, rsv := w.extractLsb' 5 33, lane := w.extractLsb' 0 5 }
@[inherit_doc LMV.ofWord] def LMV.toBits (f : LMV) : BitVec 50 :=
  f.s ++ f.v ++ f.p ++ f.rsv ++ f.lane

/-- Layout Q read from a word, and its bits [49:0] (R163). -/
def LQ.ofWord (w : DWord) : LQ :=
  { rg := w.extractLsb' 46 4, sa := w.extractLsb' 41 5, sb := w.extractLsb' 36 5, ns := w.extractLsb' 35 1, rsv := w.extractLsb' 17 18, n := w.extractLsb' 0 17 }
@[inherit_doc LQ.ofWord] def LQ.toBits (f : LQ) : BitVec 50 :=
  f.rg ++ f.sa ++ f.sb ++ f.ns ++ f.rsv ++ f.n

/-- Layout VA read from a word, and its bits [49:0] (R165). -/
def LVA.ofWord (w : DWord) : LVA :=
  { vd := w.extractLsb' 46 4, va := w.extractLsb' 42 4, vb := w.extractLsb' 38 4, vc := w.extractLsb' 34 4, pe := w.extractLsb' 33 1, pr := w.extractLsb' 30 3, fmt := w.extractLsb' 26 4, bs := w.extractLsb' 25 1, sb := w.extractLsb' 20 5, rsv := w.extractLsb' 0 20 }
@[inherit_doc LVA.ofWord] def LVA.toBits (f : LVA) : BitVec 50 :=
  f.vd ++ f.va ++ f.vb ++ f.vc ++ f.pe ++ f.pr ++ f.fmt ++ f.bs ++ f.sb ++ f.rsv

/-- Layout VS read from a word, and its bits [49:0] (R167). -/
def LVS.ofWord (w : DWord) : LVS :=
  { sd := w.extractLsb' 45 5, va := w.extractLsb' 41 4, pe := w.extractLsb' 40 1, pr := w.extractLsb' 37 3, fmt := w.extractLsb' 33 4, acc := w.extractLsb' 32 1, sbase := w.extractLsb' 27 5, rsv := w.extractLsb' 0 27 }
@[inherit_doc LVS.ofWord] def LVS.toBits (f : LVS) : BitVec 50 :=
  f.sd ++ f.va ++ f.pe ++ f.pr ++ f.fmt ++ f.acc ++ f.sbase ++ f.rsv

/-- Layout VM read from a word, and its bits [49:0] (R168). -/
def LVM.ofWord (w : DWord) : LVM :=
  { vr := w.extractLsb' 46 4, rg := w.extractLsb' 42 4, adv := w.extractLsb' 41 1, so := w.extractLsb' 40 1, soff := w.extractLsb' 35 5, pe := w.extractLsb' 34 1, pr := w.extractLsb' 31 3, tfmt := w.extractLsb' 27 4, sfmt := w.extractLsb' 23 4, rnd := w.extractLsb' 22 1, sat := w.extractLsb' 21 1, srg := w.extractLsb' 17 4, off := w.extractLsb' 0 17 }
@[inherit_doc LVM.ofWord] def LVM.toBits (f : LVM) : BitVec 50 :=
  f.vr ++ f.rg ++ f.adv ++ f.so ++ f.soff ++ f.pe ++ f.pr ++ f.tfmt ++ f.sfmt ++ f.rnd ++ f.sat ++ f.srg ++ f.off

/-- Layout N read from a word, and its bits [49:0] (R181). -/
def LN.ofWord (w : DWord) : LN :=
  { rg := w.extractLsb' 46 4, sa := w.extractLsb' 41 5, sb := w.extractLsb' 36 5, rrg := w.extractLsb' 32 4, rsv := w.extractLsb' 0 32 }
@[inherit_doc LN.ofWord] def LN.toBits (f : LN) : BitVec 50 :=
  f.rg ++ f.sa ++ f.sb ++ f.rrg ++ f.rsv

/-- Layout OM read from a word, and its bits [55:0] (R172). -/
def LOM.ofWord (w : DWord) : LOM :=
  { set := w.extractLsb' 57 1, lm1 := w.extractLsb' 42 14, cfmt := w.extractLsb' 38 4, rfmt := w.extractLsb' 34 4, crg := w.extractLsb' 30 4, rrg := w.extractLsb' 26 4, csrg := w.extractLsb' 22 4, rsrg := w.extractLsb' 18 4, ct := w.extractLsb' 17 1, rt := w.extractLsb' 16 1, cpx := w.extractLsb' 15 1, msk := w.extractLsb' 10 5, mall := w.extractLsb' 9 1, rsv := w.extractLsb' 0 9 }
@[inherit_doc LOM.ofWord] def LOM.toBits (f : LOM) : BitVec 56 :=
  f.lm1 ++ f.cfmt ++ f.rfmt ++ f.crg ++ f.rrg ++ f.csrg ++ f.rsrg ++ f.ct ++ f.rt ++ f.cpx ++ f.msk ++ f.mall ++ f.rsv

/-- Layout OD read from a word, and its bits [55:0] (R177). -/
def LOD.ofWord (w : DWord) : LOD :=
  { set := w.extractLsb' 57 1, dst := w.extractLsb' 55 1, fmt := w.extractLsb' 51 4, rnd := w.extractLsb' 50 1, sat := w.extractLsb' 49 1, drg := w.extractLsb' 45 4, tag := w.extractLsb' 40 5, rsv := w.extractLsb' 0 40 }
@[inherit_doc LOD.ofWord] def LOD.toBits (f : LOD) : BitVec 56 :=
  f.dst ++ f.fmt ++ f.rnd ++ f.sat ++ f.drg ++ f.tag ++ f.rsv

/-- Layout OC read from a word, and its bits [55:0] (R180). -/
def LOC.ofWord (w : DWord) : LOC :=
  { set := w.extractLsb' 55 1, cont := w.extractLsb' 54 1, fmt := w.extractLsb' 50 4, crg := w.extractLsb' 46 4, rrg := w.extractLsb' 42 4, rsv := w.extractLsb' 0 42 }
@[inherit_doc LOC.ofWord] def LOC.toBits (f : LOC) : BitVec 56 :=
  f.set ++ f.cont ++ f.fmt ++ f.crg ++ f.rrg ++ f.rsv

/-- Major 0x01. -/
def decodeMajor01 (t : Nat) (w : DWord) : Option Instr :=
  match minorOf w with
  | 0x00 => some (.beqz t (.ofWord w))
  | 0x01 => some (.bnez t (.ofWord w))
  | 0x02 => some (.beq t (.ofWord w))
  | 0x03 => some (.bne t (.ofWord w))
  | 0x04 => some (.blt t (.ofWord w))
  | 0x05 => some (.bge t (.ofWord w))
  | 0x06 => some (.bltu t (.ofWord w))
  | 0x07 => some (.bgeu t (.ofWord w))
  | _ => none

/-- Major 0x02. -/
def decodeMajor02 (t : Nat) (w : DWord) : Option Instr :=
  match minorOf w with
  | 0x00 => some (.jmp t (.ofWord w))
  | 0x01 => some (.jal t (.ofWord w))
  | 0x02 => some (.jr t (.ofWord w))
  | 0x04 => some (.loop t (.ofWord w))
  | 0x08 => some (.ctlEnd t (.ofWord w))
  | _ => none

/-- Major 0x08. -/
def decodeMajor08 (t : Nat) (w : DWord) : Option Instr :=
  match minorOf w with
  | 0x00 => some (.sysNop t (.ofWord w))
  | 0x01 => some (.sysFence t (.ofWord w))
  | 0x02 => some (.sysTime t (.ofWord w))
  | 0x03 => some (.sysEvent t (.ofWord w))
  | _ => none

/-- Major 0x10. -/
def decodeMajor10 (t : Nat) (w : DWord) : Option Instr :=
  match minorOf w with
  | 0x00 => some (.add t (.ofWord w))
  | 0x01 => some (.sub t (.ofWord w))
  | 0x02 => some (.mul t (.ofWord w))
  | 0x03 => some (.and t (.ofWord w))
  | 0x04 => some (.or t (.ofWord w))
  | 0x05 => some (.xor t (.ofWord w))
  | 0x06 => some (.sll t (.ofWord w))
  | 0x07 => some (.srl t (.ofWord w))
  | 0x08 => some (.sra t (.ofWord w))
  | 0x09 => some (.slt t (.ofWord w))
  | 0x0A => some (.sltu t (.ofWord w))
  | 0x0B => some (.min t (.ofWord w))
  | 0x0C => some (.max t (.ofWord w))
  | 0x0D => some (.minu t (.ofWord w))
  | 0x0E => some (.maxu t (.ofWord w))
  | 0x10 => some (.mov t (.ofWord w))
  | _ => none

/-- Major 0x11. -/
def decodeMajor11 (t : Nat) (w : DWord) : Option Instr :=
  match minorOf w with
  | 0x00 => some (.addi t (.ofWord w))
  | 0x01 => some (.andi t (.ofWord w))
  | 0x02 => some (.ori t (.ofWord w))
  | 0x03 => some (.xori t (.ofWord w))
  | 0x04 => some (.slli t (.ofWord w))
  | 0x05 => some (.srli t (.ofWord w))
  | 0x06 => some (.srai t (.ofWord w))
  | 0x07 => some (.slti t (.ofWord w))
  | 0x08 => some (.sltiu t (.ofWord w))
  | 0x10 => some (.li t (.ofWord w))
  | 0x11 => some (.liu t (.ofWord w))
  | 0x12 => some (.lih t (.ofWord w))
  | _ => none

/-- Major 0x12. -/
def decodeMajor12 (t : Nat) (w : DWord) : Option Instr :=
  match minorOf w with
  | 0x00 => some (.ldw t (.ofWord w))
  | 0x01 => some (.ldd t (.ofWord w))
  | 0x02 => some (.stw t (.ofWord w))
  | 0x03 => some (.std t (.ofWord w))
  | 0x08 => some (.csrr t (.ofWord w))
  | _ => none

/-- Major 0x13. -/
def decodeMajor13 (t : Nat) (w : DWord) : Option Instr :=
  match minorOf w with
  | 0x00 => some (.movVs t (.ofWord w))
  | 0x01 => some (.movSv t (.ofWord w))
  | 0x02 => some (.movVv t (.ofWord w))
  | 0x03 => some (.movPs t (.ofWord w))
  | 0x04 => some (.movSp t (.ofWord w))
  | _ => none

/-- Major 0x28. -/
def decodeMajor28 (t : Nat) (w : DWord) : Option Instr :=
  match minorOf w with
  | 0x00 => some (.vadd t (.ofWord w))
  | 0x01 => some (.vsub t (.ofWord w))
  | 0x02 => some (.vmul t (.ofWord w))
  | 0x03 => some (.vfma t (.ofWord w))
  | 0x04 => some (.vmin t (.ofWord w))
  | 0x05 => some (.vmax t (.ofWord w))
  | 0x06 => some (.vabs t (.ofWord w))
  | 0x07 => some (.vneg t (.ofWord w))
  | _ => none

/-- Major 0x29. -/
def decodeMajor29 (t : Nat) (w : DWord) : Option Instr :=
  match minorOf w with
  | 0x00 => some (.vdiv t (.ofWord w))
  | 0x01 => some (.vsqrt t (.ofWord w))
  | 0x02 => some (.vrcp t (.ofWord w))
  | 0x03 => some (.vrsqrt t (.ofWord w))
  | 0x04 => some (.vexp2 t (.ofWord w))
  | 0x05 => some (.vlog2 t (.ofWord w))
  | 0x06 => some (.vexp t (.ofWord w))
  | 0x07 => some (.vlog t (.ofWord w))
  | 0x08 => some (.vtanh t (.ofWord w))
  | 0x09 => some (.vsigm t (.ofWord w))
  | 0x0A => some (.verf t (.ofWord w))
  | _ => none

/-- Major 0x2A. -/
def decodeMajor2A (t : Nat) (w : DWord) : Option Instr :=
  match minorOf w with
  | 0x00 => some (.viadd t (.ofWord w))
  | 0x01 => some (.visub t (.ofWord w))
  | 0x02 => some (.vimul t (.ofWord w))
  | 0x03 => some (.vand t (.ofWord w))
  | 0x04 => some (.vor t (.ofWord w))
  | 0x05 => some (.vxor t (.ofWord w))
  | 0x06 => some (.vsll t (.ofWord w))
  | 0x07 => some (.vsrl t (.ofWord w))
  | 0x08 => some (.vsra t (.ofWord w))
  | 0x09 => some (.vimin t (.ofWord w))
  | 0x0A => some (.vimax t (.ofWord w))
  | _ => none

/-- Major 0x2B. -/
def decodeMajor2B (t : Nat) (w : DWord) : Option Instr :=
  match minorOf w with
  | 0x00 => some (.vcmpEq t (.ofWord w))
  | 0x01 => some (.vcmpNe t (.ofWord w))
  | 0x02 => some (.vcmpLt t (.ofWord w))
  | 0x03 => some (.vcmpLe t (.ofWord w))
  | 0x04 => some (.vcmpGt t (.ofWord w))
  | 0x05 => some (.vcmpGe t (.ofWord w))
  | 0x08 => some (.vicmpEq t (.ofWord w))
  | 0x09 => some (.vicmpNe t (.ofWord w))
  | 0x0A => some (.vicmpLt t (.ofWord w))
  | 0x0B => some (.vicmpLe t (.ofWord w))
  | 0x0C => some (.vicmpGt t (.ofWord w))
  | 0x0D => some (.vicmpGe t (.ofWord w))
  | 0x10 => some (.pand t (.ofWord w))
  | 0x11 => some (.por t (.ofWord w))
  | 0x12 => some (.pxor t (.ofWord w))
  | 0x13 => some (.pnot t (.ofWord w))
  | 0x14 => some (.ppop t (.ofWord w))
  | _ => none

/-- Major 0x2C. -/
def decodeMajor2C (t : Nat) (w : DWord) : Option Instr :=
  match minorOf w with
  | 0x00 => some (.vcvt t (.ofWord w))
  | 0x01 => some (.vcvtN2 t (.ofWord w))
  | _ => none

/-- Major 0x2D. -/
def decodeMajor2D (t : Nat) (w : DWord) : Option Instr :=
  match minorOf w with
  | 0x00 => some (.sumNf t (.ofWord w))
  | 0x01 => some (.sumAmax t (.ofWord w))
  | 0x02 => some (.sumAdd t (.ofWord w))
  | 0x03 => some (.sumArgmax t (.ofWord w))
  | _ => none

/-- Major 0x2E. -/
def decodeMajor2E (t : Nat) (w : DWord) : Option Instr :=
  match minorOf w with
  | 0x00 => some (.vld t (.ofWord w))
  | 0x01 => some (.vst t (.ofWord w))
  | 0x02 => some (.vstCvt t (.ofWord w))
  | 0x03 => some (.vstMx t (.ofWord w))
  | 0x08 => some (.vqPop t (.ofWord w))
  | 0x09 => some (.vqPush t (.ofWord w))
  | _ => none

/-- Major 0x30. -/
def decodeMajor30 (t : Nat) (w : DWord) : Option Instr :=
  match minorOf w with
  | 0x00 => some (.netPull t (.ofWord w))
  | 0x01 => some (.netPush t (.ofWord w))
  | 0x02 => some (.netSend t (.ofWord w))
  | 0x08 => some (.atomAdd t (.ofWord w))
  | 0x09 => some (.atomMin t (.ofWord w))
  | 0x0A => some (.atomMax t (.ofWord w))
  | 0x0B => some (.atomSwap t (.ofWord w))
  | 0x0C => some (.atomCas t (.ofWord w))
  | _ => none

/-- Major 0x38. -/
def decodeMajor38 (t : Nat) (w : DWord) : Option Instr :=
  match minorOf w with
  | 0x00 => some (.qWait t (.ofWord w))
  | 0x01 => some (.qSpace t (.ofWord w))
  | 0x02 => some (.qPop t (.ofWord w))
  | 0x03 => some (.qPush t (.ofWord w))
  | 0x08 => some (.rgSet t (.ofWord w))
  | 0x09 => some (.rgGet t (.ofWord w))
  | 0x0A => some (.spdClr t (.ofWord w))
  | _ => none

/-- The instruction of tile t that a word is (Table 6.1); none for a reserved major, a reserved minor and X set (R146). Reserved
operand fields stay in the instruction, which the loader and the sequencer check. -/
def decodeWord (t : Nat) (w : DWord) : Option Instr :=
  if xOf w ≠ 0 then none
  else
    match majorOf w with
    | 0x01 => decodeMajor01 t w
    | 0x02 => decodeMajor02 t w
    | 0x08 => decodeMajor08 t w
    | 0x10 => decodeMajor10 t w
    | 0x11 => decodeMajor11 t w
    | 0x12 => decodeMajor12 t w
    | 0x13 => decodeMajor13 t w
    | 0x20 => some (.opeMulClr t (.ofWord w))
    | 0x21 => some (.opeMulClr t (.ofWord w))
    | 0x22 => some (.opeMulCont t (.ofWord w))
    | 0x23 => some (.opeMulCont t (.ofWord w))
    | 0x24 => some (.opeDrn t (.ofWord w))
    | 0x25 => some (.opeDrn t (.ofWord w))
    | 0x26 => some (.opeCube t (.ofWord w))
    | 0x28 => decodeMajor28 t w
    | 0x29 => decodeMajor29 t w
    | 0x2A => decodeMajor2A t w
    | 0x2B => decodeMajor2B t w
    | 0x2C => decodeMajor2C t w
    | 0x2D => decodeMajor2D t w
    | 0x2E => decodeMajor2E t w
    | 0x30 => decodeMajor30 t w
    | 0x38 => decodeMajor38 t w
    | _ => none

/-- The word of an instruction of a tile; none for the other commands. -/
def encodeWord : Instr → Option DWord
  | .beqz _ f => some (opBits 0x01 0x00 ++ f.toBits)
  | .bnez _ f => some (opBits 0x01 0x01 ++ f.toBits)
  | .beq _ f => some (opBits 0x01 0x02 ++ f.toBits)
  | .bne _ f => some (opBits 0x01 0x03 ++ f.toBits)
  | .blt _ f => some (opBits 0x01 0x04 ++ f.toBits)
  | .bge _ f => some (opBits 0x01 0x05 ++ f.toBits)
  | .bltu _ f => some (opBits 0x01 0x06 ++ f.toBits)
  | .bgeu _ f => some (opBits 0x01 0x07 ++ f.toBits)
  | .jmp _ f => some (opBits 0x02 0x00 ++ f.toBits)
  | .jal _ f => some (opBits 0x02 0x01 ++ f.toBits)
  | .jr _ f => some (opBits 0x02 0x02 ++ f.toBits)
  | .loop _ f => some (opBits 0x02 0x04 ++ f.toBits)
  | .ctlEnd _ f => some (opBits 0x02 0x08 ++ f.toBits)
  | .sysNop _ f => some (opBits 0x08 0x00 ++ f.toBits)
  | .sysFence _ f => some (opBits 0x08 0x01 ++ f.toBits)
  | .sysTime _ f => some (opBits 0x08 0x02 ++ f.toBits)
  | .sysEvent _ f => some (opBits 0x08 0x03 ++ f.toBits)
  | .add _ f => some (opBits 0x10 0x00 ++ f.toBits)
  | .sub _ f => some (opBits 0x10 0x01 ++ f.toBits)
  | .mul _ f => some (opBits 0x10 0x02 ++ f.toBits)
  | .and _ f => some (opBits 0x10 0x03 ++ f.toBits)
  | .or _ f => some (opBits 0x10 0x04 ++ f.toBits)
  | .xor _ f => some (opBits 0x10 0x05 ++ f.toBits)
  | .sll _ f => some (opBits 0x10 0x06 ++ f.toBits)
  | .srl _ f => some (opBits 0x10 0x07 ++ f.toBits)
  | .sra _ f => some (opBits 0x10 0x08 ++ f.toBits)
  | .slt _ f => some (opBits 0x10 0x09 ++ f.toBits)
  | .sltu _ f => some (opBits 0x10 0x0A ++ f.toBits)
  | .min _ f => some (opBits 0x10 0x0B ++ f.toBits)
  | .max _ f => some (opBits 0x10 0x0C ++ f.toBits)
  | .minu _ f => some (opBits 0x10 0x0D ++ f.toBits)
  | .maxu _ f => some (opBits 0x10 0x0E ++ f.toBits)
  | .mov _ f => some (opBits 0x10 0x10 ++ f.toBits)
  | .addi _ f => some (opBits 0x11 0x00 ++ f.toBits)
  | .andi _ f => some (opBits 0x11 0x01 ++ f.toBits)
  | .ori _ f => some (opBits 0x11 0x02 ++ f.toBits)
  | .xori _ f => some (opBits 0x11 0x03 ++ f.toBits)
  | .slli _ f => some (opBits 0x11 0x04 ++ f.toBits)
  | .srli _ f => some (opBits 0x11 0x05 ++ f.toBits)
  | .srai _ f => some (opBits 0x11 0x06 ++ f.toBits)
  | .slti _ f => some (opBits 0x11 0x07 ++ f.toBits)
  | .sltiu _ f => some (opBits 0x11 0x08 ++ f.toBits)
  | .li _ f => some (opBits 0x11 0x10 ++ f.toBits)
  | .liu _ f => some (opBits 0x11 0x11 ++ f.toBits)
  | .lih _ f => some (opBits 0x11 0x12 ++ f.toBits)
  | .ldw _ f => some (opBits 0x12 0x00 ++ f.toBits)
  | .ldd _ f => some (opBits 0x12 0x01 ++ f.toBits)
  | .stw _ f => some (opBits 0x12 0x02 ++ f.toBits)
  | .std _ f => some (opBits 0x12 0x03 ++ f.toBits)
  | .csrr _ f => some (opBits 0x12 0x08 ++ f.toBits)
  | .movVs _ f => some (opBits 0x13 0x00 ++ f.toBits)
  | .movSv _ f => some (opBits 0x13 0x01 ++ f.toBits)
  | .movVv _ f => some (opBits 0x13 0x02 ++ f.toBits)
  | .movPs _ f => some (opBits 0x13 0x03 ++ f.toBits)
  | .movSp _ f => some (opBits 0x13 0x04 ++ f.toBits)
  | .qWait _ f => some (opBits 0x38 0x00 ++ f.toBits)
  | .qSpace _ f => some (opBits 0x38 0x01 ++ f.toBits)
  | .qPop _ f => some (opBits 0x38 0x02 ++ f.toBits)
  | .qPush _ f => some (opBits 0x38 0x03 ++ f.toBits)
  | .rgSet _ f => some (opBits 0x38 0x08 ++ f.toBits)
  | .rgGet _ f => some (opBits 0x38 0x09 ++ f.toBits)
  | .spdClr _ f => some (opBits 0x38 0x0A ++ f.toBits)
  | .vadd _ f => some (opBits 0x28 0x00 ++ f.toBits)
  | .vsub _ f => some (opBits 0x28 0x01 ++ f.toBits)
  | .vmul _ f => some (opBits 0x28 0x02 ++ f.toBits)
  | .vfma _ f => some (opBits 0x28 0x03 ++ f.toBits)
  | .vmin _ f => some (opBits 0x28 0x04 ++ f.toBits)
  | .vmax _ f => some (opBits 0x28 0x05 ++ f.toBits)
  | .vabs _ f => some (opBits 0x28 0x06 ++ f.toBits)
  | .vneg _ f => some (opBits 0x28 0x07 ++ f.toBits)
  | .vdiv _ f => some (opBits 0x29 0x00 ++ f.toBits)
  | .vsqrt _ f => some (opBits 0x29 0x01 ++ f.toBits)
  | .vrcp _ f => some (opBits 0x29 0x02 ++ f.toBits)
  | .vrsqrt _ f => some (opBits 0x29 0x03 ++ f.toBits)
  | .vexp2 _ f => some (opBits 0x29 0x04 ++ f.toBits)
  | .vlog2 _ f => some (opBits 0x29 0x05 ++ f.toBits)
  | .vexp _ f => some (opBits 0x29 0x06 ++ f.toBits)
  | .vlog _ f => some (opBits 0x29 0x07 ++ f.toBits)
  | .vtanh _ f => some (opBits 0x29 0x08 ++ f.toBits)
  | .vsigm _ f => some (opBits 0x29 0x09 ++ f.toBits)
  | .verf _ f => some (opBits 0x29 0x0A ++ f.toBits)
  | .viadd _ f => some (opBits 0x2A 0x00 ++ f.toBits)
  | .visub _ f => some (opBits 0x2A 0x01 ++ f.toBits)
  | .vimul _ f => some (opBits 0x2A 0x02 ++ f.toBits)
  | .vand _ f => some (opBits 0x2A 0x03 ++ f.toBits)
  | .vor _ f => some (opBits 0x2A 0x04 ++ f.toBits)
  | .vxor _ f => some (opBits 0x2A 0x05 ++ f.toBits)
  | .vsll _ f => some (opBits 0x2A 0x06 ++ f.toBits)
  | .vsrl _ f => some (opBits 0x2A 0x07 ++ f.toBits)
  | .vsra _ f => some (opBits 0x2A 0x08 ++ f.toBits)
  | .vimin _ f => some (opBits 0x2A 0x09 ++ f.toBits)
  | .vimax _ f => some (opBits 0x2A 0x0A ++ f.toBits)
  | .vcmpEq _ f => some (opBits 0x2B 0x00 ++ f.toBits)
  | .vcmpNe _ f => some (opBits 0x2B 0x01 ++ f.toBits)
  | .vcmpLt _ f => some (opBits 0x2B 0x02 ++ f.toBits)
  | .vcmpLe _ f => some (opBits 0x2B 0x03 ++ f.toBits)
  | .vcmpGt _ f => some (opBits 0x2B 0x04 ++ f.toBits)
  | .vcmpGe _ f => some (opBits 0x2B 0x05 ++ f.toBits)
  | .vicmpEq _ f => some (opBits 0x2B 0x08 ++ f.toBits)
  | .vicmpNe _ f => some (opBits 0x2B 0x09 ++ f.toBits)
  | .vicmpLt _ f => some (opBits 0x2B 0x0A ++ f.toBits)
  | .vicmpLe _ f => some (opBits 0x2B 0x0B ++ f.toBits)
  | .vicmpGt _ f => some (opBits 0x2B 0x0C ++ f.toBits)
  | .vicmpGe _ f => some (opBits 0x2B 0x0D ++ f.toBits)
  | .pand _ f => some (opBits 0x2B 0x10 ++ f.toBits)
  | .por _ f => some (opBits 0x2B 0x11 ++ f.toBits)
  | .pxor _ f => some (opBits 0x2B 0x12 ++ f.toBits)
  | .pnot _ f => some (opBits 0x2B 0x13 ++ f.toBits)
  | .ppop _ f => some (opBits 0x2B 0x14 ++ f.toBits)
  | .vcvt _ f => some (opBits 0x2C 0x00 ++ f.toBits)
  | .vcvtN2 _ f => some (opBits 0x2C 0x01 ++ f.toBits)
  | .sumNf _ f => some (opBits 0x2D 0x00 ++ f.toBits)
  | .sumAmax _ f => some (opBits 0x2D 0x01 ++ f.toBits)
  | .sumAdd _ f => some (opBits 0x2D 0x02 ++ f.toBits)
  | .sumArgmax _ f => some (opBits 0x2D 0x03 ++ f.toBits)
  | .vld _ f => some (opBits 0x2E 0x00 ++ f.toBits)
  | .vst _ f => some (opBits 0x2E 0x01 ++ f.toBits)
  | .vstCvt _ f => some (opBits 0x2E 0x02 ++ f.toBits)
  | .vstMx _ f => some (opBits 0x2E 0x03 ++ f.toBits)
  | .vqPop _ f => some (opBits 0x2E 0x08 ++ f.toBits)
  | .vqPush _ f => some (opBits 0x2E 0x09 ++ f.toBits)
  | .opeMulClr _ f => some (0b010000#6 ++ f.set ++ 0#1 ++ f.toBits)
  | .opeMulCont _ f => some (0b010001#6 ++ f.set ++ 0#1 ++ f.toBits)
  | .opeDrn _ f => some (0b010010#6 ++ f.set ++ 0#1 ++ f.toBits)
  | .opeCube _ f => some (0b0100110#7 ++ 0#1 ++ f.toBits)
  | .netPull _ f => some (opBits 0x30 0x00 ++ f.toBits)
  | .netPush _ f => some (opBits 0x30 0x01 ++ f.toBits)
  | .netSend _ f => some (opBits 0x30 0x02 ++ f.toBits)
  | .atomAdd _ f => some (opBits 0x30 0x08 ++ f.toBits)
  | .atomMin _ f => some (opBits 0x30 0x09 ++ f.toBits)
  | .atomMax _ f => some (opBits 0x30 0x0A ++ f.toBits)
  | .atomSwap _ f => some (opBits 0x30 0x0B ++ f.toBits)
  | .atomCas _ f => some (opBits 0x30 0x0C ++ f.toBits)
  | _ => none

/-- The word with the two 32-bit words of an instruction-store entry: the least significant first (R148). -/
def wordPair (w : DWord) : Word × Word := (w.extractLsb' 0 32, w.extractLsb' 32 32)

end Sys2Proof
end

