-- ==== Sys2Proof/Machine/Bits.lean ====
section
/-!
DEFINITION. Bit fields, the sparse map in its one canonical form (keys strictly rising, no entry equal to what an
unlisted key reads as), lists, byte order, the mixing function of R98 and the CRC-32 of R23.
-/

namespace Sys2Proof

/-- Bits [hi:lo] of a word, as the manual writes a bit range. -/
def bits {n : Nat} (w : BitVec n) (hi lo : Nat) : Nat := (w.toNat >>> lo) % 2 ^ (hi + 1 - lo)

/-- One bit of a word. -/
def bit {n : Nat} (w : BitVec n) (i : Nat) : Bool := w.getLsbD i

/-- The word with bits [hi:lo] replaced by the low bits of `v`. -/
def setBits {n : Nat} (w : BitVec n) (hi lo : Nat) (v : Nat) : BitVec n :=
  let m := (2 ^ (hi + 1 - lo) - 1) <<< lo
  BitVec.ofNat n ((w.toNat &&& ((2 ^ n - 1) - m)) ||| ((v <<< lo) &&& m))

/-- The word with bit `i` set or cleared. -/
def setBit {n : Nat} (w : BitVec n) (i : Nat) (b : Bool) : BitVec n := setBits w i i (if b then 1 else 0)

/-- `b` as a number. -/
def nb (b : Bool) : Nat := if b then 1 else 0

/-- A counter that saturates at its all-ones value `max`. -/
def satAdd (max c k : Nat) : Nat := min max (c + k)

namespace Map

variable {α : Type}

/-- What key `k` holds; `d k` is what an unlisted key reads as. -/
def get (d : Nat → α) : Map α → Nat → α
  | [], k => d k
  | (j, v) :: m, k => if k = j then v else if k < j then d k else get d m k

/-- The map without key `k`. -/
def erase : Map α → Nat → Map α
  | [], _ => []
  | (j, v) :: m, k => if k = j then m else if k < j then (j, v) :: m else (j, v) :: erase m k

/-- The map with key `k` listed at its place. -/
def insert : Map α → Nat → α → Map α
  | [], k, x => [(k, x)]
  | (j, v) :: m, k, x =>
    if k = j then (k, x) :: m else if k < j then (k, x) :: (j, v) :: m else (j, v) :: insert m k x

/-- A write: the value an unlisted key reads as is not listed, so equal maps are equal lists. -/
def set [DecidableEq α] (d : Nat → α) (m : Map α) (k : Nat) (x : α) : Map α :=
  if x = d k then erase m k else insert m k x

/-- Every key of the map is above `k`. -/
def above (k : Nat) (m : Map α) : Bool := m.all (fun e => k < e.1)

/-- The canonical form. -/
def wf [DecidableEq α] (d : Nat → α) : Map α → Bool
  | [] => true
  | (j, v) :: m => above j m && decide (v ≠ d j) && wf d m

/-- Writes of consecutive keys. -/
def setMany [DecidableEq α] (d : Nat → α) (m : Map α) (k : Nat) : List α → Map α
  | [] => m
  | x :: xs => setMany d (set d m k x) (k + 1) xs

/-- Reads of `n` consecutive keys from `k`. -/
def getMany (d : Nat → α) (m : Map α) (k : Nat) : Nat → List α
  | 0 => []
  | n + 1 => get d m k :: getMany d m (k + 1) n

/-- The map without the keys `lo ≤ k < hi`. -/
def clearRange (m : Map α) (lo hi : Nat) : Map α := m.filter (fun e => e.1 < lo || hi ≤ e.1)

end Map

/-- Element `i` of a list, `d` beyond its end. -/
def nth {α : Type} (d : α) (l : List α) (i : Nat) : α := (l[i]?).getD d

/-- The list with element `i` replaced. -/
def setNth {α : Type} : List α → Nat → α → List α
  | [], _, _ => []
  | _ :: l, 0, x => x :: l
  | y :: l, i + 1, x => y :: setNth l i x

/-- Every element of the first list is in the second. -/
def subset (a b : List Nat) : Bool := a.all (fun x => b.contains x)

/-- No value twice. -/
def noRepeat : List Nat → Bool
  | [] => true
  | x :: l => !l.contains x && noRepeat l

/-- Strictly rising. -/
def rising : List Nat → Bool
  | [] => true
  | [_] => true
  | x :: y :: l => x < y && rising (y :: l)

/-- The bytes of `n`, least significant first. -/
def leBytes (n : Nat) : Nat → List Byte
  | 0 => []
  | k + 1 => BitVec.ofNat 8 n :: leBytes (n / 256) k

/-- The number that little-endian bytes hold. -/
def ofLeBytes : List Byte → Nat
  | [] => 0
  | b :: l => b.toNat + 256 * ofLeBytes l

/-- mix64 of R98. -/
def mix64 (z0 : DWord) : DWord :=
  let z1 := (z0 ^^^ (z0 >>> 30)) * 0xBF58476D1CE4E5B9#64
  let z2 := (z1 ^^^ (z1 >>> 27)) * 0x94D049BB133111EB#64
  z2 ^^^ (z2 >>> 31)

/-- CRC-32 of IEEE 802.3, one bit. -/
def crc32Bit (c : Nat) : Nat := if c % 2 = 1 then (c / 2) ^^^ 0xEDB88320 else c / 2

/-- CRC-32 of IEEE 802.3, one byte. -/
def crc32Byte (c : Nat) (b : Byte) : Nat :=
  (List.range 8).foldl (fun c _ => crc32Bit c) (c ^^^ b.toNat)

/-- CRC-32 of IEEE 802.3 over bytes (R23, R185, R332). -/
def crc32 (l : List Byte) : Nat := (l.foldl crc32Byte 0xFFFFFFFF) ^^^ 0xFFFFFFFF

/-- An element put into a sorted list before the first that it does not follow, and a list sorted so: equal elements keep their order. -/
def insertBy {α : Type} (le : α → α → Bool) (x : α) : List α → List α
  | [] => [x]
  | y :: l => if le x y then x :: y :: l else y :: insertBy le x l
@[inherit_doc insertBy] def sortBy {α : Type} (le : α → α → Bool) : List α → List α
  | [] => []
  | x :: l => insertBy le x (sortBy le l)

end Sys2Proof
end

