-- ==== Sys2Proof/Machine/Num.lean ====
section
/-!
DEFINITION. Number formats and exact arithmetic (spec/03_numerics.md): a code is decoded to its exact value, the
arithmetic is done exactly, and the result is rounded once to its format.
-/

namespace Sys2Proof

/-- How the all-ones exponent of a format is used (Table 3.1). -/
inductive Special where
  | ieee | e4m3 | none
  deriving DecidableEq, Repr

/-- A binary format: exponent bits, significand bits, bias (Table 3.1). -/
structure Fmt where
  eb : Nat
  mb : Nat
  bias : Nat
  sp : Special
  deriving DecidableEq, Repr

/-- The formats of Table 3.1, and FP64 (R302). -/
def fp32 : Fmt := ⟨8, 23, 127, .ieee⟩
@[inherit_doc fp32] def bf16 : Fmt := ⟨8, 7, 127, .ieee⟩
@[inherit_doc fp32] def fp16 : Fmt := ⟨5, 10, 15, .ieee⟩
@[inherit_doc fp32] def e4m3 : Fmt := ⟨4, 3, 7, .e4m3⟩
@[inherit_doc fp32] def e5m2 : Fmt := ⟨5, 2, 15, .ieee⟩
@[inherit_doc fp32] def e2m3 : Fmt := ⟨2, 3, 1, .none⟩
@[inherit_doc fp32] def e3m2 : Fmt := ⟨3, 2, 3, .none⟩
@[inherit_doc fp32] def e2m1 : Fmt := ⟨2, 1, 1, .none⟩
@[inherit_doc fp32] def fp64 : Fmt := ⟨11, 52, 1023, .ieee⟩

/-- Width of a format's code. -/
def fmtWidth (F : Fmt) : Nat := 1 + F.eb + F.mb

/-- The code of the largest finite magnitude. -/
def fmtMax (F : Fmt) : Nat :=
  match F.sp with
  | .ieee => ((2 ^ F.eb - 1) <<< F.mb) - 1
  | .e4m3 => 2 ^ (F.eb + F.mb) - 2
  | .none => 2 ^ (F.eb + F.mb) - 1

/-- The code of infinity in a format that has one. -/
def fmtInf (F : Fmt) : Nat := (2 ^ F.eb - 1) <<< F.mb

/-- The canonical NaN (Table 3.1, R89). -/
def fmtNaN (F : Fmt) : Nat :=
  match F.sp with
  | .ieee => fmtInf F + 2 ^ (F.mb - 1)
  | .e4m3 => 2 ^ (F.eb + F.mb) - 1
  | .none => 0

/-- The sign bit's weight. -/
def fmtSign (F : Fmt) : Nat := 2 ^ (F.eb + F.mb)

/-- The least exponent of a normal number. -/
def fmtEmin (F : Fmt) : Int := 1 - (F.bias : Int)

/-- The exact value of a code: (−1)^neg · m · 2^e, or a non-finite value. -/
inductive Val where
  | nan
  | inf (neg : Bool)
  | num (neg : Bool) (m : Nat) (e : Int)
  deriving DecidableEq, Repr

/-- The value of a code (Table 3.1). -/
def decodeVal (F : Fmt) (x : Nat) : Val :=
  let neg := (x / fmtSign F) % 2 = 1
  let E := (x >>> F.mb) % 2 ^ F.eb
  let M := x % 2 ^ F.mb
  if F.sp = .ieee ∧ E = 2 ^ F.eb - 1 then (if M = 0 then .inf neg else .nan)
  else if F.sp = .e4m3 ∧ x % fmtSign F = fmtNaN F then .nan
  else if E = 0 then .num neg M (fmtEmin F - F.mb)
  else .num neg (2 ^ F.mb + M) ((E : Int) - F.bias - F.mb)

/-- The signed significand. -/
def sgn (neg : Bool) (m : Nat) : Int := if neg then -(m : Int) else m

/-- An exact dyadic from a signed significand; `z` is the sign of an exact zero. -/
def ofInt (z : Bool) (m : Int) (e : Int) : Val :=
  if m = 0 then .num z 0 e else .num (m < 0) m.natAbs e

/-- Exact sum (Table 3.4; R88: cancellation gives +0, two zeros give −0 only when both are −0). -/
def addVal (a b : Val) : Val :=
  match a, b with
  | .nan, _ => .nan
  | _, .nan => .nan
  | .inf s, .inf t => if s = t then .inf s else .nan
  | .inf s, _ => .inf s
  | _, .inf t => .inf t
  | .num s m e, .num t n f =>
    let g := min e f
    ofInt (m = 0 && n = 0 && s && t) (sgn s m * 2 ^ (e - g).toNat + sgn t n * 2 ^ (f - g).toNat) g

/-- Exact product (Table 3.4). -/
def mulVal (a b : Val) : Val :=
  match a, b with
  | .nan, _ => .nan
  | _, .nan => .nan
  | .inf s, .inf t => .inf (s != t)
  | .inf s, .num t n _ => if n = 0 then .nan else .inf (s != t)
  | .num s m _, .inf t => if m = 0 then .nan else .inf (s != t)
  | .num s m e, .num t n f => .num (s != t) (m * n) (e + f)

/-- Negation of a value. -/
def negVal : Val → Val
  | .nan => .nan
  | .inf s => .inf !s
  | .num s m e => .num (!s) m e

/-- Magnitude of a value. -/
def absVal : Val → Val
  | .nan => .nan
  | .inf _ => .inf false
  | .num _ m e => .num false m e

/-- The value is NaN or ±Inf. -/
def nonFinite : Val → Bool
  | .num _ _ _ => false
  | _ => true

/-- The value is a zero. -/
def isZeroVal : Val → Bool
  | .num _ 0 _ => true
  | _ => false

/-- Exact comparison a < b of numbers (false for NaN). -/
def ltVal (a b : Val) : Bool :=
  match a, b with
  | .nan, _ => false
  | _, .nan => false
  | .inf s, .inf t => s && !t
  | .inf s, .num _ _ _ => s
  | .num _ _ _, .inf t => !t
  | .num s m e, .num t n f =>
    let g := min e f
    decide (sgn s m * 2 ^ (e - g).toNat < sgn t n * 2 ^ (f - g).toNat)

/-- Exact equality of numbers, −0 equal to +0 (false for NaN). -/
def eqVal (a b : Val) : Bool :=
  match a, b with
  | .nan, _ => false
  | _, .nan => false
  | _, _ => !ltVal a b && !ltVal b a

/-- Round to nearest, ties to even (R95): `m / 2^d`, with `st` set when a non-zero part lies below. -/
def rne (m d : Nat) (st : Bool) : Nat :=
  let k := m >>> d
  let r := m % 2 ^ d
  let half := 2 ^ d / 2
  if d = 0 then k
  else if r < half then k
  else if half < r || st then k + 1
  else k + k % 2

/-- The unit exponent of a format at a magnitude whose leading bit has weight 2^p. -/
def ulpExp (F : Fmt) (p : Int) : Int := max p (fmtEmin F) - F.mb

/-- The magnitude code of a significand `k` in units of the last place at leading exponent `p`. -/
def packMag (F : Fmt) (p : Int) (k : Nat) : Nat :=
  if p < fmtEmin F then k else ((p - fmtEmin F).toNat <<< F.mb) + k

/-- The magnitude code of m · 2^e rounded to nearest-even, the exponent unbounded above (R95); `st`: a non-zero part
lies below. -/
def roundMag (F : Fmt) (m : Nat) (e : Int) (st : Bool) : Nat :=
  if m = 0 then 0
  else
    let p := (m.log2 : Int) + e
    let u := ulpExp F p
    let k := if u ≤ e then m <<< (e - u).toNat else rne m (u - e).toNat st
    packMag F p k

/-- The code of a magnitude with its overflow outcome (Table 3.6): `sat` saturates. -/
def finishMag (F : Fmt) (sat neg : Bool) (c : Nat) : Nat :=
  let s := if neg then fmtSign F else 0
  if c ≤ fmtMax F then s + c
  else if sat then s + fmtMax F
  else match F.sp with
    | .ieee => s + fmtInf F
    | .e4m3 => fmtNaN F
    | .none => s + fmtMax F

/-- A value rounded once to a format, to nearest-even (R92, R93, Table 3.6). -/
def encodeVal (F : Fmt) (sat : Bool) : Val → Nat
  | .nan => fmtNaN F
  | .inf neg =>
    let s := if neg then fmtSign F else 0
    match F.sp with
    | .ieee => if sat && F.eb + F.mb < 10 then s + fmtMax F else s + fmtInf F
    | .e4m3 => if sat then s + fmtMax F else fmtNaN F
    | .none => s + fmtMax F
  | .num neg m e => finishMag F sat neg (roundMag F m e false)

/-- A value rounded to FP32. -/
def toF32 (v : Val) : Word := BitVec.ofNat 32 (encodeVal fp32 false v)
/-- The value of an FP32 word. -/
def f32 (w : Word) : Val := decodeVal fp32 w.toNat
/-- A value rounded to FP64. -/
def toF64 (v : Val) : DWord := BitVec.ofNat 64 (encodeVal fp64 false v)
/-- The value of an FP64 word. -/
def f64 (w : DWord) : Val := decodeVal fp64 w.toNat

/-- The value has magnitude below the smallest normal of the format and is not zero. -/
def belowNormal (F : Fmt) : Val → Bool
  | .num _ m e => m != 0 && decide ((m.log2 : Int) + e < fmtEmin F)
  | _ => false

/-- A subnormal replaced by the zero of its sign (R86). -/
def flushVal (F : Fmt) (v : Val) : Val :=
  match v with
  | .num s m e => if belowNormal F (.num s m e) then .num s 0 e else v
  | _ => v

/-- A code whose magnitude lies below the smallest normal replaced by the zero of its sign (R87, R92). -/
def flushCode (F : Fmt) (c : Nat) : Nat :=
  if c % fmtSign F < 2 ^ F.mb then c - c % fmtSign F else c

/-- One accumulation of R84: acc ← round(acc + t), the result flushed under R87 with the sign of the exact sum. -/
def accumulate (acc : Word) (t : Val) : Word :=
  BitVec.ofNat 32 (flushCode fp32 (encodeVal fp32 false (addVal (f32 acc) t)))

/-- Exact sum of values in list order. -/
def sumVals : List Val → Val
  | [] => .num false 0 0
  | [v] => v
  | v :: l => addVal v (sumVals l)

/-- One level of the balanced tree of R62 and R114: neighbours are added, each sum rounded to FP32. -/
def treeLevel : List Word → List Word
  | a :: b :: l => toF32 (addVal (f32 a) (f32 b)) :: treeLevel l
  | l => l

/-- A balanced binary tree of `depth` levels over words in ascending position. -/
def treeSum : Nat → List Word → List Word
  | 0, l => l
  | k + 1, l => treeSum k (treeLevel l)

/-- Division, the exact quotient rounded once (R105, R302). -/
def divCode (F : Fmt) (a b : Val) : Nat :=
  match a, b with
  | .nan, _ => fmtNaN F
  | _, .nan => fmtNaN F
  | .inf _, .inf _ => fmtNaN F
  | .inf s, .num t _ _ => encodeVal F false (.inf (s != t))
  | .num s _ _, .inf t => encodeVal F false (.num (s != t) 0 0)
  | .num s m e, .num t n f =>
    if n = 0 then (if m = 0 then fmtNaN F else encodeVal F false (.inf (s != t)))
    else
      let sh := n.log2 + F.mb + 4
      let q := (m <<< sh) / n
      finishMag F false (s != t) (roundMag F q (e - f - sh) ((m <<< sh) % n != 0))

/-- Integer square root, bit by bit from bit `k`. -/
def isqrt (x : Nat) : Nat → Nat → Nat
  | 0, r => r
  | k + 1, r => let c := r + 2 ^ k; isqrt x k (if c * c ≤ x then c else r)

/-- Square root, the exact root rounded once (R105, R302); −0 gives −0, a negative number NaN. -/
def sqrtCode (F : Fmt) (a : Val) : Nat :=
  match a with
  | .nan => fmtNaN F
  | .inf true => fmtNaN F
  | .inf false => fmtInf F
  | .num s m e =>
    if m = 0 then encodeVal F false a
    else if s then fmtNaN F
    else
      let sh := 2 * (F.mb + 4) + (e % 2).toNat
      let x := m <<< sh
      let r := isqrt x (x.log2 / 2 + 1) 0
      finishMag F false false (roundMag F r ((e - sh) / 2) (r * r != x))

/-- Minimum (Table 3.4): a NaN gives the canonical NaN, min of −0 and +0 is −0. -/
def minVal (a b : Val) : Val :=
  match a, b with
  | .nan, _ => .nan
  | _, .nan => .nan
  | .num s m e, .num t n f =>
    if m = 0 && n = 0 then .num (s || t) 0 e
    else if ltVal a b then .num s m e else .num t n f
  | a, b => if ltVal a b then a else b

/-- Maximum (Table 3.4): a NaN gives the canonical NaN, max of −0 and +0 is +0. -/
def maxVal (a b : Val) : Val :=
  match a, b with
  | .nan, _ => .nan
  | _, .nan => .nan
  | .num s m e, .num t n f =>
    if m = 0 && n = 0 then .num (s && t) 0 e
    else if ltVal a b then .num t n f else .num s m e
  | a, b => if ltVal a b then b else a

/-- Stochastic rounding of a finite value (R96) with the draw `r`: truncate, and add one unit in the last place when
the top 16 bits of the discarded part and `r` reach 2^16. -/
def roundStoch (F : Fmt) (m : Nat) (e : Int) (r : Nat) : Nat :=
  if m = 0 then 0
  else
    let p := (m.log2 : Int) + e
    let u := ulpExp F p
    if u ≤ e then packMag F p (m <<< (e - u).toNat)
    else
      let d := (u - e).toNat
      let k := m >>> d
      let frac := m % 2 ^ d
      let D := (frac <<< 16) >>> d
      packMag F p (if 2 ^ 16 ≤ D + r then k + 1 else k)

/-- A conversion with an optional stochastic draw (R92, R93, R96). -/
def convert (F : Fmt) (sat : Bool) (draw : Option Nat) (v : Val) : Nat :=
  match draw, v with
  | some r, .num neg m e => finishMag F sat neg (roundStoch F m e r)
  | _, _ => encodeVal F sat v

/-- The draw with index `x` on stream `q` (R98). -/
def srDraw (pseed step seedid q x : Nat) : Nat :=
  let key := ((pseed % 2 ^ 16) <<< 48) ||| ((q % 2) <<< 47) ||| ((step % 2 ^ 30) <<< 17) ||| (seedid % 2 ^ 17)
  bits (mix64 (BitVec.ofNat 64 (key + (x + 1) * 0x9E3779B97F4A7C15))) 63 48

/-- An element of an MX block with its scale byte (R79). -/
def mxVal (F : Fmt) (x s : Nat) : Val :=
  if s = 0xFF then .nan
  else match decodeVal F x with
    | .num neg m e => .num neg m (e + (s : Int) - 127)
    | v => v

/-- The exponent of the element format's largest normal (R80). -/
def mxEmax (F : Fmt) : Int := if F = e3m2 then 4 else 2

/-- The magnitude code of an element at scale exponent `es` (R81): exact division by 2^es, rounded to nearest-even, unbounded above. -/
def mxMag (F : Fmt) (es : Int) : Val → Nat
  | .num _ m e => roundMag F m (e - es) false
  | _ => 0

/-- The code of an element at scale exponent `es`, saturated (R82). -/
def mxCode (F : Fmt) (es : Int) : Val → Nat
  | .num neg m e => finishMag F true neg (roundMag F m (e - es) false)
  | _ => 0

/-- One MX block of source values: the scale byte and the element codes (R80 to R82). -/
def mxBlock (F : Fmt) (sat : Bool) (l : List Val) : Nat × List Nat :=
  if l.any nonFinite then (0xFF, l.map fun _ => 0)
  else
    let amax := l.foldl (fun a v => maxVal a (absVal v)) (.num false 0 0)
    match amax with
    | .num _ 0 _ => (0, l.map fun v => match v with | .num true _ _ => fmtSign F | _ => 0)
    | .num _ m e =>
      let es := max ((m.log2 : Int) + e - mxEmax F) (-127)
      let es1 := if !sat && l.any (fun v => fmtMax F < mxMag F es v) then es + 1 else es
      ((es1 + 127).toNat, l.map (mxCode F es1))
    | _ => (0xFF, l.map fun _ => 0)

/-- A standalone conversion to E8M0 (R94). -/
def toE8M0 (sat : Bool) (v : Val) : Nat :=
  match v with
  | .num false m e =>
    if m = 0 then 0xFF
    else
      let p := (m.log2 : Int) + e
      if p < -127 then 0
      else if 127 < p || (p = 127 && m ≠ 2 ^ m.log2) then (if sat then 0xFE else 0xFF)
      else (p + 127).toNat
  | .inf false => if sat then 0xFE else 0xFF
  | _ => 0xFF

/-- The format a format code of Table 3.1 names (E8M0 and the reserved codes name none). -/
def fmtOf (c : Nat) : Option Fmt :=
  match c with
  | 0 => some fp32 | 1 => some bf16 | 2 => some fp16 | 3 => some e4m3 | 4 => some e5m2
  | 5 => some e2m3 | 6 => some e3m2 | 7 => some e2m1 | _ => none

/-- A format code of an MX element format. -/
def isMX (c : Nat) : Bool := c = 5 || c = 6 || c = 7

/-- Bits of one element of a format code. -/
def elemBits (c : Nat) : Nat :=
  match c with
  | 0 => 32 | 1 => 16 | 2 => 16 | 3 => 8 | 4 => 8 | 5 => 6 | 6 => 6 | 7 => 4 | _ => 8

/-- Element `i` of width `w` packed little-endian in consecutive words (R77). -/
def unpack (l : List Word) (w i : Nat) : Nat :=
  let lo := w * i
  let a := (nth 0#32 l (lo / 32)).toNat
  let b := (nth 0#32 l (lo / 32 + 1)).toNat
  ((a + b * 2 ^ 32) >>> (lo % 32)) % 2 ^ w

/-- Elements packed little-endian into words (R77): the number their bits spell. -/
def packNat (w : Nat) : List Nat → Nat
  | [] => 0
  | x :: l => x % 2 ^ w + 2 ^ w * packNat w l

/-- The first `n` 32-bit words of a number, least significant first. -/
def wordsOf (x : Nat) : Nat → List Word
  | 0 => []
  | n + 1 => BitVec.ofNat 32 x :: wordsOf (x / 2 ^ 32) n

/-- An FP32 operand's hi piece: sign, exponent and the top 12 bits of the significand (R55). -/
def hiPiece (v : Val) : Val :=
  match v with
  | .num s m e => if m = 0 then v else
      let d := m.log2 - 11
      .num s ((m >>> d) <<< d) e
  | _ => v

/-- An FP32 operand's lo piece: operand − hi, flushed below 2^−126; +0 for NaN and ±Inf (R55). -/
def loPiece (v : Val) : Val :=
  match v with
  | .num s m e => if m = 0 then v else
      let d := m.log2 - 11
      flushVal fp32 (.num (s && m % 2 ^ d != 0) (m % 2 ^ d) e)
  | _ => .num false 0 0

end Sys2Proof
end

