-- ==== Sys2Proof/Machine/TileState.lean ====
section
/-!
DEFINITION. The state of one tile: sequencer, registers, regions, scratchpad, vector engine, outer-product engine,
NET transfers and router (spec/02, 04 to 08, 10). Everything is plain data; a part kept sparsely is in its reset state
when unlisted.
-/

namespace Sys2Proof.Machine

/-- Where a tile's sequencer stands in an invocation (R147, R154, R155): `ending` has executed CTL.END and not yet
reported its end; `stopped` was stopped and waits for the abort. -/
inductive SeqState where
  | idle | running | ending | ended | stopped
  deriving DecidableEq, Repr

/-- A region descriptor (R130) with the OPE's read cursor (R174). -/
structure Region where
  ver : Nat := 0
  base : Nat := 0
  size : Nat := 0
  swz : Bool := false
  resident : Bool := false
  prod : Nat := 0
  cons : Nat := 0
  head : Nat := 0
  occ : Nat := 0
  cursor : Nat := 0
  deriving DecidableEq, Repr

/-- The two-operand and three-operand arithmetic of majors 0x28 to 0x2A (Table 6.5). -/
inductive VFn where
  | fadd | fsub | fmul | ffma | fmin | fmax | fabs | fneg
  | div | sqrt | rcp | rsqrt | exp2 | log2 | exp | log | tanh | sigm | erf
  | iadd | isub | imul | and | or | xor | sll | srl | sra | imin | imax
  deriving DecidableEq, Repr

/-- The relations of the compares. -/
inductive VRel where
  | eq | ne | lt | le | gt | ge
  deriving DecidableEq, Repr

/-- Predicate logic (Table 6.5). -/
inductive PFn where
  | and | or | xor | not
  deriving DecidableEq, Repr

/-- The summaries (Table 4.4). -/
inductive SFn where
  | nf | amax | add | argmax
  deriving DecidableEq, Repr

/-- What the vector engine executes (R162, R166 to R171). -/
inductive VOp where
  | arith (fn : VFn) (f : LVA)
  | fcmp (r : VRel) (f : LVA)
  | icmp (r : VRel) (f : LVA)
  | plog (p : PFn) (f : LVA)
  | ppop (f : LVA)
  | cvt (f : LVA)
  | cvtN2 (f : LVA)
  | sum (fn : SFn) (f : LVS)
  | vld (f : LVM)
  | vst (f : LVM)
  | vstCvt (f : LVM)
  | vstMx (f : LVM)
  | vqPop (f : LVM)
  | vqPush (f : LVM)
  | movVS (f : LMV)
  | movSV (f : LMV)
  | movVV (f : LMV)
  | movPS (f : LMV)
  | movSP (f : LMV)
  deriving DecidableEq, Repr

/-- An entry of the vector queue: the instruction, the scalar read at issue (R150) and its index. -/
structure VEntry where
  op : VOp
  scal : DWord
  pc : Nat
  deriving DecidableEq, Repr

/-- A product: an OPE.MUL or OPE.CUBE taken up by the OPE, with what it captured (R150, R174, R197) and how far its
feed has come. -/
structure Product where
  set : Nat
  cont : Bool
  cube : Bool
  len : Nat
  cfmt : Nat
  rfmt : Nat
  crg : Nat
  rrg : Nat
  csrg : Nat
  rsrg : Nat
  ct : Bool
  rt : Bool
  cpx : Bool
  mask : Word
  pc : Nat
  /-- region offsets of the first words read: column, row, column scales, row scales (Table 7.3) -/
  cOff : Nat := 0
  rOff : Nat := 0
  csOff : Nat := 0
  rsOff : Nat := 0
  pass : Nat := 0
  beat : Nat := 0
  fed : Bool := false
  hazard : Bool := false
  /-- position among the products of the tile, in issue order (R52) -/
  seq : Nat := 0
  deriving DecidableEq, Repr

/-- An OPE.DRN with the tag read at issue (R150, R177). -/
structure Drain where
  set : Nat
  dst : Nat
  fmt : Nat
  rnd : Bool
  sat : Bool
  drg : Nat
  tag : DWord
  pc : Nat
  /-- the drain ordinal of R97 -/
  ord : Nat := 0
  /-- it drains a complex product, or a cube-mode set -/
  cpx : Bool := false
  cube : Bool := false
  deriving DecidableEq, Repr

/-- An entry of the OPE queue. -/
inductive OpeEntry where
  | mul (p : Product)
  | drn (d : Drain)
  deriving DecidableEq, Repr

/-- Where an accumulator set stands (Table 2.5): `ready` has its last contribution, `held` has passed its check and
waits for earlier tokens (R52). -/
inductive SetPhase where
  | empty | accumulating | ready | draining | held
  deriving DecidableEq, Repr

/-- One accumulator set (R43): cell (i, j) at key 33 i + j, the magnitude accumulators of the checksum cells at
1089 + 33 i + j. `zfirst` is the issue number of the first zero-mask product of the set since it was last empty, `zcpx` whether
the last one was complex (R52, R59). -/
structure AccSet where
  cells : Map Word := []
  phase : SetPhase := .empty
  mask : Word := 0
  keff : Nat := 0
  cf : Nat := 0
  prods : List Product := []
  drn : Option Drain := none
  attempt : Nat := 1
  zfirst : Option Nat := none
  zcpx : Bool := false
  deriving DecidableEq, Repr

/-- The OPE (R43 to R74). `latchC` and `latchR` hold the words of the last beat that read, of which a 16-bit transposed
operand takes column c + 1 (R128); `latchCS` and `latchRS` the scale words of the last scale beat (R45). `halted` once the OPE
stopped its tile (R68, R155, R173, R208): nothing more is fed, drained or checked until the abort. -/
structure Ope where
  queue : List OpeEntry := []
  feed : Option Product := none
  /-- products still to be fed again by a replay (R67) -/
  replay : List Product := []
  set0 : AccSet := {}
  set1 : AccSet := {}
  /-- zero-mask products that have reached the feed and wait to complete in issue order (R59) -/
  zero : List Product := []
  nextSeq : Nat := 0
  cube : Bool := false
  latchC : List Word := []
  latchR : List Word := []
  latchCS : List Word := []
  latchRS : List Word := []
  ckFrac : Nat := 0
  halted : Bool := false
  deriving DecidableEq, Repr

/-- What a NET transfer does (Table 6.8). -/
inductive NetKind where
  | pull | push | send | atom (aop : Nat)
  deriving DecidableEq, Repr

/-- A NET transfer in a transfer slot of the router (R181 to R183, R231). Offsets are counted from the start of the
region, modulo SIZE. -/
structure Transfer where
  tid : Nat
  kind : NetKind
  rg : Nat
  rrg : Nat
  addr : Nat
  dest : Nat := 0
  drg : Nat := 0
  len : Nat
  typ : Nat := 0
  bulk : Bool := false
  pc : Nat := 0
  /-- absolute region offset of the transfer's first word (source or destination), and of the old values in RRG -/
  off : Nat := 0
  roff : Nat := 0
  /-- flits whose units (or, for a send, whose flits) have been handed to the router -/
  issued : Nat := 0
  /-- flit indices written (pull, old values) -/
  got : List Nat := []
  /-- first flit indices of the units or groups acknowledged -/
  acked : List Nat := []
  /-- a unit was answered with an error: the transfer never completes (R183) -/
  failed : Bool := false
  /-- first flit indices of the units answered with an error -/
  erred : List Nat := []
  complete : Bool := false
  deriving DecidableEq, Repr

/-- The event of a tile that is outstanding (R158): `sent` once its CTL flit was handed to the router, `posted` once it stands in the
mailbox ring, `refused` once answered 0x41 or 0x46 (R400, R401), `accepted` once the job service has acknowledged it. -/
structure Event where
  code : Nat
  value : DWord
  sent : Bool := false
  posted : Bool := false
  refused : Bool := false
  accepted : Bool := false
  deriving DecidableEq, Repr

/-- What a flit other than RED carries beside the common fields (Table 8.5): the fields by kind, and the request payload of Table
8.6. An ERR names the combining entry of the request it answers, so that its router can tell it (R236; log entry 31). -/
inductive FlitBody where
  /-- RD, WR or AT request flit; `op` is 1, 2 or 3 as KIND -/
  | req (op site src cmb part addr seq nfl tid rcnt age atype aop : Nat)
  /-- data flit of a WR or AT packet -/
  | reqData (op site src cmb part : Nat)
  | rdata (tid seq cmb : Nat)
  | adata (tid seq cmb : Nat)
  | ack (tid seq : Nat) (exit : Bool)
  | err (tid seq ecode : Nat) (exit : Bool) (cmb : Nat)
  | ctl (site src op : Nat) (exit : Bool)
  | send (drg seq src tid : Nat)
  deriving DecidableEq, Repr

/-- A flit (R214, R217): the common fields, the body, the eight payload words. `bad` marks a payload bit flipped after
the CRC was formed (R447 kind 5), so that the CRC fails. -/
structure Flit where
  vc : Nat
  cls : Nat := 0
  head : Bool := true
  tail : Bool := true
  ep : Nat := 0
  nf : Bool := false
  dest : Nat
  body : FlitBody
  data : List Word := []
  bad : Bool := false
  deriving DecidableEq, Repr

/-- One requester joined in a combining entry (R235, R236). -/
structure CmbReq where
  src : Nat
  tid : Nat
  seq : Nat
  cmb : Nat
  deriving DecidableEq, Repr

/-- An entry of the read combining table (R235): `open_` while its forwarded request waits for its output. -/
structure CmbEntry where
  slot : Nat
  site : Nat
  addr : Nat
  nfl : Nat
  part : Nat
  reqs : List CmbReq
  waiting : Bool := true
  copied : Nat := 0
  deriving DecidableEq, Repr

/-- A staging record (R274): one block staged in a region for the reduction. `off` is the region offset of its first
word; `prim`, `mirr` and `retr` count the flits sent on its three descriptors; `resend` once the resend verdict came. -/
structure StageRec where
  bucket : Nat
  block : Nat
  wide : Bool
  mask : Word
  rg : Nat
  off : Nat
  prim : Nat := 0
  mirr : Nat := 0
  retr : Nat := 0
  resend : Bool := false
  deriving DecidableEq, Repr

/-- A bucket in a region's staging order of the step (R277). -/
structure StageBkt where
  rg : Nat
  bucket : Nat
  acked : Bool := false
  deriving DecidableEq, Repr

/-- What a bucket acknowledgement says (Table 10.3). -/
structure BktAck where
  bucket : Nat
  rdesc : Nat
  resend : Bool
  deriving DecidableEq, Repr

/-- A RED flit (Table 8.5, R219, R275): the keys, MASK of its elements, NF, eight payload words, and EP (Table 8.3). -/
structure RedFlit where
  bucket : Nat
  block : Nat
  off : Nat
  wide : Bool
  mir : Bool
  mask : Nat
  nf : Bool
  data : List Word
  ep : Nat := 0
  deriving DecidableEq, Repr

/-- A transfer of a NET.SEND that a region is receiving (R183, R237): `got` the flit indices written, `len` how many the transfer has, once
its last flit has told. -/
structure InSend where
  rg : Nat
  src : Nat
  tid : Nat
  off : Nat
  got : List Nat := []
  len : Option Nat := none
  done : Bool := false
  /-- slots of the tile's own transfers into the region that were issued before it -/
  before : List Nat := []
  deriving DecidableEq, Repr

/-- The router (R213 to R242, R273 to R286). Input buffers are keyed 16 port + 2 VC + class; the marks of an output port
32 port + VC; VC1 buffers of descriptors 8 RDESC + port. `cross` holds the flits in the crossing buffers that lead
into this router over seams, by the key of the input buffer they go to, `redCross` those of VC1 by the port, each with its descriptor (R240);
`linkFail` lists the ports whose links failed, `edgeBad` how often the coming flits of a site fail their CRC at an outward port (R241); `edge` holds
the flits that left by an outward port and wait for the site die (R215), by the port. `redUsed` counts the slots of a descriptor taken at the node that
OUT feeds (R283). -/
structure Router where
  inject : List Flit := []
  bufs : Map (List Flit) := []
  cross : Map (List Flit) := []
  arrived : List Flit := []
  edge : Map (List Flit) := []
  rr : Map Nat := []
  starve : Map Nat := []
  lock : Map Nat := []
  /-- EP and PART stamped on the last request injected, by VC: the data flits of its packet repeat them (R218) -/
  packet : Map (Nat × Nat) := []
  cmb : List CmbEntry := []
  crcFails : Map Nat := []
  linkFail : List Nat := []
  redIn : Map (List RedFlit) := []
  redCross : Map (List (Nat × RedFlit)) := []
  edgeBad : Map Nat := []
  redUsed : Map Nat := []
  redStopped : List Nat := []
  /-- the keys recorded of the heads that stopped a descriptor (R239) -/
  redKeys : List (Nat × List Nat) := []
  stage : List StageRec := []
  staged : List StageBkt := []
  deriving DecidableEq, Repr

/-- A word written by the vector engine (`vec`) or by a store of the sequencer, which a read by another unit may still see as it stood
before (R127, R152): its physical index, the region through which it was written (none for an absolute store), the word before and the
word written. -/
structure Loose where
  idx : Nat
  vec : Bool
  rg : Option Nat := none
  old : Word
  new : Word
  deriving DecidableEq, Repr

/-- One tile. Vector register r holds word l at key 32 r + l; the instruction store holds the low half of instruction n
at key 2 n and its high half at 2 n + 1; `par` holds the failing bytes of scratchpad
words, `ipar` the halves of the instruction store whose parity fails, by the same keys (R439); `laneBad` the attempts of the next sampled
vector instruction that a fault of the check lane or of its data lane makes fail (R117); `credit` is the pacing credit of a tile that has spent some (R371): none stands for the `fresh` of its field; `fpLeft` counts the groups that a sweep has still to check, `fpFrac` those checked beyond the last 256 counted; `injWord` the physical word that an injection of kind 7
flipped and what it holds since, while that has raised no record (R446); `firstIssue` when the first instruction of the invocation issued (R410), `lastIssue`
when the last one did, or when the invocation was given to the tile (R411); `loose` the writes that nothing has ordered before a read of another port. -/
structure Tile where
  seq : SeqState := .idle
  fault : Bool := false
  waiting : Bool := false
  fcause : Nat := 0
  pc : Nat := 0
  sregs : Map DWord := []
  vregs : Map Word := []
  pregs : Map DWord := []
  regions : Map Region := []
  spd : Map Word := []
  par : Map Nat := []
  istore : Map Word := []
  ipar : Map Nat := []
  laneBad : Nat := 0
  vq : List VEntry := []
  lpcOrd : Nat := 0
  lpcFrac : Nat := 0
  rate : Nat := 4
  ope : Ope := {}
  net : List Transfer := []
  inSends : List InSend := []
  event : Option Event := none
  credit : Option Int := none
  lastWin : Map Nat := []
  fpLeft : Nat := 0
  fpFrac : Nat := 0
  injWord : Option (Nat × Word) := none
  firstIssue : Option DWord := none
  lastIssue : DWord := 0
  loose : List Loose := []
  csr : Map Word := []
  rtr : Router := {}
  deriving DecidableEq, Repr

/-- A record for the error log before it is stamped with its time and number (Table 18.3). -/
structure Rec where
  source : Nat
  cls : Nat
  loc : Nat
  offset : Nat := 0xFFFF
  code : Nat := 0
  addr : Nat := 0
  detail : List Word := []
  inj : Bool := false
  deriving DecidableEq, Repr

end Sys2Proof.Machine
end

