-- ==== Sys2Proof/Machine/FlitWord.lean ====
section
/-!
DEFINITION. A flit as it stands on a link (R214, R217 to R219): the 96-bit control word of Tables 8.3 to 8.5 with its CRC, and the 256-bit
payload of Table 8.6 or of eight words.
-/

namespace Sys2Proof.Machine

/-- A field of `n` bits placed at bit `lo`. -/
def place (lo n v : Nat) : Nat := v % 2 ^ n * 2 ^ lo

/-- KIND (Table 8.4). -/
def flitKind (f : Flit) : Nat :=
  match f.body with
  | .req op _ _ _ _ _ _ _ _ _ _ _ _ => op
  | .reqData op _ _ _ _ => op
  | .rdata _ _ _ => 4
  | .adata _ _ _ => 5
  | .ack _ _ _ => 6
  | .err _ _ _ _ _ => 7
  | .ctl _ _ _ _ => 8
  | .send _ _ _ _ => 9

/-- Bits [67:0] of the control word (Table 8.5). -/
def flitLow (f : Flit) : Nat :=
  place 51 17 f.dest +
  match f.body with
  | .req _ site src cmb part _ _ _ _ _ _ _ _ => place 45 6 site + place 28 17 src + place 23 5 cmb + place 20 3 part
  | .reqData _ site src cmb part => place 45 6 site + place 28 17 src + place 23 5 cmb + place 20 3 part
  | .rdata tid seq cmb => place 47 4 tid + place 33 14 seq + place 28 5 cmb
  | .adata tid seq cmb => place 47 4 tid + place 33 14 seq + place 28 5 cmb
  | .ack tid seq exit => place 47 4 tid + place 33 14 seq + place 24 1 (nb exit)
  | .err tid seq ecode exit _ => place 47 4 tid + place 33 14 seq + place 25 8 ecode + place 24 1 (nb exit)
  | .ctl site src op exit => place 45 6 site + place 28 17 src + place 24 4 op + place 23 1 (nb exit)
  | .send drg seq src tid => place 47 4 drg + place 33 14 seq + place 16 17 src + place 12 4 tid

/-- Bits [79:0] of the control word (Table 8.3). -/
def flitFields (f : Flit) : Nat :=
  place 77 3 f.vc + place 76 1 f.cls + place 72 4 (flitKind f) + place 71 1 (nb f.head) + place 70 1 (nb f.tail) + place 69 1 f.ep +
    place 68 1 (nb f.nf) + flitLow f

/-- Eight words as a payload: word w in bits [32w+31:32w] (R214). -/
def payloadOf : List Word → Nat
  | [] => 0
  | w :: l => w.toNat + 2 ^ 32 * payloadOf l

/-- The payload: the request payload of Table 8.6, or eight words. -/
def flitPayload (f : Flit) : Nat :=
  match f.body with
  | .req _ _ _ _ _ addr seq nfl tid rcnt age atype aop =>
    place 0 48 addr + place 48 14 seq + place 62 4 nfl + place 66 4 tid + place 70 16 rcnt + place 86 32 age + place 118 1 atype + place 119 3 aop
  | _ => payloadOf (f.data.take 8)

/-- Bits [79:0] of the control word of a RED flit of descriptor d (Tables 8.3, 8.5). -/
def redFields (f : RedFlit) (d : Nat) (head tail : Bool) : Nat :=
  place 77 3 1 + place 72 4 10 + place 71 1 (nb head) + place 70 1 (nb tail) + place 69 1 f.ep + place 68 1 (nb f.nf) + place 52 16 f.bucket + place 36 16 f.block +
    place 29 7 f.off + place 28 1 (nb f.wide) + place 12 16 f.mask + place 4 8 d + place 3 1 (nb f.mir)

/-- CRC-16 with polynomial 0x1021, one bit. -/
def crc16Bit (c : Nat) (b : Bool) : Nat :=
  let t := 2 * c % 65536
  if decide (32768 ≤ c) != b then t ^^^ 0x1021 else t

/-- CRC-16 of the `n` low bits of a number, most significant first, from 0xFFFF. -/
def crc16 (n v : Nat) : Nat := (List.range n).foldl (fun c i => crc16Bit c (v.testBit (n - 1 - i))) 0xFFFF

/-- The CRC of a flit (Table 8.3): over the payload and bits [79:0] of the control word, the payload first (log entry 56). -/
def linkCrc (payload fields : Nat) : Nat := crc16 336 (payload * 2 ^ 80 + fields)

/-- The control word of a flit with its CRC in bits [95:80]. -/
def flitControl (f : Flit) : Nat := linkCrc (flitPayload f) (flitFields f) * 2 ^ 80 + flitFields f

/-- A receiver finds the CRC of a control word wrong for a payload (R241). -/
def crcWrong (payload control : Nat) : Bool := linkCrc payload (control % 2 ^ 80) ≠ control / 2 ^ 80

/-- The flit arrives with payload bit `b` flipped after its CRC was formed (R447 kind 5), and fails its CRC. -/
def flipFails (f : Flit) (b : Nat) : Bool := crcWrong (flitPayload f ^^^ 2 ^ b) (flitControl f)

end Sys2Proof.Machine
end

