-- ==== Sys2Proof/Machine/HaloWord.lean ====
section
/-!
DEFINITION. A Halo-native flit as it stands on a port (R384): the 64-bit header of Table 15.1, 512 bytes of payload, and the CRC-64.
-/

namespace Sys2Proof.Machine

/-- The header (Table 15.1). -/
def haloHeader (typ seq ack : Nat) (nak : Bool) (cred tag off : Nat) : Nat :=
  place 60 4 typ + place 48 12 seq + place 36 12 ack + place 35 1 (nb nak) + place 27 8 cred + place 19 8 tag + place 0 19 off

/-- CRC-64 with polynomial 0x42F0_E1EB_A9EA_3693, one bit. -/
def crc64Bit (c : Nat) (b : Bool) : Nat :=
  let t := 2 * c % 2 ^ 64
  if decide (2 ^ 63 ≤ c) != b then t ^^^ 0x42F0E1EBA9EA3693 else t

/-- CRC-64 of a byte, most significant bit first. -/
def crc64Byte (c : Nat) (b : Byte) : Nat := (List.range 8).foldl (fun c i => crc64Bit c (b.toNat.testBit (7 - i))) c

/-- The CRC of a flit (R384): over the header, its most significant byte first, and the payload, from all ones (log entry 56). -/
def haloCrc (header : Nat) (data : List Byte) : Nat :=
  ((leBytes header 8).reverse ++ (data ++ List.replicate 512 0).take 512).foldl crc64Byte (2 ^ 64 - 1)

/-- TYPE of a received flit of a kind of command: a reserved value where the sender gave one. -/
def wireType (typ rtype : Nat) : Nat := if 7 ≤ rtype && rtype ≤ 15 then rtype else typ

/-- A received flit of TYPE 0x0 to 0x6 passes its CRC; one of a reserved TYPE is treated as failing it (Table 15.2). -/
def haloGood (typ : Nat) (x : HFlit) : Bool :=
  decide (wireType typ x.rtype < 7) && x.crc = haloCrc (haloHeader typ x.seq x.ack x.nak x.cred x.tag x.off) x.data

end Sys2Proof.Machine
end

