-- ==== Sys2Proof/Machine/Binary.lean ====
section
/-!
DEFINITION. Greset binaries (R185, R186): the header of Table 6.14, the program, class and placement records, and how they are read
from the bytes of site memory.
-/

namespace Sys2Proof.Machine

/-- A program image: its instruction words and its entry index. -/
structure Program where
  words : List DWord
  entry : Nat
  deriving DecidableEq, Repr

/-- A class record: program, scratchpad words, and the TILE_RG_BASE and TILE_RG_SIZE images of rg0 to rg15. -/
structure ClassRec where
  prog : Nat
  spdWords : Nat
  desc : List (Word × Word)
  deriving DecidableEq, Repr

/-- A placement record: an inclusive rectangle of logical tiles, and their class. -/
structure PlaceRec where
  x0 : Nat
  y0 : Nat
  x1 : Nat
  y1 : Nat
  cls : Nat
  deriving DecidableEq, Repr

/-- A binary (Table 6.14); `rsv` whether a byte that must be 0 is not, or a field lies outside its stated values. -/
structure Binary where
  level : Nat
  minProf : Nat
  tuned : Nat
  features : Nat
  length : Nat
  fields : Nat
  buckets : Nat
  rdescs : Nat
  pgroups : Nat
  siteBytes : Nat
  stratBytes : Nat
  rights : Nat
  rsv : Bool
  progs : List Program
  classes : List ClassRec
  places : List PlaceRec
  deriving DecidableEq, Repr

/-- The number in n bytes at an offset, little-endian. -/
def numAt (l : List Byte) (o n : Nat) : Nat := ofLeBytes ((l.drop o).take n)

/-- The 8-byte words of a program image. -/
def progWords (l : List Byte) (o n : Nat) : List DWord := (List.range n).map fun i => BitVec.ofNat 64 (numAt l (o + 8 * i) 8)

/-- The program record at an offset, where its fields are in range. -/
def readProgram (l : List Byte) (o : Nat) : Option Program :=
  let off := numAt l o 8
  let len := numAt l (o + 8) 2
  let entry := numAt l (o + 10) 2
  if 1 ≤ len && decide (len ≤ 4096) && decide (entry < len) && decide (off + 8 * len ≤ l.length) then
    some { words := progWords l off len, entry := entry }
  else none

/-- The class record at an offset. -/
def readClass (l : List Byte) (o : Nat) : ClassRec :=
  { prog := numAt l o 2, spdWords := numAt l (o + 4) 4,
    desc := (List.range 16).map fun i => (BitVec.ofNat 32 (numAt l (o + 8 + 8 * i) 4), BitVec.ofNat 32 (numAt l (o + 12 + 8 * i) 4)) }

/-- The placement record at an offset. -/
def readPlace (l : List Byte) (o : Nat) : PlaceRec :=
  { x0 := numAt l o 2, y0 := numAt l (o + 2) 2, x1 := numAt l (o + 4) 2, y1 := numAt l (o + 6) 2, cls := numAt l (o + 8) 2 }

/-- Two rectangles share a tile. -/
def PlaceRec.meets (a b : PlaceRec) : Bool :=
  decide (a.x0 ≤ b.x1) && decide (b.x0 ≤ a.x1) && decide (a.y0 ≤ b.y1) && decide (b.y0 ≤ a.y1)

/-- No two placement records overlap (R186). -/
def disjointPlaces : List PlaceRec → Bool
  | [] => true
  | a :: l => l.all (fun b => !a.meets b) && disjointPlaces l

/-- The placement record's fields are in range. -/
def PlaceRec.ok (p : PlaceRec) (classes : Nat) : Bool :=
  decide (p.x0 ≤ p.x1) && decide (p.x1 < 350) && decide (p.y0 ≤ p.y1) && decide (p.y1 < 336) && decide (p.cls < classes)

/-- A binary read from bytes (R185, R186): none where MAGIC, HDRVER, LENGTH or HCRC is wrong, or a count, offset or record does not
fit (log entry 41). -/
def readBinary (l : List Byte) : Option Binary :=
  let nprog := numAt l 0x10 4
  let nclass := numAt l 0x14 4
  let nplace := numAt l 0x18 4
  let oprog := numAt l 0x20 8
  let oclass := numAt l 0x28 8
  let oplace := numAt l 0x30 8
  let zero (o n : Nat) : Bool := numAt l o n = 0
  let progs := (List.range nprog).map fun i => readProgram l (oprog + 16 * i)
  let classes := (List.range nclass).map fun i => readClass l (oclass + 136 * i)
  let places := (List.range nplace).map fun i => readPlace l (oplace + 12 * i)
  if l.length < 128 || numAt l 0 4 ≠ 0x54535247 || numAt l 5 1 ≠ 1 || numAt l 0x38 8 ≠ l.length || numAt l 0x7C 4 ≠ crc32 (l.take 0x7C) ||
      nprog = 0 || 256 < nprog || nclass = 0 || 65536 < nclass || l.length < oprog + 16 * nprog || l.length < oclass + 136 * nclass ||
      l.length < oplace + 12 * nplace || progs.any Option.isNone || classes.any (fun c => decide (nprog ≤ c.prog)) ||
      places.any (fun p => !p.ok nclass) || !disjointPlaces places then none
  else some {
    level := numAt l 4 1, minProf := numAt l 6 2, tuned := numAt l 8 1, features := numAt l 0xC 4, length := numAt l 0x38 8,
    fields := numAt l 0x40 2, buckets := numAt l 0x42 2, rdescs := numAt l 0x44 2, pgroups := numAt l 0x46 2,
    siteBytes := numAt l 0x48 8, stratBytes := numAt l 0x50 8, rights := numAt l 0x58 1,
    rsv := !(zero 9 3 && zero 0x1C 4 && zero 0x59 35) || 4 ≤ numAt l 0x58 1 || 3 ≤ numAt l 8 1 || 256 < numAt l 0x46 2 ||
      (List.range nprog).any (fun i => !zero (oprog + 16 * i + 12) 4) || (List.range nclass).any (fun i => !zero (oclass + 136 * i + 2) 2) ||
      (List.range nplace).any (fun i => !zero (oplace + 12 * i + 10) 2),
    progs := progs.filterMap id, classes := classes, places := places }

/-- The class and program of a class number. -/
def Binary.cls (b : Binary) (c : Nat) : ClassRec := nth { prog := 0, spdWords := 0, desc := [] } b.classes c
@[inherit_doc Binary.cls] def Binary.prog (b : Binary) (c : Nat) : Program := nth { words := [], entry := 0 } b.progs (b.cls c).prog

/-- The binary's placed tiles by its own coordinates, each with its class. -/
def Binary.placed (b : Binary) : List (Nat × Nat × Nat) :=
  b.places.flatMap fun p => (List.range (p.y1 + 1 - p.y0)).flatMap fun j => (List.range (p.x1 + 1 - p.x0)).map fun i =>
    (p.x0 + i, p.y0 + j, p.cls)

end Sys2Proof.Machine
end

