-- ==== Sys2Proof/Machine/RegTable.lean ====
section
/-!
DEFINITION. The register tables of the manual as data: where each register stands in its window, what it resets to,
which bits a write sets (RW), which it clears (W1C), which it only commands with (WO), and whether a write waits for
the partition to be quiescent (R475). A 64-bit register is listed as its two words.
-/

namespace Sys2Proof.Machine

/-- One register, or `count` of them `stride` apart, by its offset in its window. -/
structure Reg where
  off : Nat
  stride : Nat
  count : Nat
  reset : Nat
  rw : Nat
  w1c : Nat
  wo : Nat
  quiet : Bool
  deriving DecidableEq, Repr

/-- The register covers this offset. -/
def Reg.covers (r : Reg) (o : Nat) : Bool :=
  if r.stride = 0 then o = r.off
  else r.off ≤ o && (o - r.off) % r.stride = 0 && (o - r.off) / r.stride < r.count

/-- Tile CSRs, by offset from +0xC_0000 (Tables 2.5 to 10.11, 18.6, 18.10, 19.4). -/
def tileRegs0 : List Reg := [
  ⟨0x0, 0, 1, 0x0, 0x0, 0x2, 0x0, false⟩,
  ⟨0x4, 0, 1, 0x0, 0x0, 0x0, 0x0, false⟩,
  ⟨0x8, 0, 1, 0x0, 0xFFFFFFFF, 0x0, 0x0, true⟩,
  ⟨0xC, 0, 1, 0x0, 0x1, 0x0, 0x0, true⟩,
  ⟨0x100, 16, 16, 0x0, 0xF001FFFF, 0x0, 0x0, false⟩,
  ⟨0x104, 16, 16, 0x0, 0xFF01FFFF, 0x0, 0x0, false⟩,
  ⟨0x108, 16, 16, 0x0, 0x1FFFF, 0x0, 0x0, false⟩,
  ⟨0x10C, 16, 16, 0x0, 0x0, 0x0, 0x0, false⟩,
  ⟨0x200, 4, 16, 0x0, 0x1FFFF, 0x0, 0x0, false⟩,
  ⟨0x300, 0, 1, 0x0, 0x0, 0x6, 0x0, false⟩,
  ⟨0x304, 0, 1, 0x0, 0x0, 0x80000000, 0x0, false⟩,
  ⟨0x308, 0, 1, 0x0, 0xFFFFFFFF, 0x0, 0x0, false⟩,
  ⟨0x400, 0, 1, 0x0, 0x0, 0x2, 0x0, false⟩,
  ⟨0x404, 0, 1, 0x0, 0xFFFFFFFF, 0x0, 0x0, false⟩,
  ⟨0x408, 0, 1, 0x0, 0xFFFFFFFF, 0x0, 0x0, false⟩,
  ⟨0x40C, 0, 1, 0x0, 0x0, 0x80000000, 0x0, false⟩,
  ⟨0x410, 0, 1, 0x4204, 0x0, 0x0, 0x0, false⟩,
  ⟨0x500, 0, 1, 0x0, 0xFFFF, 0x0, 0x0, true⟩,
  ⟨0x504, 0, 1, 0x0, 0xFFFFFFFF, 0x0, 0x0, true⟩,
  ⟨0x508, 0, 1, 0x0, 0x1FFFF, 0x0, 0x0, true⟩,
  ⟨0x50C, 4, 2, 0x0, 0x0, 0x0, 0x0, false⟩,
  ⟨0x600, 0, 1, 0x0, 0x0, 0x2, 0x0, false⟩,
  ⟨0x604, 0, 1, 0x4, 0xF, 0x0, 0x0, false⟩,
  ⟨0x608, 0, 1, 0x0, 0xFFFFFFFF, 0x0, 0x0, false⟩,
  ⟨0x60C, 0, 1, 0x0, 0x0, 0x80000000, 0x0, false⟩]

/-- Tile CSRs, by offset from +0xC_0000 (Tables 2.5 to 10.11, 18.6, 18.10, 19.4). -/
def tileRegs1 : List Reg := [
  ⟨0x700, 0, 1, 0x0, 0x2, 0x4, 0x0, false⟩,
  ⟨0x704, 0, 1, 0x0, 0xFFFFFFFF, 0x0, 0x0, false⟩,
  ⟨0x708, 0, 1, 0x0, 0x0, 0x80000000, 0x0, false⟩,
  ⟨0x70C, 0, 1, 0x0, 0x0, 0x0, 0x0, false⟩,
  ⟨0x710, 0, 1, 0x0, 0x0, 0x0, 0x0, false⟩,
  ⟨0x800, 8, 32, 0x0, 0x0, 0x0, 0x0, false⟩,
  ⟨0x804, 8, 32, 0x0, 0x0, 0x0, 0x0, false⟩,
  ⟨0x900, 0, 1, 0x0, 0x0, 0x8000, 0x0, false⟩,
  ⟨0x904, 0, 1, 0x0, 0xFFFFFFFF, 0x0, 0x0, false⟩,
  ⟨0x908, 0, 1, 0x0, 0xFFFFFFFF, 0x0, 0x0, false⟩,
  ⟨0x90C, 0, 1, 0x8000, 0xF000, 0x0, 0x0, true⟩,
  ⟨0xA00, 4, 16, 0x10000000, 0xFCFFFFFF, 0x0, 0x0, true⟩,
  ⟨0xB00, 0, 1, 0x0, 0xFFF0000, 0x80000000, 0x0, false⟩,
  ⟨0xB04, 0, 1, 0x0, 0x1FFFF, 0x0, 0x0, false⟩,
  ⟨0xB10, 0, 1, 0x0, 0xFFFFFFFF, 0x0, 0x0, false⟩,
  ⟨0xB14, 0, 1, 0x0, 0xFFFF, 0x0, 0x0, false⟩,
  ⟨0xB18, 0, 1, 0x8000000, 0xFF000000, 0x0, 0x3, false⟩,
  ⟨0xB1C, 0, 1, 0x0, 0x0, 0x80000000, 0x0, false⟩,
  ⟨0xB20, 0, 1, 0x0, 0xFFFFFFFF, 0x0, 0x0, false⟩,
  ⟨0xC00, 0, 1, 0x0, 0x0, 0x0, 0x1, false⟩,
  ⟨0x1000, 4, 256, 0x0, 0xFFFFFFC0, 0x0, 0x0, true⟩]

/-- Tile CSRs, by offset from +0xC_0000 (Tables 2.5 to 10.11, 18.6, 18.10, 19.4). -/
def tileRegs : List Reg := tileRegs0 ++ tileRegs1

/-- Field registers, by offset from +0xC000_0000 (Tables 1.7, 8.9 to 8.11, 16.2, 18.13). -/
def fieldRegs : List Reg := [
  ⟨0x0, 0, 1, 0xF8C000, 0x0, 0x80, 0x0, false⟩,
  ⟨0x4, 0, 1, 0xF, 0xF, 0x0, 0x0, false⟩,
  ⟨0x10, 0, 1, 0x0, 0x1, 0x0, 0x0, false⟩,
  ⟨0x14, 0, 1, 0x0, 0x3F, 0x0, 0x0, false⟩,
  ⟨0x20, 0, 1, 0x0, 0xF000000, 0x0, 0x3, false⟩,
  ⟨0x24, 0, 1, 0x0, 0x0, 0x80000000, 0x0, false⟩,
  ⟨0x1000, 4, 512, 0xFF000, 0x3FFF800, 0x0, 0x0, false⟩]

/-- Site registers, by offset in the site window (Tables 9.6 to 9.12, 10.5, 10.8, 10.12 to 10.14, 11.2, 11.3, 11.12 to 11.14, 18.7). -/
def siteRegs0 : List Reg := [
  ⟨0x0, 0, 1, 0x0, 0x0, 0x60, 0x0, false⟩,
  ⟨0x4, 0, 1, 0xF, 0xF, 0x0, 0x0, false⟩,
  ⟨0x8, 0, 1, 0x0, 0x0, 0x0, 0x0, false⟩,
  ⟨0xC, 0, 1, 0x80, 0x0, 0x0, 0x0, false⟩,
  ⟨0x10, 0, 1, 0x0, 0xFF00, 0x0, 0x0, false⟩,
  ⟨0x14, 0, 1, 0xF, 0xF, 0x0, 0x0, false⟩,
  ⟨0x20, 0, 1, 0x0, 0xFFFFFFFF, 0x0, 0x0, false⟩,
  ⟨0x24, 0, 1, 0x0, 0x0, 0x80000000, 0x0, false⟩,
  ⟨0x28, 0, 1, 0x0, 0x0, 0x0, 0x0, false⟩,
  ⟨0x30, 0, 1, 0x0, 0x7FFF0000, 0x80000000, 0x0, false⟩,
  ⟨0x34, 0, 1, 0x0, 0xFFFFFFFF, 0x0, 0x0, false⟩,
  ⟨0x40, 0, 1, 0x4100410, 0xFFFFFFFF, 0x0, 0x0, false⟩,
  ⟨0x60, 0, 1, 0x8, 0xFFFF000F, 0x0, 0x0, true⟩,
  ⟨0x64, 0, 1, 0x0, 0xFFFFFFFF, 0x0, 0x0, true⟩,
  ⟨0x68, 0, 1, 0xFFFF0000, 0x0, 0x70, 0x0, false⟩,
  ⟨0x70, 0, 1, 0x0, 0x0, 0x80000000, 0x0, false⟩,
  ⟨0x74, 0, 1, 0x0, 0x0, 0x0, 0x0, false⟩,
  ⟨0x78, 0, 1, 0x0, 0x0, 0x80000000, 0x0, false⟩,
  ⟨0x7C, 0, 1, 0x0, 0x0, 0x0, 0x0, false⟩,
  ⟨0x80, 0, 1, 0x0, 0xFFFFFFFF, 0x0, 0x0, false⟩,
  ⟨0x100, 16, 8, 0x0, 0xFFFFFFF, 0x0, 0x0, false⟩,
  ⟨0x104, 16, 8, 0x0, 0xFFFFFF, 0x0, 0x0, false⟩,
  ⟨0x108, 16, 8, 0x10000, 0xFFFF0000, 0x8, 0x3, false⟩,
  ⟨0x200, 4, 256, 0x0, 0xFFFF0000, 0x0, 0x0, true⟩,
  ⟨0x600, 0, 1, 0x400001, 0x3FFF0003, 0x0, 0x0, false⟩]

/-- Site registers, by offset in the site window (Tables 9.6 to 9.12, 10.5, 10.8, 10.12 to 10.14, 11.2, 11.3, 11.12 to 11.14, 18.7). -/
def siteRegs1 : List Reg := [
  ⟨0x604, 0, 1, 0x0, 0xFFFFFFF, 0x0, 0x0, false⟩,
  ⟨0x608, 0, 1, 0x0, 0x1FFFFF, 0x0, 0x0, false⟩,
  ⟨0x60C, 0, 1, 0x0, 0xFFFFFFF, 0x0, 0x0, false⟩,
  ⟨0x610, 0, 1, 0x0, 0x1FFF, 0x0, 0x0, false⟩,
  ⟨0x614, 0, 1, 0x0, 0x0, 0x2, 0x0, false⟩,
  ⟨0x618, 0, 1, 0x0, 0x0, 0x0, 0x0, false⟩,
  ⟨0x620, 0, 1, 0x0, 0x0, 0x0, 0x7, false⟩,
  ⟨0x624, 0, 1, 0x0, 0x0, 0x0, 0x0, false⟩,
  ⟨0x628, 0, 1, 0x0, 0xFFFFFFFF, 0x0, 0x0, false⟩,
  ⟨0x62C, 0, 1, 0x10001800, 0xFFFFFF00, 0x0, 0x0, false⟩,
  ⟨0x630, 0, 1, 0x7D0, 0xFFFF, 0x0, 0x0, false⟩,
  ⟨0x634, 0, 1, 0x3F800000, 0xFFFFFFFF, 0x0, 0x0, false⟩,
  ⟨0x638, 0, 1, 0x0, 0x0, 0x0, 0x0, false⟩,
  ⟨0x63C, 0, 1, 0x0, 0x0, 0x0, 0x0, false⟩,
  ⟨0x640, 0, 1, 0x0, 0x0, 0x0, 0x0, false⟩,
  ⟨0x644, 0, 1, 0x0, 0x0, 0x0, 0x0, false⟩,
  ⟨0x648, 0, 1, 0x3F800000, 0x0, 0x0, 0x0, false⟩,
  ⟨0x64C, 0, 1, 0x3F800000, 0x0, 0x0, 0x0, false⟩,
  ⟨0x650, 0, 1, 0x0, 0xFFFFFFF, 0x0, 0x0, false⟩,
  ⟨0x654, 0, 1, 0x0, 0x0, 0x80000000, 0x0, false⟩,
  ⟨0x658, 0, 1, 0x0, 0x0, 0x0, 0x0, false⟩,
  ⟨0x660, 0, 1, 0x0, 0xFFFFFFF, 0x0, 0x0, false⟩,
  ⟨0x664, 0, 1, 0x0, 0xFFFFF, 0x0, 0x0, false⟩,
  ⟨0x668, 0, 1, 0x0, 0xFFFFFFF, 0x0, 0x0, false⟩,
  ⟨0x66C, 0, 1, 0x0, 0x0, 0x0, 0x3, false⟩]

/-- Site registers, by offset in the site window (Tables 9.6 to 9.12, 10.5, 10.8, 10.12 to 10.14, 11.2, 11.3, 11.12 to 11.14, 18.7). -/
def siteRegs2 : List Reg := [
  ⟨0x1000, 8, 4096, 0x0, 0xFFFF803F, 0x0, 0x0, true⟩,
  ⟨0x1004, 8, 4096, 0x0, 0xFFFFFFFF, 0x0, 0x0, true⟩,
  ⟨0xA000, 64, 256, 0x80000, 0xFFFFF800, 0x0, 0x0, true⟩,
  ⟨0xA004, 64, 256, 0x0, 0xFFFFFFFF, 0x0, 0x0, true⟩,
  ⟨0xA008, 64, 256, 0x0, 0xFFFFFFFF, 0x0, 0x0, true⟩,
  ⟨0xA00C, 64, 256, 0x0, 0xFFFFFFFF, 0x0, 0x0, true⟩,
  ⟨0xA010, 64, 256, 0x1, 0xFFFFFFFF, 0x0, 0x0, true⟩,
  ⟨0xA014, 64, 256, 0x0, 0xFFFFFFFF, 0x0, 0x0, true⟩,
  ⟨0xA018, 64, 256, 0x0, 0xFFFFFFFF, 0x0, 0x0, true⟩,
  ⟨0xA01C, 64, 256, 0x0, 0xFFFFFFFF, 0x0, 0x0, true⟩,
  ⟨0xA020, 64, 256, 0x0, 0xFFFFFFFF, 0x0, 0x0, true⟩,
  ⟨0xA024, 64, 256, 0x0, 0xFFFFFFFF, 0x0, 0x0, true⟩,
  ⟨0xA028, 64, 256, 0x0, 0xFFFFFFFF, 0x0, 0x0, true⟩,
  ⟨0xA02C, 64, 256, 0x0, 0xFFFFFFFF, 0x0, 0x0, true⟩,
  ⟨0xA030, 64, 256, 0x0, 0xFFFFFFFF, 0x0, 0x0, true⟩,
  ⟨0xA034, 64, 256, 0x0, 0xFFFFFFFF, 0x0, 0x0, true⟩,
  ⟨0xA038, 64, 256, 0x0, 0xFFFFFFFF, 0x0, 0x0, true⟩,
  ⟨0xA03C, 64, 256, 0x0, 0xFFFFFFFF, 0x0, 0x0, true⟩,
  ⟨0xE000, 8, 256, 0xFFFFFFFF, 0xFFFFFFFF, 0x0, 0x0, false⟩,
  ⟨0xE004, 8, 256, 0x0, 0xFFFFFFFF, 0x0, 0x0, false⟩,
  ⟨0x10000, 4, 4096, 0x0, 0xFFFFFFFF, 0x0, 0x0, false⟩,
  ⟨0x20000, 16, 16384, 0x0, 0x0, 0x0, 0x0, false⟩,
  ⟨0x20004, 16, 16384, 0x0, 0x0, 0x0, 0x0, false⟩,
  ⟨0x20008, 16, 16384, 0x0, 0x0, 0x0, 0x0, false⟩,
  ⟨0x2000C, 16, 16384, 0x0, 0x0, 0x0, 0x0, false⟩]

/-- Site registers, by offset in the site window (Tables 9.6 to 9.12, 10.5, 10.8, 10.12 to 10.14, 11.2, 11.3, 11.12 to 11.14, 18.7). -/
def siteRegs : List Reg := siteRegs0 ++ siteRegs1 ++ siteRegs2

/-- Halo port registers, by offset in the port window (Tables 15.6 to 15.8, 18.8). -/
def portRegs : List Reg := [
  ⟨0x0, 0, 1, 0xF00000, 0xF00001, 0x0, 0x6, false⟩,
  ⟨0x4, 0, 1, 0xF00000, 0x0, 0x0, 0x0, false⟩,
  ⟨0x10, 0, 1, 0x0, 0xFFFFFFFF, 0x0, 0x0, false⟩,
  ⟨0x14, 0, 1, 0x0, 0x0, 0x80000000, 0x0, false⟩,
  ⟨0x18, 0, 1, 0x0, 0x0, 0x0, 0x0, false⟩,
  ⟨0x20, 0, 1, 0x0, 0x7FFF0000, 0x80000000, 0x0, false⟩,
  ⟨0x100, 4, 9, 0xF0, 0xFFFFFF00, 0x8, 0x0, false⟩,
  ⟨0x1000, 16, 64, 0x0, 0xFFFFFFFF, 0x0, 0x0, false⟩,
  ⟨0x1004, 16, 64, 0x0, 0xFFFF, 0x0, 0x0, false⟩,
  ⟨0x1008, 16, 64, 0x0, 0xFFFFFFFF, 0x0, 0x0, false⟩,
  ⟨0x100C, 16, 64, 0x0, 0x3, 0x0, 0x0, false⟩]

/-- Ezper registers, by offset from 0x78_0000_0000 (Tables 14.9 to 14.12, 16.2, 17.7, 18.2, 18.9, 18.14, 19.4). -/
def modRegs0 : List Reg := [
  ⟨0x0, 16, 2, 0x0, 0x0, 0x0, 0x0, false⟩,
  ⟨0x4, 16, 2, 0x0, 0x0, 0x0, 0x0, false⟩,
  ⟨0x8, 16, 2, 0x6978, 0xFFFF, 0x0, 0x0, false⟩,
  ⟨0x20, 0, 1, 0xA410A410, 0xFFFF, 0x0, 0x0, false⟩,
  ⟨0x24, 0, 1, 0x0, 0x0, 0x0, 0x0, false⟩,
  ⟨0x30, 0, 1, 0x0, 0x0, 0x0, 0x0, false⟩,
  ⟨0x1000, 32, 70, 0xFF8, 0x7, 0x0, 0x0, false⟩,
  ⟨0x1004, 32, 70, 0x0, 0xFF00, 0x0, 0x7, false⟩,
  ⟨0x1008, 32, 70, 0x0, 0xFF000000, 0x2, 0x0, false⟩,
  ⟨0x100C, 32, 70, 0x0, 0x0, 0x0, 0x0, false⟩,
  ⟨0x1010, 32, 70, 0x0, 0xFF, 0x0, 0x0, false⟩,
  ⟨0x2000, 64, 8, 0x0, 0x8000FFFF, 0x0, 0x0, false⟩,
  ⟨0x2004, 64, 8, 0x0, 0x0, 0x0, 0x0, false⟩,
  ⟨0x2008, 64, 8, 0x0, 0x0, 0x0, 0x0, false⟩,
  ⟨0x200C, 64, 8, 0x0, 0x0, 0x0, 0x0, false⟩,
  ⟨0x2010, 64, 8, 0x0, 0xFFFFFFFF, 0x0, 0x0, false⟩,
  ⟨0x2014, 64, 8, 0x0, 0xFFFFFFFF, 0x0, 0x0, false⟩,
  ⟨0x3000, 0, 1, 0x0, 0x0, 0x0, 0x0, false⟩,
  ⟨0x3004, 0, 1, 0x0, 0x0, 0x0, 0x0, false⟩,
  ⟨0x3008, 0, 1, 0x0, 0x0, 0x0, 0xFFFFFFFF, false⟩,
  ⟨0x300C, 0, 1, 0x0, 0x0, 0x0, 0xFFFFFFFF, false⟩,
  ⟨0x3010, 0, 1, 0x0, 0xFFFF, 0x0, 0x0, false⟩,
  ⟨0x3014, 0, 1, 0x0, 0x0, 0x0, 0x0, false⟩,
  ⟨0x3100, 4, 70, 0x0, 0x0, 0x2, 0x0, false⟩,
  ⟨0x4000, 64, 8, 0x0, 0x0, 0x0, 0x7, false⟩]

/-- Ezper registers, by offset from 0x78_0000_0000 (Tables 14.9 to 14.12, 16.2, 17.7, 18.2, 18.9, 18.14, 19.4). -/
def modRegs1 : List Reg := [
  ⟨0x4004, 64, 8, 0x100, 0x0, 0x0, 0x0, false⟩,
  ⟨0x4008, 64, 8, 0x7D0, 0xFFFFFFFF, 0x0, 0x0, false⟩,
  ⟨0x400C, 64, 8, 0x0, 0x0, 0x0, 0x0, false⟩,
  ⟨0x4010, 64, 8, 0x0, 0x0, 0x80000000, 0x0, false⟩,
  ⟨0x4014, 64, 8, 0x0, 0x0, 0x0, 0x0, false⟩,
  ⟨0x4400, 0, 1, 0x0, 0x0, 0x0, 0x1, false⟩,
  ⟨0x4404, 0, 1, 0x0, 0x0, 0x0, 0x1, false⟩,
  ⟨0x4410, 0, 1, 0x0, 0x0, 0x0, 0x0, false⟩,
  ⟨0x5000, 0, 1, 0x0, 0x0, 0x0, 0x0, false⟩,
  ⟨0x5100, 4, 8, 0x0, 0x1, 0x0, 0x0, false⟩,
  ⟨0x5200, 4, 48, 0xF3, 0x0, 0x0, 0x0, false⟩,
  ⟨0x6000, 0, 1, 0x0, 0x0, 0x0, 0x0, false⟩,
  ⟨0x6004, 0, 1, 0x0, 0x3FFF, 0x0, 0x0, false⟩,
  ⟨0x6008, 0, 1, 0x0, 0xFFFFFFFF, 0x0, 0x0, false⟩,
  ⟨0x600C, 0, 1, 0x0, 0x0, 0x0, 0x0, false⟩,
  ⟨0x6100, 0, 1, 0x0, 0x0, 0x0, 0x0, false⟩,
  ⟨0x7000, 0, 1, 0x0, 0xFFFFFFFF, 0x0, 0x0, false⟩,
  ⟨0x7004, 0, 1, 0x0, 0xFFFFFFFF, 0x0, 0x0, false⟩]

/-- Ezper registers, by offset from 0x78_0000_0000 (Tables 14.9 to 14.12, 16.2, 17.7, 18.2, 18.9, 18.14, 19.4). -/
def modRegs : List Reg := modRegs0 ++ modRegs1

/-- The register at an offset of a window. -/
def regAt (l : List Reg) (o : Nat) : Option Reg := l.find? (fun r => r.covers o)

/-- What an offset of a window reads as at reset; 0 where there is no register. -/
def regReset (l : List Reg) (o : Nat) : Word :=
  match regAt l o with
  | some r => BitVec.ofNat 32 r.reset
  | none => 0

/-- A register's new value when `v` is written to it: RW bits take the value, W1C bits are cleared by ones. -/
def regWrite (r : Reg) (old v : Word) : Word :=
  let m := BitVec.ofNat 32 r.rw
  let c := BitVec.ofNat 32 r.w1c
  ((old &&& ~~~m) ||| (v &&& m)) &&& ~~~(v &&& c)

end Sys2Proof.Machine
end

