-- ==== Sys2Proof/Machine/SiteState.lean ====
section
/-!
DEFINITION. The state of one Nimbus site: memory, request queue, cache parts, pull windows, reduction window, update
engine, Pavane copies and export (spec/09_memory_sites.md, spec/10_backward_reduction.md, spec/11_update_engines.md).
-/

namespace Sys2Proof.Machine

/-- A unit request held by a site (R256): `op` as KIND of Table 8.4, `off` the offset of its first byte, `edge` the edge tile
it came through (or the port and transfer of a Halo request, haloEdge), `arr` its order of arrival; `raw` the bytes of a RoCEv2
write that covers only a part of a unit. -/
structure SiteReq where
  op : Nat
  off : Nat
  nfl : Nat
  seq : Nat
  tid : Nat
  src : Nat
  cmb : Nat
  part : Nat
  rcnt : Nat := 1
  age : Nat := 0
  atype : Nat := 0
  aop : Nat := 0
  vc : Nat := 2
  edge : Nat := 0
  data : List Word := []
  raw : List Byte := []
  arr : Nat := 0
  deriving DecidableEq, Repr

/-- A tied-weight accumulator buffer (R262): FP32 elements, the ORed NF and mask, the contributions so far. -/
structure AccBuf where
  block : Nat
  bucket : Nat
  vals : List Word
  nf : Bool
  mask : Word
  uses : Nat
  deriving DecidableEq, Repr

/-- The flits of one block that arrived over one tree (R289, R290): `stream` 0 primary, 1 mirror, 2 retry. -/
structure RedBlk where
  block : Nat
  stream : Nat
  flits : List RedFlit := []
  deriving DecidableEq, Repr

/-- A bucket in the reorder window (R289 to R295): `resent` once the resend verdict went out, `mirrorOk` once a retry was
decided, `useRetry` when the retry sums are committed, `passed` the blocks already passed on by its commit. -/
structure RedBkt where
  blocks : List RedBlk := []
  marked : Bool := false
  resent : Bool := false
  decided : Bool := false
  useRetry : Bool := false
  unresolved : Bool := false
  passed : Nat := 0
  deriving DecidableEq, Repr

/-- A block passed to the update engine (R290, R262): its values widened to FP32, in element order. -/
structure EngBlk where
  bucket : Nat
  block : Nat
  vals : List Word
  nf : Bool
  mask : Word
  deriving DecidableEq, Repr

/-- An entry of the block table (R310): the binding record and its place in the list; `res` as RES of Table 11.14; the
block once passed; whether its update has fired and awaits its writes; for TIER 1 its landing slot, and whether the block's gradient is parked
there (R312). -/
structure BtEntry where
  bind : Nat
  idx : Nat
  res : Nat
  got : Option EngBlk := none
  fired : Bool := false
  slot : Nat := 0
  parked : Bool := false
  deriving DecidableEq, Repr

/-- A block whose update fired in the step and whose group has CLIP 1: what the fold rewrites (R324). -/
structure Fired where
  bind : Nat
  idx : Nat
  bucket : Nat
  mask : Word
  deriving DecidableEq, Repr

/-- The memory of a site: `mem` the contents of HBM and the Stratus share by offset; `bad` the erroneous symbols of 64-byte
bursts; `sealed` 1 more than the key under which each unit is stored (R266), 0 for the one of `wipeKey`, of a unit of the share `strKey`: 1 more than the key of the last wipe, or 0
where none was; `cacheBad` the flipped bits of cached units; `count` the reader counts of window units by unit number; `atom` the
units held in the ATOM part, least recently used first; `lastHbm` and `lastStr` when a request of each memory was last there (R244); `reported` the units found uncorrectable, which STATUS lists (R441). -/
structure SiteMem where
  mem : Map Byte := []
  bad : Map (List Nat) := []
  sealed : Map Nat := []
  wipeKey : Nat := 0
  strKey : Nat := 0
  cacheBad : Map Nat := []
  queue : List SiteReq := []
  parked : List SiteReq := []
  arrivals : Nat := 0
  armed : List Nat := []
  count : Map Nat := []
  atom : List Nat := []
  accum : List AccBuf := []
  selfRefresh : Bool := false
  strRefresh : Bool := false
  lastHbm : DWord := 0
  lastStr : DWord := 0
  patrol : Nat := 0
  strPatrol : Nat := 0
  ueSeen : List Nat := []
  reported : List Nat := []
  deriving DecidableEq, Repr

/-- The reduction at a site (R288 to R297): `vc1` the received RED flits at 256 link + RDESC; `head` the first record not yet
committed; `sampled` the blocks checked beyond the last 256 counted. -/
structure SiteRed where
  vc1 : Map (List RedFlit) := []
  stopped : List Nat := []
  started : Bool := false
  /-- An abort ended the step before the window was done: HEAD stays where it stood until SITE_RED_STEP is written. -/
  held : Bool := false
  head : Nat := 0
  sampled : Nat := 0
  bkts : Map RedBkt := []
  deriving DecidableEq, Repr

/-- The update engine and the Pavane copies of a site (R301 to R330) beyond its registers. `queue`
lists the entries whose blocks wait to fire, in commit order. At DSITE, `partials` holds what
the sites sent (R319) and `halving` whether a taint of the step halves (R320); `stopped` when the engine has stopped (R311). -/
structure SiteUpd where
  bt : Map BtEntry := []
  queue : List Nat := []
  next : Nat := 0
  proc : Nat := 0
  slots : Nat := 0
  waitSlot : Bool := false
  updated : Bool := false
  counted : Bool := false
  clip1 : Bool := false
  fired : List Fired := []
  taints : List Nat := []
  halving : Bool := false
  finished : Bool := false
  partials : Map DWord := []
  folded : Bool := false
  stopped : Bool := false
  deriving DecidableEq, Repr

/-- An export (R331 to R333): the half read and the committed steps it reflects, the next list entry, the next byte of the export area. -/
structure SiteExp where
  busy : Bool := false
  half : Nat := 0
  step : Nat := 0
  next : Nat := 0
  out : Nat := 0
  deriving DecidableEq, Repr

/-- A site. `id` its index, which is fixed; `keys` gives the key in each slot (R267), 0 for none; `wipeFor` the owner a wipe prepares for
(R428); `out` the flits that wait for a credit of an edge link, each with the edge tile it enters the wafer by (R215); `injUnit` the unit that a memory injection corrupted, while no
record has carried INJ for it (R446); `tempSub` the stack temperature that an injection substitutes (R448); `marched` whether the march has run since the site
trained (R463). -/
structure Site where
  id : Nat := 0
  state : Nat := 0
  chState : Nat := 0
  m : SiteMem := {}
  red : SiteRed := {}
  upd : SiteUpd := {}
  exp : SiteExp := {}
  keys : Map Nat := []
  tempSub : Option Nat := none
  repair : List Nat := []
  dirty : Bool := true
  strDirty : Bool := true
  wiping : Bool := false
  wipeStr : Bool := false
  wipeFor : Nat := 15
  lastOwn : Nat := 15
  out : List (Nat × Flit) := []
  injUnit : Option Nat := none
  marched : Bool := false
  csr : Map Word := []
  deriving DecidableEq, Repr

/-- Site n as no command has changed it. -/
def blankSite (n : Nat) : Site := { id := n }

/-- The stored word of a site register. -/
def Site.csrWord (s : Site) (o : Nat) : Word := Map.get (regReset siteRegs) s.csr o

/-- The site with the stored word of a register replaced. -/
def Site.csrPut (s : Site) (o : Nat) (v : Word) : Site := { s with csr := Map.set (regReset siteRegs) s.csr o v }

/-- The site with the field [hi:lo] of a register replaced. -/
def Site.csrField (s : Site) (o hi lo v : Nat) : Site := s.csrPut o (setBits (s.csrWord o) hi lo v)

/-- A counter field raised by `k`, saturating at all ones. -/
def Site.csrCount (s : Site) (o hi lo k : Nat) : Site :=
  s.csrField o hi lo (satAdd (2 ^ (hi + 1 - lo) - 1) (bits (s.csrWord o) hi lo) k)

/-- OWNER of SITE_OWN; 15 when the site has none (R265). -/
def Site.owner (s : Site) : Nat := bits (s.csrWord 0x4) 3 0

/-- What stands around a site while a command acts on it: its index, the Cirrus count, whether its owner is quiescent
(R403), whether its Stratus share is available (R254) and how long it is. -/
structure SEnv where
  id : Nat
  now : DWord
  quiet : Bool
  strav : Bool
  share : Nat
  deriving DecidableEq, Repr

/-- A site under a command: the counter of free values, the records raised, the flits sent back, each with the edge tile it
enters the wafer by. -/
structure SS where
  s : Site
  free : Nat
  recs : List Rec := []
  ret : List (Nat × Flit) := []
  deriving DecidableEq, Repr

/-- The site changed by `f`. -/
def SS.upd (x : SS) (f : Site → Site) : SS := { x with s := f x.s }

/-- A record raised. -/
def SS.raise (x : SS) (r : Rec) : SS := { x with recs := x.recs ++ [r] }

/-- A flit sent through an edge link. -/
def SS.send (x : SS) (edge : Nat) (f : Flit) : SS := { x with ret := x.ret ++ [(edge, f)] }

/-- The locator of site s (Table 18.3). -/
def siteLoc (s : Nat) : Nat := 3 * 2 ^ 28 + s

end Sys2Proof.Machine
end

