-- ==== Sys2Proof/Machine/ModState.lean ====
section
/-!
DEFINITION. The parts of the module beside tiles and sites: fields, Halo ports, partitions, and the module itself with its
error log, boot, security and control complex (spec/01, 14 to 19).
-/

namespace Sys2Proof.Machine

/-- A field (R42, R349 to R378, R464 to R471). `applied` is the field's part of the tile map as applied at the last power-up,
`mapped` whether one has been, `accepted` what the check of R24 accepted for the power-up in progress; `drainTo` the POWER a drain ends in; `respare` the tiles judged bad that wait for
the map of R41 (index in the field, cause), `retire` whether the field is to be retired, `sensorBad` the sensors invalid at the last reading,
`marked` those a sensor check marked invalid, `coolSince` since when every sensor reads 70 °C or less;
`squalls` and `fuses` the times of Squalls and fuse openings, `barred` whether a third Squall within 24 h leaves the field off, `squalled` whether it has not been ready since its last Squall (R361);
`kept` whether it was a reserve field when its stage went off, so that it returns to the reserve (R361); `tried` whether its power-up was begun in
stage 5, `sensed` and `tested` whether its sensor check and its logic test have ended since its power-up (R463);
`fresh` the pacing credit of the field's tiles that have spent none, 0 while the field is not paced (R371); `phases` the phase errors of
the last millisecond with their times (Table 14.12); `csr` the registers of the field window. -/
structure Field where
  power : Nat := 0
  bypass : Nat := 35
  applied : Map Word := []
  accepted : Map Word := []
  mapped : Bool := false
  mapErr : Bool := false
  routed : Bool := false
  reserve : Bool := false
  kept : Bool := false
  tried : Bool := false
  sensed : Bool := false
  tested : Bool := false
  unreach : Bool := false
  nodes : Bool := false
  lock : Bool := false
  drainTo : Nat := 0
  hot : Bool := false
  cool : Bool := false
  sensorBad : List Nat := []
  marked : List Nat := []
  coolSince : Option DWord := none
  squalls : List DWord := []
  fuses : List DWord := []
  retested : Bool := false
  losses : List DWord := []
  respare : List (Nat × Nat) := []
  retire : Bool := false
  barred : Bool := false
  squalled : Bool := false
  fresh : Nat := 0
  phases : List (DWord × Nat) := []
  csr : Map Word := []
  deriving DecidableEq, Repr

/-- A transfer on a Halo port (R389 to R396), named by its TAG and by whether the module started it (`mod`). `read` whether the
requester reads; units `unit` to `unit + n - 1` of window `win`, from offset `base` of site `site`. `next` is the next unit
asked of the site, `got` the units written or the flits sent, `buf` the words read and not yet sent. For RoCEv2: the queue
pair, the bytes before the first one moved and how many are moved, the bytes of a write, and the immediate. -/
structure HXfer where
  tag : Nat
  mod : Bool
  read : Bool
  win : Nat
  unit : Nat
  n : Nat
  site : Nat
  base : Nat
  next : Nat := 0
  got : List Nat := []
  buf : List (Nat × List Word) := []
  qp : Nat := 0
  skip : Nat := 0
  len : Nat := 0
  data : List Byte := []
  imm : Option Word := none
  deriving DecidableEq, Repr

/-- A flit that the module sends (Table 15.1): type, TAG, OFF, and the bytes of its payload up to the last that is not 0. -/
structure HSent where
  seq : Nat
  typ : Nat
  tag : Nat
  off : Nat
  data : List Byte
  deriving DecidableEq, Repr

/-- A Halo port (R379 to R397). `rxSeq` is the SEQ expected next, `discard` whether flits are discarded until a replay, `rxBuf`
the flits accepted and not yet handled with their types, `owed` the receive-buffer flits to return to the peer; `sent` the
replay buffer, `txq` the flits waiting to be sent, `credits` the credits held, `fails` how often in a row the oldest
flit was replayed. `bad` lists the lanes marked bad since the last training and `change` the changes of the peer that wait for their SEQ (kind, lane, SEQ), `turn` the module's own; `uncorr` the
uncorrectable codewords of the last millisecond by lane and time (R387); `lame` whether the link of a port that is being disabled was down; `held` the
RoCEv2 completions (queue pair, status, data) that wait for the link or for a pause to end, `posted` the receive areas of each queue pair that the job
service has posted (window, first unit, units; R396), `addrs` the IP addresses that Redfish gave the port (Table 15.5); `rate` counts
the lowerings of the module's sending rate, `paused` the priorities paused, `dropped` the frames dropped, `inReset` whether its SerDes stays in
reset for want of verified firmware (R421). -/
structure Port where
  state : Nat := 0
  rxSeq : Nat := 0
  discard : Bool := false
  rxBuf : List (Nat × HFlit) := []
  owed : Nat := 0
  txSeq : Nat := 0
  sent : List HSent := []
  txq : List HSent := []
  credits : Nat := 0
  fails : Nat := 0
  xfers : List HXfer := []
  bad : List Nat := []
  trainFails : Nat := 0
  change : List (Nat × Nat × Nat) := []
  turn : List (Nat × Nat × Nat) := []
  uncorr : List (Nat × DWord × Nat) := []
  lame : Bool := false
  held : List (Nat × Nat × List Byte) := []
  posted : Map (List (Nat × Nat × Nat)) := []
  addrs : List Nat := []
  rate : Nat := 0
  paused : List Nat := []
  dropped : Nat := 0
  symbols : Map Nat := []
  inReset : Bool := false
  csr : Map Word := []
  deriving DecidableEq, Repr

/-- A run in progress (R407): the request, the steps committed, whether it stops after the running step, whether an invocation of
it has started, and whether the learn phase of a pair has committed since it was swapped in. -/
structure RunCtl where
  req : RunReq
  committed : Nat := 0
  halt : Bool := false
  begun : Bool := false
  learned : Bool := false
  deriving DecidableEq, Repr

/-- A host key slot (R424). -/
structure HostKey where
  slot : Nat
  key : Nat
  rights : Nat
  deriving DecidableEq, Repr

/-- What the configuration in flash holds of a partition (R418, R424, R467): what it was given, the host keys, the certificate of
its host sessions, and the administrator's limit on CAP. -/
structure PartConf where
  known : Bool := false
  fields : List Nat := []
  sites : List Nat := []
  chans : List Nat := []
  ports : List Nat := []
  keys : List HostKey := []
  cert : Nat := 0
  maxCap : Nat := 0xFFFF
  deriving DecidableEq, Repr

/-- A partition (R402 to R418, R424 to R433). `state` is STATE of PART_STATUS, `after` the STATE an abort in progress leaves and
`reset` whether it unloads the job; `job` and `bins` the manifest loaded and its binaries, `fmap` the field map in force; `run` the
RUN asked for, `inv` the invocations started, `phase` the binary that the tiles hold; `wdog` whether an invocation is in progress, which the
watchdog counts from its first issue. `rollouts` counts rollouts since the last learn step, `defers` the deferrals of an export that is due, `srateUp`
by how much the SRATE in force exceeds the manifest's and `glvlSeen` whether GLVL left 0 in the last step. `key` is the memory key,
0 for none, `kgen` the keys drawn; `debug` the policy applied, `quiet` the quiet window; `ledger` the window energies, `under` the
consecutive windows at or below 90 % of CAP; `fails` the consecutive attempts at a step that ended with ACAUSE 0x04; `waiting`
whether it waits for a field, `hold` whether injection is held for an epoch swap (R229), `guar` the guarantee last reported in kB/s (R233),
`advised` when the last stall advisory was sent and `stalled` the tiles it found held with the time of their last issue (R411), `release` whether the
job is unloaded once quiescent; `atags` are the TAGs of the ABORT messages to answer, `loadTag` that of the SUBMIT whose manifest loads and `expTag` that
of the EXPORT last asked for (R406). -/
structure Part where
  state : Nat := 0
  acause : Nat := 0
  after : Nat := 2
  reset : Bool := false
  job : Option Manifest := none
  bins : List Binary := []
  fmap : List Nat := []
  run : Option RunCtl := none
  inv : Nat := 0
  step : Bool := false
  wdog : Bool := false
  phase : Nat := 0
  rollouts : Nat := 0
  exportDue : Bool := false
  defers : Nat := 0
  srateUp : Nat := 0
  glvlSeen : Bool := false
  key : Nat := 0
  kgen : Nat := 0
  debug : Bool := false
  quiet : Bool := false
  ledger : List Nat := []
  under : Nat := 0
  fails : Nat := 0
  waiting : Bool := false
  hold : Bool := false
  guar : Nat := 0
  advised : Option DWord := none
  stalled : List (Nat × DWord) := []
  release : Bool := false
  atags : List Nat := []
  loadTag : Nat := 0
  expTag : Nat := 0
  deriving DecidableEq, Repr

/-- An error-log record (Table 18.3). -/
structure LogRec where
  time : DWord
  seqno : Nat
  source : Nat
  cls : Nat
  part : Nat
  flags : Nat
  loc : Nat
  offset : Nat
  code : Nat
  addr : Nat
  phys : Nat
  detail : List Word
  deriving DecidableEq, Repr

/-- The error log (R442 to R445): the ring by index, whether the next record carries LOST, the times of the last records of
CLASS 2 to 4 by source and locator, and the copy in flash. -/
structure Log where
  ring : Map LogRec := []
  lost : Bool := false
  last : List (Nat × Nat × DWord) := []
  flash : List LogRec := []
  deriving DecidableEq, Repr

/-- A tile on the suspect list (R455): its physical index and the SOURCE and time of each record. -/
structure Suspect where
  phys : Nat
  hits : List (Nat × DWord)
  deriving DecidableEq, Repr

/-- An SPDM connection (R431, R432): how far it has negotiated (1 version, 2 capabilities, 3 algorithms), and its transcript since GET_VERSION. -/
structure Conn where
  level : Nat := 0
  log : List Nat := []
  deriving DecidableEq, Repr

/-- The root of trust and the module's images (R419 to R435). `images` holds the flash copies at 2 class + copy, `active` the
copy that runs per class, `boot` the copy that a start tries first (R423), `running` the digest and SVN that run, 0 for none; `aliasKey` the key of its
attestation certificate, `meas` the digests that the certificate carries and `secWords` the words of measurement 9 as of its last event (R432);
`failClass` the class whose failure led to recovery; `conns` the SPDM connections; `unlock` a valid unlock token: 1 waits for a wipe or an abort, 2 for
its own module abort (R434). -/
structure Sec where
  images : List (Nat × Image) := []
  active : Map Nat := []
  boot : Map Nat := []
  running : Map (Nat × Nat) := []
  aliasKey : Nat := 0
  certIssued : Bool := false
  meas : List Nat := []
  secWords : List Nat := []
  rngFail : Bool := false
  recovery : Bool := false
  failClass : Nat := 0
  modDbg : Bool := false
  nonce : Option (Nat × DWord) := none
  conns : Map Conn := []
  unlock : Nat := 0
  drawn : Nat := 0
  deriving DecidableEq, Repr

/-- The step record (Table 11.10). -/
structure StepRec where
  step : Nat
  outcome : Nat
  epoch : Nat
  escale : Nat
  cause : Nat
  nsq : DWord
  clip : Word
  clag : Word
  clean : Nat
  time : DWord
  deriving DecidableEq, Repr

/-- What leaves the module: answers to accesses, host messages (Table 16.5), Halo flits and frames, attestation responses and
Redfish results. -/
inductive Msg where
  | refused (addr ecode : Nat)
  | readData (addr : Nat) (w : Word)
  | windowDone (addr : Nat)
  | hostRefused (tag part reason check cls idx : Nat)
  | hostLoaded (tag part : Nat) (digests : List Nat) (fmap : List Nat) (g : Nat)
  | hostAccepted (tag part inv : Nat)
  | hostOutcome (part : Nat) (r : StepRec)
  | hostEvent (part tile code : Nat) (value : DWord)
  | hostAdvisory (part kind : Nat) (data : List Nat)
  | hostAborted (tag part acause state : Nat) (r : StepRec)
  | hostExported (tag part site base count : Nat)
  | hostStatus (tag part : Nat) (status pav : Word) (ledger ring units : List Nat) (heldBack : Bool)
  | invocationRefused (part reason : Nat)
  | redfish (ok : Bool) (what : Nat)
  | redfishTask (kind : ResKind) (unit owner : Nat)
  | redfishPart (part : Nat) (status : Word) (fields sites chans ports keys caps ledger : List Nat)
  | halo (port ack : Nat) (nak : Bool) (cred : Nat) (f : HSent) (crc : Nat)
  | rdma (port : Nat) (f : HSent)
  | roce (port qp status : Nat) (data : List Byte)
  | frame (port kind addr : Nat) (data : List Byte)
  | sessionOpen (id part : Nat)
  | sessionRefused
  | spdm (conn code : Nat) (data : List Nat)
  | spdmSigned (conn key nonce : Nat) (data transcript : List Nat)
  | notice (code data : Nat)
  deriving DecidableEq, Repr

/-- A mailbox entry (R400): a SYS.EVENT of a tile, or a notice with the message it becomes. -/
structure Mail where
  tile : Nat := 0
  code : Nat := 0
  value : DWord := 0
  msg : Option Msg := none
  deriving DecidableEq, Repr

/-- A host session (R406): the partition it is bound to, and the Halo port it came by, if any. -/
structure Session where
  id : Nat
  part : Nat
  port : Option Nat
  deriving DecidableEq, Repr

/-- The control complex (R398 to R401): whether the job service runs, the mailbox rings (8 is the module ring), the sessions,
the reserve setting (R39), the tile-map journal and whether the change it records is still to be completed (R28), whether an epoch swap
waits for the flits of the old epoch (R229), the changes of owner in progress (kind, unit, new owner; R418), the suspect list (R455), routers named as suspected adders with the times,
and the configuration of the partitions (R467). -/
structure CC where
  up : Bool := false
  mail : Map (List Mail) := []
  sessions : List Session := []
  nextSession : Nat := 1
  reserveCount : Nat := 2
  reserveNamed : List Nat := []
  journal : List MapWord := []
  journalField : Option Nat := none
  journalOpen : Bool := false
  swap : Bool := false
  changes : List (ResKind × Nat × Nat) := []
  suspects : List Suspect := []
  adders : List (Nat × DWord) := []
  conf : Map PartConf := []
  deriving DecidableEq, Repr

/-- Power and cooling beyond the registers (R349 to R372): consecutive samples of each feed below 42.0 V and at 46.0 V or more,
the feeds that
hold VFEED at V0 and those absent, coolant samples in a lower condition and the highest of them, windows each
governor (0 and 1 the feeds, 2 the module) has stood at or below 90 %, and how far each has stepped; `windows` the module's energies in
its last 20 windows (R372); `group` the fields started in the present group of each feed at power-on (R465). -/
structure Pow where
  low : Map Nat := []
  good : Map Nat := []
  uv : List Nat := []
  absent : List Nat := []
  coolHeld : Nat := 0
  coolMax : Nat := 0
  flowLow : Nat := 0
  under : Map Nat := []
  gov : Map Nat := []
  windows : List Nat := []
  group : Map Nat := []
  deriving DecidableEq, Repr

/-- The module. `stage` and `failStep` as in MOD_BOOT; `csr` the Ezper registers; `preg` the persistent words and `wear` the
writes since factory test, by offset from 0x78_0100_0000; `b0`, `share` (SHARE of Table 9.9) and `serial` what the factory
fixed and `revoke0` the fuse REVOKE0 (log entry 2); `ring` the broken ring links (link l joins site l and l + 1); `holdUp` when the power-fail notice was raised, while
the common bus is held up (R351); `timeHigh` the high word of CIR_TIME as its low word was last read (Table 14.12); `dram` the words of the control complex's
DRAM written since 52 V came back for the `dramGen`-th time, by offset div 4 (R398): an unlisted word is one that nothing states. -/
structure Module where
  stage : Nat := 0
  failStep : Nat := 0
  powered : Bool := false
  resetting : Bool := false
  b0 : Bool := false
  share : Nat := 1
  serial : Nat := 0
  revoke0 : Bool := false
  abortBusy : Bool := false
  ready : Bool := false
  firstLock : Bool := false
  csr : Map Word := []
  preg : Map Word := []
  wear : Map Nat := []
  ring : List Nat := []
  holdUp : Option DWord := none
  timeHigh : Word := 0
  dram : Map Word := []
  dramGen : Nat := 0
  log : Log := {}
  sec : Sec := {}
  cc : CC := {}
  pow : Pow := {}
  deriving DecidableEq, Repr

end Sys2Proof.Machine
end

