-- ==== Sys2Proof/Machine/State.lean ====
section
/-!
DEFINITION. The state of the Trosol Y1 and its reset state, the reasons a command can stop, and access to the parts.
Everything is plain data: what is sparse is in its reset state when unlisted.
-/

namespace Sys2Proof.Machine

/-- The commands of a sender that the block cannot carry out at all. -/
inductive Fault where
  /-- The command names a tile, field, site, port, partition or window that the module does not have, or a number beyond its
  operand's range (raised by every meaning whose operands are not well formed; safe: nothing of the hardware is named). -/
  | malformed
  deriving DecidableEq, Repr

/-- Commands without a meaning. -/
inductive Refusal where
  /-- The dispatch has no meaning for the command yet (raised by Dispatch.lean alone; safe). -/
  | notModelled (mnemonic : String)
  deriving DecidableEq, Repr

/-- The state: the commands waiting, the counter of free values (the model's own, log entry 4), the Cirrus count and whether it
counts, the parts, and what has left the module. Tiles are keyed by tile id, the other parts by their index. -/
structure State where
  pending : List Instr
  free : Nat
  now : DWord
  counting : Bool
  tiles : Map Tile
  fields : Map Field
  sites : Map Site
  ports : Map Port
  parts : Map Part
  mod : Module
  outbox : List Msg
  deriving DecidableEq, Repr

/-- The module as 52 V is applied: no part has left its reset state (spec/19, Table 19.1 stage 0; log entries 2 and 3). -/
def State.reset : State :=
  { pending := [], free := 0, now := 0, counting := false, tiles := [], fields := [], sites := [], ports := [], parts := [],
    mod := {}, outbox := [] }

/-- A tile, field, site, port or partition. -/
def State.tile (s : State) (i : Nat) : Tile := Map.get (fun _ => {}) s.tiles i
@[inherit_doc State.tile] def State.field (s : State) (i : Nat) : Field := Map.get (fun _ => {}) s.fields i
@[inherit_doc State.tile] def State.site (s : State) (i : Nat) : Site := Map.get blankSite s.sites i
@[inherit_doc State.tile] def State.port (s : State) (i : Nat) : Port := Map.get (fun _ => {}) s.ports i
@[inherit_doc State.tile] def State.part (s : State) (i : Nat) : Part := Map.get (fun _ => {}) s.parts i

/-- The state with one part replaced. -/
def State.setTile (s : State) (i : Nat) (x : Tile) : State := { s with tiles := Map.set (fun _ => {}) s.tiles i x }
@[inherit_doc State.setTile] def State.setField (s : State) (i : Nat) (x : Field) : State :=
  { s with fields := Map.set (fun _ => {}) s.fields i x }
@[inherit_doc State.setTile] def State.setSite (s : State) (i : Nat) (x : Site) : State :=
  { s with sites := Map.set blankSite s.sites i x }
@[inherit_doc State.setTile] def State.setPort (s : State) (i : Nat) (x : Port) : State :=
  { s with ports := Map.set (fun _ => {}) s.ports i x }
@[inherit_doc State.setTile] def State.setPart (s : State) (i : Nat) (x : Part) : State :=
  { s with parts := Map.set (fun _ => {}) s.parts i x }

/-- The state with the module changed, or a message sent. -/
def State.updMod (s : State) (f : Module → Module) : State := { s with mod := f s.mod }
@[inherit_doc State.updMod] def State.say (s : State) (m : Msg) : State := { s with outbox := s.outbox ++ [m] }

end Sys2Proof.Machine
end

