-- ==== Sys2Proof/Machine/Operands.lean ====
section
/-!
DEFINITION. What the operands of a command name: the logical grid and its edge links (R11, R15, R16, R18), the address map
(Table 16.1), and the persistent words as the factory left them (R22, R23, Table 1.5).
-/

namespace Sys2Proof.Machine

/-- Tiles, fields, sites, ports and partitions of the module. -/
def nTiles : Nat := 117600
@[inherit_doc nTiles] def nFields : Nat := 70
@[inherit_doc nTiles] def nSites : Nat := 48
@[inherit_doc nTiles] def nPorts : Nat := 12
@[inherit_doc nTiles] def nParts : Nat := 8

/-- Column and row of a tile id. -/
def tileX (t : Nat) : Nat := t % 350
@[inherit_doc tileX] def tileY (t : Nat) : Nat := t / 350

/-- The tile id at (X, Y). -/
def tileAt (x y : Nat) : Nat := 350 * y + x

/-- The field of a tile (R15). -/
def fieldOf (t : Nat) : Nat := tileY t / 48 * 10 + tileX t / 35

/-- Field column and row. -/
def fieldX (f : Nat) : Nat := f % 10
@[inherit_doc fieldX] def fieldY (f : Nat) : Nat := f / 10

/-- The tile at (tx, ty) of field f. -/
def fieldTile (f tx ty : Nat) : Nat := tileAt (fieldX f * 35 + tx) (fieldY f * 48 + ty)

/-- The tiles of a field. -/
def fieldTiles (f : Nat) : List Nat := (List.range 1680).map fun i => fieldTile f (i % 35) (i / 35)

/-- The physical index of a tile whose field has bypassed column b (R18). -/
def physOf (b t : Nat) : Nat :=
  let tx := tileX t % 35
  fieldOf t * 1728 + tileY t % 48 * 36 + (if tx < b then tx else tx + 1)

/-- The logical tile at a physical index of a field with bypassed column b, none in the bypassed column (R18). -/
def logicalOf (b i : Nat) : Option Nat :=
  let f := i / 1728
  let r := i % 1728
  let c := r % 36
  if c = b then none else some (fieldTile f (if c < b then c else c - 1) (r / 36))

/-- The neighbour through a port (Table 8.1): 1 north, 2 east, 3 south, 4 west; none at the edge of the grid. -/
def neighbour (t port : Nat) : Option Nat :=
  let x := tileX t
  let y := tileY t
  match port with
  | 1 => if y = 0 then none else some (tileAt x (y - 1))
  | 2 => if x = 349 then none else some (tileAt (x + 1) y)
  | 3 => if y = 335 then none else some (tileAt x (y + 1))
  | 4 => if x = 0 then none else some (tileAt (x - 1) y)
  | _ => none

/-- The port of the neighbour that faces a port. -/
def facing (port : Nat) : Nat :=
  match port with
  | 1 => 3
  | 2 => 4
  | 3 => 1
  | 4 => 2
  | _ => 0

/-- The site and edge link that an outward port of a tile on the rim leads to (R16). -/
def edgeLink (t port : Nat) : Option (Nat × Nat) :=
  let x := tileX t
  let y := tileY t
  match port with
  | 1 => if y = 0 then some (x % 12, x / 12) else none
  | 2 => if x = 349 then some (12 + y % 12, y / 12) else none
  | 3 => if y = 335 then some (24 + (349 - x) % 12, (349 - x) / 12) else none
  | 4 => if x = 0 then some (36 + (335 - y) % 12, (335 - y) / 12) else none
  | _ => none

/-- The edge tile and outward port of link j of a site (R16). -/
def linkTile (site j : Nat) : Nat × Nat :=
  let k := 12 * j + site % 12
  match site / 12 with
  | 0 => (tileAt k 0, 1)
  | 1 => (tileAt 349 k, 2)
  | 2 => (tileAt (349 - k) 335, 3)
  | _ => (tileAt 0 (335 - k), 4)

/-- Links of a site (Table 1.2). -/
def linkCount (site : Nat) : Nat :=
  if site / 12 % 2 = 0 then (if site % 12 < 2 then 30 else 29) else 28

/-- What an address of the two apertures names (Table 16.1): the block, its index, the offset within its window. -/
inductive Target where
  | site (n off : Nat)
  | port (q off : Nat)
  | ezper (off : Nat)
  | preg (off : Nat)
  | wear (off : Nat)
  | tile (t off : Nat)
  | field (f off : Nat)
  | dram (a : Nat)
  | mail (a : Nat)
  | none
  deriving DecidableEq, Repr

/-- The target of an address of the wafer aperture (R399, Table 16.1): the 70 field windows and nothing else. -/
def waferTarget (a : Nat) : Target :=
  if decide (0x4000000000 ≤ a) && decide (a < 0x4000000000 + 70 * 0x100000000) then
    let f := (a - 0x4000000000) / 0x100000000
    let o := (a - 0x4000000000) % 0x100000000
    if o < 1680 * 0x100000 then .tile (fieldTile f (o / 0x100000 % 35) (o / 0x100000 / 35)) (o % 0x100000)
    else if 0xC0000000 ≤ o then .field f (o - 0xC0000000)
    else .none
  else .none

/-- The target of an address of the module aperture (R399, Table 16.1). -/
def moduleTarget (a : Nat) : Target :=
  if a < 0x4000000000 then .dram a
  else if 0x6000000000 ≤ a && a < 0x6000000000 + 48 * 0x10000000 then
    .site ((a - 0x6000000000) / 0x10000000) ((a - 0x6000000000) % 0x10000000)
  else if 0x7000000000 ≤ a && a < 0x7000000000 + 12 * 0x1000000 then
    .port ((a - 0x7000000000) / 0x1000000) ((a - 0x7000000000) % 0x1000000)
  else if 0x7801000000 ≤ a && a < 0x7802000000 then .preg (a - 0x7801000000)
  else if 0x7802000000 ≤ a && a < 0x7803000000 then .wear (a - 0x7802000000)
  else if 0x7800000000 ≤ a && a < 0x7810000000 then .ezper (a - 0x7800000000)
  else if 0x7C00000000 ≤ a && a < 0x7C01000000 then .mail (a - 0x7C00000000)
  else .none

/-- The target of an address: the two apertures are separate, and an address of one never reaches the other (R399). -/
def targetOf (wafer : Bool) (a : Nat) : Target := if wafer then waferTarget a else moduleTarget a

/-- The window address of a tile register, a field register, a site register, a port register, an Ezper register. -/
def tileAddr (t off : Nat) : Nat :=
  0x4000000000 + fieldOf t * 0x100000000 + (tileY t % 48 * 35 + tileX t % 35) * 0x100000 + off
@[inherit_doc tileAddr] def fieldAddr (f off : Nat) : Nat := 0x40C0000000 + f * 0x100000000 + off
@[inherit_doc tileAddr] def siteAddr (n off : Nat) : Nat := 0x6000000000 + n * 0x10000000 + off
@[inherit_doc tileAddr] def portAddr (q off : Nat) : Nat := 0x7000000000 + q * 0x1000000 + off
@[inherit_doc tileAddr] def ezAddr (off : Nat) : Nat := 0x7800000000 + off

/-- A tile-map entry as the factory left it on a TY1-70 with no bad tile (R17, R22, log entry 2). -/
def factoryEntry (i : Nat) : Word :=
  let f := i / 1728
  let r := i % 1728
  let c := r % 36
  if c = 35 then BitVec.ofNat 32 (2 ^ 29 + f * 2 ^ 16 + 0x3F * 2 ^ 10 + 0x3F * 2 ^ 4)
  else BitVec.ofNat 32 (f * 2 ^ 16 + c * 2 ^ 10 + r / 36 * 2 ^ 4)

/-- The CRC of R23 over a field's entries. -/
def entriesCrc (l : List Word) : Word := BitVec.ofNat 32 (crc32 (l.flatMap fun w => leBytes w.toNat 4))

/-- A persistent word as the factory left it; 0 where the store has no word (R461). -/
def factoryWord (o : Nat) : Word :=
  if o < 4 * 120960 then factoryEntry (o / 4)
  else if 0x80000 ≤ o && o < 0x80000 + 8 * 70 then
    if o % 8 = 0 then BitVec.ofNat 32 35
    else entriesCrc ((List.range 1728).map fun i => factoryEntry ((o - 0x80000) / 8 * 1728 + i))
  else if o = 0x80400 || o = 0x80410 then 0x46
  else 0

/-- The persistent store has a word at this offset (R461). -/
def pregExists (o : Nat) : Bool :=
  o % 4 = 0 && (decide (o < 4 * 120960) || (decide (0x80000 ≤ o) && decide (o < 0x80000 + 8 * 70)) ||
    (decide (0x80400 ≤ o) && decide (o ≤ 0x80410)) || (decide (0x90000 ≤ o) && decide (o < 0x90018)) ||
    (decide (0x90100 ≤ o) && decide (o < 0x90140)))

/-- The bits of a persistent word that a write stores: the reserved bits of Tables 1.3 and 1.5 are read only and read as zero. -/
def pregMask (o : Nat) : Word := if o < 4 * 120960 then 0xFFFFFFF0 else if o = 0x80410 then 0xFF else 0xFFFFFFFF

/-- A persistent word. -/
def State.preg (s : State) (o : Nat) : Word := Map.get factoryWord s.mod.preg o

/-- Writes to a word since manufacture (R462): factory test wrote every word but PREG_MSEQ once (log entry 2). -/
def State.wear (s : State) (o : Nat) : Nat :=
  if !pregExists o then 0
  else min (2 ^ 32 - 1) (Map.get (fun _ => 0) s.mod.wear o + (if o < 0x90100 then 1 else 0))

/-- An Ezper register's stored word, and the state with it, or a field of it, replaced. -/
def State.ez (s : State) (o : Nat) : Word := Map.get (regReset modRegs) s.mod.csr o
@[inherit_doc State.ez] def State.ezPut (s : State) (o : Nat) (v : Word) : State :=
  s.updMod fun m => { m with csr := Map.set (regReset modRegs) m.csr o v }
@[inherit_doc State.ez] def State.ezField (s : State) (o hi lo v : Nat) : State := s.ezPut o (setBits (s.ez o) hi lo v)

/-- A field window register's stored word, and the field with it replaced. -/
def Field.csrWord (f : Field) (o : Nat) : Word := Map.get (regReset fieldRegs) f.csr o
@[inherit_doc Field.csrWord] def Field.csrPut (f : Field) (o : Nat) (v : Word) : Field :=
  { f with csr := Map.set (regReset fieldRegs) f.csr o v }
@[inherit_doc Field.csrWord] def Field.csrField (f : Field) (o hi lo v : Nat) : Field :=
  f.csrPut o (setBits (f.csrWord o) hi lo v)

/-- A port register's stored word, and the port with it replaced. -/
def Port.csrWord (q : Port) (o : Nat) : Word := Map.get (regReset portRegs) q.csr o
@[inherit_doc Port.csrWord] def Port.csrPut (q : Port) (o : Nat) (v : Word) : Port :=
  { q with csr := Map.set (regReset portRegs) q.csr o v }
@[inherit_doc Port.csrWord] def Port.csrField (q : Port) (o hi lo v : Nat) : Port :=
  q.csrPut o (setBits (q.csrWord o) hi lo v)
@[inherit_doc Port.csrWord] def Port.csrCount (q : Port) (o hi lo k : Nat) : Port :=
  q.csrField o hi lo (satAdd (2 ^ (hi + 1 - lo) - 1) (bits (q.csrWord o) hi lo) k)

/-- The owner of a field, a port, a Stratus channel; 15 for none (R402). -/
def State.fieldOwner (s : State) (f : Nat) : Nat := bits ((s.field f).csrWord 0x4) 3 0
@[inherit_doc State.fieldOwner] def State.portOwner (s : State) (q : Nat) : Nat := bits ((s.port q).csrWord 0x0) 23 20
@[inherit_doc State.fieldOwner] def State.chanOwner (s : State) (c : Nat) : Nat := bits ((s.site (2 * c)).csrWord 0x14) 3 0

/-- The owner of the field of a tile: PART of what its router injects (R224). -/
def State.tilePart (s : State) (t : Nat) : Nat := s.fieldOwner (fieldOf t)

/-- What a partition owns. -/
def State.fieldsOf (s : State) (p : Nat) : List Nat := (List.range nFields).filter fun f => s.fieldOwner f = p
@[inherit_doc State.fieldsOf] def State.sitesOf (s : State) (p : Nat) : List Nat :=
  (List.range nSites).filter fun n => (s.site n).owner = p
@[inherit_doc State.fieldsOf] def State.portsOf (s : State) (p : Nat) : List Nat :=
  (List.range nPorts).filter fun q => s.portOwner q = p

/-- The tiles of a partition that are not in their reset state. -/
def State.busyTiles (s : State) (p : Nat) : List (Nat × Tile) := s.tiles.filter fun x => s.tilePart x.1 = p

/-- DSITE of a partition, as its first site holds it (Table 11.12). -/
def State.dsite (s : State) (p : Nat) : Nat :=
  match s.sitesOf p with
  | [] => 48
  | n :: _ => bits ((s.site n).csrWord 0x600) 29 24

end Sys2Proof.Machine
end

