-- ==== Sys2Proof/Config.lean ====
section
/-!
DEFINITION. What the manual leaves open: the free values (constants with no body, so nothing in Lean can see what
they are) and the functions whose results it bounds but does not state. A statement that names one of them holds
whatever it is. Log entries 4 to 9.
-/

namespace Sys2Proof

/-- The `k`-th free value of a run (log entry 4): State.free counts the uses. -/
opaque Config.freeValue : Nat → DWord

/-- How many nanoseconds pass when the block idles for the `k`-th time (log entry 5). -/
opaque Config.elapsed : Nat → Nat

/-- The elementary functions of Table 4.1 on FP32 operands: which result within the stated error each gives is not stated
(R105, log entry 6). Each is used only within its error (Machine/Elementary.lean). -/
opaque Config.rcp : Word → Word
@[inherit_doc Config.rcp] opaque Config.rsqrt : Word → Word
@[inherit_doc Config.rcp] opaque Config.exp2 : Word → Word
@[inherit_doc Config.rcp] opaque Config.log2 : Word → Word
@[inherit_doc Config.rcp] opaque Config.exp : Word → Word
@[inherit_doc Config.rcp] opaque Config.log : Word → Word
@[inherit_doc Config.rcp] opaque Config.tanh : Word → Word
@[inherit_doc Config.rcp] opaque Config.sigm : Word → Word
@[inherit_doc Config.rcp] opaque Config.erf : Word → Word

/-- The FP64 cosine of πk / D in R304: one fixed procedure, used only within its 1 ulp (log entry 7). -/
opaque Config.cosPi : Nat → Nat → DWord

/-- The `k`-th draw of the root of trust's random bit generator (R420, log entry 8): 512 bits. -/
opaque Config.drbg : Nat → BitVec 512

/-- SHAKE256 with a 64-byte output (R404, log entry 9): only the equality of two digests is used. -/
opaque Config.shake256 : List Byte → Nat

/-- The field route tables that the job service finds where there are holes (R228, log entry 45): the direction that its
`k`-th set gives a class, from a field, toward a field, for the live fields and the owners of the fields. -/
opaque Config.route : Nat → List Nat → List Nat → Nat → Nat → Nat → Nat

/-- The fields that the job service gives up where it finds no table set for a set of live fields (R228, log entry 45). -/
opaque Config.routeLost : List Nat → List Nat

/-- The guarantee in kB/s that the job service computes for a partition with detours from the loaded tables (R233, log entry 57). -/
opaque Config.detourRate : Nat → List Nat → List (List (List Nat)) → Nat

/-- The reduction descriptors that the job service finds for a binary field moved from one wafer field to another (R338, log entry 46):
the `k`-th images of tiles (second argument 0) or of sites (1), as (unit, offset, value), from the images before. -/
opaque Config.rebuild : Nat → Nat → Nat → Nat → List (Nat × Nat × Nat) → List (Nat × Nat × Nat)

/-- How many of them the job service looks at for a reserve field, beside the first (R338, log entry 46). -/
opaque Config.rebuildTries : Nat

/-- The priority that a port's RoCEv2 traffic is sent with (Table 15.5, log entry 150). -/
opaque Config.rocePriority : Nat → Nat

/-- The IPv4 and IPv6 addresses that the administrator set for a port through Redfish (Table 15.5, log entry 160). -/
opaque Config.portAddrs : Nat → List Nat

/-- The offset of a step's input from INPUT, for the steps committed before it and the sequence table (START, LEN): the manual does not state
how the table gives it (R407, log entry 152). -/
opaque Config.stepOffset : Nat → List (Nat × Nat) → Nat

/-- What a word of the control complex's DRAM holds before it is written, after the n-th loss of 52 V (R398, log entry 153). -/
opaque Config.dramFill : Nat → Nat → Word

/-- What the layout of a RUN's payload and of the RESOURCES bitmaps gives, which the manual does not state (Tables 16.4, 16.5, log entry 154): field k
of a payload, and the units of kind k that a section names. -/
opaque Config.runField : Nat → List Byte → Nat
@[inherit_doc Config.runField] opaque Config.resourceUnits : Nat → List Byte → List Nat

/-- A Falcon-1024 signature over a message verifies under the key of a KEYID (R425, log entry 20). -/
opaque Config.falcon : Nat → List Byte → List Byte → Bool

/-- The public keys of the certificate chain (R419, R431): 0 Huadewyn's root, 1 the product authority, 2 + serial number a module's device identity. -/
opaque Config.certKey : Nat → Nat

/-- The words of the factory tile map in a class 6 image with a digest other than the factory's, by offset (R28, R421; log entry 157). -/
opaque Config.mapImage : Nat → Nat → Word

/-- SOURCE of the two records for which the manual gives none: 0 the notice of a schedule tuned for another stepping (Table 6.15), 1 the hard fault of
an update engine that stops (R311); log entry 158. -/
opaque Config.recordSource : Nat → Nat

/-- CODE of a record of a source for which Table 18.3 states none (log entry 52): a function of the source and of what is detected. -/
opaque Config.recordCode : Nat → Nat → Nat

end Sys2Proof
end

