-- ==== Sys2Proof/Machine/Real.lean ====
section
/-!
DEFINITION. The exact values that the elementary functions and the cosine of R304 are held to (R105, R304): each function
in fixed point with 320 fractional bits, far below any unit in the last place, and the choice of a result within the
stated error (log entries 6 and 7).
-/

namespace Sys2Proof

/-- The fractional bits of a reference value. -/
def fixBits : Nat := 320

/-- 1 in fixed point. -/
def fixOne : Int := 2 ^ fixBits

/-- A product in fixed point. -/
def fixMul (a b : Int) : Int := a * b / fixOne

/-- A finite value in fixed point. -/
def fixVal : Val → Int
  | .num s m e =>
    let k := e + fixBits
    if 0 ≤ k then sgn s m * 2 ^ k.toNat else sgn s m / 2 ^ (-k).toNat
  | _ => 0

/-- Σ z^(2k+1) / (2k+1), `z2` standing for z² with the sign of the alternation: the series of atanh and of atan. -/
def oddSeries (z2 : Int) : Nat → Int → Int → Int → Int
  | 0, _, _, acc => acc
  | n + 1, k, t, acc => oddSeries z2 n (k + 2) (fixMul t z2) (acc + t / k)

/-- ln 2 = 2 atanh (1/3). -/
def fixLn2 : Int := 2 * oddSeries (fixOne / 9) 120 1 (fixOne / 3) 0

/-- π = 16 atan (1/5) − 4 atan (1/239). -/
def fixPi : Int :=
  16 * oddSeries (-(fixOne / 25)) 160 1 (fixOne / 5) 0 - 4 * oddSeries (-(fixOne / 57121)) 40 1 (fixOne / 239) 0

/-- Σ xⁿ / n! from term `t` of index k. -/
def expSeries (x : Int) : Nat → Int → Int → Int → Int
  | 0, _, _, acc => acc
  | n + 1, k, t, acc => expSeries x n (k + 1) (fixMul t x / k) (acc + t)

/-- e^x, the argument held to ±200, beyond which FP32 overflows or underflows. -/
def fixExp (x : Int) : Int :=
  let x := max (-200 * fixOne) (min (200 * fixOne) x)
  let n := x / fixLn2
  let y := expSeries (x - n * fixLn2) 90 1 fixOne 0
  if 0 ≤ n then y * 2 ^ n.toNat else y / 2 ^ (-n).toNat

/-- ln of a positive value m · 2^e. -/
def fixLn (m : Nat) (e : Int) : Int :=
  let l := m.log2
  let y := fixVal (.num false m (-(l : Int)))
  let z := (y - fixOne) * fixOne / (y + fixOne)
  2 * oddSeries (fixMul z z) 120 1 z 0 + (e + l) * fixLn2

/-- tanh x for x ≥ 0. -/
def fixTanh (x : Int) : Int :=
  let y := fixExp (2 * x)
  (y - fixOne) * fixOne / (y + fixOne)

/-- 1 / (1 + e^−x). -/
def fixSigm (x : Int) : Int := fixOne * fixOne / (fixOne + fixExp (-x))

/-- Σ (−1)ⁿ x^(2n+1) / (n! (2n+1)) from term `t` of index n. -/
def erfSeries (x2 : Int) : Nat → Int → Int → Int → Int
  | 0, _, _, acc => acc
  | k + 1, n, t, acc => erfSeries x2 k (n + 1) (-(fixMul t x2) / (n + 1)) (acc + t / (2 * n + 1))

/-- 2 / √π. -/
def fixErfScale : Int := (isqrt ((4 * fixOne * fixOne * fixOne / fixPi).toNat) (fixBits + 2) 0 : Nat)

/-- erf x for x ≥ 0; above 6 it lies within 2^−55 of 1. -/
def fixErf (x : Int) : Int :=
  if 6 * fixOne ≤ x then fixOne else fixMul fixErfScale (erfSeries (fixMul x x) 320 0 x 0)

/-- Σ (−1)ⁿ x^(2n) / (2n)! from term `t`, k = 2n + 1. -/
def cosSeries (x2 : Int) : Nat → Int → Int → Int → Int
  | 0, _, _, acc => acc
  | n + 1, k, t, acc => cosSeries x2 n (k + 2) (-(fixMul t x2) / (k * (k + 1))) (acc + t)

/-- cos (πk / d) for k ≤ d: the exact zero at k = d / 2. -/
def fixCosPi (k d : Nat) : Int :=
  let c (j : Nat) : Int := let x := fixPi * j / d; cosSeries (fixMul x x) 60 1 fixOne 0
  if 2 * k = d then 0 else if 2 * k < d then c k else -(c (d - k))

/-- 1 / (m · 2^e), rounded down. -/
def fixRcp (m : Nat) (e : Int) : Int :=
  if 0 ≤ e then fixOne / (m * 2 ^ e.toNat) else fixOne * 2 ^ (-e).toNat / m

/-- 1 / √(m · 2^e), rounded down. -/
def fixRsqrt (m : Nat) (e : Int) : Int :=
  let q := if 0 ≤ e then fixOne * fixOne / (m * 2 ^ e.toNat) else fixOne * fixOne * 2 ^ (-e).toNat / m
  (isqrt q.toNat (fixBits + 100) 0 : Nat)

/-- The magnitude of a code in fixed point, infinity standing at the next power of two; none for NaN. -/
def codeFix (F : Fmt) (c : Nat) : Option Int :=
  match decodeVal F c with
  | .nan => none
  | .inf _ => some (2 ^ (F.bias + 1 + fixBits))
  | .num _ m e => some (fixVal (.num false m e))

/-- The candidate `cand` where it lies within `n` units in the last place of the reference `x` and has its sign; the
reference correctly rounded otherwise. -/
def withinUlp (F : Fmt) (n : Nat) (x : Int) (cand : Nat) : Nat :=
  let neg := decide (x < 0)
  let m := x.natAbs
  let u := ulpExp F (min ((m.log2 : Int) - fixBits) F.bias)
  let near : Bool :=
    match codeFix F cand with
    | some c => decide ((c - m).natAbs ≤ n * 2 ^ (u + fixBits).toNat) && decide ((fmtSign F ≤ cand) = (x < 0))
    | none => false
  if m = 0 then 0 else if near then cand else finishMag F false neg (roundMag F m (-(fixBits : Int)) false)

end Sys2Proof
end

