-- ==== Sys2Proof/Machine/Elementary.lean ====
section
/-!
DEFINITION. The element operations of the vector engine (spec/03_numerics.md R90, spec/04_vector_engine.md R104 to R106):
exact arithmetic rounded once, and the elementary functions, whose special values the manual states and whose other
results it only bounds (log entry 6).
-/

namespace Sys2Proof.Machine

/-- The canonical NaN. -/
def qnan : Word := BitVec.ofNat 32 (fmtNaN fp32)
/-- Infinity with a sign. -/
def finf (neg : Bool) : Word := if neg then 0xFF800000 else 0x7F800000
/-- Zero with a sign. -/
def fzero (neg : Bool) : Word := if neg then 0x80000000 else 0
/-- 1.0 with a sign. -/
def fone (neg : Bool) : Word := if neg then 0xBF800000 else 0x3F800000

/-- The candidate for an FP32 result held to `n` ulp of a reference value (R105, Table 4.1; log entry 6). -/
def held (n : Nat) (x : Int) (cand : Word) : Word := BitVec.ofNat 32 (withinUlp fp32 n x cand.toNat)

/-- VRCP: IEEE 754 special values; otherwise within 1 ulp of 1 / a (R105). -/
def vRcp (a : Word) : Word :=
  match f32 a with
  | .nan => qnan
  | .inf s => fzero s
  | .num s 0 _ => finf s
  | .num s m e => held 1 (if s then -fixRcp m e else fixRcp m e) (Config.rcp a)

/-- VRSQRT: IEEE 754 special values (rSqrt of ±0 is ±Inf); otherwise within 1 ulp of 1 / √a. -/
def vRsqrt (a : Word) : Word :=
  match f32 a with
  | .nan => qnan
  | .inf true => qnan
  | .inf false => fzero false
  | .num s 0 _ => finf s
  | .num true _ _ => qnan
  | .num false m e => held 1 (fixRsqrt m e) (Config.rsqrt a)

/-- VEXP2 (1 ulp) and VEXP (2 ulp): special values of IEEE 754; otherwise within the error. -/
def vExp (two : Bool) (a : Word) : Word :=
  match f32 a with
  | .nan => qnan
  | .inf true => fzero false
  | .inf false => finf false
  | .num _ 0 _ => fone false
  | v => if two then held 1 (fixExp (fixMul (fixVal v) fixLn2)) (Config.exp2 a) else held 2 (fixExp (fixVal v)) (Config.exp a)

/-- VLOG2 (1 ulp) and VLOG (2 ulp): special values of IEEE 754; otherwise within the error. -/
def vLog (two : Bool) (a : Word) : Word :=
  match f32 a with
  | .nan => qnan
  | .inf true => qnan
  | .inf false => finf false
  | .num _ 0 _ => finf true
  | .num true _ _ => qnan
  | .num false m e =>
    if a = fone false then fzero false
    else if two then held 1 (fixLn m e * fixOne / fixLn2) (Config.log2 a)
    else held 2 (fixLn m e) (Config.log a)

/-- VTANH (2 ulp) and VERF (3 ulp), odd functions: Table 4.2; otherwise within the error of `f`, the function of |a|. -/
def vOdd (n : Nat) (f : Int → Int) (g : Word → Word) (a : Word) : Word :=
  match f32 a with
  | .nan => qnan
  | .inf s => fone s
  | .num s 0 _ => fzero s
  | .num s m e => let x := f (fixVal (.num false m e)); held n (if s then -x else x) (g a)

/-- A value times 100, compared with an integer. -/
def hundred (v : Val) : Val := mulVal v (.num false 100 0)

/-- VSIGM (2 ulp): Table 4.2 and the ranges of R106, whose results below the smallest normal are subnormal. -/
def vSigm (a : Word) : Word :=
  match f32 a with
  | .nan => qnan
  | .inf s => if s then fzero false else fone false
  | .num _ 0 _ => 0x3F000000
  | v =>
    if !ltVal (hundred v) (.num false 1733 0) then fone false
    else if ltVal (hundred v) (.num true 10397 0) then fzero false
    else if !ltVal (.num true 10328 0) (hundred v) then 1
    else
      let x := fixSigm (fixVal v)
      let w := held 2 x (Config.sigm a)
      if x < 2 ^ (fixBits - 126) then (if w = 0 then 1 else if 0x7FFFFF < w.toNat then 0x7FFFFF else w) else w

/-- An FP32 elementary function of one operand (Table 4.1). -/
def unary32 (fn : VFn) (a : Word) : Word :=
  match fn with
  | .rcp => vRcp a
  | .rsqrt => vRsqrt a
  | .exp2 => vExp true a
  | .log2 => vLog true a
  | .exp => vExp false a
  | .log => vLog false a
  | .tanh => vOdd 2 fixTanh Config.tanh a
  | .sigm => vSigm a
  | .erf => vOdd 3 fixErf Config.erf a
  | _ => a

/-- The functions of Table 4.1 that are computed as their FP32 version of the widened input (R105). -/
def viaF32 : VFn → Bool
  | .rcp | .rsqrt | .exp2 | .log2 | .exp | .log | .tanh | .sigm | .erf => true
  | _ => false

/-- One floating element: the operation of Table 6.5 on codes of format F (R104, R105). -/
def felem (F : Fmt) (fn : VFn) (a b c : Nat) : Nat :=
  let A := decodeVal F a
  let B := decodeVal F b
  match fn with
  | .fadd => encodeVal F false (addVal A B)
  | .fsub => encodeVal F false (addVal A (negVal B))
  | .fmul => encodeVal F false (mulVal A B)
  | .ffma => encodeVal F false (addVal (mulVal A B) (decodeVal F c))
  | .fmin => encodeVal F false (minVal A B)
  | .fmax => encodeVal F false (maxVal A B)
  | .fabs => encodeVal F false (absVal A)
  | .fneg => encodeVal F false (negVal A)
  | .div => divCode F A B
  | .sqrt => sqrtCode F A
  | _ => encodeVal F false (f32 (unary32 fn (toF32 A)))

/-- One 32-bit integer element (Table 6.5): two's complement that wraps; shifts use vb[4:0]. -/
def ielem (fn : VFn) (a b : Word) : Word :=
  match fn with
  | .iadd => a + b
  | .isub => a - b
  | .imul => a * b
  | .and => a &&& b
  | .or => a ||| b
  | .xor => a ^^^ b
  | .sll => a <<< (b.toNat % 32)
  | .srl => a >>> (b.toNat % 32)
  | .sra => a.sshiftRight (b.toNat % 32)
  | .imin => if a.slt b then a else b
  | .imax => if a.slt b then b else a
  | _ => a

/-- The operations of major 0x2A. -/
def isInt : VFn → Bool
  | .iadd | .isub | .imul | .and | .or | .xor | .sll | .srl | .sra | .imin | .imax => true
  | _ => false

/-- A floating comparison (Table 3.4: a NaN makes every relation but not-equal false). -/
def fcmp (F : Fmt) (r : VRel) (a b : Nat) : Bool :=
  let A := decodeVal F a
  let B := decodeVal F b
  match r with
  | .eq => eqVal A B
  | .ne => !eqVal A B
  | .lt => ltVal A B
  | .le => ltVal A B || eqVal A B
  | .gt => ltVal B A
  | .ge => ltVal B A || eqVal A B

/-- A signed integer comparison. -/
def icmp (r : VRel) (a b : Word) : Bool :=
  match r with
  | .eq => a == b
  | .ne => !(a == b)
  | .lt => a.slt b
  | .le => a.sle b
  | .gt => b.slt a
  | .ge => b.sle a

end Sys2Proof.Machine
end

