-- ==== Sys2Proof/Machine/Xts.lean ====
section
/-!
DEFINITION. AES-256-XTS as IEEE 1619 lays it down (R266), over data units of 256 bytes. Bytes are numbers below 256. R266 names the
standard and no byte order of a key: Key1 is the low half of the 512 bits, each half with its least significant byte first (log entry 72).
-/

namespace Sys2Proof.Machine

/-- A byte times x in GF(2^8), and the product of two. -/
def gfDouble (a : Nat) : Nat := if 128 ≤ a then (2 * a) ^^^ 0x11B else 2 * a
@[inherit_doc gfDouble] def gfMul (a b : Nat) : Nat :=
  ((List.range 8).foldl (fun (x : Nat × Nat) i => (if b.testBit i then x.1 ^^^ x.2 else x.1, gfDouble x.2)) (0, a)).1

/-- The inverse of a byte in GF(2^8): its 254th power; 0 for 0. -/
def gfInv (a : Nat) : Nat :=
  ((List.range 7).foldl (fun (x : Nat × Nat) _ => let q := gfMul x.2 x.2; (gfMul x.1 q, q)) (1, a)).1

/-- A byte rotated left. -/
def rotByte (a n : Nat) : Nat := a * 2 ^ n % 256 + a / 2 ^ (8 - n)

/-- The S-box of AES and its inverse. -/
def sbox (a : Nat) : Nat :=
  let b := gfInv a
  b ^^^ rotByte b 1 ^^^ rotByte b 2 ^^^ rotByte b 3 ^^^ rotByte b 4 ^^^ 0x63
@[inherit_doc sbox] def invSbox (a : Nat) : Nat := gfInv (rotByte a 1 ^^^ rotByte a 3 ^^^ rotByte a 6 ^^^ 0x05)

/-- Two lists of bytes added. -/
def xorBytes (a b : List Nat) : List Nat := List.zipWith (fun x y => x ^^^ y) a b

/-- Row r of column c of a state, which holds its columns one after another; rows are rotated by `sh r` columns. -/
def shiftRows (sh : Nat → Nat) (l : List Nat) : List Nat :=
  (List.range 16).map fun i => nth 0 l (i % 4 + 4 * ((i / 4 + sh (i % 4)) % 4))

/-- Every column of a state multiplied by the circulant matrix with first row `k`. -/
def mixColumns (k l : List Nat) : List Nat :=
  (List.range 16).map fun i =>
    (List.range 4).foldl (fun a j => a ^^^ gfMul (nth 0 k ((j + 4 - i % 4) % 4)) (nth 0 l (4 * (i / 4) + j))) 0

/-- Words of an AES-256 key schedule beyond its first 8: n more, behind those of `w`. -/
def expandKey : Nat → List (List Nat) → List (List Nat)
  | 0, w => w
  | n + 1, w =>
    let i := w.length
    let t := nth [] w (i - 1)
    let u := if i % 8 = 0 then xorBytes ((t.drop 1 ++ t.take 1).map sbox) [(List.range (i / 8 - 1)).foldl (fun a _ => gfDouble a) 1, 0, 0, 0]
      else if i % 8 = 4 then t.map sbox
      else t
    expandKey n (w ++ [xorBytes (nth [] w (i - 8)) u])

/-- The 15 round keys of a 256-bit key. -/
def roundKeys (key : Nat) : List (List Nat) :=
  let w := expandKey 52 ((List.range 8).map fun i => (List.range 4).map fun j => key / 2 ^ (32 * i + 8 * j) % 256)
  (List.range 15).map fun r => (List.range 4).flatMap fun c => nth [] w (4 * r + c)

/-- AES-256 of a block of 16 bytes with its round keys, and its inverse. -/
def aesEnc (rk : List (List Nat)) (l : List Nat) : List Nat :=
  let mid := (List.range 13).foldl (fun s r =>
    xorBytes (mixColumns [2, 3, 1, 1] (shiftRows id (s.map sbox))) (nth [] rk (r + 1))) (xorBytes l (nth [] rk 0))
  xorBytes (shiftRows id (mid.map sbox)) (nth [] rk 14)
@[inherit_doc aesEnc] def aesDec (rk : List (List Nat)) (l : List Nat) : List Nat :=
  let back (s : List Nat) : List Nat := (shiftRows (fun r => 4 - r) s).map invSbox
  let mid := (List.range 13).foldl (fun s r =>
    back (mixColumns [14, 11, 13, 9] (xorBytes s (nth [] rk (13 - r))))) (back (xorBytes l (nth [] rk 14)))
  xorBytes mid (nth [] rk 0)

/-- The tweak of the next block: times α in GF(2^128), the least significant byte first. -/
def nextTweak (t : List Nat) : List Nat :=
  let n := t.reverse.foldl (fun a b => 256 * a + b) 0
  let m := if 2 ^ 127 ≤ n then (2 * n - 2 ^ 128) ^^^ 0x87 else 2 * n
  (List.range 16).map fun i => m / 2 ^ (8 * i) % 256

/-- The blocks of a data unit, each between two additions of its tweak. -/
def xtsBlocks (f : List Nat → List Nat) : Nat → List Nat → List Nat → List Nat
  | 0, _, _ => []
  | n + 1, t, l => xorBytes (f (xorBytes (l.take 16) t)) t ++ xtsBlocks f n (nextTweak t) (l.drop 16)

/-- A data unit of 256 bytes encrypted, and decrypted, under a 512-bit key with a tweak. -/
def xtsEnc (key tweak : Nat) (l : List Nat) : List Nat :=
  let rk := roundKeys (key % 2 ^ 256)
  xtsBlocks (aesEnc rk) 16 (aesEnc (roundKeys (key / 2 ^ 256)) ((List.range 16).map fun i => tweak / 2 ^ (8 * i) % 256)) l
@[inherit_doc xtsEnc] def xtsDec (key tweak : Nat) (l : List Nat) : List Nat :=
  let rk := roundKeys (key % 2 ^ 256)
  xtsBlocks (aesDec rk) 16 (aesEnc (roundKeys (key / 2 ^ 256)) ((List.range 16).map fun i => tweak / 2 ^ (8 * i) % 256)) l

end Sys2Proof.Machine
end

