-- ==== Sys2Proof/Machine/Site.lean ====
section
/-!
DEFINITION. Site memory: offsets, error codes of the memories, the request queue, atomics, pull windows, the cache
division, ownership, heat and the site's part of an abort (R243 to R271, R441, R448).
-/

namespace Sys2Proof.Machine

/-- End of HBM and start of the Stratus share (Table 9.2). -/
def hbmEnd : Nat := 0xC00000000
@[inherit_doc hbmEnd] def strBase : Nat := 0x10000000000

/-- The offset lies in the fitted Stratus share. -/
def inShare (e : SEnv) (o : Nat) : Bool := decide (strBase ≤ o) && decide (o < strBase + e.share)

/-- The key that the site encrypts and decrypts with: its owner's (R266). -/
def Site.key (s : Site) : Nat := Map.get (fun _ => 0) s.keys s.owner

/-- 1 more than the key under which a unit is stored; 0 where nothing has written it. -/
def Site.sealOf (s : Site) (u : Nat) : Nat :=
  match Map.get (fun _ => 0) s.m.sealed u with
  | 0 => if 256 * u < hbmEnd then s.m.wipeKey else s.m.strKey
  | k => k

/-- A unit as the site decrypts it (R266): the plaintext as it was stored, where that was under the present key; else its ciphertext under the
key of then, decrypted with the present one. What nothing has written reads as it stands under any key (log entries 16, 72). -/
def Site.plainUnit (s : Site) (u : Nat) : List Byte :=
  let l := Map.getMany (fun _ => 0#8) s.m.mem (256 * u) 256
  match s.sealOf u with
  | 0 => l
  | k + 1 =>
    let tweak := s.id * 2 ^ 34 + u
    if k = s.key then l else (xtsDec s.key tweak (xtsEnc k tweak (l.map (·.toNat)))).map (BitVec.ofNat 8)

/-- Bytes of site memory (log entry 16: a byte never written reads 0). -/
def Site.bytes (s : Site) (o n : Nat) : List Byte :=
  if (s.m.sealed.all fun e => e.2 = s.key + 1) && [s.m.wipeKey, s.m.strKey].all (fun k => k = 0 || k = s.key + 1) then Map.getMany (fun _ => 0#8) s.m.mem o n
  else (List.range n).map fun i => nth 0#8 (s.plainUnit ((o + i) / 256)) ((o + i) % 256)

/-- A unit stored again under the present key: a write of a part of a unit is a read, a merge and an encrypted write of the whole (R266). -/
def Site.reseal (s : Site) (u : Nat) : Site :=
  let k := s.sealOf u
  let mem := if k = 0 || k = s.key + 1 then s.m.mem else Map.setMany (fun _ => 0#8) s.m.mem (256 * u) (s.plainUnit u)
  { s with m := { s.m with mem := mem, sealed := Map.set (fun _ => 0) s.m.sealed u (s.key + 1) } }

/-- The site with bytes written. -/
def Site.putBytes (s : Site) (o : Nat) (l : List Byte) : Site :=
  let s1 := ((List.range ((o + l.length + 255) / 256 - o / 256)).map (o / 256 + ·)).foldl Site.reseal s
  { s1 with m := { s1.m with mem := Map.setMany (fun _ => 0#8) s1.m.mem o l } }

/-- Little-endian words of bytes. -/
def bytesWords : Nat → List Byte → List Word
  | 0, _ => []
  | n + 1, l => BitVec.ofNat 32 (ofLeBytes (l.take 4)) :: bytesWords n (l.drop 4)

/-- Words of site memory at an offset. -/
def Site.words (s : Site) (o n : Nat) : List Word := bytesWords n (s.bytes o (4 * n))

/-- Bytes of words, each least significant byte first. -/
def wordsBytes (l : List Word) : List Byte := l.flatMap fun w => leBytes w.toNat 4

/-- The site with words written at an offset. -/
def Site.putWords (s : Site) (o : Nat) (l : List Word) : Site := s.putBytes o (wordsBytes l)

/-- SITE_INJ arms kind `k` for unit `u` (R448). -/
def siteInjHit (s : Site) (k u : Nat) : Bool :=
  let w := s.csrWord 0x30
  bits w 30 28 = k && decide (bits w 25 24 * 2 ^ 32 + (s.csrWord 0x34).toNat = u)

/-- The site injection has taken effect, on unit u. -/
def siteInjFire (s : Site) (u : Nat) : Site := { (s.csrField 0x30 30 28 0).csrField 0x30 31 31 1 with injUnit := some u }

/-- A memory error counted and recorded (Table 9.11): while VALID is set, an uncorrectable error replaces a recorded
corrected one, and any other later error only counts. -/
def memErr (s : Site) (src : Nat) (ue : Bool) (sym unit : Nat) : Site :=
  let s1 := if ue then (s.csrCount 0x20 15 0 1).csrField 0x0 6 6 1 else s.csrCount 0x20 31 16 1
  let w := s.csrWord 0x24
  if bit w 31 && !(ue && !bit w 28) then s1
  else (s1.csrPut 0x24 (BitVec.ofNat 32 (2 ^ 31 + src * 2 ^ 29 + nb ue * 2 ^ 28 + sym * 2 ^ 20 + unit / 2 ^ 32 % 2))).csrPut 0x28
    (BitVec.ofNat 32 unit)

/-- The record of an uncorrectable error (Table 18.1): CLASS 1 where a request meets it, 4 where patrol or the engine does (R441).
Of a corrected error: CLASS 2. -/
def ueRec (e : SEnv) (s : Site) (src cls code unit : Nat) : Rec :=
  { source := src, cls := cls, loc := siteLoc e.id, code := code, addr := e.id * 2 ^ 42 + unit * 256,
    detail := [s.csrWord 0x20, s.csrWord 0x24, s.csrWord 0x28], inj := decide (s.injUnit = some unit) }

/-- The record raised; only the first of an injection carries INJ (R446). -/
def raiseUe (e : SEnv) (x : SS) (src cls code unit : Nat) : SS :=
  (x.raise (ueRec e x.s src cls code unit)).upd fun s => { s with injUnit := if s.injUnit = some unit then none else s.injUnit }

/-- A unit found uncorrectable is reported; one that gives an uncorrectable HBM error a second time after being rewritten goes to the repair list (R441). `2 u`
marks a first error of unit u, `2 u + 1` that it has been rewritten since. -/
def noteUe (hbm : Bool) (s0 : Site) (u : Nat) : Site :=
  let s := if s0.m.reported.contains u then s0 else { s0 with m := { s0.m with reported := s0.m.reported ++ [u] } }
  if !hbm then s
  else if s.m.ueSeen.contains (2 * u + 1) then
    { s with repair := if s.repair.contains u then s.repair else s.repair ++ [u] }
  else if s.m.ueSeen.contains (2 * u) then s
  else { s with m := { s.m with ueSeen := s.m.ueSeen ++ [2 * u] } }

/-- Four bursts of a unit checked from burst `b` (R250, R255): `flips` gives the symbols or devices found newly erroneous in
this read, as 256 burst + symbol. One erroneous symbol is corrected and written back; two or more are uncorrectable. -/
def checkBursts (hbm : Bool) (u : Nat) (flips : List Nat) : Nat → Site → Site × Bool
  | 0, s => (s, false)
  | n + 1, s =>
    match checkBursts hbm u flips n s with
    | (s1, bad1) =>
      let old := Map.get (fun _ => []) s1.m.bad (4 * u + n)
      let syms := old ++ ((flips.filter fun x => x / 256 = n && !old.contains (x % 256)).map (· % 256))
      let src := if hbm then 0 else 1
      match syms with
      | [] => (s1, bad1)
      | [y] =>
        (memErr { s1 with m := { s1.m with bad := Map.set (fun _ => []) s1.m.bad (4 * u + n) [] } } src false y u, bad1)
      | y :: _ =>
        (memErr { s1 with m := { s1.m with bad := Map.set (fun _ => []) s1.m.bad (4 * u + n) syms } } src true y u, true)

/-- A burst of a unit holds an error, or is found to have one. -/
def burstErr (s : Site) (u : Nat) (flips : List Nat) : Bool :=
  flips.any (fun x => decide (x / 256 < 4)) || (List.range 4).any fun b => Map.get (fun _ => []) s.m.bad (4 * u + b) ≠ []

/-- The cache line of a unit read (R258): an armed kind 3 injection strikes at its fill. One flipped bit is corrected; two
discard the line. -/
def readLine (u : Nat) (s : Site) : Site × Bool :=
  let n := bits (s.csrWord 0x30) 27 26
  let s1 := if siteInjHit s 3 u then
      siteInjFire { s with m := { s.m with cacheBad := Map.set (fun _ => 0) s.m.cacheBad u n } } u
    else s
  match Map.get (fun _ => 0) s1.m.cacheBad u with
  | 0 => (s1, false)
  | 1 => (memErr s1 2 false 0 u, false)
  | _ => (memErr { s1 with m := { s1.m with cacheBad := Map.set (fun _ => 0) s1.m.cacheBad u 0 } } 2 true 0 u, true)

/-- Reports of the on-die ECC of the core dies in a read of the stack, given as codes from 1,024 in `flips`: each is counted among the
corrected errors (R244; DEDUCED, log entry 73). -/
def onDieReports (hbm : Bool) (flips : List Nat) (s : Site) : Site :=
  let n := (flips.filter fun x => 1024 ≤ x).length
  if !hbm || n = 0 then s else s.csrCount 0x20 31 16 n

/-- A read of a unit through the site cache: the ECODE where it fails (R250, R255, R258). A unit whose line the ATOM part holds is read
from the line (R260). The record is of CLASS `cls`: 1 for a
request of the partition, whose abort it asks for (R441); 4 for a read of the engine, which taints instead (Table 11.7). -/
def readUnit (e : SEnv) (x : SS) (cls u : Nat) (flips : List Nat) : SS × Option Nat :=
  let hbm : Bool := decide (256 * u < hbmEnd)
  if x.s.m.atom.contains u then (x, none) else
  match readLine u (onDieReports hbm flips x.s) with
  | (s1, true) => (raiseUe e { x with s := s1 } 0x0A cls 0x15 u, some 0x15)
  | (s1, false) =>
    let x1 := if Map.get (fun _ => 0) s1.m.cacheBad u = 1 then raiseUe e { x with s := s1 } 0x0A 2 0 u else { x with s := s1 }
    match checkBursts hbm u flips 4 x1.s with
    | (s2, false) =>
      (if burstErr x1.s u flips then raiseUe e { x1 with s := s2 } (if hbm then 0x08 else 0x09) 2 0 u else { x1 with s := s2 }, none)
    | (s2, true) =>
      let c := if hbm then 0x13 else 0x14
      let s3 := noteUe hbm s2 u
      (raiseUe e { x1 with s := s3 } (if hbm then 0x08 else 0x09) cls c u, some c)

/-- A whole or part write of a unit: the codes are formed anew, so errors of the bytes written are gone (R448); an armed
injection of kind 1 or 2 corrupts the first burst. -/
def writeUnit (s : Site) (o : Nat) (l : List Byte) : Site :=
  let u := o / 256
  let hbm : Bool := decide (o < hbmEnd)
  let s1 := s.putBytes o l
  let bad := (List.range 4).foldl (fun m b => Map.set (fun _ => []) m (4 * u + b) []) s1.m.bad
  let seen := if s1.m.ueSeen.contains (2 * u) then (s1.m.ueSeen.filter (· ≠ 2 * u)) ++ [2 * u + 1] else s1.m.ueSeen
  let s2 := { s1 with injUnit := (if s1.injUnit = some u then none else s1.injUnit), m := { s1.m with bad := bad, cacheBad := Map.set (fun _ => 0) s1.m.cacheBad u 0, ueSeen := seen } }
  if siteInjHit s2 (if hbm then 1 else 2) u then
    let n := bits (s2.csrWord 0x30) 27 26
    siteInjFire { s2 with m := { s2.m with bad := Map.set (fun _ => []) s2.m.bad (4 * u) (List.range n) } } u
  else s2

/-- First unit, length and RDEF of pull window n (Table 9.12). -/
def winBase (s : Site) (n : Nat) : Nat := bits (s.csrWord (0x100 + 16 * n)) 27 0
@[inherit_doc winBase] def winSize (s : Site) (n : Nat) : Nat := bits (s.csrWord (0x104 + 16 * n)) 23 0
@[inherit_doc winBase] def winDef (s : Site) (n : Nat) : Nat := bits (s.csrWord (0x108 + 16 * n)) 31 16

/-- The armed window that holds a unit (R263). -/
def windowOf (s : Site) (u : Nat) : Option Nat :=
  s.m.armed.find? fun n => decide (winBase s n ≤ u) && decide (u < winBase s n + winSize s n)

/-- The reader count of a window unit. -/
def readers (s : Site) (u : Nat) : Nat := Map.get (fun _ => 0) s.m.count u

/-- The site with a reader count set. -/
def setReaders (s : Site) (u c : Nat) : Site := { s with m := { s.m with count := Map.set (fun _ => 0) s.m.count u c } }

/-- CLS of what a site injects: 1 for a north or south site (R224). -/
def siteCls (id : Nat) : Nat := if id / 12 % 2 = 0 then 1 else 0

/-- An ACK of a unit (R231). -/
def ackFlit (id : Nat) (r : SiteReq) : Flit :=
  { vc := 0, cls := siteCls id, dest := r.src, body := .ack r.tid r.seq false }

/-- An ERR for a unit. -/
def errFlit (id : Nat) (r : SiteReq) (code : Nat) : Flit :=
  { vc := 0, cls := siteCls id, dest := r.src, body := .err r.tid r.seq code false r.cmb }

/-- The return flits of a read, or the old values of an atomic (R231, R259). -/
def dataFlits (id : Nat) (r : SiteReq) (ws : List Word) (per n : Nat) : List Flit :=
  (List.range n).map fun i =>
    { vc := if r.vc = 5 then 5 else 3, cls := siteCls id, head := i = 0, tail := i + 1 = n, dest := r.src,
      body := if r.op = 1 then .rdata r.tid (r.seq + i) r.cmb else .adata r.tid (r.seq + i) r.cmb,
      data := (ws.drop (per * i)).take per }

/-- The request answered with an error, which the site logs where it is a refusal (R246, R265; SOURCE 0x24 or, log entry 54,
0x23). -/
def siteErr (e : SEnv) (x : SS) (r : SiteReq) (code : Nat) : SS :=
  let y := x.send r.edge (errFlit e.id r code)
  if code = 0x10 || code = 0x11 || code = 0x12 || code = 0x16 then
    y.raise { source := if code = 0x10 || code = 0x12 then 0x24 else 0x23, cls := 3, loc := siteLoc e.id, code := code,
              addr := e.id * 2 ^ 42 + r.off }
  else y

/-- The error that a site gives a request on arrival (R246, R254, R265, R270). -/
def arriveCode (e : SEnv) (s : Site) (r : SiteReq) : Option Nat :=
  if s.state = 3 || s.state = 4 then some 0x17
  else if s.owner = 15 || r.part ≠ s.owner then some 0x10
  else if r.off < hbmEnd then none
  else if r.off < strBase || strBase + e.share ≤ r.off then some 0x11
  else if !e.strav then some 0x12
  else none

/-- A read of a window unit whose count is zero, or a fill of one whose count is not (R234, R264). -/
def mustPark (s : Site) (r : SiteReq) : Bool :=
  let u := r.off / 256
  match windowOf s u with
  | none => false
  | some _ =>
    if r.op = 1 then decide (readers s u = 0)
    else r.op = 2 && r.nfl = 8 && decide (readers s u ≠ 0)

/-- A memory has a request: it leaves self-refresh, and its 1 ms begins anew (R244). -/
def touchMem (e : SEnv) (str : Bool) (s : Site) : Site :=
  if str then { s with m := { s.m with strRefresh := false, lastStr := e.now } }
  else { s with m := { s.m with selfRefresh := false, lastHbm := e.now } }

/-- SITE_REQUEST_ARRIVE: a request is answered with an error, queued, or left at the edge while the queue is full; one that must wait
takes no place in the queue and is parked, or left at the edge while 4,096 are parked (R256, R257, R264, R265). None: it stays at the
edge. -/
def siteArrive (e : SEnv) (x : SS) (r : SiteReq) : Option SS :=
  match arriveCode e x.s r with
  | some c => some (siteErr e x r c)
  | none =>
    let park := mustPark x.s r
    if (if park then 4096 ≤ x.s.m.parked.length else 2048 ≤ x.s.m.queue.length) then none
    else some (x.upd fun s =>
      let q := { r with arr := s.m.arrivals }
      touchMem e (decide (hbmEnd ≤ r.off))
        { s with m := { s.m with queue := if park then s.m.queue else s.m.queue ++ [q], arrivals := s.m.arrivals + 1,
                                 parked := if park then s.m.parked ++ [q] else s.m.parked } })

/-- A has the older AGE, modulo 2^32; ties go to the lower SRC, then to the earlier arrival (R220, R232). -/
def olderReq (a b : SiteReq) : Bool :=
  let d := (b.age + 2 ^ 32 - a.age) % 2 ^ 32
  if d = 0 then (decide (a.src < b.src) || (a.src = b.src && decide (a.arr ≤ b.arr))) else decide (d < 2 ^ 31)

/-- The oldest of a list. -/
def oldest : List SiteReq → Option SiteReq
  | [] => none
  | a :: l =>
    match oldest l with
    | none => some a
    | some b => if olderReq a b then some a else some b

/-- An atomic that is queued names the line of a unit (R260). -/
def atomNamed (s : Site) (u : Nat) : Bool := s.m.queue.any fun q => q.op = 3 && decide (q.off / 256 = u)

/-- Lines of the ATOM part. -/
def atomCap (s : Site) : Nat := 4096 * bits (s.csrWord 0x40) 31 24

/-- A line of the ATOM part is there for an atomic, or can be freed for it (R260). -/
def lineFree (s : Site) (r : SiteReq) : Bool :=
  r.op ≠ 3 || s.m.atom.contains (r.off / 256) || decide (s.m.atom.length < atomCap s) || s.m.atom.any fun v => !atomNamed s v

/-- What a site may serve next (R256, R264): requests before which none to their unit arrived that waits no longer. A queued request that
must park may be moved while there is room; an atomic waits for its line (R260). -/
def servable (s : Site) : List SiteReq :=
  let first (r : SiteReq) : Bool :=
    (s.m.queue ++ s.m.parked).all fun q => !(decide (q.arr < r.arr) && q.off / 256 = r.off / 256) || mustPark s q
  (s.m.queue.filter fun r => first r && lineFree s r && !(mustPark s r && decide (4096 ≤ s.m.parked.length))) ++
    s.m.parked.filter fun r => !mustPark s r && first r

/-- The request a site serves next: the oldest AGE; none at thermal level 4 (R269). -/
def nextReq (s : Site) : Option SiteReq := if bits (s.csrWord 0x10) 2 0 = 4 then none else oldest (servable s)

/-- The request taken out of the queue and the parked list. -/
def dropReq (s : Site) (r : SiteReq) : Site :=
  { s with m := { s.m with queue := s.m.queue.filter fun q => q.arr ≠ r.arr,
                           parked := s.m.parked.filter fun q => q.arr ≠ r.arr } }

/-- One element operation of an atomic (R259): new and old value of the element, in format F. -/
def atomElem (F : Fmt) (aop old opnd cmp : Nat) : Nat :=
  match aop with
  | 0 => encodeVal F false (addVal (decodeVal F old) (decodeVal F opnd))
  | 1 => encodeVal F false (minVal (decodeVal F old) (decodeVal F opnd))
  | 2 => encodeVal F false (maxVal (decodeVal F old) (decodeVal F opnd))
  | 3 => opnd
  | _ => if old = cmp then opnd else old

/-- One word of an atomic: one FP32 element or two BF16 elements. -/
def atomWord (bf : Bool) (aop : Nat) (old opnd cmp : Word) : Word :=
  if bf then
    BitVec.ofNat 32 (atomElem bf16 aop (bits old 15 0) (bits opnd 15 0) (bits cmp 15 0) +
      2 ^ 16 * atomElem bf16 aop (bits old 31 16) (bits opnd 31 16) (bits cmp 31 16))
  else BitVec.ofNat 32 (atomElem fp32 aop old.toNat opnd.toNat cmp.toNat)

/-- The words of an atomic unit: operand words, or compare and swap words in pairs (R259). -/
def atomWords (bf : Bool) (aop : Nat) : List Word → List Word → List Word
  | o :: os, d => if aop = 4 then atomWord bf 4 o (nth 0 d 1) (nth 0 d 0) :: atomWords bf aop os (d.drop 2)
    else atomWord bf aop o (nth 0 d 0) 0 :: atomWords bf aop os (d.drop 1)
  | [], _ => []

/-- A line of the ATOM part written back to memory (R260, R270). -/
def writeBack (s : Site) (u : Nat) : Site := writeUnit s (256 * u) (s.bytes (256 * u) 256)

/-- The unit's line becomes the most recently used of the ATOM part. A full part writes back and frees the least recently used line that
no queued atomic names (R260). -/
def touchAtom (s : Site) (u : Nat) : Site :=
  let l := s.m.atom.filter (· ≠ u)
  match (if l.length < atomCap s then none else l.find? fun v => !atomNamed s v) with
  | none => { s with m := { s.m with atom := l ++ [u] } }
  | some v => let w := writeBack s v; { w with m := { w.m with atom := l.erase v ++ [u] } }

/-- A write of a unit reaches the line that the ATOM part holds, else the memory (R260). -/
def storeUnit (s : Site) (o : Nat) (l : List Byte) : Site :=
  if s.m.atom.contains (o / 256) then s.putBytes o l else writeUnit s o l

/-- A reader-count overrun (R234, R264; SOURCE 0x26). -/
def overrun (e : SEnv) (x : SS) (n u : Nat) : SS :=
  (x.upd fun s => (s.csrField 0x0 5 5 1).csrField (0x108 + 16 * n) 3 3 1).raise
    { source := 0x26, cls := 4, loc := siteLoc e.id, code := n, addr := e.id * 2 ^ 42 + u * 256,
      detail := [x.s.csrWord (0x100 + 16 * n), x.s.csrWord (0x104 + 16 * n), x.s.csrWord (0x108 + 16 * n)] }

/-- A read is served: its data goes back, and a window unit's count falls by RCNT (R231, R234). -/
def serveRead (e : SEnv) (x : SS) (r : SiteReq) (flips : List Nat) : SS :=
  let u := r.off / 256
  match readUnit e x 1 u flips with
  | (y, some c) => siteErr e y r c
  | (y, none) =>
    let ws := y.s.words r.off (8 * r.nfl)
    let z := (dataFlits e.id r ws 8 r.nfl).foldl (fun z f => z.send r.edge f) y
    match windowOf z.s u with
    | none => z
    | some n =>
      let c := readers z.s u
      let z1 := if c < r.rcnt then overrun e z n u else z
      z1.upd fun s => setReaders s u (c - r.rcnt)

/-- A write is served (R247, R256, R264): a part of a unit is read first and merged; a whole unit of an armed window is a
fill. -/
def serveWrite (e : SEnv) (x : SS) (r : SiteReq) (flips : List Nat) : SS :=
  let u := r.off / 256
  let l := if r.raw.isEmpty then wordsBytes r.data else r.raw
  match windowOf x.s u with
  | some n =>
    if r.nfl ≠ 8 then siteErr e x r 0x16
    else (x.upd fun s => setReaders (storeUnit s r.off l) u (winDef s n)).send r.edge (ackFlit e.id r)
  | none =>
    match (if r.nfl = 8 then (x, none) else readUnit e x 1 u flips) with
    | (y, some c) => siteErr e y r c
    | (y, none) => (y.upd fun s => storeUnit s r.off l).send r.edge (ackFlit e.id r)

/-- An atomic is served in the ATOM part (R259, R260). -/
def serveAtom (e : SEnv) (x : SS) (r : SiteReq) (flips : List Nat) : SS :=
  let u := r.off / 256
  if 5 ≤ r.aop || (windowOf x.s u).isSome then siteErr e x r 0x16
  else
    match readUnit e x 1 u flips with
    | (y, some c) => siteErr e y r c
    | (y, none) =>
      let per := if r.aop = 4 then 4 else 8
      let old := y.s.words r.off (per * r.nfl)
      let z := y.upd fun s => (touchAtom s u).putWords r.off (atomWords (r.atype = 1) r.aop old r.data)
      ((dataFlits e.id r old per r.nfl).foldl (fun z f => z.send r.edge f) z).send r.edge (ackFlit e.id r)

/-- The next request is parked, or served as its kind (R232, R256). `win` selects the requests to units of armed windows, which
PWIN_READ and PWIN_FILL serve; the command of another kind has no turn. -/
def siteServe (e : SEnv) (x : SS) (turn : Site → SiteReq → Bool) (flips : List Nat) : SS :=
  match nextReq x.s with
  | none => x
  | some r =>
    if !turn x.s r then x
    else if mustPark x.s r then x.upd fun s => { dropReq s r with m := { (dropReq s r).m with parked := s.m.parked ++ [r] } }
    else
      let y := x.upd fun s => touchMem e (decide (hbmEnd ≤ r.off)) (dropReq s r)
      if decide (hbmEnd ≤ r.off) && !e.strav then siteErr e y r 0x12
      else if r.op = 1 then serveRead e y r flips
      else if r.op = 2 then serveWrite e y r flips
      else serveAtom e y r flips

/-- The request reads a unit of an armed window, or fills one. -/
def isWinRead (s : Site) (r : SiteReq) : Bool := r.op = 1 && (windowOf s (r.off / 256)).isSome
@[inherit_doc isWinRead] def isWinFill (s : Site) (r : SiteReq) : Bool :=
  r.op = 2 && r.nfl = 8 && (windowOf s (r.off / 256)).isSome

/-- Entries of the PWIN part that the armed windows other than `w` take (R263). -/
def pwinUsed (s : Site) (w : Nat) : Nat := (s.m.armed.map fun n => if n = w then 0 else winSize s n).sum

/-- The window may be armed (R263), armed already or not: its counts fit the PWIN part, it lies in HBM and overlaps no other armed window. -/
def armable (s : Site) (n : Nat) : Bool :=
  let b := winBase s n
  let k := winSize s n
  decide (pwinUsed s n + k ≤ 2 ^ 19 * bits (s.csrWord 0x40) 15 8) && decide (256 * (b + k) ≤ hbmEnd) &&
    s.m.armed.all fun m => m = n || decide (b + k ≤ winBase s m) || decide (winBase s m + winSize s m ≤ b)

/-- ARM FILLED, ARM EMPTY and DISARM (R263); none where the command is refused. -/
def winCmd (s : Site) (n cmd : Nat) : Option Site :=
  if cmd = 3 then
    let s1 := { s with m := { s.m with armed := s.m.armed.filter (· ≠ n),
                                       count := Map.clearRange s.m.count (winBase s n) (winBase s n + winSize s n) } }
    some (if s.m.armed.contains n then s1 else s)
  else if !armable s n then none
  else
    let c := if cmd = 1 then winDef s n else 0
    some { s with m := { s.m with armed := if s.m.armed.contains n then s.m.armed else s.m.armed ++ [n],
                                  count := Map.setMany (fun _ => 0) s.m.count (winBase s n) (List.replicate (winSize s n) c) } }

/-- The copy engine moves the unit at offset 256 a to 256 b, decrypting it and encrypting it under its new address (R243, R266): in a pull
window it fills a unit whose count is zero, and waits for one whose count is not (R264). A unit that cannot be read is not moved; its
error is recorded as patrol records it (log entry 74). -/
def copyUnit (e : SEnv) (a b : Nat) (flips : List Nat) (x : SS) : SS :=
  let there (u : Nat) : Bool := decide (256 * u < hbmEnd) || (inShare e (256 * u) && e.strav)
  if !there a || !there b || x.s.state ≠ 2 || ((windowOf x.s b).isSome && decide (readers x.s b ≠ 0)) then x
  else
    match readUnit e x 4 a flips with
    | (y, some _) => y
    | (y, none) => y.upd fun s =>
      let t := storeUnit s (256 * b) (s.bytes (256 * a) 256)
      match windowOf t b with
      | some n => setReaders t b (winDef t n)
      | none => t

/-- Units of an accumulator buffer's part (R262). -/
def accumCap (s : Site) : Nat := 256 * bits (s.csrWord 0x40) 23 16

/-- A division of the cache keeps the limits of Table 9.3 (R258). -/
def allocOk (v : Word) : Bool :=
  decide (bits v 31 24 ≤ 16) && decide (bits v 23 16 ≤ 32) && decide (bits v 15 8 ≤ 16) && decide (bits v 7 0 ≤ 32) &&
    decide (bits v 31 24 + bits v 23 16 + bits v 15 8 + bits v 7 0 ≤ 64)

/-- The site holds no request, no armed window and no open accumulator buffer (R258). -/
def cacheIdle (s : Site) : Bool := s.m.queue.isEmpty && s.m.parked.isEmpty && s.m.armed.isEmpty && s.m.accum.isEmpty

/-- PATROL_READ of a unit (R251): errors are corrected or logged; patrol aborts nothing (R441), never goes through the cache,
and stops on a stack at level 4. -/
def patrolRead (e : SEnv) (x : SS) (str : Bool) (flips : List Nat) : SS :=
  if !str && bits (x.s.csrWord 0x10) 2 0 = 4 then x
  else
    let n := if str then e.share / 256 else hbmEnd / 256
    let at_ := if str then x.s.m.strPatrol else x.s.m.patrol
    let u := at_ + (if str then strBase / 256 else 0)
    let next := if n ≤ at_ + 1 then 0 else at_ + 1
    let step (s : Site) : Site :=
      if str then { s with m := { s.m with strPatrol := next } } else { s with m := { s.m with patrol := next } }
    if n = 0 then x
    else
      match checkBursts (!str) u flips 4 (onDieReports (!str) flips x.s) with
      | (s1, false) =>
        if burstErr x.s u flips then raiseUe e { x with s := step s1 } (if str then 0x09 else 0x08) 2 0 u
        else { x with s := step s1 }
      | (s1, true) =>
        let s2 := noteUe (!str) s1 u
        raiseUe e { x with s := step s2 } (if str then 0x09 else 0x08) 4 (if str then 0x14 else 0x13) u

/-- The level after a reading (Table 9.4). -/
def thermLevel (old t : Nat) : Nat :=
  let up := if 105 ≤ t then 4 else if 100 ≤ t then 3 else if 95 ≤ t then 2 else if 85 ≤ t then 1 else 0
  let keep := if 100 < t then 4 else if 97 < t then 3 else if 92 < t then 2 else if 82 < t then 1 else 0
  max up (min old keep)

/-- A reading of the stack sensor, or the value that SITE_INJ kind 4 substitutes (R269, R448): TEMP, TPEAK and LEVEL. -/
def stackReading (s : Site) (t0 : Nat) : Site :=
  let t := s.tempSub.getD (t0 % 256)
  let w := s.csrWord 0x10
  s.csrPut 0x10 (BitVec.ofNat 32 (t * 2 ^ 16 + max t (bits w 15 8) * 2 ^ 8 + thermLevel (bits w 2 0) t))

/-- The site's part of a partition abort (R270, R297, R321): queued and parked requests are answered with ERR 0x18, windows are
disarmed, buffers emptied, atomic lines written back, partial sums and the engine's work discarded. That a fold
was applied stands until the next step is armed: a flip that completes first records its c (R330). -/
def siteAbort (e : SEnv) (x : SS) (code : Nat) : SS :=
  let y := (x.s.m.queue ++ x.s.m.parked).foldl (fun z r => z.send r.edge (errFlit e.id r code)) x
  y.upd fun s =>
    let s0 := s.m.atom.foldl writeBack s
    let s1 := if 1 ≤ bits (s0.csrWord 0x30) 30 28 then s0.csrField 0x30 30 28 0 else s0
    { s1 with
      tempSub := none
      m := { s1.m with queue := [], parked := [], armed := [], count := [], atom := [], accum := [] }
      red := { s1.red with vc1 := [], stopped := [], started := false, bkts := [], held := s1.red.held || s1.red.started }
      upd := { s1.upd with bt := [], queue := [], slots := 0, waitSlot := false, fired := [], taints := [], finished := false,
                           partials := [] } }

/-- The plaintext of the old owner is discarded when the owner changes (R267). -/
def discardPlain (s : Site) : Site :=
  { s with m := { s.m with queue := [], parked := [], armed := [], count := [], atom := [], accum := [], cacheBad := [] } }

end Sys2Proof.Machine
end

