-- ==== Sys2Proof/Machine/HaloLink.lean ====
section
/-!
DEFINITION. The Halo link layer and what the sites return to a port: sending, transfers and their ends (R384 to R394).
-/

namespace Sys2Proof.Machine

/-- The place of a Halo transfer among the edges of a site request: port q, TAG, and whether the module started it. -/
def haloEdge (q tag : Nat) (mod : Bool) : Nat := 2 ^ 20 + 12 * (2 * tag + nb mod) + q

/-- The link lets sequenced flits go: the port is up, or drains with its link up (R393). -/
def Port.sends (o : Port) : Bool := o.state = 2 || (o.state = 4 && !o.lame)

/-- The port is in Ethernet mode. -/
def Port.ether (o : Port) : Bool := bit (o.csrWord 0x0) 0

/-- The last SEQ accepted (R385). -/
def Port.lastSeq (o : Port) : Nat := (o.rxSeq + 4095) % 4096

/-- The lanes' roles, and a lane's register fields (Table 15.7). -/
def Port.role (o : Port) (l : Nat) : Nat := bits (o.csrWord (0x100 + 4 * l)) 7 4
@[inherit_doc Port.role] def Port.setRole (o : Port) (l r : Nat) : Port := o.csrField (0x100 + 4 * l) 7 4 r
@[inherit_doc Port.role] def Port.setLane (o : Port) (l st : Nat) : Port := o.csrField (0x100 + 4 * l) 2 0 st

/-- The spare takes the stripe position of a lane (R387). -/
def Port.swapSpare (o : Port) (l : Nat) : Port := ((o.setRole 8 (o.role l)).setRole l 15).csrField 0x4 23 20 (o.role l)

/-- The good lanes, lowest stripe position first, those out of use last. -/
def Port.goodLanes (o : Port) : List Nat :=
  let at_ (r : Nat) : List Nat := (List.range 9).filter fun l => o.role l = r && !o.bad.contains l
  (List.range 8).flatMap at_ ++ at_ 15

/-- The port goes to half width on its four good lanes with the lowest positions (R387). -/
def Port.narrow (o : Port) : Port :=
  let g := o.goodLanes.take 4
  let o1 := (List.range 9).foldl (fun o l => o.setRole l ((g.idxOf? l).getD 15)) o
  (o1.csrField 0x4 8 8 1).csrField 0x4 23 20 ((g.idxOf? 8).getD 15)

/-- A change of lanes: 1 the spare for a lane, else half width. -/
def Port.changeLanes (o : Port) (kind lane : Nat) : Port :=
  if kind = 1 then (if lane < 8 && o.role 8 = 8 then o.swapSpare lane else o) else if 4 ≤ o.goodLanes.length then o.narrow else o

/-- The module's lane changes that take effect at the SEQ it sends next (R387, R394). -/
def Port.turnLanes (o : Port) : Port :=
  (o.turn.filter fun c => c.2.2 = o.txSeq).foldl (fun o c => o.changeLanes c.1 c.2.1) { o with turn := o.turn.filter fun c => c.2.2 ≠ o.txSeq }

/-- RoCEv2 traffic of a port may go: the link is up, and no pause holds its priority (Table 15.5). -/
def Port.roceGo (o : Port) (q : Nat) : Bool := o.sends && !o.paused.contains (Config.rocePriority q)

/-- A flit as the module sends it, with its CRC (R384). -/
def haloMsg (q ack : Nat) (nak : Bool) (cred : Nat) (f : HSent) : Msg :=
  .halo q ack nak cred f (haloCrc (haloHeader f.typ f.seq ack nak cred f.tag f.off) f.data)

/-- The flits that may go are sent (R385, R386): one credit each, at most 2,048 unacknowledged; in Ethernet mode the standard's
transport counts instead. -/
def State.haloFlush (s : State) (q : Nat) : Nat → State
  | 0 => s
  | k + 1 =>
    let o := s.port q
    match o.txq with
    | [] => s
    | f :: l =>
      if !o.sends then s
      else if o.ether then (if !o.roceGo q then s else ((s.setPort q { o with txq := l, sent := o.sent ++ [f] }).say (.rdma q f)).haloFlush q k)
      else if o.credits = 0 || 2048 ≤ o.sent.length then s
      else
        let g := { f with seq := o.txSeq }
        let c := min 255 o.owed
        ((s.setPort q { o with
          txq := l, sent := o.sent ++ [g], txSeq := (o.txSeq + 1) % 4096, credits := o.credits - 1, owed := o.owed - c }.turnLanes).say
            (haloMsg q o.lastSeq false c g)).haloFlush q k

/-- A flit given to the port to send. -/
def State.haloTx (s : State) (q typ tag off : Nat) (data : List Byte) : State :=
  let o := s.port q
  (s.setPort q { o with txq := o.txq ++ [{ seq := 0, typ := typ, tag := tag, off := off, data := data }] }).haloFlush q
    (o.txq.length + 1)

/-- An IDLE flit (R385, R386): it carries ACK, NAK and the credits returned. -/
def State.haloIdle (s : State) (q : Nat) (nak : Bool) : State :=
  let o := s.port q
  let c := min 255 o.owed
  if o.sends && !o.ether then
    (s.setPort q { o with owed := o.owed - c }).say (haloMsg q o.lastSeq nak c { seq := 0, typ := 0, tag := 0, off := 0, data := [] })
  else s

/-- HALO_LAST and HALO_LAST_OFF take the first error (R389, R397). -/
def Port.noteLast (o : Port) (status ecode win unit : Nat) : Port :=
  if bit (o.csrWord 0x14) 31 then o
  else (o.csrPut 0x14 (BitVec.ofNat 32 (2 ^ 31 + status * 2 ^ 24 + ecode * 2 ^ 16 + win % 64))).csrPut 0x18 (BitVec.ofNat 32 unit)

/-- The RoCEv2 completions that waited are sent (R394, R396). -/
def State.roceFlush (s : State) (q : Nat) : State :=
  let o := s.port q
  if o.held.isEmpty || !o.roceGo q then s
  else o.held.foldl (fun s h => s.say (.roce q h.1 h.2.1 h.2.2)) (s.setPort q { o with held := [] })

/-- A completion for the peer (R390, R393, R394): CMPL is sent while the port is up, held while it retrains, and dropped while
it is down; in Ethernet mode the RoCEv2 completion stands in its place, and a pause holds it too. -/
def State.haloCmpl (s : State) (q tag qp status ecode : Nat) (data : List Byte) : State :=
  let o := s.port q
  if o.ether then
    (if o.sends || o.state = 3 then (s.setPort q { o with held := o.held ++ [(qp, status, data)] }).roceFlush q else s)
  else if o.sends || o.state = 3 then s.haloTx q 5 tag 0 [BitVec.ofNat 8 status, BitVec.ofNat 8 ecode]
  else s

/-- The transfer is forgotten by its port. -/
def Port.dropXfer (o : Port) (x : HXfer) : Port :=
  { o with xfers := o.xfers.filter fun y => !(y.tag = x.tag && y.mod == x.mod) }

/-- The transfer as it stands now in its port. -/
def Port.putXfer (o : Port) (x : HXfer) : Port :=
  { o with xfers := o.xfers.map fun y => if y.tag = x.tag && y.mod == x.mod then x else y }

/-- The requests of a transfer that its site has not begun are taken back. -/
def State.dropReqs (s : State) (q : Nat) (x : HXfer) : State :=
  let mine (r : SiteReq) : Bool := r.edge = haloEdge q x.tag x.mod
  let y := s.site x.site
  if (y.m.queue ++ y.m.parked).any mine then
    s.setSite x.site { y with m := { y.m with queue := y.m.queue.filter fun r => !mine r, parked := y.m.parked.filter fun r => !mine r } }
  else s

/-- A transfer ends with a STATUS (R390, R393): an error is recorded, and what its site has not begun is taken back, so that a new transfer with its
TAG gets no answer of it; the peer that started it gets its completion. -/
def State.endXfer (s : State) (q : Nat) (x : HXfer) (status ecode : Nat) : State :=
  let o := (s.port q).dropXfer x
  let s1 := if status = 0 then s.setPort q o else (s.setPort q (o.noteLast status ecode x.win x.unit)).dropReqs q x
  if x.mod then s1 else s1.haloCmpl q x.tag x.qp status ecode []

/-- Every transfer of a port ends with a STATUS (R393). -/
def State.endAll (s : State) (q status : Nat) : State :=
  (s.port q).xfers.foldl (fun s x => s.endXfer q x status 0) s

/-- The requests of a port that no site has begun are taken back (R393). -/
def State.recallReqs (s : State) (q : Nat) : State :=
  let mine (r : SiteReq) : Bool := decide (2 ^ 20 ≤ r.edge) && (r.edge - 2 ^ 20) % 12 = q
  (List.range nSites).foldl (fun s n =>
    let x := s.site n
    if (x.m.queue ++ x.m.parked).any mine then
      s.setSite n { x with m := { x.m with queue := x.m.queue.filter fun r => !mine r, parked := x.m.parked.filter fun r => !mine r } }
    else s) s

/-- The words of unit k of a transfer that have come back, in order; none while one is missing. -/
def HXfer.unitWords (x : HXfer) (k : Nat) : Option (List Word) :=
  (List.range 8).foldr (fun i a =>
    match a, x.buf.find? fun e => e.1 = 8 * k + i with
    | some l, some e => some (e.2 ++ l)
    | _, _ => none) (some [])

/-- The two units that flit j of a transfer carries (Table 15.2): the last is padded with zeros. -/
def HXfer.pairWords (x : HXfer) (j : Nat) : Option (List Word) :=
  match x.unitWords (2 * j), (if 2 * j + 1 < x.n then x.unitWords (2 * j + 1) else some []) with
  | some a, some b => some (a ++ b)
  | _, _ => none

/-- Words read for a transfer come back from its site: what is whole is sent on, and a read that is done ends (R390). -/
def State.haloData (s : State) (q : Nat) (x : HXfer) (sq : Nat) (ws : List Word) : State :=
  let j := sq / 16
  let y := { x with buf := x.buf ++ [(sq, ws)] }
  let o := s.port q
  if o.ether && !x.mod then
    if (List.range x.n).all fun k => (y.unitWords k).isSome then
      let l := (List.range x.n).flatMap fun k => wordsBytes ((y.unitWords k).getD [])
      (s.setPort q (o.dropXfer x)).haloCmpl q x.tag x.qp 0 0 ((l.drop x.skip).take x.len)
    else s.setPort q (o.putXfer y)
  else
    match y.pairWords j with
    | none => s.setPort q (o.putXfer y)
    | some l =>
      let z := { y with got := y.got ++ [j], buf := y.buf.filter fun e => e.1 / 16 ≠ j }
      let s1 := (s.setPort q (o.putXfer z)).haloTx q (if x.mod then 2 else 4) x.tag j (wordsBytes l)
      if !x.mod && z.got.length = (x.n + 1) / 2 then s1.endXfer q z 0 0 else s1

/-- What a site returns for a Halo request (R390): an acknowledgement, an error, or words read. -/
def State.haloReturn (s : State) (edge : Nat) (f : Flit) : State :=
  let k := edge - 2 ^ 20
  let q := k % 12
  match (s.port q).xfers.find? fun x => x.tag = k / 24 && x.mod == decide (k / 12 % 2 = 1) with
  | none => s
  | some x =>
    match f.body with
    | .ack _ sq _ => s.setPort q ((s.port q).putXfer { x with got := if x.got.contains sq then x.got else x.got ++ [sq] })
    | .err _ _ code _ _ => s.endXfer q x 3 code
    | .rdata _ sq _ => s.haloData q x sq f.data
    | _ => s

end Sys2Proof.Machine
end

