-- ==== Sys2Proof/Machine/Flags.lean ====
section
/-!
DEFINITION. The status registers of a tile as views of its state (Tables 2.5, 2.9, 4.5, 5.4 to 5.8, 6.9, 6.10, 6.13,
8.13, 10.11): what a read of a tile CSR returns.
-/

namespace Sys2Proof.Machine

/-- What stands around a tile while a command acts on it: its id, the Cirrus count, the stepping, whether its partition
was booted with the debug policy (R206), is quiescent (R403), the pace of its field (R371; 0:
unpaced) and the credit there of a tile that has spent none. -/
structure Env where
  id : Nat
  now : DWord
  b0 : Bool
  debug : Bool
  quiet : Bool
  pace : Nat
  fresh : Nat
  part : Nat
  bank : Nat := 0
  deriving DecidableEq, Repr

/-- The stored word of a tile CSR. -/
def csrWord (t : Tile) (o : Nat) : Word := Map.get (regReset tileRegs) t.csr o

/-- The tile with the stored word of a CSR replaced. -/
def csrPut (t : Tile) (o : Nat) (v : Word) : Tile := { t with csr := Map.set (regReset tileRegs) t.csr o v }

/-- The tile with the field [hi:lo] of a CSR replaced. -/
def csrField (t : Tile) (o hi lo v : Nat) : Tile := csrPut t o (setBits (csrWord t o) hi lo v)

/-- A counter field of a CSR raised by `k`, saturating at all ones. -/
def csrCount (t : Tile) (o hi lo k : Nat) : Tile :=
  csrField t o hi lo (satAdd (2 ^ (hi + 1 - lo) - 1) (bits (csrWord t o) hi lo) k)

/-- TILE_SR_SEEDID (Table 3.9): its reset value is the tile id, so the stored word marks by bit 31 that a value was written. -/
def seedId (id : Nat) (t : Tile) : Nat := if bit (csrWord t 0x508) 31 then bits (csrWord t 0x508) 16 0 else id
@[inherit_doc seedId] def putSeed (t : Tile) (v : Nat) : Tile := csrPut t 0x508 (BitVec.ofNat 32 (2 ^ 31 + v % 2 ^ 17))

/-- RUN (Table 6.9): an invocation is running on the tile. -/
def runBit (t : Tile) : Bool :=
  match t.seq with
  | .running => true
  | .ending => true
  | .stopped => true
  | _ => false

/-- SEQ_STATUS (Table 6.9). -/
def seqStatus (t : Tile) : Word :=
  BitVec.ofNat 32 (t.fcause <<< 16 + nb (t.seq = .ended) * 8 + nb t.waiting * 4 + nb t.fault * 2 + nb (runBit t))

/-- The region descriptor n. -/
def region (t : Tile) (n : Nat) : Region := Map.get (fun _ => {}) t.regions n

/-- The tile with region descriptor n replaced. -/
def setRegion (t : Tile) (n : Nat) (r : Region) : Tile :=
  { t with regions := Map.set (fun _ => {}) t.regions n r }

/-- The tail offset (R130); 0 while SIZE is 0, where R130 gives none (DESIGN CHOICE, log entry 61). -/
def Region.tail (r : Region) : Nat := if r.size = 0 then 0 else (r.head + r.occ) % r.size

/-- TILE_RG_BASE (Table 5.4). -/
def rgBaseWord (r : Region) : Word := BitVec.ofNat 32 (r.ver <<< 28 + r.base)

/-- TILE_RG_SIZE (Table 5.5). -/
def rgSizeWord (r : Region) : Word :=
  BitVec.ofNat 32 (nb r.swz <<< 31 + nb r.resident <<< 30 + r.prod <<< 27 + r.cons <<< 24 + r.size)

/-- The set named by a set number. -/
def accSet (o : Ope) (k : Nat) : AccSet := if k = 0 then o.set0 else o.set1

/-- The OPE with a set replaced. -/
def setAcc (o : Ope) (k : Nat) (a : AccSet) : Ope := if k = 0 then { o with set0 := a } else { o with set1 := a }

/-- OPE.MUL and OPE.CUBE instructions of the queue. -/
def queuedProducts (o : Ope) : Nat :=
  (o.queue.filter fun e => match e with | .mul _ => true | .drn _ => false).length

/-- PEND (Table 2.5): the products issued and not yet completed (R149). -/
def pend (o : Ope) : Nat :=
  queuedProducts o + o.set0.prods.length + (o.set1.prods.filter fun p => !p.cpx).length + o.zero.length

/-- The code of a set's phase (Table 2.5). -/
def setCode (a : AccSet) : Nat :=
  match a.phase with
  | .empty => 0
  | .accumulating => 1
  | .ready => 1
  | .draining => 2
  | .held => 3

/-- A drain of the set drains a complex product: that of the products it holds, else of the last zero-mask product (R59, R177). -/
def accCpx (a : AccSet) : Bool := if a.prods.isEmpty then a.zcpx else a.prods.any fun p => p.cpx

/-- A set's replay is in progress until its check passes (R67, Table 2.5). -/
def replaying (a : AccSet) : Bool := decide (1 < a.attempt) && decide (a.phase ≠ .held)

/-- A set's product is streaming, filling, draining or checking (Table 2.5): not one that only waits for its OPE.DRN or holds its
token. -/
def busySet (a : AccSet) : Bool := decide (a.phase = .accumulating) || decide (a.phase = .draining)

/-- OPE_STATUS (Table 2.5); FAULT is stored in the CSR. -/
def opeStatus (t : Tile) : Word :=
  let o := t.ope
  BitVec.ofNat 32 (min 3 (pend o) <<< 16 + setCode o.set1 <<< 10 + setCode o.set0 <<< 8 +
    nb (replaying o.set0 || replaying o.set1) * 128 + nb o.cube * 64 + (csrWord t 0x400).toNat % 4 / 2 * 2 +
    nb (o.feed.isSome || busySet o.set0 || busySet o.set1))

/-- OPE_PROFILE (Table 2.9). -/
def opeProfile (b0 : Bool) : Word := if b0 then 0x4305 else 0x4204

/-- The scalars that a vector operation will deliver (R115, R151). -/
def vopDest : VOp → List Nat
  | .ppop f => [f.sb.toNat]
  | .sum .argmax f => [f.sd.toNat, f.sd.toNat + 1]
  | .sum _ f => [f.sd.toNat]
  | .movVS f => [f.s.toNat]
  | .movPS f => [f.s.toNat]
  | _ => []

/-- The pending scalars (R115). -/
def pendingScalars (t : Tile) : List Nat := t.vq.flatMap fun e => vopDest e.op

/-- VEC_STATUS (Table 4.5); FAULT is stored in the CSR. A re-execution runs within the command that began it, so REPLAY
reads 0 between commands. -/
def vecStatus (t : Tile) : Word :=
  let s := t.vq.any fun e => match e.op with | .sum _ _ => true | _ => false
  BitVec.ofNat 32 (t.vq.length <<< 8 + nb s * 64 + (csrWord t 0x600).toNat % 4 / 2 * 2 + nb (!t.vq.isEmpty))

/-- Bytes of site memory that one operand flit of a transfer covers: a compare-swap flit covers half (R259). -/
def flitBytes (k : NetKind) : Nat := if k = .atom 4 then 16 else 32

/-- Units of 8 flits between the boundaries of the site address: first flit index and flits (R231, R259). `b` is the
bytes a flit covers. -/
def unitEnds (addr b : Nat) : Nat → Nat → Nat → List (Nat × Nat)
  | 0, _, _ => []
  | fuel + 1, seq, len =>
    if len ≤ seq then []
    else
      let n := min (len - seq) (8 - ((addr + b * seq) / b) % 8)
      (seq, n) :: unitEnds addr b fuel (seq + n) len

/-- The units of a transfer (R231); a send's groups of 8 flits (R237). -/
def units (x : Transfer) : List (Nat × Nat) :=
  if x.kind = .send then unitEnds 0 32 x.len 0 x.len else unitEnds x.addr (flitBytes x.kind) x.len 0 x.len

/-- A unit has been answered: every flit of a pull has arrived, a push or an atomic is acknowledged. -/
def unitDone (x : Transfer) (u : Nat × Nat) : Bool :=
  match x.kind with
  | .pull => (List.range u.2).all fun i => x.got.contains (u.1 + i)
  | .atom _ => x.acked.contains u.1 && (x.rg = x.rrg || (List.range u.2).all fun i => x.got.contains (u.1 + i))
  | _ => x.acked.contains u.1

/-- Memory units outstanding for the tile (OUTST of Table 8.13): issued and neither answered nor answered with an error. -/
def outstanding (t : Tile) : Nat :=
  (t.net.map fun x =>
    if x.kind = .send then 0
    else ((units x).filter fun u => u.1 < x.issued && !unitDone x u && !x.erred.contains u.1).length).sum

/-- RTR_STATUS (Table 8.13); RDFAULT and RDVALID are stored in the CSR. -/
def rtrStatus (t : Tile) : Word :=
  BitVec.ofNat 32 (t.rtr.linkFail.headD 0 <<< 24 + bits (csrWord t 0x900) 23 15 <<< 15 + min 32 (outstanding t) <<< 5 +
    t.rtr.cmb.length)

/-- SEQ_SREG (Table 6.13): reads 0 unless the partition is quiescent (R184). -/
def sregWord (e : Env) (t : Tile) (o : Nat) : Word :=
  let v := Map.get (fun _ => 0#64) t.sregs ((o - 0x800) / 8)
  if e.quiet then (if o % 8 = 0 then v.setWidth 32 else (v >>> 32).setWidth 32) else 0

/-- A region register (Tables 5.4 to 5.8). -/
def rgWord (t : Tile) (o : Nat) : Word :=
  if 0x200 ≤ o then BitVec.ofNat 32 (region t ((o - 0x200) / 4)).occ
  else
    let r := region t ((o - 0x100) / 16)
    match o % 16 with
    | 0 => rgBaseWord r
    | 4 => rgSizeWord r
    | 8 => BitVec.ofNat 32 r.head
    | _ => BitVec.ofNat 32 r.tail

/-- A read of the tile CSR at offset `o`; an offset with no register reads 0 (R161). The detector's registers read their
reset values in a partition booted without the debug policy (R210). -/
def csrRead (e : Env) (t : Tile) (o : Nat) : Word :=
  match regAt tileRegs o with
  | none => 0
  | some r =>
    if o = 0x0 then seqStatus t
    else if o = 0x4 then BitVec.ofNat 32 t.pc
    else if 0x100 ≤ o && o < 0x240 then rgWord t o
    else if o = 0x508 then BitVec.ofNat 32 (seedId e.id t)
    else if o = 0x400 then opeStatus t
    else if o = 0x410 then opeProfile e.b0
    else if o = 0x600 then vecStatus t
    else if 0x700 ≤ o && o < 0x714 then
      (if e.debug then (if o = 0x700 then csrWord t o ||| 1 else csrWord t o) else BitVec.ofNat 32 r.reset)
    else if 0x800 ≤ o && o < 0x900 then sregWord e t o
    else if o = 0x900 then rtrStatus t
    else if o = 0x90C then BitVec.ofNat 32 ((csrWord t o).toNat / 4096 % 16 * 4096 + t.rtr.stage.length)
    else csrWord t o

end Sys2Proof.Machine
end

