-- ==== Sys2Proof/Machine/TileOps.lean ====
section
/-!
DEFINITION. The operations that every instruction of a tile shares: stopping the tile (R137, R155, R438), scalar, vector
and predicate registers, reads and writes of scratchpad words with parity and injection (R142, R447), regions
(R130 to R134), and the word of undefined contents (R125, R212).
-/

namespace Sys2Proof.Machine

/-- A tile under a command, with the counter of free values and the error-log records raised so far. -/
structure TS where
  t : Tile
  free : Nat
  recs : List Rec := []
  deriving DecidableEq, Repr

/-- How a part of an instruction ends on its tile: it took effect, it must wait, or it stopped the tile. -/
inductive Res where
  | ok (ts : TS)
  | wait
  | halt (ts : TS)
  deriving DecidableEq, Repr

/-- Go on with `f` where the first part took effect. -/
def Res.andThen (r : Res) (f : TS → Res) : Res :=
  match r with
  | .ok ts => f ts
  | .wait => .wait
  | .halt ts => .halt ts

/-- The tile changed by `f`. -/
def TS.upd (ts : TS) (f : Tile → Tile) : TS := { ts with t := f ts.t }

/-- The tile with a record raised. -/
def TS.raise (ts : TS) (r : Rec) : TS := { ts with recs := ts.recs ++ [r] }

/-- CSR words for DETAIL of a record (Table 18.3). -/
def csrWords (e : Env) (t : Tile) (l : List Nat) : List Word := l.map (csrRead e t)

/-- The sequencer stops the tile (R155): FAULT and FCAUSE are set, the PC stays at the stopped instruction, and a
hard-fault record of SOURCE `src` is raised. A tile that is stopped already keeps its first cause and PC (log entry 62); the record of
the later fault is raised all the same. -/
def stopWith (e : Env) (ts : TS) (fcause pc src code addr : Nat) (regs : List Nat) (inj : Bool) : Res :=
  let t := if ts.t.seq = .stopped then ts.t
    else { ts.t with seq := .stopped, fault := true, fcause := fcause, pc := pc, waiting := false }
  .halt { ts with t := t, recs := ts.recs ++ [{ source := src, cls := 1, loc := e.id, offset := pc, code := code,
                                                addr := addr, detail := csrWords e t regs, inj := inj }] }

/-- A stop by the sequencer itself (R146, R148, R182; SOURCE 0x21). -/
def stopSeq (e : Env) (ts : TS) (fcause pc : Nat) : Res := stopWith e ts fcause pc 0x21 fcause 0 [0x0, 0x4, 0x8, 0xC] false

/-- A region fault (R137): FAULT, FCAUSE and FREG of SPD_STATUS are set, FCAUSE 0x5 in SEQ_STATUS; SOURCE 0x20. -/
def stopRegion (e : Env) (ts : TS) (cause rg pc : Nat) : Res :=
  let t := csrField (csrField (csrField ts.t 0x300 19 16 cause) 0x300 15 12 rg) 0x300 1 1 1
  stopWith e { ts with t := t } 5 pc 0x20 cause 0 [0x0, 0x300, 0x304] false

/-- A scratchpad parity stop (R438): FAULT, PARERR and FCAUSE 0x5 in SPD_STATUS, FREG naming the region read. -/
def stopParity (e : Env) (ts : TS) (rg pc port bytes idx : Nat) (inj : Bool) : Res :=
  let t := csrField (csrField (csrField (csrField ts.t 0x300 19 16 5) 0x300 15 12 rg) 0x300 1 1 1) 0x300 2 2 1
  stopWith e { ts with t := t } 5 pc 0x01 (port * 16 + bytes) idx [0x0, 0x300, 0x304] inj

/-- Scalar register n. -/
def sreg (t : Tile) (n : Nat) : DWord := Map.get (fun _ => 0#64) t.sregs n

/-- The tile with scalar register n written. -/
def setSreg (t : Tile) (n : Nat) (v : DWord) : Tile := { t with sregs := Map.set (fun _ => 0#64) t.sregs n v }

/-- The 32 words of vector register n. -/
def vreg (t : Tile) (n : Nat) : List Word := Map.getMany (fun _ => 0#32) t.vregs (32 * n) 32

/-- The tile with vector register n written. -/
def setVreg (t : Tile) (n : Nat) (l : List Word) : Tile :=
  { t with vregs := Map.setMany (fun _ => 0#32) t.vregs (32 * n) l }

/-- Predicate register n. -/
def preg (t : Tile) (n : Nat) : DWord := Map.get (fun _ => 0#64) t.pregs n

/-- The tile with predicate register n written. -/
def setPreg (t : Tile) (n : Nat) (v : DWord) : Tile := { t with pregs := Map.set (fun _ => 0#64) t.pregs n v }

/-- The next free value (log entry 4). -/
def TS.draw (ts : TS) : TS × DWord := ({ ts with free := ts.free + 1 }, Config.freeValue ts.free)

/-- The bank of a word address under a mapping (R120). -/
def bankOf (swz : Bool) (a : Nat) : Nat := if swz then (a % 32) ^^^ (a / 32 % 32) else a % 32

/-- The physical word index of a word address under a mapping (R120). -/
def physIdx (swz : Bool) (a : Nat) : Nat := a / 32 * 32 + bankOf swz a

/-- The word address of offset o in a region (R130). -/
def rgAddr (r : Region) (o : Nat) : Nat := if r.size = 0 then r.base else r.base + o % r.size

/-- The physical word index of offset o in a region. -/
def rgPhys (r : Region) (o : Nat) : Nat := physIdx r.swz (rgAddr r o)

/-- The free words of a region. -/
def Region.space (r : Region) : Nat := r.size - r.occ

/-- Words that a drained column takes (R178, R180). -/
def colWords (cube : Bool) (fmt : Nat) : Nat := if cube then elemBits fmt * 4 / 32 else elemBits fmt

/-- Words of a block staged for the reduction (R177, R274). -/
def stageWords (fmt : Nat) : Nat := if fmt = 0 then 1024 else 512

/-- Words of one drained block in its region (R178 to R180). -/
def drainWords (d : Drain) : Nat :=
  if d.dst = 1 then stageWords d.fmt else if d.cube then 4 * colWords true d.fmt else 32 * colWords false d.fmt

/-- A cell of a set. -/
def cellAt (a : AccSet) (k : Nat) : Word := Map.get (fun _ => 0#32) a.cells k

/-- A drained element (R60, R92, R93, R97): converted, flushed in its target. -/
def drainCode (id : Nat) (t : Tile) (d : Drain) (i j : Nat) (w : Word) : Nat :=
  let F := match fmtOf d.fmt with | some F => F | none => fp32
  let draw := if d.rnd then
      some (srDraw (bits (csrWord t 0x500) 15 0) (csrWord t 0x504).toNat (seedId id t) 0
        (d.ord * 1024 + 32 * i + j))
    else none
  flushCode F (convert F d.sat draw (f32 w))

/-- The words of column j of a drained block of `rows` rows (R178, R180). -/
def columnWords (id : Nat) (t : Tile) (a : AccSet) (d : Drain) (rows j : Nat) : List Word :=
  let tw := elemBits d.fmt
  wordsOf (packNat tw ((List.range rows).map fun i => drainCode id t d i j (cellAt a (33 * i + j)))) (rows * tw / 32)

/-- Rows and columns of a drained block (R60, R180). -/
def blockSide (d : Drain) : Nat := if d.cube then 4 else 32

/-- The issue number by which a set takes its turn (R52): the least of the products it holds; of a set whose products all had zero
masks, that of the first of them once its drain is in force. Such a product itself completes at the feed (R59), so that a set of
them without an OPE.DRN holds nothing back (DEDUCED, log entry 63). -/
def setSeq (a : AccSet) : Option Nat :=
  match a.prods with
  | [] => if a.drn.isSome then a.zfirst else none
  | p :: l => some (l.foldl (fun m q => min m q.seq) p.seq)

/-- The drains in force or queued, in the order in which they are released (R52). -/
def pendingDrains (o : Ope) : List Drain :=
  let later := match setSeq o.set0, setSeq o.set1 with | some a, some b => decide (b < a) | _, _ => false
  let sets := if later then [o.set1.drn, o.set0.drn] else [o.set0.drn, o.set1.drn]
  sets.filterMap id ++ o.queue.flatMap fun x => match x with
    | .drn d => if d.cpx then [d, d] else [d]
    | .mul _ => []

/-- The words that the drains of a list will write, `done` standing before them: places in the free part of their regions alone, since a
drain whose destination is still occupied waits for space and touches no word that a reader may rely on (R133, R192). -/
def targetsAfter (t : Tile) (done : List Drain) : List Drain → List Nat
  | [] => []
  | d :: l =>
    let r := region t d.drg
    let o := ((done.filter fun q => q.drg = d.drg).map drainWords).sum
    (((List.range (drainWords d)).filter fun i => decide (o + i < r.space)).map fun i => rgPhys r (r.tail + o + i)) ++
      targetsAfter t (done ++ [d]) l

/-- The words of the drain destinations whose tokens are not released (R54): what they read as is not defined. -/
def drainTargets (t : Tile) : List Nat := targetsAfter t [] (pendingDrains t.ope)

/-- Every bit that some stored word of the scratchpad has set. -/
def storedBits (t : Tile) : Word := t.spd.foldl (fun a e => a ||| e.2) 0

/-- Every bit that some word of a block being drained has set (R212). -/
def drainedBits (id : Nat) (t : Tile) : Word :=
  let one (a : AccSet) : List Word :=
    match a.drn with
    | some d => if a.phase = .draining || a.phase = .held then
        (List.range (blockSide d)).flatMap (columnWords id t a d (blockSide d)) else []
    | none => []
  (one t.ope.set0 ++ one t.ope.set1).foldl (fun x w => x ||| w) 0

/-- A word of undefined contents (R125, R212): each bit is 0 or the bit of a word that the tile's scratchpad holds or that its
drain is writing. -/
def undefWord (id : Nat) (ts : TS) : TS × Word :=
  let (ts, v) := ts.draw
  (ts, v.setWidth 32 &&& (storedBits ts.t ||| drainedBits id ts.t))

/-- KIND of TILE_INJ (Table 18.6). -/
def injKind (t : Tile) : Nat := bits (csrWord t 0xB00) 27 24
/-- ARG of TILE_INJ_ARG. -/
def injArg (t : Tile) : Nat := bits (csrWord t 0xB04) 16 0
/-- BIT of TILE_INJ. -/
def injBit (t : Tile) : Nat := bits (csrWord t 0xB00) 20 16
/-- The injection has taken effect: KIND returns to 0 and FIRED is set (R447). -/
def injFire (t : Tile) : Tile := csrField (csrField t 0xB00 27 24 0) 0xB00 31 31 1

/-- A parity failure is recorded and counted (R142, Tables 5.10 to 5.12). -/
def parityRecord (t : Tile) (port bytes idx : Nat) : Tile :=
  let t := csrCount t 0x308 31 0 1
  let t := csrField t 0x300 2 2 1
  if bit (csrWord t 0x304) 31 then t
  else csrPut t 0x304 (BitVec.ofNat 32 (2 ^ 31 + port <<< 28 + bytes <<< 24 + idx))

/-- The words of a list as written by the vector engine through region `rg`, or by the sequencer, with nothing yet that orders a read of
another unit after the write (R127, R152). -/
def loosen (vec : Bool) (rg : Option Nat) (old new : Tile) (l : List Nat) : Tile :=
  let w (t : Tile) (i : Nat) : Word := Map.get (fun _ => 0#32) t.spd i
  { new with loose := (l.filterMap fun i => if w old i = w new i then none else some ⟨i, vec, rg, w old i, w new i⟩) ++ new.loose }

/-- The writes of one of the two that are now ordered before what follows: all of them, or those of the `n` words of a region from
offset `o` (R152, R202). -/
def orderAll (vec : Bool) (t : Tile) : Tile := { t with loose := t.loose.filter fun x => x.vec ≠ vec }
@[inherit_doc orderAll] def orderWords (vec : Bool) (r : Region) (o n : Nat) (t : Tile) : Tile :=
  let inside (i : Nat) : Bool :=
    let a := physIdx r.swz i
    decide (r.base ≤ a) && decide (a < r.base + r.size) && decide ((a - r.base + r.size - o) % r.size < n)
  { t with loose := t.loose.filter fun x => x.vec ≠ vec || !inside x.idx }

/-- A write is not ordered before a read by a port through region `via` (none for an absolute access): the reader is not the writer (port
7 the sequencer, port 3 the vector engine), and it does not read through the region that the write was made through, whose occupancy
orders the two (R127, R132, R152). -/
def Loose.openTo (x : Loose) (port : Nat) (via : Option Nat) : Bool :=
  decide (port ≠ if x.vec then 3 else 7) && (x.rg.isNone || decide (x.rg ≠ via))

/-- The word that a port reads where one of the two, `w` or the word before an unordered write, is left open (R127, Table 7.13). -/
def eitherWord (ts : TS) (port idx : Nat) (via : Option Nat) (w : Word) : TS × Word :=
  match ts.t.loose.find? fun x => decide (x.idx = idx) && x.openTo port via && decide (x.new = w) with
  | some x =>
    match ts.draw with
    | (ts1, v) => (ts1, if v.getLsbD 0 then w else x.old)
  | none => (ts, w)

/-- A read of a physical word by a port, through region `via` or by its address: the word, the bytes whose parity failed, and whether an injection made them
fail (R142, R447 kind 1). -/
def readPhys (id : Nat) (ts : TS) (port idx : Nat) (via : Option Nat) : TS × Word × Nat × Bool :=
  let hit := injKind ts.t = 1 && injArg ts.t = idx
  let flips := Map.get (fun _ => 0) ts.t.par idx ||| 2 ^ (injBit ts.t / 8)
  let t1 := if hit then { injFire ts.t with par := Map.set (fun _ => 0) ts.t.par idx flips } else ts.t
  let bad := Map.get (fun _ => 0) t1.par idx
  let t2 := if bad = 0 then t1 else parityRecord t1 port bad idx
  let ts2 := { ts with t := t2 }
  let w := Map.get (fun _ => 0#32) t2.spd idx
  if (drainTargets t2).contains idx then
    let (ts3, u) := undefWord id ts2
    (ts3, u, bad, hit)
  else
    let (ts3, u) := eitherWord ts2 port idx via w
    (ts3, u, bad, hit)

/-- The words of one access, each checked, recorded and counted (R142); with the first that failed: its bytes, its physical index and
whether an injection made it fail. -/
def readEach (id port : Nat) (via : Option Nat) (ts : TS) : List Nat → TS × List Word × Option (Nat × Nat × Bool)
  | [] => (ts, [], none)
  | i :: l =>
    match readPhys id ts port i via with
    | (ts1, w, bad, inj) =>
      match readEach id port via ts1 l with
      | (ts2, ws, fail) => (ts2, w :: ws, if bad = 0 then fail else some (bad, i, inj))

/-- Reads by a port of the tile's own program, through a region or by address: a parity failure stops the tile (R438). -/
def readWords (e : Env) (ts : TS) (port : Nat) (via : Option Nat) (pc : Nat) (l : List Nat) (k : TS → List Word → Res) : Res :=
  match readEach e.id port via ts l with
  | (ts1, ws, none) => k ts1 ws
  | (ts1, _, some (bad, i, inj)) => stopParity e ts1 (via.getD 0) pc port bad i inj

/-- A write of a physical word: its parity is set (R142). -/
def writePhys (t : Tile) (idx : Nat) (w : Word) : Tile :=
  { t with spd := Map.set (fun _ => 0#32) t.spd idx w, par := Map.set (fun _ => 0) t.par idx 0 }

/-- A write of the bytes of a physical word that `m` names: the parity of the bytes written is set. -/
def writeBytes (t : Tile) (idx : Nat) (m : Nat) (w : Word) : Tile :=
  let old := Map.get (fun _ => 0#32) t.spd idx
  let mask : Nat := (List.range 4).foldl (fun a b => if m.testBit b then a + 0xFF <<< (8 * b) else a) 0
  let mk : Word := BitVec.ofNat 32 mask
  { t with
    spd := Map.set (fun _ => 0#32) t.spd idx ((old &&& ~~~mk) ||| (w &&& mk))
    par := Map.set (fun _ => 0) t.par idx (Map.get (fun _ => 0) t.par idx &&& (15 - m % 16)) }

/-- Writes of consecutive region offsets. -/
def writeRegion (t : Tile) (r : Region) (o : Nat) : List Word → Tile
  | [] => t
  | w :: l => writeRegion (writePhys t (rgPhys r o) w) r (o + 1) l

/-- Masked words written at consecutive region offsets. -/
def storeMasked (t : Tile) (r : Region) (m : Nat → Nat) : Nat → Nat → List Word → Tile
  | _, _, [] => t
  | o, i, w :: l => storeMasked (writeBytes t (rgPhys r o) (m i) w) r m (o + 1) (i + 1) l

/-- Physical indices of n consecutive region offsets. -/
def rgSpan (r : Region) (o n : Nat) : List Nat := (List.range n).map fun i => rgPhys r (o + i)

/-- A descriptor is valid (R131). -/
def Region.valid (r : Region) : Bool :=
  decide (r.ver = 1) && decide (1 ≤ r.size) && decide (r.base + r.size ≤ 98304) && decide (r.occ ≤ r.size) &&
    decide (r.head < r.size)

/-- The tail advanced by n (R132). -/
def Region.push (r : Region) (n : Nat) : Region := { r with occ := r.occ + n }

/-- The head advanced by n (R132). -/
def Region.pop (r : Region) (n : Nat) : Region :=
  { r with occ := r.occ - n, head := if r.size = 0 then r.head else (r.head + n) % r.size }

/-- A region named by an instruction as consumer (`out` false) or producer of unit `u`: its descriptor is valid and names
the unit, or the tile stops (R134, R137). -/
def useRegion (e : Env) (ts : TS) (rg u pc : Nat) (out : Bool) (k : Region → Res) : Res :=
  let r := region ts.t rg
  if !r.valid then stopRegion e ts 2 rg pc
  else if (if out then r.prod else r.cons) ≠ u then stopRegion e ts 3 rg pc
  else k r

/-- A scalar an instruction reads or writes is pending, so that it waits (R115, R151). -/
def scalarBusy (t : Tile) (l : List Nat) : Bool := l.any fun n => (pendingScalars t).contains n

/-- The instruction waits while one of the scalars is pending. -/
def needScalars (ts : TS) (l : List Nat) (k : Res) : Res := if scalarBusy ts.t l then .wait else k

end Sys2Proof.Machine
end

