-- ==== Sys2Proof/Machine/Sequencer.lean ====
section
/-!
DEFINITION. Issue by the tile sequencer (R144 to R155), and what the control, system, scalar and region instructions do
on their tile (R156 to R164).
-/

namespace Sys2Proof.Machine

/-- How an instruction leaves the sequencer: it issued and the next index follows, it transferred control, it is held and
issues later (with what it has done so far), or it stopped the tile. -/
inductive Issue where
  | next (ts : TS)
  | jump (ts : TS) (pc : Nat)
  | hold (ts : TS)
  | halt (ts : TS)
  deriving DecidableEq, Repr

/-- A part of an instruction as the outcome of its issue; `ts` is the tile before it. -/
def Res.issue (r : Res) (ts : TS) : Issue :=
  match r with
  | .ok t => .next t
  | .wait => .hold ts
  | .halt t => .halt t

/-- LEN of SEQ_PROG (Table 6.11). -/
def progLen (t : Tile) : Nat := bits (csrWord t 0x8) 15 0

/-- The parity of a half of instruction `pc` fails (R439): a fault has hit its bits or an injection is armed for it (Table 18.5). -/
def badInstr (t : Tile) (pc : Nat) : Bool :=
  decide (Map.get (fun _ => 0) t.ipar (2 * pc) ≠ 0) || decide (Map.get (fun _ => 0) t.ipar (2 * pc + 1) ≠ 0) ||
    (decide (injKind t = 4) && decide (injArg t % 4096 = pc))

/-- An instruction of the tile issues now: the first of its invocation starts the step (R410), the last ends a wait (R411). -/
def Tile.issued (t : Tile) (now : DWord) (pc : Nat) : Tile :=
  { t with pc := pc, waiting := false, firstIssue := t.firstIssue.or (some now), lastIssue := now }

/-- Issue of one instruction (R148, R149, R439, R447 kind 4): a tile whose sequencer is not running issues nothing; issue
at or beyond LEN stops the tile; a half of the instruction whose parity fails stops it before any effect; WAITING shows a held issue. -/
def issueTile (e : Env) (ts : TS) (f : TS → Issue) : TS :=
  let pc := ts.t.pc
  if ts.t.seq ≠ .running then ts
  else if progLen ts.t ≤ pc then
    match stopSeq e ts 2 pc with
    | .halt u => u
    | _ => ts
  else if badInstr ts.t pc then
    let hit : Bool := injKind ts.t = 4 && injArg ts.t % 4096 = pc
    match stopWith e (if hit then ts.upd injFire else ts) 3 pc 0x04 3 0 [0x0, 0x4, 0x8, 0xC] hit with
    | .halt u => u
    | _ => ts
  else
    match f ts with
    | .next u => u.upd fun t => t.issued e.now (pc + 1)
    | .jump u k => u.upd fun t => t.issued e.now k
    | .hold u => u.upd fun t => { t with waiting := true }
    | .halt u => u

/-- A reserved encoding stops the tile with FCAUSE 0x1 (R146). -/
def legally (e : Env) (ok : Bool) (ts : TS) (k : Issue) : Issue :=
  if ok then k else (stopSeq e ts 1 ts.t.pc).issue ts

/-- A taken transfer of control to an index: at or beyond LEN it stops the tile and the instruction takes no effect
(R148). `u` is the tile with the instruction's effect. -/
def transfer (e : Env) (ts u : TS) (target : Nat) : Issue :=
  if progLen ts.t ≤ target then (stopSeq e ts 2 ts.t.pc).issue ts else .jump u target

/-- A conditional branch (Table 6.2). -/
def branch (e : Env) (ts : TS) (f : LB) (one : Bool) (c : DWord → DWord → Bool) : Issue :=
  legally e (f.rsv = 0 && f.tgt.toNat < 4096 && (!one || f.sb = 0)) ts
    (if scalarBusy ts.t ([f.sa.toNat] ++ if one then [] else [f.sb.toNat]) then .hold ts
    else if c (sreg ts.t f.sa.toNat) (sreg ts.t f.sb.toNat) then transfer e ts ts f.tgt.toNat
    else .next ts)

/-- JMP (Table 6.2). -/
def tJmp (e : Env) (ts : TS) (f : LB) : Issue :=
  legally e (f.rsv = 0 && f.tgt.toNat < 4096 && f.sa = 0 && f.sb = 0) ts (transfer e ts ts f.tgt.toNat)

/-- JAL (Table 6.2): the index of the next instruction goes to the scalar that SA names. -/
def tJal (e : Env) (ts : TS) (f : LB) : Issue :=
  legally e (f.rsv = 0 && f.tgt.toNat < 4096) ts
    (if scalarBusy ts.t [f.sa.toNat] then .hold ts
    else transfer e ts (ts.upd fun t => setSreg t f.sa.toNat (BitVec.ofNat 64 (t.pc + 1))) f.tgt.toNat)

/-- JR (Table 6.2): bits [63:12] of the scalar must be 0, else FCAUSE 0x2. The fields that a row of Table 6.2 does not use are not looked at, here and in
JAL, LOOP, NOP, FENCE, TIME and EVENT (R156; DESIGN CHOICE, log entry 138). -/
def tJr (e : Env) (ts : TS) (f : LB) : Issue :=
  legally e (f.rsv = 0 && f.tgt.toNat < 4096) ts
    (if scalarBusy ts.t [f.sa.toNat] then .hold ts
    else if 4096 ≤ (sreg ts.t f.sa.toNat).toNat then (stopSeq e ts 2 ts.t.pc).issue ts
    else transfer e ts ts (sreg ts.t f.sa.toNat).toNat)

/-- LOOP (R157): the decremented value is written whether or not the branch is taken; a target at or beyond LEN that
would be taken leaves it undone. -/
def tLoop (e : Env) (ts : TS) (f : LB) : Issue :=
  legally e (f.rsv = 0 && f.tgt.toNat < 4096) ts
    (if scalarBusy ts.t [f.sa.toNat] then .hold ts
    else
      let v := sreg ts.t f.sa.toNat - 1
      let u := ts.upd fun t => setSreg t f.sa.toNat v
      if v = 0 then .next u else transfer e ts u f.tgt.toNat)

/-- CTL.END (R154): nothing issues after it; the end is reported by TILE_END_REPORT. -/
def tEnd (e : Env) (ts : TS) (f : LB) : Issue :=
  legally e (f.rsv = 0 && f.tgt = 0 && f.sa = 0 && f.sb = 0) ts
    (.next (ts.upd fun t => { t with seq := .ending }))

/-- The operands of a NOP (Table 6.2). -/
def tNop (e : Env) (ts : TS) (f : LSI) : Issue := legally e (f.rsv = 0) ts (.next ts)

/-- No earlier instruction of the OPE is unfinished: its queue is empty and every product has been drained and released
(R153, R154). -/
def opeIdle (o : Ope) : Bool :=
  o.queue.isEmpty && o.feed.isNone && o.replay.isEmpty && o.zero.isEmpty && o.set0.phase = .empty &&
    o.set1.phase = .empty

/-- Every transfer of the tile is complete (R153, R183). -/
def netIdle (t : Tile) : Bool := t.net.isEmpty

/-- SYS.FENCE (R153): IMM[2:0] names the OPE, the vector engine and the router. -/
def tFence (e : Env) (ts : TS) (f : LSI) : Issue :=
  legally e (f.rsv = 0 && f.imm.toNat < 8) ts
    (if (bit f.imm 0 && !opeIdle ts.t.ope) || (bit f.imm 1 && !ts.t.vq.isEmpty) || (bit f.imm 2 && !netIdle ts.t) then .hold ts
    else .next (if bit f.imm 1 then ts.upd (orderAll true) else ts))

/-- SYS.TIME (R157, R374): the Cirrus count at issue. -/
def tTime (e : Env) (ts : TS) (f : LSI) : Issue :=
  legally e (f.rsv = 0) ts
    (if scalarBusy ts.t [f.sd.toNat] then .hold ts else .next (ts.upd fun t => setSreg t f.sd.toNat e.now))

/-- SYS.EVENT (R158): posts once (the flit's way to the site die is EVENT_POST's), and issue waits until the job service has accepted it. The loader refuses the other
module codes (R158), so that the sequencer meets them as a value outside the rule's list (R146). -/
def tEvent (e : Env) (ts : TS) (f : LSI) : Issue :=
  let code := f.imm.toNat % 65536
  legally e (f.rsv = 0 && (256 ≤ code || code = 1)) ts
    (if scalarBusy ts.t [f.sa.toNat] then .hold ts
    else
      match ts.t.event with
      | none => .hold (ts.upd fun t => { t with event := some { code := code, value := sreg ts.t f.sa.toNat } })
      | some ev => if ev.accepted then .next (ts.upd fun t => { t with event := none }) else .hold ts)

/-- The scalar operations (Table 6.3, R160). -/
inductive AFn where
  | add | sub | mul | and | or | xor | sll | srl | sra | slt | sltu | min | max | minu | maxu
  deriving DecidableEq, Repr

/-- 64-bit two's-complement arithmetic that wraps; shifts use the low 6 bits of the amount (R160). -/
def alu (fn : AFn) (a b : DWord) : DWord :=
  match fn with
  | .add => a + b
  | .sub => a - b
  | .mul => a * b
  | .and => a &&& b
  | .or => a ||| b
  | .xor => a ^^^ b
  | .sll => a <<< (b.toNat % 64)
  | .srl => a >>> (b.toNat % 64)
  | .sra => a.sshiftRight (b.toNat % 64)
  | .slt => if a.slt b then 1 else 0
  | .sltu => if a < b then 1 else 0
  | .min => if a.slt b then a else b
  | .max => if a.slt b then b else a
  | .minu => if a < b then a else b
  | .maxu => if a < b then b else a

/-- A scalar register instruction (Table 6.3). -/
def tAlu (e : Env) (ts : TS) (f : LSR) (fn : AFn) : Issue :=
  legally e (f.rsv = 0) ts
    (if scalarBusy ts.t [f.sd.toNat, f.sa.toNat, f.sb.toNat] then .hold ts
    else .next (ts.upd fun t => setSreg t f.sd.toNat (alu fn (sreg t f.sa.toNat) (sreg t f.sb.toNat))))

/-- MOV (Table 6.3). -/
def tMov (e : Env) (ts : TS) (f : LSR) : Issue :=
  legally e (f.rsv = 0 && f.sb = 0) ts
    (if scalarBusy ts.t [f.sd.toNat, f.sa.toNat] then .hold ts
    else .next (ts.upd fun t => setSreg t f.sd.toNat (sreg t f.sa.toNat)))

/-- A scalar immediate instruction: IMM is sign-extended (Table 6.3). -/
def tAluImm (e : Env) (ts : TS) (f : LSI) (fn : AFn) : Issue :=
  legally e (f.rsv = 0) ts
    (if scalarBusy ts.t [f.sd.toNat, f.sa.toNat] then .hold ts
    else .next (ts.upd fun t => setSreg t f.sd.toNat (alu fn (sreg t f.sa.toNat) (f.imm.signExtend 64))))

/-- LI, LIU and LIH (Table 6.3): SA is 0; `v` gives the new value from the old one and IMM. -/
def tLoadImm (e : Env) (ts : TS) (f : LSI) (v : DWord → Word → DWord) : Issue :=
  legally e (f.rsv = 0 && f.sa = 0) ts
    (if scalarBusy ts.t [f.sd.toNat] then .hold ts
    else .next (ts.upd fun t => setSreg t f.sd.toNat (v (sreg t f.sd.toNat) f.imm)))

/-- The word address of an absolute access: s[sa] + OFF, without wrap (R161). -/
def absAddr (t : Tile) (f : LSM) : Nat := (sreg t f.sa.toNat).toNat + f.off.toNat

/-- An absolute access to `n` words (R161): OFF[17] is 0; an odd address of a pair or a reserved address stops the tile
under R137 with FCAUSE 0x1. It names no region, and FREG then reads 0, which the manual does not state (DESIGN CHOICE, log entry 65). -/
def absolute (e : Env) (ts : TS) (f : LSM) (n : Nat) (busy : List Nat) (k : Nat → Issue) : Issue :=
  legally e (f.rsv = 0 && f.off.toNat < 2 ^ 17) ts
    (if scalarBusy ts.t busy then .hold ts
    else
      let a := absAddr ts.t f
      if (n = 2 && a % 2 = 1) || 98304 < a + n then (stopRegion e ts 1 0 ts.t.pc).issue ts
      else k a)

/-- LDW and LDD (Table 6.3): the plain mapping, port 7. -/
def tLoad (e : Env) (ts : TS) (f : LSM) (n : Nat) : Issue :=
  absolute e ts f n [f.sd.toNat, f.sa.toNat] fun a =>
    (readWords e ts 7 none ts.t.pc ((List.range n).map fun i => physIdx false (a + i)) fun u ws =>
      .ok (u.upd fun t => setSreg t f.sd.toNat (BitVec.ofNat 64 (packNat 32 (ws.map (·.toNat)))))).issue ts

/-- STW and STD (Table 6.3). -/
def tStore (e : Env) (ts : TS) (f : LSM) (n : Nat) : Issue :=
  absolute e ts f n [f.sd.toNat, f.sa.toNat] fun a =>
    .next (ts.upd fun t =>
      let v := sreg t f.sd.toNat
      let t1 := writePhys t (physIdx false a) (v.setWidth 32)
      let t2 := if n = 2 then writePhys t1 (physIdx false (a + 1)) ((v >>> 32).setWidth 32) else t1
      loosen false none t t2 ((List.range n).map fun i => physIdx false (a + i)))

/-- CSRR (R161): OFF[17:16] and OFF[1:0] are 0; an offset that holds no register returns 0. -/
def tCsrr (e : Env) (ts : TS) (f : LSM) : Issue :=
  legally e (f.rsv = 0 && f.off.toNat < 2 ^ 16 && f.off.toNat % 4 = 0) ts
    (if scalarBusy ts.t [f.sd.toNat] then .hold ts
    else .next (ts.upd fun t => setSreg t f.sd.toNat ((csrRead e t f.off.toNat).setWidth 64)))

/-- An unfinished instruction of a unit names the region (R135, R140). -/
def vopRegions : VOp → List Nat
  | .vld f => [f.rg.toNat]
  | .vst f => [f.rg.toNat]
  | .vstCvt f => [f.rg.toNat]
  | .vstMx f => [f.rg.toNat, f.srg.toNat]
  | .vqPop f => [f.rg.toNat]
  | .vqPush f => [f.rg.toNat]
  | _ => []

/-- The regions a product reads (Table 6.6): scale regions for the MX formats only. -/
def productRegions (p : Product) : List Nat :=
  [p.crg, p.rrg] ++ (if isMX p.cfmt && !p.cube then [p.csrg, p.rsrg] else [])

/-- The regions of an OPE queue entry. -/
def entryRegions : OpeEntry → List Nat
  | .mul p => productRegions p
  | .drn d => [d.drg]

/-- The regions of an accumulator set that still holds products. -/
def setRegions (a : AccSet) : List Nat :=
  a.prods.flatMap productRegions ++ (match a.drn with | some d => [d.drg] | none => [])

/-- The regions of a NET transfer. -/
def netRegions (x : Transfer) : List Nat :=
  match x.kind with
  | .atom _ => [x.rg, x.rrg]
  | _ => [x.rg]

/-- The regions named by instructions not yet completed. An OPE.DRN to reduction counts until the acknowledgement of its bucket frees its
staging record, since its block stands in the region until then; the manual does not say when it completes for this purpose (DESIGN
CHOICE, log entry 68). -/
def busyRegions (t : Tile) : List Nat :=
  t.vq.flatMap (fun v => vopRegions v.op) ++ t.ope.queue.flatMap entryRegions ++ setRegions t.ope.set0 ++
    setRegions t.ope.set1 ++ t.ope.zero.flatMap productRegions ++ t.net.flatMap netRegions ++
    t.rtr.stage.map (·.rg)

/-- The count of a Q instruction (R163): s[sa] when NS is 1, else N; a scalar of 2^17 or above stops the tile. -/
def qCount (t : Tile) (f : LQ) : Nat := if f.ns = 1 then (sreg t f.sa.toNat).toNat else f.n.toNat

/-- A region wait or advance by the sequencer (R133, R163): `unit` is the check of R134 it is under, `can` the condition
it waits for, `upd` its effect, `ord` what it orders (R202). Of several conditions of R137 broken at once the manual names no first:
a count of 2^17 or above, then FCAUSE 2, 3, 4 (DESIGN CHOICE, log entry 64). -/
def tQueue (e : Env) (ts : TS) (f : LQ) (unit : Region → Bool) (can : Region → Nat → Bool)
    (upd : Region → Nat → Region) (ord : Region → Nat → Tile → Tile) : Issue :=
  legally e (f.rsv = 0) ts
    (if scalarBusy ts.t (if f.ns = 1 then [f.sa.toNat] else []) then .hold ts
    else
      let n := qCount ts.t f
      let r := region ts.t f.rg.toNat
      if 2 ^ 17 ≤ n then (stopRegion e ts 4 f.rg.toNat ts.t.pc).issue ts
      else if !r.valid then (stopRegion e ts 2 f.rg.toNat ts.t.pc).issue ts
      else if !unit r then (stopRegion e ts 3 f.rg.toNat ts.t.pc).issue ts
      else if r.size < n then (stopRegion e ts 4 f.rg.toNat ts.t.pc).issue ts
      else if can r n then .next (ts.upd fun t => ord r n (setRegion t f.rg.toNat (upd r n)))
      else .hold ts)

/-- The descriptor that RG.SET writes (R164). -/
def rgFromScalars (a b : DWord) : Region :=
  { ver := bits a 31 28, base := bits a 16 0, swz := bit a 63, resident := bit a 62, prod := bits a 61 59,
    cons := bits a 58 56, size := bits a 48 32, head := bits b 16 0, occ := bits b 48 32 }

/-- A reserved bit of the scalars of RG.SET is set: reserved fields of the images, and every other bit of s[sb]. -/
def rgReserved (a b : DWord) : Bool :=
  decide (bits a 27 17 ≠ 0) || decide (bits a 55 49 ≠ 0) || decide (bits b 31 17 ≠ 0) || decide (bits b 63 49 ≠ 0)

/-- RG.SET (R135, R164): an image whose PROD or CONS is a reserved code is written as it stands (DESIGN CHOICE, log entry 136). -/
def tRgSet (e : Env) (ts : TS) (f : LQ) : Issue :=
  legally e (f.rsv = 0 && f.ns = 0 && f.n = 0) ts
    (if scalarBusy ts.t [f.sa.toNat, f.sb.toNat] then .hold ts
    else
      let a := sreg ts.t f.sa.toNat
      let b := sreg ts.t f.sb.toNat
      let r := rgFromScalars a b
      if (busyRegions ts.t).contains f.rg.toNat then .hold ts
      else if rgReserved a b then (stopSeq e ts 1 ts.t.pc).issue ts
      else if r.ver ≠ 0 && !r.valid then (stopRegion e ts 2 f.rg.toNat ts.t.pc).issue ts
      else .next (ts.upd fun t => setRegion t f.rg.toNat r))

/-- RG.GET (Table 6.4): (OCC << 32) | HEAD. It names a region, whose descriptor must be valid (R137). -/
def tRgGet (e : Env) (ts : TS) (f : LQ) : Issue :=
  legally e (f.rsv = 0 && f.sb = 0 && f.ns = 0 && f.n = 0) ts
    (if scalarBusy ts.t [f.sa.toNat] then .hold ts
    else
      let r := region ts.t f.rg.toNat
      if !r.valid then (stopRegion e ts 2 f.rg.toNat ts.t.pc).issue ts
      else .next (ts.upd fun t => setSreg t f.sa.toNat (BitVec.ofNat 64 (r.occ <<< 32 + r.head))))

/-- The words a to a + n − 1 cleared to +0 with their parity (R139, R140), through the plain mapping, which leaves the
physical index equal to the address. -/
def clearWords (t : Tile) (a n : Nat) : Tile :=
  { t with spd := Map.clearRange t.spd a (a + n), par := Map.clearRange t.par a (a + n) }

/-- SPD.CLR (R140, R164). With s[sb] 0 it clears nothing and reaches no address, whatever s[sa] holds; the manual does not say so (DESIGN
CHOICE, log entry 66). -/
def tSpdClr (e : Env) (ts : TS) (f : LQ) : Issue :=
  legally e (f.rsv = 0 && f.rg = 0 && f.ns = 0 && f.n = 0) ts
    (if scalarBusy ts.t [f.sa.toNat, f.sb.toNat] then .hold ts
    else
      let a := (sreg ts.t f.sa.toNat).toNat
      let n := (sreg ts.t f.sb.toNat).toNat
      if 0 < n && 98304 < a + n then (stopRegion e ts 1 0 ts.t.pc).issue ts
      else if (busyRegions ts.t).any (fun g =>
          let r := region ts.t g
          r.base < a + n && a < r.base + r.size) then .hold ts
      else .next (ts.upd fun t => clearWords t a n))

end Sys2Proof.Machine
end

