-- ==== Sys2Proof/Machine/Net.lean ====
section
/-!
DEFINITION. NET transfers on their tile (R181 to R183, R231, R237, R259): issue, the units handed to the router, the words
that return, and completion in order.
-/

namespace Sys2Proof.Machine

/-- The words a transfer takes of its region. -/
def netWords (x : Transfer) : Nat := 8 * x.len

/-- The words of old values that an atomic returns: a compare-swap pair returns one (R259). -/
def oldWords (x : Transfer) : Nat := if x.kind = .atom 4 then 4 * x.len else 8 * x.len

/-- A transfer writes region `g`: a pull its RG, an atomic its RRG when that differs from RG (R182). -/
def netDest (x : Transfer) (g : Nat) : Nat :=
  match x.kind with
  | .pull => if x.rg = g then netWords x else 0
  | .atom _ => if x.rrg = g && x.rrg ≠ x.rg then oldWords x else 0
  | _ => 0

/-- A transfer reads region `g`. -/
def netSource (x : Transfer) (g : Nat) : Nat :=
  match x.kind with
  | .pull => 0
  | _ => if x.rg = g then netWords x else 0

/-- The words that transfers issued before slot order `l` take at the tail (or head) of region `g`: transfers on one
region occupy consecutive offsets in issue order (R183). -/
def pendingWords (f : Transfer → Nat → Nat) (l : List Transfer) (g : Nat) : Nat := (l.map fun x => f x g).sum

/-- The words that an open SEND into the region has placed (R183). -/
def inSendWords (t : Tile) (g : Nat) : Nat := (t.inSends.map fun x => if x.rg = g then 8 * x.got.length else 0).sum

/-- A free transfer slot of the router (TID of Table 8.5). -/
def freeTid (t : Tile) : Option Nat := (List.range 16).find? fun k => t.net.all fun x => x.tid ≠ k

/-- The layout of the NET scalars (R182): the site address or destination tile, the length, TYPE and BULK. -/
def netScalarsOk (k : NetKind) (a b : DWord) : Bool :=
  (match k with
    | .send => decide (bits a 16 0 < 117600) && decide (bits a 19 17 = 0) && decide (bits a 63 24 = 0)
    | _ => decide (bits a 63 48 = 0) && decide (bits a 47 0 % 32 = 0)) &&
    decide (1 ≤ bits b 15 0) && decide (bits b 15 0 ≤ 12288) && decide (bits b 63 18 = 0)

/-- The transfer that a NET instruction starts, at the offsets that follow the transfers issued before it (R183). -/
def transferOf (t : Tile) (tid : Nat) (k : NetKind) (f : LN) (a b : DWord) : Transfer :=
  let g := f.rg.toNat
  let q := f.rrg.toNat
  let r := region t g
  let rr := region t q
  let src := (r.head + pendingWords netSource t.net g) % max 1 r.size
  let dst (n : Nat) (x : Region) : Nat := (x.tail + pendingWords netDest t.net n + inSendWords t n) % max 1 x.size
  { tid := tid, kind := k, rg := g, rrg := q, addr := if k = .send then 0 else bits a 47 0,
    dest := if k = .send then bits a 16 0 else 0, drg := if k = .send then bits a 23 20 else 0,
    len := bits b 15 0, typ := bits b 16 16, bulk := bit b 17, pc := t.pc,
    off := if k = .pull then dst g r else src, roff := dst q rr }

/-- An open SEND into the region has not yet brought its last flit, so that the words after it have no offset yet. -/
def openInto (t : Tile) (g : Nat) : Bool := t.inSends.any fun x => x.rg = g && !x.done

/-- A NET instruction (R181, R182): the router takes up to 16 (R149). -/
def tNet (e : Env) (ts : TS) (f : LN) (k : NetKind) : Issue :=
  legally e (f.rsv = 0) ts
    (if scalarBusy ts.t [f.sa.toNat, f.sb.toNat] then .hold ts
    else
      let t := ts.t
      let a := sreg t f.sa.toNat
      let b := sreg t f.sb.toNat
      let pc := t.pc
      let g := f.rg.toNat
      if !netScalarsOk k a b then (stopSeq e ts 1 pc).issue ts
      else
        let n := 8 * bits b 15 0
        let start (into : Option Nat) : Res :=
          if into.any (openInto t) then .wait
          else
            match freeTid t with
            | none => .wait
            | some tid => .ok (ts.upd fun t => { t with net := t.net ++ [transferOf t tid k f a b] })
        (useRegion e ts g 3 pc (k = .pull) fun r =>
          if r.size < n then stopRegion e ts 4 g pc
          else
            match k with
            | .atom op =>
              if f.rrg = f.rg then start none
              else useRegion e ts f.rrg.toNat 3 pc true fun q =>
                if q.size < (if op = 4 then n / 2 else n) then stopRegion e ts 4 f.rrg.toNat pc
                else start (some f.rrg.toNat)
            | .pull => start (some g)
            | _ => start none).issue ts)

/-- The transfers issued before one, on the same tile. -/
def earlier (t : Tile) (x : Transfer) : List Transfer := t.net.takeWhile fun y => y.tid ≠ x.tid

/-- The next unit of a transfer to hand to the router. -/
def nextUnit (x : Transfer) : Option (Nat × Nat) := (units x).find? fun u => u.1 = x.issued

/-- A unit may go: fewer than 32 units are outstanding, its destination words are reserved, its source words are present
(R133, R231). -/
def unitReady (t : Tile) (x : Transfer) (u : Nat × Nat) : Bool :=
  let before := earlier t x
  let r := region t x.rg
  let fits : Bool := decide (pendingWords netDest before x.rg + inSendWords t x.rg + 8 * (u.1 + u.2) ≤ r.space)
  let there : Bool := decide (pendingWords netSource before x.rg + 8 * (u.1 + u.2) ≤ r.occ)
  let rr := region t x.rrg
  let old := if x.kind = .atom 4 then 4 * (u.1 + u.2) else 8 * (u.1 + u.2)
  let oldFits : Bool := x.rg = x.rrg ||
    decide (pendingWords netDest before x.rrg + inSendWords t x.rrg + old ≤ rr.space)
  match x.kind with
  | .pull => decide (outstanding t < 32) && fits
  | .push => decide (outstanding t < 32) && there
  | .atom _ => decide (outstanding t < 32) && there && oldFits
  | .send => there

/-- The tile with a transfer replaced. -/
def setTransfer (t : Tile) (x : Transfer) : Tile :=
  { t with net := t.net.map fun y => if y.tid = x.tid then x else y }

/-- Every transfer issued before one has handed its units to the router, or never will: the router's queue is executed in order (R149). -/
def netTurn (t : Tile) (x : Transfer) : Bool := (earlier t x).all fun y => y.failed || (nextUnit y).isNone

/-- The VC that a transfer's requests and sends take (R216): BULK moves every NET transfer onto VC5 (R182; log entry 132). -/
def netVC (x : Transfer) : Nat := if x.bulk then 5 else if x.kind = .send then 4 else 2

/-- Words in groups of 8. -/
def chunk8 : Nat → List Word → List (List Word)
  | 0, _ => []
  | n + 1, l => l.take 8 :: chunk8 n (l.drop 8)

/-- The flits of one unit (Tables 8.5, 8.6): an RD; a WR or AT with its data flits; the flits of a send. `edge` is the edge
tile chosen under R230. CLS, EP, PART and AGE are set at injection. -/
def unitFlits (e : Env) (x : Transfer) (u : Nat × Nat) (edge : Nat) (ws : List Word) : List Flit :=
  let site := x.addr / 2 ^ 42
  let addr := x.addr + flitBytes x.kind * u.1
  let vc := netVC x
  let groups := chunk8 u.2 ws
  let req (op aop : Nat) : Flit :=
    { vc := vc, head := true, tail := op = 1, dest := edge,
      body := .req op site e.id 31 e.part addr u.1 u.2 x.tid 1 0 x.typ aop }
  let datas (op : Nat) : List Flit := (List.range groups.length).map fun i =>
    { vc := vc, head := false, tail := i + 1 = groups.length, dest := edge, body := .reqData op site e.id 31 e.part,
      data := nth [] groups i }
  match x.kind with
  | .pull => [req 1 0]
  | .push => req 2 0 :: datas 2
  | .atom a => req 3 a :: datas 3
  | .send => (List.range groups.length).map fun i =>
      { vc := vc, head := u.1 + i = 0, tail := u.1 + i + 1 = x.len, dest := x.dest,
        body := .send x.drg (u.1 + i) e.id x.tid, data := nth [] groups i }

/-- NET_UNIT_ISSUE on the tile: the next unit of slot `tid` goes to the router's local list (R231). A scratchpad parity
failure of a source word stops the tile (R438). -/
def tUnitIssue (e : Env) (ts : TS) (tid edge : Nat) : Res :=
  match ts.t.net.find? fun x => x.tid = tid with
  | none => .ok ts
  | some x =>
    match nextUnit x with
    | none => .ok ts
    | some u =>
      if x.failed || !netTurn ts.t x || !unitReady ts.t x u then .wait
      else
        let r := region ts.t x.rg
        let idx := if x.kind = .pull then [] else rgSpan r (x.off + 8 * u.1) (8 * u.2)
        readWords e ts 6 (some x.rg) x.pc idx fun ts1 ws =>
          .ok (ts1.upd fun t =>
            let t1 := setTransfer t { x with issued := u.1 + u.2 }
            { t1 with rtr := { t1.rtr with inject := t1.rtr.inject ++ unitFlits e x u edge ws } })

/-- The transfer has all its words (R183). -/
def netDone (x : Transfer) : Bool := !x.failed && decide (x.len ≤ x.issued) && (units x).all (unitDone x)

/-- The first finished SEND that a region has received, and that nothing earlier on the region precedes, advances the tail (R183) once the
region can honour it (R133). -/
def settleSend (t : Tile) (g : Nat) : Tile :=
  match t.inSends.find? fun x => x.rg = g with
  | none => t
  | some x =>
    if x.done && x.before.isEmpty && decide (8 * x.got.length ≤ (region t g).space) then
      let t1 := setRegion t g ((region t g).push (8 * x.got.length))
      { t1 with inSends := t1.inSends.filter fun y => !(y.rg = g && y.src = x.src && y.tid = x.tid && y.off = x.off) }
    else t

/-- The finished SENDs of every region that can advance now. -/
def settleAll (t : Tile) : Tile := (t.inSends.map (·.rg)).foldl settleSend t

/-- The tile once slot `tid` is free: the sends that followed its transfer wait for it no more. -/
def freeSlot (t : Tile) (tid : Nat) : Tile :=
  let t1 : Tile := { t with
    net := t.net.filter fun y => y.tid ≠ tid
    inSends := t.inSends.map fun y : InSend => { y with before := y.before.filter fun k => k ≠ tid } }
  settleAll t1

/-- NET_TRANSFER_COMPLETE: a transfer whose words are complete, and which no earlier transfer precedes at the same end of its
region (into it, or out of it), advances the tail of its destination and the head of its source, and frees its slot (R183, R202). It waits
until the regions can honour the advances (R133). -/
def netAdvances (t : Tile) (x : Transfer) : Bool :=
  (netRegions x).all fun g => decide (netDest x g ≤ (region t g).space) && decide (netSource x g ≤ (region t g).occ)
@[inherit_doc netAdvances]
def tTransferComplete (t : Tile) (tid : Nat) : Tile :=
  match t.net.find? fun x => x.tid = tid with
  | none => t
  | some x =>
    let first := (earlier t x).all fun y => (netRegions x).all fun g =>
      (netDest x g = 0 || netDest y g = 0) && (netSource x g = 0 || netSource y g = 0)
    let sends := t.inSends.all fun y => netDest x y.rg = 0 || y.before.contains tid
    if netDone x && first && sends && netAdvances t x then
      let t1 := if x.kind = .pull then setRegion t x.rg ((region t x.rg).push (netWords x))
        else setRegion t x.rg ((region t x.rg).pop (netWords x))
      let t2 := if netDest x x.rrg = 0 || x.kind = .pull then t1
        else setRegion t1 x.rrg ((region t1 x.rrg).push (netDest x x.rrg))
      freeSlot t2 tid
    else t

/-- A return flit of a pull or an atomic (R231): its words go to their reserved region offset. -/
def tReturn (t : Tile) (tid seq : Nat) (old : Bool) (ws : List Word) : Tile :=
  match t.net.find? fun x => x.tid = tid with
  | none => t
  | some x =>
    let g := if old then x.rrg else x.rg
    let step := if x.kind = .atom 4 then 4 else 8
    let o := if old then x.roff else x.off
    let t1 := if old && x.rg = x.rrg then t else writeRegion t (region t g) (o + step * seq) ws
    setTransfer t1 { x with got := if x.got.contains seq then x.got else x.got ++ [seq] }

/-- An acknowledgement of a unit or of a group of a send (R231, R237). -/
def tAck (t : Tile) (tid seq : Nat) : Tile :=
  match t.net.find? fun x => x.tid = tid with
  | none => t
  | some x => setTransfer t { x with acked := if x.acked.contains seq then x.acked else x.acked ++ [seq] }

/-- An error answer to the unit whose first flit index is `seq`: the transfer never completes (R183). -/
def tErr (t : Tile) (tid seq : Nat) : Tile :=
  match t.net.find? fun x => x.tid = tid with
  | none => t
  | some x => setTransfer t { x with failed := true, erred := if x.erred.contains seq then x.erred else x.erred ++ [seq] }

/-- The vector, OPE and router queues of a tile hold nothing (R154, R403). -/
def queuesEmpty (t : Tile) : Bool := t.vq.isEmpty && t.ope.queue.isEmpty && t.net.isEmpty

/-- TILE_END_REPORT (R154): the end is reported once every queue is empty, PEND is 0, every transfer is complete and no
scalar is pending. A set whose OPE.DRN stands in force without a product has still to drain. -/
def tEndReport (t : Tile) : Tile :=
  if t.seq = .ending && queuesEmpty t && pend t.ope = 0 && (pendingScalars t).isEmpty then { t with seq := .ended, loose := [] }
  else t

end Sys2Proof.Machine
end

