-- ==== Sys2Proof/Machine/Ope.lean ====
section
/-!
DEFINITION. The outer-product engine (spec/02_outer_product_engine.md; R172 to R180; R193 to R212): issue into its
queue, the feed beat with its bank claims and the hazard detector, readiness, draining, the checksum comparison, replay
and release in issue order, and cube mode.
-/

namespace Sys2Proof.Machine

/-- Feed words of one beat of an untransposed operand: w of Table 5.2. -/
def feedWords (fmt : Nat) : Nat :=
  match fmt with
  | 0 => 32
  | 5 => 24
  | 6 => 24
  | _ => 16

/-- The rank k of a format (Table 2.1). -/
def rank (fmt : Nat) : Nat :=
  match fmt with
  | 3 => 2
  | 4 => 2
  | 5 => 4
  | 6 => 4
  | 7 => 4
  | _ => 1

/-- Passes of a product (R55, R56). -/
def passes (p : Product) : Nat := if p.cpx then 4 else if p.cfmt = 0 && !p.cube then 3 else 1

/-- ⌈L / 32⌉. -/
def blocks32 (l : Nat) : Nat := (l + 31) / 32

/-- A product's words of one operand (R174). -/
def operandWords (p : Product) (fmt : Nat) (tr : Bool) : Nat :=
  if p.cube then 8
  else
    let one := if tr then blocks32 p.len * (if fmt = 0 then 1024 else 512) else p.len * feedWords fmt
    if p.cpx then 2 * one else one

/-- The words a product reads of each of its regions (R174). OPE.CUBE with CRG equal to RRG reads both operands from the same words, and the head of the
region advances once (R180; DESIGN CHOICE, log entry 137). -/
def productWords (p : Product) : List (Nat × Nat) :=
  [(p.crg, operandWords p p.cfmt p.ct)] ++ (if p.rrg = p.crg then [] else [(p.rrg, operandWords p p.rfmt p.rt)]) ++
    (if isMX p.cfmt && !p.cube then [(p.csrg, p.len), (p.rsrg, p.len)] else [])

/-- Formats that may meet in a product (R46). -/
def fmtPair (c r : Nat) : Bool :=
  (c = r && c < 3) || ((c = 3 || c = 4) && (r = 3 || r = 4)) || (isMX c && isMX r)

/-- The encodings of OPE.MUL that are not reserved (R46, R129, R146, R172, R173). -/
def omLegal (f : LOM) : Bool :=
  let c := f.cfmt.toNat
  let r := f.rfmt.toNat
  f.rsv = 0 && fmtPair c r && (f.ct = 0 || c < 3) && (f.rt = 0 || r < 3) &&
    (f.cpx = 0 || ((c = 1 || c = 2) && f.set = 0)) && f.crg ≠ f.rrg &&
    (if isMX c then
      f.csrg ≠ f.crg && f.csrg ≠ f.rrg && f.rsrg ≠ f.crg && f.rsrg ≠ f.rrg && f.csrg ≠ f.rsrg &&
        (f.lm1.toNat + 1) % 8 = 0
    else f.csrg = 0 && f.rsrg = 0) && (f.mall = 0 || f.msk = 0)

/-- The product of an OPE.MUL with its mask read at issue (R57, R150). -/
def productOf (t : Tile) (f : LOM) (cont : Bool) : Product :=
  { set := f.set.toNat, cont := cont, cube := false, len := f.lm1.toNat + 1, cfmt := f.cfmt.toNat,
    rfmt := f.rfmt.toNat, crg := f.crg.toNat, rrg := f.rrg.toNat, csrg := f.csrg.toNat, rsrg := f.rsrg.toNat,
    ct := f.ct = 1, rt := f.rt = 1, cpx := f.cpx = 1,
    mask := if f.mall = 1 then ~~~0#32 else (sreg t f.msk.toNat).setWidth 32, pc := t.pc }

/-- Every region a product reads is valid, names the OPE feeds as consumer, and holds the product (R134, R137). -/
def checkOperands (e : Env) (ts : TS) (pc : Nat) (k : Res) : List (Nat × Nat) → Res
  | [] => k
  | (g, n) :: l => useRegion e ts g 1 pc false fun r =>
      if r.size < n then stopRegion e ts 4 g pc else checkOperands e ts pc k l

/-- The pacing credit of a tile of a paced field (R371). -/
def tileCredit (e : Env) (t : Tile) : Int := t.credit.getD e.fresh

/-- A product issues into the OPE queue: at most four entries, at most three products not completed (R149); on a paced
field it waits for credit and spends its cost (R371). -/
def issueProduct (e : Env) (ts : TS) (p : Product) (cost : Nat) : Issue :=
  (checkOperands e ts ts.t.pc
    (if 4 ≤ ts.t.ope.queue.length || 3 ≤ pend ts.t.ope then .wait
    else if e.pace ≠ 0 && decide (tileCredit e ts.t ≤ 0) then .wait
    else .ok (ts.upd fun t =>
      { t with
        credit := if e.pace = 0 then none else some (tileCredit e t - cost)
        ope := { t.ope with queue := t.ope.queue ++ [.mul p] } })) (productWords p)).issue ts

/-- OPE.MUL in either mode (R48, R172). -/
def tOpeMul (e : Env) (ts : TS) (f : LOM) (cont : Bool) : Issue :=
  legally e (omLegal f) ts
    (if scalarBusy ts.t (if f.mall = 1 then [] else [f.msk.toNat]) then .hold ts
    else
      let p := productOf ts.t f cont
      issueProduct e ts p (p.len * passes p))

/-- OPE.CUBE (R73, R180). -/
def tOpeCube (e : Env) (ts : TS) (f : LOC) : Issue :=
  legally e (f.rsv = 0 && (f.fmt = 1 || f.fmt = 2)) ts
    (issueProduct e ts
      { set := f.set.toNat, cont := f.cont = 1, cube := true, len := 4, cfmt := f.fmt.toNat, rfmt := f.fmt.toNat,
        crg := f.crg.toNat, rrg := f.rrg.toNat, csrg := 0, rsrg := 0, ct := false, rt := false, cpx := false,
        mask := 15, pc := ts.t.pc } 4)

/-- What an OPE.DRN of set k issued now drains: whether its product is complex, and whether it is in cube mode. It is the last product
issued to the set and not named by an OPE.DRN yet, in the queue or taken up; a set that then holds none gives one block in the mode of
the set before (DESIGN CHOICE, log entry 71). -/
def drainKind (o : Ope) (k : Nat) : Bool × Bool :=
  let q := o.queue.filterMap fun x => match x with
    | .mul p => if p.set = k || p.cpx then some (p.cpx, p.cube) else none
    | .drn d => if d.set = k || d.cpx then some (false, d.cube) else none
  let a := accSet o k
  match q.getLast?, a.drn with
  | some x, _ => x
  | none, some d => (false, d.cube)
  | none, none => (accCpx a, if a.prods.isEmpty then o.cube && !accCpx a else a.prods.any fun p => p.cube)

/-- The encodings of OPE.DRN that are not reserved (R177). -/
def odLegal (f : LOD) : Bool :=
  let c := f.fmt.toNat
  f.rsv = 0 && (if f.dst = 0 then c < 5 else c < 2 && f.rnd = 0 && f.sat = 0) &&
    (f.rnd = 0 || c = 1 || c = 3 || c = 4) && (f.sat = 0 || c = 3 || c = 4)

/-- OPE.DRN (R177 to R179): the tag and the drain ordinal are taken at issue (R97, R150). A staging region's consumer is the router
(R134, R179); a block larger than its region stops the tile (R137), and only a full region lets it wait (R204). -/
def tOpeDrn (e : Env) (ts : TS) (f : LOD) : Issue :=
  legally e (odLegal f) ts
    (if scalarBusy ts.t (if f.dst = 1 then [f.tag.toNat] else []) then .hold ts
    else
      let t := ts.t
      let tag := if f.dst = 1 then sreg t f.tag.toNat else 0
      let cpx := (drainKind t.ope f.set.toNat).1
      let cube := (drainKind t.ope f.set.toNat).2
      let d : Drain :=
        { set := f.set.toNat, dst := f.dst.toNat, fmt := f.fmt.toNat, rnd := f.rnd = 1, sat := f.sat = 1,
          drg := f.drg.toNat, tag := tag, pc := t.pc, ord := (csrWord t 0x50C).toNat, cpx := cpx, cube := cube }
      let n := drainWords d * (if cpx && f.dst = 0 then 2 else 1)
      if 2 ^ 32 ≤ tag.toNat || (f.dst = 1 && cpx && bits tag 15 0 = 0xFFFF) then (stopSeq e ts 1 t.pc).issue ts
      else if cube && (f.dst = 1 || f.rnd = 1 || f.sat = 1 || 2 < f.fmt.toNat) then (stopSeq e ts 1 t.pc).issue ts
      else
        (useRegion e ts f.drg.toNat 1 t.pc true fun r =>
          if f.dst = 1 && r.cons ≠ 3 then stopRegion e ts 3 f.drg.toNat t.pc
          else if r.size < n then stopRegion e ts 4 f.drg.toNat t.pc
          else if 4 ≤ t.ope.queue.length then .wait
          else .ok (ts.upd fun t =>
            { csrPut t 0x50C (csrWord t 0x50C + (if cpx then 2 else 1)) with
              ope := { t.ope with queue := t.ope.queue ++ [.drn d] } })).issue ts)

/-- The set emptied: +0.0 everywhere (R49). -/
def emptySet : AccSet := {}

/-- A set's drain is named (R177). A set that holds no product is ready at once and drains as one whose products all had zero masks
(R59); of a set to which no product was issued at all the manual says nothing (DESIGN CHOICE, log entry 71). -/
def nameDrain (a : AccSet) (d : Drain) : AccSet :=
  { a with drn := some d, phase := if a.phase = .empty then .ready else a.phase }

/-- OPE.DRN instructions at the head of the queue take effect. A drain of a complex product is named for both sets, ACC1's with the
next tag and ordinal (R97, R177). -/
def takeDrains : Nat → Ope → Ope
  | 0, o => o
  | n + 1, o =>
    match o.queue with
    | .drn d :: q =>
      if d.cpx then
        if o.set0.drn.isNone && o.set1.drn.isNone then
          takeDrains n { o with
            queue := q
            set0 := nameDrain o.set0 { d with set := 0 }
            set1 := nameDrain o.set1 { d with set := 1, tag := d.tag + 1, ord := (d.ord + 1) % 2 ^ 32 } }
        else o
      else if (accSet o d.set).drn.isNone then
        takeDrains n (setAcc { o with queue := q } d.set (nameDrain (accSet o d.set) d))
      else o
    | _ => o

/-- Whether the product at the head of the queue may begin (R48, R53, R56, R74): `some true` begins, `none` stops the
tile with FCAUSE 0x4 (R173), `some false` waits. -/
def mayBegin (o : Ope) (p : Product) : Option Bool :=
  let a := accSet o p.set
  let b := accSet o (1 - p.set)
  let bothEmpty := decide (o.set0.phase = .empty) && decide (o.set1.phase = .empty)
  let joins := p.cont && a.drn.isNone && (decide (a.phase = .accumulating) || decide (a.phase = .ready)) &&
    !a.prods.isEmpty
  let otherCpx := decide (b.phase ≠ .empty) && accCpx b
  if p.cube ≠ o.cube && !bothEmpty then some false
  else if joins then
    if p.cpx then
      if a.prods.any (fun q => !q.cpx) || b.prods.any (fun q => !q.cpx) then none else some true
    else if a.prods.any fun q => q.cpx then none
    else some true
  else if p.cpx then some bothEmpty
  else some (decide (a.phase = .empty) && !otherCpx)

/-- A product takes its place: its region offsets are captured and the cursors raised (R174, R197). -/
def beginProduct (t : Tile) (p : Product) : Tile × Product :=
  let off (g : Nat) : Nat :=
    let r := region t g
    if r.size = 0 then 0 else (r.head + r.cursor) % r.size
  let p1 := { p with cOff := off p.crg, rOff := off p.rrg, csOff := off p.csrg, rsOff := off p.rsrg,
                     seq := t.ope.nextSeq }
  let t1 := (productWords p).foldl (fun t x =>
    let r := region t x.1
    setRegion t x.1 { r with cursor := r.cursor + x.2 }) t
  ({ t1 with ope := { t1.ope with nextSeq := t1.ope.nextSeq + 1 } }, p1)

/-- The format term of the bound (Table 2.4). -/
def formatTerm (p : Product) : Nat := if isMX p.cfmt then 24 else if p.cfmt = 0 then 48 else 16

/-- A set that a product joins or begins (R60, R63). -/
def joinSet (a : AccSet) (p : Product) : AccSet :=
  { a with phase := .accumulating, mask := a.mask ||| p.mask, cf := max a.cf (formatTerm p), prods := a.prods ++ [p] }

/-- A set to which a zero-mask product was issued (R59): the product adds nothing to it. -/
def zeroSet (a : AccSet) (p : Product) : AccSet := { a with zfirst := some (a.zfirst.getD p.seq), zcpx := p.cpx }

/-- A product that has begun is fed next; a zero-mask product feeds nothing and waits to complete (R59). -/
def enterFeed (t : Tile) (p : Product) : Tile :=
  let o := { t.ope with queue := t.ope.queue.tail, cube := p.cube }
  let put (o : Ope) (k : Nat) : Ope :=
    setAcc o k (if p.mask = 0 then zeroSet (accSet o k) p else joinSet (accSet o k) p)
  let o1 := if p.mask = 0 then { o with zero := o.zero ++ [p] } else { o with feed := some p }
  let o2 := put o1 p.set
  { t with ope := if p.cpx then put o2 1 else setAcc o2 (1 - p.set) { accSet o2 (1 - p.set) with zcpx := false } }

/-- What a claim reads (R207): column elements, row elements, column scales, row scales. -/
inductive FeedSrc where
  | col | row | colScale | rowScale
  deriving DecidableEq, Repr

/-- The source code of HZD_LAST0. -/
def srcCode : FeedSrc → Nat
  | .col => 0
  | .row => 1
  | .colScale => 2
  | .rowScale => 3

/-- A product runs in split mode (R124). -/
def splitMode (p : Product) : Bool :=
  !p.cube && (p.cfmt = 0 || p.ct || p.rt || feedWords p.cfmt = 24 || feedWords p.rfmt = 24)

/-- The phase of a read (Table 5.2, R195). -/
def phaseOf (p : Product) (s : FeedSrc) : Nat :=
  if splitMode p then (match s with | .col => 0 | .colScale => 0 | .row => 1 | .rowScale => 1)
  else match s with | .col => 0 | .row => 0 | .colScale => 1 | .rowScale => 1

/-- Element offsets of one operand in feed beat t (Table 7.3), from the captured offset. `part` is πc or πr. -/
def elemOffsets (p : Product) (fmt : Nat) (tr : Bool) (part t : Nat) : List Nat :=
  if p.cube then [2 * t, 2 * t + 1]
  else if tr then
    if fmt = 0 then (List.range 32).map fun r => 1024 * (t / 32) + 32 * r + t % 32
    else if t % 2 = 0 then
      (List.range 32).map fun r => 512 * blocks32 p.len * part + 512 * (t / 32) + 16 * r + t % 32 / 2
    else []
  else (List.range (feedWords fmt)).map fun e => feedWords fmt * p.len * part + feedWords fmt * t + e

/-- πc and πr of a complex pass (Table 7.3). -/
def partC (p : Product) : Nat := if p.cpx then p.pass % 2 else 0
@[inherit_doc partC] def partR (p : Product) : Nat := if p.cpx && (p.pass = 1 || p.pass = 2) then 1 else 0

/-- One read of a feed beat: its source, its region, and its offset counted from the product's first word there. -/
structure FeedRead where
  src : FeedSrc
  rg : Nat
  off : Nat
  deriving DecidableEq, Repr

/-- The region offset of a product's first word of a source: C or S of Table 7.3. -/
def startOff (p : Product) : FeedSrc → Nat
  | .col => p.cOff
  | .row => p.rOff
  | .colScale => p.csOff
  | .rowScale => p.rsOff

/-- The reads of one feed beat (Table 7.3). -/
def beatReads (p : Product) : List FeedRead :=
  let t := p.beat
  let sc (s : FeedSrc) (g : Nat) : List FeedRead :=
    if isMX p.cfmt && !p.cube && t % 8 = 0 then (List.range 8).map fun e => ⟨s, g, t + e⟩ else []
  (elemOffsets p p.cfmt p.ct (partC p) t).map (fun o => ⟨.col, p.crg, o⟩) ++
    (elemOffsets p p.rfmt p.rt (partR p) t).map (fun o => ⟨.row, p.rrg, o⟩) ++
    sc .colScale p.csrg ++ sc .rowScale p.rsrg

/-- One bank-slot claim (R198): bank, phase, source, word address. -/
structure Claim where
  bank : Nat
  phase : Nat
  src : FeedSrc
  addr : Nat
  deriving DecidableEq, Repr

/-- The claims of the beat. -/
def claimsOf (t : Tile) (p : Product) : List Claim :=
  (beatReads p).map fun x =>
    let r := region t x.rg
    let a := rgAddr r (startOff p x.src + x.off)
    { bank := bankOf r.swz a, phase := phaseOf p x.src, src := x.src, addr := a }

/-- A slot claimed by more than one word of the beat. -/
def slotHit (l : List Claim) (c : Claim) : Bool :=
  2 ≤ (l.filter fun d => d.bank = c.bank && d.phase = c.phase).length

/-- The words beyond the first in conflicting slots (R207): φ0 then φ1, banks in order. -/
def excessWords (l : List Claim) : Nat :=
  ((List.range 64).map fun k => (l.filter fun d => d.bank = k % 32 && d.phase = k / 32).length - 1).sum

/-- The claims of the first conflicting slot in R207's order. -/
def firstConflict (l : List Claim) : List Claim :=
  let slot (k : Nat) : List Claim := l.filter fun d => d.bank = k % 32 && d.phase = k / 32
  match (List.range 64).find? fun k => 2 ≤ (slot k).length with
  | some k => slot k
  | none => []

/-- Lower source code first; of one source, the lower address first (R207). -/
def claimLe (a b : Claim) : Bool := srcCode a.src < srcCode b.src || (a.src = b.src && a.addr ≤ b.addr)

/-- The two least claims of a slot. -/
def leastTwo (l : List Claim) : Option (Claim × Claim) :=
  let least (l : List Claim) : Option Claim := l.find? fun a => l.all fun b => claimLe a b
  match least l with
  | none => none
  | some a =>
    match least (l.erase a) with
    | none => none
    | some b => some (a, b)

/-- HZD_LAST0 to HZD_LAST2 for a conflict (Tables 7.10 to 7.12). -/
def hzdWords (p : Product) (attempt : Nat) (a b : Claim) : Word × Word × Word :=
  (BitVec.ofNat 32 (2 ^ 31 + a.phase <<< 30 + a.bank <<< 25 + srcCode a.src <<< 23 + srcCode b.src <<< 21 + a.addr),
    BitVec.ofNat 32 (p.beat <<< 17 + b.addr),
    BitVec.ofNat 32 (p.pass <<< 14 + attempt <<< 12 + p.pc))

/-- The detector of a debug boot on a beat that conflicts (R207, R208, R210): counts, records the first conflict, raises
one record an attempt; under ACTION 1 it stops the tile before the beat's contributions. -/
def hazard (e : Env) (ts : TS) (p : Product) (attempt : Nat) (l : List Claim) (inj : Bool) (k : TS → Product → Res) : Res :=
  match leastTwo (firstConflict l) with
  | none => k ts p
  | some (a, b) =>
    let t1 := csrCount ts.t 0x704 31 0 (excessWords l)
    let act1 := bit (csrWord t1 0x700) 1
    match hzdWords p attempt a b with
    | (w0, w1, w2) =>
      let t2 := if bit (csrWord t1 0x708) 31 then t1 else csrPut (csrPut (csrPut t1 0x708 w0) 0x70C w1) 0x710 w2
      let r : Rec :=
        { source := 0x13, cls := if act1 then 1 else 5, loc := e.id, offset := p.pc, code := a.phase <<< 5 + a.bank,
          addr := a.addr <<< 32 + b.addr, detail := [w0, w1, w2, csrWord t2 0x704], inj := inj }
      if act1 then
        let t3 := csrField t2 0x700 2 2 1
        .halt { ts with
          t := if t3.seq = .stopped then t3
            else { t3 with seq := .stopped, fault := true, fcause := 5, pc := p.pc, waiting := false }
          recs := if p.hazard then ts.recs else ts.recs ++ [r] }
      else if p.hazard then k { ts with t := t2 } p
      else k (TS.raise { ts with t := t2 } r) { p with hazard := true }

/-- Words of a region that products begun before `p` and not yet released hold: the product's words begin there, counted
from the head (R174). -/
def heldBefore (t : Tile) (p : Product) (g : Nat) : Nat :=
  let ps := t.ope.set0.prods ++ t.ope.set1.prods.filter (fun q => !q.cpx) ++ t.ope.zero
  (ps.map fun q => if q.seq < p.seq then ((productWords q).map fun x => if x.1 = g then x.2 else 0).sum else 0).sum

/-- The words of a beat are present (R133). -/
def present (t : Tile) (p : Product) : Bool :=
  (beatReads p).all fun x => decide (heldBefore t p x.rg + x.off < (region t x.rg).occ)

/-- A word of a feed beat that failed parity: its region, its port, its bytes, its physical index, whether an injection made it fail. -/
structure FeedFail where
  rg : Nat
  port : Nat
  bytes : Nat
  idx : Nat
  inj : Bool
  deriving DecidableEq, Repr

/-- The words of the beat's reads, each checked, recorded and counted (R142), with the first that failed. The words of one beat are
taken in the order of `beatReads`: column, row, column scales, row scales, each by offset; which of several that fail in one beat
SPD_PAR_LAST records the manual does not say (DESIGN CHOICE, log entry 67). A word of a conflicting slot reads undefined (R125, R211). -/
def beatWords (id : Nat) (p : Product) (bad : Claim → Bool) : TS → List FeedRead → List Claim →
    TS × List (FeedSrc × Word) × Option FeedFail
  | ts, x :: l, c :: cs =>
    let i := rgPhys (region ts.t x.rg) (startOff p x.src + x.off)
    let port := match x.src with | .row => 1 | .rowScale => 1 | _ => 0
    match readPhys id ts port i (some x.rg) with
    | (ts1, w, fails, inj) =>
      match (if bad c then undefWord id ts1 else (ts1, w)) with
      | (ts2, w2) =>
        match beatWords id p bad ts2 l cs with
        | (ts3, ws, fail) => (ts3, (x.src, w2) :: ws, if fails = 0 then fail else some ⟨x.rg, port, fails, i, inj⟩)
  | ts, _, _ => (ts, [], none)

/-- The words of the beat, where none failed parity: a failure stops the tile (R71, R438). -/
def readBeat (e : Env) (ts : TS) (p : Product) (bad : Claim → Bool) (l : List FeedRead) (cs : List Claim)
    (k : TS → List (FeedSrc × Word) → Res) : Res :=
  match beatWords e.id p bad ts l cs with
  | (ts1, ws, none) => k ts1 ws
  | (ts1, _, some f) => stopParity e ts1 f.rg p.pc f.port f.bytes f.idx f.inj

/-- The words of one source. -/
def srcWords (ws : List (FeedSrc × Word)) (s : FeedSrc) : List Word :=
  ws.filterMap fun x => if x.1 = s then some x.2 else none

/-- Element (i, q) of one feed beat (Table 6.7) as a code. -/
def feedCode (fmt : Nat) (ws : List Word) (i q : Nat) : Nat :=
  match fmt with
  | 0 => unpack ws 32 i
  | 1 => unpack ws 16 i
  | 2 => unpack ws 16 i
  | 3 => unpack ws 8 (32 * q + i)
  | 4 => unpack ws 8 (32 * q + i)
  | 5 => unpack ws 6 (4 * i + q)
  | 6 => unpack ws 6 (4 * i + q)
  | _ => unpack ws 4 (4 * i + q)

/-- An operand element as it enters the array: its exact value after flushing (R79, R86). -/
def feedVal (fmt code scale : Nat) : Val :=
  let F := match fmtOf fmt with | some F => F | none => fp32
  if isMX fmt then flushVal fp32 (mxVal F code scale) else flushVal F (decodeVal F code)

/-- The piece of an FP32 operand that a pass uses (R55): `lo` for the column in pass 0 and the row in pass 1. -/
def piece (p : Product) (row : Bool) (v : Val) : Val :=
  if p.cfmt = 0 && !p.cube then
    if (p.pass = 0 && !row) || (p.pass = 1 && row) then loPiece v else hiPiece v
  else v

/-- The 32 lanes of one feed in one beat, each a group of k values. -/
def lanes (p : Product) (row : Bool) (ws sc : List Word) (latch : List Word) : List (List Val) :=
  let fmt := if row then p.rfmt else p.cfmt
  let tr := if row then p.rt else p.ct
  let neg := !row && p.cpx && p.pass = 1
  let fix (v : Val) : Val := let v := piece p row v; if neg then negVal v else v
  if p.cube then
    (List.range 4).map fun i => [feedVal fmt (unpack ws 16 i) 0]
  else if tr && fmt ≠ 0 then
    let src := if p.beat % 2 = 0 then ws else latch
    (List.range 32).map fun r => [fix (feedVal fmt (unpack [nth 0#32 src r] 16 (p.beat % 2)) 0)]
  else
    (List.range 32).map fun i =>
      (List.range (rank fmt)).map fun q => fix (feedVal fmt (feedCode fmt ws i q) (unpack sc 8 i))

/-- A value rounded to FP32 and flushed as an accumulator is (R87). -/
def roundFlush (v : Val) : Val := decodeVal fp32 (flushCode fp32 (encodeVal fp32 false v))

/-- One level of the checksum tree and of the comparator's: adjacent lanes pair, in ascending order (R62, R63 state only the depth; DESIGN CHOICE, log
entry 145). -/
def ckLevel : List Val → List Val
  | a :: b :: l => roundFlush (addVal a b) :: ckLevel l
  | l => l

/-- A balanced tree over the lanes, each node rounded to FP32 and flushed (R62, Table 3.3). -/
def ckTree : Nat → List Val → List Val
  | 0, l => l
  | n + 1, l => ckTree n (ckLevel l)

/-- One of the four sums of R62 for depth element q. -/
def ckSum (l : List (List Val)) (mask : Word) (mag : Bool) (q : Nat) : Val :=
  let z := Val.num false 0 0
  let leaves := (List.range l.length).map fun i =>
    if mask.getLsbD i then (let v := nth z (nth [] l i) q; if mag then absVal v else v) else z
  nth z (ckTree 5 leaves) 0

/-- The exact term of a cell: the sum of k exact products (R84). -/
def term (a b : List Val) : Val := sumVals (List.zipWith mulVal a b)

/-- A term added to a cell. -/
def addCell (a : AccSet) (k : Nat) (t : Val) : AccSet :=
  { a with cells := Map.set (fun _ => 0#32) a.cells k (accumulate (cellAt a k) t) }

/-- A lo factor of zero contributes nothing in the lo·hi and hi·lo passes (R55). -/
def skipTerm (p : Product) (a b : List Val) : Bool :=
  p.cfmt = 0 && !p.cube && ((p.pass = 0 && a.all isZeroVal) || (p.pass = 1 && b.all isZeroVal))

/-- The contributions of one feed beat to a set: the data cells of the enabled rows (R57, R84), and the checksum cells
(R62), which skip no term. In cube mode the checksum lanes are idle (R74). -/
def contribute (s : AccSet) (p : Product) (A B : List (List Val)) : AccSet :=
  let n := A.length
  let data := (List.range (n * n)).foldl (fun s k =>
    let a := nth [] A (k / n)
    let b := nth [] B (k % n)
    if p.mask.getLsbD (k / n) && !skipTerm p a b then addCell s (33 * (k / n) + k % n) (term a b) else s) s
  if p.cube then { data with keff := min 65535 (s.keff + 1) }
  else
    let k := rank p.cfmt
    let sums (l : List (List Val)) (m : Word) (mag : Bool) : List Val := (List.range k).map (ckSum l m mag)
    let sa := sums A p.mask false
    let ma := sums A p.mask true
    let sb := sums B (~~~0#32) false
    let mb := sums B (~~~0#32) true
    let colCk := (List.range 32).foldl (fun s i =>
      let a := nth [] A i
      if p.mask.getLsbD i then
        addCell (addCell s (33 * i + 32) (term a sb)) (1089 + 33 * i + 32) (term (a.map absVal) mb)
      else s) data
    let rowCk := (List.range 32).foldl (fun s j =>
      let b := nth [] B j
      addCell (addCell s (33 * 32 + j) (term sa b)) (1089 + 33 * 32 + j) (term ma (b.map absVal))) colCk
    let corner := addCell (addCell rowCk (33 * 32 + 32) (term sa sb)) (1089 + 33 * 32 + 32) (term ma mb)
    { corner with keff := min 65535 (s.keff + 1) }

/-- The product after one feed beat; `fed` after the last beat of its last pass. -/
def nextBeat (p : Product) : Product :=
  if p.beat + 1 < p.len then { p with beat := p.beat + 1 }
  else if p.pass + 1 < passes p then { p with beat := 0, pass := p.pass + 1 }
  else { p with fed := true }

/-- The set a pass of a product accumulates into (R56). -/
def passSet (p : Product) : Nat := if p.cpx then p.pass / 2 else p.set

/-- One feed beat of the product at the feed (R197): its words present, its claims settled, its contributions added. -/
def feedBeat (e : Env) (ts : TS) (p : Product) : Res :=
  let rs := beatReads p
  if !present ts.t p then .wait
  else
    let attempt := (accSet ts.t.ope (passSet p)).attempt
    let inj := e.debug && injKind ts.t = 8
    let ts0 := if inj then ts.upd injFire else ts
    let cl := claimsOf ts.t p
    let extra : List Claim := if inj then [{ bank := injArg ts.t % 32, phase := 0, src := .col, addr := 0 }] else []
    let seen := cl ++ extra
    let go (ts1 : TS) (p1 : Product) (bad : Claim → Bool) : Res :=
      readBeat e ts1 p1 bad rs cl fun ts2 ws =>
        let o := ts2.t.ope
        let cw := srcWords ws .col
        let rw := srcWords ws .row
        let cs := srcWords ws .colScale
        let rs := srcWords ws .rowScale
        let o := { o with latchCS := if cs.isEmpty then o.latchCS else cs, latchRS := if rs.isEmpty then o.latchRS else rs }
        let A := lanes p1 false cw o.latchCS o.latchC
        let B := lanes p1 true rw o.latchRS o.latchR
        let o1 := setAcc o (passSet p1) (contribute (accSet o (passSet p1)) p1 A B)
        let p2 := nextBeat p1
        .ok { ts2 with t := { ts2.t with ope := { o1 with
          feed := if p2.fed then none else some p2
          latchC := if cw.isEmpty then o.latchC else cw
          latchR := if rw.isEmpty then o.latchR else rw } } }
    if e.debug then
      if seen.any (slotHit seen) then hazard e ts0 p attempt seen inj fun ts1 p1 => go ts1 p1 fun _ => false
      else go ts0 p fun _ => false
    else go ts0 p (slotHit cl)

/-- What is fed next: the product streaming, else a replay, else the head of the queue (R67, R69). -/
def nextFeed (e : Env) (ts : TS) : Res :=
  let o := takeDrains 4 ts.t.ope
  let ts := ts.upd fun t => { t with ope := o }
  match o.feed with
  | some _ => .ok ts
  | none =>
    match o.replay with
    | p :: l => .ok (ts.upd fun t => { t with ope := { o with feed := some p, replay := l } })
    | [] =>
      match o.queue with
      | .mul p :: _ =>
        match mayBegin o p with
        | none => stopSeq e ts 4 p.pc
        | some false => .wait
        | some true =>
          match beginProduct ts.t p with
          | (t1, p1) =>
            if p1.mask ≠ 0 && !present ts.t p1 then .wait
            else .ok { ts with t := enterFeed t1 p1 }
      | _ => .wait

/-- OPE_SET_READY (R51): every product of the set is fed. -/
def tSetReady (t : Tile) (k : Nat) : Tile :=
  let o := takeDrains 4 t.ope
  let a := accSet o k
  let feeding := match o.feed with | some p => p.set = k || p.cpx | none => false
  let again := o.replay.any fun p => p.set = k || p.cpx
  if a.phase = .accumulating && !feeding && !again then { t with ope := setAcc o k { a with phase := .ready } }
  else { t with ope := o }

/-- The OPE has stopped its tile: it does nothing more (R68, R155, R208). -/
def haltOpe (r : Res) : Res :=
  match r with
  | .halt ts => .halt (ts.upd fun t => { t with ope := { t.ope with halted := true } })
  | r => r

/-- What the other set's drain keeps of a region and of the staging records from a set `a` that would begin to drain (R52, R133, R274):
that of a block drained and not released, or of one that is released before the block of `a`. -/
def keptByOther (b a : AccSet) (drg : Nat) : Nat × Nat :=
  let first := match setSeq b, setSeq a with | some x, some y => decide (x < y) | _, _ => false
  match b.drn with
  | some d =>
    if b.phase = .draining || b.phase = .held || first then
      (if d.drg = drg then drainWords d else 0, if d.dst = 1 then 1 else 0)
    else (0, 0)
  | none => (0, 0)

/-- OPE_DRAIN_START: the set is ready, its OPE.DRN is in force, the drain port is free, and the destination has space
(for reduction, a staging record too, and for a complex product room for both blocks; R51, R133, R274). ACC1 of a complex product
follows ACC0 (R177). A region whose staging map is not VALID stops the tile before the block is staged (R273). -/
def tDrainStart (e : Env) (ts : TS) (k : Nat) : Res :=
  let t := ts.t
  let o := takeDrains 4 t.ope
  let a := accSet o k
  let b := accSet o (1 - k)
  match a.drn with
  | none => .ok (ts.upd fun t => { t with ope := o })
  | some d =>
    let blocks := if d.cpx && d.dst = 1 && k = 0 then 2 else 1
    let kept := keptByOther b a d.drg
    if a.phase = .ready && d.dst = 1 && !bit (csrWord t (0xA00 + 4 * d.drg)) 31 then haltOpe (stopSeq e ts 4 d.pc)
    else if a.phase = .ready && b.phase ≠ .draining && blocks * drainWords d + kept.1 ≤ (region t d.drg).space &&
        (d.dst = 0 || t.rtr.stage.length + blocks + kept.2 ≤ 256) && (!(d.cpx && k = 1) || b.phase = .held) then
      .ok (ts.upd fun t => { t with ope := setAcc o k { a with phase := .draining } })
    else .ok (ts.upd fun t => { t with ope := o })

/-- The byte masks of a column's words: the rows of the drain mask (R60). -/
def rowBytes (mask : Word) (tw w : Nat) : Nat :=
  ((List.range 4).map fun b => if mask.getLsbD ((4 * w + b) * 8 / tw) then 2 ^ b else 0).sum

/-- Column j of the block written to the destination at tail offset `o` (R178, R180). -/
def writeColumn (id : Nat) (t : Tile) (r : Region) (a : AccSet) (d : Drain) (o j : Nat) : Tile :=
  storeMasked t r (rowBytes a.mask (elemBits d.fmt)) o 0 (columnWords id t a d (blockSide d) j)

/-- The whole block written at the tail of its region. In reduction mode every row is staged. -/
def writeBlock (id : Nat) (t : Tile) (a : AccSet) (d : Drain) : Tile :=
  let r := region t d.drg
  let c := colWords d.cube d.fmt
  let a := if d.dst = 1 then { a with mask := ~~~0#32 } else a
  (List.range (blockSide d)).foldl (fun t j => writeColumn id t r a d (r.tail + j * c) j) t

/-- The heads of a product's regions advance and the cursors fall (R66, R174). -/
def releaseOperands (t : Tile) (p : Product) : Tile :=
  (productWords p).foldl (fun t x =>
    let r := region t x.1
    setRegion t x.1 { r.pop x.2 with cursor := r.cursor - x.2 }) t

/-- A set's block is released: its words written, the tail advanced, in reduction mode its staging record opened
(R61, R178, R274). -/
def releaseBlock (id : Nat) (t : Tile) (k : Nat) : Tile :=
  let a := accSet t.ope k
  match a.drn with
  | none => t
  | some d =>
    let t1 := writeBlock id t a d
    let r := region t1 d.drg
    let t2 := setRegion t1 d.drg (r.push (drainWords d))
    if d.dst = 1 then
      let s : StageRec :=
        { bucket := bits d.tag 31 16, block := bits d.tag 15 0, wide := d.fmt = 0, mask := a.mask, rg := d.drg,
          off := r.tail }
      let known := t2.rtr.staged.any fun b => b.rg = d.drg && b.bucket = s.bucket && !b.acked
      let st := if known then t2.rtr.staged else t2.rtr.staged ++ [{ rg := d.drg, bucket := s.bucket }]
      { t2 with rtr := { t2.rtr with stage := t2.rtr.stage ++ [s], staged := st } }
    else t2

/-- No product with a lower issue number is uncompleted outside set k (R52). -/
def inOrder (o : Ope) (s : Nat) (cpx : Bool) (k : Nat) : Bool :=
  (o.zero.all fun p => s < p.seq) &&
    (cpx || match setSeq (accSet o (1 - k)) with | some q => decide (s < q) | none => true)

/-- The regions can honour the advances of a release (R133): the heads of the products' operands, and the tail. -/
def mayAdvance (t : Tile) (ps : List Product) (ds : List Drain) : Bool :=
  let heads := ps.flatMap productWords
  let tails := ds.map fun d => (d.drg, drainWords d)
  let of (l : List (Nat × Nat)) (g : Nat) : Nat := (l.map fun x => if x.1 = g then x.2 else 0).sum
  heads.all (fun x => decide (of heads x.1 ≤ (region t x.1).occ)) &&
    tails.all (fun x => decide (of tails x.1 ≤ (region t x.1).space))

/-- A set that has passed its check, whose turn it is, is released and emptied; a complex product releases both sets at
once, ACC0's block first (R52, R177). -/
def releaseSet (id : Nat) (t : Tile) (k : Nat) : Tile :=
  let o := t.ope
  let a := accSet o k
  let cpx := match a.drn with | some d => d.cpx | none => false
  let turn := match setSeq a with | some s => inOrder o s cpx k | none => true
  let ds := if cpx then [o.set0.drn, o.set1.drn].filterMap (fun x => x) else a.drn.toList
  if a.phase = .held && turn && (!cpx || (o.set0.phase = .held && o.set1.phase = .held)) && mayAdvance t a.prods ds then
    if cpx then
      let t1 := a.prods.foldl releaseOperands (releaseBlock id (releaseBlock id t 0) 1)
      { t1 with ope := { t1.ope with set0 := emptySet, set1 := emptySet } }
    else
      let t1 := a.prods.foldl releaseOperands (releaseBlock id t k)
      { t1 with ope := setAcc t1.ope k emptySet }
  else t

/-- Zero-mask products whose turn it is complete: their heads advance as though they had been read (R59). -/
def releaseZero (t : Tile) : Tile :=
  match t.ope.zero with
  | [] => t
  | p :: l =>
    let earlier (a : AccSet) : Bool := match setSeq a with | some q => decide (q < p.seq) | none => false
    if earlier t.ope.set0 || earlier t.ope.set1 || !mayAdvance t [p] [] then t
    else
      let t1 := releaseOperands t p
      { t1 with ope := { t1.ope with zero := l } }

/-- Releases in issue order until none is due. -/
def releaseAll (id : Nat) : Nat → Tile → Tile
  | 0, t => t
  | n + 1, t => releaseAll id n (releaseZero (releaseSet id (releaseSet id (releaseZero t) 0) 1))

/-- What is due is released (R52, R59); a stopped tile releases no further token (R155). -/
def settle (id : Nat) (t : Tile) : Tile :=
  if t.seq = .stopped || t.ope.halted || (t.ope.zero.isEmpty && t.ope.set0.phase ≠ .held && t.ope.set1.phase ≠ .held) then t
  else releaseAll id 6 t

/-- OPE_FEED_BEAT: one feed beat of the tile's OPE, or the taking up of a zero-mask product, which completes in issue order (R59). -/
def tFeedBeat (e : Env) (ts : TS) : Res :=
  if ts.t.ope.halted then .ok ts
  else
    let ts0 := ts.upd (settle e.id)
    match (nextFeed e ts0).andThen fun ts1 =>
        match ts1.t.ope.feed with
        | some p => feedBeat e ts1 p
        | none => .ok (ts1.upd (settle e.id)) with
    | .wait => .ok ts0
    | r => haltOpe r

/-- The bound B of R63. -/
def ckBound (keff cf : Nat) (A : Val) : Val :=
  addVal (mulVal (.num false (2 * keff + cf) (-23)) A) (.num false keff (-118))

/-- A row or column compares: `none` where it is skipped (R65), else whether it fails (R63). -/
def ckFails (keff cf : Nat) (sum ck mag : Word) : Option Bool :=
  if nonFinite (f32 sum) || nonFinite (f32 ck) || nonFinite (f32 mag) then none
  else some (ltVal (ckBound keff cf (f32 mag)) (absVal (addVal (f32 sum) (negVal (f32 ck)))))

/-- The comparison of row i (`row`) or column i of a set. -/
def ckLine (a : AccSet) (row : Bool) (i : Nat) : Option Bool :=
  let cell (j : Nat) : Val := f32 (cellAt a (if row then 33 * i + j else 33 * j + i))
  let sum := toF32 (nth (.num false 0 0) (ckTree 5 ((List.range 32).map cell)) 0)
  let k := if row then 33 * i + 32 else 33 * 32 + i
  ckFails a.keff a.cf sum (cellAt a k) (cellAt a (1089 + k))

/-- The first failure of an attempt: the highest failing column, else the lowest failing row; with the lines skipped. -/
def ckResult (a : AccSet) : Option (Bool × Nat) × Nat :=
  let cols := (List.range 32).map (ckLine a false)
  let rows := (List.range 32).map (ckLine a true)
  let skips := ((cols ++ rows).filter fun x => x.isNone).length
  let fails (l : List (Option Bool)) (i : Nat) : Bool := nth none l i = some true
  match (List.range 32).reverse.find? (fails cols) with
  | some j => (some (true, j), skips)
  | none =>
    match (List.range 32).find? (fails rows) with
    | some i => (some (false, i), skips)
    | none => (none, skips)

/-- A set with one bit of a data accumulator flipped. -/
def flipCell (a : AccSet) (x : Nat × Nat × Nat) : AccSet :=
  let k := 33 * x.1 + x.2.1
  { a with cells := Map.set (fun _ => 0#32) a.cells k (cellAt a k ^^^ BitVec.ofNat 32 (2 ^ x.2.2)) }

/-- A set emptied for a replay, its products held (R67). -/
def replaySet (a : AccSet) : AccSet :=
  { emptySet with phase := .accumulating, mask := a.mask, cf := a.cf, prods := a.prods, drn := a.drn, attempt := a.attempt + 1,
                  zfirst := a.zfirst, zcpx := a.zcpx }

/-- A product fed from its first beat again. -/
def rewind (p : Product) : Product := { p with pass := 0, beat := 0, fed := false, hazard := false }

/-- A failed check (R67, R68): recorded, counted, logged; the products are replayed, or at the third failure the tile stops and the
set, whose checks are over, is never released. -/
def ckFailed (e : Env) (ts : TS) (k : Nat) (a : AccSet) (pc : Nat) (col : Bool) (idx : Nat) (inj : Bool) : Res :=
  let last := csrWord ts.t 0x40C
  let t1 := if bit last 31 then csrField ts.t 0x40C 23 16 a.attempt
    else csrPut ts.t 0x40C (BitVec.ofNat 32 (2 ^ 31 + nb col <<< 30 + idx <<< 24 + a.attempt <<< 16 + pc))
  let regs := [0x400, 0x404, 0x408, 0x40C, 0x410]
  if 3 ≤ a.attempt then
    let o := setAcc t1.ope k { a with phase := .held }
    haltOpe (stopWith e { ts with t := csrField { t1 with ope := o } 0x400 1 1 1 } 5 pc 0x02 (nb col <<< 8 + idx) 0 regs inj)
  else
    let o := t1.ope
    let o1 := if accCpx a then { o with set0 := replaySet o.set0, set1 := { replaySet o.set1 with attempt := a.attempt + 1 } }
      else setAcc o k (replaySet a)
    let o2 := { o1 with replay := o1.replay ++ a.prods.map rewind }
    let t2 := csrCount { t1 with ope := o2 } 0x404 31 16 1
    .ok (TS.raise { ts with t := t2 }
      { source := 0x02, cls := 2, loc := e.id, offset := pc, code := nb col <<< 8 + idx,
        detail := csrWords e t2 regs, inj := inj })

/-- OPE_CHECK (R63 to R68): the drained rows and columns of set k are compared; a pass lets the set be released in issue
order. `upset` lists accumulator bits (row, column, bit) that a fault flipped before the drain. A set in cube mode is not
checked (R74). The checks counted below the unit of CHECKS go on through an abort and a write of OPE_CK_COUNT, of which the manual says
nothing (DESIGN CHOICE, log entry 70). -/
def tCheck (e : Env) (ts : TS) (k : Nat) (upset : List (Nat × Nat × Nat)) : Res :=
  let a0 := accSet ts.t.ope k
  if a0.phase ≠ .draining || ts.t.ope.halted then .ok ts
  else
    let inj := injKind ts.t = 2 && a0.attempt = 1 && !ts.t.ope.cube
    let ts1 := if inj then ts.upd injFire else ts
    let a1 := upset.foldl flipCell a0
    let a := if inj then flipCell a1 (injArg ts.t / 32 % 32, injArg ts.t % 32, injBit ts.t) else a1
    let pc := match a.drn with | some d => d.pc | none => 0
    let ts2 := ts1.upd fun t => { t with ope := setAcc t.ope k a }
    let pass (ts : TS) : Res :=
      .ok (ts.upd fun t => settle e.id { t with ope := setAcc t.ope k { accSet t.ope k with phase := .held } })
    if ts.t.ope.cube then pass ts2
    else
      match ckResult a with
      | (fail, skips) =>
        let frac := ts2.t.ope.ckFrac + 1
        let ts3 := ts2.upd fun t =>
          let t := csrCount t 0x408 31 0 skips
          if frac = 65536 then csrCount { t with ope := { t.ope with ckFrac := 0 } } 0x404 15 0 1
          else { t with ope := { t.ope with ckFrac := frac } }
        match fail with
        | some (col, idx) => ckFailed e ts3 k (accSet ts3.t.ope k) pc col idx inj
        | none => pass ts3

end Sys2Proof.Machine
end

