-- ==== Sys2Proof/Machine/RedTile.lean ====
section
/-!
DEFINITION. The reduction in one router (R239, R273 to R286, R293): the next flit of a descriptor from the staged blocks,
the sum of an adding router, and the bucket acknowledgement.
-/

namespace Sys2Proof.Machine

/-- RTR_STG of region g (Table 10.2). -/
def stgMap (t : Tile) (g : Nat) : Word := csrWord t (0xA00 + 4 * g)

/-- RTR_RDESC entry d (Table 10.4). -/
def rdesc (t : Tile) (d : Nat) : Word := csrWord t (0x1000 + 4 * d)

/-- The input ports of an entry in order (R281). -/
def rdInputs (w : Word) : List Nat :=
  (List.range (bits w 30 28)).map fun i => bits w (12 + 3 * i) (10 + 3 * i)

/-- OUT of an entry. -/
def rdOut (w : Word) : Nat := bits w 27 25

/-- Slots that a code of IQ or OQ names (Table 10.4). -/
def vc1Slots (c : Nat) : Nat := 2 * 2 ^ c

/-- Columns sent (Table 10.8). -/
def ncols (c : Nat) : Nat := if c = 0 then 32 else 2 * 2 ^ c

/-- Flits of a block (R275). -/
def blockFlits (wide : Bool) (ncol : Nat) : Nat := ncols ncol * (if wide then 4 else 2)

/-- The sample check chooses block k of bucket b (R293). -/
def chosen (pseed step srate bucket block : Nat) : Bool :=
  let x := (pseed % 2 ^ 16) <<< 48 + (step % 2 ^ 32) <<< 16 + 0xA5A5
  let z := mix64 (BitVec.ofNat 64 (x + ((bucket <<< 16 + block) + 1) * 0x9E3779B97F4A7C15))
  srate ≠ 15 && decide (z.toNat >>> (64 - srate) = 0)

/-- A staged block is chosen at its leaf: MEN of its map, PSEED, STEP and SRATE of the tile (R293). -/
def leafChosen (t : Tile) (s : StageRec) : Bool :=
  bit (stgMap t s.rg) 30 &&
    chosen (bits (csrWord t 0x500) 15 0) (csrWord t 0x504).toNat (bits (csrWord t 0x90C) 15 12) s.bucket s.block

/-- MASK of flit `off`: the row-mask bits of its rows (R219). -/
def flitMask (wide : Bool) (mask : Word) (off : Nat) : Nat :=
  if wide then (mask.toNat >>> (8 * (off % 4))) % 256 else (mask.toNat >>> (16 * (off % 2))) % 65536

/-- Element values of a RED payload (R219). -/
def redVals (wide : Bool) (ws : List Word) : List Val :=
  if wide then ws.map f32 else (ws.flatMap fun w => [w.toNat % 65536, w.toNat / 65536]).map (decodeVal bf16)

/-- Flit `off` of a staged block (R275); `mir` marks the mirror tree. A parity failure stops the tile. -/
def stagedFlit (e : Env) (ts : TS) (s : StageRec) (off : Nat) (mir : Bool) (k : TS → RedFlit → Res) : Res :=
  let r := region ts.t s.rg
  readWords e ts 6 (some s.rg) 0xFFFF (rgSpan r (s.off + 8 * off) 8) fun u ws =>
    k u { bucket := s.bucket, block := s.block, off := off, wide := s.wide, mir := mir,
          mask := flitMask s.wide s.mask off, nf := (redVals s.wide ws).any nonFinite, data := ws, ep := e.bank }

/-- The bucket AHEAD places earlier in the region's staging order is acknowledged, or there is none (R277). -/
def aheadOk (t : Tile) (s : StageRec) : Bool :=
  let order := t.rtr.staged.filter fun b => b.rg = s.rg
  let n := bits (stgMap t s.rg) 29 28 + 1
  let i := (order.findIdx? fun b => b.bucket = s.bucket && !b.acked).getD 0
  i < n || (match order[i - n]? with | some b => b.acked | none => true)

/-- Which of a block's three streams a descriptor carries, and how many of its flits have left: primary, mirror of a chosen
block, retry after the verdict (R275, R294). -/
def streamOf (t : Tile) (d : Nat) (s : StageRec) : Option (Nat × Nat) :=
  let w := stgMap t s.rg
  let total := blockFlits s.wide (bits w 27 26)
  if bits w 7 0 = d && s.prim < total then some (0, s.prim)
  else if bit w 30 && bits w 15 8 = d && leafChosen t s && s.mirr < total then some (1, s.mirr)
  else if bit w 30 && bits w 23 16 = d && s.resend && s.retr < total then some (2, s.retr)
  else none

/-- The record after one flit of a stream. -/
def bumpStream (s : StageRec) (k : Nat) : StageRec :=
  if k = 0 then { s with prim := s.prim + 1 } else if k = 1 then { s with mirr := s.mirr + 1 } else { s with retr := s.retr + 1 }

/-- The first record in a list that a descriptor has a flit of. -/
def firstStream (t : Tile) (d : Nat) : List StageRec → Option (Nat × StageRec × Nat × Nat)
  | [] => none
  | s :: l =>
    match streamOf t d s with
    | some (k, off) => some (0, s, k, off)
    | none =>
      match firstStream t d l with
      | some (i, x) => some (i + 1, x)
      | none => none

/-- A descriptor's VC1 buffer at an input port. -/
def redBuf (t : Tile) (d port : Nat) : List RedFlit := Map.get (fun _ => []) t.rtr.redIn (8 * d + port)

/-- The tile with a descriptor's VC1 buffer replaced. -/
def setRedBuf (t : Tile) (d port : Nat) (l : List RedFlit) : Tile :=
  { t with rtr := { t.rtr with redIn := Map.set (fun _ => []) t.rtr.redIn (8 * d + port) l } }

/-- RED_FLIT_SEND: the next flit of descriptor d leaves the staging region for the router's local input (R275 to R277). -/
def tRedSend (e : Env) (ts : TS) (d : Nat) : Res :=
  if !(redBuf ts.t d 0).isEmpty then .wait
  else
    match firstStream ts.t d ts.t.rtr.stage with
    | none => .wait
    | some (i, s, k, off) =>
      if !aheadOk ts.t s then .wait
      else stagedFlit e ts s off (k = 1) fun u f =>
        .ok (u.upd fun t =>
          let t1 := setRedBuf t d 0 [f]
          { t1 with rtr := { t1.rtr with stage := setNth t1.rtr.stage i (bumpStream s k) } })

/-- The keys of two head flits agree (R239, R286). -/
def sameKey (a b : RedFlit) : Bool :=
  a.bucket = b.bucket && a.block = b.block && a.off = b.off && a.mir = b.mir && a.wide = b.wide

/-- The sum of an adding router (R239): FP32 additions in input order, each rounded to nearest-even, then one rounding to
the wire format; MASK and NF are ORed. One input is forwarded unchanged. -/
def addFlits : List RedFlit → Option RedFlit
  | [] => none
  | [a] => some a
  | a :: l =>
    let cols := (List.range (if a.wide then 8 else 16)).map fun i =>
      l.foldl (fun acc f => addVal (f32 (toF32 acc)) (nth (.num false 0 0) (redVals f.wide f.data) i))
        (nth (.num false 0 0) (redVals a.wide a.data) i)
    let codes := cols.map fun v => if a.wide then (toF32 v).toNat else encodeVal bf16 false (f32 (toF32 v))
    let data := wordsOf (packNat (if a.wide then 32 else 16) codes) 8
    some { a with
      data := data
      mask := (a :: l).foldl (fun m f => m ||| f.mask) 0
      nf := (a :: l).any (fun f => f.nf) || (redVals a.wide data).any nonFinite }

/-- The keys of a RED flit, as Table 8.5 lays them out: BUCKET, BLOCK, OFF, WIDE and MIR. -/
def redKeyBits (f : RedFlit) : Nat := (((f.bucket * 2 ^ 16 + f.block) * 2 ^ 7 + f.off) * 2 + nb f.wide) * 2 + nb f.mir

/-- A descriptor stops at a router (R285): RDFAULT records the first while RDVALID is clear; a hard-fault record of
SOURCE 0x25 names it. The keys of the heads that stopped it are recorded (R239). -/
def stopDesc (e : Env) (ts : TS) (d : Nat) (heads : List RedFlit := []) : TS :=
  if ts.t.rtr.redStopped.contains d then ts
  else
    let t1 := if bit (csrWord ts.t 0x900) 15 then ts.t
      else csrField (csrField ts.t 0x900 23 16 d) 0x900 15 15 1
    let t2 := { t1 with rtr := { t1.rtr with
      redStopped := t1.rtr.redStopped ++ [d]
      redKeys := if heads.isEmpty then t1.rtr.redKeys else t1.rtr.redKeys ++ [(d, heads.map redKeyBits)] } }
    TS.raise { ts with t := t2 }
      { source := 0x25, cls := 1, loc := e.id, code := d,
        addr := match heads with | f :: _ => f.bucket * 2 ^ 16 + f.block | [] => 0, detail := csrWords e t2 [0x900, 0x904, 0x908, 0x90C] }

/-- A staged block is one that an acknowledgement names. -/
def BktAck.names (a : BktAck) (t : Tile) (s : StageRec) : Bool := s.bucket = a.bucket && bits (stgMap t s.rg) 7 0 = a.rdesc

/-- Words of a staged block. -/
def stageRecWords (s : StageRec) : Nat := if s.wide then 1024 else 512

/-- The staging regions can honour the head advances of a commit acknowledgement (R133, R278). -/
def ackReady (t : Tile) (a : BktAck) : Bool :=
  a.resend || (List.range 16).all fun g =>
    decide (((t.rtr.stage.filter fun s => a.names t s && s.rg = g).map stageRecWords).sum ≤ (region t g).occ)

/-- A commit acknowledgement at a leaf (R278): the heads of the staging regions advance by the words of the bucket's
blocks, whose records are freed; a resend verdict advances nothing (R294). -/
def applyAck (t : Tile) (a : BktAck) : Tile :=
  let mine (s : StageRec) : Bool := a.names t s
  if a.resend then
    { t with rtr := { t.rtr with stage := t.rtr.stage.map fun s => if mine s then { s with resend := true } else s } }
  else
    let t1 := (t.rtr.stage.filter mine).foldl (fun t s =>
      setRegion t s.rg ((region t s.rg).pop (stageRecWords s))) t
    let done (b : StageBkt) : Bool := b.bucket = a.bucket && bits (stgMap t b.rg) 7 0 = a.rdesc
    { t1 with rtr := { t1.rtr with
        stage := t1.rtr.stage.filter fun s => !mine s
        staged := t1.rtr.staged.map fun b => if done b then { b with acked := true } else b } }

/-- A flit is a bucket acknowledgement (R279): TID 0, SEQ 0x3FFF, ECODE 0 and EXIT 0. -/
def isBktAck (f : Flit) : Bool := match f.body with | .ack 0 0x3FFF false => true | _ => false

/-- The flit of a bucket acknowledgement to a tile (R279, Table 10.3), and what such a flit says. -/
def bktAckFlit (a : BktAck) (dest : Nat) : Flit :=
  { vc := 0, dest := dest, body := .ack 0 0x3FFF false, data := [BitVec.ofNat 32 (nb a.resend * 2 ^ 24 + a.rdesc * 2 ^ 16 + a.bucket)] }
@[inherit_doc bktAckFlit] def bktAckOf (f : Flit) : BktAck :=
  let w := nth 0#32 f.data 0
  { bucket := bits w 15 0, rdesc := bits w 23 16, resend := bits w 25 24 = 1 }

/-- A router holds RED flits or bucket acknowledgements (R403). -/
def redHeld (r : Router) : Bool :=
  !r.redIn.isEmpty || !r.redCross.isEmpty || (r.inject ++ r.arrived).any isBktAck || (r.bufs ++ r.cross).any fun b => b.2.any isBktAck

/-- A router without its bucket acknowledgements. -/
def dropAcks (r : Router) : Router :=
  let keep (l : List Flit) : List Flit := l.filter fun f => !isBktAck f
  { r with
    inject := keep r.inject
    arrived := keep r.arrived
    bufs := (r.bufs.map fun b => (b.1, keep b.2)).filter fun b => !b.2.isEmpty
    cross := (r.cross.map fun b => (b.1, keep b.2)).filter fun b => !b.2.isEmpty }

/-- The reduction of a tile discarded by an abort (R297): flits, acknowledgements, records and stops. -/
def abortRed (r : Router) : Router :=
  { dropAcks r with redIn := [], redCross := [], redUsed := [], redStopped := [], stage := [], staged := [] }

end Sys2Proof.Machine
end

