-- ==== Sys2Proof/Machine/Update.lean ====
section
/-!
DEFINITION. The update engine of a site (R301 to R321, R324, R331, R332): parameter groups, learning rate, optimizers,
Minuet programs, state records, the block table, taint, fold and export.
-/

namespace Sys2Proof.Machine

/-- Word w of parameter group g (Table 11.2). -/
def grpWord (s : Site) (g w : Nat) : Word := s.csrWord (0xA000 + 64 * g + 4 * w)

/-- Fields of GRP_CFG. -/
def grpOpt (s : Site) (g : Nat) : Nat := bits (grpWord s g 0) 31 29
@[inherit_doc grpOpt] def grpClip (s : Site) (g : Nat) : Nat := bits (grpWord s g 0) 28 27
@[inherit_doc grpOpt] def grpCopy (s : Site) (g : Nat) : Nat := bits (grpWord s g 0) 22 19

/-- STEP of the site (Table 11.13). -/
def pavStep (s : Site) : Nat := (s.csrWord 0x628).toNat

/-- The group trains in this step (R304). -/
def trains (s : Site) (g : Nat) : Bool := grpOpt s g ≠ 0 && decide ((grpWord s g 5).toNat ≤ pavStep s)

/-- n of R304. -/
def groupStep (s : Site) (g : Nat) : Nat := pavStep s - (grpWord s g 5).toNat

/-- One rounding to FP64, to FP32. -/
def r64 (v : Val) : Val := f64 (toF64 v)
@[inherit_doc r64] def r32 (v : Val) : Val := f32 (toF32 v)
/-- FP64 operations, each rounded once. -/
def add64 (a b : Val) : Val := r64 (addVal a b)
@[inherit_doc add64] def mul64 (a b : Val) : Val := r64 (mulVal a b)
@[inherit_doc add64] def div64 (a b : Val) : Val := decodeVal fp64 (divCode fp64 a b)
@[inherit_doc add64] def sqrt64 (a : Val) : Val := decodeVal fp64 (sqrtCode fp64 a)
/-- FP32 operations, each rounded once (R302). -/
def add32 (a b : Val) : Val := r32 (addVal a b)
@[inherit_doc add32] def mul32 (a b : Val) : Val := r32 (mulVal a b)
@[inherit_doc add32] def fma32 (a b c : Val) : Val := r32 (addVal (mulVal a b) c)
@[inherit_doc add32] def div32 (a b : Val) : Val := decodeVal fp32 (divCode fp32 a b)
@[inherit_doc add32] def sqrt32 (a : Val) : Val := decodeVal fp32 (sqrtCode fp32 a)

/-- A natural number; 1; a − b. -/
def natVal (n : Nat) : Val := .num false n 0
@[inherit_doc natVal] def oneVal : Val := natVal 1
@[inherit_doc natVal] def subVal (a b : Val) : Val := addVal a (negVal b)

/-- An exact power. -/
def powVal (v : Val) (t : Nat) : Val :=
  match v with
  | .nan => .nan
  | .inf s => if t = 0 then oneVal else .inf (s && decide (t % 2 = 1))
  | .num s m e => .num (s && decide (t % 2 = 1)) (m ^ t) (e * t)

/-- The step table (R304): the LR of the point with the greatest START ≤ n, or of point 0. -/
def tableLr (s : Site) (k n : Nat) : Word :=
  let pts := (List.range 64).filter fun i =>
    let a := (s.csrWord (0xE000 + 512 * k + 8 * i)).toNat
    decide (a ≠ 2 ^ 32 - 1) && decide (a ≤ n)
  s.csrWord (0xE004 + 512 * k + 8 * pts.getLastD 0)

/-- The cosine of R304: within 1 ulp of cos (πk / d) in FP64 (log entry 7). -/
def cosPi (k d : Nat) : DWord := BitVec.ofNat 64 (withinUlp fp64 1 (fixCosPi k d) (Config.cosPi k d).toNat)

/-- The learning rate of a group (R304), in FP64 and rounded once to FP32. -/
def learnRate (s : Site) (g : Nat) : Word :=
  let n := groupStep s g
  let peak := f32 (grpWord s g 1)
  let floor_ := f32 (grpWord s g 2)
  let w := (grpWord s g 3).toNat
  let d := (grpWord s g 4).toNat
  let sched := bits (grpWord s g 0) 26 25
  let span := add64 peak (negVal floor_)
  if sched = 0 then grpWord s g 1
  else if sched = 3 then tableLr s (bits (grpWord s g 0) 24 23) n
  else if n < w then toF32 (div64 (mul64 peak (natVal (n + 1))) (natVal w))
  else
    let k := min (n - w) d
    if sched = 1 then toF32 (add64 floor_ (div64 (mul64 span (add64 oneVal (f64 (cosPi k d)))) (natVal 2)))
    else toF32 (add64 floor_ (mul64 span (add64 oneVal (negVal (div64 (natVal k) (natVal d))))))

/-- The constants of a group and step (R306). -/
structure OptConst where
  lr : Val
  b1 : Val
  b2 : Val
  eps : Val
  wd : Val
  k1 : Val
  k2 : Val
  ib1 : Val
  ib2 : Val
  deriving DecidableEq, Repr

/-- k1, k2, ib1 and ib2 in FP64, rounded once to FP32 (R306). -/
def optConst (s : Site) (g : Nat) : OptConst :=
  let b1 := f32 (grpWord s g 6)
  let b2 := f32 (grpWord s g 7)
  let t := groupStep s g + 1
  let ib (b : Val) : Val := r32 (div64 oneVal (add64 oneVal (negVal (r64 (powVal b t)))))
  { lr := f32 (learnRate s g), b1 := b1, b2 := b2, eps := f32 (grpWord s g 8), wd := f32 (grpWord s g 9),
    k1 := r32 (add64 oneVal (negVal b1)), k2 := r32 (add64 oneVal (negVal b2)), ib1 := ib b1, ib2 := ib b2 }

/-- sign of R306. -/
def signVal (v : Val) : Val :=
  match v with
  | .nan => .nan
  | .inf s => .num s 1 0
  | .num s m e => if m = 0 then .num s 0 e else .num s 1 0

/-- w1 from w and a direction: the last two lines of each optimizer (R306). -/
def stepW (k : OptConst) (w dir : Val) : Val := fma32 (negVal k.lr) (fma32 k.wd w dir) w

/-- The last three lines of adamw (R306). -/
def adamW (k : OptConst) (w m1 v1 : Val) : Val :=
  let d := add32 (sqrt32 (mul32 v1 k.ib2)) k.eps
  stepW k w (div32 (mul32 m1 k.ib1) d)

/-- One element of a built-in optimizer (R306): the new w and slots from the old. -/
def optElem (opt : Nat) (k : OptConst) (g : Val) (old : List Val) : List Val :=
  let w := nth oneVal old 0
  let m := nth oneVal old 1
  let v := nth oneVal old 2
  match opt with
  | 1 =>
    let m1 := fma32 k.b1 m g
    [stepW k w m1, m1]
  | 2 =>
    let m1 := fma32 k.b1 m (mul32 k.k1 g)
    let v1 := fma32 k.b2 v (mul32 k.k2 (mul32 g g))
    [adamW k w m1 v1, m1, v1]
  | _ =>
    let u := signVal (fma32 k.b1 m (mul32 k.k1 g))
    [stepW k w u, fma32 k.b2 m (mul32 k.k2 g)]

/-- One element of a fold (R324): from live w, m, v and shadow m1, v1. -/
def foldElem (opt : Nat) (k : OptConst) (c : Val) (live sh : List Val) : List Val :=
  let w := nth oneVal live 0
  let m := nth oneVal live 1
  let v := nth oneVal live 2
  let m1 := nth oneVal sh 1
  let v1 := nth oneVal sh 2
  let kc := r32 (add64 oneVal (negVal c))
  let c2 := r32 (mul64 c c)
  let kc2 := r32 (add64 oneVal (negVal (mul64 c c)))
  match opt with
  | 1 =>
    let m2 := fma32 c m1 (mul32 kc (mul32 k.b1 m))
    [stepW k w m2, m2]
  | 2 =>
    let m2 := fma32 c m1 (mul32 kc (mul32 k.b1 m))
    let v2 := fma32 c2 v1 (mul32 kc2 (mul32 k.b2 v))
    [adamW k w m2 v2, m2, v2]
  | _ =>
    let m2 := fma32 c m1 (mul32 kc (mul32 k.b2 m))
    let kl := r32 (div64 (add64 oneVal (negVal k.b1)) (add64 oneVal (negVal k.b2)))
    let u := signVal (fma32 k.b1 m (mul32 kl (mul32 c (add32 m1 (negVal (mul32 k.b2 m))))))
    [stepW k w u, m2]

/-- State slots of a group (R308). -/
def slotsOf (s : Site) (g : Nat) : Nat :=
  match grpOpt s g with
  | 2 => 2
  | 1 => 1
  | 3 => 1
  | 4 => bits (grpWord s g 0) 13 11
  | _ => 0

/-- Units of a working copy (R308). -/
def copyUnits (f : Nat) : Nat := if f = 0 then 16 else if f = 1 || f = 2 then 8 else if f = 3 || f = 4 then 4 else 0

/-- RECU of a group (R308). -/
def recu (s : Site) (g : Nat) : Nat := copyUnits (grpCopy s g) + 16 + 16 * slotsOf s g

/-- Fields of a binding record (Table 11.4). -/
def bindBlock (b : Nat) : Nat := b % 2 ^ 16
@[inherit_doc bindBlock] def bindBucket (b : Nat) : Nat := b / 2 ^ 16 % 2 ^ 16
@[inherit_doc bindBlock] def bindGroup (b : Nat) : Nat := b / 2 ^ 32 % 256
@[inherit_doc bindBlock] def bindUse (b : Nat) : Nat := b / 2 ^ 40 % 16
@[inherit_doc bindBlock] def bindTier (b : Nat) : Nat := b / 2 ^ 44 % 2
@[inherit_doc bindBlock] def bindCarry (b : Nat) : Bool := b.testBit 45
@[inherit_doc bindBlock] def bindUnit (b : Nat) : Nat := b / 2 ^ 48 % 2 ^ 34

/-- Lean mode; the live half; TAINT and STATE of the Pavane copy (Tables 11.12, 11.13). -/
def leanMode (s : Site) : Bool := bit (s.csrWord 0x600) 1
@[inherit_doc leanMode] def pavEpoch (s : Site) : Nat := bits (s.csrWord 0x624) 8 8
@[inherit_doc leanMode] def pavState (s : Site) : Nat := bits (s.csrWord 0x624) 3 0
@[inherit_doc leanMode] def tainted (s : Site) : Bool := bit (s.csrWord 0x624) 16

/-- The half that tiles read and the half that updates write (R308, R317). -/
def liveHalf (s : Site) : Nat := if leanMode s then 0 else pavEpoch s
@[inherit_doc liveHalf] def workHalf (s : Site) : Nat := if leanMode s then 0 else 1 - pavEpoch s

/-- First unit of half h of a record (R308). -/
def halfUnit (s : Site) (b h : Nat) : Nat := bindUnit b + h * recu s (bindGroup b)

/-- First unit of landing slot i, of 128 units (R312). -/
def slotUnit (s : Site) (i : Nat) : Nat := bits (s.csrWord 0x60C) 27 0 + 128 * i

/-- First unit of a slot's parked gradient, which takes 16 units: behind the largest state half (log entry 76). -/
def parkUnit (s : Site) (i : Nat) : Nat := slotUnit s i + 112

/-- First unit of the live state that an entry's update reads: its landing slot for TIER 1, else its live half (R312). -/
def liveUnit (s : Site) (en : BtEntry) : Nat :=
  if bindTier en.bind = 1 then slotUnit s en.slot else halfUnit s en.bind (liveHalf s)

/-- Byte offset of part k of a half of group g that stands at unit u: 0 the working copy, 1 the master weight, 2 on the slots (R308). -/
def partOff (s : Site) (g u k : Nat) : Nat := 256 * (u + (if k = 0 then 0 else copyUnits (grpCopy s g) + 16 * (k - 1)))

/-- The FP32 elements of parts 1 on of a half of group g at unit u. -/
def readParts (s : Site) (g u : Nat) : List (List Word) :=
  (List.range (1 + slotsOf s g)).map fun k => s.words (partOff s g u (k + 1)) 1024

/-- Bytes written unit by unit. -/
def writeUnits (s : Site) (o : Nat) (l : List Byte) : Site :=
  (List.range ((l.length + 255) / 256)).foldl (fun s i => writeUnit s (o + 256 * i) ((l.drop (256 * i)).take 256)) s

/-- n units from unit u read, with their codes checked: whether one fails (R320 cause 0x6). -/
def readUnits (e : SEnv) (u n : Nat) (x : SS) : SS × Bool :=
  (List.range n).foldl (fun a i =>
    match a with
    | (y, true) => (y, true)
    | (y, false) =>
      match readUnit e y 4 (u + i) [] with
      | (z, some _) => (z, true)
      | (z, none) => (z, false)) (x, false)

/-- The units of a half of group g at unit u read. -/
def readHalf (e : SEnv) (g u : Nat) (x : SS) : SS × Bool := readUnits e u (recu x.s g) x

/-- The units of w and the slots of a half of group g at unit u read: what an update and a fold read of it (Table 11.1). -/
def readState (e : SEnv) (g u : Nat) (x : SS) : SS × Bool := readUnits e (u + copyUnits (grpCopy x.s g)) (16 + 16 * slotsOf x.s g) x

/-- The working copy of w (R307); none for COPYFMT 0xF. -/
def copyCode (f : Nat) (w : Word) : Nat :=
  match fmtOf f with
  | some F => encodeVal F (f = 3 || f = 4) (f32 w)
  | none => 0

/-- Bytes of packed codes. -/
def codeBytes (f : Nat) (l : List Nat) : List Byte := l.flatMap fun c => leBytes c (elemBits f / 8)

/-- Codes of the working copy of a half of group g at unit u. -/
def readCopy (s : Site) (g u : Nat) : List Nat :=
  let f := grpCopy s g
  let n := elemBits f / 8
  if copyUnits f = 0 then []
  else (List.range 1024).map fun i => ofLeBytes (s.bytes (partOff s g u 0 + n * i) n)

/-- A taint detected at a site (R320): it is recorded in SITE_PAV_LOG0 and LOG1 unless one is recorded, passed on to DSITE, and
logged with SOURCE 0x27. -/
def detectTaint (e : SEnv) (x : SS) (cause bucket block grp : Nat) : SS :=
  let s := x.s
  let s1 := if bit (s.csrWord 0x654) 31 then s
    else (s.csrPut 0x654 (BitVec.ofNat 32 (2 ^ 31 + cause * 2 ^ 27 + bucket))).csrPut 0x658
      (BitVec.ofNat 32 (block * 2 ^ 16 + grp * 2 ^ 8))
  { x with s := { s1 with upd := { s1.upd with taints := s1.upd.taints ++ [cause] } } }.raise
    { source := 0x27, cls := 2, loc := siteLoc e.id, code := cause, addr := bucket * 2 ^ 16 + block,
      detail := [s1.csrWord 0x614, s1.csrWord 0x624, s1.csrWord 0x654, s1.csrWord 0x658] }

/-- Entry k of the block table. -/
def btGet (s : Site) (k : Nat) : Option BtEntry := (s.upd.bt.find? fun x => x.1 = k).map (·.2)

/-- The site with an entry set or freed. -/
def btSet (s : Site) (k : Nat) (x : BtEntry) : Site := { s with upd := { s.upd with bt := Map.insert s.upd.bt k x } }
@[inherit_doc btSet] def btFree (s : Site) (k : Nat) : Site := { s with upd := { s.upd with bt := Map.erase s.upd.bt k } }

/-- Record i of the binding list (R309). -/
def bindRec (s : Site) (i : Nat) : Nat := ofLeBytes (s.bytes (256 * bits (s.csrWord 0x604) 27 0 + 16 * i) 16)

/-- The live half copied to the shadow half (R309): a carry, and a block of a group that does not train (R305). -/
def carry (e : SEnv) (x : SS) (en : BtEntry) : SS :=
  let b := en.bind
  if leanMode x.s then x
  else
    match readHalf e (bindGroup b) (liveUnit x.s en) x with
    | (y, true) => detectTaint e y 6 (bindBucket b) (bindBlock b) (bindGroup b)
    | (y, false) => y.upd fun s =>
      writeUnits s (256 * halfUnit s b (workHalf s)) (s.bytes (256 * liveUnit s en) (256 * recu s (bindGroup b)))

/-- The Stratus live half of an entry's record read into its landing slot (R310, R312). -/
def landSlot (e : SEnv) (x : SS) (k : Nat) (en : BtEntry) : SS :=
  let b := en.bind
  match readHalf e (bindGroup b) (halfUnit x.s b (liveHalf x.s)) x with
  | (y, true) => detectTaint e y 6 (bindBucket b) (bindBlock b) (bindGroup b)
  | (y, false) => y.upd fun s =>
    btSet (writeUnits s (256 * slotUnit s en.slot) (s.bytes (256 * halfUnit s b (liveHalf s)) (256 * recu s (bindGroup b)))) k { en with res := 3 }

/-- The landing slot that a record takes: the lowest-numbered one that no entry holds (log entry 76). -/
def freeLanding (s : Site) : Nat :=
  ((List.range (bits (s.csrWord 0x610) 12 0)).find? fun i => !s.upd.bt.any fun x => bindTier x.2.bind = 1 && x.2.slot = i).getD 0

/-- The next record may be bound (R310): a step runs untainted and the engine has not stopped (R311), the record lies within PFD of the
oldest incomplete one, its entry is free and, for TIER 1, a landing slot is free. -/
def mayBind (s : Site) : Bool :=
  let u := s.upd
  let b := bindRec s u.next
  let oldestRec := (u.bt.map fun x => x.2.idx).foldl min u.next
  pavState s = 1 && !tainted s && !u.stopped && decide (u.next < bits (s.csrWord 0x608) 20 0) &&
    decide (u.next ≤ oldestRec + bits (s.csrWord 0x600) 23 16) && (btGet s (bindBlock b % 16384)).isNone &&
    (bindTier b = 0 || decide (u.slots < bits (s.csrWord 0x610) 12 0))

/-- BIND_RECORD (R310): the next record takes its entry; a carry does its work, from Stratus through its slot, and awaits its writes. -/
def bindRecord (e : SEnv) (x : SS) : SS :=
  if !mayBind x.s then x
  else
    let s := x.s
    let b := bindRec s s.upd.next
    let k := bindBlock b % 16384
    let s1 := { s with upd := { s.upd with next := s.upd.next + 1, slots := s.upd.slots + bindTier b, waitSlot := false } }
    let en : BtEntry := { bind := b, idx := s.upd.next, res := if bindTier b = 0 then 1 else 2, fired := bindCarry b, slot := if bindTier b = 0 then 0 else freeLanding s }
    if bindCarry b then
      if leanMode s then { x with s := { s1 with upd := { s1.upd with proc := s1.upd.proc + 1, slots := s.upd.slots } } }
      else
        let y := { x with s := btSet s1 k en }
        let z := if bindTier b = 0 then y else landSlot e y k en
        if bindTier b = 1 && (btGet z.s k).all (fun a => a.res = 2) then z else carry e z en
    else { x with s := btSet s1 k en }

/-- The Stratus reads into landing slots complete (R310, R312); in a tainted step they free their slots (R321). -/
def landSlots (e : SEnv) (x : SS) : SS :=
  if tainted x.s then
    x.upd fun s =>
      let keep := s.upd.bt.filter fun y => y.2.fired
      { s with upd := { s.upd with bt := keep, slots := (keep.map fun y => bindTier y.2.bind).sum } }
  else (x.s.upd.bt.filter fun y => y.2.res = 2 && !y.2.fired).foldl (fun z y => landSlot e z y.1 y.2) x

/-- How a block fares that the commit passes to the engine (R311). -/
inductive Pass where
  | taken (x : SS)
  | wait (x : SS)
  | fault (x : SS)
  deriving DecidableEq, Repr

/-- The block goes to its entry and waits to fire; a gradient that arrives before its Stratus state is parked in the slot (R312), as FP32
elements. NF taints (R320 cause 0x1). -/
def engineTake (e : SEnv) (x : SS) (k : Nat) (en : BtEntry) (b : EngBlk) : SS :=
  let y := x.upd fun s =>
    let park := en.res = 2
    let s0 := if park then writeUnits s (256 * parkUnit s en.slot) (wordsBytes b.vals) else s
    let s1 := btSet s0 k { en with got := some b, parked := park }
    { s1 with upd := { s1.upd with queue := s1.upd.queue ++ [k] } }
  if b.nf then detectTaint e y 1 b.bucket b.block (bindGroup en.bind) else y

/-- A contribution to a tied block (R262): widened into a free buffer, or added in FP32 with NF and masks ORed. -/
def tieIn (s : Site) (b : EngBlk) : Option (Site × AccBuf) :=
  match s.m.accum.find? fun a => a.block = b.block with
  | none =>
    if accumCap s ≤ s.m.accum.length then none
    else
      let a : AccBuf := { block := b.block, bucket := b.bucket, vals := b.vals, nf := b.nf, mask := b.mask, uses := 1 }
      some ({ s with m := { s.m with accum := s.m.accum ++ [a] } }, a)
  | some a0 =>
    let a := { a0 with vals := List.zipWith (fun p q => toF32 (addVal (f32 p) (f32 q))) a0.vals b.vals,
                       nf := a0.nf || b.nf, mask := a0.mask ||| b.mask, uses := a0.uses + 1 }
    some ({ s with m := { s.m with accum := s.m.accum.map fun y => if y.block = b.block then a else y } }, a)

/-- The group of the record that the binding list holds of a block; 0 for none. -/
def groupOf (s : Site) (block : Nat) : Nat :=
  (((List.range (bits (s.csrWord 0x608) 20 0)).map (bindRec s)).find? fun b => bindBlock b = block && !bindCarry b).elim 0 bindGroup

/-- A committed block is passed to the engine (R262, R290, R311, R321). In a tainted step it only shows its NF (R320 cause 0x1). -/
def passBlock (e : SEnv) (x : SS) (b : EngBlk) : Pass :=
  if tainted x.s then .taken (if b.nf then detectTaint e x 1 b.bucket b.block (groupOf x.s b.block) else x)
  else
    let k := b.block % 16384
    match btGet x.s k with
    | none =>
      let nextTier := bindTier (bindRec x.s x.s.upd.next)
      .wait (x.upd fun s => { s with upd := { s.upd with
        waitSlot := nextTier = 1 && decide (bits (s.csrWord 0x610) 12 0 ≤ s.upd.slots) } })
    | some en =>
      let open_ := x.s.m.accum.any fun a => a.block = b.block
      let mine := bindBlock en.bind = b.block && !bindCarry en.bind && en.got.isNone &&
        (bindBucket en.bind = b.bucket || open_)
      if mine then
        if bindUse en.bind ≤ 1 then .taken (engineTake e x k en b)
        else
          match tieIn x.s b with
          | none => .wait x
          | some (s1, a) =>
            if a.uses < bindUse en.bind then .taken { x with s := s1 }
            else
              let s2 := { s1 with m := { s1.m with accum := s1.m.accum.filter fun y => y.block ≠ b.block } }
              .taken (engineTake e { x with s := s2 } k en
                { bucket := a.bucket, block := a.block, vals := a.vals, nf := a.nf, mask := a.mask })
      else if en.fired || en.got.isSome then .wait x
      else
        let s0 := x.s.csrField 0x614 1 1 1
        let s1 := { s0 with upd := { s0.upd with stopped := true } }
        .fault ({ x with s := s1 }.raise
          { source := Config.recordSource 1, cls := 1, loc := siteLoc e.id, addr := b.bucket * 2 ^ 16 + b.block,
            detail := [s1.csrWord 0x600, s1.csrWord 0x604, s1.csrWord 0x608, s1.csrWord 0x614] })

/-- The gradient element of R305: widened exactly, scaled by 2^−e_S, each multiplication rounding once. -/
def gradElem (s : Site) (w : Word) : Val :=
  let es := (BitVec.ofNat 8 (bits (s.csrWord 0x62C) 31 24)).toInt
  r32 (mulVal (f32 w) (.num false 1 (-es)))

/-- c_lag of the running step (Table 11.13). -/
def cLag (s : Site) : Val := f32 (s.csrWord 0x64C)

/-- The mask bit of an element's row. -/
def rowOn (mask : Word) (el : Nat) : Bool := mask.getLsbD (el % 32)

/-- The squares of a block's unmasked elements added to the site's partial, exact squares, FP64 additions (R318). -/
def addSquares (p : Val) (gs : List Val) (mask : Word) : Val :=
  (List.zipWith (fun i g => (i, g)) (List.range gs.length) gs).foldl (fun p ig =>
    if rowOn mask ig.1 then add64 p (mulVal ig.2 ig.2) else p) p

/-- The FP64 partial of the site. -/
def ssq (s : Site) : DWord := (s.csrWord 0x63C) ++ (s.csrWord 0x638)

/-- The site with its partial written. -/
def setSsq (s : Site) (v : DWord) : Site := (s.csrPut 0x638 (v.setWidth 32)).csrPut 0x63C ((v >>> 32).setWidth 32)

/-- Element lists transposed: from one list per part to one list per element. -/
def byElem (ps : List (List Word)) : List (List Val) :=
  (List.range 1024).map fun i => ps.map fun p => f32 (nth 0 p i)

/-- The half that updates write, of a record of group g, written from the new words of each element. Rows whose mask bit is clear take, bit
for bit, the words that stand at unit `old` (R305, R307), and the copy that stands there; in a guarded update, which does not read the live copy
(Table 11.1), their copy is formed from their w (`anew`, log entry 146). `made` are the parts that the update produces: whether one of them, or
the copy, is not finite is reported for the taint check (R320 cause 0x2). -/
def writeHalf (anew : Bool) (s : Site) (b : Nat) (mask : Word) (old : Nat) (made : List Nat) (new : List (List Word)) : Site × Bool :=
  let g := bindGroup b
  let f := grpCopy s g
  let n := 1 + slotsOf s g
  let was := readParts s g old
  let copyWas := readCopy s g old
  let parts := (List.range n).map fun k => (List.range 1024).map fun i => if rowOn mask i then nth 0 (nth [] new i) k else nth 0 (nth [] was k) i
  let codes := if copyUnits f = 0 then [] else
    (List.range 1024).map fun i => if anew || rowOn mask i then copyCode f (nth 0 (nth [] parts 0) i) else nth 0 copyWas i
  let finite := (List.range 1024).all fun i => !rowOn mask i ||
    (made.all fun k => !nonFinite (f32 (nth 0 (nth [] parts k) i))) &&
      (copyUnits f = 0 || match fmtOf f with | some F => !nonFinite (decodeVal F (nth 0 codes i)) | none => true)
  let u := halfUnit s b (workHalf s)
  let s1 := if copyUnits f = 0 then s else writeUnits s (partOff s g u 0) (codeBytes f codes)
  let s2 := (List.range n).foldl (fun t k => writeUnits t (partOff t g u (k + 1)) (wordsBytes (nth [] parts k))) s1
  (s2, !finite)

/-- What a Minuet program reads beside its registers (Table 11.6). -/
structure MinIn where
  g : List Val
  live : List (List Word)
  lr : Word
  t : Nat
  clag : Word
  hyper : Nat → Word

/-- A Minuet source for element i. -/
def minSrc (m : MinIn) (sel i : Nat) : Word :=
  if sel = 0 then toF32 (nth oneVal m.g i)
  else if sel ≤ 5 then nth 0 (nth [] m.live (sel - 1)) i
  else if sel = 0x10 then m.lr
  else if sel = 0x11 then toF32 (natVal m.t)
  else if sel = 0x12 then m.clag
  else if sel = 0x13 then toF32 (natVal (i % 32))
  else if sel = 0x14 then toF32 (natVal (i / 32))
  else if 0x20 ≤ sel && sel ≤ 0x29 then m.hyper (sel - 0x20)
  else 0

/-- A Minuet operation on values (Table 11.5). The loader refuses a reserved OP (R316). -/
def minOp (op : Nat) (a b c : Word) : Word :=
  let x := f32 a
  let y := f32 b
  let z := f32 c
  match op with
  | 0x03 => toF32 (addVal x y)
  | 0x04 => toF32 (subVal x y)
  | 0x05 => toF32 (mulVal x y)
  | 0x06 => toF32 (addVal (mulVal x y) z)
  | 0x07 => BitVec.ofNat 32 (divCode fp32 x y)
  | 0x08 => BitVec.ofNat 32 (sqrtCode fp32 x)
  | 0x09 => vRsqrt a
  | 0x0A => toF32 (minVal x y)
  | 0x0B => toF32 (maxVal x y)
  | 0x0C => toF32 (absVal x)
  | 0x0D => toF32 (negVal x)
  | 0x0E => toF32 (signVal x)
  | 0x0F => if ltVal (natVal 0) x then b else c
  | 0x10 => vExp false a
  | _ => vLog false a

/-- A block reduction (Table 11.5), formed in FP64 in element order and rounded once to FP32. -/
def minReduce (op : Nat) (l : List Word) : Word :=
  toF32 (l.foldl (fun acc w =>
    let v := f32 w
    if op = 0x12 then add64 acc v
    else if op = 0x13 then add64 acc (mul64 v v)
    else maxVal acc (absVal v)) (natVal 0))

/-- The registers and the stored parts of every element: 16 registers, then w and the slots. -/
structure MinEl where
  f : List Word
  out : List Word
  deriving DecidableEq, Repr

/-- One Minuet instruction for every element; none at END (R315). -/
def minStep (m : MinIn) (w : Word) (els : List MinEl) : Option (List MinEl) :=
  let op := bits w 31 26
  let d := bits w 25 22
  let a := bits w 21 18
  let b := bits w 17 14
  let c := bits w 13 10
  let sel := bits w 9 0
  let idx := List.zipWith (fun i x => (i, x)) (List.range els.length) els
  if op = 0x3F then none
  else if op = 0x01 then some (idx.map fun ie => { ie.2 with f := setNth ie.2.f d (minSrc m sel ie.1) })
  else if op = 0x02 then some (els.map fun x => { x with out := setNth x.out (sel - 1) (nth 0 x.f a) })
  else if 0x12 ≤ op && op ≤ 0x14 then
    let r := minReduce op (els.map fun x => nth 0 x.f a)
    some (els.map fun x => { x with f := setNth x.f d r })
  else some (els.map fun x => { x with f := setNth x.f d (minOp op (nth 0 x.f a) (nth 0 x.f b) (nth 0 x.f c)) })

/-- A program run to its END (R315). -/
def minRun (m : MinIn) : List Word → List MinEl → List MinEl
  | [], els => els
  | w :: l, els =>
    match minStep m w els with
    | none => els
    | some els' => minRun m l els'

/-- The instructions of Minuet program p (Table 11.14), up to its END. -/
def minProgram (s : Site) (p : Nat) : List Word :=
  ((List.range 256).map fun i => s.csrWord (0x10000 + 1024 * p + 4 * i)).takeWhile fun w => bits w 31 26 ≠ 0x3F

/-- What an operation uses of D, A, B and C, and whether it uses SEL (Table 11.5); none for a reserved OP. -/
def minUses (op : Nat) : Option (Bool × Bool × Bool × Bool × Bool) :=
  if op = 0x01 then some (true, false, false, false, true)
  else if op = 0x02 then some (false, true, false, false, true)
  else if op = 0x06 || op = 0x0F then some (true, true, true, true, false)
  else if [0x03, 0x04, 0x05, 0x07, 0x0A, 0x0B].contains op then some (true, true, true, false, false)
  else if [0x08, 0x09, 0x0C, 0x0D, 0x0E, 0x10, 0x11, 0x12, 0x13, 0x14].contains op then some (true, true, false, false, false)
  else if op = 0x3F then some (false, false, false, false, false)
  else none

/-- The SEL is listed in Table 11.6 for a load, for a store. -/
def minSel (load : Bool) (sel : Nat) : Bool :=
  (1 ≤ sel && decide (sel ≤ 5)) ||
    load && (sel = 0 || (decide (0x10 ≤ sel) && decide (sel ≤ 0x14)) || (decide (0x20 ≤ sel) && decide (sel ≤ 0x29)))

/-- An instruction that the loader refuses in any program (R316): a reserved OP, a field that its OP does not use and that is not zero, or
a SEL that Table 11.6 does not list. -/
def minWordBad (w : Word) : Bool :=
  match minUses (bits w 31 26) with
  | none => true
  | some (d, a, b, c, sel) =>
    (!d && bits w 25 22 ≠ 0) || (!a && bits w 21 18 ≠ 0) || (!b && bits w 17 14 ≠ 0) || (!c && bits w 13 10 ≠ 0) ||
      (if sel then !minSel (bits w 31 26 = 0x01) (bits w 9 0) else bits w 9 0 ≠ 0)

/-- The program breaks a rule of R316 that holds whatever group runs it; one of 256 instructions without an END lacks it. -/
def minProgramBad (s : Site) (p : Nat) : Bool :=
  let l := minProgram s p
  l.any minWordBad || decide (l.length = 256) || (s.csrWord (0x10000 + 1024 * p + 4 * l.length)).toNat % 2 ^ 26 ≠ 0

/-- A group with OPT 4 breaks a rule of R316: its program has a block reduction without MBLK, or names a slot at or above NSLOT. -/
def minGroupBad (s : Site) (g : Nat) : Bool :=
  grpOpt s g = 4 && (minProgram s (bits (grpWord s g 0) 18 15)).any fun w =>
    let op := bits w 31 26
    (decide (0x12 ≤ op) && decide (op ≤ 0x14) && !bit (grpWord s g 0) 14) ||
      (decide (op ≤ 2) && decide (2 ≤ bits w 9 0) && decide (bits w 9 0 ≤ 5) && decide (slotsOf s g + 2 ≤ bits w 9 0))

/-- The parts that a Minuet program stores. -/
def minStores (s : Site) (g : Nat) : List Nat :=
  ((minProgram s (bits (grpWord s g 0) 18 15)).filter fun w => bits w 31 26 = 2).map fun w => bits w 9 0 - 1

/-- MINUET_RUN: the new parts of every element of a block of an OPT 4 group (R315). -/
def minuet (s : Site) (g : Nat) (gs : List Val) (live : List (List Word)) : List (List Word) :=
  let code := minProgram s (bits (grpWord s g 0) 18 15)
  let m : MinIn :=
    { g := gs, live := live, lr := learnRate s g, t := groupStep s g + 1,
      clag := if grpClip s g = 3 then s.csrWord 0x64C else toF32 oneVal,
      hyper := fun i => grpWord s g (6 + i) }
  (minRun m code ((List.range 1024).map fun i => { f := List.replicate 16 0, out := live.map fun p => nth 0 p i })).map (·.out)

/-- The committed values of an entry's block: those parked in its slot, where they are (R312). -/
def blockVals (s : Site) (en : BtEntry) (blk : EngBlk) : List Word :=
  if en.parked then s.words (256 * parkUnit s en.slot) 1024 else blk.vals

/-- The update of one block (R305 to R307, R315, R318). -/
def updateBlock (e : SEnv) (x : SS) (en : BtEntry) (blk : EngBlk) : SS :=
  let b := en.bind
  let g := bindGroup b
  let lu := liveUnit x.s en
  if !trains x.s g then carry e x en
  else
    match (match readState e g lu x with
      | (y, true) => (y, true)
      | (y, false) => if en.parked then readUnits e (parkUnit x.s en.slot) 16 y else (y, false)) with
    | (y, true) => detectTaint e y 6 blk.bucket blk.block g
    | (y, false) =>
      let s := y.s
      let clip := grpClip s g
      let g0 := (blockVals s en blk).map (gradElem s)
      let s1 := if clip = 0 then s
        else
          let t := setSsq s (toF64 (addSquares (f64 (ssq s)) g0 blk.mask))
          { t with upd := { t.upd with counted := true, clip1 := t.upd.clip1 || clip = 1 } }
      let gs := if clip = 3 then g0.map (fun v => mul32 v (cLag s)) else g0
      let live := readParts s g lu
      let new := if grpOpt s g = 4 then minuet s g gs live
        else List.zipWith (fun v old => (optElem (grpOpt s g) (optConst s g) v old).map toF32) gs (byElem live)
      match writeHalf (!leanMode s1) s1 b blk.mask lu (if grpOpt s g = 4 then minStores s g else List.range live.length) new with
      | (s2, bad) =>
        let z := { y with s := { s2 with upd := { s2.upd with updated := true } } }
        if bad then detectTaint e z 2 blk.bucket blk.block g else z

/-- BLOCK_UPDATE: the first block waiting to fire, in commit order, is updated; a Stratus block waits for its state (R310,
R312); a tainted step computes nothing (R321), nor does an engine that has stopped (R311). -/
def blockUpdate (e : SEnv) (x : SS) : SS :=
  match x.s.upd.queue with
  | [] => x
  | k :: l =>
    match btGet x.s k with
    | none => x.upd fun s => { s with upd := { s.upd with queue := l } }
    | some en =>
      match en.got with
      | none => x.upd fun s => { s with upd := { s.upd with queue := l } }
      | some blk =>
        if tainted x.s then x.upd fun s => { btFree s k with upd := { (btFree s k).upd with queue := l } }
        else if en.res = 2 || x.s.upd.stopped then x
        else
          let y := updateBlock e x en blk
          y.upd fun s =>
            let s1 := btSet s k { en with fired := true }
            { s1 with upd := { s1.upd with
                queue := l
                fired := if trains s (bindGroup en.bind) && grpClip s (bindGroup en.bind) = 1 then
                    s1.upd.fired ++ [{ bind := en.bind, idx := en.idx, bucket := blk.bucket, mask := blk.mask }]
                  else s1.upd.fired } }

/-- UPDATE_WRITE_COMPLETE: the writes of the oldest fired update are complete; its entry and slot are freed (R310, R312). -/
def updateComplete (s : Site) : Site :=
  let l := s.upd.bt.filter fun x => x.2.fired
  match l with
  | [] => s
  | x :: xs =>
    let o := xs.foldl (fun a b => if b.2.idx < a.2.idx then b else a) x
    let s1 := btFree s o.1
    { s1 with upd := { s1.upd with proc := s1.upd.proc + 1, slots := s1.upd.slots - bindTier o.2.bind } }

/-- What a site does on learning of a taint (R321): binding stops and slots are freed once their reads complete. -/
def taintSite (s : Site) : Site :=
  let s1 := s.csrField 0x624 16 16 1
  let keep := s1.upd.bt.filter fun x => x.2.fired || x.2.res = 2
  { s1 with upd := { s1.upd with bt := keep, queue := [], slots := (keep.map fun x => bindTier x.2.bind).sum,
                                 waitSlot := false },
            m := { s1.m with accum := [] } }

/-- The fold of one block (R324): only rows whose mask bit is set; the others stay as the shadow half has them. It reads live w and slots, and the shadow slots; a unit of them that cannot be read
taints (R320 cause 0x6). -/
def foldBlock (e : SEnv) (x : SS) (f : Fired) : SS :=
  let b := f.bind
  let g := bindGroup b
  let lu := halfUnit x.s b (liveHalf x.s)
  let wu := halfUnit x.s b (workHalf x.s)
  match (match readState e g lu x with
    | (y, true) => (y, true)
    | (y, false) => readUnits e (wu + copyUnits (grpCopy y.s g) + 16) (16 * slotsOf y.s g) y) with
  | (y, true) => detectTaint e y 6 f.bucket (bindBlock b) g
  | (y, false) =>
    let s := y.s
    let c := f32 (s.csrWord 0x648)
    let sh := readParts s g wu
    let new := List.zipWith (fun l h => (foldElem (grpOpt s g) (optConst s g) c l h).map toF32) (byElem (readParts s g lu)) (byElem sh)
    match writeHalf false s b f.mask wu (List.range sh.length) new with
    | (s1, bad) =>
      if bad then detectTaint e { y with s := s1 } 7 f.bucket (bindBlock b) g else { y with s := s1 }

/-- FOLD at a site: every fired CLIP 1 block, in list order (R324); a site at thermal level 4 holds the fold (R326). -/
def foldSite (e : SEnv) (x : SS) : SS :=
  if bits (x.s.csrWord 0x10) 2 0 = 4 || x.s.upd.folded then x
  else
    let l := sortBy (fun a b => decide (a.idx ≤ b.idx)) x.s.upd.fired
    (l.foldl (foldBlock e) x).upd fun s => { s with upd := { s.upd with folded := true } }

/-- Valid records of the bucket table (R288). -/
def bktCount (s : Site) : Nat → Nat → Nat
  | 0, i => i
  | n + 1, i => if bit (s.csrWord (0x1000 + 8 * i)) 15 then bktCount s n (i + 1) else i

/-- DONE: every record has committed this step (R290, R291). -/
def redDone (s : Site) : Bool := s.red.started && decide (bktCount s 4096 0 ≤ s.red.head)

/-- The site has finished its step (R319). A tainted site has no binding left to complete (R321). -/
def siteFinished (s : Site) : Bool :=
  redDone s && (tainted s || decide (bits (s.csrWord 0x608) 20 0 ≤ s.upd.next)) && s.upd.bt.isEmpty && s.upd.queue.isEmpty

/-- Fields of an export-list entry (R331). -/
def expEntry (s : Site) (i : Nat) : Nat := ofLeBytes (s.bytes (256 * bits (s.csrWord 0x660) 27 0 + 32 * i) 32)

/-- Bits [hi:lo] of a number. -/
def field (x hi lo : Nat) : Nat := x / 2 ^ lo % 2 ^ (hi + 1 - lo)

/-- The elements of one part of a shard, in row-major order (R331, R332). -/
def shardData (s : Site) (half n p : Nat) : List Byte :=
  let g := field n 119 112
  let rows := 32 * (field n 99 96 + 1)
  let nbc := field n 103 100 + 1
  let h := if leanMode s then 1 else 2
  let f := if p = 0 then grpCopy s g else 0
  let w := elemBits f / 8
  let base (i j : Nat) : Nat :=
    256 * (field n 153 120 + (i * nbc + j) * recu s g * h + half * recu s g +
      (if p = 0 then 0 else copyUnits (grpCopy s g) + 16 * (p - 1)))
  (List.range rows).flatMap fun r => (List.range (32 * nbc)).flatMap fun c =>
    s.bytes (base (r / 32) (c / 32) + w * (32 * (c % 32) + r % 32)) w

/-- A shard record: the header of Table 11.11, the data, the CRC over both. STEP is that of the half read, as the export found it. -/
def shardRecord (s : Site) (half n p : Nat) : List Byte :=
  let g := field n 119 112
  let data := shardData s half n p
  let head := leBytes (field n 31 0) 4 ++ leBytes (field n 63 32) 4 ++ leBytes (32 * (field n 99 96 + 1)) 4 ++
    leBytes (field n 95 64) 4 ++ leBytes (32 * (field n 103 100 + 1)) 4 ++ leBytes s.exp.step 4 ++
    [BitVec.ofNat 8 half, BitVec.ofNat 8 (if p = 0 then grpCopy s g else 0), BitVec.ofNat 8 p, BitVec.ofNat 8 g,
      BitVec.ofNat 8 (grpOpt s g)] ++ leBytes 0 3 ++ leBytes (64 + data.length) 8 ++ leBytes 0 20
  head ++ leBytes (crc32 (head ++ data)) 4 ++ data

/-- The parts an entry names and its group holds (R331). -/
def shardParts (s : Site) (n : Nat) : List Nat :=
  let g := field n 119 112
  (List.range 6).filter fun p => (field n 109 104).testBit p &&
    (if p = 0 then decide (copyUnits (grpCopy s g) ≠ 0) else decide (p ≤ 1 + slotsOf s g))

/-- A record written to the export area (R332). One that reaches the end of HBM stops the export with FAULT: the records before it stand,
and what of it is written fails its CRC (R333). -/
def exportRecord (n : Nat) (s : Site) (p : Nat) : Site :=
  if !s.exp.busy then s
  else
    let l := shardRecord s s.exp.half n p
    let o := 256 * bits (s.csrWord 0x668) 27 0 + s.exp.out
    let t := writeUnits s o (l.take (hbmEnd - o))
    if hbmEnd < o + l.length then { t.csrField 0x614 1 1 1 with exp := { t.exp with busy := false } }
    else { t with exp := { t.exp with out := t.exp.out + (l.length + 255) / 256 * 256 } }

/-- One entry of an export (R332): a record per part, each at a unit boundary; DONE counts it once all are written (R333). -/
def exportEntry (s : Site) : Site :=
  if !s.exp.busy then s
  else
    let n := expEntry s s.exp.next
    let t := (shardParts s n).foldl (exportRecord n) s
    if t.exp.busy then { t with exp := { t.exp with next := t.exp.next + 1 } } else t

/-- Export entries to the end of the list. -/
def exportRest : Nat → Site → Site
  | 0, s => s
  | n + 1, s => if s.exp.busy && decide (s.exp.next < bits (s.csrWord 0x664) 19 0) then exportRest n (exportEntry s) else s

end Sys2Proof.Machine
end

