-- ==== Sys2Proof/Machine/SiteRed.lean ====
section
/-!
DEFINITION. The reduction at a site (R282, R288 to R298): root flits, the sample check, commit, the retry, and the writes of
SITE_RED_STEP.
-/

namespace Sys2Proof.Machine

/-- The low and high words of bucket record i (Table 10.8). -/
def bktLo (s : Site) (i : Nat) : Word := s.csrWord (0x1000 + 8 * i)
@[inherit_doc bktLo] def bktHi (s : Site) (i : Nat) : Word := s.csrWord (0x1004 + 8 * i)

/-- Fields of a bucket record. -/
def bktNum (s : Site) (i : Nat) : Nat := bits (bktHi s i) 31 16
@[inherit_doc bktNum] def bktPr (s : Site) (i : Nat) : Nat := bits (bktHi s i) 15 8
@[inherit_doc bktNum] def bktMr (s : Site) (i : Nat) : Nat := bits (bktHi s i) 7 0
@[inherit_doc bktNum] def bktTr (s : Site) (i : Nat) : Nat := bits (bktLo s i) 31 24
@[inherit_doc bktNum] def bktMen (s : Site) (i : Nat) : Bool := bit (bktLo s i) 23
@[inherit_doc bktNum] def bktWide (s : Site) (i : Nat) : Bool := bit (bktLo s i) 22
@[inherit_doc bktNum] def bktKind (s : Site) (i : Nat) : Nat := bits (bktLo s i) 21 21
@[inherit_doc bktNum] def bktCol (s : Site) (i : Nat) : Nat := bits (bktLo s i) 20 19
@[inherit_doc bktNum] def bktWin (s : Site) (i : Nat) : Nat := bits (bktLo s i) 18 16
@[inherit_doc bktNum] def bktBlocks (s : Site) (i : Nat) : Nat := bits (bktLo s i) 5 0 + 1

/-- The record of a bucket in the table. -/
def bktFind (s : Site) (b : Nat) : Option Nat := (List.range (bktCount s 4096 0)).find? fun i => bktNum s i = b

/-- The window's state for record i. -/
def bktGet (s : Site) (i : Nat) : RedBkt := Map.get (fun _ => {}) s.red.bkts i

/-- The site with it replaced. -/
def bktSet (s : Site) (i : Nat) (b : RedBkt) : Site :=
  { s with red := { s.red with bkts := Map.set (fun _ => {}) s.red.bkts i b } }

/-- What a reduction command at a site sends out: acknowledgements by edge link, the link whose slot it freed, a relayed flit
with its output link. -/
structure RedOut where
  x : SS
  acks : List (Nat × BktAck) := []
  freed : Option Nat := none
  relay : Option (Nat × RedFlit) := none
  deriving DecidableEq, Repr

/-- SITE_RDESC entry d (Table 10.5). -/
def siteRdesc (s : Site) (d : Nat) : Word := s.csrWord (0x200 + 4 * d)

/-- INLINK and OUTLINK of an entry. -/
def rdIn (w : Word) : Nat := bits w 25 21
@[inherit_doc rdIn] def rdRelay (w : Word) : Nat := bits w 20 16

/-- The flit of a descriptor at the front of a link's slots. -/
def redFront (s : Site) (d : Nat) : Option (Nat × RedFlit) :=
  match s.red.vc1.find? fun e => e.1 % 256 = d && !e.2.isEmpty with
  | some (k, f :: _) => some (k / 256, f)
  | _ => none

/-- The slots of a link and descriptor without their first flit. -/
def popVc1 (s : Site) (j d : Nat) : Site :=
  let k := 256 * j + d
  { s with red := { s.red with vc1 := Map.set (fun _ => []) s.red.vc1 k ((Map.get (fun _ => []) s.red.vc1 k).drop 1) } }

/-- A descriptor stops at the site (R265, R282, R289): FAULT is set and a hard-fault record of SOURCE 0x25 raised. -/
def stopAtSite (e : SEnv) (x : SS) (d : Nat) (f : RedFlit) : SS :=
  let s := (x.s.csrField 0x68 4 4 1)
  { x with s := { s with red := { s.red with stopped := if s.red.stopped.contains d then s.red.stopped
                                                        else s.red.stopped ++ [d] } } }.raise
    { source := 0x25, cls := 1, loc := siteLoc e.id, code := d, addr := f.bucket * 2 ^ 16 + f.block,
      detail := [s.csrWord 0x68, s.csrWord 0x70, s.csrWord 0x74, s.csrWord 0x78, s.csrWord 0x7C, s.csrWord 0x80] }

/-- Which stream of record i a flit belongs to (R289): none where RDESC and MIR do not match the record. -/
def streamFor (s : Site) (i d : Nat) (f : RedFlit) : Option Nat :=
  let b := bktGet s i
  if f.wide ≠ bktWide s i then none
  else if d = bktPr s i && !f.mir then some 0
  else if bktMen s i && d = bktMr s i && f.mir then some 1
  else if bktMen s i && d = bktTr s i && !f.mir && b.resent then some 2
  else none

/-- Flits of a block of record i. -/
def bktFlits (s : Site) (i : Nat) : Nat := blockFlits (bktWide s i) (bktCol s i)

/-- The block of a stream. -/
def redBlk (b : RedBkt) (stream block : Nat) : Option RedBlk := b.blocks.find? fun r => r.stream = stream && r.block = block

/-- The block is complete. -/
def blkDone (s : Site) (i : Nat) (r : RedBlk) : Bool := decide (bktFlits s i ≤ r.flits.length)

/-- The sample check chooses this block at the site (R293). -/
def siteChosen (s : Site) (i block : Nat) : Bool :=
  bktMen s i && chosen (bits (s.csrWord 0x60) 31 16) (s.csrWord 0x64).toNat (bits (s.csrWord 0x60) 3 0) (bktNum s i) block

/-- The flit of an offset. -/
def flitAt (r : RedBlk) (o : Nat) : Option RedFlit := r.flits.find? fun f => f.off = o

/-- Two flits agree in every bit of payload, MASK and NF (R294). -/
def flitEq (a b : Option RedFlit) : Bool :=
  match a, b with
  | some f, some g => f.data = g.data && f.mask = g.mask && f.nf = g.nf
  | none, none => true
  | _, _ => false

/-- Two blocks agree in every flit. -/
def blkEq (n : Nat) (a b : RedBlk) : Bool := (List.range n).all fun o => flitEq (flitAt a o) (flitAt b o)

/-- The words of SITE_RED_MIS0 and MIS1 for the first differing flit of two sums (Table 10.14). -/
def misWords (s : Site) (i : Nat) (a b : RedBlk) : Word × Word :=
  let o := ((List.range (bktFlits s i)).find? fun o => !flitEq (flitAt a o) (flitAt b o)).getD 0
  let f := (flitAt a o).getD ⟨0, 0, 0, false, false, 0, false, [], 0⟩
  let g := (flitAt b o).getD ⟨0, 0, 0, false, false, 0, false, [], 0⟩
  let w := if f.wide then 32 else 16
  let el := ((List.range (256 / w)).find? fun k =>
    unpack f.data w k ≠ unpack g.data w k || f.mask.testBit k ≠ g.mask.testBit k).getD 0
  (BitVec.ofNat 32 (2 ^ 31 + o * 2 ^ 22 + el * 2 ^ 18 + nb (f.nf ≠ g.nf) * 2 ^ 16 + bktNum s i),
    BitVec.ofNat 32 (a.block * 2 ^ 16 + bktMr s i * 2 ^ 8))

/-- A flit recorded as the first non-finite one (R296, Table 10.14). -/
def noteNf (s : Site) (f : RedFlit) : Site :=
  if !f.nf then s
  else
    let s1 := s.csrField 0x68 6 6 1
    if bit (s.csrWord 0x70) 31 then s1
    else
      let el := ((redVals f.wide f.data).findIdx? nonFinite).getD 0
      (s1.csrPut 0x70 (BitVec.ofNat 32 (2 ^ 31 + f.off * 2 ^ 24 + el * 2 ^ 20 + f.bucket))).csrPut 0x74
        (BitVec.ofNat 32 (f.block * 2 ^ 16))

/-- The primary and the mirror sum of a chosen block are compared once both are there (R294). -/
def sampleCheck (s : Site) (i block : Nat) : Site :=
  let b := bktGet s i
  match redBlk b 0 block, redBlk b 1 block with
  | some p, some m =>
    if blkDone s i p && blkDone s i m && siteChosen s i block then
      let n := s.red.sampled + 1
      let s1 := if n = 256 then { s.csrCount 0x80 31 16 1 with red := { s.red with sampled := 0 } }
        else { s with red := { s.red with sampled := n } }
      if blkEq (bktFlits s i) p m then s1
      else
        let s2 := (s1.csrCount 0x80 15 0 1).csrField 0x68 5 5 1
        let s3 := if bit (s.csrWord 0x78) 31 then s2
          else (s2.csrPut 0x78 (misWords s i p m).1).csrPut 0x7C (misWords s i p m).2
        bktSet s3 i { bktGet s3 i with marked := true }
    else s
  | _, _ => s

/-- A root flit taken into its block (R289, R294, R296). -/
def takeRoot (s : Site) (i stream : Nat) (f : RedFlit) : Site :=
  let b := bktGet s i
  let b1 := match redBlk b stream f.block with
    | none => { b with blocks := b.blocks ++ [{ block := f.block, stream := stream, flits := [f] }] }
    | some _ => { b with blocks := b.blocks.map fun r =>
        if r.stream = stream && r.block = f.block then { r with flits := r.flits ++ [f] } else r }
  let s1 := noteNf (bktSet s i b1) f
  if stream < 2 then sampleCheck s1 i f.block else s1

/-- The flit repeats a complete block of its stream, or opens a block beyond NBLK (R289). -/
def rootRepeats (s : Site) (i stream : Nat) (f : RedFlit) : Bool :=
  let b := bktGet s i
  match redBlk b stream f.block with
  | some r => blkDone s i r || (flitAt r f.off).isSome
  | none => decide (bktBlocks s i ≤ (b.blocks.filter fun r => r.stream = stream).length)

/-- RED_ROOT_FLIT (R282, R289): the head flit of descriptor d at the site is taken, relayed, left while its bucket lies beyond
the window, or stops the descriptor. `vp` is the owner of the field of the edge tile that delivered it. -/
def redRoot (e : SEnv) (x : SS) (d : Nat) (vp : Nat → Nat) : RedOut :=
  match redFront x.s d with
  | none => { x := x }
  | some (j, f) =>
    let w := siteRdesc x.s d
    if x.s.red.stopped.contains d then { x := x }
    else if vp j ≠ x.s.owner || !bit w 31 || rdIn w ≠ j then { x := stopAtSite e x d f }
    else if bit w 30 then { x := x.upd fun s => popVc1 s j d, freed := some j, relay := some (rdRelay w, f) }
    else
      match bktFind x.s f.bucket with
      | none => { x := stopAtSite e x d f }
      | some i =>
        if x.s.red.head + 64 ≤ i || !x.s.red.started then { x := x }
        else if i < x.s.red.head then { x := stopAtSite e x d f }
        else
          match streamFor x.s i d f with
          | none => { x := stopAtSite e x d f }
          | some k =>
            if rootRepeats x.s i k f then { x := stopAtSite e x d f }
            else { x := x.upd fun s => takeRoot (popVc1 s j d) i k f, freed := some j }

/-- A bucket is complete (R290). -/
def bktComplete (s : Site) (i : Nat) : Bool :=
  let b := bktGet s i
  let prim := b.blocks.filter fun r => r.stream = 0 && blkDone s i r
  decide (bktBlocks s i ≤ prim.length) && prim.all fun r =>
    !siteChosen s i r.block || (match redBlk b 1 r.block with | some m => blkDone s i m | none => false)

/-- The elements of a block's sum, widened to FP32 in element order, and the columns not sent as +0 (R298). -/
def blkVals (s : Site) (i : Nat) (r : RedBlk) : List Word :=
  let l := (List.range (bktFlits s i)).flatMap fun o =>
    match flitAt r o with
    | some f => (redVals f.wide f.data).map toF32
    | none => []
  l ++ List.replicate (1024 - l.length) 0

/-- The committed mask of a block: each row's bit where any flit carried it (R280). -/
def blkMask (r : RedBlk) : Word :=
  BitVec.ofNat 32 (r.flits.foldl (fun m f => m ||| f.mask <<< (if f.wide then 8 * (f.off % 4) else 16 * (f.off % 2))) 0)

/-- The words of a block's sum as staged. -/
def blkWords (s : Site) (i : Nat) (r : RedBlk) : List Word :=
  let n := if bktWide s i then 1024 else 512
  let l := (List.range (bktFlits s i)).flatMap fun o => match flitAt r o with | some f => f.data | none => []
  l ++ List.replicate (n - l.length) 0

/-- FACTOR_COMMIT: a block of a KIND 1 bucket goes to its factor window (R298); none while a fill must wait. -/
def factorCommit (s : Site) (i : Nat) (r : RedBlk) : Option Site :=
  let n := if bktWide s i then 16 else 8
  let u := winBase s (bktWin s i) + n * r.block
  let ok := (List.range n).all fun k => (windowOf s (u + k)).isNone || decide (readers s (u + k) = 0)
  if !ok then none
  else
    let s1 := writeUnits s (256 * u) (wordsBytes (blkWords s i r))
    some ((List.range n).foldl (fun t k =>
      match windowOf t (u + k) with
      | some w => setReaders t (u + k) (winDef t w)
      | none => t) s1)

/-- The blocks that the bucket's commit passes on, in ascending block number (R290, R295). -/
def commitBlocks (b : RedBkt) : List RedBlk :=
  sortBy (fun p q => decide (p.block ≤ q.block)) (b.blocks.filter fun r => r.stream = (if b.useRetry then 2 else 0))

/-- Blocks passed to the engine or the window until one must wait: what stands then, and how many were passed. -/
def passAll (e : SEnv) (i : Nat) : List RedBlk → SS → SS × Nat
  | [], x => (x, 0)
  | r :: l, x =>
    if bktKind x.s i = 1 then
      match factorCommit x.s i r with
      | none => (x, 0)
      | some s => match passAll e i l { x with s := s } with | (y, n) => (y, n + 1)
    else
      match passBlock e x { bucket := bktNum x.s i, block := r.block, vals := blkVals x.s i r,
                            nf := r.flits.any (fun f => f.nf), mask := blkMask r } with
      | .taken y => match passAll e i l y with | (z, n) => (z, n + 1)
      | .wait y => (y, 0)
      | .fault y => (y, 0)

/-- The acknowledgement or verdict of the bucket at the head, down PRDESC (R279, R294). -/
def bktAckOut (s : Site) (i : Nat) (resend : Bool) : Nat × BktAck :=
  (rdIn (siteRdesc s (bktPr s i)), { bucket := bktNum s i, rdesc := bktPr s i, resend := resend })

/-- BUCKET_COMMIT (R290, R294): the complete bucket at the head is committed and acknowledged; a marked one gets the resend
verdict first and waits for the retry; a commit that must wait goes on where it stopped. -/
def bucketCommit (e : SEnv) (x : SS) : RedOut :=
  let s := x.s
  let i := s.red.head
  let b := bktGet s i
  if !s.red.started || redDone s || !bktComplete s i || b.unresolved || s.upd.stopped then { x := x }
  else if b.marked && !b.decided then
    if b.resent then { x := x }
    else { x := { x with s := bktSet s i { b with resent := true } }, acks := [bktAckOut s i true] }
  else
    match passAll e i ((commitBlocks b).drop b.passed) x with
    | (y, n) =>
      if b.passed + n < (commitBlocks b).length then { x := y.upd fun s => bktSet s i { b with passed := b.passed + n } }
      else
        let s1 := y.s
        { x := { y with s := { s1 with red := { s1.red with head := i + 1, bkts := Map.erase s1.red.bkts i } } },
          acks := [bktAckOut s i false] }

/-- The block of a record whose primary and mirror sums differ first (R294). -/
def misBlock (s : Site) (i : Nat) : Nat :=
  let b := bktGet s i
  let differs (p : RedBlk) : Bool :=
    p.stream = 0 && siteChosen s i p.block && (match redBlk b 1 p.block with | some m => !blkEq (bktFlits s i) p m | none => false)
  ((b.blocks.filter differs).map (·.block)).foldl (fun a k => if a = 0 || k < a then k else a) 0

/-- RETRY_DECISION (R295, Table 10.9). -/
def retryDecision (e : SEnv) (x : SS) : SS :=
  let s := x.s
  let i := s.red.head
  let b := bktGet s i
  let n := bktFlits s i
  let retr := b.blocks.filter fun r => r.stream = 2 && blkDone s i r
  if !b.resent || b.decided || b.unresolved || decide (retr.length < bktBlocks s i) then x
  else
    let same (k : Nat) (r : RedBlk) : Bool := match redBlk b k r.block with | some p => blkEq n p r | none => false
    let eqP := retr.all (same 0)
    let eqM := retr.all fun r => !siteChosen s i r.block || same 1 r
    let out := if eqP then 1 else if eqM then 2 else 3
    let s1 := bktSet s i { b with decided := decide (out ≠ 3), useRetry := decide (out = 2), unresolved := decide (out = 3) }
    let w := s.csrWord 0x78
    let s2 := if bit w 31 && bits w 15 0 = bktNum s i && bits w 30 29 = 0 then s1.csrField 0x78 30 29 out else s1
    { x with s := s2 }.raise
      { source := 0x06, cls := if out = 3 then 1 else 2, loc := siteLoc e.id,
        code := if out = 1 then bktMr s i else bktPr s i, addr := bktNum s i * 2 ^ 16 + misBlock s i,
        detail := [s2.csrWord 0x68, s2.csrWord 0x70, s2.csrWord 0x74, s2.csrWord 0x78, s2.csrWord 0x7C, s2.csrWord 0x80] }

/-- An accepted write of SITE_RED_STEP (R291): the window is placed at the first record; partial sums and DONE are cleared. -/
def redStepWrite (s : Site) (v : Word) : Site :=
  let s1 := s.csrPut 0x64 v
  { s1 with red := { s1.red with started := true, head := 0, bkts := [] } }

/-- SITE_RED_STATUS (Table 10.13). -/
def redStatus (s : Site) : Word :=
  let n := bktCount s 4096 0
  let open_ := (s.red.bkts.filter fun e => !e.2.blocks.isEmpty).length
  BitVec.ofNat 32 ((if (s.red.started || s.red.held) && decide (s.red.head < n) then bktNum s s.red.head else 0xFFFF) * 2 ^ 16 +
    open_ * 2 ^ 8 + nb (redDone s) * 2 ^ 7 + (s.csrWord 0x68).toNat % 128)

/-- The site holds a request or state of its present owner (R265): the cache and its queues, a reduction or Pavane step that runs, an export. -/
def ownerState (s : Site) : Bool :=
  !cacheIdle s || !s.red.vc1.isEmpty || !s.red.bkts.isEmpty || (s.red.started && !redDone s) || !s.upd.bt.isEmpty || s.exp.busy ||
    (decide (1 ≤ pavState s) && decide (pavState s ≤ 4))

end Sys2Proof.Machine
end

