-- ==== Sys2Proof/Machine/Ops.lean ====
section
/-!
DEFINITION. Operations that commands share over the whole state: messages and mailboxes (R400, R406), the step record
(R330), quiescence (R403), the request of an abort (R413), the error log (R442 to R445), refusals (R475), and running
a part of a command on one tile or one site.
-/

namespace Sys2Proof.Machine

/-- An entry of a mailbox ring (R400): partition p's ring, 8 the module's. -/
def State.mailOf (s : State) (ring : Nat) : List Mail := Map.get (fun _ => []) s.mod.cc.mail ring
@[inherit_doc State.mailOf] def State.setMail (s : State) (ring : Nat) (l : List Mail) : State :=
  s.updMod fun x => { x with cc := { x.cc with mail := Map.set (fun _ => []) x.cc.mail ring l } }

/-- A notice that the hardware posts for the job service (R400): while the control complex restarts it waits in the ring, if that
has room; else the message leaves at once. -/
def State.post (s : State) (ring : Nat) (m : Msg) : State :=
  if s.mod.cc.up then s.say m
  else if 4096 ≤ (s.mailOf ring).length then s
  else s.setMail ring (s.mailOf ring ++ [{ msg := some m }])

/-- Bytes of a step record (Table 11.10). -/
def StepRec.bytes (r : StepRec) : List Byte :=
  leBytes r.step 4 ++ [BitVec.ofNat 8 r.outcome, BitVec.ofNat 8 r.epoch, BitVec.ofNat 8 r.escale, BitVec.ofNat 8 r.cause] ++
    leBytes r.nsq.toNat 8 ++ leBytes r.clip.toNat 4 ++ leBytes r.clag.toNat 4 ++ leBytes r.clean 4 ++ leBytes 0 4 ++
    leBytes r.time.toNat 8 ++ leBytes 0 216

/-- The step record that the registers of a site give for an outcome. -/
def stepRecOf (s : State) (x : Site) (outcome : Nat) : StepRec :=
  { step := pavStep x, outcome := outcome, epoch := pavEpoch x, escale := bits (x.csrWord 0x62C) 31 24,
    cause := bits (x.csrWord 0x624) 23 20, nsq := x.csrWord 0x644 ++ x.csrWord 0x640, clip := if x.upd.folded then x.csrWord 0x648 else 0x3F800000,
    clag := x.csrWord 0x64C, clean := bits (x.csrWord 0x630) 31 16, time := s.now }

/-- A change made at every site of a partition. -/
def State.eachSite (s : State) (p : Nat) (f : Site → Site) : State :=
  (s.sitesOf p).foldl (fun s n => s.setSite n (f (s.site n))) s

/-- The loss scale after an outcome (R325): ESCALE and CLEAN. -/
def lossScale (x : Site) (outcome : Nat) (halving : Bool) : Nat × Nat :=
  let signed (b : Nat) : Int := (BitVec.ofNat 8 b).toInt
  let w := x.csrWord 0x62C
  let es := bits w 31 24
  let clean := bits (x.csrWord 0x630) 31 16
  let grow := bits (x.csrWord 0x630) 15 0
  let byte (i : Int) : Nat := (i % 256).toNat
  if outcome = 8 then (es, clean)
  else if outcome = 6 || outcome = 7 then
    (if halving then byte (max (signed (bits w 23 16)) (signed es - 1)) else es, 0)
  else if grow ≠ 0 && grow ≤ clean + 1 then (byte (min (signed (bits w 15 8)) (signed es + 1)), 0)
  else (es, min 65535 (clean + 1))

/-- The steps of a RUN are done, or a HALT stops it (R407). -/
def RunCtl.over (r : RunCtl) : Bool := r.halt || (decide (r.req.n ≠ 0) && decide (r.req.n ≤ r.committed))

/-- A RUN that is over ends: STATE 3 becomes 2. -/
def State.endRun (s : State) (p : Nat) : State :=
  let q := s.part p
  match q.run with
  | some r => if r.over && q.state = 3 then s.setPart p { q with run := none, state := 2 } else s
  | none => s

/-- An outcome of the Pavane state machine (R322, R325, R330): every site of the partition takes STATE, ESCALE and CLEAN, and
DSITE writes the step record, which the job service posts. -/
def State.outcome (s : State) (p outcome : Nat) : State :=
  let d := s.dsite p
  let x := s.site d
  let sc := lossScale x outcome x.upd.halving
  let s1 := s.eachSite p fun y =>
    let y1 := (y.csrField 0x624 3 0 outcome).csrField 0x624 23 16 ((x.csrWord 0x624).toNat / 2 ^ 16 % 256)
    (y1.csrField 0x62C 31 24 sc.1).csrField 0x630 31 16 sc.2
  let r := stepRecOf s1 (s1.site d) outcome
  let s2 := s1.setSite d (writeUnit (s1.site d) (256 * bits (x.csrWord 0x650) 27 0) r.bytes)
  let q := s2.part p
  let s3 := s2.setPart p { q with
    wdog := false, step := false, fails := if outcome = 5 then 0 else q.fails,
    run := q.run.map fun r => if outcome = 5 then { r with committed := r.committed + 1, learned := true } else r }
  (s3.endRun p).post p (.hostOutcome p r)

/-- DSITE's part of an abort (Table 11.8): a step before its commit point is discarded, and is lost in lean mode once an update
was made; a flip completes first. -/
def State.pavAbort (s : State) (p : Nat) : State :=
  let x := s.site (s.dsite p)
  let st := pavState x
  if st = 1 || st = 2 || st = 3 then
    let updated := (s.sitesOf p).any fun n => (s.site n).upd.updated
    s.outcome p (if leanMode x && updated then 7 else 8)
  else s

/-- The partition is quiescent (R403); what no partition owns is. -/
def State.quiescent (s : State) (p : Nat) : Bool :=
  decide (8 ≤ p) || (s.busyTiles p).all (fun x => !runBit x.2 && queuesEmpty x.2 && decide (outstanding x.2 = 0) && decide (pend x.2.ope = 0) &&
    !redHeld x.2.rtr) &&
  (s.sitesOf p).all (fun n =>
    let x := s.site n
    x.m.queue.isEmpty && x.m.parked.isEmpty && x.red.vc1.isEmpty && !(x.out.any fun y => isBktAck y.2) && !(1 ≤ pavState x && pavState x ≤ 4)) &&
  (s.portsOf p).all fun q => (s.port q).xfers.isEmpty

/-- The router input buffer of a port, VC and class. -/
def bufKey (port vc cls : Nat) : Nat := 16 * port + 2 * vc + cls
@[inherit_doc bufKey] def routerBuf (t : Tile) (port vc cls : Nat) : List Flit :=
  Map.get (fun _ => []) t.rtr.bufs (bufKey port vc cls)
@[inherit_doc bufKey] def setRouterBuf (t : Tile) (port vc cls : Nat) (l : List Flit) : Tile :=
  { t with rtr := { t.rtr with bufs := Map.set (fun _ => []) t.rtr.bufs (bufKey port vc cls) l } }

/-- ACTIVE of a field's route epoch (Table 8.10). -/
def State.activeBank (s : State) (f : Nat) : Nat := bits ((s.field f).csrWord 0x10) 0 0

/-- The field's tiles are powered and ready, so that it is no hole (R33). -/
def State.live (s : State) (f : Nat) : Bool := decide ((s.field f).power = 2) && !(s.field f).unreach

/-- Flits that an input buffer of a VC and class holds (Table 8.2). -/
def vcSize (vc : Nat) : Nat :=
  match vc with
  | 0 => 2
  | 1 => 32
  | 2 => 4
  | 3 => 12
  | 4 => 16
  | _ => 4

/-- The input buffer of a router has room for the flit (R215). -/
def hasRoom (t : Tile) (port : Nat) (f : Flit) : Bool := decide ((routerBuf t port f.vc f.cls).length < vcSize f.vc)

/-- The outward port of a tile that leads to a site. -/
def edgePort (t site : Nat) : Option Nat :=
  [1, 2, 3, 4].find? fun q => match edgeLink t q with | some (m, _) => m = site | none => false

/-- Two flits stand in one queue of an edge link: the edge, the VC and the class are the same. -/
def sameLine (a b : Nat × Flit) : Bool := a.1 = b.1 && a.2.vc = b.2.vc && a.2.cls = b.2.cls

/-- A flit that a site sends enters the router of the edge tile by its outward port (R230, log entry 15), or waits at the site for a credit
behind those that wait (R215), or to be sent again where it fails its CRC (R241); it is lost where that tile lies in a hole. What answers a Halo
request goes to its port. -/
def State.fromSite (s : State) (n edge : Nat) (f : Flit) : State :=
  if 2 ^ 20 ≤ edge then s.haloReturn edge f
  else if !s.live (fieldOf edge) then s
  else
    let port := (edgePort edge n).getD 1
    let t := s.tile edge
    let g := { f with ep := s.activeBank (fieldOf edge) }
    let x := s.site n
    if (x.out.any fun y => sameLine y (edge, g)) || !hasRoom t port g || t.rtr.linkFail.contains port ||
        0 < Map.get (fun _ => 0) t.rtr.edgeBad port then s.setSite n { x with out := x.out ++ [(edge, g)] }
    else s.setTile edge (setRouterBuf t port g.vc g.cls (routerBuf t port g.vc g.cls ++ [g]))

/-- The first flit that waits at a site for an input buffer of an edge tile that has room, and what is left. -/
def nextOut (t : Tile) (edge port : Nat) : List (Nat × Flit) → List (Nat × Flit) → Option (Flit × List (Nat × Flit))
  | _, [] => none
  | seen, y :: l =>
    if y.1 = edge && !seen.any (sameLine y) && hasRoom t port y.2 then some (y.2, l)
    else (nextOut t edge port (seen ++ [y]) l).map fun r => (r.1, y :: r.2)

/-- What stands around a site. -/
def State.siteEnv (s : State) (n : Nat) : SEnv :=
  let x := s.site n
  let c := n / 2
  { id := n, now := s.now, quiet := s.quiescent x.owner,
    strav := decide (x.owner ≠ 15) && decide (s.chanOwner c = x.owner) && decide ((s.site (2 * c)).chState = 2) && !x.strDirty,
    share := s.mod.share * 0x1000000000 }

/-- Injections armed in the ports and fields of a partition are disarmed (R446); the sites' and tiles' own go with their abort. -/
def State.disarm (s : State) (p : Nat) : State :=
  let s1 := (s.portsOf p).foldl (fun s q => s.setPort q ((s.port q).csrField 0x20 30 28 0)) s
  let w := s.ez 0x7000
  if 2 ≤ bits w 30 27 && bits w 30 27 ≤ 5 && s.fieldOwner (bits w 26 20) = p then s1.ezField 0x7000 31 31 0 else s1

/-- The request of a partition abort (R413, Tables 16.7, 16.11): the first request sets ACAUSE; sequencers issue nothing more
(STATE 4); the sites begin R270 and R297, the ports R393, and DSITE applies Table 11.8. A manifest being loaded is refused with
reason 0x0C. ABORT_COMPLETE does the rest. -/
def State.requestAbort (s : State) (p cause : Nat) : State :=
  let x := s.part p
  if 8 ≤ p || x.state = 0 || x.state = 4 then s
  else if x.state = 5 then
    (s.setPart p { x with state := 1, acause := cause, job := none }).say (.hostRefused x.loadTag p 0x0C 0 0 0)
  else
    let s1 := s.setPart p { x with
      state := 4, acause := cause, wdog := false, after := if x.state = 6 then 6 else if x.job.isSome then 2 else 1 }
    let s2 := s1.pavAbort p
    let s3 := (s2.portsOf p).foldl (fun s q => (s.endAll q 5).recallReqs q) s2
    let s4 := (s3.sitesOf p).foldl (fun s n =>
      let r := siteAbort (s.siteEnv n) { s := s.site n, free := s.free } 0x18
      r.ret.foldl (fun s ef => s.fromSite n ef.1 ef.2) (s.setSite n r.s)) s3
    s4.disarm p

/-- The locators of a field, a port, the module, a partition (Table 18.3). -/
def fieldLoc (f : Nat) : Nat := 2 * 2 ^ 28 + f
@[inherit_doc fieldLoc] def portLoc (q lane : Nat) : Nat := 4 * 2 ^ 28 + lane * 2 ^ 8 + q
@[inherit_doc fieldLoc] def feedLoc (k : Nat) : Nat := 5 * 2 ^ 28 + k
@[inherit_doc fieldLoc] def partLoc (p : Nat) : Nat := 6 * 2 ^ 28 + p
@[inherit_doc fieldLoc] def linkLoc (t port : Nat) : Nat := 2 ^ 28 + port * 2 ^ 17 + t

/-- The partition a locator concerns (Table 18.3). -/
def State.locPart (s : State) (loc : Nat) : Nat :=
  match loc / 2 ^ 28 with
  | 0 => s.tilePart (loc % 2 ^ 17)
  | 1 => s.tilePart (loc % 2 ^ 17)
  | 2 => s.fieldOwner (loc % 128)
  | 3 => (s.site (loc % 64)).owner
  | 4 => s.portOwner (loc % 16)
  | 6 => loc % 16
  | _ => 15

/-- PHYS of a locator (Table 18.3). -/
def State.locPhys (s : State) (loc : Nat) : Nat :=
  if loc / 2 ^ 28 ≤ 1 then physOf (s.field (fieldOf (loc % 2 ^ 17))).bypass (loc % 2 ^ 17) else 2 ^ 32 - 1

/-- The sources whose CODE the manual states (Table 18.3): PORT and BYTES, FCAUSE, the ERR or ECODE, a taint cause, a descriptor, a
phase and bank. Of the others CODE is a free function of what is detected (log entry 52). -/
def codeStated (source : Nat) : Bool :=
  [0x01, 0x04, 0x06, 0x08, 0x09, 0x0A, 0x13, 0x20, 0x21, 0x23, 0x24, 0x25, 0x27, 0x29].contains source

/-- ERROR_RECORD_WRITE (R443, R444, R445): at most one record of CLASS 2, 3 or 4 per source and locator in a millisecond; a full
ring drops the record, counts it and marks the next. -/
def State.logRec (s : State) (r : Rec) : State :=
  let l := s.mod.log
  let head := bits (s.ez 0x6000) 13 0
  let tail := bits (s.ez 0x6004) 13 0
  let soon := l.last.any fun x => x.1 = r.source && x.2.1 = r.loc && decide (s.now.toNat < x.2.2.toNat + 1000000)
  let part := s.locPart r.loc
  if 2 ≤ r.cls && r.cls ≤ 4 && soon then s
  else if (head + 1) % 16384 = tail then
    (s.ezPut 0x6008 (BitVec.ofNat 32 (min (2 ^ 32 - 1) ((s.ez 0x6008).toNat + 1)))).updMod fun m =>
      { m with log := { m.log with lost := true } }
  else
    let e : LogRec :=
      { time := if s.counting then s.now else 0, seqno := (s.ez 0x600C).toNat, source := r.source, cls := r.cls, part := part,
        flags := nb (r.cls = 1 && decide (part < 8)) + 2 * nb r.inj + 4 * nb l.lost, loc := r.loc, offset := r.offset,
        code := (if codeStated r.source && !(decide (8 ≤ r.source) && decide (r.source ≤ 10) && r.cls = 2) then r.code
          else Config.recordCode r.source r.code) % 65536,
        addr := r.addr, phys := s.locPhys r.loc, detail := r.detail.take 7 }
    let last := if 2 ≤ r.cls && r.cls ≤ 4 then
        (l.last.filter fun x => !(x.1 = r.source && x.2.1 = r.loc)) ++ [(r.source, r.loc, s.now)]
      else l.last
    ((s.ezPut 0x6000 (BitVec.ofNat 32 ((head + 1) % 16384))).ezPut 0x600C (s.ez 0x600C + 1)).updMod fun m =>
      { m with log := { m.log with ring := Map.insert m.log.ring head e, lost := false, last := last } }

/-- A record raised: it is logged, and a hard fault requests the abort of its partition with ACAUSE 0x04 (R413), whatever becomes
of the record (R445). -/
def State.raise (s : State) (r : Rec) : State :=
  let s1 := s.logRec r
  if r.cls = 1 then s1.requestAbort (s.locPart r.loc) 4 else s1

/-- Records raised in order. -/
def State.raiseAll (s : State) (l : List Rec) : State := l.foldl State.raise s

/-- The effective pace of a field (R371): the least non-zero of PACE, TPACE and GPACE. -/
def State.pace (s : State) (f : Nat) : Nat :=
  let w := s.ez (0x1010 + 0x20 * f)
  ([bits w 7 0, bits w 15 8, bits w 23 16].filter (· ≠ 0)).foldl (fun a b => if a = 0 then b else min a b) 0

/-- What stands around a tile. -/
def State.tileEnv (s : State) (t : Nat) : Env :=
  let p := s.tilePart t
  { id := t, now := s.now, b0 := s.mod.b0, debug := (s.part p).debug, quiet := s.quiescent p, pace := s.pace (fieldOf t),
    fresh := (s.field (fieldOf t)).fresh, part := p, bank := s.activeBank (fieldOf t) }

/-- How often in a row the flit at a place of an output was resent: the place is the key of its buffer, or 1024 + RDESC. What a site sends to an
edge tile counts at that tile, by port 8 + the outward port. -/
def failKey (port k : Nat) : Nat := 2048 * port + k

/-- A flit fails its CRC at the receiver of a link (R241): it stays with the sender, which resends it; after 16 failed resends the
receiver marks the link failed. `t` and `port` are the sender's, tile `n` marks its port `q`; `counts` whether that tile is the receiver, and
not the site die of an edge link. A failed edge link is failed in both directions (log entry 96). -/
def State.crcFailedAt (s : State) (t port k n q : Nat) (counts inj : Bool) : State :=
  let c := Map.get (fun _ => 0) (s.tile t).rtr.crcFails (failKey port k) + 1
  let x := s.tile t
  let s1 := s.setTile t { x with rtr := { x.rtr with crcFails := Map.set (fun _ => 0) x.rtr.crcFails (failKey port k) c } }
  let y := s1.tile n
  let y1 := if counts then csrCount (csrCount y 0x904 15 0 1) 0x904 31 16 1 else y
  let y2 := if c = 17 then { y1 with rtr := { y1.rtr with linkFail := y1.rtr.linkFail ++ [q] } } else y1
  let s2 := s1.setTile n y2
  let regs := csrWords (s2.tileEnv n) y2 [0x900, 0x904]
  let s3 := s2.raise { source := 0x05, cls := 2, loc := linkLoc n q, inj := inj, detail := regs }
  if c = 17 then s3.raise { source := 0x28, cls := 1, loc := linkLoc n q, addr := t, detail := regs } else s3

/-- A flit that passed is counted no more. -/
def crcPassed (t : Tile) (port k : Nat) : Tile :=
  { t with rtr := { t.rtr with crcFails := Map.set (fun _ => 0) t.rtr.crcFails (failKey port k) 0 } }

/-- A flit of a site meets the edge tile's outward port with a CRC that fails: it is discarded there and sent again. -/
def State.edgeCrc (s : State) (edge port : Nat) : State :=
  let x := s.tile edge
  let y : Tile := { x with rtr := { x.rtr with edgeBad := Map.set (fun _ => 0) x.rtr.edgeBad port (Map.get (fun _ => 0) x.rtr.edgeBad port - 1) } }
  (s.setTile edge y).crcFailedAt edge (8 + port) 0 edge port true false

/-- What waits at the site of an outward port enters the tile's buffers while they have room, each flit once it passes its CRC (R215, R241); at
most `fuel` flits are sent. -/
def State.portRefill (edge port n : Nat) : Nat → State → State
  | 0, s => s
  | fuel + 1, s =>
    let x := s.tile edge
    if !s.live (fieldOf edge) || x.rtr.linkFail.contains port then s
    else
      match nextOut x edge port [] (s.site n).out with
      | none => s
      | some (f, l) =>
        if 0 < Map.get (fun _ => 0) x.rtr.edgeBad port then State.portRefill edge port n fuel (s.edgeCrc edge port)
        else
          State.portRefill edge port n fuel ((s.setTile edge (setRouterBuf (crcPassed x (8 + port) 0) port f.vc f.cls
            (routerBuf x port f.vc f.cls ++ [f]))).setSite n { s.site n with out := l })

/-- What waits at the sites of a tile's edge links enters its buffers (R215). -/
def State.siteRefill (s : State) (edge : Nat) : State :=
  [1, 2, 3, 4].foldl (fun s port =>
    match edgeLink edge port with
    | none => s
    | some (n, _) => State.portRefill edge port n 32 s) s

/-- An access or command refused (R475): it is answered with its ECODE and logged with SOURCE 0x23; it changes nothing else. -/
def State.refuse (s : State) (addr ecode loc : Nat) : State :=
  (s.say (.refused addr ecode)).raise { source := 0x23, cls := 3, loc := loc, code := ecode, addr := addr }

/-- A write that needs the module management privilege (R27, R475). -/
def State.privileged (s : State) (priv : Bool) (addr loc : Nat) (k : State) : State :=
  if priv then k else s.refuse addr 0x40 loc

/-- A part of a command run on one tile; what it raises is logged. -/
def State.onTile (s : State) (t : Nat) (f : Env → TS → TS) : State :=
  let r := f (s.tileEnv t) { t := s.tile t, free := s.free }
  (({ s with free := r.free }).setTile t r.t).raiseAll r.recs

/-- The tile of a result, where it took effect or stopped the tile. -/
def Res.out (r : Res) (ts : TS) : TS :=
  match r with
  | .ok u => u
  | .wait => ts
  | .halt u => u

/-- A part of a command run on one site: what it raises is logged, what it returns enters the wafer. -/
def State.onSite (s : State) (n : Nat) (f : SEnv → SS → SS) : State :=
  let r := f (s.siteEnv n) { s := s.site n, free := s.free }
  let s1 := ({ s with free := r.free }).setSite n r.s
  (r.ret.foldl (fun s ef => s.fromSite n ef.1 ef.2) s1).raiseAll r.recs

/-- The tile's sequencer may issue: its field is on and its partition is not aborting (R358, R413). -/
def State.mayIssue (s : State) (t : Nat) : Bool :=
  decide ((s.field (fieldOf t)).power = 2) && decide ((s.part (s.tilePart t)).state ≠ 4)

/-- A command answers a next state where its operands name what exists. -/
def State.checked (_ : State) (ok : Bool) (k : State) : Host.Outcome State Fault Refusal :=
  if ok then .next k else .fault .malformed

/-- An instruction of Greset issues on tile t. -/
def State.issue (s : State) (t : Nat) (f : Env → TS → Issue) : Host.Outcome State Fault Refusal :=
  s.checked (decide (t < nTiles)) (if s.mayIssue t then s.onTile t fun e ts => issueTile e ts (f e) else s)

/-- A command acts on one tile of a powered field. -/
def State.tileDo (s : State) (t : Nat) (f : Env → TS → TS) : Host.Outcome State Fault Refusal :=
  s.checked (decide (t < nTiles)) (if (s.field (fieldOf t)).power = 2 then s.onTile t f else s)

/-- A command acts on one site. -/
def State.siteDo (s : State) (n : Nat) (f : SEnv → SS → SS) : Host.Outcome State Fault Refusal :=
  s.checked (decide (n < nSites)) (s.onSite n f)

end Sys2Proof.Machine
end

