-- ==== Sys2Proof/Machine/RedRoute.lean ====
section
/-!
DEFINITION. The reduction between routers (R238, R239, R283, R285): what stops a descriptor, its credits, and the forwarding of a sum to the
next router or to the site.
-/

namespace Sys2Proof.Machine

/-- A router's tile with one VC1 credit of descriptor d back (R283). -/
def creditBack (t : Tile) (d : Nat) : Tile :=
  { t with rtr := { t.rtr with redUsed := Map.set (fun _ => 0) t.rtr.redUsed d (Map.get (fun _ => 0) t.rtr.redUsed d - 1) } }

/-- The node that feeds an input port of a tile gets a credit of descriptor d back. -/
def State.creditAt (s : State) (t port d : Nat) : State :=
  match neighbour t port with
  | some n => s.setTile n (creditBack (s.tile n) d)
  | none => s

/-- A RED flit waits at an input port that the entry does not list, or no entry is loaded (R285). -/
def strayRed (t : Tile) (d : Nat) : Bool :=
  (List.range 5).any fun p => !(redBuf t d p).isEmpty && !(bit (rdesc t d) 31 && (rdInputs (rdesc t d)).contains p)

/-- The head flits of every input of descriptor d, in input order; none while one is missing. -/
def redHeads (t : Tile) (d : Nat) : Option (List RedFlit) :=
  (rdInputs (rdesc t d)).foldr (fun p a =>
    match a, redBuf t d p with
    | some l, f :: _ => some (f :: l)
    | _, _ => none) (some [])

/-- The adder's injected error (R447 kind 6): one bit of element 0 after rounding. -/
def injAdder (t : Tile) (d : Nat) (f : RedFlit) (adds : Bool) : Tile × RedFlit :=
  if adds && injKind t = 6 && injArg t % 256 = d then
    let b := if f.wide then injBit t else injBit t % 16
    match f.data with
    | w :: l => (injFire t, { f with data := (w ^^^ BitVec.ofNat 32 (2 ^ b)) :: l })
    | [] => (injFire t, f)
  else (t, f)

/-- A flit crosses a seam between tiles t and n (R240). -/
def isSeam (t n : Nat) : Bool := fieldOf t ≠ fieldOf n

/-- Flits of a VC and class that a crossing buffer holds in a direction (R240). -/
def crossSize : Nat := 8

/-- The VC1 flits in the crossing buffer of a port. -/
def redCrossing (t : Tile) (port : Nat) : List (Nat × RedFlit) := Map.get (fun _ => []) t.rtr.redCross port

/-- The first VC1 flits that wait in a crossing buffer enter the slots of their descriptors, in order, while those have room (R240, R283). -/
def redCrossIn (port : Nat) : Nat → Tile → Tile
  | 0, t => t
  | n + 1, t =>
    match redCrossing t port with
    | [] => t
    | (d, f) :: l =>
      if (redBuf t d port).length < vc1Slots (bits (rdesc t d) 9 8) then
        redCrossIn port n (setRedBuf { t with rtr := { t.rtr with redCross := Map.set (fun _ => []) t.rtr.redCross port l } } d port
          (redBuf t d port ++ [f]))
      else t

/-- The flit is handed to what OUT leads to: the next router, over a seam through its crossing buffer, or the site die. -/
def State.redDeliver (s : State) (t out d : Nat) (f : RedFlit) : State :=
  match neighbour t out with
  | some n =>
    let x := s.tile n
    let q := facing out
    if isSeam t n then
      s.setTile n (redCrossIn q (crossSize + 1) { x with rtr := { x.rtr with
        redCross := Map.set (fun _ => []) x.rtr.redCross q (redCrossing x q ++ [(d, f)]) } })
    else s.setTile n (setRedBuf x d q (redBuf x d q ++ [f]))
  | none =>
    match edgeLink t out with
    | none => s
    | some (site, j) =>
      let x := s.site site
      let k := 256 * j + d
      s.setSite site { x with red := { x.red with
        vc1 := Map.set (fun _ => []) x.red.vc1 k (Map.get (fun _ => []) x.red.vc1 k ++ [f]) } }

/-- OUT of a tile faces a hole (R285). -/
def State.facesHole (s : State) (t out : Nat) : Bool :=
  match neighbour t out with
  | some n => !s.live (fieldOf n)
  | none => (edgeLink t out).isNone

/-- A descriptor stops at a router (R285): a stray flit, an OUT that faces a hole with a flit to send, or heads whose keys differ. -/
def State.redStops (s : State) (t d : Nat) : Bool :=
  let x := s.tile t
  strayRed x d || ((rdInputs (rdesc x d)).any (fun p => !(redBuf x d p).isEmpty) && s.facesHole t (rdOut (rdesc x d))) ||
    match redHeads x d with
    | some (a :: l) => !l.all (sameKey a)
    | _ => false

/-- The link of an output takes VC1 flits: it has not failed (R241), and the crossing buffer of a seam has room (R240). -/
def State.redLink (s : State) (t out : Nat) : Bool :=
  match neighbour t out with
  | some n => !(s.tile n).rtr.linkFail.contains (facing out) &&
      (!isSeam t n || decide ((redCrossing (s.tile n) (facing out)).length < crossSize))
  | none => !(s.tile t).rtr.linkFail.contains out

/-- A descriptor has a sum to forward and a credit at its output (R239, R283). -/
def State.redReady (s : State) (t d : Nat) : Bool :=
  let x := s.tile t
  !x.rtr.redStopped.contains d && !s.redStops t d && (match redHeads x d with | some (_ :: _) => true | _ => false) &&
    decide (Map.get (fun _ => 0) x.rtr.redUsed d < vc1Slots (bits (rdesc x d) 7 6)) && s.redLink t (rdOut (rdesc x d))

/-- The descriptors that want an output and have a credit, in ascending number. -/
def State.redWants (s : State) (t port : Nat) : List Nat :=
  let x := s.tile t
  (List.range 256).filter fun d => x.rtr.redIn.any (fun e => e.1 / 8 = d) && rdOut (rdesc x d) = port && s.redReady t d

/-- The sum of descriptor d's heads goes out (R239): the heads leave their buffers, whose slots are free, and a credit of OUT is taken. -/
def State.redForward (s : State) (t d : Nat) : State :=
  let x := s.tile t
  let w := rdesc x d
  match redHeads x d with
  | none => s
  | some l =>
    match addFlits l with
    | none => s
    | some f0 =>
      match injAdder x d f0 (decide (2 ≤ l.length)) with
      | (x1, f) =>
        let x2 := (rdInputs w).foldl (fun y p => redCrossIn p (crossSize + 1) (setRedBuf y d p ((redBuf y d p).drop 1))) x1
        let x3 := { x2 with rtr := { x2.rtr with
          redUsed := Map.set (fun _ => 0) x2.rtr.redUsed d (Map.get (fun _ => 0) x2.rtr.redUsed d + 1) } }
        let s1 := (rdInputs w).foldl (fun s p => if p = 0 then s else s.creditAt t p d) (s.setTile t x3)
        s1.redDeliver t (rdOut w) d f

end Sys2Proof.Machine
end

