-- ==== Sys2Proof/Machine/Fabric.lean ====
section
/-!
DEFINITION. The on-wafer network (R34 to R36, R213 to R241): routing, arbitration, hops, read combining, and what the
flits that arrive do.
-/

namespace Sys2Proof.Machine

/-- Where a flit goes next: out of a port (0 local), or it is answered with an ECODE. -/
inductive Hop where
  | port (n : Nat)
  | respond (code : Nat)
  deriving DecidableEq, Repr

/-- The flit leaves the wafer at its DEST (R223), and toward which site; nSites where the flit names none and takes the tile's edge link. -/
def leavesFor (f : Flit) : Option Nat :=
  match f.body with
  | .req _ site _ _ _ _ _ _ _ _ _ _ _ => some site
  | .reqData _ site _ _ _ => some site
  | .ctl site _ _ exit => if exit then some site else none
  | .ack _ _ exit => if exit then some nSites else none
  | .err _ _ _ exit _ => if exit then some nSites else none
  | _ => none

/-- The port by which a flit leaves the wafer at a tile. -/
def leavePort (t site : Nat) : Nat :=
  ((edgePort t site).orElse fun _ => [1, 2, 3, 4].find? fun q => (edgeLink t q).isSome).getD 0

/-- Toward (Xd, Yd) within a field: along X first in class 0, along Y first in class 1. -/
def toward (t dest cls : Nat) : Nat :=
  let ew := if tileX t < tileX dest then 2 else 4
  let ns := if tileY t < tileY dest then 3 else 1
  if cls = 0 then (if tileX t ≠ tileX dest then ew else ns) else (if tileY t ≠ tileY dest then ns else ew)

/-- FLD_RT_ENTRY of field f for destination field d (Table 8.9). -/
def State.rtEntry (s : State) (f bank d : Nat) : Word := (s.field f).csrWord (0x1000 + 0x400 * bank + 4 * d)

/-- The routing function (R223), with the answer 0x02 of R36 where the next hop lies in a hole. -/
def State.nextPort (s : State) (t : Nat) (f : Flit) : Hop :=
  let fl := fieldOf t
  let d := fieldOf f.dest
  if t = f.dest then
    match leavesFor f with
    | some site => .port (leavePort t site)
    | none => .port 0
  else if d = fl then .port (toward t f.dest f.cls)
  else
    let e := s.rtEntry fl f.ep d
    let dir := if f.cls = 0 then bits e 15 12 else bits e 19 16
    if dir = 0 || 5 ≤ dir then .respond 0x01
    else if !bit e (20 + f.vc) then .respond 0x03
    else
      let dir1 := if f.cls = 0 && (dir = 1 || dir = 3) && fieldX fl = fieldX d && tileX t ≠ tileX f.dest then
          (if tileX t < tileX f.dest then 2 else 4)
        else if f.cls ≠ 0 && (dir = 2 || dir = 4) && fieldY fl = fieldY d && tileY t ≠ tileY f.dest then
          (if tileY t < tileY f.dest then 3 else 1)
        else dir
      match neighbour t dir1 with
      | some n => if fieldOf n = fl || s.live (fieldOf n) then .port dir1 else .respond 0x02
      | none => .port dir1

/-- The flits at the heads of a router's input buffers, by buffer key. -/
def bufHeads (t : Tile) : List (Nat × Flit) := t.rtr.bufs.filterMap fun e => match e.2 with | f :: _ => some (e.1, f) | [] => none

/-- The tile without the head of a buffer. -/
def popBuf (t : Tile) (key : Nat) : Tile :=
  let l := Map.get (fun _ => []) t.rtr.bufs key
  { t with rtr := { t.rtr with bufs := Map.set (fun _ => []) t.rtr.bufs key (l.drop 1) } }

/-- A flit added to the router's local list. -/
def addInject (t : Tile) (l : List Flit) : Tile := { t with rtr := { t.rtr with inject := t.rtr.inject ++ l } }

/-- The combining entry that a request leaving its router stands for is open no more (R236). -/
def closeCmb (id : Nat) (t : Tile) (f : Flit) : Tile :=
  match f.body with
  | .req _ _ src cmb _ _ _ _ _ _ _ _ _ =>
    if src = id then { t with rtr := { t.rtr with cmb := t.rtr.cmb.map fun c => if c.slot = cmb then { c with waiting := false } else c } }
    else t
  | _ => t

/-- What stands in an ERR for the combining entry where it answers the event of a tile. -/
def eventAnswer : Nat := 32

/-- A flit that meets an unreachable entry, a new hole or a closed VC (R36, R223): a request is answered on VC0 to SRC, or through the control
site to the control complex where SRC is 0x1_FFFF (`edge` is the edge tile of the field's CSITE); all else is dropped. The answer to a tile's
event is marked as such (log entry 31). -/
def routeError (id edge : Nat) (t : Tile) (key code : Nat) (f : Flit) : Tile :=
  let t1 := closeCmb id (popBuf t key) f
  match f.body with
  | .req _ _ src cmb _ _ seq _ tid _ _ _ _ => addInject t1 [{ vc := 0, dest := src, body := .err tid seq code false cmb }]
  | .ctl _ 0x1FFFF op false =>
    if op = 2 || op = 6 then t1 else addInject t1 [{ vc := 0, dest := edge, body := .err 0 0 code true 31 }]
  | .ctl _ src 6 true => addInject t1 [{ vc := 0, dest := src, body := .err 0 0 code false eventAnswer }]
  | _ => t1

/-- A router's table of combining entries (R235). -/
def cmbCap (b0 : Bool) : Nat := if b0 then 24 else 16

/-- The older of two AGE values, modulo 2^32 (R220). -/
def olderAge (a b : Nat) : Nat := if (b + 2 ^ 32 - a) % 2 ^ 32 < 2 ^ 31 then a else b

/-- The buffered request of an entry takes the readers and the age of one that joins (R236). -/
def joinFlit (id slot rcnt age : Nat) (f : Flit) : Flit :=
  match f.body with
  | .req op site src cmb part addr seq nfl tid r a ty aop =>
    if src = id && cmb = slot then { f with body := .req op site src cmb part addr seq nfl tid (r + rcnt) (olderAge a age) ty aop }
    else f
  | _ => f

/-- A flit enters an input buffer of a router; an RD on VC2 joins an open combining entry or opens one (R235). -/
def acceptFlit (id : Nat) (b0 : Bool) (t : Tile) (port : Nat) (f : Flit) : Tile :=
  let put (t : Tile) (f : Flit) : Tile := setRouterBuf t port f.vc f.cls (routerBuf t port f.vc f.cls ++ [f])
  match f.body with
  | .req 1 site src cmb part addr seq nfl tid rcnt age ty aop =>
    if f.vc ≠ 2 then put t f
    else
      let me : CmbReq := { src := src, tid := tid, seq := seq, cmb := cmb }
      match t.rtr.cmb.find? fun c => c.waiting && c.site = site && c.addr = addr && c.nfl = nfl && c.part = part &&
          decide (c.reqs.length < 8) with
      | some c =>
        let t1 := csrCount t 0x908 31 16 1
        { t1 with rtr := { t1.rtr with
            cmb := t1.rtr.cmb.map fun y => if y.slot = c.slot then { y with reqs := y.reqs ++ [me] } else y
            bufs := t1.rtr.bufs.map fun e => (e.1, e.2.map (joinFlit id c.slot rcnt age)) } }
      | none =>
        match (List.range (cmbCap b0)).find? fun k => t.rtr.cmb.all fun c => c.slot ≠ k with
        | none => put t f
        | some k =>
          let c : CmbEntry := { slot := k, site := site, addr := addr, nfl := nfl, part := part, reqs := [me] }
          let t1 := csrCount { t with rtr := { t.rtr with cmb := t.rtr.cmb ++ [c] } } 0x908 15 0 1
          put t1 { f with body := .req 1 site id k part addr seq nfl tid rcnt age ty aop }
  | _ => put t f

/-- The class of a flit bound for the control complex through the edge link of a tile: 1 toward a site on the east or west side (R224). -/
def exitClass (dest : Nat) : Nat := nb (leavePort dest nSites = 2 || leavePort dest nSites = 4)

/-- CLS, EP, PART and AGE as the injecting router sets them (R218, R224); what answers a tile's request keeps its class. -/
def stampFlit (f : Flit) (ep part age : Nat) : Flit :=
  match f.body with
  | .ctl site _ _ exit => { f with cls := if exit && site / 12 % 2 = 1 then 1 else 0, ep := ep }
  | .ack _ _ true => { f with cls := exitClass f.dest, ep := ep }
  | .err _ _ _ true _ => { f with cls := exitClass f.dest, ep := ep }
  | .req op site src cmb _ addr seq nfl tid rcnt _ ty aop =>
    { f with cls := if site / 12 % 2 = 1 then 1 else 0, ep := ep, body := .req op site src cmb part addr seq nfl tid rcnt age ty aop }
  | .reqData op site src cmb _ =>
    { f with cls := if site / 12 % 2 = 1 then 1 else 0, ep := ep, body := .reqData op site src cmb part }
  | _ => { f with ep := ep }

/-- A SEND whose destination lies outside the sender's partition (R225). -/
def State.sendOutside (s : State) (t dest : Nat) : Bool :=
  let f := fieldOf t
  let d := fieldOf dest
  if d = f then s.fieldOwner f = 15 else !bit (s.rtEntry f (s.activeBank f) d) 11

/-- The next flit to inject: the first of its VC in the local list whose buffer has room. -/
def nextInject (t : Tile) (l : List Flit) (seen : List Nat) : Option (Nat × Flit) :=
  match l with
  | [] => none
  | f :: l =>
    if !seen.contains f.vc && hasRoom t 0 { f with cls := (stampFlit f 0 0 0).cls } then some (0, f)
    else (nextInject t l (f.vc :: seen)).map fun x => (x.1 + 1, x.2)

/-- EP and PART that a flit takes at its injection: those in force, and for the data flits of a packet those of its request, which they
repeat (R218). -/
def State.stampOf (s : State) (t : Nat) (f : Flit) : Nat × Nat :=
  match f.body with
  | .reqData _ _ _ _ _ => Map.get (fun _ => (0, 0)) (s.tile t).rtr.packet f.vc
  | _ => (s.activeBank (fieldOf t), s.tilePart t)

/-- The edge tile of the site named in a field's FLD_RT_CSITE (log entry 45). -/
def State.csiteTile (s : State) (f : Nat) : Nat := (linkTile (bits ((s.field f).csrWord 0x14) 5 0) 0).1

/-- A tile whose event is still to be sent hands its router the CTL flit of OP 0x6 (R158, R217): its payload holds the value and the code, in an
order that the spec leaves open (log entry 58). -/
def State.withEvent (s : State) (t : Nat) : Tile :=
  let x := s.tile t
  match x.event with
  | none => x
  | some ev =>
    if ev.sent then x
    else
      let f := fieldOf t
      addInject { x with event := some { ev with sent := true } } [{
        vc := 0, dest := s.csiteTile f, body := .ctl (bits ((s.field f).csrWord 0x14) 5 0) t 6 true,
        data := [BitVec.ofNat 32 ev.value.toNat, BitVec.ofNat 32 (ev.value.toNat / 2 ^ 32), BitVec.ofNat 32 ev.code] }]

/-- FLIT_INJECT (R224, R225, R229): a flit enters the local input buffer; a SEND out of the partition is refused with ECODE 0x04. Nothing is
injected while an epoch swap holds the partition. -/
def State.inject (s : State) (t : Nat) : State :=
  let x := s.withEvent t
  match (if (s.part (s.tilePart t)).hold then none else nextInject x x.rtr.inject []) with
  | none => s
  | some (i, f) =>
    let st := s.stampOf t f
    let y := { x with rtr := { x.rtr with inject := x.rtr.inject.eraseIdx i, packet := Map.set (fun _ => (0, 0)) x.rtr.packet f.vc st } }
    let go : State := s.setTile t (acceptFlit t s.mod.b0 y 0 (stampFlit f st.1 st.2 (s.now.toNat % 2 ^ 32)))
    match f.body with
    | .send _ seq _ tid =>
      if s.sendOutside t f.dest then
        (s.setTile t (tErr y tid seq)).raise { source := 0x24, cls := 3, loc := t, code := 0x04, addr := f.dest }
      else go
    | _ => go

/-- Words of the SEND flits into region g that have arrived and wait for their place in the order of R183. -/
def waitingWords (t : Tile) (g : Nat) : Nat :=
  8 * (t.rtr.arrived.filter fun f => match f.body with | .send d _ _ _ => decide (d = g) | _ => false).length

/-- The crossing buffer or the input buffer that a link leads to has room. -/
def linkRoom (t n port : Nat) (x : Tile) (f : Flit) : Bool :=
  if isSeam t n then decide ((Map.get (fun _ => []) x.rtr.cross (bufKey port f.vc f.cls)).length < crossSize) else hasRoom x port f

/-- The flits that left a tile by an outward port and wait for the site die. -/
def edgeFlits (t : Tile) (port : Nat) : List Flit := Map.get (fun _ => []) t.rtr.edge port
@[inherit_doc edgeFlits] def setEdgeFlits (t : Tile) (port : Nat) (l : List Flit) : Tile :=
  { t with rtr := { t.rtr with edge := Map.set (fun _ => []) t.rtr.edge port l } }

/-- The output of a router through a port can take a flit now: credit at the next router or the crossing buffer, room at the site die or the
tile. A SEND flit waits in the network while its destination region lacks space (R237). -/
def State.canTake (s : State) (t port : Nat) (f : Flit) : Bool :=
  let x := s.tile t
  if port = 0 then
    (match f.body with
    | .send g _ _ _ =>
      let r := region x g
      !r.valid || r.prod ≠ 3 || decide (pendingWords netDest x.net g + inSendWords x g + waitingWords x g + 8 ≤ r.space)
    | _ => true)
  else
    match neighbour t port with
    | some n =>
      (fieldOf n = fieldOf t || s.live (fieldOf n)) && !(s.tile n).rtr.linkFail.contains (facing port) && linkRoom t n (facing port) (s.tile n) f
    | none => !x.rtr.linkFail.contains port && decide (((edgeFlits x port).filter fun g => g.vc = f.vc).length < 9)

/-- The heads that want an output port and have a credit. -/
def State.ready (s : State) (t port : Nat) : List (Nat × Flit) :=
  (bufHeads (s.tile t)).filter fun e => s.nextPort t e.2 = .port port && s.canTake t port e.2

/-- Request order on VC2 (R220): the oldest AGE, ties to the lower SRC. -/
def olderFlit (a b : Flit) : Bool :=
  match a.body, b.body with
  | .req _ _ sa _ _ _ _ _ _ _ ga _ _, .req _ _ sb _ _ _ _ _ _ _ gb _ _ =>
    let d := (gb + 2 ^ 32 - ga) % 2 ^ 32
    if d = 0 then decide (sa ≤ sb) else decide (d < 2 ^ 31)
  | _, _ => true

/-- The oldest of a list of heads. -/
def oldestHead : List (Nat × Flit) → Option (Nat × Flit)
  | [] => none
  | a :: l =>
    match oldestHead l with
    | none => some a
    | some b => if olderFlit a.2 b.2 then some a else some b

/-- The mark of an output port and VC. -/
def outKey (port vc : Nat) : Nat := 32 * port + vc

/-- The choice within a VC (R220): the packet that holds the output, the oldest request on VC2, else round-robin. -/
def pickVC (t : Tile) (port vc : Nat) (l : List (Nat × Flit)) : Option (Nat × Flit) :=
  let mine := l.filter fun e => e.2.vc = vc
  match Map.get (fun _ => 0) t.rtr.lock (outKey port vc) with
  | 0 =>
    if vc = 2 then oldestHead mine
    else
      let m := Map.get (fun _ => 0) t.rtr.rr (outKey port vc)
      match mine.find? fun e => decide (m ≤ e.1) with
      | some e => some e
      | none => mine.head?
  | k => mine.find? fun e => e.1 + 1 = k

/-- The winner of a slot: a flit of VC0 or VC2 to VC5 by its buffer, or a reduction descriptor on VC1. -/
inductive Slot where
  | flit (key : Nat) (f : Flit)
  | red (d : Nat)
  deriving DecidableEq, Repr

/-- The VC that a winner moves on. -/
def Slot.vc (w : Slot) : Nat := match w with | .flit _ f => f.vc | .red _ => 1

/-- The descriptor whose turn it is on VC1 (R283): round-robin among those that have a flit and a credit. -/
def pickRed (t : Tile) (port : Nat) (ds : List Nat) : Option Nat :=
  let m := Map.get (fun _ => 0) t.rtr.rr (outKey port 1)
  (ds.find? fun d => decide (m ≤ d)).orElse fun _ => ds.head?

/-- The choice of one VC of an output: `l` the heads and `ds` the descriptors that want it and have a credit. -/
def pickOf (t : Tile) (port : Nat) (l : List (Nat × Flit)) (ds : List Nat) (vc : Nat) : Option Slot :=
  if vc = 1 then (pickRed t port ds).map .red else (pickVC t port vc l).map fun e => .flit e.1 e.2

/-- The choice of an output port (R220): VC0, then a VC that has waited 32 slots, then priority. -/
def pickSlot (t : Tile) (port : Nat) (l : List (Nat × Flit)) (ds : List Nat) : Option Slot :=
  let starved := [1, 2, 3, 4, 5].filter fun vc => decide (32 ≤ Map.get (fun _ => 0) t.rtr.starve (outKey port vc))
  ([0] ++ starved ++ [1, 2, 3, 4, 5]).findSome? (pickOf t port l ds)

/-- The marks of an output after a slot: waits, the turn, the packet that holds the VC. -/
def afterSlot (t : Tile) (port : Nat) (l : List (Nat × Flit)) (ds : List Nat) (won : Slot) : Tile :=
  let w := won.vc
  let starve := [1, 2, 3, 4, 5].foldl (fun m vc =>
    let c := Map.get (fun _ => 0) m (outKey port vc)
    Map.set (fun _ => 0) m (outKey port vc) (if vc = w || (pickOf t port l ds vc).isNone then 0 else c + 1)) t.rtr.starve
  let turn := match won with | .flit k _ => k + 1 | .red d => d + 1
  let packet : Bool := match won with
    | .flit _ f => (match f.body with | .req _ _ _ _ _ _ _ _ _ _ _ _ _ => !f.tail | .reqData _ _ _ _ _ => !f.tail | _ => false)
    | .red _ => false
  { t with rtr := { t.rtr with
      starve := starve
      rr := Map.set (fun _ => 0) t.rtr.rr (outKey port w) turn
      lock := if w = 1 then t.rtr.lock else Map.set (fun _ => 0) t.rtr.lock (outKey port w) (if packet then turn else 0) } }

/-- The first flits that wait in a crossing buffer enter the input buffer that it leads to, while that has room (R240). -/
def crossIn (id : Nat) (b0 : Bool) (key : Nat) : Nat → Tile → Tile
  | 0, t => t
  | n + 1, t =>
    match Map.get (fun _ => []) t.rtr.cross key with
    | [] => t
    | f :: l =>
      if hasRoom t (key / 16) f then
        crossIn id b0 key n (acceptFlit id b0 { t with rtr := { t.rtr with cross := Map.set (fun _ => []) t.rtr.cross key l } } (key / 16) f)
      else t

/-- A flit that passes a link enters the crossing buffer of a seam, or the input buffer. -/
def linkIn (b0 : Bool) (t n port : Nat) (x : Tile) (f : Flit) : Tile :=
  if isSeam t n then
    let key := bufKey port f.vc f.cls
    crossIn n b0 key crossSize { x with rtr := { x.rtr with
      cross := Map.set (fun _ => []) x.rtr.cross key (Map.get (fun _ => []) x.rtr.cross key ++ [f]) } }
  else acceptFlit n b0 x port f

/-- A flit fails its CRC at the receiver of the link of an output (R241). The receiver of an edge link is the site die, and the edge tile marks
the link. -/
def State.crcFailed (s : State) (t port k : Nat) (inj : Bool) : State :=
  match neighbour t port with
  | some n => s.crcFailedAt t port k n (facing port) true inj
  | none => s.crcFailedAt t port k t port false inj

/-- What waits before a router's input buffers enters them: the crossing buffers (R240), the site dies (R215). -/
def State.refillBufs (s : State) (t : Nat) : State :=
  let x := s.tile t
  (s.setTile t ((x.rtr.cross.map (·.1)).foldl (fun x key => crossIn t s.mod.b0 key crossSize x) x)).siteRefill t

/-- The injection of kind 5 corrupts the flit that leaves by a port (R447). -/
def injFlit (x : Tile) (port : Nat) : Bool := injKind x = 5 && bits (csrWord x 0xB00) 23 21 = port

/-- A slot of an output goes to its winner: the flit passes the link, or stays where it is corrupted on it. -/
def State.takeSlot (s : State) (t port : Nat) (l : List (Nat × Flit)) (ds : List Nat) (crcFail : Bool) (w : Slot) : State :=
  let x := s.tile t
  match w with
  | .red d =>
    let inj := injFlit x port
    if crcFail || inj then (s.setTile t (if inj then injFire x else x)).crcFailed t port (1024 + d) inj
    else (s.setTile t (crcPassed (afterSlot x port l ds w) port (1024 + d))).redForward t d
  | .flit key f =>
    if port = 0 then
      let sent := closeCmb t (afterSlot (popBuf x key) port l ds w) f
      (s.setTile t { sent with rtr := { sent.rtr with arrived := sent.rtr.arrived ++ [f] } }).refillBufs t
    else
      let inj := injFlit x port && flipFails f (32 * (injArg x % 8) + injBit x)
      if crcFail || inj then (s.setTile t (if inj then injFire x else x)).crcFailed t port key inj
      else
        let sent := crcPassed (closeCmb t (afterSlot (popBuf x key) port l ds w) f) port key
        match neighbour t port with
        | none => (s.setTile t (setEdgeFlits sent port (edgeFlits sent port ++ [f]))).refillBufs t
        | some n =>
          let s1 := s.setTile t sent
          (s1.setTile n (linkIn s.mod.b0 t n (facing port) (s1.tile n) f)).refillBufs t

/-- FLIT_HOP (R220, R223, R235, R241): a head that routes nowhere is answered; else the output port forwards the flit that wins its
slot. `crcFail`: the flit is corrupted on the link. -/
def State.hop (s : State) (t port : Nat) (crcFail : Bool) : State :=
  let x := s.tile t
  let bad := (bufHeads x).findSome? fun e => match s.nextPort t e.2 with | .respond c => some (e.1, c, e.2) | .port _ => none
  match bad with
  | some (key, c, f) => (s.setTile t (routeError t (s.csiteTile (fieldOf t)) x key c f)).refillBufs t
  | none =>
    let l := s.ready t port
    let ds := s.redWants t port
    match pickSlot x port l ds with
    | none => s
    | some w => s.takeSlot t port l ds crcFail w

/-- RED_COMBINE (R238, R239, R283, R285): the descriptor stops, or its sum takes the slot of its output where the slot is its own (R220). -/
def State.redCombine (s : State) (t d : Nat) : State :=
  let x := s.tile t
  let port := rdOut (rdesc x d)
  if x.rtr.redStopped.contains d then s
  else if s.redStops t d then s.onTile t fun e ts => stopDesc e ts d ((redHeads x d).getD [])
  else
    let l := s.ready t port
    let ds := s.redWants t port
    if pickSlot x port l ds = some (.red d) then s.takeSlot t port l ds false (.red d) else s

/-- The first flit that arrived of the kind `p` selects, and the tile without it. -/
def takeArrived (t : Tile) (p : Flit → Bool) : Option (Flit × Tile) :=
  match t.rtr.arrived.find? p with
  | none => none
  | some f => some (f, { t with rtr := { t.rtr with arrived := t.rtr.arrived.erase f } })

/-- The combining entry that a return answers. -/
def returnSlot (f : Flit) : Nat :=
  match f.body with
  | .rdata _ _ cmb => cmb
  | .adata _ _ cmb => cmb
  | .err _ _ _ _ cmb => if cmb = eventAnswer then 31 else cmb
  | _ => 31

/-- A copy of a return for one requester of an entry (R236). -/
def copyFor (base : Nat) (f : Flit) (q : CmbReq) : Flit :=
  match f.body with
  | .rdata _ seq _ => { f with dest := q.src, body := .rdata q.tid (q.seq + (seq - base)) q.cmb }
  | .err _ _ code exit _ => { f with dest := q.src, body := .err q.tid q.seq code exit q.cmb }
  | _ => { f with dest := q.src }

/-- COMBINED_RETURN_COPY (R236). -/
def tCombinedCopy (t : Tile) : Tile :=
  match takeArrived t fun f => returnSlot f ≠ 31 with
  | none => t
  | some (f, u) =>
    match u.rtr.cmb.find? fun c => c.slot = returnSlot f with
    | none => u
    | some c =>
      let base := match c.reqs with | q :: _ => q.seq | [] => 0
      let isErr : Bool := match f.body with | .err _ _ _ _ _ => true | _ => false
      let u1 := addInject u (c.reqs.map (copyFor base f))
      { u1 with rtr := { u1.rtr with
          cmb := if isErr || decide (c.nfl ≤ c.copied + 1) then u1.rtr.cmb.filter fun y => y.slot ≠ c.slot
            else u1.rtr.cmb.map fun y => if y.slot = c.slot then { y with copied := y.copied + 1 } else y } }

/-- RDATA_ARRIVE (R231): return data of a pull, or old values of an atomic. -/
def tDataArrive (t : Tile) : Tile :=
  match takeArrived t (fun f => match f.body with | .rdata _ _ 31 => true | .adata _ _ 31 => true | _ => false) with
  | none => t
  | some (f, u) =>
    match f.body with
    | .rdata tid seq _ => tReturn u tid seq false f.data
    | .adata tid seq _ => tReturn u tid seq true f.data
    | _ => u

/-- The tile's event was answered with an error: its router sends it again (R36, R400, R401; log entry 100). -/
def eventRefused (t : Tile) : Tile := { t with event := t.event.map fun ev => if ev.sent && !ev.posted then { ev with refused := true } else ev }

/-- UNIT_ACK_ARRIVE (R231, R237); what answers an event comes the same way (R36). -/
def tAckArrive (t : Tile) : Tile :=
  match takeArrived t (fun f => !isBktAck f && match f.body with | .ack _ _ _ => true | .err _ _ _ _ c => c = 31 || c = eventAnswer | _ => false) with
  | none => t
  | some (f, u) =>
    match f.body with
    | .ack tid seq _ => tAck u tid seq
    | .err tid seq _ _ c => if c = eventAnswer then eventRefused u else tErr u tid seq
    | _ => u

/-- The SEND that a flit belongs to, opened by the first of its flits to arrive, whichever that is, behind what was issued or is arriving before
it (R183); none while another SEND into the region is open, or its words have no room. -/
def openSend (t : Tile) (g src tid seq : Nat) : Option (Tile × InSend) :=
  let r := region t g
  let mine (x : InSend) : Bool := x.rg = g && x.src = src && x.tid = tid && !x.done
  let others : Nat := (t.inSends.map fun x => if x.rg = g && !mine x then 8 * x.got.length else 0).sum
  let room : Bool := decide (pendingWords netDest t.net g + others + 8 * (seq + 1) ≤ r.space)
  match t.inSends.find? mine with
  | some x => if room then some (t, x) else none
  | none =>
    if openInto t g || !room then none
    else
      let x : InSend := { rg := g, src := src, tid := tid,
                          off := (r.tail + pendingWords netDest t.net g + inSendWords t g) % max 1 r.size,
                          before := (t.net.filter fun y => netDest y g ≠ 0).map (·.tid) }
      some ({ t with inSends := t.inSends ++ [x] }, x)

/-- The SEND with one more flit written; it is done once it has every flit up to its last. -/
def InSend.take (x : InSend) (f : Flit) (seq : Nat) : InSend :=
  let got := if x.got.contains seq then x.got else x.got ++ [seq]
  let len := if f.tail then some (seq + 1) else x.len
  { x with got := got, len := len, done := len.any fun n => decide (n ≤ got.length) }

/-- Every flit of the group of 8 that begins at `g` is written; the last group ends with the transfer's last flit. -/
def InSend.whole (x : InSend) (g : Nat) : Bool :=
  (x.len.isSome || x.got.contains (g + 7)) && (List.range (min 8 (x.len.getD (g + 8) - g))).all fun i => x.got.contains (g + i)

/-- A flit of a SEND written at its own place, in whatever order the flits come, and its group of 8 acknowledged once all of the group's words are
written (R237). -/
def landSend (t : Tile) (x : InSend) (f : Flit) (seq src tid : Nat) : Tile :=
  let t1 := writeRegion t (region t x.rg) (x.off + 8 * seq) f.data
  let y := x.take f seq
  let t2 := { t1 with inSends := t1.inSends.map fun z => if z.rg = x.rg && z.src = src && z.tid = tid && !z.done then y else z }
  let t3 := settleSend t2 x.rg
  let g := seq - seq % 8
  if y.whole g && !x.whole g then addInject t3 [{ vc := 0, dest := src, body := .ack tid g false }] else t3

/-- A SEND flit has its turn (R183): its region does not take it, or its transfer is open or can be. -/
def sendTurn (t : Tile) (f : Flit) : Bool :=
  match f.body with
  | .send g seq src tid => !(region t g).valid || (region t g).prod ≠ 3 || (openSend t g src tid seq).isSome
  | _ => false

/-- SEND_FLIT_ARRIVE (R237): the first flit that has its turn; the flits of another transfer into the region stand back until that in progress
has its last (R183). -/
def tSendArrive (e : Env) (ts : TS) : TS :=
  match takeArrived ts.t (sendTurn ts.t) with
  | none => ts.upd settleAll
  | some (f, u) =>
    match f.body with
    | .send g seq src tid =>
      let r := region u g
      if !r.valid || r.prod ≠ 3 then
        TS.raise { ts with t := addInject u [{ vc := 0, dest := src, body := .err tid seq 0x08 false 31 }] }
          { source := 0x20, cls := 1, loc := e.id, code := 0x08, addr := src * 16 + g, detail := csrWords e u [0x0, 0x300, 0x304] }
      else
        match openSend u g src tid seq with
        | none => ts
        | some (v, x) => { ts with t := landSend v x f seq src tid }
    | _ => ts

/-- A distance along the rim. -/
def dist (a b : Nat) : Nat := if a ≤ b then b - a else a - b

/-- The nearest of a list of links to a tile, ties to the lower (R230). -/
def nearest (s : State) (t site : Nat) : List Nat → Option (Nat × Nat)
  | [] => none
  | j :: l =>
    let e := (linkTile site j).1
    let d := if site / 12 % 2 = 0 then dist (tileX t) (tileX e) else dist (tileY t) (tileY e)
    match nearest s t site l with
    | none => if s.live (fieldOf e) then some (d, e) else none
    | some (d1, e1) => if s.live (fieldOf e) && decide (d ≤ d1) then some (d, e) else some (d1, e1)

/-- The edge tile through which a tile reaches a site (R230); none where every link lies in a hole. -/
def State.edgeFor (s : State) (t site : Nat) : Option Nat :=
  (nearest s t site (List.range (linkCount site))).map (·.2)

/-- NET_UNIT_ISSUE (R230, R231): a site that does not exist answers 0x11; one with no live link 0x01,
and it is logged (log entry 54: SOURCE 0x23). -/
def State.unitIssue (s : State) (t tid : Nat) : State :=
  match (s.tile t).net.find? fun x => x.tid = tid with
  | none => s
  | some x =>
    let site := x.addr / 2 ^ 42
    let fail (c : Nat) : State :=
      if x.failed || (nextUnit x).isNone || !netTurn (s.tile t) x then s
      else
        let s1 := s.setTile t (tErr (s.tile t) tid ((nextUnit x).getD (0, 0)).1)
        if c = 0x11 then s1 else s1.raise { source := 0x23, cls := 3, loc := t, code := c, addr := x.addr }
    if x.kind = .send then s.onTile t fun e ts => (tUnitIssue e ts tid 0).out ts
    else if nSites ≤ site then fail 0x11
    else
      match s.edgeFor t site with
      | none => fail 0x01
      | some edge => s.onTile t fun e ts => (tUnitIssue e ts tid edge).out ts

/-- NET.PULL (R181 to R183). -/
def execNetPull (t : Nat) (f : LN) (s : State) : Host.Outcome State Fault Refusal := s.issue t fun e ts => tNet e ts f .pull

/-- NET.PUSH (R181 to R183). -/
def execNetPush (t : Nat) (f : LN) (s : State) : Host.Outcome State Fault Refusal := s.issue t fun e ts => tNet e ts f .push

/-- NET.SEND (R181 to R183). -/
def execNetSend (t : Nat) (f : LN) (s : State) : Host.Outcome State Fault Refusal := s.issue t fun e ts => tNet e ts f .send

/-- ATOM.ADD (R181, R259). -/
def execAtomAdd (t : Nat) (f : LN) (s : State) : Host.Outcome State Fault Refusal := s.issue t fun e ts => tNet e ts f (.atom 0)

/-- ATOM.MIN (R181, R259). -/
def execAtomMin (t : Nat) (f : LN) (s : State) : Host.Outcome State Fault Refusal := s.issue t fun e ts => tNet e ts f (.atom 1)

/-- ATOM.MAX (R181, R259). -/
def execAtomMax (t : Nat) (f : LN) (s : State) : Host.Outcome State Fault Refusal := s.issue t fun e ts => tNet e ts f (.atom 2)

/-- ATOM.SWAP (R181, R259). -/
def execAtomSwap (t : Nat) (f : LN) (s : State) : Host.Outcome State Fault Refusal := s.issue t fun e ts => tNet e ts f (.atom 3)

/-- ATOM.CAS (R181, R259). -/
def execAtomCas (t : Nat) (f : LN) (s : State) : Host.Outcome State Fault Refusal := s.issue t fun e ts => tNet e ts f (.atom 4)

/-- A command acts on the router of a tile whose field is on, or drains (R358). -/
def State.routerDo (s : State) (t : Nat) (ok : Bool) (k : State) : Host.Outcome State Fault Refusal :=
  s.checked (decide (t < nTiles) && ok) (if (s.field (fieldOf t)).power = 2 || (s.field (fieldOf t)).power = 3 then k else s)

/-- RED_COMBINE (R239). -/
def execRedCombine (t d : Nat) (s : State) : Host.Outcome State Fault Refusal := s.routerDo t (decide (d < 256)) (s.redCombine t d)

/-- NET_UNIT_ISSUE (R231). -/
def execNetUnitIssue (t tid : Nat) (s : State) : Host.Outcome State Fault Refusal :=
  s.routerDo t (decide (tid < 16)) (s.unitIssue t tid)

/-- FLIT_INJECT (R224). -/
def execFlitInject (t : Nat) (s : State) : Host.Outcome State Fault Refusal := s.routerDo t true (s.inject t)

/-- FLIT_HOP (R223). -/
def execFlitHop (t port : Nat) (crcFail : Bool) (s : State) : Host.Outcome State Fault Refusal :=
  s.routerDo t (decide (port < 5)) (s.hop t port crcFail)

/-- COMBINED_RETURN_COPY (R236). -/
def execCombinedReturnCopy (t : Nat) (s : State) : Host.Outcome State Fault Refusal :=
  s.routerDo t true (s.setTile t (tCombinedCopy (s.tile t)))

/-- RDATA_ARRIVE (R231). -/
def execRdataArrive (t : Nat) (s : State) : Host.Outcome State Fault Refusal :=
  s.routerDo t true (s.setTile t (tDataArrive (s.tile t)))

/-- UNIT_ACK_ARRIVE (R231). -/
def execUnitAckArrive (t : Nat) (s : State) : Host.Outcome State Fault Refusal :=
  s.routerDo t true (s.setTile t (tAckArrive (s.tile t)))

/-- NET_TRANSFER_COMPLETE (R183). -/
def execNetTransferComplete (t tid : Nat) (s : State) : Host.Outcome State Fault Refusal :=
  s.routerDo t (decide (tid < 16)) (s.setTile t (tTransferComplete (s.tile t) tid))

/-- SEND_FLIT_ARRIVE (R237). -/
def execSendFlitArrive (t : Nat) (s : State) : Host.Outcome State Fault Refusal :=
  s.routerDo t true (s.onTile t tSendArrive)

end Sys2Proof.Machine
end

