-- ==== Sys2Proof/Machine/RouteGraph.lean ====
section
/-!
DEFINITION. Field route tables as sets of directions (R226, R228): paths, the waits between links, the choice of a set, and the rate that the
memory class is guaranteed (R233, R353, R367).
-/

namespace Sys2Proof.Machine

/-- A power register of field f (Table 14.10): +0x00 VSEL, +0x04 CTL, +0x08 TEMP, +0x0C RATE, +0x10 PACE. -/
def pwr (f o : Nat) : Nat := 0x1000 + 0x20 * f + o

/-- A power register of partition p (Table 14.11). -/
def pwrPart (p o : Nat) : Nat := 0x2000 + 0x40 * p + o

/-- The field that a direction leads to: 1 north, 2 east, 3 south, 4 west. -/
def fieldStep (f dir : Nat) : Option Nat :=
  match dir with
  | 1 => if fieldY f = 0 then none else some (f - 10)
  | 2 => if fieldX f = 9 then none else some (f + 1)
  | 3 => if fieldY f = 6 then none else some (f + 10)
  | 4 => if fieldX f = 0 then none else some (f - 1)
  | _ => none

/-- The fields whose tiles are on. -/
def State.onFields (s : State) : List Nat := (List.range nFields).filter fun f => (s.field f).power = 2

/-- The direction of dimension order: X before Y in class 0, Y before X in class 1. -/
def dimDir (cls f d : Nat) : Nat :=
  let ew := if fieldX f < fieldX d then 2 else 4
  let ns := if fieldY f < fieldY d then 3 else 1
  if cls = 0 then (if fieldX f ≠ fieldX d then ew else ns) else (if fieldY f ≠ fieldY d then ns else ew)

/-- Tile hops across a field (log entry 45): 35 columns, 48 rows. -/
def stepCost (dir : Nat) : Nat := if dir = 2 || dir = 4 then 35 else 48

/-- No path leads there. -/
def noPath : Nat := 1000000

/-- One more step: a live field is one field further than its nearest live neighbour. -/
def relax (live : List Nat) (l : List Nat) : List Nat :=
  (List.range nFields).map fun f =>
    if !live.contains f then noPath
    else min (nth noPath l f)
      ([1, 2, 3, 4].foldl (fun m dir => match fieldStep f dir with | some g => min m (nth noPath l g + stepCost dir) | none => m) noPath)

/-- `relax` until nothing changes, at most n times. -/
def relaxAll (live : List Nat) : Nat → List Nat → List Nat
  | 0, l => l
  | n + 1, l => let l' := relax live l; if l' = l then l else relaxAll live n l'

/-- Hops from every field to field d over live fields. -/
def hopsTo (live : List Nat) (d : Nat) : List Nat :=
  relaxAll live nFields ((List.range nFields).map fun f => if f = d then 0 else noPath)

/-- The hops to every field. -/
def allHops (live : List Nat) : List (List Nat) := (List.range nFields).map (hopsTo live)

/-- A shortest next hop toward d, in dimension order where that is one; `l` the hops to d. -/
def shortDir (live : List Nat) (l : List Nat) (cls f d : Nat) : Nat :=
  (([dimDir cls f d, 1, 2, 3, 4]).find? fun dir =>
    match fieldStep f dir with
    | some g => live.contains g && decide (nth noPath l g + stepCost dir = nth noPath l f)
    | none => false).getD 15

/-- The directions and fields that a route takes, its end included; none where it meets a hole or does not arrive. -/
def routePath (live : List Nat) (dir : Nat → Nat → Nat) (d : Nat) : Nat → Nat → Option (List (Nat × Nat))
  | 0, _ => none
  | n + 1, f =>
    if f = d then some []
    else match fieldStep f (dir f d) with
      | some g => if live.contains g then (routePath live dir d n g).map ((dir f d, g) :: ·) else none
      | none => none

/-- A set of directions by class, field and destination. -/
abbrev RouteSet := List (List (List Nat))

/-- The set of a rule for directions. -/
def mkRoutes (r : Nat → Nat → Nat → Nat) : RouteSet :=
  [0, 1].map fun cls => (List.range nFields).map fun f => (List.range nFields).map (r cls f)

/-- The direction of a class from field f toward field d. -/
def routeDir (r : RouteSet) (cls f d : Nat) : Nat := nth 15 (nth [] (nth [] r cls) f) d

/-- The route of a class from field f to field d. -/
def pathOf (live : List Nat) (r : RouteSet) (cls f d : Nat) : Option (List (Nat × Nat)) := routePath live (routeDir r cls) d (nFields + 1) f

/-- Every live field reaches every other of its connected group in a class. -/
def routesReach (live : List Nat) (hops : List (List Nat)) (r : RouteSet) (cls : Nat) : Bool :=
  live.all fun d => live.all fun f =>
    decide (noPath ≤ nth noPath (nth [] hops d) f) || (pathOf live r cls f d).isSome

/-- Tiles along each side of a field in the grid on which waits are looked for (log entry 45): where a flit goes depends on its field and on which
side of its destination it stands, so that few tiles stand for a field. -/
def gridSide : Nat := 3

/-- Column, row and field of a tile of that grid, of 10 by 7 fields. -/
def gridX (a : Nat) : Nat := a % (10 * gridSide)
@[inherit_doc gridX] def gridY (a : Nat) : Nat := a / (10 * gridSide)
@[inherit_doc gridX] def gridField (a : Nat) : Nat := gridY a / gridSide * 10 + gridX a / gridSide

/-- Tiles of the grid. -/
def gridTiles : Nat := nFields * gridSide * gridSide

/-- The tile that a direction leads to. -/
def gridStep (a dir : Nat) : Option Nat :=
  match dir with
  | 1 => if gridY a = 0 then none else some (a - 10 * gridSide)
  | 2 => if gridX a = 10 * gridSide - 1 then none else some (a + 1)
  | 3 => if gridY a = 7 * gridSide - 1 then none else some (a + 10 * gridSide)
  | 4 => if gridX a = 0 then none else some (a - 1)
  | _ => none

/-- The direction that the routing function gives a flit at tile a for tile b (R223). -/
def gridNext (r : RouteSet) (cls a b : Nat) : Nat :=
  let f := gridField a
  let d := gridField b
  let ew := if gridX a < gridX b then 2 else 4
  let ns := if gridY a < gridY b then 3 else 1
  let dir := routeDir r cls f d
  if f = d then (if cls = 0 then (if gridX a ≠ gridX b then ew else ns) else (if gridY a ≠ gridY b then ns else ew))
  else if cls = 0 && (dir = 1 || dir = 3) && fieldX f = fieldX d && gridX a ≠ gridX b then ew
  else if cls ≠ 0 && (dir = 2 || dir = 4) && fieldY f = fieldY d && gridY a ≠ gridY b then ns
  else dir

/-- The links that a flit holding the link from tile a in a direction may wait for, as bits: a link is named by 5 times its tile and its
direction. `ends` are the tiles of live fields. -/
def waitsFrom (live ends : List Nat) (r : RouteSet) (cls a dir : Nat) : Nat :=
  match gridStep a dir with
  | none => 0
  | some u =>
    if !(live.contains (gridField a) && live.contains (gridField u)) then 0
    else ends.foldl (fun m b =>
      if a ≠ b && u ≠ b && gridNext r cls a b = dir then m ||| 2 ^ (5 * u + gridNext r cls u b) else m) 0

/-- The waits between links that the routing function allows in a class over the live fields (R228). -/
def waitsOf (live : List Nat) (r : RouteSet) (cls : Nat) : List Nat :=
  let ends := (List.range gridTiles).filter fun b => live.contains (gridField b)
  if live.isEmpty then [] else (List.range (5 * gridTiles)).map fun k => waitsFrom live ends r cls (k / 5) (k % 5)

/-- Links are taken away that wait for none left; `next` gives the links that each waits for, `left` those left, as bits. -/
def peel (next : List Nat) : Nat → Nat → Nat
  | 0, left => left
  | n + 1, left =>
    let left' := (next.zipIdx.map fun x => if left.testBit x.2 && x.1 &&& left ≠ 0 then 2 ^ x.2 else 0).foldl (· ||| ·) 0
    if left' = left then left else peel next n left'

/-- The waits form no cycle. -/
def waitFree (next : List Nat) : Bool := peel next next.length (2 ^ next.length - 1) = 0

/-- The waits of two sets together. -/
def bothWaits (a b : List Nat) : List Nat := a.zipWith (· ||| ·) b

/-- Steps by `dirs` over live fields into a list of fields, from every field: one more round. -/
def closer (live dirs l : List Nat) : List Nat :=
  (List.range nFields).map fun f =>
    if !live.contains f then noPath
    else dirs.foldl (fun m q => match fieldStep f q with | some g => min m (nth noPath l g + 1) | none => m) (nth noPath l f)

/-- `closer` until nothing changes, at most n times. -/
def closest (live dirs : List Nat) : Nat → List Nat → List Nat
  | 0, l => l
  | n + 1, l => let l' := closer live dirs l; if l' = l then l else closest live dirs n l'

/-- Steps by `dirs` over live fields into those of a list. -/
def stepsInto (live dirs into : List Nat) : List Nat :=
  closest live dirs nFields ((List.range nFields).map fun f => if live.contains f && into.contains f then 0 else noPath)

/-- A first step of a shortest way by `dirs`, `l` the steps from each field; none where there is no way. -/
def stepDir (dirs l : List Nat) (f : Nat) : Option Nat :=
  if noPath ≤ nth noPath l f then none
  else dirs.find? fun q => match fieldStep f q with | some g => decide (nth noPath l g + 1 = nth noPath l f) | none => false

/-- From each field a direction toward d by which no path turns into `q`: `q` itself while the three others do not lead there. -/
def turnFirst (live : List Nat) (q d : Nat) : List Nat :=
  let dirs := [1, 2, 3, 4].filter (· ≠ q)
  let l := stepsInto live dirs [d]
  (List.range nFields).map fun f => (stepDir dirs l f).getD q

/-- From each field a direction toward d by which no path turns out of `q`: `q` itself once it leads straight there, else a way by the three others
to such a field. -/
def turnLast (live : List Nat) (q d : Nat) : List Nat :=
  let dirs := [1, 2, 3, 4].filter (· ≠ q)
  let line := stepsInto live [q] [d]
  let l := stepsInto live dirs ((List.range nFields).filter fun f => decide (nth noPath line f < noPath))
  (List.range nFields).map fun f => if nth noPath line f < noPath then q else (stepDir dirs l f).getD 15

/-- From each field a shortest next hop toward d. -/
def shortDirs (live : List Nat) (hops : List (List Nat)) (cls d : Nat) : List Nat :=
  (List.range nFields).map fun f => shortDir live (nth [] hops d) cls f d

/-- The directions of a class, by field and destination, of a rule that gives them by destination and field. -/
def classRoutes (hops : List (List Nat)) (rule : Nat → List Nat) : List (List Nat) :=
  let cols := (List.range nFields).map rule
  (List.range nFields).map fun f => (List.range nFields).map fun d =>
    if f = d then 0 else if noPath ≤ nth noPath (nth [] hops d) f then 15 else nth 15 (nth [] cols d) f

/-- The largest connected group of live fields, the one with the lowest field where two are equal. -/
def mainGroup (live : List Nat) : List Nat :=
  let hops := allHops live
  let group (d : Nat) : List Nat := let l := nth [] hops d; live.filter fun f => decide (nth noPath l f < noPath)
  live.foldl (fun best d => if best.length < (group d).length then group d else best) []

/-- CSITE that the job service gives a field: the first site with an edge tile in a live field of the main group (log entry 45); none where every
such tile lies in a hole. -/
def csiteFor (main : List Nat) : Option Nat := (List.range nSites).find? fun n => main.contains (fieldOf (linkTile n 0).1)

/-- The directions of a class may be loaded (R228): every field is reached, and no cycle of waits is allowed. -/
def classOk (live : List Nat) (hops : List (List Nat)) (r : RouteSet) (cls : Nat) : Bool := routesReach live hops r cls && waitFree (waitsOf live r cls)

/-- A set that may be loaded (R228): both classes may, and the edge tile of CSITE lies in a field of the group. VCSET and OWN are those of
`State.routeEntry`. -/
def routesOk (live : List Nat) (hops : List (List Nat)) (r : RouteSet) : Bool :=
  (live.isEmpty || (csiteFor (mainGroup live)).isSome) && [0, 1].all (classOk live hops r)

/-- The sets that a preference leaves: those that meet it, or all where none does. -/
def prefer (l : List RouteSet) (p : RouteSet → Bool) : List RouteSet := if l.any p then l.filter p else l

/-- The fields with an edge tile of a site the partition owns. -/
def State.rimFields (s : State) (p : Nat) : List Nat :=
  (s.sitesOf p).flatMap fun n => (List.range (linkCount n)).map fun j => fieldOf (linkTile n j).1

/-- The routes of a partition with a set of directions: between its fields, and between them and its sites' edge tiles. -/
def State.partRoutes (s : State) (live : List Nat) (r : RouteSet) (p : Nat) : List (List (Nat × Nat)) :=
  let mine := (s.fieldsOf p).filter fun f => live.contains f
  let ends := (mine ++ s.rimFields p).filter fun f => live.contains f
  [0, 1].flatMap fun cls => mine.flatMap fun a => ends.flatMap fun b =>
    [(pathOf live r cls a b).getD [], (pathOf live r cls b a).getD []]

/-- The fields that a partition's routes cross (R360). -/
def State.crossed (s : State) (live : List Nat) (r : RouteSet) (p : Nat) : List Nat := (s.partRoutes live r p).flatMap fun l => l.map (·.2)

/-- Preference 1 of R228: routes of each partition cross only its own fields and fields without an owner. -/
def State.keepsOwn (s : State) (live : List Nat) (r : RouteSet) : Bool :=
  (List.range nParts).all fun p => (s.crossed live r p).all fun f => s.fieldOwner f = p || 8 ≤ s.fieldOwner f

/-- Preference 2: every path is shortest. -/
def pathsShort (live : List Nat) (hops : List (List Nat)) (r : RouteSet) : Bool :=
  [0, 1].all fun cls => live.all fun d => live.all fun f =>
    match pathOf live r cls f d with
    | some l => (l.map fun x => stepCost x.1).sum = nth noPath (nth [] hops d) f
    | none => true

/-- Preference 3: every hop follows the dimension order of its class. -/
def pathsInOrder (live : List Nat) (r : RouteSet) : Bool :=
  [0, 1].all fun cls => live.all fun d => live.all fun f => f = d || routeDir r cls f d = dimDir cls f d

/-- The set that the job service loads for a set of live fields (R228): the first, in a fixed order, of those that may be loaded and that the
preferences leave. The sets it looks at are, in each class, the shortest paths and those that never turn into, or never out of, one direction, and
those of Config.route, whatever sets these are (log entries 45, 130). -/
def State.bestSet (s : State) (live : List Nat) : Option RouteSet :=
  let hops := allHops live
  let found : List RouteSet := (List.range 8).map fun k => mkRoutes (Config.route k live ((List.range nFields).map s.fieldOwner))
  let ways (cls : Nat) : List (List (List Nat)) :=
    let rules : List (Nat → List Nat) := shortDirs live hops cls ::
      ((if cls = 0 then [2, 4] else [1, 3]).map (turnFirst live) ++ (if cls = 0 then [1, 3] else [2, 4]).map (turnLast live))
    (rules.map (classRoutes hops)).filter fun q => classOk live hops [q, q] cls
  let ok : Bool := live.isEmpty || (csiteFor (mainGroup live)).isSome
  let pairs : List RouteSet := if !ok then [] else (ways 0).flatMap fun a => (ways 1).map fun b => [a, b]
  let sets := pairs ++ found.filter (routesOk live hops)
  (prefer (prefer (prefer sets (s.keepsOwn live)) (pathsShort live hops)) (pathsInOrder live)).head?

/-- The fields that a set is found for, and the set (R228): a field for which none is found is unreachable (R37). Config.routeLost names those; a
field of the list is given up at the least. -/
def State.routeFor (s : State) : Nat → List Nat → List Nat × RouteSet
  | 0, _ => ([], [])
  | n + 1, live =>
    match s.bestSet live with
    | some r => (live, r)
    | none =>
      let lost := Config.routeLost live
      let kept := live.filter fun f => !lost.contains f
      s.routeFor n (if kept.length < live.length then kept else live.dropLast)

/-- The fields that have routes and their set (R228): dimension order where there is no hole. -/
def State.routeSet (s : State) : List Nat × RouteSet :=
  let live := s.onFields
  if live.length = nFields then (live, mkRoutes dimDir) else s.routeFor (nFields + 1) live

/-- The directions that a bank of the fields' tables holds. -/
def State.bankSet (s : State) (bank : Nat) : RouteSet := mkRoutes fun cls f d =>
  let w := s.rtEntry f bank d
  if cls = 0 then bits w 15 12 else bits w 19 16

/-- The bank that the fields with routes inject under. -/
def State.epochBank (s : State) : Nat := (((List.range nFields).find? fun f => (s.field f).routed).map s.activeBank).getD 0

/-- OLDFLITS (Table 8.10): the flits of the other epoch in a field's routers and crossing buffers, RED flits among them. -/
def State.oldFlits (s : State) (f : Nat) : Nat :=
  min 65535 (((s.tiles.filter fun t => fieldOf t.1 = f).map fun t =>
    ((t.2.rtr.bufs ++ t.2.rtr.cross).map fun b => (b.2.filter fun x => x.ep ≠ s.activeBank f).length).sum +
    (t.2.rtr.redIn.map fun b => (b.2.filter fun x => x.ep ≠ s.activeBank f).length).sum +
    (t.2.rtr.redCross.map fun b => (b.2.filter fun x => x.2.ep ≠ s.activeBank f).length).sum).sum)

/-- Flits of the other epoch are left somewhere. -/
def State.anyOld (s : State) : Bool := (List.range nFields).any fun f => decide (s.oldFlits f ≠ 0)

/-- Beat-rate floor of a level in Mbeat/s at 60 °C or below (Table 14.2). -/
def levelFloor (v : Nat) : Nat := nth 1200 [700, 760, 850, 910, 1000, 1070, 1120, 1200] v

/-- The beat-rate floor of a field in Mbeat/s by its level, its temperature (R353) and the debug policy of its owner (R206); 0 while it is off. -/
def State.fieldRate (s : State) (f : Nat) : Nat :=
  if (s.field f).power ≠ 2 && (s.field f).power ≠ 3 then 0
  else
    let hot := bits (s.ez (pwr f 8)) 23 16 - 60
    let r := levelFloor (bits (s.ez (pwr f 0)) 14 12) * (10000 - 15 * hot) / 10000
    if s.fieldOwner f < 8 && (s.part (s.fieldOwner f)).debug then r * 6 / 10 else r

/-- M_s in MB/s by thermal level (Table 9.4). -/
def siteRate (level : Nat) : Nat := nth 0 [1990000, 1975000, 1024000, 512000] level

/-- D_s of a site in MB/s (R233, R367): its memory, or its live edge links each at its field's rate. -/
def State.siteDelivers (s : State) (live : List Nat) (n : Nat) : Nat :=
  let link (j : Nat) : Nat :=
    let f := fieldOf (linkTile n j).1
    if live.contains f then 704 * s.fieldRate f / 10 else 0
  min (siteRate (bits ((s.site n).csrWord 0x10) 2 0)) ((List.range (linkCount n)).map link).sum

/-- A memory-class route of the partition is detoured: a hop leaves the dimension order. -/
def State.detoured (s : State) (live : List Nat) (r : RouteSet) (p : Nat) : Bool :=
  let ends := (List.range nSites).flatMap fun n => (List.range (linkCount n)).map fun j => fieldOf (linkTile n j).1
  ((s.fieldsOf p).filter fun f => live.contains f).any fun a => (ends.filter fun b => live.contains b).any fun b =>
    [0, 1].any fun cls => routeDir r cls a b ≠ dimDir cls a b && a ≠ b || (routeDir r cls b a ≠ dimDir cls b a && a ≠ b)

/-- The guarantee g of the memory class in kB/s for partition p (R233, R367), with every owned field's tiles requesting. Where its routes are
detoured, the job service computes g from the loaded tables, by no stated rule: at most the formula's (log entry 57). -/
def State.guarantee (s : State) (p : Nat) : Nat :=
  let live := s.onFields
  let t := 1680 * ((List.range nFields).filter fun f => decide (s.fieldOwner f < 8)).length
  let d (n : Nat) : Nat := s.siteDelivers live n
  let g := if t = 0 then 0 else 48000 * ((List.range nSites).foldl (fun m n => min m (d n)) (d 0)) / t
  if live.length = nFields then g
  else
    let r := s.bankSet s.epochBank
    if s.detoured live r p then min g (Config.detourRate p live r) else g

/-- The guarantee of a partition with a job is reported when it changes (R233, R367): an ADVISORY of kind 5. -/
def State.reportGuar (s : State) : State :=
  (List.range nParts).foldl (fun s p =>
    if (s.part p).job.isNone then s
    else
      let g := s.guarantee p
      if (s.part p).guar = g then s
      else (s.setPart p { s.part p with guar := g }).post p (.hostAdvisory p 5 [g])) s

end Sys2Proof.Machine
end

