-- ==== Sys2Proof/Machine/SiteCmd.lean ====
section
/-!
DEFINITION. The commands of a site: requests, windows, patrol and heat (spec/09_memory_sites.md), the reduction
(spec/10_backward_reduction.md), and the writes of its registers (Table 11.15, R271, R300, R334, R475).
-/

namespace Sys2Proof.Machine

/-- Acknowledgements that a site sends through its edge links (R279): each an ACK flit to the edge tile, in the site's class (R224). -/
def State.sendAcks (s : State) (n : Nat) (l : List (Nat × BktAck)) : State :=
  l.foldl (fun s a => s.fromSite n (linkTile n a.1).1 { bktAckFlit a.2 (linkTile n a.1).1 with cls := siteCls n }) s

/-- A relayed flit leaves a site through an edge link (R282). -/
def State.relayOut (s : State) (n d : Nat) (r : Option (Nat × RedFlit)) : State :=
  match r with
  | none => s
  | some (j, f) =>
    let t := linkTile n j
    if s.live (fieldOf t.1) then
      s.setTile t.1 (setRedBuf (s.tile t.1) d t.2 (redBuf (s.tile t.1) d t.2 ++ [{ f with ep := s.activeBank (fieldOf t.1) }]))
    else s

/-- What a reduction command at a site leaves behind. -/
def State.redOut (s : State) (n d : Nat) (r : RedOut) : State :=
  let s1 := ({ s with free := r.x.free }).setSite n r.x.s
  let s2 := match r.freed with
    | none => s1
    | some j => s1.setTile (linkTile n j).1 (creditBack (s1.tile (linkTile n j).1) d)
  ((s2.sendAcks n r.acks).relayOut n d r.relay).raiseAll r.x.recs

/-- A relay of descriptor d has a credit on its output link, which has not failed (R241, R283). -/
def State.relayRoom (s : State) (n d : Nat) : Bool :=
  let w := siteRdesc (s.site n) d
  let t := linkTile n (rdRelay w)
  !bit w 30 || (!(s.tile t.1).rtr.linkFail.contains t.2 && decide ((redBuf (s.tile t.1) d t.2).length < vc1Slots (bits w 27 26)))

/-- RED_ROOT_FLIT (R282, R289); a relayed flit that fails its CRC at the edge tile stays (R241). -/
def State.redRootFlit (s : State) (n d : Nat) : State :=
  let r := redRoot (s.siteEnv n) { s := s.site n, free := s.free } d fun j => s.fieldOwner (fieldOf (linkTile n j).1)
  if !s.relayRoom n d then s
  else
    match r.relay with
    | some (j, _) =>
      let t := linkTile n j
      if 0 < Map.get (fun _ => 0) (s.tile t.1).rtr.edgeBad t.2 then s.edgeCrc t.1 t.2 else s.redOut n d r
    | none => s.redOut n d r

/-- BUCKET_ACK_RECEIVE (R279, R285): the first acknowledgement that has arrived of a descriptor that is not stopped. A copy leaves for the
neighbour on each input port other than local, and a leaf applies it, once its staging regions can honour the advances (R133); where the entry
is not loaded the descriptor stops and the flit stays. -/
def State.ackReceive (s : State) (t : Nat) : State :=
  let x := s.tile t
  match x.rtr.arrived.find? fun f => isBktAck f && !x.rtr.redStopped.contains (bktAckOf f).rdesc &&
      (!(rdInputs (rdesc x (bktAckOf f).rdesc)).contains 0 || ackReady x (bktAckOf f)) with
  | none => s
  | some f =>
    let a := bktAckOf f
    let w := rdesc x a.rdesc
    if !bit w 31 then s.onTile t fun e ts => stopDesc e ts a.rdesc
    else
      let x1 := { x with rtr := { x.rtr with arrived := x.rtr.arrived.erase f } }
      let x2 := if (rdInputs w).contains 0 then applyAck x1 a else x1
      let copies := (rdInputs w).filterMap fun p => if p = 0 then none else (neighbour t p).map (bktAckFlit a)
      s.setTile t { x2 with rtr := { x2.rtr with inject := x2.rtr.inject ++ copies } }

/-- The first whole packet of a VC among the flits at an edge link, as a request of tile `t`'s edge. -/
def edgePacket (t vc : Nat) (l : List Flit) : Option (Nat × SiteReq × List Flit) :=
  let mine := l.filter fun f => f.vc = vc
  match mine with
  | [] => none
  | f :: rest =>
    match f.body with
    | .req op site src cmb part addr seq nfl tid rcnt age ty aop =>
      let datas := if op = 1 then [] else rest.take nfl
      if op ≠ 1 && decide (datas.length < nfl) then none
      else
        let used := f :: datas
        some (site,
          { op := op, off := addr % 2 ^ 42, nfl := nfl, seq := seq, tid := tid, src := src, cmb := cmb, part := part, rcnt := rcnt,
            age := age, atype := ty, aop := aop, vc := vc, edge := t, data := datas.flatMap fun d => d.data },
          used.foldl List.erase l)
    | _ => none

/-- SITE_REQUEST_ARRIVE (R256, R265): the first packet at one of the tile's edge links that its site takes. -/
def State.requestArrive (s : State) (t : Nat) : State :=
  let x := s.tile t
  let take (port vc : Nat) : Option State :=
    match edgePacket t vc (edgeFlits x port) with
    | none => none
    | some (n, r, rest) =>
      match siteArrive (s.siteEnv n) { s := s.site n, free := s.free } r with
      | none => none
      | some y =>
        let s1 := (({ s with free := y.free }).setTile t (setEdgeFlits x port rest)).setSite n y.s
        some ((y.ret.foldl (fun s ef => s.fromSite n ef.1 ef.2) s1).raiseAll y.recs)
  (([1, 2, 3, 4].flatMap fun port => [(port, 2), (port, 5)]).findSome? fun a => take a.1 a.2).getD s

/-- A site is disabled or its engine is: exports end with FAULT (R333). -/
def stopExport (x : Site) : Site :=
  if x.exp.busy then { x.csrField 0x614 1 1 1 with exp := { x.exp with busy := false } } else x

/-- SITE_DISABLE (R270, R333, Table 16.12). -/
def State.siteDisable (s : State) (n : Nat) : State :=
  let p := (s.site n).owner
  let s1 := s.onSite n fun e x => (siteAbort e x 0x18).upd fun y => { stopExport y with state := 3 }
  if (s.part p).step then s1.requestAbort p 5 else s1

/-- DSITE takes taints of the running step (R320, Table 11.8): the first sets CAUSE, any may note the halving; in FOLD the step
is withheld at once. -/
def State.taintAt (s : State) (p : Nat) (causes : List Nat) : State :=
  let d := s.dsite p
  let x := s.site d
  if causes.isEmpty || !(1 ≤ pavState x && pavState x ≤ 3) then s
  else
    let x1 := if tainted x then x else (x.csrField 0x624 23 20 (causes.headD 0)).csrField 0x624 16 16 1
    let halves := causes.any fun c => c ≤ 4 || c = 7
    let x2 := { x1 with upd := { x1.upd with halving := x1.upd.halving || halves } }
    let s1 := s.setSite d x2
    if pavState x = 3 then s1.outcome p 6 else s1

/-- TAINT_PROPAGATE (R320, R321): what site n found reaches DSITE, and the taint reaches site n. -/
def State.taintPropagate (s : State) (n : Nat) : State :=
  let x := s.site n
  let p := x.owner
  let d := s.dsite p
  if 8 ≤ p || nSites ≤ d then s
  else
    let s1 := (s.setSite n { x with upd := { x.upd with taints := [] } }).taintAt p x.upd.taints
    if tainted (s1.site d) && 1 ≤ pavState (s1.site d) && decide (pavState (s1.site d) ≤ 3) then
      s1.setSite n (taintSite (s1.site n))
    else s1

/-- A site reaches another over the ring, past the broken links (R382). -/
def ringReach (broken : List Nat) (a b : Nat) : Bool :=
  let up := (List.range ((b + 48 - a) % 48)).all fun i => !broken.contains ((a + i) % 48)
  let down := (List.range ((a + 48 - b) % 48)).all fun i => !broken.contains ((b + i) % 48)
  up || down

/-- The first site, in ascending index, for which DSITE refuses ARM over the ring (R329, R331, R382, R476). -/
def State.armBlocked (s : State) (p : Nat) : Option Nat :=
  let d := s.dsite p
  let x := s.site d
  let first := s.site ((s.sitesOf p).headD d)
  (s.sitesOf p).find? fun n =>
    let y := s.site n
    y.csrWord 0x628 ≠ first.csrWord 0x628 || y.csrWord 0x64 ≠ first.csrWord 0x628 || (y.exp.busy && y.exp.half = workHalf x) ||
      !bit (y.csrWord 0x600) 0 || !ringReach s.mod.ring d n

/-- A site as DSITE arms a step (Table 11.8): STEP, EPOCH, ESCALE and c_lag distributed, partials and TAINT cleared. -/
def armSite (d x : Site) : Site :=
  let x1 := x.csrPut 0x624 (BitVec.ofNat 32 (1 + 256 * pavEpoch d))
  let x2 := ((x1.csrPut 0x628 (d.csrWord 0x628)).csrField 0x62C 31 24 (bits (d.csrWord 0x62C) 31 24)).csrPut 0x64C (d.csrWord 0x64C)
  { setSsq x2 0 with upd := {} }

/-- ARM is accepted at DSITE (R322): every site runs. The watchdog starts with the first issue (R410). -/
def State.arm (s : State) (p : Nat) : State :=
  let d := s.site (s.dsite p)
  let s1 := s.eachSite p (armSite d)
  s1.setPart p { s1.part p with step := true }

/-- The ECODE with which a command to SITE_PAV_CTL is refused (Table 11.15); no step is armed while
the control complex restarts (R401). -/
def State.pavRefused (s : State) (n cmd : Nat) : Option Nat :=
  let x := s.site n
  let st := pavState x
  if x.owner = 15 || s.dsite x.owner ≠ n then some 0x4A
  else if cmd = 1 then
    (if !s.mod.cc.up then some 0x46
    else if !(st = 0 || st = 5 || st = 6 || st = 8) then some 0x4A
    else if !bit (x.csrWord 0x600) 0 then some 0x43
    else none)
  else if cmd = 4 then (if st = 7 then none else some 0x4A)
  else if 1 ≤ st && st ≤ 3 then none
  else some 0x4A

/-- No tile of the partition runs. -/
def State.tilesEnded (s : State) (p : Nat) : Bool := (s.busyTiles p).all fun x => !runBit x.2

/-- A command accepted at SITE_PAV_CTL of DSITE (R320, R322, R329, R331, R476). -/
def State.pavCommand (s : State) (n cmd : Nat) : State :=
  let p := (s.site n).owner
  if cmd = 1 then
    match s.armBlocked p with
    | some k => s.raise { source := 0x23, cls := 3, loc := siteLoc k, addr := siteAddr n 0x620 }
    | none => s.arm p
  else if cmd = 4 then s.eachSite p fun y => y.csrField 0x624 3 0 0
  else if cmd = 0 || 5 ≤ cmd then s
  else
    let s1 := s.onSite n fun e x => (detectTaint e x (cmd + 2) 0 0 0).upd fun y => { y with upd := { y.upd with taints := [] } }
    s1.taintAt p [cmd + 2]

/-- A command to SITE_UPD_EXPC (R331): 1 starts, 2 cancels. -/
def exportCommand (x : Site) (cmd : Nat) : Site :=
  if cmd = 1 then { x with exp := { busy := true, half := liveHalf x, step := pavStep x } }
  else if cmd = 2 then { x with exp := { x.exp with busy := false } }
  else x

/-- A register of the update engine or the Pavane state machine (R334). -/
def isUpdReg (o : Nat) : Bool := (decide (0x600 ≤ o) && decide (o < 0x66C)) || decide (0xA000 ≤ o)

/-- A write of SITE_UPD_CTL that clears EN disables the update engine (R333, Table 16.12). -/
def disablesEngine (x : Site) (o : Nat) (v : Word) : Bool := o = 0x600 && bit (x.csrWord 0x600) 0 && !bit v 0

/-- A write of SITE_UPD_CTL that clears EN and nothing else: Table 16.12 lets it abort a running step, so that no state of the step refuses
it (log entry 32). -/
def clearsEn (x : Site) (o : Nat) (v : Word) : Bool :=
  o = 0x600 && bit (x.csrWord 0x600) 0 && (v &&& 0x3FFF0003) = ((x.csrWord 0x600 &&& 0x3FFF0003) &&& ~~~1)

/-- The site may take an injection (R446): no owner, or one with the debug policy. -/
def State.injectable (s : State) (p : Nat) : Bool := decide (8 ≤ p) || (s.part p).debug

/-- The unit's state does not admit the write (R475 condition 5). -/
def State.siteStateBad (s : State) (n o : Nat) (v : Word) : Bool :=
  let x := s.site n
  let st := pavState x
  let w := (o - 0x100) / 16
  let armed : Bool := decide (0x100 ≤ o) && decide (o < 0x180) && x.m.armed.contains w
  if o = 0x14 then n % 2 = 1
  else if o = 0x40 then !cacheIdle x
  else if decide (0x100 ≤ o) && decide (o < 0x180) && o % 16 = 8 then
    let y := x.csrField o 31 16 (bits v 31 16)
    (armed && bits v 31 16 ≠ winDef x w) || (1 ≤ bits v 1 0 && (winCmd y w (bits v 1 0)).isNone)
  else if armed then true
  else if o = 0x66C then
    bits v 1 0 = 1 && (x.exp.busy || (leanMode x && !(st = 0 || st = 5 || st = 6 || st = 8)))
  else if o = 0x614 || o = 0x620 || o = 0x654 || clearsEn x o v then false
  else isUpdReg o && 1 ≤ st && st ≤ 4

/-- The owner's job carries the Minuet right, so that SITE_UPD_MIN may be written (R314). -/
def State.minRight (s : State) (p : Nat) : Bool := decide (p < 8) && (s.part p).bins.any fun b => b.rights % 2 = 1

/-- The register does not accept the value (R475 condition 6). -/
def siteValueBad (o : Nat) (v : Word) : Bool :=
  if o = 0x4 || o = 0x14 then 8 ≤ bits v 3 0 && decide (bits v 3 0 ≤ 14)
  else if o = 0x30 then 5 ≤ bits v 30 28 || (1 ≤ bits v 30 28 && bits v 30 28 ≤ 3 && (bits v 27 26 = 0 || bits v 27 26 = 3))
  else if o = 0x40 then !allocOk v
  else if decide (0x100 ≤ o) && decide (o < 0x180) && o % 16 = 8 then bits v 31 16 = 0
  else if decide (0x200 ≤ o) && decide (o < 0x600) then 30 ≤ bits v 25 21 || 30 ≤ bits v 20 16
  else if o = 0x600 then 48 ≤ bits v 29 24 || bits v 23 16 = 0
  else if o = 0x608 then 2 ^ 20 < bits v 20 0
  else if o = 0x610 then 4096 < bits v 12 0
  else if decide (0xA000 ≤ o) && decide (o < 0xE000) && o % 64 = 0 then
    5 ≤ bits v 31 29 || (5 ≤ bits v 22 19 && bits v 22 19 ≠ 15) || 5 ≤ bits v 13 11
  else if decide (0xA000 ≤ o) && decide (o < 0xE000) && o % 64 = 16 then v = 0
  else false

/-- A partition to which the Stratus channel of site n may be allotted: none, or one that owns one of the two sites (R402). -/
def State.chanFits (s : State) (n p : Nat) : Bool :=
  decide (8 ≤ p) || (s.site (2 * (n / 2))).owner = p || (s.site (2 * (n / 2) + 1)).owner = p

/-- A Stratus channel would pass to partition q while its owner or q is not quiescent (R417). Its disabling may meet a running step (Table 16.12). -/
def State.chanRuns (s : State) (c q : Nat) : Bool := q ≠ 15 && q ≠ s.chanOwner c && !(s.quiescent (s.chanOwner c) && s.quiescent q)

/-- The ECODE with which a write of a site register by the job service is refused (R475; a write of SITE_UPD_MIN without the right as one of
a disabled function, log entry 78; an allotment that R402 does not admit as a reserved value, log entry 80). -/
def State.siteRefused (s : State) (n o : Nat) (v : Word) : Option Nat :=
  let x := s.site n
  match regAt siteRegs o with
  | none => some 0x45
  | some r =>
    let moves : Bool := o = 0x600 && bits v 29 24 ≠ bits (x.csrWord 0x600) 29 24
    if o = 0x620 then (if 1 ≤ bits v 2 0 && bits v 2 0 ≤ 4 then s.pavRefused n (bits v 2 0) else none)
    else if o = 0x30 && bits v 30 28 ≠ 0 && !s.injectable x.owner then some 0x43
    else if decide (0x10000 ≤ o) && decide (o < 0x14000) && !s.minRight x.owner then some 0x43
    else if (r.quiet || moves) && !s.quiescent x.owner then some 0x42
    else if o = 0x4 && (ownerState x || !s.quiescent (bits v 3 0)) then some 0x42
    else if o = 0x14 && s.chanRuns (n / 2) (bits v 3 0) then some 0x42
    else if s.siteStateBad n o v then some 0x4A
    else if siteValueBad o v || (o = 0x14 && !s.chanFits n (bits v 3 0)) then some 0x49
    else none

/-- A key slot of a site loaded (R267): KVALID shows it and KGEN counts the load. -/
def loadKey (x : Site) (p key : Nat) : Site :=
  let y := { x with keys := Map.set (fun _ => 0) x.keys p key }
  (y.csrField 0x8 p p 1).csrCount 0x8 31 16 1

/-- A site without the key of partition p (R427): KVALID follows. -/
def dropKey (x : Site) (p : Nat) : Site := ({ x with keys := Map.set (fun _ => 0) x.keys p 0 }).csrField 0x8 p p 0

/-- A site whose owner a write of SITE_OWN changes to q (R267, R427, R428): plaintext and key of the old owner go, and the site and its share are
dirty; the key of the new owner is loaded. A wipe ends undone. -/
def ownSite (x : Site) (q key : Nat) : Site :=
  let p := x.owner
  let y := { discardPlain x with wiping := false, wipeStr := false, wipeFor := 15 }
  let z := if p < nParts then { dropKey y p with lastOwn := p, dirty := true, strDirty := true } else y
  if key = 0 then z else loadKey z q key

/-- A share that leaves its owner is dirty, and a wipe of it ends undone (R428). -/
def soilShare (x : Site) : Site :=
  if x.wipeStr then { x with strDirty := true, wiping := false, wipeStr := false, wipeFor := 15 } else { x with strDirty := true }

/-- An accepted write of a site register. -/
def State.siteAccepted (s : State) (n o : Nat) (v : Word) : State :=
  let x := s.site n
  let old := x.csrWord o
  let new := match regAt siteRegs o with | some r => regWrite r old v | none => old
  let p := x.owner
  if o = 0x4 then
    let q := bits v 3 0
    s.setSite n ((if q = p then x else ownSite x q (if q < nParts then (s.part q).key else 0)).csrPut o new)
  else if o = 0x14 then
    let was := s.chanOwner (n / 2)
    let s0 := if was = bits v 3 0 || 8 ≤ was then s else [2 * (n / 2), 2 * (n / 2) + 1].foldl (fun s k => s.setSite k (soilShare (s.site k))) s
    let s1 := s0.setSite n ((s0.site n).csrPut o new)
    if was ≠ 15 && bits v 3 0 = 15 && (s.part was).step then s1.requestAbort was 5 else s1
  else if o = 0x30 then
    s.setSite n (if bits v 30 28 = 4 then { x.csrPut o (setBits (setBit new 31 true) 30 28 0) with tempSub := some (bits v 23 16) } else x.csrPut o new)
  else if o = 0x64 then s.setSite n (redStepWrite x v)
  else if decide (0x100 ≤ o) && decide (o < 0x180) && o % 16 = 8 then
    let y := x.csrPut o new
    s.setSite n ((if bits v 1 0 = 0 then none else winCmd y ((o - 0x100) / 16) (bits v 1 0)).getD y)
  else if o = 0x620 then s.pavCommand n (bits v 2 0)
  else if o = 0x66C then s.setSite n (exportCommand x (bits v 1 0))
  else if disablesEngine x o v then
    let s1 := s.setSite n (stopExport (x.csrPut o new))
    if (s.part p).step then s1.requestAbort p 5 else s1
  else s.setSite n (x.csrPut o new)

/-- A write of a site register (R271, R475). -/
def State.siteWrite (s : State) (priv : Bool) (n o : Nat) (v : Word) : State :=
  s.privileged priv (siteAddr n o) (siteLoc n)
    (match s.siteRefused n o v with
    | some c => s.refuse (siteAddr n o) c (siteLoc n)
    | none => s.siteAccepted n o v)

/-- A command that writes a register of site n. -/
def State.siteReg (s : State) (priv : Bool) (n o : Nat) (v : Word) : Host.Outcome State Fault Refusal :=
  s.checked (decide (n < nSites)) (s.siteWrite priv n o v)

/-- The word of SITE_PWIN_CTL with a CMD: RDEF as it stands. -/
def winWord (x : Site) (w cmd : Nat) : Word := BitVec.ofNat 32 (winDef x w * 2 ^ 16 + cmd)

/-- RED_FLIT_SEND (R275 to R277). -/
def execRedFlitSend (t d : Nat) (s : State) : Host.Outcome State Fault Refusal :=
  s.checked (decide (t < nTiles) && decide (d < 256))
    (if s.live (fieldOf t) then s.onTile t fun e ts => (tRedSend e ts d).out ts else s)

/-- RED_ROOT_FLIT (R289). -/
def execRedRootFlit (n d : Nat) (s : State) : Host.Outcome State Fault Refusal :=
  s.checked (decide (n < nSites) && decide (d < 256)) (s.redRootFlit n d)

/-- BUCKET_COMMIT (R290). -/
def execBucketCommit (n : Nat) (s : State) : Host.Outcome State Fault Refusal :=
  s.checked (decide (n < nSites)) (s.redOut n 0 (bucketCommit (s.siteEnv n) { s := s.site n, free := s.free }))

/-- BUCKET_ACK_RECEIVE (R279). -/
def execBucketAckReceive (t : Nat) (s : State) : Host.Outcome State Fault Refusal :=
  s.checked (decide (t < nTiles)) (if s.live (fieldOf t) then s.ackReceive t else s)

/-- RETRY_DECISION (R295). -/
def execRetryDecision (n : Nat) (s : State) : Host.Outcome State Fault Refusal := s.siteDo n retryDecision

/-- SITE_RED_STEP_WRITE (R291). -/
def execSiteRedStepWrite (priv : Bool) (n : Nat) (v : Word) (s : State) : Host.Outcome State Fault Refusal :=
  s.siteReg priv n 0x64 v

/-- SITE_REQUEST_ARRIVE (R265). -/
def execSiteRequestArrive (t : Nat) (s : State) : Host.Outcome State Fault Refusal :=
  s.checked (decide (t < nTiles)) (s.requestArrive t)

/-- SITE_REQUEST_SERVE (R256). -/
def execSiteRequestServe (n : Nat) (flips : List Nat) (s : State) : Host.Outcome State Fault Refusal :=
  s.siteDo n fun e x => siteServe e x (fun y r => !isWinRead y r && !isWinFill y r) flips

/-- PWIN_READ (R234, R264). -/
def execPwinRead (n : Nat) (flips : List Nat) (s : State) : Host.Outcome State Fault Refusal :=
  s.siteDo n fun e x => siteServe e x isWinRead flips

/-- PWIN_FILL (R264): by a whole-unit write that a tile sent, or by the copy engine, which the job service drives from one unit to
another (R243). -/
def execPwinFill (n : FillAt) (s : State) : Host.Outcome State Fault Refusal :=
  match n.copy with
  | none => s.siteDo n.site fun e x => siteServe e x isWinFill []
  | some (a, b) => s.checked (decide (n.site < nSites)) (if s.mod.cc.up then s.onSite n.site fun e x => copyUnit e a b n.flips x else s)

/-- ARM_FILLED (R263). -/
def execArmFilled (priv : Bool) (n w : Nat) (s : State) : Host.Outcome State Fault Refusal :=
  s.checked (decide (n < nSites) && decide (w < 8)) (s.siteWrite priv n (0x108 + 16 * w) (winWord (s.site n) w 1))

/-- ARM_EMPTY (R263). -/
def execArmEmpty (priv : Bool) (n w : Nat) (s : State) : Host.Outcome State Fault Refusal :=
  s.checked (decide (n < nSites) && decide (w < 8)) (s.siteWrite priv n (0x108 + 16 * w) (winWord (s.site n) w 2))

/-- DISARM (R263). -/
def execDisarm (priv : Bool) (n w : Nat) (s : State) : Host.Outcome State Fault Refusal :=
  s.checked (decide (n < nSites) && decide (w < 8)) (s.siteWrite priv n (0x108 + 16 * w) (winWord (s.site n) w 3))

/-- SITE_SC_ALLOC_WRITE (R258). -/
def execSiteScAllocWrite (priv : Bool) (n : Nat) (v : Word) (s : State) : Host.Outcome State Fault Refusal :=
  s.siteReg priv n 0x40 v

/-- SITE_OWN_WRITE (R265). -/
def execSiteOwnWrite (priv : Bool) (n : Nat) (v : Word) (s : State) : Host.Outcome State Fault Refusal :=
  s.siteReg priv n 0x4 v

/-- PATROL_READ (R251). -/
def execPatrolRead (n : Nat) (str : Bool) (flips : List Nat) (s : State) : Host.Outcome State Fault Refusal :=
  s.siteDo n fun e x => patrolRead e x str flips

/-- A memory of a site that holds no request, and has had none for 1 ms, enters self-refresh (R244). -/
def selfRefresh (now : DWord) (x : Site) (str : Bool) : Site :=
  let mine (r : SiteReq) : Bool := if str then decide (hbmEnd ≤ r.off) else decide (r.off < hbmEnd)
  if (x.m.queue ++ x.m.parked).any mine || decide ((now - (if str then x.m.lastStr else x.m.lastHbm)).toNat < 1000000) then x
  else if str then { x with m := { x.m with strRefresh := true } } else { x with m := { x.m with selfRefresh := true } }

/-- SELF_REFRESH_ENTRY (R244). -/
def execSelfRefreshEntry (n : Nat) (str : Bool) (s : State) : Host.Outcome State Fault Refusal :=
  s.siteDo n fun e x => x.upd fun y => selfRefresh e.now y str

/-- REFRESH (R268): it delays requests and changes no data. -/
def execRefresh (n : Nat) (s : State) : Host.Outcome State Fault Refusal := s.siteDo n fun _ x => x

/-- A reading of a stack sensor (R269, R364): a thermal event is recorded when level 4 is entered or left; an advisory of kind 2 follows at level 3
or 4 and when level 4 is left; level 4 with COOLST 0 is reported as a cooling fault of the site. -/
def State.stackTemp (s : State) (n temp : Nat) : State :=
  let x := s.site n
  let y := stackReading x temp
  let was := bits (x.csrWord 0x10) 2 0
  let now := bits (y.csrWord 0x10) 2 0
  let s1 := s.setSite n y
  if was = now then s1
  else
    let s2 := if (was = 4) = (now = 4) then s1
      else s1.raise { source := 0x10, cls := 4, loc := siteLoc n, code := now, detail := [y.csrWord 0x10], inj := x.tempSub.isSome }
    let s3 := if 3 ≤ now then s2.post (min 8 x.owner) (.hostAdvisory x.owner 2 [n, now])
      else if was = 4 then s2.post (min 8 x.owner) (.hostAdvisory x.owner 2 [n, now])
      else s2
    (if now = 4 && bits (s.ez 0x30) 1 0 = 0 then s3.post 8 (.notice 8 n) else s3).reportGuar

/-- STACK_THERMAL_READING (R269). -/
def execStackThermalReading (n temp : Nat) (s : State) : Host.Outcome State Fault Refusal :=
  s.checked (decide (n < nSites) && decide (temp < 256)) (s.stackTemp n temp)

/-- SITE_DISABLE (R270). -/
def execSiteDisable (priv : Bool) (n : Nat) (s : State) : Host.Outcome State Fault Refusal :=
  s.checked (decide (n < nSites)) (s.privileged priv (siteAddr n 0) (siteLoc n) (s.siteDisable n))

/-- KEY_SLOT_LOAD (R267): nothing is loaded while the partition has no key. -/
def execKeySlotLoad (n p : Nat) (s : State) : Host.Outcome State Fault Refusal :=
  s.checked (decide (n < nSites) && decide (p < nParts))
    (if (s.part p).key = 0 then s else s.setSite n (loadKey (s.site n) p (s.part p).key))

end Sys2Proof.Machine
end

