-- ==== Sys2Proof/Machine/Halo.lean ====
section
/-!
DEFINITION. The Halo: ports, lanes, the ring, windows, transfers and Ethernet mode (R379 to R397, R449).
-/

namespace Sys2Proof.Machine

/-- Window w of a port (Table 15.8): the site address of its first unit, its units, its rights, its remote key (R396). -/
def haloWinAddr (o : Port) (w : Nat) : Nat := bits (o.csrWord (0x1004 + 16 * w)) 15 0 * 2 ^ 32 + (o.csrWord (0x1000 + 16 * w)).toNat
@[inherit_doc haloWinAddr] def haloWinUnits (o : Port) (w : Nat) : Nat := (o.csrWord (0x1008 + 16 * w)).toNat
@[inherit_doc haloWinAddr] def haloWinRight (o : Port) (w : Nat) (read : Bool) : Bool :=
  bit (o.csrWord (0x100C + 16 * w)) (if read then 0 else 1)
@[inherit_doc haloWinAddr] def haloKey (o : Port) (q w : Nat) : Nat := bits (o.csrWord (0x100C + 16 * w)) 31 16 * 2 ^ 16 + q * 2 ^ 8 + w

/-- The links of the ring from die a clockwise to die b, and the other way (R380): link l joins dies l and l + 1. -/
def ringUp (a b : Nat) : List Nat := (List.range ((b + 48 - a) % 48)).map fun i => (a + i) % 48
@[inherit_doc ringUp] def ringDown (a b : Nat) : List Nat := (List.range ((a + 48 - b) % 48)).map fun i => (b + i) % 48

/-- The links that traffic from die a to die b takes (R380, R382): the shorter way, clockwise when equal, the other way round past
a break. -/
def ringPath (broken : List Nat) (a b : Nat) : List Nat :=
  let up := ringUp a b
  let down := ringDown a b
  let clear (l : List Nat) : Bool := l.all fun k => !broken.contains k
  if up.length ≤ down.length then (if clear up || !clear down then up else down)
  else if clear down || !clear up then down
  else up

/-- A port reaches a site over the ring: from one of its four attachment dies (R379, R382). -/
def portReach (broken : List Nat) (q n : Nat) : Bool := (List.range 4).any fun i => ringReach broken (4 * q + i) n

/-- The links between a port and a site: from the attachment die with the shortest way. -/
def portPath (broken : List Nat) (q n : Nat) : List Nat :=
  (List.range 4).foldl (fun l i =>
    let m := ringPath broken (4 * q + i) n
    if m.length < l.length then m else l) (ringPath broken (4 * q) n)

/-- The STATUS with which a request is turned away, 0 where it is taken (R389, R393, R382, Table 15.4). -/
def State.haloStatus (s : State) (q win unit n : Nat) (read : Bool) : Nat :=
  let o := s.port q
  let p := s.portOwner q
  if o.state = 4 then 4
  else if p < 8 && (s.part p).state = 4 then 5
  else if n = 0 || 2 ^ 20 < n then 6
  else if 8 ≤ p || 64 ≤ win || !haloWinRight o win read then 1
  else if haloWinUnits o win < unit + n then 2
  else if !portReach s.mod.ring q (haloWinAddr o win / 2 ^ 42) then 7
  else 0

/-- A transfer over units of a window. -/
def haloXfer (o : Port) (tag : Nat) (mod read : Bool) (win unit n : Nat) : HXfer :=
  { tag := tag, mod := mod, read := read, win := win, unit := unit, n := n, site := haloWinAddr o win / 2 ^ 42,
    base := haloWinAddr o win % 2 ^ 42 + 256 * unit }

/-- The request of a Halo transfer for its unit k (R390). -/
def State.haloReq (s : State) (q : Nat) (x : HXfer) (op k off nfl : Nat) (data : List Word) (raw : List Byte) : SiteReq :=
  { op := op, off := off, nfl := nfl, seq := if op = 1 then 8 * k else k, tid := x.tag, src := 2 ^ 17 + q, cmb := 0,
    part := s.portOwner q, rcnt := 0, age := s.now.toNat % 2 ^ 32, edge := haloEdge q x.tag x.mod, data := data, raw := raw }

/-- The transfer still asks its site for units; one whose data the peer sends does not. -/
def HXfer.asks (x : HXfer) : Bool := decide (x.next < x.n) && !(x.read = x.mod && x.data.isEmpty)

/-- A transfer of the peer that was accepted before and still asks the same site goes first (R390). -/
def Port.behind (o : Port) (x : HXfer) : Bool :=
  !x.mod && (o.xfers.takeWhile fun y => !(y.tag = x.tag && y.mod == x.mod)).any fun y => !y.mod && y.asks && y.site = x.site

/-- A site takes a Halo request; none while its queue is full (R257, R386). -/
def State.siteTake (s : State) (q : Nat) (x : HXfer) (r : SiteReq) : Option State :=
  if nSites ≤ x.site then some (s.endXfer q x 3 0x11)
  else
    match siteArrive (s.siteEnv x.site) { s := s.site x.site, free := s.free } r with
    | none => none
    | some y =>
      let s1 := ({ s with free := y.free }).setSite x.site y.s
      some ((y.ret.foldl (fun s ef => s.fromSite x.site ef.1 ef.2) s1).raiseAll y.recs)

/-- A whole unit of a write. -/
def State.haloPut (s : State) (q : Nat) (x : HXfer) (k : Nat) (b : List Byte) : Option State :=
  s.siteTake q x (s.haloReq q x 2 k (x.base + 256 * k) 8 (bytesWords 64 (b ++ List.replicate 256 0)) [])

/-- The piece of a RoCEv2 write that falls in its unit k: a whole unit, or a part of one (R391, R396). -/
def State.rocePut (s : State) (q : Nat) (x : HXfer) (k : Nat) : Option State :=
  let lo := max x.skip (256 * k)
  let hi := min (x.skip + x.len) (256 * (k + 1))
  let b := (x.data.drop (lo - x.skip)).take (hi - lo)
  if hi - lo = 256 then s.haloPut q x k b else s.siteTake q x (s.haloReq q x 2 k (x.base + lo) 0 [] b)

/-- Transfer (tag, mod) of a port asks its site for as many of its next units as the site takes (R390). -/
def State.haloAsk (s : State) (q tag : Nat) (mod : Bool) : Nat → State
  | 0 => s
  | k + 1 =>
    match (s.port q).xfers.find? fun x => x.tag = tag && x.mod == mod with
    | none => s
    | some x =>
      if !x.asks || (s.port q).behind x then s
      else
        let s1 := s.setPort q ((s.port q).putXfer { x with next := x.next + 1 })
        match (if x.data.isEmpty then s1.siteTake q x (s1.haloReq q x 1 x.next (x.base + 256 * x.next) 8 [] [])
          else s1.rocePut q x x.next) with
        | none => s
        | some s2 => s2.haloAsk q tag mod k

/-- Every transfer of a port goes on as far as the sites take it. -/
def State.haloPump (s : State) (q : Nat) : State :=
  (s.port q).xfers.foldl (fun s x => s.haloAsk q x.tag x.mod 2048) s

/-- A request is turned away: nothing of it is done, HALO_LAST takes it (R389). A peer that passes its windows is logged as a violation (R412; log
entry 151). -/
def State.haloTurnAway (s : State) (q tag qp win unit status : Nat) : State :=
  let o := s.port q
  let s1 := (s.setPort q (o.noteLast status 0 win unit)).haloCmpl q tag qp status 0 []
  if status = 1 || status = 2 then
    s1.raise { source := 0x24, cls := 3, loc := portLoc q 0, code := status,
               addr := if win < 64 then (haloWinAddr o win + 256 * unit) % 2 ^ 64 else 0, detail := [(s1.port q).csrWord 0x14, (s1.port q).csrWord 0x18] }
  else s1

/-- WREQ and RREQ (R389). A TAG that is in use names the transfer in progress, and a second request on it is not taken. -/
def State.haloRequest (s : State) (q tag : Nat) (read : Bool) (data : List Byte) : State :=
  let win := (nth 0#8 data 0).toNat
  let unit := ofLeBytes ((data.drop 1).take 4)
  let n := ofLeBytes ((data.drop 5).take 4)
  let o := s.port q
  if o.xfers.any fun x => x.tag = tag && !x.mod then s
  else
    match s.haloStatus q win unit n read with
    | 0 => (s.setPort q { o with xfers := o.xfers ++ [haloXfer o tag false read win unit n] }).haloAsk q tag false 2048
    | st => s.haloTurnAway q tag 0 win unit st

/-- A data flit of a write gives its units to the site (R390, R391); none while the site has no room for them, or an earlier request of the port
still asks it. -/
def State.haloUnits (s : State) (q tag off : Nat) (mod : Bool) (data : List Byte) : Option State :=
  match (s.port q).xfers.find? fun x => x.tag = tag && x.mod == mod && x.read == mod with
  | none => some s
  | some x =>
    let m := (s.site x.site).m
    if 2047 ≤ m.queue.length || 4095 ≤ m.parked.length || (!mod && (s.port q).xfers.any fun y => !y.mod && y.asks && y.site = x.site) then none
    else
      [2 * off, 2 * off + 1].foldl (fun a k =>
        match a with
        | none => none
        | some s => if k < x.n then s.haloPut q x k (data.drop (256 * (k - 2 * off))) else some s) (some s)

/-- The port retrains (R388): what it holds is kept. -/
def State.haloRetrain (s : State) (q : Nat) : State :=
  let o := { s.port q with state := 3, trainFails := 0, change := [], turn := [], uncorr := [], fails := 0 }
  s.setPort q ((List.range 9).foldl (fun o l => o.setLane l 1) o)

/-- The changes that the peer's CTRL flits named take effect at their SEQ (Table 15.2): the flits before it have been accepted. A lane of which the
peer says so is no good lane. -/
def State.haloChange (s : State) (q : Nat) : State :=
  let o := s.port q
  let due (c : Nat × Nat × Nat) : Bool := decide ((o.rxSeq + 4096 - c.2.2) % 4096 < 2048)
  (o.change.filter due).foldl (fun s c =>
    let y := s.port q
    let z := if c.1 = 2 && decide (c.2.1 < 9) && !y.bad.contains c.2.1 then { y with bad := y.bad ++ [c.2.1] } else y
    if c.1 = 3 then s.haloRetrain q else if c.1 = 1 || c.1 = 2 then s.setPort q (z.changeLanes c.1 c.2.1) else s)
    (s.setPort q { o with change := o.change.filter fun c => !due c })

/-- What an accepted flit does; none while it must wait (R386). -/
def State.haloHandle (s : State) (q typ : Nat) (x : HFlit) : Option State :=
  match typ with
  | 1 => some (s.haloRequest q x.tag false x.data)
  | 2 => s.haloUnits q x.tag x.off false x.data
  | 3 => some (s.haloRequest q x.tag true x.data)
  | 4 => s.haloUnits q x.tag x.off true x.data
  | 5 =>
    match (s.port q).xfers.find? fun y => y.tag = x.tag && y.mod with
    | none => some s
    | some y => some (s.endXfer q y (nth 0#8 x.data 0).toNat (nth 0#8 x.data 1).toNat)
  | _ => some s

/-- The flits of the receive buffer are handled in order, as far as none must wait; each gives its credit back. -/
def State.haloDrain (s : State) (q : Nat) : Nat → State
  | 0 => s
  | k + 1 =>
    match (s.port q).rxBuf with
    | [] => s
    | (typ, x) :: l =>
      match s.haloHandle q typ x with
      | none => s
      | some s1 =>
        let o := s1.port q
        (s1.setPort q { o with rxBuf := l, owed := o.owed + 1 }).haloDrain q k

/-- The port's side of a pass of time: what waited goes on, and a draining port is down once its transfers have ended (R393). -/
def State.haloTick (s : State) (q : Nat) : State :=
  let s1 := ((s.haloDrain q (s.port q).rxBuf.length).haloPump q)
  let s2 := (s1.haloFlush q (s1.port q).txq.length).roceFlush q
  let o := s2.port q
  if o.state = 4 then
    s2.setPort q ((List.range 9).foldl (fun o l => (o.setLane l 0).setRole l 15)
      ({ o with state := 0, rxBuf := [], sent := [], txq := [], change := [], turn := [], held := [], posted := [], uncorr := [], bad := [] }.csrPut 0x4 0xF00000))
  else s2

/-- The ACK, NAK and credits that a flit carries (R385, R386): acknowledged flits leave the replay buffer; a NAK replays the rest,
or retrains the port once 32 replays of one flit have failed in a row. -/
def State.haloAck (s : State) (q : Nat) (x : HFlit) : State :=
  let o := s.port q
  let rest := match o.sent.findIdx? fun f => f.seq = x.ack with
    | some i => o.sent.drop (i + 1)
    | none => o.sent
  let o1 := { o with
    sent := rest, credits := min 4096 (o.credits + x.cred), fails := if rest.length = o.sent.length then o.fails else 0 }
  if x.nak && !rest.isEmpty then
    if 32 ≤ o1.fails then (s.setPort q o1).haloRetrain q
    else
      let s1 := s.setPort q ({ o1 with fails := o1.fails + 1 }.csrCount 0x10 31 16 1)
      rest.foldl (fun s f => s.say (haloMsg q o1.lastSeq false 0 f)) s1
  else s.setPort q o1

/-- The injection at a port has taken effect (R446). -/
def Port.injFire (o : Port) : Port := (o.csrField 0x20 30 28 0).csrField 0x20 31 31 1

/-- What the FEC of a lane found (R383, Table 15.7): SYMERR counts corrected symbols in units of 1,024, UNCORR uncorrectable codewords. -/
def Port.countLane (o : Port) (c : Nat × Nat × Nat) : Port :=
  if 9 ≤ c.1 then o
  else
    let k := Map.get (fun _ => 0) o.symbols c.1 + c.2.1
    let a := 0x100 + 4 * c.1
    ({ o with symbols := Map.set (fun _ => 0) o.symbols c.1 (k % 1024) }.csrCount a 31 16 (k / 1024)).csrCount a 15 8 c.2.2

/-- A lane is marked bad (R387): the change that the module names in a CTRL flit takes effect at its SEQ. In Ethernet mode the failure of a lane
other than the idle spare takes the link down (R395). -/
def State.laneBad (s : State) (q lane : Nat) (inj : Bool) : State :=
  let o := s.port q
  if o.state ≠ 2 || o.bad.contains lane then s
  else
    let o1 := ({ o with bad := o.bad ++ [lane], uncorr := o.uncorr.filter fun u => u.1 ≠ lane }.csrField (0x100 + 4 * lane) 3 3 1).setLane lane 3
    let s1 := (s.setPort q o1).raise
      { source := 0x0C, cls := 2, loc := portLoc q lane, inj := inj, detail := [o1.csrWord 0x4, o1.csrWord 0x10, o1.csrWord (0x100 + 4 * lane)] }
    let sq := (o1.txSeq + o1.txq.length + 1) % 4096
    let ctrl (kind : Nat) : State :=
      let y := s1.port q
      (s1.setPort q (if kind = 3 then y else { y with turn := y.turn ++ [(kind, lane, sq)] })).haloTx q 6 0 0
        ([BitVec.ofNat 8 kind, BitVec.ofNat 8 lane] ++ leBytes sq 2)
    if o.ether then (if lane = 8 then s1 else s1.haloRetrain q)
    else if o1.role lane = 15 then s1
    else if o1.turn.isEmpty && o1.role lane = 8 then s1.setPort q (o1.setRole lane 15)
    else if o1.turn.isEmpty && o1.role 8 = 8 then ctrl 1
    else if 4 ≤ o1.goodLanes.length then ctrl 2
    else (ctrl 3).haloRetrain q

/-- Uncorrectable codewords of a lane: 16 within 1 ms mark it bad (R387). -/
def State.uncorrectable (s : State) (q lane k : Nat) (inj : Bool) : State :=
  let o := s.port q
  let l := (o.uncorr.filter fun u => decide (s.now.toNat < u.2.1.toNat + 1000000)) ++ [(lane, s.now, k)]
  let n : Nat := ((l.filter fun u => u.1 = lane).map (·.2.2)).sum
  if k = 0 || 9 ≤ lane then s
  else
    let s1 := s.setPort q { o with uncorr := l }
    if 16 ≤ n then s1.laneBad q lane inj else s1

/-- The status and log registers of a port, as a record copies them (R443). -/
def State.portWords (s : State) (q : Nat) : List Word := [0x4, 0x10, 0x14, 0x18].map (s.port q).csrWord

/-- A flit arrives in Halo-native mode (R385, R449 kind 1). A CTRL flit concerns the link and does not wait for the sites; the uncorrectable
codewords of a lane may mark it bad (R387). -/
def State.haloRx (s0 : State) (q typ : Nat) (x : HFlit) : State :=
  let s := if x.codewords.isEmpty then s0
    else x.codewords.foldl (fun s c => s.uncorrectable q c.1 c.2.2 false) (s0.setPort q (x.codewords.foldl Port.countLane (s0.port q)))
  let o := s.port q
  if !(s0.port q).sends || o.ether then s0
  else
    let inj : Bool := typ ≠ 0 && bits (o.csrWord 0x20) 30 28 = 1
    if !haloGood typ x || inj then
      let o1 := { (if inj then o.injFire else o) with discard := true }
      let s1 := s.setPort q (o1.csrCount 0x10 15 0 1)
      (s1.raise { source := 0x0B, cls := 2, loc := portLoc q 0, inj := inj, detail := s1.portWords q }).haloIdle q true
    else
      let s1 := s.haloAck q x
      let o1 := s1.port q
      if typ = 0 then s1.haloTick q
      else if x.seq = o1.rxSeq && decide (o1.rxBuf.length < 4096) then
        let ch := ((nth 0#8 x.data 0).toNat, (nth 0#8 x.data 1).toNat, ofLeBytes ((x.data.drop 2).take 2) % 4096)
        let o2 := { o1 with rxSeq := (o1.rxSeq + 1) % 4096, discard := false }
        let s2 := s1.setPort q (if typ = 6 then { o2 with change := o2.change ++ [ch], owed := o2.owed + 1 }
          else { o2 with rxBuf := o2.rxBuf ++ [(typ, x)] })
        ((s2.haloChange q).haloTick q).haloIdle q false
      else if o1.discard then s1.haloTick q
      else (s1.setPort q { o1 with discard := true }).haloIdle q true

/-- HALO_TRAINING_COMPLETE (R388, Table 15.3): a round trip beyond 2.5 µs refuses the peer; the third failure in a row fails the
port, and its transfers are cancelled (R394). -/
def State.haloTrained (s : State) (q : Nat) (ok : Bool) (rtt : Nat) : State :=
  let o := s.port q
  if o.state ≠ 1 && o.state ≠ 3 then s
  else if ok && decide (rtt ≤ 250) then
    let o1 := (List.range 9).foldl (fun o l => (o.setLane l 2).setRole l l)
      ({ o with state := 2, trainFails := 0, bad := [] }.csrPut 0x4 (BitVec.ofNat 32 (rtt * 2 ^ 24 + 15 * 2 ^ 20)))
    let s1 := if o.state = 3 && !o.ether then o.sent.foldl (fun s f => s.say (haloMsg q o.lastSeq false 0 f)) (s.setPort q o1)
      else s.setPort q o1
    (List.range 17).foldl (fun s _ => if (s.port q).owed = 0 then s else s.haloIdle q false) (s1.haloTick q)
  else if 2 ≤ o.trainFails then
    let s1 := s.setPort q ((List.range 9).foldl (fun o l => o.setLane l 3) { o with state := 5, trainFails := 3 })
    s1.endAll q 4 |>.recallReqs q
  else s.setPort q { o with trainFails := o.trainFails + 1 }

/-- What a read of a port register returns (Tables 15.6 to 15.8): STATE and BUSY as they stand. -/
def Port.read (o : Port) (a : Nat) : Word :=
  if a = 0x4 then setBits (o.csrWord 0x4) 2 0 o.state
  else if 0x1000 ≤ a && a % 16 = 12 then
    setBits (o.csrWord a) 2 2 (nb (o.xfers.any fun x => x.win = (a - 0x1000) / 16))
  else o.csrWord a

/-- The state of the port does not admit the write (R387 to R389, R397). -/
def portStateBad (o : Port) (a : Nat) (v : Word) : Bool :=
  if a = 0x0 then
    (bit v 0 != bit (o.csrWord 0x0) 0 && decide (o.state ≠ 0)) ||
      (match bits v 2 1 with
      | 1 => o.inReset || !(o.state = 0 || o.state = 5)
      | 2 => o.state = 0 || o.state = 4
      | 3 => o.state ≠ 2
      | _ => false)
  else decide (0x1000 ≤ a) && o.xfers.any fun x => x.win = (a - 0x1000) / 16

/-- The register does not accept the value (R381, R397, Table 18.8). -/
def portValueBad (a : Nat) (v : Word) : Bool :=
  if a = 0x0 then 8 ≤ bits v 23 20 && decide (bits v 23 20 ≤ 14)
  else if a = 0x20 then
    4 ≤ bits v 30 28 || 9 ≤ bits v 27 24 || (bits v 30 28 = 2 && bits v 23 16 = 0)
  else decide (0x1000 ≤ a) && a % 16 = 0 && bits v 7 0 ≠ 0

/-- A partition to which the port may be allotted: none, or one that owns every site that a window of the port names (R402). -/
def State.portFits (s : State) (q p : Nat) : Bool :=
  let o := s.port q
  decide (8 ≤ p) || (List.range 64).all fun w =>
    let a := 0x1000 + 16 * w
    o.csrWord (a + 8) = 0 || (s.site ((bits (o.csrWord (a + 4)) 15 0 * 2 ^ 32 + (o.csrWord a).toNat) / 2 ^ 42)).owner = p

/-- The ECODE with which a write of a port register by the job service is refused (R475; log entry 80). -/
def State.portRefused (s : State) (q a : Nat) (v : Word) : Option Nat :=
  let o := s.port q
  let p := s.portOwner q
  let moves : Bool := a = 0x0 && bits v 23 20 ≠ p
  match regAt portRegs a with
  | none => some 0x45
  | some _ =>
    if a = 0x20 && bits v 30 28 ≠ 0 && !s.injectable p then some 0x43
    else if (moves && !(s.quiescent p && s.quiescent (bits v 23 20))) || (a = 0x0 && bits v 2 1 = 3 && !s.quiescent p) then some 0x42
    else if portStateBad o a v then some 0x4A
    else if portValueBad a v || (moves && !s.portFits q (bits v 23 20)) then some 0x49
    else none

/-- A command of HALO_PORT_CTL (R388, R393). -/
def State.portCommand (s : State) (q cmd : Nat) : State :=
  let o := s.port q
  match cmd with
  | 1 => s.setPort q ((List.range 9).foldl (fun o l => o.setLane l 1) { o with
      state := 1, rxSeq := 0, discard := false, rxBuf := [], owed := if o.ether then 0 else 4096, txSeq := 0, sent := [], txq := [],
      credits := 0, fails := 0, trainFails := 0, change := [], turn := [], held := [], posted := [], uncorr := [], lame := false })
  | 2 => ((s.setPort q { o with state := 4, lame := decide (o.state ≠ 2) }).endAll q 4).recallReqs q
  | 3 => s.haloRetrain q
  | _ => s

/-- An injection written to HALO_INJ: kinds 2 and 3 act at once (R449). -/
def State.portInject (s : State) (q : Nat) (v : Word) : State :=
  let lane := bits v 27 24
  let k := bits v 23 16
  if bits v 30 28 = 2 then
    let s1 := s.setPort q ((s.port q).injFire.csrCount (0x100 + 4 * lane) 15 8 k)
    let s2 := s1.uncorrectable q lane k true
    if (s2.port q).bad.contains lane then s2 else s2.raise { source := 0x0C, cls := 2, loc := portLoc q lane, inj := true, detail := s2.portWords q ++ [(s2.port q).csrWord (0x100 + 4 * lane)] }
  else if bits v 30 28 = 3 then (s.setPort q (s.port q).injFire).laneBad q lane true
  else s

/-- An accepted write of a port register: a write of a window advances its KEYGEN (R396). -/
def State.portAccepted (s : State) (q a : Nat) (v : Word) : State :=
  let o := s.port q
  let new := match regAt portRegs a with | some r => regWrite r (o.csrWord a) v | none => o.csrWord a
  let s1 := s.setPort q (o.csrPut a new)
  if a = 0x0 then s1.portCommand q (bits v 2 1)
  else if a = 0x20 then s1.portInject q v
  else if 0x1000 ≤ a then
    let c := 0x100C + 16 * ((a - 0x1000) / 16)
    let y := s1.port q
    s1.setPort q (y.csrField c 31 16 (bits (y.csrWord c) 31 16 + 1))
  else s1

/-- A write of a port register (R397, R475). -/
def State.portWrite (s : State) (priv : Bool) (q a : Nat) (v : Word) : State :=
  s.privileged priv (portAddr q a) (portLoc q 0)
    (match s.portRefused q a v with
    | some c => s.refuse (portAddr q a) c (portLoc q 0)
    | none => s.portAccepted q a v)

/-- A command on one port. -/
def State.portDo (s : State) (q : Nat) (k : State) : Host.Outcome State Fault Refusal := s.checked (decide (q < nPorts)) k

/-- HALO_PORT_CTL as it stands, with a CMD. -/
def ctlWord (o : Port) (cmd : Nat) : Word := setBits (o.csrWord 0x0) 2 1 cmd

/-- The ring at a port's transfers and a partition's Pavane messages after a break (R382): what has no way left ends; whether a
transfer or a message was on the broken link just then the manual does not say, so a free value decides. -/
def State.ringBreak (s : State) (link : Nat) : State :=
  if s.mod.ring.contains link then s
  else
    let old := s.mod.ring
    let s1 := (s.updMod fun m => { m with ring := m.ring ++ [link] }).raiseAll
      [{ source := 0x0C, cls := 4, loc := siteLoc link }, { source := 0x0C, cls := 4, loc := siteLoc ((link + 1) % 48) }]
    let now := s1.mod.ring
    let hit (s : State) (l : List Nat) : Bool × State :=
      (l.contains link && bit (Config.freeValue s.free) 0, { s with free := s.free + 1 })
    let s2 := (List.range nPorts).foldl (fun s q =>
      (s.port q).xfers.foldl (fun s x =>
        match hit s (portPath old q x.site) with
        | (lost, s') => if lost || !portReach now q x.site then s'.endXfer q x 7 0 else s') s) s1
    (List.range nParts).foldl (fun s p =>
      let d := s.dsite p
      if !(s.part p).step then s
      else
        match hit s ((s.sitesOf p).flatMap fun n => ringPath old d n) with
        | (lost, s') => if lost || (s'.sitesOf p).any (fun n => !ringReach now d n) then s'.requestAbort p 4 else s') s2

/-- HALO_MODULE_TRANSFER (R392): the module takes the requester's part, over its own window. -/
def State.moduleTransfer (s : State) (q win unit n : Nat) (read : Bool) : State :=
  let o := s.port q
  let tag := ((List.range 256).find? fun t => !o.xfers.any fun x => x.tag = t && x.mod).getD 256
  let st := s.haloStatus q win unit n (!read)
  if o.state ≠ 2 || tag = 256 || !s.mod.cc.up then s
  else if st ≠ 0 then s.setPort q (o.noteLast st 0 win unit)
  else
    let s1 := s.setPort q { o with xfers := o.xfers ++ [haloXfer o tag true read win unit n] }
    (s1.haloTx q (if read then 3 else 1) tag 0 ([BitVec.ofNat 8 win] ++ leBytes unit 4 ++ leBytes n 4)).haloAsk q tag true 2048

/-- A port carries RoCEv2: it is up in Ethernet mode, and the queue pair exists (Table 15.5). -/
def State.roceUp (s : State) (q qp : Nat) : Bool := (s.port q).state = 2 && (s.port q).ether && decide (qp < 1024)

/-- A RoCEv2 request on bytes of a memory region (R396): window, units and key are checked as R389 has it. -/
def State.roce (s : State) (q qp key off len : Nat) (read : Bool) (data : List Byte) (imm : Option Word) : State :=
  let o := s.port q
  let w := key % 256
  let unit := off / 256
  let n := if len = 0 then 0 else (off + len - 1) / 256 - unit + 1
  let tag := ((List.range (o.xfers.length + 1)).find? fun i => !o.xfers.any fun x => x.tag = 256 + i && !x.mod).getD 0 + 256
  if !s.roceUp q qp then s
  else
    let st := s.haloStatus q w unit n read
    let st1 := if (st = 0 || st = 2) && (64 ≤ w || key ≠ haloKey o q w) then 1 else st
    if st1 ≠ 0 then s.haloTurnAway q tag qp w unit st1
    else
      let x := { haloXfer o tag false read w unit n with qp := qp, skip := off % 256, len := len, data := data, imm := imm }
      (s.setPort q { o with xfers := o.xfers ++ [x] }).haloAsk q tag false 2048

/-- A SEND of another queue pair than that of the host messages lands in the next receive area posted for its queue pair (R396): written as a write of
the area's window, with its checks; one longer than the area goes beyond its end. With no area posted nothing takes it, and the peer's transport sends
it again. -/
def State.roceLand (s : State) (q qp : Nat) (data : List Byte) : State :=
  let o := s.port q
  match Map.get (fun _ => []) o.posted qp with
  | [] => s
  | (w, unit, n) :: l =>
    let s1 := s.setPort q { o with posted := Map.set (fun _ => []) o.posted qp l }
    if !s.roceUp q qp then s
    else if 256 * n < data.length then s1.haloTurnAway q 0 qp w unit 2
    else s1.roce q qp (haloKey o q w) (256 * unit) data.length false data none

/-- HALO_WRITE_COMPLETE (R390): every unit is written, so the write completes with STATUS 0. -/
def State.haloWritten (s : State) (q tag : Nat) : State :=
  match (s.port q).xfers.find? fun x => x.tag = tag && !x.mod && !x.read with
  | none => s
  | some x =>
    if (List.range x.n).all fun k => x.got.contains k then
      let s1 := s.endXfer q x 0 0
      match x.imm with
      | some i => s1.post 8 (.notice 3 i.toNat)
      | none => s1
    else s

/-- The flits of a module transfer that no acknowledgement covers are sent again (R396). -/
def State.roceResend (s : State) (q tag : Nat) : State :=
  ((s.port q).sent.filter fun f => f.tag = tag).foldl (fun s f => s.say (.rdma q f)) s

/-- HALO_ENABLE (R388). -/
def execHaloEnable (priv : Bool) (q : Nat) (s : State) : Host.Outcome State Fault Refusal :=
  s.portDo q (s.portWrite priv q 0x0 (ctlWord (s.port q) 1))

/-- HALO_DISABLE (R393). -/
def execHaloDisable (priv : Bool) (q : Nat) (s : State) : Host.Outcome State Fault Refusal :=
  s.portDo q (s.portWrite priv q 0x0 (ctlWord (s.port q) 2))

/-- HALO_RETRAIN (R388, R459). -/
def execHaloRetrain (priv : Bool) (q : Nat) (s : State) : Host.Outcome State Fault Refusal :=
  s.portDo q (s.portWrite priv q 0x0 (ctlWord (s.port q) 3))

/-- HALO_TRAINING_COMPLETE (R388). -/
def execHaloTrainingComplete (q : Nat) (ok : Bool) (rtt : Nat) (s : State) : Host.Outcome State Fault Refusal :=
  s.portDo q (s.haloTrained q ok rtt)

/-- IDLE (R385). -/
def execIdle (q : Nat) (x : HFlit) (s : State) : Host.Outcome State Fault Refusal := s.portDo q (s.haloRx q 0 x)

/-- WREQ (R389). -/
def execWreq (q : Nat) (x : HFlit) (s : State) : Host.Outcome State Fault Refusal := s.portDo q (s.haloRx q 1 x)

/-- WDATA (R390). -/
def execWdata (q : Nat) (x : HFlit) (s : State) : Host.Outcome State Fault Refusal := s.portDo q (s.haloRx q 2 x)

/-- RREQ (R389). -/
def execRreq (q : Nat) (x : HFlit) (s : State) : Host.Outcome State Fault Refusal := s.portDo q (s.haloRx q 3 x)

/-- RDATA (R390); in Ethernet mode, the data that answers a read of the module (R392, R396). -/
def execRdata (q : Nat) (x : HFlit) (s : State) : Host.Outcome State Fault Refusal :=
  s.portDo q
    (if (s.port q).ether then (if (s.port q).state = 2 then (s.haloUnits q x.tag x.off true x.data).getD s else s)
    else s.haloRx q 4 x)

/-- CMPL (R390). -/
def execCmpl (q : Nat) (x : HFlit) (s : State) : Host.Outcome State Fault Refusal := s.portDo q (s.haloRx q 5 x)

/-- CTRL (R387). -/
def execCtrl (q : Nat) (x : HFlit) (s : State) : Host.Outcome State Fault Refusal := s.portDo q (s.haloRx q 6 x)

/-- HALO_WRITE_COMPLETE (R390). -/
def execHaloWriteComplete (q tag : Nat) (s : State) : Host.Outcome State Fault Refusal := s.portDo q (s.haloWritten q tag)

/-- HALO_LANE_BAD (R387). -/
def execHaloLaneBad (q lane : Nat) (s : State) : Host.Outcome State Fault Refusal :=
  s.checked (decide (q < nPorts) && decide (lane < 9)) (s.laneBad q lane false)

/-- RING_BREAK (R382). -/
def execRingBreak (link : Nat) (s : State) : Host.Outcome State Fault Refusal :=
  s.checked (decide (link < 48)) (s.ringBreak link)

/-- HALO_WIN_WRITE (R389, R396): `off` is an offset of the port window. -/
def execHaloWinWrite (priv : Bool) (q off : Nat) (v : Word) (s : State) : Host.Outcome State Fault Refusal :=
  s.checked (decide (q < nPorts) && decide (0x1000 ≤ off) && decide (off < 0x1400) && decide (off % 4 = 0)) (s.portWrite priv q off v)

/-- HALO_MODULE_TRANSFER (R392). -/
def execHaloModuleTransfer (q win unit n : Nat) (read : Bool) (s : State) : Host.Outcome State Fault Refusal :=
  s.portDo q (s.moduleTransfer q win unit n read)

/-- ROCE_WRITE (R396). -/
def execRoceWrite (q qp key off : Nat) (data : List Byte) (s : State) : Host.Outcome State Fault Refusal :=
  s.portDo q (s.roce q qp key off data.length false data none)

/-- ROCE_WRITE_IMM (R396). -/
def execRoceWriteImm (q qp key off : Nat) (data : List Byte) (imm : Word) (s : State) : Host.Outcome State Fault Refusal :=
  s.portDo q (s.roce q qp key off data.length false data (some imm))

/-- ROCE_READ (R396). -/
def execRoceRead (q qp key off len : Nat) (s : State) : Host.Outcome State Fault Refusal :=
  s.portDo q (s.roce q qp key off len true [] none)

/-- CNP_RECEIVED (Table 15.5): the sending rate of module-initiated traffic is lowered. -/
def execCnpReceived (q qp : Nat) (s : State) : Host.Outcome State Fault Refusal :=
  s.portDo q (if s.roceUp q qp then s.setPort q { s.port q with rate := (s.port q).rate + 1 } else s)

/-- ECN_MARKED_PACKET (Table 15.5): a congestion notification packet is sent. -/
def execEcnMarkedPacket (q qp : Nat) (s : State) : Host.Outcome State Fault Refusal :=
  s.portDo q (if s.roceUp q qp then s.say (.frame q 0 qp []) else s)

/-- The job service answers a frame at one of the port's own addresses (Table 15.5); what a frame of 9,216 bytes cannot hold beside its headers does
not come. -/
def State.answerFrame (s : State) (q kind addr : Nat) (data : List Byte) : State :=
  let head := if addr < 2 ^ 32 then 44 else 64
  if s.roceUp q 0 && s.mod.cc.up && (s.port q).addrs.contains addr && decide (head + data.length ≤ 9216) then s.say (.frame q kind addr data) else s

/-- ARP_REQUEST (Table 15.5). -/
def execArpRequest (q addr : Nat) (s : State) : Host.Outcome State Fault Refusal := s.portDo q (s.answerFrame q 1 addr [])

/-- NEIGHBOUR_DISCOVERY (Table 15.5). -/
def execNeighbourDiscovery (q addr : Nat) (s : State) : Host.Outcome State Fault Refusal := s.portDo q (s.answerFrame q 2 addr [])

/-- ICMP_ECHO (Table 15.5). -/
def execIcmpEcho (q addr id : Nat) (data : List Byte) (s : State) : Host.Outcome State Fault Refusal :=
  s.portDo q (s.answerFrame q 3 addr (leBytes id 2 ++ data))

/-- NON_ROCE_FRAME (Table 15.5): dropped and counted. -/
def execNonRoceFrame (q : Nat) (s : State) : Host.Outcome State Fault Refusal :=
  s.portDo q (if s.roceUp q 0 then s.setPort q { s.port q with dropped := (s.port q).dropped + 1 } else s)

/-- ETHERNET_LINK_DOWN (R395): the link trains again; transport retries bridge the time (R396). -/
def execEthernetLinkDown (q : Nat) (s : State) : Host.Outcome State Fault Refusal :=
  s.portDo q (if s.roceUp q 0 then s.haloRetrain q else s)

/-- PRIORITY_FLOW_CONTROL_FRAME (Table 15.5): at most two priorities. -/
def execPriorityFlowControlFrame (q prio : Nat) (pause : Bool) (s : State) : Host.Outcome State Fault Refusal :=
  s.checked (decide (q < nPorts) && decide (prio < 8))
    (let o := s.port q
    let l := o.paused.filter (· ≠ prio)
    if !s.roceUp q 0 then s
    else if !pause then (s.setPort q { o with paused := l }).haloTick q
    else if l.length < 2 then s.setPort q { o with paused := l ++ [prio] }
    else s)

/-- ROCE_ACKNOWLEDGE (R396): it completes the module's transfer, or a NAK sends its packets again. -/
def execRoceAcknowledge (q tag : Nat) (nak : Bool) (s : State) : Host.Outcome State Fault Refusal :=
  s.portDo q
    (let o := s.port q
    match o.xfers.find? fun x => x.tag = tag && x.mod with
    | none => s
    | some x =>
      if !s.roceUp q 0 then s
      else if nak then s.roceResend q tag
      else (s.setPort q { o with sent := o.sent.filter fun f => f.tag ≠ tag }).endXfer q x 0 0)

/-- ROCE_RETRANSMIT_TIMEOUT (R396). -/
def execRoceRetransmitTimeout (q tag : Nat) (s : State) : Host.Outcome State Fault Refusal :=
  s.portDo q (if s.roceUp q 0 then s.roceResend q tag else s)

end Sys2Proof.Machine
end

