-- ==== Sys2Proof/Machine/Vector.lean ====
section
/-!
DEFINITION. The vector engine (spec/04_vector_engine.md, spec/06_greset_isa.md R162, R165 to R171): registers and
elements, lane-pair checking, conversions, summaries, loads and stores, and the vector queue.
-/

namespace Sys2Proof.Machine

/-- A format code of the vector arithmetic (R165). -/
def vfmt (c : Nat) : Fmt := if c = 1 then bf16 else if c = 2 then fp16 else fp32

/-- A 16-bit operation: 64 element positions. -/
def is16 (c : Nat) : Bool := c = 1 || c = 2

/-- The element codes of register words (R101). -/
def elems (w16 : Bool) (ws : List Word) : List Nat :=
  if w16 then ws.flatMap fun w => [w.toNat % 65536, w.toNat / 65536] else ws.map (·.toNat)

/-- Register words of element codes (R101). -/
def unelems (w16 : Bool) : List Nat → List Word
  | [] => []
  | [a] => [BitVec.ofNat 32 a]
  | a :: b :: l =>
    if w16 then BitVec.ofNat 32 (a % 65536 + b * 65536) :: unelems w16 l
    else BitVec.ofNat 32 a :: unelems w16 (b :: l)

/-- A scalar broadcast to every element position (R102). -/
def broadcast (w16 : Bool) (s : DWord) : List Nat :=
  if w16 then List.replicate 64 (s.toNat % 65536) else List.replicate 32 (s.toNat % 2 ^ 32)

/-- The predicate that governs an instruction: p[PR] when PE is set, every position otherwise (R103). -/
def predOf (t : Tile) (pe : BitVec 1) (pr : BitVec 3) : DWord :=
  if pe = 1 then preg t pr.toNat else ~~~0#64

/-- Elements written where the predicate bit is set; the others keep their contents (R103). -/
def mergeFrom (p : DWord) : Nat → List Nat → List Nat → List Nat
  | i, o :: old, n :: new => (if p.getLsbD i then n else o) :: mergeFrom p (i + 1) old new
  | _, _, new => new

/-- The bits of a predicate that comparisons give, masked by the instruction's predicate; every other bit is 0 (R103). -/
def predBits (p : DWord) (l : List Bool) : DWord :=
  BitVec.ofNat 64 (packNat 1 ((List.range l.length).map fun i => nb (p.getLsbD i && nth false l i)))

/-- Elementwise application. -/
def zip3 (f : Nat → Nat → Nat → Nat) : List Nat → List Nat → List Nat → List Nat
  | a :: as, b :: bs, c :: cs => f a b c :: zip3 f as bs cs
  | _, _, _ => []

/-- The sources of a VA instruction as element codes: va, vb or the broadcast scalar, vc. -/
def sources (t : Tile) (f : LVA) (s : DWord) (w16 : Bool) : List Nat × List Nat × List Nat :=
  (elems w16 (vreg t f.va.toNat), if f.bs = 1 then broadcast w16 s else elems w16 (vreg t f.vb.toNat),
    elems w16 (vreg t f.vc.toNat))

/-- An arithmetic instruction's new destination register (R103 to R105). -/
def arithWords (t : Tile) (fn : VFn) (f : LVA) (s : DWord) : List Word :=
  let w16 := is16 f.fmt.toNat && !isInt fn
  let op : Nat → Nat → Nat → Nat :=
    if isInt fn then fun a b _ => (ielem fn (BitVec.ofNat 32 a) (BitVec.ofNat 32 b)).toNat
    else felem (vfmt f.fmt.toNat) fn
  match sources t f s w16 with
  | (A, B, C) => unelems w16 (mergeFrom (predOf t f.pe f.pr) 0 (elems w16 (vreg t f.vd.toNat)) (zip3 op A B C))

/-- A compare's destination predicate. -/
def cmpPred (t : Tile) (f : LVA) (s : DWord) (w16 : Bool) (c : Nat → Nat → Bool) : DWord :=
  match sources t f s w16 with
  | (A, B, _) => predBits (predOf t f.pe f.pr) (List.zipWith c A B)

/-- Predicate logic on whole registers. -/
def plogBits (p : PFn) (a b : DWord) : DWord :=
  match p with
  | .and => a &&& b
  | .or => a ||| b
  | .xor => a ^^^ b
  | .not => ~~~a

/-- The population count. -/
def popcount (p : DWord) : Nat := ((List.range 64).map fun i => nb (p.getLsbD i)).sum

/-- VCVT (R107): the new destination register. -/
def cvtWords (t : Tile) (f : LVA) : List Word :=
  let p := predOf t f.pe f.pr
  let src := f.fmt.toNat
  let dst := f.vc.toNat
  let h := f.vb.toNat % 2
  let conv (x : Nat) : Nat := encodeVal (vfmt dst) false (decodeVal (vfmt src) x)
  let a := elems (is16 src) (vreg t f.va.toNat)
  let old := elems (is16 dst) (vreg t f.vd.toNat)
  if is16 src && is16 dst then unelems true (mergeFrom p 0 old (a.map conv))
  else if is16 dst then
    let new := (List.range 64).map fun e => if e / 32 = h then conv (nth 0 a (e % 32)) else nth 0 old e
    unelems true (mergeFrom p 0 old new)
  else unelems false (mergeFrom p 0 old ((List.range 32).map fun l => conv (nth 0 a (32 * h + l))))

/-- VCVT.N2 (R107). -/
def cvtN2Words (t : Tile) (f : LVA) : List Word :=
  let src := elems false (vreg t f.va.toNat) ++ elems false (vreg t (f.va.toNat + 1))
  unelems true (mergeFrom (predOf t f.pe f.pr) 0 (elems true (vreg t f.vd.toNat))
    (src.map fun x => encodeVal (vfmt f.vc.toNat) false (decodeVal fp32 x)))

/-- The result of a sampled instruction is compared `fails` times unequal before it compares equal (R116, R117): each
failure is recorded, counted and logged; the third stops the engine. -/
def lanePair (e : Env) (ts : TS) (pc lane attempt : Nat) (inj : Bool) : Nat → Res
  | 0 => .ok ts
  | n + 1 =>
    let last := csrWord ts.t 0x60C
    let t1 := if bit last 31 then csrField ts.t 0x60C 30 29 attempt
      else csrPut ts.t 0x60C (BitVec.ofNat 32 (2 ^ 31 + attempt <<< 29 + lane <<< 24 + pc))
    if 3 ≤ attempt then
      stopWith e { ts with t := csrField t1 0x600 1 1 1 } 5 pc 0x03 5 0 [0x600, 0x604, 0x608, 0x60C] inj
    else
      let t2 := csrCount t1 0x608 31 16 1
      let r : Rec :=
        { source := 0x03, cls := 2, loc := e.id, offset := pc, code := attempt, inj := inj,
          detail := csrWords e t2 [0x600, 0x604, 0x608, 0x60C] }
      lanePair e (TS.raise { ts with t := t2 } r) pc lane (attempt + 1) false n

/-- A checked instruction (R116): its ordinal advances; a sampled one is compared before its result is written, and fails as often as a
fault of the two lanes makes it (`laneBad`; log entry 131), or once by an injection (Table 18.5). The instructions checked
below the unit of CHECKS go on through a write of VEC_LPC_COUNT, of which the manual says nothing (DESIGN CHOICE, log entry 70). -/
def checked (e : Env) (ts : TS) (pc : Nat) (k : TS → Res) : Res :=
  let ord := ts.t.lpcOrd
  let ts1 := ts.upd fun t => { t with lpcOrd := ord + 1 }
  if ord % 2 ^ ts.t.rate = 0 then
    let inj := injKind ts.t = 3
    let frac := ts.t.lpcFrac + 1
    let ts2 := ts1.upd fun t =>
      let t := { if inj then injFire t else t with laneBad := 0 }
      if frac = 65536 then csrCount { t with lpcFrac := 0 } 0x608 15 0 1 else { t with lpcFrac := frac }
    (lanePair e ts2 pc (ord / 2 ^ ts.t.rate % 32) 1 inj (max ts.t.laneBad (nb inj))).andThen k
  else k ts1

/-- The enabled element positions of a summary with their codes widened to FP32 values (R113, R114). -/
def sumElems (t : Tile) (f : LVS) : List (Option Val) :=
  let w16 := is16 f.fmt.toNat
  let p := predOf t f.pe f.pr
  let l := elems w16 (vreg t f.va.toNat)
  (List.range l.length).map fun i =>
    if p.getLsbD i then some (decodeVal (vfmt f.fmt.toNat) (nth 0 l i)) else none

/-- Order of SUM.ARGMAX: NaN above every number, +Inf above every finite value (Table 4.4). -/
def rankLt (a b : Val) : Bool :=
  match a, b with
  | .nan, _ => false
  | _, .nan => true
  | _, _ => ltVal a b

/-- Position and value of the largest element, the lowest position of equal values. -/
def argmaxFrom : Nat → Option (Nat × Val) → List (Option Val) → Option (Nat × Val)
  | _, best, [] => best
  | i, best, none :: l => argmaxFrom (i + 1) best l
  | i, none, some v :: l => argmaxFrom (i + 1) (some (i, v)) l
  | i, some (j, w), some v :: l => argmaxFrom (i + 1) (some (if rankLt w v then (i, v) else (j, w))) l

/-- The empty result of SUM.ARGMAX: its second scalar is the canonical NaN of FP32 for a 16-bit register too (Table 4.4; DESIGN CHOICE, log entry 134). -/
def argmaxEmpty : DWord × DWord := (0xFFFFFFFF, qnan.setWidth 64)

/-- What a summary writes to sd, and SUM.ARGMAX to sd + 1 (Table 4.4, R114): the value of a 16-bit register widened to FP32 (DESIGN CHOICE, log entry 134). -/
def sumEffect (t : Tile) (fn : SFn) (f : LVS) (base : DWord) : Tile :=
  let el := sumElems t f
  let sd := f.sd.toNat
  let old := sreg t sd
  let acc := f.acc = 1
  let en := el.filterMap id
  match fn with
  | .nf =>
    let c := BitVec.ofNat 64 (en.filter nonFinite).length
    setSreg t sd (if acc then old + c else c)
  | .amax =>
    let m := en.foldl (fun a v => maxVal a (absVal v)) (.num false 0 0)
    let m := if acc then maxVal (absVal (f32 (old.setWidth 32))) m else m
    setSreg t sd ((toF32 m).setWidth 64)
  | .add =>
    let leaves := el.map fun o => match o with | some v => toF32 v | none => 0#32
    let s := nth 0#32 (treeSum 6 leaves) 0
    let s := if acc then toF32 (addVal (f32 (old.setWidth 32)) (f32 s)) else s
    setSreg t sd (s.setWidth 64)
  | .argmax =>
    match argmaxFrom 0 none el with
    | none => if acc then t else setSreg (setSreg t sd argmaxEmpty.1) (sd + 1) argmaxEmpty.2
    | some (i, v) =>
      let pos := BitVec.ofNat 64 i + (if acc then base else 0)
      let new := setSreg (setSreg t sd pos) (sd + 1) ((toF32 v).setWidth 64)
      if !acc then new
      else if old = argmaxEmpty.1 && sreg t (sd + 1) = argmaxEmpty.2 then new
      else if rankLt (f32 ((sreg t (sd + 1)).setWidth 32)) v then new
      else t

/-- The head or tail offset o of a load or store: OFF + (SO ? s[SOFF] : 0) (R169). -/
def vmOff (f : LVM) (s : DWord) : Nat := f.off.toNat + (if f.so = 1 then s.toNat else 0)

/-- Words merged lane by lane under a predicate. -/
def mergeWords (p : DWord) (old new : List Word) : List Word :=
  unelems false (mergeFrom p 0 (elems false old) (elems false new))

/-- VLD once its words are present (R169). -/
def vldEffect (e : Env) (ts : TS) (f : LVM) (o pc : Nat) : Res :=
  let r := region ts.t f.rg.toNat
  readWords e ts 3 (some f.rg.toNat) pc (rgSpan r (r.head + o) 32) fun u ws =>
    .ok (u.upd fun t =>
      let t1 := setVreg t f.vr.toNat (mergeWords (predOf t f.pe f.pr) (vreg t f.vr.toNat) ws)
      if f.adv = 1 then setRegion t1 f.rg.toNat ((region t1 f.rg.toNat).pop 32) else t1)

/-- The tail advanced by 32 when ADV is set. -/
def vmAdvance (t : Tile) (f : LVM) : Tile :=
  if f.adv = 1 then setRegion t f.rg.toNat ((region t f.rg.toNat).push 32) else t

/-- One vector store more in the step (R97, R108). -/
def bumpVord (t : Tile) : Tile := csrPut t 0x510 (csrWord t 0x510 + 1)

/-- Words written where the predicate bit of the lane is set. -/
def storeWords (t : Tile) (r : Region) (p : DWord) : Nat → Nat → List Word → Tile
  | _, _, [] => t
  | o, i, w :: l =>
    storeWords (if p.getLsbD i then writePhys t (rgPhys r o) w else t) r p (o + 1) (i + 1) l

/-- VST once there is space (R169). -/
def vstEffect (t : Tile) (f : LVM) (o : Nat) : Tile :=
  let r := region t f.rg.toNat
  let t1 := storeWords t r (predOf t f.pe f.pr) (r.tail + o) 0 (vreg t f.vr.toNat)
  vmAdvance (bumpVord (loosen true (some f.rg.toNat) t t1 (rgSpan r (r.tail + o) 32))) f

/-- Source registers of a converting store (R170). -/
def cvtRegs (sf tf : Nat) : Nat := elemBits sf / (if tf = 8 then 8 else elemBits tf)

/-- The pairs of R170: FP32 to FP32, BF16, FP16 or an 8-bit format, BF16 and FP16 to an 8-bit format. -/
def cvtPair (sf tf : Nat) : Bool :=
  (sf = 0 && (tf = 0 || tf = 1 || tf = 2 || tf = 3 || tf = 4 || tf = 8)) ||
    ((sf = 1 || sf = 2) && (tf = 3 || tf = 4 || tf = 8))

/-- The code that element position `i` of a converting store takes (R92, R93, R94, R96, R97). -/
def cvtElem (id : Nat) (t : Tile) (f : LVM) (i x : Nat) : Nat :=
  let v := decodeVal (vfmt f.sfmt.toNat) x
  let draw := if f.rnd = 1 then
      some (srDraw (bits (csrWord t 0x500) 15 0) (csrWord t 0x504).toNat (seedId id t) 1
        ((csrWord t 0x510).toNat * 128 + i))
    else none
  match fmtOf f.tfmt.toNat with
  | some F => convert F (f.sat = 1) draw v
  | none => toE8M0 (f.sat = 1) v

/-- The bytes of the stored words that the predicate enables: bit b of the result governs byte b of word w. -/
def cvtByteMask (p : DWord) (srcElems tw w : Nat) : Nat :=
  ((List.range 4).map fun b => if p.getLsbD (((4 * w + b) * 8 / tw) % srcElems) then 2 ^ b else 0).sum

/-- VST.CVT once there is space (R108, R170). -/
def vstCvtEffect (id : Nat) (t : Tile) (f : LVM) (o : Nat) : Tile :=
  let r := region t f.rg.toNat
  let s16 := is16 f.sfmt.toNat
  let n := cvtRegs f.sfmt.toNat f.tfmt.toNat
  let tw := if f.tfmt.toNat = 8 then 8 else elemBits f.tfmt.toNat
  let src := (List.range n).flatMap fun k => elems s16 (vreg t (f.vr.toNat + k))
  let codes := (List.range src.length).map fun i => cvtElem id t f i (nth 0 src i)
  let ws := wordsOf (packNat tw codes) 32
  let p := predOf t f.pe f.pr
  let t1 := storeMasked t r (cvtByteMask p (if s16 then 64 else 32) tw) (r.tail + o) 0 ws
  vmAdvance (bumpVord (loosen true (some f.rg.toNat) t t1 (rgSpan r (r.tail + o) 32))) f

/-- Lane, element base, group number and group words of VST.MX (R171). -/
def mxLane (f : LVM) : Nat := bits f.off 16 12
@[inherit_doc mxLane] def mxBase (f : LVM) : Nat := bits f.off 11 0
@[inherit_doc mxLane] def mxWords (f : LVM) : Nat := if f.tfmt.toNat = 7 then 128 else 192

/-- The bytes of a byte string written at byte offset `b` from region offset `o`. -/
def writeByteRun (t : Tile) (r : Region) (o b : Nat) : List Nat → Tile
  | [] => t
  | x :: l =>
    let w := BitVec.ofNat 32 ((x % 256) <<< (8 * (b % 4)))
    writeByteRun (writeBytes t (rgPhys r (o + b / 4)) (2 ^ (b % 4)) w) r o (b + 1) l

/-- VST.MX once there is space (R109, R171). -/
def vstMxEffect (t : Tile) (f : LVM) (g : Nat) : Tile :=
  let re := region t f.rg.toNat
  let rs := region t f.srg.toNat
  let all := elems (is16 f.sfmt.toNat) (vreg t f.vr.toNat)
  let src := if is16 f.sfmt.toNat then (all.drop (32 * f.rnd.toNat)).take 32 else all
  let F := match fmtOf f.tfmt.toNat with | some F => F | none => e2m1
  match mxBlock F (f.sat = 1) (src.map (decodeVal (vfmt f.sfmt.toNat))) with
  | (scale, codes) =>
    let i := mxLane f
    let G := mxBase f + mxWords f * g
    let nb := if f.tfmt.toNat = 7 then 2 else 3
    let beat := if f.tfmt.toNat = 7 then 16 else 24
    let t1 := (List.range 8).foldl (fun t q =>
      let bytes := packNat (elemBits f.tfmt.toNat) ((codes.drop (4 * q)).take 4)
      writeByteRun t re (re.tail + G + beat * q) (nb * i) ((List.range nb).map fun k => bytes / 256 ^ k)) t
    let t2 := loosen true (some f.rg.toNat) t t1 (rgSpan re (re.tail + G) (mxWords f))
    loosen true (some f.srg.toNat) t2 (writeByteRun t2 rs (rs.tail + 8 * g) i [scale]) (rgSpan rs (rs.tail + 8 * g) 8)

/-- The highest word, plus one, that VST.MX writes of its element region and of its scale region, as tail offsets. -/
def mxNeed (f : LVM) (g : Nat) : Nat × Nat :=
  let nb := if f.tfmt.toNat = 7 then 2 else 3
  let beat := if f.tfmt.toNat = 7 then 16 else 24
  (mxBase f + mxWords f * g + beat * 7 + (nb * mxLane f + nb - 1) / 4 + 1, 8 * g + mxLane f / 4 + 1)

/-- The entry executes where its waits are met (R111, R133). -/
def vexec (e : Env) (ts : TS) (v : VEntry) : Res :=
  let t := ts.t
  match v.op with
  | .arith fn f => checked e ts v.pc fun u => .ok (u.upd fun t => setVreg t f.vd.toNat (arithWords t fn f v.scal))
  | .fcmp r f => checked e ts v.pc fun u =>
      .ok (u.upd fun t => setPreg t (f.vd.toNat % 8)
        (cmpPred t f v.scal (is16 f.fmt.toNat) (fcmp (vfmt f.fmt.toNat) r)))
  | .icmp r f => checked e ts v.pc fun u =>
      .ok (u.upd fun t => setPreg t (f.vd.toNat % 8)
        (cmpPred t f v.scal false fun a b => icmp r (BitVec.ofNat 32 a) (BitVec.ofNat 32 b)))
  | .plog p f => .ok (ts.upd fun t =>
      setPreg t (f.vd.toNat % 8) (plogBits p (preg t (f.va.toNat % 8)) (preg t (f.vb.toNat % 8))))
  | .ppop f => .ok (ts.upd fun t => setSreg t f.sb.toNat (BitVec.ofNat 64 (popcount (preg t (f.va.toNat % 8)))))
  | .cvt f => checked e ts v.pc fun u => .ok (u.upd fun t => setVreg t f.vd.toNat (cvtWords t f))
  | .cvtN2 f => checked e ts v.pc fun u => .ok (u.upd fun t => setVreg t f.vd.toNat (cvtN2Words t f))
  | .sum fn f => .ok (ts.upd fun t => sumEffect t fn f v.scal)
  | .vld f =>
    let o := vmOff f v.scal
    if (region t f.rg.toNat).occ < o + 32 then .wait else vldEffect e ts f o v.pc
  | .vst f =>
    let o := vmOff f v.scal
    if (region t f.rg.toNat).space < o + 32 then .wait else .ok (ts.upd fun t => vstEffect t f o)
  | .vstCvt f =>
    let o := vmOff f v.scal
    if (region t f.rg.toNat).space < o + 32 then .wait else .ok (ts.upd fun t => vstCvtEffect e.id t f o)
  | .vstMx f =>
    let g := v.scal.toNat
    if (region t f.rg.toNat).space < (mxNeed f g).1 || (region t f.srg.toNat).space < (mxNeed f g).2 then .wait
    else .ok (ts.upd fun t => vstMxEffect t f g)
  | .vqPop f =>
    if (region t f.rg.toNat).occ < f.off.toNat then .wait
    else .ok (ts.upd fun t => setRegion t f.rg.toNat ((region t f.rg.toNat).pop f.off.toNat))
  | .vqPush f =>
    if (region t f.rg.toNat).space < f.off.toNat then .wait
    else .ok (ts.upd fun t => setRegion t f.rg.toNat ((region t f.rg.toNat).push f.off.toNat))
  | .movVS f => .ok (ts.upd fun t =>
      setSreg t f.s.toNat ((nth 0#32 (vreg t f.v.toNat) f.lane.toNat).setWidth 64))
  | .movSV f => .ok (ts.upd fun t =>
      { t with vregs := Map.set (fun _ => 0#32) t.vregs (32 * f.v.toNat + f.lane.toNat) (v.scal.setWidth 32) })
  | .movVV f => .ok (ts.upd fun t => setVreg t f.v.toNat (vreg t (f.s.toNat % 16)))
  | .movPS f => .ok (ts.upd fun t => setSreg t f.s.toNat (preg t f.p.toNat))
  | .movSP f => .ok (ts.upd fun t => setPreg t f.p.toNat v.scal)

/-- The heads of the vector queue execute in order until one must wait (R111, R149). A VQ.PUSH never passes the scale byte of a VST.MX, whatever ILK0 of
SEQ_ILK says (R188; DESIGN CHOICE, log entry 142). -/
def runVq (e : Env) (ts : TS) : List VEntry → TS
  | [] => ts.upd fun t => { t with vq := [] }
  | v :: l =>
    match vexec e (ts.upd fun t => { t with vq := v :: l }) v with
    | .ok u => runVq e u l
    | .wait => ts.upd fun t => { t with vq := v :: l }
    | .halt u => u.upd fun t => { t with vq := v :: l }

/-- The vector queue goes on, unless the tile is stopped (R155). -/
def goVq (e : Env) (ts : TS) : TS := if ts.t.seq = .stopped then ts else runVq e ts ts.t.vq

/-- A legal encoding of layout VA: fields an instruction does not use are 0 (R165, R166). -/
def vaLegal (f : LVA) (useB useC : Bool) : Bool :=
  f.rsv = 0 && (f.pe = 1 || f.pr = 0) && (f.bs = 1 || f.sb = 0) &&
    (if useB then f.bs = 0 || f.vb = 0 else f.vb = 0 && f.bs = 0 && f.sb = 0) && (useC || f.vc = 0)

/-- The arithmetic with two sources (Table 6.5). -/
def binary : VFn → Bool
  | .fadd | .fsub | .fmul | .ffma | .fmin | .fmax | .div => true
  | fn => isInt fn

/-- The encodings that are not reserved (R146, R162, R165 to R171). A reserved code in a TFMT or SFMT that a load or store does not use reserves nothing
(R75; DESIGN CHOICE, log entry 133); VD[3] of VICMP and of the predicate logic, and VA[3] and VB[3] of the predicate logic and PPOP, are not looked at
(R166; DESIGN CHOICE, log entry 135). -/
def vopLegal : VOp → Bool
  | .arith fn f => vaLegal f (binary fn) (fn = .ffma) && (if isInt fn then f.fmt = 0 else f.fmt.toNat < 3)
  | .fcmp _ f => vaLegal f true false && f.vd.toNat < 8 && f.fmt.toNat < 3
  | .icmp _ f => vaLegal f true false && f.fmt = 0
  | .plog p f => f.rsv = 0 && f.pe = 0 && f.pr = 0 && f.bs = 0 && f.sb = 0 && f.vc = 0 && f.fmt = 0 &&
      (p ≠ .not || f.vb = 0)
  | .ppop f => f.rsv = 0 && f.pe = 0 && f.pr = 0 && f.bs = 0 && f.vb = 0 && f.vc = 0 && f.vd = 0 && f.fmt = 0
  | .cvt f => f.rsv = 0 && (f.pe = 1 || f.pr = 0) && f.bs = 0 && f.sb = 0 && f.vb.toNat < 2 && f.fmt.toNat < 3 &&
      f.vc.toNat < 3 && f.fmt ≠ f.vc && (!(is16 f.fmt.toNat && is16 f.vc.toNat) || f.vb = 0)
  | .cvtN2 f => f.rsv = 0 && (f.pe = 1 || f.pr = 0) && f.bs = 0 && f.sb = 0 && f.vb = 0 && f.fmt = 0 &&
      is16 f.vc.toNat && f.va.toNat % 2 = 0
  | .sum fn f => f.rsv = 0 && f.fmt.toNat < 3 &&
      ((fn = .argmax && f.acc = 1) || f.sbase = 0) && (fn ≠ .argmax || f.sd.toNat % 2 = 0)
  | .vld _ => true
  | .vst _ => true
  | .vstCvt f => cvtPair f.sfmt.toNat f.tfmt.toNat && f.vr.toNat % cvtRegs f.sfmt.toNat f.tfmt.toNat = 0 &&
      (f.rnd = 0 || f.tfmt = 1 || f.tfmt = 3 || f.tfmt = 4) && (f.sat = 0 || f.tfmt = 3 || f.tfmt = 4)
  | .vstMx f => f.pe = 0 && f.pr = 0 && f.adv = 0 && f.so = 1 && isMX f.tfmt.toNat && f.sfmt.toNat < 3 &&
      mxBase f % mxWords f = 0
  | .vqPop _ => true
  | .vqPush _ => true
  | .movVS f => f.rsv = 0 && f.p = 0
  | .movSV f => f.rsv = 0 && f.p = 0
  | .movVV f => f.rsv = 0 && f.p = 0 && f.lane = 0 && f.s.toNat < 16
  | .movPS f => f.rsv = 0 && f.v = 0 && f.lane = 0
  | .movSP f => f.rsv = 0 && f.v = 0 && f.lane = 0

/-- The scalar a vector instruction reads at issue (R150). -/
def vopScalar : VOp → Option Nat
  | .arith _ f => if f.bs = 1 then some f.sb.toNat else none
  | .fcmp _ f => if f.bs = 1 then some f.sb.toNat else none
  | .icmp _ f => if f.bs = 1 then some f.sb.toNat else none
  | .sum .argmax f => if f.acc = 1 then some f.sbase.toNat else none
  | .vld f => if f.so = 1 then some f.soff.toNat else none
  | .vst f => if f.so = 1 then some f.soff.toNat else none
  | .vstCvt f => if f.so = 1 then some f.soff.toNat else none
  | .vstMx f => some f.soff.toNat
  | .movSV f => some f.s.toNat
  | .movSP f => some f.s.toNat
  | _ => none

/-- The region checks that stop the tile whatever the occupancy (R134, R137, R169, R171). -/
def vopRegionCheck (e : Env) (ts : TS) (op : VOp) (s : DWord) (k : Res) : Res :=
  let pc := ts.t.pc
  match op with
  | .vld f => useRegion e ts f.rg.toNat 2 pc false fun r =>
      if r.size < vmOff f s + 32 then stopRegion e ts 4 f.rg.toNat pc else k
  | .vst f => useRegion e ts f.rg.toNat 2 pc true fun r =>
      if r.size < vmOff f s + 32 then stopRegion e ts 4 f.rg.toNat pc else k
  | .vstCvt f => useRegion e ts f.rg.toNat 2 pc true fun r =>
      if r.size < vmOff f s + 32 then stopRegion e ts 4 f.rg.toNat pc else k
  | .vstMx f => useRegion e ts f.rg.toNat 2 pc true fun r => useRegion e ts f.srg.toNat 2 pc true fun q =>
      if r.size < mxBase f + mxWords f * s.toNat + mxWords f then stopRegion e ts 4 f.rg.toNat pc
      else if q.size < 8 * s.toNat + 8 then stopRegion e ts 4 f.srg.toNat pc
      else k
  | .vqPop f => useRegion e ts f.rg.toNat 2 pc false fun r =>
      if r.size < f.off.toNat then stopRegion e ts 4 f.rg.toNat pc else k
  | .vqPush f => useRegion e ts f.rg.toNat 2 pc true fun r =>
      if r.size < f.off.toNat then stopRegion e ts 4 f.rg.toNat pc else k
  | _ => k

/-- A vector instruction issues into the vector queue (R111, R149, R150): an empty queue lets it execute in the same
command where its waits are met; a full queue holds the sequencer. A read of the sequencer that nothing orders after its store sees the
word before or after it (R127, R152: `eitherWord`, a free value; log entry 69). -/
def tVec (e : Env) (ts : TS) (op : VOp) : Issue :=
  legally e (vopLegal op) ts
    (let reads := match vopScalar op with | some n => [n] | none => []
    if scalarBusy ts.t reads then .hold ts
    else
      let s := match vopScalar op with | some n => sreg ts.t n | none => 0
      let v : VEntry := { op := op, scal := s, pc := ts.t.pc }
      if 32 ≤ ts.t.vq.length then .hold ts
      else
        (vopRegionCheck e ts op s
          (if ts.t.vq.isEmpty then
            match vexec e ts v with
            | .wait => .ok (ts.upd fun t => { t with vq := [v] })
            | r => r
          else .ok (ts.upd fun t => { t with vq := t.vq ++ [v] }))).issue ts)

end Sys2Proof.Machine
end

