-- ==== Sys2Proof/Machine/Legal.lean ====
section
/-!
DEFINITION. What the loader sees of an instruction without running it: the reserved encodings and the loader's own checks (R146,
R158, R167, R173, R177), and the regions an instruction uses and as what (R134).
-/

namespace Sys2Proof.Machine

/-- A vector instruction as the vector engine holds it. -/
def vopOf : Instr → Option VOp
  | .movVs _ f => some (.movVS f)
  | .movSv _ f => some (.movSV f)
  | .movVv _ f => some (.movVV f)
  | .movPs _ f => some (.movPS f)
  | .movSp _ f => some (.movSP f)
  | .vadd _ f => some (.arith .fadd f)
  | .vsub _ f => some (.arith .fsub f)
  | .vmul _ f => some (.arith .fmul f)
  | .vfma _ f => some (.arith .ffma f)
  | .vmin _ f => some (.arith .fmin f)
  | .vmax _ f => some (.arith .fmax f)
  | .vabs _ f => some (.arith .fabs f)
  | .vneg _ f => some (.arith .fneg f)
  | .vdiv _ f => some (.arith .div f)
  | .vsqrt _ f => some (.arith .sqrt f)
  | .vrcp _ f => some (.arith .rcp f)
  | .vrsqrt _ f => some (.arith .rsqrt f)
  | .vexp2 _ f => some (.arith .exp2 f)
  | .vlog2 _ f => some (.arith .log2 f)
  | .vexp _ f => some (.arith .exp f)
  | .vlog _ f => some (.arith .log f)
  | .vtanh _ f => some (.arith .tanh f)
  | .vsigm _ f => some (.arith .sigm f)
  | .verf _ f => some (.arith .erf f)
  | .viadd _ f => some (.arith .iadd f)
  | .visub _ f => some (.arith .isub f)
  | .vimul _ f => some (.arith .imul f)
  | .vand _ f => some (.arith .and f)
  | .vor _ f => some (.arith .or f)
  | .vxor _ f => some (.arith .xor f)
  | .vsll _ f => some (.arith .sll f)
  | .vsrl _ f => some (.arith .srl f)
  | .vsra _ f => some (.arith .sra f)
  | .vimin _ f => some (.arith .imin f)
  | .vimax _ f => some (.arith .imax f)
  | .vcmpEq _ f => some (.fcmp .eq f)
  | .vcmpNe _ f => some (.fcmp .ne f)
  | .vcmpLt _ f => some (.fcmp .lt f)
  | .vcmpLe _ f => some (.fcmp .le f)
  | .vcmpGt _ f => some (.fcmp .gt f)
  | .vcmpGe _ f => some (.fcmp .ge f)
  | .vicmpEq _ f => some (.icmp .eq f)
  | .vicmpNe _ f => some (.icmp .ne f)
  | .vicmpLt _ f => some (.icmp .lt f)
  | .vicmpLe _ f => some (.icmp .le f)
  | .vicmpGt _ f => some (.icmp .gt f)
  | .vicmpGe _ f => some (.icmp .ge f)
  | .pand _ f => some (.plog .and f)
  | .por _ f => some (.plog .or f)
  | .pxor _ f => some (.plog .xor f)
  | .pnot _ f => some (.plog .not f)
  | .ppop _ f => some (.ppop f)
  | .vcvt _ f => some (.cvt f)
  | .vcvtN2 _ f => some (.cvtN2 f)
  | .sumNf _ f => some (.sum .nf f)
  | .sumAmax _ f => some (.sum .amax f)
  | .sumAdd _ f => some (.sum .add f)
  | .sumArgmax _ f => some (.sum .argmax f)
  | .vld _ f => some (.vld f)
  | .vst _ f => some (.vst f)
  | .vstCvt _ f => some (.vstCvt f)
  | .vstMx _ f => some (.vstMx f)
  | .vqPop _ f => some (.vqPop f)
  | .vqPush _ f => some (.vqPush f)
  | _ => none

/-- The encoding is not a reserved one, and no rule has the loader refuse it (R146, R156 to R181). -/
def legalInstr (i : Instr) : Bool :=
  match vopOf i with
  | some v => vopLegal v
  | none =>
    match i with
    | .beqz _ f => f.rsv = 0 && f.tgt.toNat < 4096 && f.sb = 0
    | .bnez _ f => f.rsv = 0 && f.tgt.toNat < 4096 && f.sb = 0
    | .beq _ f => f.rsv = 0 && f.tgt.toNat < 4096
    | .bne _ f => f.rsv = 0 && f.tgt.toNat < 4096
    | .blt _ f => f.rsv = 0 && f.tgt.toNat < 4096
    | .bge _ f => f.rsv = 0 && f.tgt.toNat < 4096
    | .bltu _ f => f.rsv = 0 && f.tgt.toNat < 4096
    | .bgeu _ f => f.rsv = 0 && f.tgt.toNat < 4096
    | .loop _ f => f.rsv = 0 && f.tgt.toNat < 4096
    | .jal _ f => f.rsv = 0 && f.tgt.toNat < 4096
    | .jr _ f => f.rsv = 0 && f.tgt.toNat < 4096
    | .jmp _ f => f.rsv = 0 && f.tgt.toNat < 4096 && f.sa = 0 && f.sb = 0
    | .ctlEnd _ f => f.rsv = 0 && f.tgt = 0 && f.sa = 0 && f.sb = 0
    | .sysNop _ f => f.rsv = 0
    | .sysFence _ f => f.rsv = 0 && f.imm.toNat < 8
    | .sysTime _ f => f.rsv = 0
    | .sysEvent _ f => f.rsv = 0 && (256 ≤ f.imm.toNat % 65536 || f.imm.toNat % 65536 = 1)
    | .add _ f => f.rsv = 0
    | .sub _ f => f.rsv = 0
    | .mul _ f => f.rsv = 0
    | .and _ f => f.rsv = 0
    | .or _ f => f.rsv = 0
    | .xor _ f => f.rsv = 0
    | .sll _ f => f.rsv = 0
    | .srl _ f => f.rsv = 0
    | .sra _ f => f.rsv = 0
    | .slt _ f => f.rsv = 0
    | .sltu _ f => f.rsv = 0
    | .min _ f => f.rsv = 0
    | .max _ f => f.rsv = 0
    | .minu _ f => f.rsv = 0
    | .maxu _ f => f.rsv = 0
    | .mov _ f => f.rsv = 0 && f.sb = 0
    | .addi _ f => f.rsv = 0
    | .andi _ f => f.rsv = 0
    | .ori _ f => f.rsv = 0
    | .xori _ f => f.rsv = 0
    | .slli _ f => f.rsv = 0
    | .srli _ f => f.rsv = 0
    | .srai _ f => f.rsv = 0
    | .slti _ f => f.rsv = 0
    | .sltiu _ f => f.rsv = 0
    | .li _ f => f.rsv = 0 && f.sa = 0
    | .liu _ f => f.rsv = 0 && f.sa = 0
    | .lih _ f => f.rsv = 0 && f.sa = 0
    | .ldw _ f => f.rsv = 0 && f.off.toNat < 2 ^ 17
    | .ldd _ f => f.rsv = 0 && f.off.toNat < 2 ^ 17
    | .stw _ f => f.rsv = 0 && f.off.toNat < 2 ^ 17
    | .std _ f => f.rsv = 0 && f.off.toNat < 2 ^ 17
    | .csrr _ f => f.rsv = 0 && f.off.toNat < 2 ^ 16 && f.off.toNat % 4 = 0
    | .qWait _ f => f.rsv = 0
    | .qSpace _ f => f.rsv = 0
    | .qPop _ f => f.rsv = 0
    | .qPush _ f => f.rsv = 0
    | .rgSet _ f => f.rsv = 0 && f.ns = 0 && f.n = 0
    | .rgGet _ f => f.rsv = 0 && f.sb = 0 && f.ns = 0 && f.n = 0
    | .spdClr _ f => f.rsv = 0 && f.rg = 0 && f.ns = 0 && f.n = 0
    | .opeMulClr _ f => omLegal f
    | .opeMulCont _ f => omLegal f
    | .opeDrn _ f => odLegal f
    | .opeCube _ f => f.rsv = 0 && (f.fmt = 1 || f.fmt = 2)
    | .netPull _ f => f.rsv = 0
    | .netPush _ f => f.rsv = 0
    | .netSend _ f => f.rsv = 0
    | .atomAdd _ f => f.rsv = 0
    | .atomMin _ f => f.rsv = 0
    | .atomMax _ f => f.rsv = 0
    | .atomSwap _ f => f.rsv = 0
    | .atomCas _ f => f.rsv = 0
    | _ => false


/-- How an instruction uses a region: it only names it, it produces into it as a unit, it consumes from it as a unit (R134). -/
inductive RgUse where
  | names
  | prod (u : Nat)
  | cons (u : Nat)
  deriving DecidableEq, Repr

/-- The regions a NET instruction uses. -/
def atomUses (f : LN) : List (Nat × RgUse) := (f.rg.toNat, .cons 3) :: (if f.rrg = f.rg then [] else [(f.rrg.toNat, .prod 3)])

/-- The regions an OPE.MUL reads. -/
def mulUses (f : LOM) : List (Nat × RgUse) :=
  ([f.crg.toNat, f.rrg.toNat] ++ (if isMX f.cfmt.toNat then [f.csrg.toNat, f.rsrg.toNat] else [])).map fun g => (g, .cons 1)

/-- The regions that an instruction uses and how (R134, R163, R164, R168, R172, R177, R180, R181): RG.SET sets its region's
descriptor and is bound to none. -/
def regionUses (i : Instr) : List (Nat × RgUse) :=
  match i with
  | .qWait _ f => [(f.rg.toNat, .names)]
  | .qSpace _ f => [(f.rg.toNat, .names)]
  | .rgGet _ f => [(f.rg.toNat, .names)]
  | .qPop _ f => [(f.rg.toNat, .cons 4)]
  | .qPush _ f => [(f.rg.toNat, .prod 4)]
  | .vld _ f => [(f.rg.toNat, .cons 2)]
  | .vqPop _ f => [(f.rg.toNat, .cons 2)]
  | .vst _ f => [(f.rg.toNat, .prod 2)]
  | .vstCvt _ f => [(f.rg.toNat, .prod 2)]
  | .vqPush _ f => [(f.rg.toNat, .prod 2)]
  | .vstMx _ f => [(f.rg.toNat, .prod 2), (f.srg.toNat, .prod 2)]
  | .opeMulClr _ f => mulUses f
  | .opeMulCont _ f => mulUses f
  | .opeDrn _ f => (f.drg.toNat, .prod 1) :: if f.dst = 1 then [(f.drg.toNat, .cons 3)] else []
  | .opeCube _ f => [(f.crg.toNat, .cons 1), (f.rrg.toNat, .cons 1)]
  | .netPull _ f => [(f.rg.toNat, .prod 3)]
  | .netPush _ f => [(f.rg.toNat, .cons 3)]
  | .netSend _ f => [(f.rg.toNat, .cons 3)]
  | .atomAdd _ f => atomUses f
  | .atomMin _ f => atomUses f
  | .atomMax _ f => atomUses f
  | .atomSwap _ f => atomUses f
  | .atomCas _ f => atomUses f
  | _ => []

/-- The staging region of a drain to reduction (R273). -/
def stagesInto (i : Instr) : Option Nat :=
  match i with
  | .opeDrn _ f => if f.dst = 1 then some f.drg.toNat else none
  | _ => none

/-- Where an instruction may transfer control to: none where it transfers none, the index it names otherwise. JR takes any. -/
def transferTo (i : Instr) : Option (Option Nat) :=
  match i with
  | .beqz _ f => some (some f.tgt.toNat)
  | .bnez _ f => some (some f.tgt.toNat)
  | .beq _ f => some (some f.tgt.toNat)
  | .bne _ f => some (some f.tgt.toNat)
  | .blt _ f => some (some f.tgt.toNat)
  | .bge _ f => some (some f.tgt.toNat)
  | .bltu _ f => some (some f.tgt.toNat)
  | .bgeu _ f => some (some f.tgt.toNat)
  | .loop _ f => some (some f.tgt.toNat)
  | .jmp _ f => some (some f.tgt.toNat)
  | .jal _ f => some (some f.tgt.toNat)
  | .jr _ _ => some none
  | .ctlEnd _ _ => some none
  | _ => none

/-- What program order alone tells of the product that a set collects (R48, R173): nothing, that there is none, or one and whether it is
complex. -/
inductive SetKnown where
  | unknown | empty | holds (cpx : Bool)
  deriving DecidableEq, Repr

/-- A CONT product with CPX `cpx` on set q breaks R173, by what is known of both sets. -/
def breaks (k0 k1 : SetKnown) (q : Nat) (cpx : Bool) : Bool :=
  let mine := if q = 0 then k0 else k1
  let other := if q = 0 then k1 else k0
  mine = .holds (!cpx) || (cpx && mine ≠ .empty && mine ≠ .unknown && other = .holds false)

/-- What is known after a product, where it breaks nothing: one whose mask is read at run time may have the mask zero, and then it joins nothing
(R59), so that a set holds for certain only what it held before it. -/
def knownMul (k0 k1 : SetKnown) (f : LOM) (cont : Bool) : SetKnown × SetKnown :=
  let put (q : Nat) (v : SetKnown) : SetKnown × SetKnown := if q = 0 then (v, k1) else (k0, v)
  let cpx : Bool := f.cpx = 1
  let held := if f.set.toNat = 0 then k0 else k1
  if f.mall = 1 || (cont && held = .holds cpx) then (if cpx then (.holds true, .holds true) else put f.set.toNat (.holds false))
  else if cpx then (.unknown, .unknown)
  else put f.set.toNat .unknown

/-- What is known after an instruction, where it breaks nothing. -/
def knownAfter (i : Instr) (k0 k1 : SetKnown) : SetKnown × SetKnown :=
  let put (q : Nat) (v : SetKnown) : SetKnown × SetKnown := if q = 0 then (v, k1) else (k0, v)
  match i with
  | .opeMulClr _ f => knownMul k0 k1 f false
  | .opeMulCont _ f => knownMul k0 k1 f true
  | .opeDrn _ f =>
    if (if f.set.toNat = 0 then k0 else k1) = .holds false then put f.set.toNat .empty
    else (.unknown, .unknown)
  | .opeCube _ f => put f.set.toNat .unknown
  | _ => (k0, k1)

/-- Control never goes on to the next instruction. -/
def noFall (i : Instr) : Bool :=
  match i with
  | .jmp _ _ => true
  | .jal _ _ => true
  | .jr _ _ => true
  | .ctlEnd _ _ => true
  | _ => false

/-- The first index at which a program breaks R173's rule for CONT products by program order alone. Of an index that control may be transferred
to, and of one behind a transfer that may fall through, nothing is known (DESIGN CHOICE, log entry 139: how far the loader's proof goes); an
instruction that neither the entry nor a transfer leads to breaks nothing. `on`: control can come here. -/
def contBreach (entry : Nat) (targets : List Nat) : Nat → Bool → SetKnown → SetKnown → List (Option Instr) → Option Nat
  | _, _, _, _, [] => none
  | n, on, k0, k1, i :: l =>
    let fresh : Bool := n = entry || targets.contains n
    let here := on || fresh
    let a := if fresh then SetKnown.unknown else k0
    let b := if fresh then SetKnown.unknown else k1
    match i with
    | none => contBreach entry targets (n + 1) here .unknown .unknown l
    | some i =>
      let bad := match i with | .opeMulCont _ f => breaks a b f.set.toNat (f.cpx = 1) | _ => false
      if bad && here then some n
      else if (transferTo i).isSome then contBreach entry targets (n + 1) (here && !noFall i) .unknown .unknown l
      else
        let k := knownAfter i a b
        contBreach entry targets (n + 1) here k.1 k.2 l

/-- `contBreach` of a program from its entry; one with a JR, whose target program order does not tell, is let pass. -/
def provenBreach (entry : Nat) (l : List (Option Instr)) : Option Nat :=
  let isJr (i : Option Instr) : Bool := match i with | some (.jr _ _) => true | _ => false
  if l.any isJr then none
  else
    let targets := l.filterMap fun i => match i with | some j => (transferTo j).join | none => none
    contBreach entry targets 0 false .unknown .unknown l

end Sys2Proof.Machine
end

