-- ==== Sys2Proof/Machine/Tree.lean ====
section
/-!
DEFINITION. What the loader checks of a partition's reduction trees and binding lists (R284, R313, R262, R317), on a state whose
tables hold the manifest's images.
-/

namespace Sys2Proof.Machine

/-- An entry of a router's or site's descriptor table is loaded. -/
def rdOn (w : Word) : Bool := bit w 31

/-- The descriptors loaded in a table at `base` of a tile, of a site. -/
def tileDescs (t : Tile) : List Nat := (List.range 256).filter fun d => rdOn (rdesc t d)
@[inherit_doc tileDescs] def siteDescs (x : Site) : List Nat := (List.range 256).filter fun d => rdOn (siteRdesc x d)

/-- A staging map names descriptor d: as primary, or, with MEN, as mirror or retry (R273). -/
def mapNames (w : Word) (d : Nat) : Bool :=
  bit w 31 && (bits w 7 0 = d || (bit w 30 && (bits w 15 8 = d || bits w 23 16 = d)))

/-- The tile is a leaf of descriptor d. -/
def isLeaf (t : Tile) (d : Nat) : Bool := (List.range 16).any fun g => mapNames (stgMap t g) d

/-- Fan-in (Table 10.6): 1 to 5 inputs, no port twice; OUT leads out of the router; slots beyond NIN are 0 (R281). -/
def fanInOk (w : Word) : Bool :=
  let n := bits w 30 28
  1 ≤ n && n ≤ 5 && noRepeat (rdInputs w) && (rdInputs w).all (fun p => decide (p ≤ 4)) &&
    1 ≤ rdOut w && rdOut w ≤ 4 && (List.range 5).all fun i => decide (i < n) || bits w (12 + 3 * i) (10 + 3 * i) = 0

/-- Where a flit of descriptor d goes from a tile: to another tile by an input port, or to a site's root entry. -/
inductive RedHop where
  | tile (t port : Nat)
  | root (n : Nat)
  deriving DecidableEq, Repr

/-- The next hop of descriptor d from tile t (Shape, Root, Partition and Quotas of Table 10.6): none where the entry it leads to
does not take the flit, lies outside partition p, or has other slots than OQ, and none past a relay unless `relays`: only mirror and retry
descriptors use one (R282). -/
def State.redHop (s : State) (relays : Bool) (p t d : Nat) : Option RedHop :=
  let w := rdesc (s.tile t) d
  let takes (n port oq : Nat) : Option RedHop :=
    let v := rdesc (s.tile n) d
    if s.tilePart n = p && rdOn v && (rdInputs v).contains port && bits v 9 8 = oq then some (.tile n port) else none
  match neighbour t (rdOut w) with
  | some n => takes n (facing (rdOut w)) (bits w 7 6)
  | none =>
    match edgeLink t (rdOut w) with
    | none => none
    | some (n, j) =>
      let v := siteRdesc (s.site n) d
      if !((s.site n).owner = p && rdOn v && rdIn v = j && bits v 29 28 = bits w 7 6) then none
      else if !bit v 30 then some (.root n)
      else if !relays || linkCount n ≤ rdRelay v then none
      else
        let u := linkTile n (rdRelay v)
        takes u.1 u.2 (bits v 27 26)

/-- The root site that descriptor d reaches from tile t within `fuel` hops, past at most `adds` adding routers. -/
def State.redClimb (s : State) (relays : Bool) (p d : Nat) : Nat → Nat → Nat → Option Nat
  | 0, _, _ => none
  | fuel + 1, adds, t =>
    let a := if 2 ≤ bits (rdesc (s.tile t) d) 30 28 then 1 else 0
    if adds < a then none
    else
      match s.redHop relays p t d with
      | none => none
      | some (.root n) => some n
      | some (.tile u _) => s.redClimb relays p d fuel (adds - a) u

/-- The tile whose OUT feeds an input port of tile t for descriptor d: the neighbour, or the tile behind a relay. -/
def State.redSource (s : State) (t port d : Nat) : Option Nat :=
  match neighbour t port with
  | some n => some n
  | none =>
    match edgeLink t port with
    | none => none
    | some (n, _) => some (linkTile n (rdIn (siteRdesc (s.site n) d))).1

/-- How descriptor d groups its leaves into sums at tile t, in input order: a leaf as its id + 2, a sum between 0 and 1. Forwarding
routers leave no trace (Mirror rule). -/
def State.sumCode (s : State) (d : Nat) : Nat → Nat → List Nat
  | 0, _ => []
  | fuel + 1, t =>
    let w := rdesc (s.tile t) d
    let parts := (rdInputs w).flatMap fun port =>
      if port = 0 then [t + 2]
      else match s.redSource t port d with
        | some u => if rdOn (rdesc (s.tile u) d) then s.sumCode d fuel u else []
        | none => []
    if 2 ≤ bits w 30 28 then 0 :: parts ++ [1] else parts

/-- The adding routers of descriptor d below tile t. -/
def State.adders (s : State) (d : Nat) : Nat → Nat → List Nat
  | 0, _ => []
  | fuel + 1, t =>
    let w := rdesc (s.tile t) d
    let rest := (rdInputs w).flatMap fun port =>
      if port = 0 then []
      else match s.redSource t port d with
        | some u => if rdOn (rdesc (s.tile u) d) then s.adders d fuel u else []
        | none => []
    if 2 ≤ bits w 30 28 then t :: rest else rest

/-- The root tile of descriptor d at site n. -/
def State.rootTile (s : State) (n d : Nat) : Nat := (linkTile n (rdIn (siteRdesc (s.site n) d))).1

/-- Two trees with root at site n form the same sums of the same leaves on different adding routers. -/
def State.mirrors (s : State) (n a b : Nat) : Bool :=
  let x := s.adders a 1024 (s.rootTile n a)
  let y := s.adders b 1024 (s.rootTile n b)
  s.sumCode a 1024 (s.rootTile n a) = s.sumCode b 1024 (s.rootTile n b) && x.all fun t => !y.contains t

/-- A staging map's descriptors at a leaf (R284): the tree of its primary uses no relay and, with MEN, the mirror and retry trees end at the same
site and keep the mirror rule. -/
def State.mapOk (s : State) (p t : Nat) (w : Word) : Bool :=
  !bit w 31 ||
    match s.redClimb false p (bits w 7 0) 1024 16 t with
    | none => false
    | some n =>
      let pr := bits w 7 0
      let mr := bits w 15 8
      let tr := bits w 23 16
      !bit w 30 || (s.redClimb true p mr 1024 16 t = some n && s.redClimb true p tr 1024 16 t = some n &&
        s.mirrors n pr mr && s.mirrors n pr tr && s.mirrors n mr tr)

/-- The rules of Table 10.6 for one router. -/
def State.routerOk (s : State) (p t : Nat) : Bool :=
  let x := s.tile t
  let ds := tileDescs x
  (List.range 256).all (fun d => isLeaf x d = (rdOn (rdesc x d) && (rdInputs (rdesc x d)).contains 0)) &&
    ds.all (fun d => fanInOk (rdesc x d) && (s.redClimb true p d 1024 16 t).isSome) &&
    (List.range 16).all (fun g => s.mapOk p t (stgMap x g)) &&
    [1, 2, 3, 4].all fun port =>
      decide (((ds.filter fun d => (rdInputs (rdesc x d)).contains port).map fun d => vc1Slots (bits (rdesc x d) 9 8)).sum ≤ 32)

/-- The quotas of a site's edge links. -/
def linksOk (x : Site) (links : Nat) : Bool :=
  let ds := siteDescs x
  ds.all (fun d => decide (rdIn (siteRdesc x d) < links)) && (List.range links).all fun j =>
    decide (((ds.filter fun d => rdIn (siteRdesc x d) = j).map fun d => vc1Slots (bits (siteRdesc x d) 29 28)).sum ≤ 64)

/-- Tiles of a partition whose entry of descriptor d is loaded. -/
def State.redTiles (s : State) (p d : Nat) : List Nat :=
  ((s.busyTiles p).filter fun x => rdOn (rdesc x.2 d)).map (·.1)

/-- A bucket's descriptors: where a tree of that number exists, one ends at the bucket's site; the mirror and retry trees keep the
mirror rule. A number may serve several trees that share no router (log entry 42). -/
def State.bucketOk (s : State) (p n i : Nat) : Bool :=
  let x := s.site n
  let here (d : Nat) : Bool :=
    let l := s.redTiles p d
    l.isEmpty || l.any fun t => s.redClimb true p d 1024 16 t = some n
  let pr := bktPr x i
  let mr := bktMr x i
  let tr := bktTr x i
  here pr && (!bktMen x i || (here mr && here tr && s.mirrors n pr mr && s.mirrors n pr tr && s.mirrors n mr tr))

/-- R284: every rule of Table 10.6. -/
def State.treesOk (s : State) (p : Nat) : Bool :=
  (s.busyTiles p).all (fun x => s.routerOk p x.1) && (s.sitesOf p).all fun n =>
    linksOk (s.site n) (linkCount n) && (List.range (bktCount (s.site n) 4096 0)).all fun i => s.bucketOk p n i

/-- The binding list of a site (R309). -/
def bindList (x : Site) : List Nat := (List.range (x.csrWord 0x608).toNat).map (bindRec x)

/-- The place of a record's bucket among the KIND 0 buckets of the site. -/
def kind0 (x : Site) : List (Nat × Nat) :=
  ((List.range (bktCount x 4096 0)).filter fun i => bktKind x i = 0).map fun i => (bktNum x i, bktBlocks x i)
@[inherit_doc kind0] def bindPlace (x : Site) (b : Nat) : Option Nat := (kind0 x).findIdx? fun k => k.1 = bindBucket b

/-- A tied record with the contributions that its later buckets still owe it, and the place of the bucket that closed it. -/
structure Tied where
  bind : Nat
  from_ : Nat
  owed : Nat
  closed : Nat := 0
  deriving DecidableEq, Repr

/-- The n later contributions that the bucket at place k carries go to the tied records opened before it that owe most, the earlier record
first (log entry 43): none where it carries more than they owe. -/
def tieBucket (k n : Nat) (l : List Tied) : Option (List Tied) :=
  let may := sortBy (fun a b => decide (b.owed ≤ a.owed)) (l.filter fun a => decide (a.from_ < k) && decide (0 < a.owed))
  if may.length < n then none
  else
    let got := (may.take n).map (·.bind)
    some (l.map fun a => if decide (a.from_ < k) && decide (0 < a.owed) && got.contains a.bind then { a with owed := a.owed - 1, closed := k } else a)

/-- The tied records of a binding list, each with the place of the bucket of its last contribution; none where the buckets' blocks are not
covered exactly once. -/
def tiedClosings (x : Site) (own : List Nat) : Option (List Tied) :=
  let ks := kind0 x
  let start : List Tied := (own.filter fun b => decide (1 < bindUse b)).map fun b =>
    { bind := b, from_ := (bindPlace x b).getD 0, owed := bindUse b - 1 }
  let r := (List.range ks.length).foldl (fun (a : Option (List Tied)) k =>
    let key := nth (0, 0) ks k
    let mine := (own.filter fun b => bindBucket b = key.1).length
    if key.2 < mine then none else a.bind (tieBucket k (key.2 - mine))) (some start)
  r.bind fun l => if l.all fun a => a.owed = 0 then some l else none

/-- No record binds an index that an open tied entry holds, and fewer than NSLOT tied entries of TIER 1 are open at once (R313):
`held` are the open tied records before this place. One is open as long as a record with a bucket no later than its last follows. -/
def tiedOk (x : Site) (ts : List Tied) (held : List Tied) : List Nat → Bool
  | [] => true
  | b :: l =>
    let still (a : Tied) : Bool := (b :: l).any fun c => !bindCarry c && match bindPlace x c with | some k => decide (k ≤ a.closed) | none => false
    let held1 := held.filter still
    let held2 := if bindCarry b then held1 else held1 ++ ts.filter fun a => a.bind = b
    let slots := (held2.filter fun a => bindTier a.bind = 1).length
    held1.all (fun a => bindBlock a.bind % 16384 ≠ bindBlock b % 16384) && (slots = 0 || decide (slots < bits (x.csrWord 0x610) 12 0)) &&
      tiedOk x ts held2 l

/-- R313 for one site: every block of the KIND 0 buckets is covered once, the list follows commit order, which within a bucket is that of
the block numbers (R290), tied entries keep their index and leave a landing slot, and PFD is 1 or more. -/
def bindingOk (x : Site) : Bool :=
  let l := bindList x
  let own := l.filter fun b => !bindCarry b
  rising ((List.range (bktCount x 4096 0)).map (bktNum x)) && own.all (fun b => (bindPlace x b).isSome && 1 ≤ bindUse b) &&
    rising (own.map fun b => (bindPlace x b).getD 0 * 2 ^ 16 + bindBlock b) &&
    (match tiedClosings x own with | some ts => tiedOk x ts [] l | none => false) && 1 ≤ bits (x.csrWord 0x600) 23 16

/-- Row 0x07 of Table 16.6 at a site: R313, the tied blocks of R262, and R317. -/
def listsOk (x : Site) (ntied : Nat) (lean : Bool) : Bool :=
  bindingOk x && decide (ntied ≤ accumCap x) && !(lean && (List.range 256).any fun g => grpClip x g = 1)

end Sys2Proof.Machine
end

