-- ==== Sys2Proof/Machine/Loader.lean ====
section
/-!
DEFINITION. The loader: the checks of a manifest and its binaries (Tables 6.15, 16.6) and what loading writes (R135 to R148, R346,
R404, R405).
-/

namespace Sys2Proof.Machine

/-- What the configuration in flash holds of a partition, and the state with it replaced. -/
def State.conf (s : State) (p : Nat) : PartConf := Map.get (fun _ => {}) s.mod.cc.conf p
@[inherit_doc State.conf] def State.setConf (s : State) (p : Nat) (c : PartConf) : State :=
  s.updMod fun m => { m with cc := { m.cc with conf := Map.set (fun _ => {}) m.cc.conf p c } }

/-- The bytes at a site address lie in memory that partition p holds: a site's HBM, or the share of a channel that is p's too. -/
def State.holds (s : State) (p a n : Nat) : Bool :=
  let m := a / 2 ^ 42
  let o := a % 2 ^ 42
  decide (m < nSites) && decide ((s.site m).owner = p) &&
    (decide (o + n ≤ hbmEnd) || (decide (strBase ≤ o) && decide (o + n ≤ strBase + s.mod.share * 0x1000000000) && (s.siteEnv m).strav))

/-- Bytes at a site address, and the state with bytes written there. -/
def State.memBytes (s : State) (a n : Nat) : List Byte := (s.site (a / 2 ^ 42)).bytes (a % 2 ^ 42) n
@[inherit_doc State.memBytes] def State.memPut (s : State) (a : Nat) (l : List Byte) : State :=
  let o := a % 2 ^ 42
  let k := 256 - o % 256
  let x := s.site (a / 2 ^ 42)
  if l.isEmpty then s else s.setSite (a / 2 ^ 42) (writeUnits (writeUnit x o (l.take k)) (o + k) (l.drop k))

/-- The wafer tile of a binary's tile under a field map (R337); an empty FIELDS section names every field itself. -/
def placeTile (fmap : List Nat) (x y : Nat) : Nat :=
  let fb := y / 48 * 10 + x / 35
  fieldTile (if fmap.isEmpty then fb else nth 255 fmap fb) (x % 35) (y % 48)

/-- The wafer tiles of a binary, each with its class. -/
def Binary.tiles (b : Binary) (fmap : List Nat) : List (Nat × Nat) := b.placed.map fun t => (placeTile fmap t.1 t.2.1, t.2.2)

/-- Descriptor g of a class, HEAD and OCC 0. -/
def ClassRec.region (c : ClassRec) (g : Nat) : Region :=
  let d := nth (0, 0) c.desc g
  rgFromScalars (d.2 ++ d.1) 0

/-- A descriptor image breaks its layout: a reserved bit or code, or a declared region that R131 does not admit. -/
def ClassRec.badRegion (c : ClassRec) (g : Nat) : Bool :=
  let d := nth (0, 0) c.desc g
  let r := c.region g
  rgReserved (d.2 ++ d.1) 0 || 2 ≤ r.ver || 5 ≤ r.prod || 5 ≤ r.cons || (r.ver = 1 && !r.valid)

/-- The first class and index whose instruction fails a test; a class's own test first, with index 0. -/
def Binary.findBad (b : Binary) (cls : ClassRec → Bool) (ins : Nat → DWord → Bool) : Option (Nat × Nat) :=
  (List.range b.classes.length).findSome? fun c =>
    if cls (b.cls c) then some (c, 0)
    else ((b.prog c).words.findIdx? (ins c)).map fun i => (c, i)

/-- The instruction is a reserved encoding, or fails a check of R158, R167, R173 or R177 (R146). -/
def badWord (w : DWord) : Bool :=
  match decodeWord 0 w with
  | some i => !legalInstr i
  | none => true

/-- The instruction uses a region against its class's declarations (R134). -/
def badUse (c : ClassRec) (w : DWord) : Bool :=
  match decodeWord 0 w with
  | none => false
  | some i => (regionUses i).any fun u =>
      let r := c.region u.1
      r.ver ≠ 1 || match u.2 with | .names => false | .prod k => r.prod ≠ k | .cons k => r.cons ≠ k

/-- The offset of a TILEREGS image in the tile CSR window, which may be given from the tile window's start. -/
def imageOff (o : Nat) : Nat := if 0xC0000 ≤ o then o - 0xC0000 else o

/-- The manifest maps region g of tile t as a staging region. -/
def stagesAt (m : Manifest) (t g : Nat) : Bool :=
  m.tileRegs.any fun r => r.unit = t && imageOff r.off = 0xA00 + 4 * g && bit r.val 31

/-- A drain of a class stages into a region that the manifest does not map at one of its tiles (R273). -/
def unmapped (m : Manifest) (b : Binary) (c : Nat) (w : DWord) : Bool :=
  match decodeWord 0 w with
  | none => false
  | some i =>
    match stagesInto i with
    | none => false
    | some g => (b.tiles m.fmap).any fun t => t.2 = c && !stagesAt m t.1 g

/-- The first class and index of an instruction that breaks R173 by program order alone. -/
def Binary.contBad (b : Binary) : Option (Nat × Nat) :=
  (List.range b.classes.length).findSome? fun c => (provenBreach (b.prog c).entry ((b.prog c).words.map (decodeWord 0))).map fun i => (c, i)

/-- The first program that no class names and that holds a reserved encoding: it is reported under the class number that follows the last. -/
def Binary.unnamedBad (b : Binary) : Option (Nat × Nat) :=
  (List.range b.progs.length).findSome? fun k =>
    if b.classes.any fun c => c.prog = k then none
    else ((nth { words := [], entry := 0 } b.progs k).words.findIdx? badWord).map fun i => (b.classes.length, i)

/-- A resident region of a tile differs from what its class declares (R141). -/
def residentBad (t : Tile) (c : ClassRec) : Bool :=
  (List.range 16).any fun g =>
    let r := c.region g
    let q := region t g
    r.ver = 1 && r.resident && q.ver = 1 && q.resident && (r.base ≠ q.base || r.size ≠ q.size || r.swz != q.swz)

/-- The field is good: neither fused nor retired. -/
def State.good (s : State) (f : Nat) : Bool := decide (bits (s.preg (0x80000 + 8 * f)) 7 6 = 0)

/-- A field that the partition owns, that is neither fused nor retired, and that is no reserve field (R5). -/
def State.goodField (s : State) (p f : Nat) : Bool :=
  decide (f < nFields) && decide (s.fieldOwner f = p) && s.good f && !(s.field f).reserve

/-- The load checks of a binary in the order of Table 6.15: the number of the row that fails first, with the class and index. A descriptor image of a
class that R131 does not admit, and a staging region that R273 does not map, count under row 5 (DESIGN CHOICE, log entry 140). -/
def State.loadCheck (s : State) (p : Nat) (m : Manifest) (b : Binary) : Option (Nat × Nat × Nat) :=
  let one (c : Bool) (k : Nat) : Option (Nat × Nat × Nat) := if c then some (k, 0, 0) else none
  let tiles := b.tiles m.fmap
  one (b.level ≠ 1) 2 <|> one (b.features ≠ 0) 3 <|> one (decide (1 < b.minProf)) 4 <|>
    ((b.findBad (fun c => (List.range 16).any c.badRegion) fun _ => badWord).map fun x => (5, x.1, x.2)) <|>
    (b.unnamedBad.map fun x => (5, x.1, x.2)) <|> (b.contBad.map fun x => (5, x.1, x.2)) <|>
    ((b.findBad (fun _ => false) (unmapped m b)).map fun x => (5, x.1, x.2)) <|>
    ((b.findBad (fun _ => false) fun c => badUse (b.cls c)).map fun x => (7, x.1, x.2)) <|>
    ((tiles.find? fun t => residentBad (s.tile t.1) (b.cls t.2)).map fun t => (8, t.2, 0)) <|>
    ((b.placed.find? fun t => !s.goodField p (let f := t.2.1 / 48 * 10 + t.1 / 35; if m.fmap.isEmpty then f else nth 255 m.fmap f)).map
      fun t => (9, t.2.2, 0)) <|>
    one (b.rights / 2 % 2 = 1 && !(s.part p).debug) 10

/-- The 32-bit site registers that SITEREGS may set, and the 64-bit ones (Table 16.4). -/
def siteImage32 (o : Nat) : Bool :=
  (decide (0x200 ≤ o) && decide (o < 0x600)) || (decide (0x100 ≤ o) && decide (o < 0x180) && o % 16 ≠ 12) ||
    (decide (0xA000 ≤ o) && decide (o < 0xE000)) || (decide (0xE000 ≤ o) && decide (o < 0xE800) && o % 8 = 4) ||
    [0x40, 0x600, 0x604, 0x608, 0x60C, 0x610, 0x650, 0x660, 0x664, 0x668].contains o
@[inherit_doc siteImage32] def siteImage64 (o : Nat) : Bool :=
  ((decide (0x1000 ≤ o) && decide (o < 0x9000)) || (decide (0xE000 ≤ o) && decide (o < 0xE800))) && o % 8 = 0

/-- A bit that is neither RW, W1C nor WO in its register is 1. -/
def reservedBits (l : List Reg) (o : Nat) (v : Word) : Bool :=
  match regAt l o with
  | none => true
  | some r => (v &&& ~~~(BitVec.ofNat 32 r.rw ||| BitVec.ofNat 32 r.w1c ||| BitVec.ofNat 32 r.wo)) ≠ 0

/-- The low and high words of an image. -/
def imgLo (r : RegImage) : Word := r.val.setWidth 32
@[inherit_doc imgLo] def imgHi (r : RegImage) : Word := (r.val >>> 32).setWidth 32

/-- An image of TILEREGS, SITEREGS or MINUET that its section does not admit, or whose value its register does not accept. -/
def tileImageBad (r : RegImage) : Bool :=
  let o := imageOff r.off
  !(((decide (0xA00 ≤ o) && decide (o < 0xA40)) || (decide (0x1000 ≤ o) && decide (o < 0x1400))) && o % 4 = 0) ||
    (imgHi r) ≠ 0 || reservedBits tileRegs o (imgLo r)
@[inherit_doc tileImageBad] def siteImageBad (r : RegImage) : Bool :=
  if siteImage64 r.off then reservedBits siteRegs r.off (imgLo r)
  else !siteImage32 r.off || r.off % 4 ≠ 0 || (imgHi r) ≠ 0 || reservedBits siteRegs r.off (imgLo r) || siteValueBad r.off (imgLo r)
@[inherit_doc tileImageBad] def minuetImageBad (r : RegImage) : Bool :=
  !(decide (0x10000 ≤ r.off) && decide (r.off < 0x14000) && r.off % 4 = 0) || (imgHi r) ≠ 0

/-- The manifest's Minuet programs at site n, where its images write any, and those that a group with OPT 4 runs. -/
def minuetUsed (m : Manifest) (n : Nat) (x : Site) : List Nat :=
  (List.range 16).filter fun p =>
    m.minuet.any (fun r => r.unit = n && (r.off - 0x10000) / 1024 = p) ||
      (List.range 256).any fun g => grpOpt x g = 4 && bits (grpWord x g 0) 18 15 = p

/-- A tile whose tables of the manifest are as at reset, a site likewise: loading a manifest leaves no entry of an earlier one. -/
def clearTileTables (t : Tile) : Tile := { t with csr := Map.clearRange (Map.clearRange t.csr 0xA00 0xA40) 0x1000 0x1400 }
@[inherit_doc clearTileTables] def clearSiteTables (x : Site) : Site :=
  { x with csr := Map.clearRange (Map.clearRange (Map.clearRange x.csr 0x200 0x600) 0x1000 0x9000) 0xA000 0x14000 }

/-- One image written to its register. LEAN and DSITE of SITE_UPD_CTL come from the header and stand (Table 16.3). -/
def putTileImage (t : Tile) (r : RegImage) : Tile := csrPut t (imageOff r.off) (imgLo r)
@[inherit_doc putTileImage] def putSiteImage (x : Site) (r : RegImage) : Site :=
  let old := x.csrWord r.off
  let new := match regAt siteRegs r.off with | some q => regWrite q old (imgLo r) | none => old
  let y := x.csrPut r.off (if r.off = 0x600 then setBits (setBits new 1 1 (bits old 1 1)) 29 24 (bits old 29 24) else new)
  if siteImage64 r.off then y.csrPut (r.off + 4) (imgHi r)
  else if decide (0x100 ≤ r.off) && decide (r.off < 0x180) && r.off % 16 = 8 && 1 ≤ bits (imgLo r) 1 0 then
    (winCmd y ((r.off - 0x100) / 16) (bits (imgLo r) 1 0)).getD y
  else y

/-- The manifest with the register images of the binary that the tiles are to hold: those of the second binary of a pair, where sections of
INDEX 1 give any (R346, log entry 59). -/
def tablesFor (m : Manifest) (phase : Nat) : Manifest :=
  if phase = 1 && !(m.tileRegs1.isEmpty && m.siteRegs1.isEmpty) then { m with tileRegs := m.tileRegs1, siteRegs := m.siteRegs1 } else m

/-- The partition seed (R99): the partition number where the manifest gives none. -/
def seedOf (m : Manifest) : Nat := if m.pseed = 0 then m.part else m.pseed

/-- Windows that a manifest disarms before it sets them anew: those of the partition's sites. -/
def disarmAll (x : Site) : Site := { x with m := { x.m with armed := [], count := [] } }

/-- The tables of a manifest written at the partition's tiles and sites (R405; log entry 44). -/
def State.putTables (s : State) (p : Nat) (m : Manifest) : State :=
  let s1 := (s.busyTiles p).foldl (fun s x => s.setTile x.1 (clearTileTables x.2)) s
  let s2 := s1.eachSite p fun x => disarmAll (clearSiteTables x)
  let s3 := m.tileRegs.foldl (fun s r => s.setTile r.unit (putTileImage (s.tile r.unit) r)) s2
  let s4 := (m.siteRegs ++ m.minuet).foldl (fun s r => s.setSite r.unit (putSiteImage (s.site r.unit) r)) s3
  s4.eachSite p fun x => (x.csrField 0x600 1 1 (m.flags % 2)).csrField 0x600 29 24 m.dsite

/-- A register image as the register stands after reset. -/
def resetImage (site : Bool) (r : RegImage) : RegImage :=
  { r with val := if !site then (regReset tileRegs (imageOff r.off)).setWidth 64
      else if siteImage64 r.off then regReset siteRegs (r.off + 4) ++ regReset siteRegs r.off
      else (regReset siteRegs r.off).setWidth 64 }

/-- The register belongs to a table that a swap writes (R346): at a tile each of the staging maps and reduction descriptors, at a site the reduction
descriptors, the bucket table, the group and learning-rate tables and the binding list. -/
def isTable (site : Bool) (o : Nat) : Bool :=
  !site || (decide (0x200 ≤ o) && decide (o < 0x600)) || (decide (0x1000 ≤ o) && decide (o < 0x9000)) ||
    (decide (0xA000 ≤ o) && decide (o < 0xE800)) || o = 0x604 || o = 0x608

/-- The images of one table set that another does not hold, and those of the table registers that it does not name, as the registers stand
after reset. -/
def changedImages (old new : List RegImage) : List RegImage := new.filter fun r => !old.contains r
@[inherit_doc changedImages] def goneImages (site : Bool) (old new : List RegImage) : List RegImage :=
  (old.filter fun r => isTable site r.off && !new.any fun q => q.unit = r.unit && q.off = r.off).map (resetImage site)

/-- A swap from one binary of a pair to the other writes the tables that differ (R346). -/
def State.swapTables (s : State) (old new : Manifest) : State :=
  let s1 := (goneImages false old.tileRegs new.tileRegs ++ changedImages old.tileRegs new.tileRegs).foldl (fun s r =>
    s.setTile r.unit (putTileImage (s.tile r.unit) r)) s
  (goneImages true old.siteRegs new.siteRegs ++ changedImages old.siteRegs new.siteRegs).foldl (fun s r =>
    s.setSite r.unit (putSiteImage (s.site r.unit) r)) s1

/-- The cap in force for a manifest: the administrator's limit bounds it (Table 16.5). -/
def State.capFor (s : State) (p cap : Nat) : Nat := min cap (s.conf p).maxCap

/-- The partition's idle floor in watts (R369). -/
def State.capFloor (s : State) (p : Nat) : Nat := 66 * (s.fieldsOf p).length + 50 * (s.sitesOf p).length

/-- Every value is one byte. -/
def byteOk (l : List Nat) : Bool := l.all fun b => decide (b < 256)

/-- A reserved value or a non-zero reserved byte of the manifest (reason 0x09). -/
def State.reservedBad (s : State) (p : Nat) (m : Manifest) (bins : List Binary) : Bool :=
  let pair := m.flags / 4 % 2
  m.magic ≠ 0x464D5954 || m.ver ≠ 1 || 8 ≤ m.part || 16 ≤ m.flags || m.rsv ≠ 0 || 65536 < m.length + 1296 || bins.any Binary.rsv ||
    !(m.wdog = 0 || (100 ≤ m.wdog && decide (m.wdog ≤ 3600000))) || 16 ≤ m.srate || 16 ≤ m.srateMax || !byteOk [m.escale, m.emin, m.emax] ||
    nSites ≤ m.dsite || (s.site m.dsite).owner ≠ p || m.layout % 256 ≠ 0 || hbmEnd ≤ m.layout % 2 ^ 42 || m.bins.length ≠ pair + 1 ||
    !(m.fmap.isEmpty || m.fmap.length = 70) || m.fmap.any (fun f => decide (70 ≤ f) && f ≠ 255) || !noRepeat (m.fmap.filter (· ≠ 255)) ||
    m.args.any (fun a => decide (pair < a.bin) || a.vals.length ≠ 32 || decide ((nth 0 (bins.map fun b => b.classes.length) a.bin) ≤ a.cls)) ||
    (m.tileRegs ++ m.tileRegs1).any tileImageBad || (m.siteRegs ++ m.siteRegs1).any siteImageBad || m.minuet.any minuetImageBad ||
    (pair = 0 && !(m.tileRegs1.isEmpty && m.siteRegs1.isEmpty)) ||
    m.halo.any (fun h => decide (64 ≤ h.win) || decide (4 ≤ h.ctl) || decide (2 ^ 48 ≤ h.base) || decide (2 ^ 32 ≤ h.len)) ||
    (pair = 1 && (nth [] (bins.map fun b => b.placed.map fun t => (t.1, t.2.1)) 0) ≠ nth [] (bins.map fun b => b.placed.map fun t => (t.1, t.2.1)) 1) ||
    ((m.flags / 8 % 2 = 1 || m.cap ≠ 0) && decide (s.capFor p m.cap < s.capFloor p))

/-- A resource that the manifest names and the partition does not hold (reason 0x03). -/
def State.resourceBad (s : State) (p : Nat) (m : Manifest) (bins : List Binary) : Bool :=
  let hbm := (s.sitesOf p).length * hbmEnd
  let str := ((s.sitesOf p).filter fun n => (s.siteEnv n).strav).length * (s.mod.share * 0x1000000000)
  m.fields.any (fun f => !(decide (f < nFields) && decide (s.fieldOwner f = p))) || m.sites.any (fun n => !(decide (n < nSites) && decide ((s.site n).owner = p))) ||
    m.chans.any (fun c => !(decide (c < 24) && decide (s.chanOwner c = p))) || m.ports.any (fun q => !(decide (q < nPorts) && decide (s.portOwner q = p))) ||
    bins.any (fun b => decide (hbm < b.siteBytes) || decide (str < b.stratBytes)) ||
    (m.tileRegs ++ m.tileRegs1).any (fun r => !(decide (r.unit < nTiles) && decide (s.tilePart r.unit = p))) ||
    (m.siteRegs ++ m.siteRegs1 ++ m.minuet).any (fun r => !(decide (r.unit < nSites) && decide ((s.site r.unit).owner = p))) ||
    !s.holds p m.layout 0x10600 || m.base.any (fun b => !s.holds p b.addr b.len)

/-- Halo windows that break R381 or R389 (reason 0x08). -/
def State.haloBad (s : State) (p : Nat) (m : Manifest) : Bool :=
  m.halo.any fun h => !(decide (h.port < nPorts) && decide (s.portOwner h.port = p) && h.base % 256 = 0 && s.holds p h.base (256 * h.len))

/-- The key that signed, where the signature stands (R424, R425; log entry 20). -/
def State.signer (s : State) (p : Nat) (m : Manifest) : Option HostKey :=
  if m.sigOk then (s.conf p).keys.find? fun k => k.slot = m.slot && k.key = m.keyId else none

/-- MSEQ last accepted for a partition (R426). -/
def State.mseq (s : State) (p : Nat) : Nat := (s.preg (0x90104 + 8 * p)).toNat * 2 ^ 32 + (s.preg (0x90100 + 8 * p)).toNat

/-- The binaries of a manifest as they lie in site memory; none where one cannot be read. -/
def State.readBins (s : State) (p : Nat) (m : Manifest) : List (Option Binary) :=
  m.bins.map fun b => if s.holds p b.addr b.len then readBinary (s.memBytes b.addr b.len) else none

/-- A binary whose digest or length in memory is not that of the manifest (reason 0x04). -/
def State.digestBad (s : State) (p : Nat) (b : BinRef) : Bool :=
  !s.holds p b.addr b.len || Config.shake256 (s.memBytes b.addr b.len) ≠ b.digest

/-- The first check of Table 16.6 that a manifest for partition p fails: reason, and for R187 the check, class and index. A program that breaks
R316 is refused with the reason of the Minuet sections (log entry 77). -/
def State.manifestBad (s : State) (p : Nat) (m : Manifest) : Option (Nat × Nat × Nat × Nat) :=
  let one (c : Bool) (k : Nat) : Option (Nat × Nat × Nat × Nat) := if c then some (k, 0, 0, 0) else none
  let found := s.readBins p m
  let bins := found.filterMap id
  let t := s.putTables p m
  let t1 := t.swapTables m (tablesFor m 1)
  let minRight := bins.any fun b => b.rights % 2 = 1
  let inSome (f : Site → Nat → Bool) : Bool :=
    (s.sitesOf p).any fun n => (List.range 256).any fun g => f (t.site n) g || f (t1.site n) g
  let opt4 := inSome fun x g => grpOpt x g = 4
  let clip4 := inSome fun x g => grpOpt x g = 4 && grpClip x g = 1
  let minBad := inSome minGroupBad || (s.sitesOf p).any fun n => [t, t1].any fun u => (minuetUsed m n (u.site n)).any (minProgramBad (u.site n))
  let sig := match s.signer p m with
    | none => true
    | some k => bins.any fun b => (b.rights % 2 = 1 && k.rights % 2 = 0) || (b.rights / 2 % 2 = 1 && k.rights / 2 % 2 = 0)
  one sig 1 <|> one (m.part ≠ p || decide (m.mseq ≤ s.mseq p)) 2 <|> one (s.resourceBad p m bins) 3 <|> one (m.bins.any (s.digestBad p)) 4 <|>
    ((List.range found.length).findSome? fun k => match nth none found k with
      | none => some (5, 1, 0, 0)
      | some b => (s.loadCheck p (tablesFor m k) b).map fun x => (5, x)) <|>
    one (!(t.treesOk p && t1.treesOk p)) 6 <|>
    one ((s.sitesOf p).any fun n => [t, t1].any fun u => !listsOk (u.site n) m.ntied (m.flags % 2 = 1)) 7 <|> one (s.haloBad p m) 8 <|>
    one (s.reservedBad p m bins) 9 <|> one (((!m.minuet.isEmpty || opt4) && !minRight) || clip4 || minBad) 10 <|> one ((s.part p).state ≠ 1) 11

/-- A program written to a tile's instruction store with SEQ_PROG and SEQ_ILK (R148, R187, R188). -/
def loadProgram (b0 : Bool) (pr : Program) (t : Tile) : Tile :=
  let ws := pr.words.flatMap fun (w : DWord) => [w.setWidth 32, (w >>> 32).setWidth 32]
  let t1 := { t with istore := Map.setMany (fun _ => 0#32) t.istore 0 ws, ipar := [] }
  csrPut (csrPut t1 0x8 (BitVec.ofNat 32 (2 ^ 24 + 2 ^ 16 + pr.words.length))) 0xC (if b0 then 0 else 1)

/-- TILE_FP_IMG (Table 18.10): the site address of the base image of a tile's class; 0 for none. -/
def baseOf (m : Manifest) (c : Nat) : Option BaseRef := m.base.find? fun b => b.cls = c
@[inherit_doc baseOf] def fpImage (m : Manifest) (c : Nat) (t : Tile) : Tile :=
  let a := match baseOf m c with | some b => b.addr | none => 0
  csrPut (csrPut t 0xB10 (BitVec.ofNat 32 a)) 0xB14 (BitVec.ofNat 32 (a / 2 ^ 32 % 2 ^ 16))

/-- Binary number k written to its tiles; SEQ_ILK is set in these alone (R187; DESIGN CHOICE, log entry 141). -/
def State.loadBinary (s : State) (m : Manifest) (fmap : List Nat) (b : Binary) : State :=
  (b.tiles fmap).foldl (fun s t => s.setTile t.1 (fpImage m t.2 (loadProgram s.mod.b0 (b.prog t.2) (s.tile t.1)))) s

/-- The registers that the manifest's header gives (Tables 16.3, 11.13; R293, R369, R410). -/
def State.putHeader (s : State) (p : Nat) (m : Manifest) : State :=
  let s1 := s.eachSite p fun x =>
    let x1 := (x.csrPut 0x62C (BitVec.ofNat 32 (m.escale * 2 ^ 24 + m.emin * 2 ^ 16 + m.emax * 2 ^ 8))).csrField 0x630 15 0 m.grow
    (x1.csrPut 0x634 m.tau).csrPut 0x60 (BitVec.ofNat 32 (seedOf m % 2 ^ 16 * 2 ^ 16 + m.srate % 16))
  let s2 := s1.ezPut (0x2000 + 0x40 * p) (BitVec.ofNat 32 (m.flags / 8 % 2 * 2 ^ 31 + s.capFor p m.cap))
  s2.ezPut (0x4008 + 0x40 * p) (BitVec.ofNat 32 (if m.wdog = 0 then 2000 else m.wdog))

/-- A Halo window of the manifest written; its KEYGEN advances (R396). One that a transfer is using is refused and logged (R389). -/
def State.putWindow (s : State) (h : HaloImage) : State :=
  let o := s.port h.port
  let a := 0x1000 + 16 * h.win
  let o1 := ((o.csrPut a (BitVec.ofNat 32 h.base)).csrPut (a + 4) (BitVec.ofNat 32 (h.base / 2 ^ 32))).csrPut (a + 8) (BitVec.ofNat 32 h.len)
  let c := o1.csrWord (a + 12)
  if o.xfers.any fun x => x.win = h.win then s.refuse (portAddr h.port a) 0x4A (portLoc h.port 0)
  else s.setPort h.port (o1.csrPut (a + 12) (BitVec.ofNat 32 ((bits c 31 16 + 1) % 2 ^ 16 * 2 ^ 16 + h.ctl)))

/-- SRATE of the manifest at the tiles of a binary (R293). -/
def State.putSrate (s : State) (p srate : Nat) (tiles : List Nat) : State :=
  let s1 := tiles.foldl (fun s t => s.setTile t (csrField (s.tile t) 0x90C 15 12 srate)) s
  s1.eachSite p fun x => x.csrField 0x60 3 0 srate

/-- A new job holds no region of the one before: its resident regions are loaded and swept before its first invocation (R452). -/
def State.freshRegions (s : State) (tiles : List Nat) : State :=
  tiles.foldl (fun s t => s.setTile t { s.tile t with regions := [] }) s

/-- Everything that loading a manifest writes before the partition is ready (R405). -/
def State.loadManifest (s : State) (p : Nat) (m : Manifest) (bins : List Binary) : State :=
  let s1 := (s.putTables p m).putHeader p m
  let s2 := match bins with | [] => s1 | b :: _ => s1.loadBinary m m.fmap b
  let tiles := match bins with | [] => [] | b :: _ => (b.tiles m.fmap).map (·.1)
  m.halo.foldl State.putWindow ((s2.freshRegions tiles).putSrate p m.srate tiles)

end Sys2Proof.Machine
end

