-- ==== Sys2Proof/Machine/Fingerprint.lean ====
section
/-!
DEFINITION. Fingerprints of resident regions and the sweep that checks them against the tile's image (R451 to R454).
-/

namespace Sys2Proof.Machine

/-- The fingerprint of a group's words (R451): what is missing of 512 is 0. -/
def fingerprint (ws : List Word) : DWord :=
  (List.range 512).foldl (fun f i => mix64 (f + BitVec.ofNat 64 (i * 2 ^ 32 + (nth 0#32 ws i).toNat))) 0

/-- A group of a resident region: its region and number, its words, and where its words and its fingerprint stand in the image. -/
structure FpGroup where
  rg : Nat
  grp : Nat
  words : List Nat
  wordsAt : Nat
  sumAt : Nat
  deriving DecidableEq, Repr

/-- The groups of a tile's resident regions in order (R452, R453). -/
def fpGroups (t : Tile) : List FpGroup :=
  ((List.range 16).foldl (fun (a : List FpGroup × Nat) g =>
    let r := region t g
    if r.ver = 1 && r.resident then
      let n := (r.size + 511) / 512
      let sums := a.2 + (r.size + 63) / 64 * 256
      (a.1 ++ (List.range n).map fun k =>
        { rg := g, grp := k, words := rgSpan { r with head := 0 } (512 * k) (min 512 (r.size - 512 * k)), wordsAt := a.2 + 2048 * k,
          sumAt := sums + 8 * k },
        sums + (8 * n + 255) / 256 * 256)
    else a) ([], 0)).1

/-- Bytes pulled from a tile's image: none where the site answers with an error, after which the pull never completes (R183). -/
def State.fpPull (s : State) (t o n : Nat) : State × Option (List Byte) :=
  let x := s.tile t
  let a := bits (csrWord x 0xB14) 15 0 * 2 ^ 32 + (csrWord x 0xB10).toNat + o
  let m := a / 2 ^ 42
  let b := a % 2 ^ 42
  if !(s.holds (s.tilePart t) a n) || (s.site m).state ≠ 2 then (s, none)
  else
    let units := (List.range ((b + n + 255) / 256 - b / 256)).map (b / 256 + ·)
    let r := units.foldl (fun (a : SS × Bool) u =>
      match readUnit (s.siteEnv m) a.1 1 u [] with
      | (y, e) => (y, a.2 && e.isNone)) ({ s := s.site m, free := s.free }, true)
    let s1 := (({ s with free := r.1.free }).setSite m r.1.s).raiseAll r.1.recs
    (s1, if r.2 then some ((s1.site m).bytes b n) else none)

/-- A group's words as the sweep reads them, at port 7: with whether all bytes passed parity, for a failure is a mismatch (R438), and
whether an injection struck (R446). -/
def fpRead (id : Nat) (ts : TS) : List Nat → TS × List Word × Bool × Bool
  | [] => (ts, [], true, false)
  | i :: l =>
    match readPhys id ts 7 i none with
    | (u, w, bad, hit) =>
      match fpRead id u l with
      | (v, ws, ok, inj) => (v, w :: ws, ok && bad = 0, inj || hit)

/-- Whether the group as stored has the fingerprint of the image, and whether an injection struck as it was read. -/
def State.fpMatches (s : State) (t : Nat) (g : FpGroup) (sum : Nat) : State × Bool × Bool :=
  match fpRead t { t := s.tile t, free := s.free } g.words with
  | (ts, ws, ok, inj) => (({ s with free := ts.free }).setTile t ts.t, ok && decide ((fingerprint ws).toNat = sum), inj)

/-- TILE_FP_COUNT counts groups checked in units of 256. -/
def fpCounted (t : Tile) : Tile :=
  if t.fpFrac + 1 < 256 then { t with fpFrac := t.fpFrac + 1 } else csrCount { t with fpFrac := 0 } 0xB20 15 0 1

/-- A mismatch is recorded in TILE_FP_LAST; one that remains replaces one that did not. -/
def fpNote (g : FpGroup) (persist : Bool) (t : Tile) : Tile :=
  if bit (csrWord t 0xB1C) 31 && (bit (csrWord t 0xB1C) 30 || !persist) then t
  else csrPut t 0xB1C (BitVec.ofNat 32 (2 ^ 31 + nb persist * 2 ^ 30 + g.rg * 2 ^ 24 + g.grp % 256))

/-- A group checked (R453): on a mismatch its words are pulled from the image, written and checked again; a second mismatch is a hard
fault. False where a pull does not complete. -/
def State.fpCheck (s : State) (t : Nat) (g : FpGroup) : State × Bool :=
  match s.fpPull t g.sumAt 8 with
  | (s1, none) => (s1, false)
  | (s1, some b) =>
    match s1.fpMatches t g (ofLeBytes b) with
    | (s2, true, _) => (s2.setTile t (fpCounted (s2.tile t)), true)
    | (s2, false, hit) =>
      match s2.fpPull t g.wordsAt (4 * g.words.length) with
      | (s3, none) => (s3, false)
      | (s3, some l) =>
        let x0 := s3.tile t
        let mine : Bool := match x0.injWord with | some w => g.words.contains w.1 && Map.get (fun _ => 0#32) x0.spd w.1 = w.2 | none => false
        let x := (List.zip g.words (bytesWords g.words.length l)).foldl (fun x w => writePhys x w.1 w.2) x0
        let s4 := s3.setTile t (fpNote g false (csrCount { x with injWord := if mine then none else x.injWord } 0xB20 31 16 1))
        match s4.fpMatches t g (ofLeBytes b) with
        | (s5, ok, again) =>
          let y := fpCounted (if ok then s5.tile t else fpNote g true (s5.tile t))
          ((s5.setTile t y).raise
            { source := 0x07, cls := if ok then 2 else 1, loc := t, code := g.rg, addr := nth 0 g.words 0,
              detail := [csrWord y 0xB10, csrWord y 0xB14, csrWord y 0xB18, csrWord y 0xB1C, csrWord y 0xB20], inj := mine || hit || again }, true)

/-- Every group of a tile is swept, as before a first invocation (R452). -/
def State.fpSweepAll (s : State) (t : Nat) : State := (fpGroups (s.tile t)).foldl (fun s g => (s.fpCheck t g).1) s

/-- A sweep starts (R453): NGRP groups from CURSOR, all for 0; where there is no group it is over at once. -/
def fpStart (t : Tile) : Tile :=
  let total := (fpGroups t).length
  let n := bits (csrWord t 0xB18) 31 24
  if total = 0 then t else csrField { t with fpLeft := if n = 0 then total else n } 0xB18 2 2 1

/-- A sweep stops. -/
def fpStop (t : Tile) : Tile := csrField { t with fpLeft := 0 } 0xB18 2 2 0

/-- The next group of a running sweep is checked (R453), and CURSOR moves on. -/
def State.fpStep (s : State) (t : Nat) : State :=
  let x := s.tile t
  let l := fpGroups x
  let k := bits (csrWord x 0xB18) 23 8 % l.length
  if !bit (csrWord x 0xB18) 2 || runBit x then s
  else
    match l[k]? with
    | none => s.setTile t (fpStop x)
    | some g =>
      match s.fpCheck t g with
      | (s1, false) => s1
      | (s1, true) =>
        let y := s1.tile t
        let z := csrField { y with fpLeft := y.fpLeft - 1 } 0xB18 23 8 ((k + 1) % l.length)
        s1.setTile t (if z.fpLeft = 0 then fpStop z else z)

end Sys2Proof.Machine
end

