-- ==== Sys2Proof/Machine/Power.lean ====
section
/-!
DEFINITION. Power, heat and the Cirrus time base (R349 to R378), field power-up and the tile-map check (R24 to R26, R465).
-/

namespace Sys2Proof.Machine

/-- The feed of a field's half (R349). -/
def feedOf (f : Nat) : Nat := if fieldX f < 5 then 0 else 1

/-- The fields of a feed's half. -/
def halfFields (k : Nat) : List Nat := (List.range nFields).filter fun f => feedOf f = k

/-- COOLST (Table 14.5). -/
def State.coolst (s : State) : Nat := bits (s.ez 0x30) 1 0

/-- VREQ of a field less the levels of a governor, not below V0. -/
def lowered (vreq g : Nat) : Nat := if g = 0 then 7 else vreq - g

/-- The ceiling that the feed, the coolant and the module set (Table 14.1, Table 14.5, R370); a governor acts on powered fields alone. -/
def State.vfeed (s : State) (f : Nat) : Nat :=
  let vreq := bits (s.ez (pwr f 0)) 2 0
  let on : Bool := (s.field f).power = 2 || (s.field f).power = 3
  let g (k : Nat) : Nat := if on then Map.get (fun _ => 0) s.mod.pow.gov k else 0
  min (min (if s.mod.pow.uv.contains (feedOf f) then 0 else 7) (if 2 ≤ s.coolst then 2 else 7))
    (min (lowered vreq (g (feedOf f))) (lowered vreq (g 2)))

/-- The pacing credit of a field follows its pace (R371): it starts at 8P when the field becomes paced, and an unpaced field keeps none. -/
def State.paceSync (s : State) (f : Nat) : State :=
  let x := s.field f
  if s.pace f = 0 then
    (if x.fresh = 0 then s
    else
      let s1 := s.setField f { x with fresh := 0 }
      { s1 with tiles := (s1.tiles.map fun e => if fieldOf e.1 = f then (e.1, { e.2 with credit := none }) else e).filter fun e => e.2 ≠ {} })
  else if x.fresh = 0 then s.setField f { x with fresh := 8 * s.pace f }
  else s

/-- The levels of a field (R354): VFEED as its causes stand, VAPP the lowest ceiling while the stage is on; the credit follows the pace. -/
def State.levels (s0 : State) (f : Nat) : State :=
  let s := s0.paceSync f
  let s1 := s.ezField (pwr f 0) 11 9 (s.vfeed f)
  let w := s1.ez (pwr f 0)
  let v := min (min (bits w 2 0) (bits w 5 3)) (min (bits w 8 6) (bits w 11 9))
  let on : Bool := decide ((s.field f).power = 2) || decide ((s.field f).power = 3)
  s1.ezField (pwr f 0) 14 12 (if on then v else 0)

/-- The levels of every field. -/
def State.allLevels (s : State) : State := (List.range nFields).foldl State.levels s

/-- A field's owner register, with the level and the pace of its governor (R369): none for a field with no owner. -/
def State.setFieldOwner (s : State) (f p : Nat) : State :=
  let w := if p < 8 then s.ez (pwrPart p 4) else 0
  let s1 := s.setField f ((s.field f).csrField 0x4 3 0 p)
  ((s1.ezField (pwr f 0) 8 6 (lowered (bits (s1.ez (pwr f 0)) 2 0) (bits w 10 8))).ezField (pwr f 0x10) 23 16 (bits w 7 0)).levels f

/-- Aborts of the partitions of XMASK with ACAUSE 3 (R360); the owner of the field learns that it is lost (Table 16.5). -/
def State.xmaskAbort (s : State) (f : Nat) : State :=
  let m := bits (s.ez (pwr f 4)) 15 8
  let s1 := (List.range nParts).foldl (fun s p => if m.testBit p then s.requestAbort p 3 else s) s
  if s.fieldOwner f < nParts then s1.post (s.fieldOwner f) (.hostAdvisory (s.fieldOwner f) 4 [f]) else s1

/-- A field test that runs is stopped (R460): RESULT 3. -/
def stopTest (x : Field) : Field := if bit (x.csrWord 0x20) 2 then (x.csrField 0x20 2 2 0).csrField 0x20 15 12 3 else x

/-- Fields whose running nodes a path of running nodes joins to a site node (R376): from the rim inward. -/
def lockable (run : Nat → Bool) : Nat → List Nat → List Nat
  | 0, l => l
  | n + 1, l =>
    let next := (List.range nFields).filter fun f =>
      run f && !l.contains f && l.any fun g =>
        (fieldX f = fieldX g && (fieldY f = fieldY g + 1 || fieldY g = fieldY f + 1)) ||
        (fieldY f = fieldY g && (fieldX f = fieldX g + 1 || fieldX g = fieldX f + 1))
    if next.isEmpty then l else lockable run n (l ++ next)

/-- The fields with a path to a site node. -/
def State.joined (s : State) : List Nat :=
  let run (f : Nat) : Bool := (s.field f).nodes
  lockable run 70 ((List.range nFields).filter fun f =>
    run f && (fieldX f = 0 || fieldX f = 9 || fieldY f = 0 || fieldY f = 6))

/-- The fuse of Table 1.5 in the Ezper block is blown, which disables the stage for good (R29): PREG_FUSEMAPn, which nothing writes,
shows it. FUSED of the summary says the same (log entry 55). -/
def State.fused (s : State) (f : Nat) : Bool :=
  bit (s.preg (0x80404 + 4 * (f / 32))) (f % 32) || bit (s.preg (0x80000 + 8 * f)) 7

/-- The nodes of a field start (R373, R376): they pull in, and every running node that a path joins is locked. Those of a fused field and of
one whose feed is absent stay stopped. -/
def State.startNodes (s : State) (f : Nat) : State :=
  if s.fused f || s.mod.pow.absent.contains (feedOf f) then s
  else
  let s1 := s.setField f { s.field f with nodes := true }
  let j := s1.joined
  if s.counting then
    (List.range nFields).foldl (fun s g => if (s.field g).nodes then s.setField g { s.field g with lock := j.contains g } else s) s1
  else s1

/-- A field whose lock is lost is lost to its partition (R376), and the steps of XMASK are aborted with ACAUSE 3. -/
def State.loseLock (s : State) (f : Nat) : State :=
  let x := s.field f
  if x.lock then
    let s1 := s.setField f { x with lock := false }
    if x.power = 2 then s1.xmaskAbort f else s1
  else s

/-- The nodes of a field stop (R376). -/
def State.stopNodes (s : State) (f : Nat) : State :=
  let s1 := (s.setField f { s.field f with nodes := false }).loseLock f
  let j := s1.joined
  (List.range nFields).foldl (fun s g => if (s.field g).lock && !j.contains g then s.loseLock g else s) s1

/-- The crossing buffers of a field that becomes a hole are disabled (R240): what they hold is discarded, on both sides of the seam. -/
def clearCross (f : Nat) (t : Nat) (x : Tile) : Tile :=
  let keeps (k : Nat) : Bool := match neighbour t (k / 16) with | some n => decide (fieldOf n ≠ f) | none => true
  { x with rtr := { x.rtr with
      cross := x.rtr.cross.filter fun e => keeps e.1
      redCross := x.rtr.redCross.filter fun e => keeps (16 * e.1) } }

/-- A field's stage goes off (R359, R366): POWER and OFFCAUSE are set, everything its tiles held is lost, with what a site still had to send
them; it is a hole, and it leaves the reserve, which the job service keeps powered (R39, R365). -/
def State.stageOff (s : State) (f power cause : Nat) (nodesStop : Bool) : State :=
  let x := stopTest (s.field f)
  let kept : Map Tile := (s.tiles.filter fun t => decide (fieldOf t.1 ≠ f)).map fun t => (t.1, clearCross f t.1 t.2)
  let sent (n : Site) : Site := { n with out := n.out.filter fun y => decide (2 ^ 20 ≤ y.1) || decide (fieldOf y.1 ≠ f) }
  let s1 : State := { s.setField f { x with power := power, routed := false, hot := false, cool := false, reserve := false, sensed := false, tested := false, kept := x.kept || x.reserve } with
    tiles := kept.filter fun t => decide (t.2 ≠ {}), sites := (s.sites.map fun n => (n.1, sent n.2)).filter fun n => decide (n.2 ≠ blankSite n.1) }
  let s2 := (((s1.ezField (pwr f 4) 7 4 cause).ezField (pwr f 0) 5 3 7).ezField (pwr f 0x10) 15 8 0).ezField (pwr f 8) 0 0 0
  (if nodesStop then s2.stopNodes f else s2).levels f

/-- A field goes dark (R360): its stage is off and the partitions of XMASK are aborted. -/
def State.goDark (s : State) (f power cause : Nat) : State := (s.stageOff f power cause true).xmaskAbort f

/-- The registers of a field's power block, as a record copies them (R443; log entry 159). -/
def State.powerRegs (s : State) (f : Nat) : List Word := [0, 4, 8, 0xC, 0x10].map fun o => s.ez (pwr f o)

/-- FUSE_OPEN (R355, R359, R365). -/
def State.fuseOpen (s : State) (f : Nat) (inj : Bool) : State :=
  let x := s.field f
  if x.power = 1 || x.power = 2 || x.power = 3 then
    let s1 := s.goDark f 4 4
    let s2 := s1.setField f { s1.field f with fuses := x.fuses ++ [s.now], retested := false }
    s2.raise { source := 0x0E, cls := if bits (s.ez (pwr f 4)) 15 8 = 0 then 4 else 1, loc := fieldLoc f, code := 4, inj := inj, detail := s2.powerRegs f }
  else s

/-- The Squalls of a field within 24 h. -/
def State.squallDay (s : State) (x : Field) : Nat := (x.squalls.filter fun t => decide (s.now.toNat < t.toNat + 86400000000000)).length

/-- A Squall (R358): the field drains, a drain that CMD 2 began ends in POWER 5, and a field still powering up is switched off. A third
within 24 h is reported, and the field stays off (R361). -/
def State.squall (s : State) (f cause : Nat) (inj : Bool) : State :=
  let x := s.field f
  if x.power = 1 || x.power = 2 || (x.power = 3 && x.drainTo ≠ 5) then
    let third : Bool := decide (2 ≤ s.squallDay x)
    let s0 := (s.setField f { x with power := 3, drainTo := 5, squalls := x.squalls ++ [s.now], squalled := true, barred := x.barred || third }).ezField (pwr f 4) 7 4 cause
    let s1 := if third then s0.post 8 (.notice 7 f) else s0
    let s2 := ((s1.ezField (pwr f 0) 5 3 0).ezField (pwr f 8) 1 0 3).levels f
    let s3 := s2.xmaskAbort f
    let s4 := if x.power = 1 then s3.stageOff f 5 cause true else s3
    s4.raise { source := 0x0F, cls := if bits (s.ez (pwr f 4)) 15 8 = 0 then 4 else 1, loc := fieldLoc f, code := cause, inj := inj, detail := s4.powerRegs f }
  else s

/-- EZ_INJ substitutes a reading of kind k for a target (R450). -/
def State.ezInj (s : State) (k target : Nat) : Option Nat :=
  let w := s.ez 0x7000
  if bit w 31 && bits w 30 27 = k && bits w 26 20 = target then some (bits w 15 0) else none

/-- The sensor readings of a field as injection and marks leave them (R356, R450). -/
def State.sensors (s : State) (f : Nat) (temps : List (Option Nat)) : List (Option Nat) :=
  let n := bits (s.ez 0x7000) 19 16
  (List.range 16).map fun i =>
    if (s.field f).marked.contains i || (n = i && (s.ezInj 3 f).isSome) then none
    else match (if n = i then s.ezInj 2 f else none) with
      | some v => some v
      | none => nth none temps i

/-- The throttle's ceiling and pace (R357): THR in PWR_FLD_TEMP follows them. -/
def State.throttle (s : State) (f vth tpace : Nat) : State :=
  ((((s.ezField (pwr f 0) 5 3 vth).ezField (pwr f 0x10) 15 8 tpace).ezField (pwr f 8) 0 0 (nb (vth < 7 || tpace ≠ 0))).levels f)

/-- FIELD_SENSOR_READING (R356 to R358). -/
def State.sensorReading (s : State) (f : Nat) (temps : List (Option Nat)) : State :=
  let l := s.sensors f temps
  let ninv := (l.filter Option.isNone).length
  let t := (l.filterMap id).foldl max 0
  let x := s.field f
  let inj := (s.ezInj 2 f).isSome || (s.ezInj 3 f).isSome
  let w := s.ez (pwr f 8)
  let s1 := s.ezPut (pwr f 8) (BitVec.ofNat 32 (max (bits w 31 24) (min t 255) * 2 ^ 24 + min t 255 * 2 ^ 16 + min ninv 15 * 2 ^ 12 +
    bits w 1 0))
  let calm : Bool := ninv = 0 && decide (t ≤ 70)
  let y := { x with
    sensorBad := (List.range 16).filter fun i => (nth none l i).isNone
    hot := decide (95 ≤ t)
    cool := decide (t ≤ 90)
    coolSince := if calm then some (x.coolSince.getD s.now) else none }
  let s2 := s1.setField f y
  if 2 ≤ ninv then s2.squall f 3 inj
  else if 110 ≤ t then s2.squall f 2 inj
  else if x.power = 2 && 95 ≤ t && !x.hot then
    (let s3 := (s2.throttle f (bits (s2.ez (pwr f 0)) 14 12 - 2) (bits (s2.ez (pwr f 0x10)) 15 8)).post 8 (.notice 1 f)
     if s.fieldOwner f < nParts then s3.post (s.fieldOwner f) (.hostAdvisory (s.fieldOwner f) 3 [f]) else s3)
  else s2

/-- THROTTLE_ESCALATE (R357): one more level, and from V0 the pace. -/
def State.throttleMore (s : State) (f : Nat) : State :=
  let x := s.field f
  let w := s.ez (pwr f 0)
  let pace := bits (s.ez (pwr f 0x10)) 15 8
  if x.power ≠ 2 || !x.hot then s
  else if bits w 14 12 ≠ 0 then s.throttle f (bits w 5 3 - 1) pace
  else s.throttle f (bits w 5 3) (if pace = 0 then 128 else max 16 (pace / 2))

/-- THROTTLE_RELEASE (R357): pacing first, then one level. -/
def State.throttleLess (s : State) (f : Nat) : State :=
  let x := s.field f
  let w := s.ez (pwr f 0)
  let pace := bits (s.ez (pwr f 0x10)) 15 8
  if x.power ≠ 2 || !x.cool then s
  else if pace ≠ 0 then s.throttle f (bits w 5 3) (if 128 ≤ pace then 0 else pace * 2)
  else s.throttle f (min 7 (bits w 5 3 + 1)) 0

/-- A write of CMD to PWR_FLD_CTL that the state of the field does not admit, with its ECODE (R365, Table 16.12): after a
Squall a field is powered up only once it has rested and the coolant is normal (R361); none is powered in recovery (R468). -/
def State.fieldCmdBad (s : State) (f cmd : Nat) : Option Nat :=
  let x := s.field f
  let rested : Bool := match x.coolSince with | some t => decide (t.toNat + 10000000000 ≤ s.now.toNat) | none => false
  if cmd = 1 then
    if s.mod.pow.absent.contains (feedOf f) || x.barred || s.mod.sec.recovery then some 0x4A
    else if (x.power = 0 || x.power = 5) && (!x.squalled || (rested && s.coolst = 0)) then none
    else some 0x4A
  else if cmd = 2 then (if !s.quiescent (s.fieldOwner f) then some 0x42 else if x.power = 2 then none else some 0x4A)
  else if x.power = 4 && !x.retested then none
  else some 0x4A

/-- Words of the tile map that a field's power-up checks: its entries, FSUM, FCRC. -/
def State.mapEntry (s : State) (f i : Nat) : Word := s.preg (4 * (1728 * f + i))
@[inherit_doc State.mapEntry] def State.mapSum (s : State) (f : Nat) : Word := s.preg (0x80000 + 8 * f)
@[inherit_doc State.mapEntry] def State.mapCrc (s : State) (f : Nat) : Word := s.preg (0x80004 + 8 * f)

/-- Entry i of a field accords with bypassed column b (R18, R24). -/
def entryOk (f b i : Nat) (w : Word) : Bool :=
  let c := i % 36
  let st := bits w 31 29
  bits w 23 16 = f &&
    (if c = b then st = 1 || st = 2 || st = 3
    else st = 0 && bits w 15 10 = (if c < b then c else c - 1) && bits w 9 4 = i / 36) && (st ≠ 1 || b = 35)

/-- The first word that fails the check of R24, by its offset in the store; none where the map is accepted. -/
def State.mapBad (s : State) (f : Nat) : Option Nat :=
  let sum := s.mapSum f
  let es := (List.range 1728).map (s.mapEntry f)
  let bad := (List.range 1728).find? fun i => !entryOk f (bits sum 5 0) i (nth 0 es i)
  match bad with
  | some i => some (4 * (1728 * f + i))
  | none =>
    if bit sum 7 || bit sum 6 || 36 ≤ bits sum 5 0 || bits sum 15 8 ≠ (es.filter fun w => bits w 31 29 = 2).length then
      some (0x80000 + 8 * f)
    else if s.mapCrc f ≠ entriesCrc es then some (0x80004 + 8 * f)
    else none

/-- A field's stored words as they stand: the map of those that differ from the factory's. -/
def State.fieldWords (s : State) (f : Nat) : Map Word :=
  s.mod.preg.filter fun e =>
    (decide (4 * 1728 * f ≤ e.1) && decide (e.1 < 4 * 1728 * (f + 1))) || e.1 = 0x80000 + 8 * f || e.1 = 0x80004 + 8 * f

/-- A persistent word written (R461, R462): `back` is what it reads back as, which counts beyond the rating of 1,000,000 writes. -/
def State.pregPut (s : State) (o : Nat) (v back : Word) : State :=
  let n := s.wear o + 1
  let s1 := s.updMod fun m => { m with
    preg := Map.set factoryWord m.preg o ((if 1000000 < n then back else v) &&& pregMask o)
    wear := Map.set (fun _ => 0) m.wear o (Map.get (fun _ => 0) m.wear o + 1) }
  if n = 900000 then s1.raise { source := 0x29, cls := 4, loc := feedLoc 2, addr := 0x7801000000 + o, detail := [BitVec.ofNat 32 n] } else s1

/-- Where the journal's word i of a field stands in the store: an entry, FSUM at 1728, FCRC at 1729. -/
def journalAt (f i : Nat) : Nat := if i < 1728 then 4 * (1728 * f + i) else 0x80000 + 8 * f + 4 * (i - 1728)

/-- Words that the journal records are written in order (R28). -/
def State.journalWrite (s : State) (f : Nat) (l : List MapWord) : State :=
  l.foldl (fun s w => s.pregPut (journalAt f w.idx) w.val w.val) s

/-- The change that the journal records is complete, or still to be completed. -/
def State.setJournal (s : State) (opened : Bool) : State := s.updMod fun m => { m with cc := { m.cc with journalOpen := opened } }

/-- A change that the loss of 52 V cut short is completed from the journal (R28). -/
def State.closeJournal (s : State) : State :=
  match s.mod.cc.journalField with
  | some f => if s.mod.cc.journalOpen then (s.journalWrite f s.mod.cc.journal).setJournal false else s
  | none => s

/-- A change of field f's map is journalled and written: entries, FSUM, FCRC (R28). MAPGEN counts it. `cut` words are written when the module
loses 52 V in the middle of it, all of them otherwise. The journal holds one field's change, so that one that it still holds is completed first
(log entry 149). -/
def State.writeMap (s0 : State) (f : Nat) (words0 : List MapWord) (bad byp : Nat) (retired : Bool) (cut : Option Nat := none) : State :=
  let s := s0.closeJournal
  let words := words0.map fun w => { w with val := w.val &&& pregMask (journalAt f w.idx) }
  let old := s.mapSum f
  let sum := BitVec.ofNat 32 (min 0xFFFF (bits old 31 16 + 1) * 2 ^ 16 + bad % 256 * 2 ^ 8 + bits old 7 7 * 2 ^ 7 +
    nb (bit old 6 || retired) * 2 ^ 6 + byp % 64)
  let after := (List.range 1728).map fun i =>
    match words.reverse.find? fun w => w.idx = i with | some w => w.val | none => s.mapEntry f i
  let all : List MapWord := words ++ [{ idx := 1728, val := sum }, { idx := 1729, val := entriesCrc after }]
  let s1 := s.updMod fun m => { m with cc := { m.cc with journal := all, journalField := some f, journalOpen := true } }
  match cut with
  | some n => if n < all.length then s1.journalWrite f (all.take n) else (s1.journalWrite f all).setJournal false
  | none => (s1.journalWrite f all).setJournal false

/-- A record of the root of trust (Table 18.4). -/
def State.rootRecord (s : State) (code : Nat) : State := s.raise { source := 0x2A, cls := 4, loc := feedLoc 2, code := code }

/-- The image that the factory left in both flash copies of a class (log entry 2). -/
def factoryImage (c : Nat) : Image :=
  { magic := 0x47494D48, cls := c, hdrVer := 1, commit := false, svn := 0, version := 1, key := if c = 6 then 2 else 0, digest := c + 1,
    steps := 3, sigOk := true }

/-- The image in copy `copy` of a class in flash. -/
def State.flash (s : State) (c copy : Nat) : Image :=
  match s.mod.sec.images.find? fun x => x.1 = 2 * c + copy with | some x => x.2 | none => factoryImage c

/-- PREG_ARBn (R423). -/
def State.arb (s : State) (c : Nat) : Word := s.preg (0x90000 + 4 * c)

/-- The image of a class verifies (R421, R422). -/
def State.verifies (s : State) (c : Nat) (i : Image) : Bool :=
  i.magic = 0x47494D48 && i.cls = c && i.hdrVer = 1 && (if c = 6 then i.key = 2 else (i.key = 1 || (i.key = 0 && !s.mod.revoke0))) &&
    (c = 6 || decide ((s.arb c).toNat ≤ i.svn)) && decide (i.steps < 4) && i.steps.testBit (nb s.mod.b0) && i.sigOk

/-- The copy of a class that verifies, the one to start first (R421, R423). -/
def State.goodCopy (s : State) (c : Nat) : Option Nat :=
  let a := Map.get (fun _ => 0) s.mod.sec.boot c
  if s.verifies c (s.flash c a) then some a
  else if s.verifies c (s.flash c (1 - a)) then some (1 - a)
  else none

/-- The factory's map of a field is restored from flash (R28): the class 6 image, once the root of trust has verified it (R421); where no copy
verifies, which is logged, the field stays off. -/
def State.restoreMap (s : State) (f : Nat) : State :=
  match s.goodCopy 6 with
  | none => s.rootRecord 0x16
  | some c =>
  let word (o : Nat) : Word := if (s.flash 6 c).digest = (factoryImage 6).digest then factoryWord o else Config.mapImage (s.flash 6 c).digest o
  let at_ (i : Nat) : Word := word (4 * (1728 * f + i))
  let words : List MapWord := ((List.range 1728).filter fun i => s.mapEntry f i ≠ at_ i).map fun i => { idx := i, val := at_ i }
  s.writeMap f words ((List.range 1728).filter fun i => bits (at_ i) 31 29 = 2).length (bits (word (0x80000 + 8 * f)) 5 0) false

/-- The field is left at POWER 0, where its nodes run (R373); it is no reserve field, which would be powered (R39). -/
def State.leaveDark (s : State) (f : Nat) (mapErr : Bool) : State :=
  (s.setField f { s.field f with power := 0, mapErr := mapErr, reserve := false, kept := false }).startNodes f

/-- TILE_MAP_CHECK (R24, R25): the stored map of a field that powers up is accepted, or the field is left unpowered; a fused or a retired field
is, without MAPERR. DETAIL of the record is empty (log entry 143). -/
def State.checkMap (s : State) (f : Nat) : State :=
  if s.fused f || bit (s.mapSum f) 6 then s.leaveDark f (s.field f).mapErr
  else
    match s.mapBad f with
    | none => s.setField f { s.field f with accepted := s.fieldWords f, mapErr := false }
    | some o => (s.leaveDark f true).raise { source := 0x22, cls := 4, loc := fieldLoc f, addr := 0x7801000000 + o }

/-- CMD 1 (R24, R28, R465): the map is checked first. Where it fails, the job service completes a change that the loss of 52 V cut short and
powers the field again, or restores the factory's map. The nodes of a field that comes from POWER 5 run again (R373). -/
def State.powerUp (s : State) (f : Nat) : State :=
  let on (s : State) : State :=
    let s1 := s.setField f { s.field f with power := 1 }
    (if (s.field f).power = 5 then s1.startNodes f else s1).checkMap f
  let s1 := on (s.ezField (pwr f 4) 7 4 0)
  if s.fused f || bit (s.mapSum f) 6 || (s.mapBad f).isNone || !s1.mod.cc.up then s1
  else if s1.mod.cc.journalOpen && s1.mod.cc.journalField = some f then on s1.closeJournal
  else s1.restoreMap f

/-- A command to PWR_FLD_CTL: 1 power up, 2 drain and power down, 3 fuse re-test (R362, R366, R465). -/
def State.fieldCmd (s : State) (f cmd : Nat) : State :=
  let x := s.field f
  match cmd with
  | 1 => s.powerUp f
  | 2 => (s.setField f { x with power := 3, drainTo := 0 }).ezField (pwr f 4) 7 4 1
  | 3 => s.setField f { x with retested := true }
  | _ => s

/-- In stage 5 fields are powered in groups of at most 10 for each feed (R465): a field may start in the present group, or start the next one when
no field of the half is powering up. -/
def State.groupOpen (s : State) (f : Nat) : Bool :=
  s.mod.stage ≠ 5 || (halfFields (feedOf f)).all (fun g => (s.field g).power ≠ 1) || decide (Map.get (fun _ => 0) s.mod.pow.group (feedOf f) < 10)

/-- The field counts in the group that it starts in. -/
def State.joinGroup (s : State) (f : Nat) : State :=
  if s.mod.stage ≠ 5 then s
  else
    let k := feedOf f
    let n := if (halfFields k).all fun g => (s.field g).power ≠ 1 then 1 else Map.get (fun _ => 0) s.mod.pow.group k + 1
    (s.setField f { s.field f with tried := true }).updMod fun m => { m with pow := { m.pow with group := Map.set (fun _ => 0) m.pow.group k n } }

/-- A command that the field admits. -/
def State.fieldCmdNext (s : State) (f cmd : Nat) : State := if cmd = 1 then (s.joinGroup f).fieldCmd f 1 else s.fieldCmd f cmd

/-- A write of CMD to PWR_FLD_CTL (R475): one that powers a field up at power-on waits for its group (R465). -/
def State.fieldCmdWrite (s : State) (priv : Bool) (f cmd : Nat) : State :=
  s.privileged priv (ezAddr (pwr f 4)) (fieldLoc f)
    (match s.fieldCmdBad f cmd with
    | some c => s.refuse (ezAddr (pwr f 4)) c (fieldLoc f)
    | none => if cmd = 1 && !s.groupOpen f then s else s.fieldCmdNext f cmd)

/-- Fewer fields are in the reserve than the administrator set (R39). -/
def State.reserveShort (s : State) : Bool :=
  decide (((List.range nFields).filter fun g => (s.field g).reserve).length < s.mod.cc.reserveCount)

/-- FIELD_READY (R465, Table 19.2): the steps after the map check, `microcode` whether class 4 verified and loaded, `lock` whether LOCK was set.
The map that the check accepted is applied (R26). A field that left the reserve with its power returns to it while it is short (R361). -/
def State.fieldReady (s : State) (f : Nat) (microcode lock : Bool) : State :=
  if (s.field f).power ≠ 1 then s
  else if s.mod.sec.recovery then s.leaveDark f false
  else if !(microcode && (Map.get (fun _ => (0, 0)) s.mod.sec.running 4).1 ≠ 0) then
    (s.leaveDark f false).raise { source := 0x2A, cls := 4, loc := fieldLoc f, detail := s.powerRegs f }
  else
    let s1 := s.startNodes f
    let x := s1.field f
    if !(lock && x.lock) then s1.setField f { x with power := 0, lock := false, reserve := false, kept := false }
    else
      let y := { x with
        power := 2, mapped := true, bypass := bits (Map.get factoryWord x.accepted (0x80000 + 8 * f)) 5 0,
        applied := x.accepted, routed := false, hot := false, cool := false, squalled := false, kept := false,
        reserve := x.reserve || (x.kept && s.fieldOwner f = 15 && !(x.retire || !x.respare.isEmpty) && s.reserveShort),
        csr := x.csr.filter fun e => decide (e.1 < 0x1000) && e.1 ≠ 0x10 }
      let s2 := { s1.setField f y with tiles := s1.tiles.filter fun t => fieldOf t.1 ≠ f }
      s2.levels f

/-- FIELD_DRAIN_COMPLETE and SQUALL_DRAIN_COMPLETE: a drain ends in the POWER it was for (R358, R366). -/
def State.drained (s : State) (f q : Nat) : State :=
  let x := s.field f
  if x.power = 3 && x.drainTo = q then s.stageOff f q (bits (s.ez (pwr f 4)) 7 4) (decide (q = 5)) else s

/-- FUSE_RETEST_COMPLETE (R362). -/
def State.retestDone (s : State) (f : Nat) (reached : Bool) : State :=
  let x := s.field f
  if x.power = 4 && x.retested then
    if reached then ((s.setField f { x with power := 0 }).ezField (pwr f 4) 7 4 0).startNodes f
    else s.raise { source := 0x0E, cls := 4, loc := fieldLoc f, code := 4, detail := s.powerRegs f }
  else s

/-- The coolant condition of a sample (Table 14.5); `slow` counts samples with flow below 10 L/min. -/
def coolRaw (tin flow slow : Nat) : Nat :=
  if 45 < tin || 100 ≤ slow then 3 else if 40 < tin || flow < 30 then 2 else if 35 < tin || flow < 40 then 1 else 0

/-- The coolant cap (Table 14.5; log entry 34 for COOLST 3). -/
def coolCap (c : Nat) : Nat := if c = 0 then 42000 else if c = 1 then 32000 else 20000

/-- ECAP (R363). -/
def State.setEcap (s : State) : State := s.ezField 0x20 31 16 (min (bits (s.ez 0x20) 15 0) (coolCap s.coolst))

/-- Every powered field whose owner is quiescent is drained and powered down (Table 14.5, COOLST 3). -/
def State.coolDown (s : State) : State :=
  (List.range nFields).foldl (fun s f => if (s.fieldCmdBad f 2).isNone then s.fieldCmd f 2 else s) s

/-- COOLANT_SAMPLE (R363): a higher COOLST at once, a lower one after 1 s (100 samples) in the lower condition. -/
def State.coolant (s : State) (tin0 tout0 flow0 : Nat) : State :=
  let tin := (s.ezInj 6 0).getD tin0
  let tout := (s.ezInj 6 1).getD tout0
  let flow := (s.ezInj 6 2).getD flow0
  let inj := (s.ezInj 6 0).isSome || (s.ezInj 6 1).isSome || (s.ezInj 6 2).isSome
  let m := s.mod.pow
  let slow := if flow < 10 then m.flowLow + 1 else 0
  let raw := coolRaw tin flow slow
  let old := s.coolst
  let held := if raw < old then m.coolHeld + 1 else 0
  let top := if raw < old then max (if m.coolHeld = 0 then 0 else m.coolMax) raw else 0
  let new := if old < raw then raw else if 100 ≤ held then top else old
  let s1 := (s.updMod fun x => { x with pow := { x.pow with
    flowLow := slow, coolHeld := if new = old then held else 0, coolMax := if new = old then top else 0 } }).ezPut 0x30
      (BitVec.ofNat 32 (min tin 255 * 2 ^ 24 + min tout 255 * 2 ^ 16 + min flow 255 * 2 ^ 8 + new))
  let s2 := s1.setEcap.allLevels
  if new = old then s2
  else
    let s3 := (s2.raise { source := 0x12, cls := 4, loc := feedLoc 2, code := new, inj := inj, detail := [s2.ez 0x20, s2.ez 0x30] }).post 8 (.notice 2 new)
    if new = 3 then ((List.range nParts).foldl (fun s p => s.requestAbort p 1) s3).coolDown else s3

/-- The pace one step tighter, one step looser (R369). -/
def paceDown (g : Nat) : Nat := if g = 0 then 128 else max 16 (g / 2)
@[inherit_doc paceDown] def paceUp (g : Nat) : Nat := if 128 ≤ g then 0 else g * 2

/-- The governor's levels and pace of a partition set at its fields (R369). -/
def State.setGov (s : State) (p glvl gpace : Nat) : State :=
  let s1 := s.ezPut (pwrPart p 4) (BitVec.ofNat 32 (glvl * 2 ^ 8 + gpace))
  (s.fieldsOf p).foldl (fun s f =>
    ((s.ezField (pwr f 0) 8 6 (lowered (bits (s.ez (pwr f 0)) 2 0) glvl)).ezField (pwr f 0x10) 23 16 gpace).levels f) s1

/-- The window of partition p that ends now (R368, R369). -/
def State.partWindow (s : State) (e : List Nat) (p : Nat) : State :=
  let mj := nth 0 e p
  let x := s.part p
  let cap := bits (s.ez (pwrPart p 0)) 15 0
  let tot := (s.ez (pwrPart p 0x14) ++ s.ez (pwrPart p 0x10)).toNat + mj
  let s1 := (((s.ezPut (pwrPart p 8) (BitVec.ofNat 32 mj)).ezPut (pwrPart p 0xC) (BitVec.ofNat 32 (s.now.toNat / 1000000 - 1))).ezPut
    (pwrPart p 0x10) (BitVec.ofNat 32 tot)).ezPut (pwrPart p 0x14) (BitVec.ofNat 32 (tot / 2 ^ 32))
  let glvl := bits (s.ez (pwrPart p 4)) 10 8
  let gpace := bits (s.ez (pwrPart p 4)) 7 0
  let all := x.ledger ++ [mj]
  let s2 := s1.setPart p { x with ledger := all.drop (all.length - 65536) }
  if !bit (s.ez (pwrPart p 0)) 31 then s2
  else if cap < mj then
    let floor_ := (s.fieldsOf p).all fun f => bits (s.ez (pwr f 0)) 14 12 = 0
    let s3 := s2.setPart p { s2.part p with under := 0, glvlSeen := true }
    if floor_ then s3.setGov p glvl (paceDown gpace) else s3.setGov p (min 7 (glvl + 1)) gpace
  else if mj * 10 ≤ cap * 9 then
    if x.under + 1 < 8 then s2.setPart p { s2.part p with under := x.under + 1 }
    else
      let s3 := s2.setPart p { s2.part p with under := 0 }
      if gpace ≠ 0 then s3.setGov p glvl (paceUp gpace) else s3.setGov p (glvl - 1) 0
  else s2.setPart p { s2.part p with under := 0 }

/-- Every powered field of a feed's half (0 and 1) or of the module (2) stands at V0. -/
def State.atFloor (s : State) (k : Nat) : Bool :=
  (List.range nFields).all fun f => !((s.field f).power = 2 || (s.field f).power = 3) || (k < 2 && feedOf f ≠ k) || bits (s.ez (pwr f 0)) 14 12 = 0

/-- The window of a feed or of the module (R370): it acts through VFEED, and takes no step once every powered field is at V0. -/
def State.capWindow (s : State) (k mj cap : Nat) : State :=
  let g := Map.get (fun _ => 0) s.mod.pow.gov k
  let u := Map.get (fun _ => 0) s.mod.pow.under k
  let set (g u : Nat) : State := s.updMod fun m => { m with pow := { m.pow with
    gov := Map.set (fun _ => 0) m.pow.gov k g, under := Map.set (fun _ => 0) m.pow.under k u } }
  if cap < mj then set (if s.atFloor k then g else min 7 (g + 1)) 0
  else if mj * 10 ≤ cap * 9 then (if u + 1 < 8 then set g (u + 1) else set (g - 1) 0)
  else set g 0

/-- STATE of a feed in its normal band: 4 while held at its LIMIT (Table 14.9). -/
def State.feedHeld (s : State) (k : Nat) : State :=
  let o := 0x10 * k
  if bits (s.ez o) 2 0 = 1 || bits (s.ez o) 2 0 = 4 then
    s.ezField o 2 0 (if Map.get (fun _ => 0) s.mod.pow.gov k = 0 then 1 else 4)
  else s

/-- A governor lowered a ceiling, so that running tests of kinds 1 to 3 stop (Table 14.7). -/
def State.stopTests (s : State) : State :=
  (List.range nFields).foldl (fun s f => if bits ((s.field f).csrWord 0x20) 27 24 ≤ 3 then s.setField f (stopTest (s.field f)) else s) s

/-- ENERGY_WINDOW_END (R368 to R370): the energies of the window in mJ. -/
def State.windowEnd (s : State) (a b m : Nat) (parts fields : List Nat) : State :=
  let s0 := s.updMod fun x => { x with pow := { x.pow with windows := (x.pow.windows ++ [m]).drop (x.pow.windows.length - 19) } }
  let s1 := ((s0.ezField 0x4 15 0 a).ezField 0x14 15 0 b).ezField 0x24 15 0 m
  let s2 := (List.range nFields).foldl (fun s f => s.ezField (pwr f 0xC) 15 0 (nth 0 fields f)) s1
  let s3 := (List.range nParts).foldl (fun s p => s.partWindow parts p) s2
  let s4 := ((s3.capWindow 0 a (bits (s.ez 0x8) 15 0)).capWindow 1 b (bits (s.ez 0x18) 15 0)).capWindow 2 m (bits (s.ez 0x20) 31 16)
  let s5 := ((s4.feedHeld 0).feedHeld 1).allLevels
  let lower := (List.range nFields).any fun f =>
    decide (bits (s5.ez (pwr f 0)) 11 9 < bits (s.ez (pwr f 0)) 11 9) || decide (bits (s5.ez (pwr f 0)) 8 6 < bits (s.ez (pwr f 0)) 8 6)
  if lower then s5.stopTests else s5

/-- PACING_TICK (R371, R375): every tile of a paced, locked field regains 8P of credit, up to 8P. -/
def State.pacingTick (s : State) : State :=
  let on (f : Nat) : Bool := (s.field f).lock && decide (s.pace f ≠ 0)
  let s1 := (List.range nFields).foldl (fun s f => if on f then s.setField f { s.field f with fresh := 8 * s.pace f } else s) s
  s1.tiles.foldl (fun s e =>
    let full := 8 * s.pace (fieldOf e.1)
    match (s.tile e.1).credit with
    | none => s
    | some c =>
      if on (fieldOf e.1) then s.setTile e.1 { s.tile e.1 with credit := if 0 ≤ c then none else some (min (c + full) full) } else s) s1

/-- CIR_SET (R464): the first lock, from stage 4 on, before which nothing counts; later writes are refused. -/
def State.cirSet (s : State) (priv : Bool) (v : DWord) : State :=
  s.privileged priv (ezAddr 0x3008) (feedLoc 2)
    (if s.mod.firstLock || s.mod.stage < 4 || s.mod.stage = 7 then s.refuse (ezAddr 0x3008) 0x4A (feedLoc 2)
    else
      let s1 := { s.updMod fun m => { m with firstLock := true } with now := v, counting := true }
      let j := s1.joined
      (List.range nFields).foldl (fun s f =>
        if (s.field f).nodes then s.setField f { s.field f with lock := j.contains f } else s) s1)

/-- The phase errors of a field over the last millisecond, and the largest of them (PERR of Table 14.12). -/
def State.phasesNow (s : State) (f : Nat) : List (DWord × Nat) := (s.field f).phases.filter fun x => decide (s.now.toNat < x.1.toNat + 1000000)
@[inherit_doc State.phasesNow] def State.perr (s : State) (f : Nat) : Nat := min 255 (((s.phasesNow f).map (·.2)).foldl max 0)

/-- CIRRUS_PHASE_LOSS (R377): the phase error of a node of field f, in 0.1 ns. -/
def State.phaseLoss (s : State) (f perr0 : Nat) : State :=
  let perr := (s.ezInj 5 f).getD perr0
  let x := s.field f
  let y := { x with phases := s.phasesNow f ++ [(s.now, perr)] }
  if perr ≤ 10 then s.setField f y
  else
    ((s.ezField (0x3100 + 4 * f) 1 1 1).setField f { y with losses := x.losses ++ [s.now] }).raise
      { source := 0x11, cls := 4, loc := fieldLoc f, code := min perr 255, inj := (s.ezInj 5 f).isSome }

/-- A command on one field; a change of its level is reported with the guarantee that follows (R367). -/
def State.fieldDo (s : State) (f : Nat) (k : State) : Host.Outcome State Fault Refusal := s.checked (decide (f < nFields)) k.reportGuar

/-- FIELD_SENSOR_READING (R356). -/
def execFieldSensorReading (f : Nat) (temps : List (Option Nat)) (s : State) : Host.Outcome State Fault Refusal :=
  s.checked (decide (f < nFields) && decide (temps.length = 16)) (s.sensorReading f temps).reportGuar

/-- THROTTLE_ESCALATE (R357). -/
def execThrottleEscalate (f : Nat) (s : State) : Host.Outcome State Fault Refusal := s.fieldDo f (s.throttleMore f)

/-- THROTTLE_RELEASE (R357). -/
def execThrottleRelease (f : Nat) (s : State) : Host.Outcome State Fault Refusal := s.fieldDo f (s.throttleLess f)

/-- SQUALL_DRAIN_COMPLETE (R358). -/
def execSquallDrainComplete (f : Nat) (s : State) : Host.Outcome State Fault Refusal := s.fieldDo f (s.drained f 5)

/-- FUSE_OPEN (R359). -/
def execFuseOpen (f : Nat) (s : State) : Host.Outcome State Fault Refusal := s.fieldDo f (s.fuseOpen f false)

/-- FIELD_POWER_UP (R465). -/
def execFieldPowerUp (priv : Bool) (f : Nat) (s : State) : Host.Outcome State Fault Refusal := s.fieldDo f (s.fieldCmdWrite priv f 1)

/-- FIELD_POWER_DOWN (R366). -/
def execFieldPowerDown (priv : Bool) (f : Nat) (s : State) : Host.Outcome State Fault Refusal := s.fieldDo f (s.fieldCmdWrite priv f 2)

/-- FIELD_DRAIN_COMPLETE (R366). -/
def execFieldDrainComplete (f : Nat) (s : State) : Host.Outcome State Fault Refusal := s.fieldDo f (s.drained f 0)

/-- FUSE_RETEST (R362). -/
def execFuseRetest (priv : Bool) (f : Nat) (s : State) : Host.Outcome State Fault Refusal := s.fieldDo f (s.fieldCmdWrite priv f 3)

/-- FUSE_RETEST_COMPLETE (R362). -/
def execFuseRetestComplete (f : Nat) (reached : Bool) (s : State) : Host.Outcome State Fault Refusal :=
  s.fieldDo f (s.retestDone f reached)

/-- COOLANT_SAMPLE (R363). -/
def execCoolantSample (tin tout flow : Nat) (s : State) : Host.Outcome State Fault Refusal := .next (s.coolant tin tout flow).reportGuar

/-- ENERGY_WINDOW_END (R369). -/
def execEnergyWindowEnd (feedA feedB module_ : Nat) (parts fields : List Nat) (s : State) : Host.Outcome State Fault Refusal :=
  s.checked (decide (parts.length = 8) && decide (fields.length = 70)) (s.windowEnd feedA feedB module_ parts fields).reportGuar

/-- PACING_TICK (R375). -/
def execPacingTick (s : State) : Host.Outcome State Fault Refusal := .next s.pacingTick

/-- CIR_SET (R464). -/
def execCirSet (priv : Bool) (v : DWord) (s : State) : Host.Outcome State Fault Refusal := .next (s.cirSet priv v)

/-- CIRRUS_PHASE_LOSS (R377). -/
def execCirrusPhaseLoss (f perr : Nat) (s : State) : Host.Outcome State Fault Refusal := s.fieldDo f (s.phaseLoss f perr)

/-- CIRRUS_NODE_STOP (R376). -/
def execCirrusNodeStop (f : Nat) (s : State) : Host.Outcome State Fault Refusal := s.fieldDo f (s.stopNodes f)

end Sys2Proof.Machine
end

