-- ==== Sys2Proof/Machine/Routes.lean ====
section
/-!
DEFINITION. Field routing: route tables, epoch swaps, unreachable fields, XMASK and the way to the tile windows (R35 to R37, R226 to
R229, R360).
-/

namespace Sys2Proof.Machine

/-- FLD_RT_ENTRY of field f for field d (Table 8.9, R228): `live` the fields that have routes, `l` the hops to d. -/
def State.routeEntry (s : State) (live : List Nat) (r : RouteSet) (l : List Nat) (f d : Nat) : Word :=
  let owned : Bool := decide (s.fieldOwner d < 8)
  let own := nb (owned && decide (s.fieldOwner d = s.fieldOwner f))
  let there : Bool := live.contains d && live.contains f && f ≠ d && decide (nth noPath l f < noPath)
  let dir (cls : Nat) : Nat := if f = d then 0 else if there then routeDir r cls f d else 15
  let vc := if !there then 0 else if owned then 0x3F else 0x0F
  BitVec.ofNat 32 (vc * 2 ^ 20 + dir 1 * 2 ^ 16 + dir 0 * 2 ^ 12 + own * 2 ^ 11)

/-- ACTIVE is written (R227, R229): the bank for new injections, and ROUTED of a field that is on. -/
def State.setActive (s : State) (f bank : Nat) : State :=
  let x := s.field f
  s.setField f { x.csrField 0x10 0 0 bank with routed := x.routed || decide (x.power = 2) }

/-- XMASK of every field (R360): its owner, and the partitions whose routes cross it by the loaded tables: those of the epoch in force and,
while it holds flits, those of the other. -/
def State.putXmask (s : State) : State :=
  let live := s.onFields
  let old := s.anyOld
  let cross (p : Nat) : List Nat :=
    s.crossed live (s.bankSet s.epochBank) p ++ (if old then s.crossed live (s.bankSet (1 - s.epochBank)) p else [])
  let all := (List.range nParts).map cross
  (List.range nFields).foldl (fun s f =>
    let ps := (List.range nParts).filter fun p => s.fieldOwner f = p || (nth [] all p).contains f
    s.ezField (pwr f 4) 15 8 (ps.map fun p => 2 ^ p).sum) s

/-- Flits that some field's routers still hold (R229). -/
def State.flitsLeft (s : State) : Bool := s.tiles.any fun t => (t.2.rtr.bufs ++ t.2.rtr.cross).any fun b => !b.2.isEmpty

/-- ACTIVE is written in every field that is on, and held injection is let go (R229). -/
def State.finishSwap (s : State) : State :=
  let bank := 1 - s.epochBank
  let s1 := s.onFields.foldl (fun s f => s.setActive f bank) s
  let s2 := (List.range nParts).foldl (fun s p => if (s.part p).hold then s.setPart p { s.part p with hold := false } else s) s1
  ((s2.updMod fun m => { m with cc := { m.cc with swap := false } }).putXmask).reportGuar

/-- The swap that waits for the flits of the tables in force is finished once none is left (R229). -/
def State.heldSwap (s : State) : State := if s.mod.cc.swap && !s.flitsLeft then s.finishSwap else s

/-- A field that can no longer be reached is lost to its partition as one switched off for heat is: XMASK is aborted (R37, R360). -/
def State.setUnreach (s : State) (f : Nat) (lost : Bool) : State :=
  let x := s.field f
  let s1 := s.setField f { x with unreach := lost }
  if lost && !x.unreach then s1.xmaskAbort f else s1

/-- The old and the new set together allow a cycle of waits (R229). -/
def State.swapCycles (s : State) (live : List Nat) (r : RouteSet) : Bool :=
  let old := s.bankSet s.epochBank
  [0, 1].any fun cls => !waitFree (bothWaits (waitsOf live old cls) (waitsOf live r cls))

/-- The partitions whose routes a new set changes (R229). -/
def State.routesChange (s : State) (live : List Nat) (r : RouteSet) (p : Nat) : Bool :=
  decide (s.partRoutes live (s.bankSet s.epochBank) p ≠ s.partRoutes live r p)

/-- The tables of the set are written into the inactive bank, with CSITE (R228, R229). -/
def State.loadTables (s : State) (kept main : List Nat) (r : RouteSet) : State :=
  let bank := 1 - s.epochBank
  let hops := allHops kept
  s.onFields.foldl (fun s f =>
    let x := s.field f
    let y := (List.range nFields).foldl (fun x d => x.csrPut (0x1000 + 0x400 * bank + 4 * d) (s.routeEntry kept r (nth [] hops d) f d)) x
    s.setField f (y.csrField 0x14 5 0 ((csiteFor main).getD 0))) s

/-- ROUTE_RECOMPUTE (R35, R37, R228, R229): tables, CSITE, ACTIVE, unreachable fields and XMASK for the set of holes as it stands;
it waits while a flit of the other epoch is left, or a swap is held. -/
def State.reroute (s : State) : State :=
  if s.anyOld || s.mod.cc.swap then s.putXmask.heldSwap
  else
    match s.routeSet with
    | (kept, r) =>
      let main := mainGroup kept
      let s1 := (List.range nFields).foldl (fun s f => s.setUnreach f (decide ((s.field f).power = 2) && !main.contains f)) s
      let s2 := s1.loadTables kept main r
      if s1.swapCycles kept r then
        let s3 := (List.range nParts).foldl (fun t p =>
          if s1.routesChange kept r p then t.setPart p { t.part p with hold := true } else t) s2
        (s3.updMod fun m => { m with cc := { m.cc with swap := true } }).putXmask.heldSwap
      else s2.finishSwap

/-- The wafer bridge sends flits to the tile windows of a field: ROUTED stands there and in the field of its CSITE edge tile (R227). -/
def State.reachable (s : State) (f : Nat) : Bool :=
  (s.field f).routed && (s.field (fieldOf (s.csiteTile f))).routed

/-- The way of a CTL, ACK or ERR flit from a router to its end over the loaded tables: the ECODE with which a router stops it, or none. -/
def State.wayEnds (s : State) : Nat → Nat → Flit → Option Nat
  | 0, _, _ => some 0x01
  | n + 1, t, f =>
    match s.nextPort t f with
    | .respond c => some c
    | .port p =>
      if t = f.dest then none
      else match neighbour t p with
        | some u => s.wayEnds n u f
        | none => some 0x01

/-- The ECODE that answers an access to a tile window before the tile sees it: 0x48 while ROUTED is missing (R227), else what a router answers its
CTL flit from the edge tile of CSITE (R36). -/
def State.ctlCode (s : State) (t : Nat) : Option Nat :=
  let f := fieldOf t
  if !s.reachable f then some 0x48
  else
    let edge := s.csiteTile f
    let site := bits ((s.field f).csrWord 0x14) 5 0
    s.wayEnds nTiles edge
      { vc := 0, cls := nb (site / 12 % 2 = 0), ep := s.activeBank (fieldOf edge), dest := t, body := .ctl site 0x1FFFF 0 false }

/-- The tile's answer reaches the edge tile of CSITE (R227); one that does not is dropped (R36). -/
def State.ctlReturns (s : State) (t : Nat) : Bool :=
  let f := fieldOf t
  let site := bits ((s.field f).csrWord 0x14) 5 0
  (s.wayEnds nTiles t
    { vc := 0, cls := nb (site / 12 % 2 = 1), ep := s.activeBank f, dest := s.csiteTile f, body := .ctl site t 2 true }).isNone

/-- A site die's answer to an event of tile t reaches it from the edge tile of CSITE. -/
def State.eventAnswered (s : State) (t : Nat) : Bool :=
  let edge := s.csiteTile (fieldOf t)
  let site := bits ((s.field (fieldOf t)).csrWord 0x14) 5 0
  (s.wayEnds nTiles edge { vc := 0, cls := nb (site / 12 % 2 = 0), ep := s.activeBank (fieldOf edge), dest := t, body := .ack 0 0 false }).isNone

/-- The message answers an access. -/
def isAnswer (m : Msg) : Bool := match m with | .refused _ _ => true | .readData _ _ => true | .windowDone _ => true | _ => false

/-- An access to a tile window (R27, R227): a CTL flit through the site of the field's CSITE, and its answer. -/
def State.tileAccess (s : State) (priv : Bool) (t off : Nat) (k : State) : State :=
  s.privileged priv (tileAddr t off) t
    (match s.ctlCode t with
    | some c => s.refuse (tileAddr t off) c t
    | none =>
      if s.ctlReturns t then k
      else { k with outbox := k.outbox.take s.outbox.length ++ (k.outbox.drop s.outbox.length).filter fun m => !isAnswer m })

/-- A write of a route table entry (R226): the bank that ACTIVE selects refuses it; entries 0x46 and above ignore it; it is refused while a
flit travels by the bank. -/
def State.entryWrite (s : State) (priv : Bool) (f bank d : Nat) (v : Word) : State :=
  let o := 0x1000 + 0x400 * bank + 4 * d
  let ok (x : Nat) : Bool := decide (x ≤ 4) || x = 15
  s.privileged priv (fieldAddr f o) (fieldLoc f)
    (if bank = s.activeBank f then s.refuse (fieldAddr f o) 0x06 (fieldLoc f)
    else if 0x46 ≤ d then s
    else if s.anyOld then s.refuse (fieldAddr f o) 0x4A (fieldLoc f)
    else if !(ok (bits v 19 16) && ok (bits v 15 12)) then s.refuse (fieldAddr f o) 0x49 (fieldLoc f)
    else s.setField f ((s.field f).csrPut o (v &&& 0x03FFF800)))

/-- The job service keeps XMASK (R360). -/
def State.xmasks (s : State) : State := if s.mod.cc.up then s.putXmask else s

/-- A write of FLD_RT_EPOCH (R229). -/
def State.epochWrite (s : State) (priv : Bool) (f : Nat) (v : Word) : State :=
  s.privileged priv (fieldAddr f 0x10) (fieldLoc f) (s.setActive f (bits v 0 0)).xmasks

/-- ROUTE_ENTRY_WRITE (R226). -/
def execRouteEntryWrite (priv : Bool) (f bank d : Nat) (v : Word) (s : State) : Host.Outcome State Fault Refusal :=
  s.checked (decide (f < nFields) && decide (bank < 2) && decide (d < 256)) (s.entryWrite priv f bank d v)

/-- EPOCH_SWAP (R229). -/
def execEpochSwap (priv : Bool) (f : Nat) (v : Word) (s : State) : Host.Outcome State Fault Refusal :=
  s.checked (decide (f < nFields)) (s.epochWrite priv f v)

/-- ROUTE_RECOMPUTE (R35). -/
def execRouteRecompute (s : State) : Host.Outcome State Fault Refusal := .next (if s.mod.cc.up then s.reroute else s)

end Sys2Proof.Machine
end

