-- ==== Sys2Proof/Machine/Job.lean ====
section
/-!
DEFINITION. The messages of the job service (R404 to R408, R413): manifests, runs and what a host may ask of its partition.
-/

namespace Sys2Proof.Machine

/-- A message that names another partition than its sender's is refused and logged (R406, R412). -/
def State.wrongPart (s : State) (tag p : Nat) : State :=
  (s.say (.hostRefused tag p 2 0 0 0)).raise { source := 0x24, cls := 3, loc := partLoc (min 15 p), code := 0x44 }

/-- The Halo port of a session carries its messages: it is in Ethernet mode and up, or the session came over a management port (R406). -/
def State.carries (s : State) (x : Session) : Bool :=
  match x.port with
  | none => true
  | some q => (s.port q).ether && (s.port q).state = 2

/-- The session is bound to partition p; one over a Halo port while p owns the port (R406). -/
def State.bound (s : State) (x : Session) (p : Nat) : Bool :=
  x.part = p && (match x.port with | none => true | some q => s.portOwner q = p)

/-- A message of a host (R406): it meets an open session, whose partition it must name; nothing answers while the control complex
restarts, and over a Halo port that is down nothing comes. -/
def State.message (s : State) (h : Hdr) (k : State) : State :=
  if !s.mod.cc.up then s
  else
    match s.mod.cc.sessions.find? fun x => x.id = h.session with
    | none => s
    | some x => if !s.carries x then s else if !s.bound x h.part then s.wrongPart h.tag h.part else k

/-- The binary has tiles in its field fb. -/
def Binary.usesField (b : Binary) (fb : Nat) : Bool :=
  b.places.any fun p => decide (p.x0 / 35 ≤ fieldX fb) && decide (fieldX fb ≤ p.x1 / 35) && decide (p.y0 / 48 ≤ fieldY fb) &&
    decide (fieldY fb ≤ p.y1 / 48)

/-- Wafer fields that a binary runs on under a field map. -/
def mappedFields (b : Binary) (fmap : List Nat) : List Nat :=
  ((List.range nFields).filter b.usesField).map fun fb => nth 255 fmap fb

/-- PART_STATUS (Table 16.2). -/
def State.partStatus (s : State) (p : Nat) : Word :=
  BitVec.ofNat 32 ((s.part p).acause * 2 ^ 24 + nb (s.quiescent p) * 2 ^ 8 + (s.part p).state)

/-- The last n windows of a ledger (R408). -/
def lastWindows (n : Nat) (l : List Nat) : List Nat := l.drop (l.length - n)

/-- The answer STATUS (Table 16.5): PART_STATUS, Pavane state, the last 64 windows, broken ring links (R382) and units reported
(R441). -/
def State.statusMsg (s : State) (p tag : Nat) : Msg :=
  let d := s.dsite p
  .hostStatus tag p (s.partStatus p) ((s.site d).csrWord 0x624) (lastWindows 64 (s.part p).ledger) s.mod.ring
    ((s.sitesOf p).flatMap fun n => (s.site n).m.reported.map fun u => n * 2 ^ 34 + u)
    ((s.sitesOf p).any fun n => !ringReach s.mod.ring d n)

/-- The step record as it stands at DSITE (Table 11.10). -/
def State.stepRecord (s : State) (p : Nat) : StepRec :=
  let x := s.site (s.dsite p)
  let l := x.bytes (256 * bits (x.csrWord 0x650) 27 0) 256
  { step := numAt l 0 4, outcome := numAt l 4 1, epoch := numAt l 5 1, escale := numAt l 6 1, cause := numAt l 7 1,
    nsq := BitVec.ofNat 64 (numAt l 8 8), clip := BitVec.ofNat 32 (numAt l 0x10 4), clag := BitVec.ofNat 32 (numAt l 0x14 4),
    clean := numAt l 0x18 4, time := BitVec.ofNat 64 (numAt l 0x20 8) }

/-- An invocation of the partition is in progress (R410): its step is armed, or its tiles have not all ended. -/
def Part.busy (q : Part) : Bool := q.wdog || q.step

/-- A run that waits between invocations ends where it is over: STATE 3 becomes 2. -/
def State.settleRun (s : State) (p : Nat) : State :=
  let q := s.part p
  match q.run with
  | some r => if r.over && !q.busy && q.state ≠ 4 then s.setPart p { q with run := none, state := if q.state = 3 then 2 else q.state } else s
  | none => s

/-- The stepping a binary is tuned for is another than the module's (Table 6.14). -/
def tunedElse (b0 : Bool) (b : Binary) : Bool := (b.tuned = 1 && b0) || (b.tuned = 2 && !b0)

/-- SUBMIT (R405, R426): refused for the first check of Table 16.6 that fails, and before the module is ready (R467); accepted, MSEQ is
written, high word first, and loading begins. -/
def State.submit (s : State) (p tag : Nat) (m : Manifest) : State :=
  if !s.mod.ready then s.say (.hostRefused tag p 0x0B 0 0 0)
  else
    match s.manifestBad p m with
    | some (r, c, k, i) => s.say (.hostRefused tag p r c k i)
    | none =>
      let bins := (s.readBins p m).filterMap id
      let hi := BitVec.ofNat 32 (m.mseq / 2 ^ 32)
      let lo := BitVec.ofNat 32 m.mseq
      let s1 := (s.pregPut (0x90104 + 8 * p) hi hi).pregPut (0x90100 + 8 * p) lo lo
      let s2 := s1.setPart p { s1.part p with state := 5, job := some m, bins := bins, run := none, loadTag := tag }
      if bins.any (tunedElse s.mod.b0) then s2.raise { source := Config.recordSource 0, cls := 4, loc := partLoc p } else s2

/-- The tile windows of a field can be reached, so that work is placed on it (R465). -/
def State.windowsUp (s : State) (f : Nat) : Bool := s.live f && s.reachable f

/-- LOADED (R405): the windows of every field that the binaries run on can be reached; everything is written, STATE is 2 and the host learns the digests, the placement and the guarantee. -/
def State.loaded (s : State) (p : Nat) : State :=
  let q := s.part p
  match q.job with
  | none => s
  | some m =>
    let fmap := if m.fmap.isEmpty then List.range nFields else m.fmap
    if q.state ≠ 5 || !s.mod.cc.up || !(q.bins.all fun b => (mappedFields b fmap).all s.windowsUp) then s
    else
      let s1 := s.loadManifest p m q.bins
      (s1.setPart p { s1.part p with
        state := 2, fmap := fmap, run := none, phase := 0, rollouts := 0, exportDue := false, defers := 0, srateUp := 0, fails := 0,
        waiting := false, release := false }).say (.hostLoaded q.loadTag p (m.bins.map (·.digest)) fmap (s1.guarantee p))

/-- RUN (R407). -/
def State.runMsg (s : State) (p tag : Nat) (r : RunReq) : State :=
  let q := s.part p
  if q.state = 2 && q.job.isSome && q.run.isNone && decide (r.bin < q.bins.length) then
    (s.setPart p { q with run := some { req := r }, state := 3, fails := 0, waiting := false }).say (.hostAccepted tag p (q.inv + 1))
  else s.say (.hostRefused tag p 0x0B 0 0 0)

/-- HALT (R407): the run stops after the running step. -/
def State.haltRun (s : State) (p : Nat) : State :=
  let q := s.part p
  (s.setPart p { q with run := q.run.map fun r => { r with halt := true } }).settleRun p

/-- ABORT (R413): a quiescent partition stays as it is and answers at once; a load is stopped, and its partition is quiescent. -/
def State.abortMsg (s : State) (p tag : Nat) : State :=
  let q := s.part p
  let now (s : State) : State := s.say (.hostAborted tag p (s.part p).acause (s.part p).state (s.stepRecord p))
  if q.state = 5 then now (s.requestAbort p 1)
  else if s.quiescent p && q.state ≠ 4 then now s
  else
    let s1 := s.requestAbort p 1
    s1.setPart p { s1.part p with atags := (s1.part p).atags ++ [tag] }

/-- TAINT (R320): the job service writes CMD 2 or 3 at DSITE. -/
def State.taintMsg (s : State) (p : Nat) (halve : Bool) : State :=
  let d := s.dsite p
  if nSites ≤ d then s else s.siteWrite true d 0x620 (if halve then 2 else 3)

/-- Sites of the partition whose export list has entries. -/
def State.exporters (s : State) (p : Nat) : List Nat := (s.sitesOf p).filter fun n => bits ((s.site n).csrWord 0x664) 19 0 ≠ 0

/-- The export that is due starts (R331). -/
def State.exportStart (s : State) (p : Nat) : State :=
  let s1 := (s.exporters p).foldl (fun s n => s.siteWrite true n 0x66C 1) s
  s1.setPart p { s1.part p with exportDue := false, defers := 0 }

/-- Energy of the last 20 windows: 20 times the mean power in W (R372). -/
def State.mean20 (s : State) (p : Nat) : Nat := (lastWindows 20 (s.part p).ledger).sum

/-- EN and CAP of PWR_PART_CAP. -/
def State.capOn (s : State) (p : Nat) : Bool := bit (s.ez (pwrPart p 0)) 31
@[inherit_doc State.capOn] def State.capNow (s : State) (p : Nat) : Nat := bits (s.ez (pwrPart p 0)) 15 0

/-- A step boundary with an export due (Table 14.7): it starts, or is deferred. -/
def State.exportBoundary (s : State) (p : Nat) (m : Manifest) : State :=
  let q := s.part p
  let w := if m.expW = 0 then 1200 else m.expW
  let most := if m.expDefer = 0 then 8 else m.expDefer
  if !q.exportDue then s
  else if !s.capOn p || decide (s.mean20 p + 20 * w ≤ 20 * s.capNow p) || decide (most ≤ q.defers) then s.exportStart p
  else s.setPart p { q with defers := q.defers + 1 }

/-- EXPORT: an export is due at the next step boundary; with no run it starts at once. -/
def State.exportMsg (s : State) (p tag : Nat) : State :=
  let s1 := s.setPart p { s.part p with exportDue := true, expTag := tag }
  if (s.part p).run.isSome then s1 else s1.exportStart p

/-- The job is unloaded: STATE 1, or 6 where the partition is disabled (R406, R415). -/
def State.unload (s : State) (p : Nat) : State :=
  let q := s.part p
  s.setPart p { q with
    job := none, bins := [], fmap := [], run := none, state := if q.state = 6 then 6 else 1, phase := 0, rollouts := 0, exportDue := false,
    defers := 0, srateUp := 0, fails := 0, waiting := false, release := false }

/-- A job to release is unloaded once its partition is quiescent (R406). -/
def State.releaseNow (s : State) (p : Nat) : State :=
  let q := s.part p
  if q.release && q.state ≠ 3 && q.state ≠ 4 && q.state ≠ 5 && s.quiescent p then s.unload p else s

/-- RELEASE (R406). -/
def State.releaseMsg (s : State) (p : Nat) : State :=
  let s1 := s.haltRun p
  if (s1.part p).job.isSome then (s1.setPart p { s1.part p with release := true }).releaseNow p else s1

/-- CAP (R369, Table 16.5). -/
def State.capMsg (s : State) (p tag cap : Nat) : State :=
  let c := s.capFor p cap
  if c < s.capFloor p then s.say (.hostRefused tag p 9 0 0 0)
  else
    let s1 := s.ezField (pwrPart p 0) 15 0 c
    s1.say (s1.statusMsg p tag)

/-- PUT (R404): data is written to memory of the partition. -/
def State.putMsg (s : State) (p tag a : Nat) (l : List Byte) : State :=
  if 2 ^ 20 < l.length + 8 then s.say (.hostRefused tag p 9 0 0 0)
  else if !s.holds p a l.length then
    (s.say (.hostRefused tag p 3 0 0 0)).raise { source := 0x24, cls := 3, loc := partLoc p, code := 0x10, addr := a }
  else
    let s1 := s.memPut a l
    s1.say (s1.statusMsg p tag)

/-- SUBMIT (R405). -/
def execSubmit (h : Hdr) (m : Manifest) (s : State) : Host.Outcome State Fault Refusal := .next (s.message h (s.submit h.part h.tag m))

/-- LOADED (R405). -/
def execLoaded (p : Nat) (s : State) : Host.Outcome State Fault Refusal := s.checked (decide (p < nParts)) (s.loaded p)

/-- RUN (R407). -/
def execRun (h : Hdr) (r : RunReq) (s : State) : Host.Outcome State Fault Refusal := .next (s.message h (s.runMsg h.part h.tag r))

/-- HALT (R407): answered with STATUS. -/
def execHalt (h : Hdr) (s : State) : Host.Outcome State Fault Refusal :=
  .next (s.message h (let s1 := s.haltRun h.part; s1.say (s1.statusMsg h.part h.tag)))

/-- ABORT (R413). -/
def execAbort (h : Hdr) (s : State) : Host.Outcome State Fault Refusal := .next (s.message h (s.abortMsg h.part h.tag))

/-- TAINT (R320): answered with STATUS. -/
def execTaint (h : Hdr) (halve : Bool) (s : State) : Host.Outcome State Fault Refusal :=
  .next (s.message h (let s1 := s.taintMsg h.part halve; s1.say (s1.statusMsg h.part h.tag)))

/-- EXPORT (R331, R372). -/
def execExportMsg (h : Hdr) (s : State) : Host.Outcome State Fault Refusal := .next (s.message h (s.exportMsg h.part h.tag))

/-- STATUS (R406). -/
def execStatus (h : Hdr) (s : State) : Host.Outcome State Fault Refusal := .next (s.message h (s.say (s.statusMsg h.part h.tag)))

/-- RELEASE (R406). -/
def execRelease (h : Hdr) (s : State) : Host.Outcome State Fault Refusal := .next (s.message h (s.releaseMsg h.part))

/-- CAP (R369). -/
def execCap (h : Hdr) (cap : Nat) (s : State) : Host.Outcome State Fault Refusal := .next (s.message h (s.capMsg h.part h.tag cap))

/-- PUT (R404). -/
def execPut (h : Hdr) (addr : Nat) (data : List Byte) (s : State) : Host.Outcome State Fault Refusal :=
  .next (s.message h (s.putMsg h.part h.tag addr data))

/-- HOST_SESSION_OPEN (R406, R424): over TLS the session is bound to the partition whose certificate it presents; over a Halo port in
Ethernet mode (port below 12) to the port's owner. -/
def execHostSessionOpen (cert port : Nat) (s : State) : Host.Outcome State Fault Refusal :=
  let part := if port < nPorts then
      (let o := s.port port; if o.ether && o.state = 2 && decide (s.portOwner port < nParts) then some (s.portOwner port) else none)
    else (List.range nParts).find? fun p => (s.conf p).known && decide (cert ≠ 0) && (s.conf p).cert = cert
  .next (if !s.mod.cc.up then s
    else
      match part with
      | none => s.say .sessionRefused
      | some p =>
        let id := s.mod.cc.nextSession
        let x : Session := { id := id, part := p, port := if port < nPorts then some port else none }
        (s.updMod fun m => { m with cc := { m.cc with sessions := m.cc.sessions ++ [x], nextSession := id + 1 } }).say (.sessionOpen id p))

/-- The first event of a ring, and the ring without it. -/
def takeEvent : List Mail → Option (Mail × List Mail)
  | [] => none
  | e :: l => if e.msg.isNone then some (e, l) else (takeEvent l).map fun x => (x.1, e :: x.2)

/-- EVENT_ACKNOWLEDGE (R400, R158): the job service takes an event from a ring, lets its tile go on, and passes it to the host or
taints the step. -/
def State.eventTaken (s : State) (ring : Nat) : State :=
  match takeEvent (s.mailOf ring) with
  | none => s
  | some (e, l) =>
    let x := s.tile e.tile
    let through := s.eventAnswered e.tile
    let s1 := (s.setMail ring l).setTile e.tile { x with event := x.event.map fun v =>
        if v.posted && v.code = e.code && v.value = e.value && through then { v with accepted := true } else v }
    if 0x100 ≤ e.code then s1.say (.hostEvent ring e.tile e.code e.value)
    else if e.code = 1 then s1.taintMsg ring (bit e.value 0)
    else s1

/-- EVENT_ACKNOWLEDGE (R400). -/
def execEventAcknowledge (ring : Nat) (s : State) : Host.Outcome State Fault Refusal :=
  s.checked (decide (ring ≤ 8)) (if s.mod.cc.up then s.eventTaken ring else s)

end Sys2Proof.Machine
end

