-- ==== Sys2Proof/Machine/Invocation.lean ====
section
/-!
DEFINITION. Invocations (R99, R141, R147, R154, R335 to R339, R343 to R346, R407, R410, R452): their checks, what the job service writes
before the first issue, the end of a tile, the phase swap, the retry of a step and relocation.
-/

namespace Sys2Proof.Machine

/-- The binary that the partition's tiles hold. -/
def Part.binary (q : Part) : Option Binary := q.bins[q.phase]?

/-- The manifest names a phase pair. -/
def isPair (m : Manifest) : Bool := decide (m.flags / 4 % 2 = 1)

/-- The invocation is a rollout: the second binary of a pair, or a run with a stream table alone (R345). -/
def isRollout (m : Manifest) (q : Part) (r : RunReq) : Bool :=
  if isPair m then q.phase = 1 else r.seqs.isEmpty && !r.streams.isEmpty

/-- The field waits to be re-spared or retired (R41). -/
def Field.doomed (x : Field) : Bool := !x.respare.isEmpty || x.retire

/-- Fields of the placement that are lost to the partition, or leave it at a step boundary (R41, R338, R376), and those whose tables are not
loaded yet (R465). -/
def State.lostFields (s : State) (b : Binary) (fmap : List Nat) : List Nat :=
  (mappedFields b fmap).filter fun f => !(s.windowsUp f && (s.field f).lock) || (s.field f).doomed

/-- A parameter group is defined: the manifest, with the tables in force, sets a register of it (log entry 47). -/
def groupDefined (m : Manifest) (v : Nat) : Bool :=
  v = 0xFFFF || (decide (v < 256) && m.siteRegs.any fun r => decide (0xA000 + 64 * v ≤ r.off) && decide (r.off < 0xA040 + 64 * v))

/-- Tokens of a sequence table. -/
def tokens (l : List SeqEntry) : Nat := (l.map (·.len)).sum

/-- Each sequence begins where the one before it ends. -/
def seqsFollow : Nat → List SeqEntry → Bool
  | _, [] => true
  | k, e :: l => e.start = k && seqsFollow (k + e.len) l

/-- The tokens of a stream, prompt and generated. -/
def spanOf (e : StreamEntry) : Nat := e.plen + e.gmax

/-- The first condition of R336 that refuses an invocation, numbered in its order. -/
def tableBad (m : Manifest) (rollout : Bool) (r : RunReq) : Option Nat :=
  let one (c : Bool) (k : Nat) : Option Nat := if c then some k else none
  let act := r.streams.filter fun e => e.flags % 2 = 1
  if !rollout then
    one (r.seqs.isEmpty || decide (64 < r.seqs.length)) 1 <|> one (!seqsFollow 0 r.seqs) 2 <|> one (decide (2097152 < tokens r.seqs)) 3 <|>
      one (r.seqs.any fun e => !groupDefined m e.var) 8 <|> one (r.seqs.any fun e => e.len = 0 || 4 ≤ e.flags || e.rsv ≠ 0) 9
  else
    one (r.streams.isEmpty || decide (4096 < r.streams.length)) 4 <|> one (act.any fun e => decide (2097152 < spanOf e)) 5 <|>
      one (decide (m.kvtok < (act.map spanOf).sum)) 6 <|> one (r.streams.any fun e => !groupDefined m e.var) 8 <|>
      one (r.streams.any fun e => e.plen = 0 || 2 ≤ e.flags) 9

/-- The site address of a step's input (R407): INPUT and the step's offset, the same for a step that is run again. -/
def inputAddr (r : RunReq) (committed : Nat) : Nat := (r.input + Config.stepOffset committed (r.seqs.map fun e => (e.start, e.len))) % 2 ^ 64

/-- The header of the layout block (Table 12.2). -/
def layoutHeader (m : Manifest) (rollout : Bool) (r : RunReq) (step srec input : Nat) : List Byte :=
  leBytes 0x54594C42 4 ++ [1, BitVec.ofNat 8 (nb rollout), BitVec.ofNat 8 (m.flags / 2 % 2), 0] ++ leBytes step 4 ++
    leBytes (if rollout then 0 else tokens r.seqs) 4 ++ leBytes (if rollout then 0 else r.seqs.length) 2 ++
    leBytes (if rollout then r.streams.length else 0) 2 ++ leBytes (if rollout then m.kvtok else 0) 4 ++ leBytes srec 8 ++
    leBytes input 8 ++ leBytes r.samples 8 ++ leBytes 0 208

/-- An entry of the sequence table, of the stream table (Tables 12.3, 12.4). -/
def seqBytes (e : SeqEntry) : List Byte := leBytes e.start 4 ++ leBytes e.len 4 ++ leBytes e.flags 2 ++ leBytes e.var 2 ++ leBytes 0 4
@[inherit_doc seqBytes] def streamBytes (e : StreamEntry) : List Byte :=
  leBytes e.plen 4 ++ leBytes e.gmax 4 ++ leBytes e.seed 4 ++ leBytes e.var 2 ++ leBytes e.flags 2

/-- Bytes padded with zeros. -/
def padTo (n : Nat) (l : List Byte) : List Byte := l ++ List.replicate (n - l.length) 0#8

/-- The layout block (R335, Table 12.1). -/
def layoutBlock (m : Manifest) (b : Binary) (fmap : List Nat) (rollout : Bool) (r : RunReq) (step srec input : Nat) : List Byte :=
  layoutHeader m rollout r step srec input ++
    (List.range 256).map (fun i => BitVec.ofNat 8 (if decide (i < nFields) && b.usesField i then nth 255 fmap i else 255)) ++
    padTo 1024 (if rollout then [] else r.seqs.flatMap seqBytes) ++ padTo 65536 (if rollout then r.streams.flatMap streamBytes else [])

/-- Where a class's resident regions stand in its image (R452): region, its descriptor, byte offset. -/
def imagePlaces (c : ClassRec) : List (Nat × Region × Nat) :=
  ((List.range 16).foldl (fun (a : List (Nat × Region × Nat) × Nat) g =>
    let r := c.region g
    if r.ver = 1 && r.resident then
      (a.1 ++ [(g, r, a.2)], a.2 + (r.size + 63) / 64 * 256 + (8 * ((r.size + 511) / 512) + 255) / 256 * 256)
    else a) ([], 0)).1

/-- The stored descriptor is the resident one that the class declares, so that its HEAD and OCC and its words are kept (R141). -/
def keepsRegion (t : Tile) (g : Nat) (r : Region) : Bool :=
  let q := region t g
  q.ver = 1 && q.resident && r.resident && q.base = r.base && q.size = r.size && q.swz == r.swz

/-- Descriptor g as an invocation loads it where the class declares it (R141): HEAD and OCC 0, or those of the resident region it keeps. -/
def loadRegion (c : ClassRec) (t : Tile) (g : Nat) : Tile :=
  let r := c.region g
  let q := region t g
  if r.ver ≠ 1 then t
  else if keepsRegion t g r then setRegion t g { r with head := q.head, occ := q.occ, cursor := q.cursor }
  else setRegion t g r

/-- Descriptor g as a phase swap writes it where the two classes differ in it (R346): a resident region that the tile does not hold is left to the
load of its image (R344); one that the new class leaves unused is written too. -/
def swapRegion (old new : ClassRec) (t : Tile) (g : Nat) : Tile :=
  let r := new.region g
  if old.region g = r || (r.ver = 1 && r.resident && !keepsRegion t g r) then t else if r.ver ≠ 1 then setRegion t g r else loadRegion new t g

/-- A resident region that is not held is loaded from its class's image, full from offset 0 (R344, R452; log entry 48). -/
def loadResident (img : Nat → Nat → List Word) (t : Tile) (p : Nat × Region × Nat) : Tile :=
  if keepsRegion t p.1 p.2.1 then t
  else
    let r := { p.2.1 with occ := p.2.1.size }
    writeRegion (setRegion t p.1 r) r 0 (img p.2.2 r.size)

/-- A write of TILE_SR_STEP (R100, R116, R118, R277): the ordinals and the staging order of the step begin anew, and the RATE written
to VEC_LPC_CTL takes effect. -/
def putStep (t : Tile) (v : Word) : Tile :=
  let t1 := csrPut (csrPut (csrPut t 0x504 v) 0x50C 0) 0x510 0
  { t1 with lpcOrd := 0, rate := bits (csrWord t1 0x604) 3 0, rtr := { t1.rtr with staged := [] } }

/-- What a tile is given for an invocation at a time (R99, R141, R147, R410, R411): arguments, cleared registers, descriptors, seeds; it runs at the entry. -/
def startTile (vals : List DWord) (c : ClassRec) (entry pseed seed : Nat) (step : Word) (now : DWord) (t : Tile) : Tile :=
  let t1 : Tile := { t with
    sregs := (List.range 32).foldl (fun m i => Map.set (fun _ => 0#64) m i (nth 0#64 vals i)) []
    vregs := []
    pregs := [] }
  let t2 := (List.range 16).foldl (loadRegion c) t1
  let t3 := putSeed (putStep (csrPut t2 0x500 (BitVec.ofNat 32 (pseed % 2 ^ 16))) step) seed
  { t3 with seq := .running, fault := false, fcause := 0, waiting := false, pc := entry, firstIssue := none, lastIssue := now }

/-- The arguments of a class and binary; zeros where the manifest gives none. -/
def argsOf (m : Manifest) (bin c : Nat) : List DWord :=
  match m.args.find? fun a => a.cls = c && a.bin = bin with | some a => a.vals | none => []

/-- The words of a class's base image. -/
def State.baseWords (s : State) (m : Manifest) (c : Nat) : Option (Nat → Nat → List Word) :=
  (baseOf m c).map fun b => fun o n => bytesWords n (s.memBytes (b.addr + o) (4 * n))

/-- Resident regions that the tiles do not hold are loaded from their images, and every group of such a tile is swept (R344, R452). -/
def State.loadImages (s : State) (p : Nat) (m : Manifest) (b : Binary) : State :=
  let q := s.part p
  b.placed.foldl (fun a t =>
    let c := b.cls t.2.2
    let id := placeTile q.fmap t.1 t.2.1
    match s.baseWords m t.2.2 with
    | none => a
    | some f =>
      let l := imagePlaces c
      if l.all fun x => keepsRegion (a.tile id) x.1 x.2.1 then a
      else (a.setTile id (l.foldl (loadResident f) (a.tile id))).fpSweepAll id) s

/-- A tile whose instruction store was cleared (a field reset, a logic test) is given its program, its image's address and its tables again (R471,
R458). -/
def State.restoreTile (s : State) (m : Manifest) (c : Nat) (pr : Program) (t : Nat) : State :=
  if (s.tile t).istore.isEmpty && !pr.words.isEmpty then
    s.setTile t ((m.tileRegs.filter fun r => r.unit = t).foldl putTileImage (fpImage m c (loadProgram s.mod.b0 pr (s.tile t))))
  else s

/-- The tiles of the job that were cleared are restored before an invocation. -/
def State.restoreTiles (s : State) (p : Nat) (m : Manifest) (b : Binary) : State :=
  (b.tiles (s.part p).fmap).foldl (fun s t => s.restoreTile (tablesFor m (s.part p).phase) t.2 (b.prog t.2) t.1) s

/-- Every tile of the binary is given its invocation. -/
def State.startTiles (s : State) (p : Nat) (m : Manifest) (b : Binary) (pseed : Nat) (step : Word) : State :=
  let q := s.part p
  b.placed.foldl (fun a t =>
    let c := t.2.2
    let id := placeTile q.fmap t.1 t.2.1
    a.setTile id (startTile (argsOf m q.phase c) (b.cls c) (b.prog c).entry pseed (placeTile m.fmap t.1 t.2.1) step s.now (a.tile id))) s

/-- SRATE of the next step (R293, Table 14.7): one higher while the governor lowers levels, one lower otherwise. -/
def State.adaptSrate (s : State) (p : Nat) (m : Manifest) (b : Binary) : State :=
  let q := s.part p
  let most := if m.srateMax = 0 then 0xC else m.srateMax
  let now : Bool := decide (bits (s.ez (pwrPart p 4)) 10 8 ≠ 0)
  let held : Bool := q.glvlSeen || now
  let up := if held then (if m.srate + q.srateUp < most then q.srateUp + 1 else q.srateUp) else q.srateUp - 1
  if m.srate = 0xF then s
  else (s.setPart p { q with srateUp := up, glvlSeen := now }).putSrate p (m.srate + up) ((b.tiles q.fmap).map (·.1))

/-- A run ends before its next invocation: STATE 2. -/
def State.stopRun (s : State) (p : Nat) : State := s.setPart p { s.part p with run := none, state := 2 }

/-- The step counters are written at every site and DSITE is armed (R291, R329, R339), unless the job service has armed it already. -/
def State.armStep (s : State) (p : Nat) (step : Word) : State :=
  if (s.part p).step then s
  else (s.eachSite p fun x => redStepWrite (x.csrPut 0x628 step) step).siteWrite true (s.dsite p) 0x620 1

/-- The invocation starts on every tile (R147, R335, R345, R410), unless a sweep of its resident regions raised a hard fault (R453). -/
def State.invoke (s : State) (p : Nat) (m : Manifest) (b : Binary) (r : RunCtl) : State :=
  let q := s.part p
  let rollout := isRollout m q r.req
  let d := s.dsite p
  let step := (s.site d).csrWord 0x628
  let s0 := (s.restoreTiles p m b).loadImages p m b
  let s1 := if rollout then s0.exportBoundary p m else (s0.exportBoundary p m).adaptSrate p m b
  let srec := d * 2 ^ 42 + 256 * bits ((s.site d).csrWord 0x650) 27 0
  let s2 := s1.memPut m.layout (layoutBlock m b q.fmap rollout r.req step.toNat srec (inputAddr r.req r.committed))
  let s3 := if rollout then s2 else s2.armStep p step
  if (s0.part p).state ≠ 3 then s0
  else if !rollout && !(s3.part p).step then (s3.stopRun p).say (.hostRefused 0 p 0x0B 0 0 0)
  else
    let s4 := s3.startTiles p m b (if rollout then seedOf m ^^^ 0x8000 else seedOf m) step
    let s5 := s4.ezPut (0x4008 + 0x40 * p) (BitVec.ofNat 32 (if m.wdog = 0 then 2000 else m.wdog))
    s5.setPart p { s5.part p with
      wdog := true, inv := q.inv + 1, waiting := false, run := some { r with begun := true } }

/-- The owner of a unit, 15 for none. -/
def State.ownerOf (s : State) (k : ResKind) (i : Nat) : Nat :=
  match k with
  | .field => s.fieldOwner i
  | .site => (s.site i).owner
  | .chan => s.chanOwner i
  | .port => s.portOwner i

/-- Both owners of a unit are quiescent or none, and no export runs at a site that changes its owner (R333, R417). -/
def State.changeReady (s : State) (k : ResKind) (i old new : Nat) : Bool :=
  s.quiescent old && s.quiescent new && !(k = .site && (s.site i).exp.busy)

/-- A change of owner that takes or gives a unit of the partition is due at this step boundary (R417). -/
def State.changeDue (s : State) (p : Nat) : Bool :=
  s.mod.cc.changes.any fun c =>
    let old := s.ownerOf c.1 c.2.1
    (old = p || c.2.2 = p) && s.changeReady c.1 c.2.1 old c.2.2

/-- The invocation before is over and its outcome posted, or DSITE has been armed for this one (R339). -/
def State.mayInvoke (s : State) (p : Nat) : Bool :=
  let q := s.part p
  !q.wdog && (s.busyTiles p).all (fun x => !bit (csrWord x.2 0xB18) 2) && (if q.step then s.tilesEnded p else s.quiescent p)

/-- A phase swap is due before the next invocation of a pair (R346, R372): the run asks for the other phase; enough rollouts ran; the
learn step has committed. -/
def State.swapDue (s : State) (p : Nat) : Bool :=
  let q := s.part p
  match q.job, q.run with
  | some m, some r =>
    let rmin := if m.rmin = 0 then 1 else m.rmin
    let rmax := if m.rmax = 0 then 1 else m.rmax
    isPair m && (if !r.begun then q.phase ≠ r.req.bin
      else if q.phase = 1 then
        decide (rmin ≤ q.rollouts) && (decide (rmax ≤ q.rollouts) || !s.capOn p || decide (s.mean20 p * 10 ≤ 180 * s.capNow p))
      else r.learned)
  | _, _ => false

/-- INVOCATION_START: waits for a change of owner that is due (R417) and for a field that is lost (R456), is refused by R336, or starts. -/
def State.invocationStart (s : State) (p : Nat) : State :=
  let q := s.part p
  match q.job, q.run, q.binary with
  | some m, some r, some b =>
    if q.state ≠ 3 || !s.mod.cc.up || q.quiet || r.over || !s.mayInvoke p || s.swapDue p || s.changeDue p then s
    else if !(s.lostFields b q.fmap).isEmpty then
      (if q.waiting then s
      else (s.setPart p { q with waiting := true }).post p (.hostAdvisory p 6 (s.lostFields b q.fmap)))
    else
      match tableBad (tablesFor m q.phase) (isRollout m q r.req) r.req with
      | some k => (s.stopRun p).post p (.invocationRefused p k)
      | none => s.invoke p m b r
  | _, _, _ => s

/-- A tile has reported its end (R154). The watchdog of an invocation that arms no step stops with the last one (R410); where there is
no pair it counts as one of the run's steps (log entry 49). -/
def State.tileEnded (s : State) (p : Nat) : State :=
  let q := s.part p
  if decide (8 ≤ p) || !q.wdog || q.step || q.state ≠ 3 || !s.tilesEnded p then s
  else
    let pair := match q.job with | some m => isPair m | none => false
    (s.setPart p { q with
      wdog := false, rollouts := q.rollouts + 1, fails := 0,
      run := q.run.map fun r => if pair then r else { r with committed := r.committed + 1 } }).endRun p

/-- What a swap changes in a tile: the program and the descriptors that differ (R346). -/
def swapTile (b0 : Bool) (m : Manifest) (old new : Program) (c0 c : ClassRec) (cls : Nat) (t : Tile) : Tile :=
  let t1 := if old.words = new.words then t else loadProgram b0 new t
  fpImage m cls ((List.range 16).foldl (swapRegion c0 c) t1)

/-- PHASE_SWAP (R346, R348, R372). -/
def State.phaseSwap (s : State) (p : Nat) : State :=
  let q := s.part p
  match q.job, q.binary, q.bins[1 - q.phase]? with
  | some m, some a, some b =>
    if !s.mod.cc.up || q.state ≠ 3 || !s.quiescent p || q.busy || !s.swapDue p then s
    else
      let l := List.zip a.placed b.placed
      let s1 := l.foldl (fun s x =>
        let id := placeTile q.fmap x.2.1 x.2.2.1
        s.setTile id (swapTile s.mod.b0 m (a.prog x.1.2.2) (b.prog x.2.2.2) (a.cls x.1.2.2) (b.cls x.2.2.2) x.2.2.2 (s.tile id))) s
      let s2 := s1.swapTables (tablesFor m q.phase) (tablesFor m (1 - q.phase))
      s2.setPart p { s2.part p with
        phase := 1 - q.phase, rollouts := 0, run := q.run.map fun r => { r with learned := false } }
  | _, _, _ => s

/-- Programs written again before a step is retried: of tiles stopped for instruction parity (R439). -/
def State.reloadStopped (s : State) (b : Binary) (fmap : List Nat) : State :=
  (b.tiles fmap).foldl (fun s t => if (s.tile t.1).fcause = 3 then s.setTile t.1 (loadProgram s.mod.b0 (b.prog t.2) (s.tile t.1)) else s) s

/-- The unit of an image moved from field f to field g. -/
def moveUnit (f g t : Nat) : Nat := if fieldOf t = f then fieldTile g (tileX t % 35) (tileY t % 48) else t

/-- A reduction descriptor image of a tile, of a site. -/
def isRdesc (site : Bool) (o : Nat) : Bool :=
  if site then decide (0x200 ≤ o) && decide (o < 0x600) else decide (0x1000 ≤ imageOff o)

/-- Images as numbers, and back. -/
def imgKey (r : RegImage) : Nat × Nat × Nat := (r.unit, r.off, r.val.toNat)
@[inherit_doc imgKey] def imgOf (x : Nat × Nat × Nat) : RegImage := { unit := x.1, off := x.2.1, val := BitVec.ofNat 64 x.2.2 }

/-- Tables with a field moved: staging maps move with their tiles; the descriptors stay where field f has none of them, else they are the
`k`-th of those that Config.rebuild finds. -/
def moveTables (k f g : Nat) (tr sr : List RegImage) : List RegImage × List RegImage :=
  let move (r : RegImage) : RegImage := { r with unit := moveUnit f g r.unit }
  let stg := (tr.filter fun r => !isRdesc false r.off).map move
  let rd := tr.filter fun r => isRdesc false r.off
  let srd := sr.filter fun r => isRdesc true r.off
  if rd.all fun r => fieldOf r.unit ≠ f then (stg ++ rd, sr)
  else
    (stg ++ ((Config.rebuild k 0 f g (rd.map imgKey)).map imgOf).filter fun r => isRdesc false r.off,
      (sr.filter fun r => !isRdesc true r.off) ++ ((Config.rebuild k 1 f g (srd.map imgKey)).map imgOf).filter fun r => isRdesc true r.off)

/-- The manifest with a field moved, the tables of both binaries alike. -/
def moveManifest (k : Nat) (m : Manifest) (f g : Nat) : Manifest :=
  let a := moveTables k f g m.tileRegs m.siteRegs
  let b := moveTables k f g m.tileRegs1 m.siteRegs1
  { m with
    tileRegs := a.1, siteRegs := a.2, tileRegs1 := b.1, siteRegs1 := b.2, fields := m.fields.map fun x => if x = f then g else x }

/-- The descriptors that a site's bucket table names. -/
def namedDescs (x : Site) : List Nat :=
  (List.range (bktCount x 4096 0)).flatMap fun i => if bktMen x i then [bktPr x i, bktMr x i, bktTr x i] else [bktPr x i]

/-- Every sum at every site keeps its leaves, its grouping and its input order (R338). -/
def State.sameSums (s t : State) (p f g : Nat) : Bool :=
  (s.sitesOf p).all fun n => (namedDescs (s.site n)).all fun d =>
    ((s.sumCode d 1024 (s.rootTile n d)).map fun k => if k < 2 then k else moveUnit f g (k - 2) + 2) = t.sumCode d 1024 (t.rootTile n d)

/-- The reserve fields that a lost field may be relocated to: those that are ready. -/
def State.reserveReady (s : State) : List Nat :=
  (List.range nFields).filter fun g => (s.field g).reserve && s.fieldOwner g = 15 && s.live g && (s.field g).lock && s.good g && !(s.field g).doomed

/-- The partition waits for a field; the host is told once. -/
def State.waitField (s : State) (p f : Nat) : State :=
  let q := s.part p
  if q.waiting then s else (s.setPart p { q with waiting := true }).post p (.hostAdvisory p 6 [f])

/-- A table set of the moved manifest holds, and keeps every sum of the tables before, at the partition with field g in place of f. -/
def State.tablesMove (s : State) (p f g : Nat) (m m1 : Manifest) : Bool :=
  let t := s.putTables p m
  let s1 := (s.setFieldOwner g p).setFieldOwner f 15
  let u := s1.putTables p m1
  !(m1.tileRegs.any tileImageBad || m1.siteRegs.any siteImageBad || m1.tileRegs.any (fun r => s1.tilePart r.unit ≠ p) ||
    m1.siteRegs.any (fun r => (s1.site r.unit).owner ≠ p)) && u.treesOk p && t.sameSums u p f g

/-- The reserve field and the manifest with which field f can be relocated (R338): every set that the job service finds is looked at for every
reserve field that is ready. -/
def State.moveFor (s : State) (p f : Nat) (m : Manifest) : Option (Nat × Manifest) :=
  (s.reserveReady.flatMap fun g => (0 :: List.range Config.rebuildTries).map fun k => (g, moveManifest k m f g)).find? fun c =>
    [0, 1].all fun ph => s.tablesMove p f c.1 (tablesFor m ph) (tablesFor c.2 ph)

/-- Field f of partition p gives way to reserve field g, and the manifest m to m1 (R338): the job's binary b goes on there. -/
def State.movedField (s : State) (p f g : Nat) (m m1 : Manifest) (b : Binary) : State :=
  let q := s.part p
  let fmap := q.fmap.map fun x => if x = f then g else x
  let s1 := ((s.ezField (pwr g 0) 2 0 (bits (s.ez (pwr f 0)) 2 0)).setFieldOwner g p).setFieldOwner f 15
  let s2 := s1.putTables p (tablesFor m1 q.phase)
  let s3 := s2.setField g { s2.field g with reserve := false }
  let s4 := ((b.tiles fmap).filter fun t => fieldOf t.1 = g).foldl (fun s t =>
    s.setTile t.1 (fpImage m t.2 (loadProgram s.mod.b0 (b.prog t.2) (s.tile t.1)))) s3
  let c := s4.conf p
  let s6 := s4.setConf p { c with fields := c.fields.map fun x => if x = f then g else x }
  s6.setPart p { s6.part p with fmap := fmap, job := some m1, waiting := false }

/-- The move, with the routes of the fields that the partition now has. -/
def State.moveField (s : State) (p f g : Nat) (m m1 : Manifest) (b : Binary) : State := (s.movedField p f g m m1 b).reroute

/-- FIELD_RELOCATE (R338, R40, R456): field f, lost or to be re-spared, gives way to reserve field g; with RELOC clear, no reserve field
or no descriptors that keep every sum, the partition waits. -/
def State.relocate (s : State) (p f : Nat) : State :=
  let q := s.part p
  match q.job, q.binary with
  | some m, some b =>
    if !s.mod.cc.up || q.state = 4 || q.state = 5 || q.busy || !s.quiescent p || !(s.lostFields b q.fmap).contains f then s
    else if m.flags / 2 % 2 ≠ 1 then s.waitField p f
    else
      match s.moveFor p f m with
      | none => s.waitField p f
      | some (g, m1) =>
        s.moveField p f g m m1 b
  | _, _ => s

/-- INVOCATION_START (R147). -/
def execInvocationStart (p : Nat) (s : State) : Host.Outcome State Fault Refusal := s.checked (decide (p < nParts)) (s.invocationStart p)

/-- TILE_END_REPORT (R154). -/
def execTileEndReport (t : Nat) (s : State) : Host.Outcome State Fault Refusal :=
  s.checked (decide (t < nTiles))
    (if (s.field (fieldOf t)).power = 2 then (s.onTile t fun _ ts => ts.upd tEndReport).tileEnded (s.tilePart t) else s)

/-- PHASE_SWAP (R346). -/
def execPhaseSwap (p : Nat) (s : State) : Host.Outcome State Fault Refusal := s.checked (decide (p < nParts)) (s.phaseSwap p)

/-- FIELD_RELOCATE (R338). -/
def execFieldRelocate (p f : Nat) (s : State) : Host.Outcome State Fault Refusal :=
  s.checked (decide (p < nParts) && decide (f < nFields)) (s.relocate p f)

end Sys2Proof.Machine
end

