-- ==== Sys2Proof/Machine/Partition.lean ====
section
/-!
DEFINITION. Partition and module aborts (R413 to R416), the watchdog and the stall advisory (R410, R411), restarts of the control
complex (R401), capacity changes (R417) and the reserve (R39, R40).
-/

namespace Sys2Proof.Machine

/-- A tile's unit FAULT bits cleared, with FCAUSE and FREG of SPD_STATUS. -/
def clearFaults (t : Tile) : Tile :=
  csrField (csrField (csrField (csrField (csrField t 0x300 19 12 0) 0x300 1 1 0) 0x400 1 1 0) 0x600 1 1 0) 0x700 2 2 0

/-- What an abort discards in a tile (R70, R100, R116, R117, R297, Table 5.9; R446): everything in flight, the scratchpad, the descriptors, the
ordinals, an armed injection and a running sweep. The checks counted below the unit of OPE_CK_COUNT stay (log entry 70). ENDED, FAULT and FCAUSE stay until the next invocation (R147). -/
def abortTile (t : Tile) : Tile :=
  let t1 : Tile := { t with
    seq := if t.seq = .ended then .ended else .idle
    waiting := false
    regions := []
    spd := []
    par := []
    vq := []
    ope := { ckFrac := t.ope.ckFrac }
    net := []
    inSends := []
    event := none
    fpLeft := 0
    injWord := none
    loose := []
    lpcOrd := 0
    firstIssue := none
    rtr := abortRed t.rtr }
  csrField (csrField (csrPut (csrPut t1 0x50C 0) 0x510 0) 0xB18 2 2 0) 0xB00 27 24 0

/-- What a partition reset resets besides (Table 19.3): registers, FAULT bits, ENDED. -/
def resetTile (t : Tile) : Tile :=
  clearFaults { abortTile t with seq := .idle, fault := false, fcause := 0, pc := 0, sregs := [], vregs := [], pregs := [] }

/-- The partition a flit belongs to: PART of a request, else the partition of the tile that sent it or takes it. -/
def State.flitPart (s : State) (f : Flit) : Nat :=
  match f.body with
  | .req _ _ _ _ part _ _ _ _ _ _ _ _ => part
  | .reqData _ _ _ _ part => part
  | .ctl _ src _ _ => s.tilePart src
  | .send _ _ src _ => s.tilePart src
  | _ => s.tilePart f.dest

/-- A router without the flits of partition p and its combining entries (R413). -/
def State.purgeRouter (s : State) (p : Nat) (r : Router) : Router :=
  let keep (l : List Flit) : List Flit := l.filter fun f => s.flitPart f ≠ p
  { r with
    inject := keep r.inject
    bufs := (r.bufs.map fun b => (b.1, keep b.2)).filter fun b => !b.2.isEmpty
    cross := (r.cross.map fun b => (b.1, keep b.2)).filter fun b => !b.2.isEmpty
    arrived := keep r.arrived
    edge := (r.edge.map fun b => (b.1, keep b.2)).filter fun b => !b.2.isEmpty
    cmb := r.cmb.filter fun c => c.part ≠ p }

/-- The packet that holds an output has more flits to come through input buffer `key` of tile t: they are looked for upstream. -/
def State.packetLeft (s : State) : Nat → Nat → Nat → Bool
  | 0, _, _ => false
  | n + 1, t, key =>
    let x := s.tile t
    let port := key / 16
    let vc := key % 16 / 2
    match Map.get (fun _ => []) x.rtr.bufs key ++ Map.get (fun _ => []) x.rtr.cross key with
    | f :: _ => !f.head
    | [] =>
      if port = 0 then (match x.rtr.inject.filter fun f => f.vc = vc with | f :: _ => !f.head | [] => false)
      else
        match neighbour t port with
        | none => false
        | some u =>
          match Map.get (fun _ => 0) (s.tile u).rtr.lock (32 * facing port + vc) with
          | 0 => false
          | k + 1 => s.packetLeft n u k

/-- A change made at every listed tile; tiles then in their reset state are not listed. -/
def State.mapTiles (s : State) (f : Nat → Tile → Tile) : State :=
  { s with tiles := (s.tiles.map fun e => (e.1, f e.1 e.2)).filter fun e => e.2 ≠ {} }

/-- The outputs held by packets that an abort discarded are free. -/
def State.freeLocks (s : State) : State :=
  s.mapTiles fun t x => { x with rtr := { x.rtr with lock := x.rtr.lock.filter fun k => s.packetLeft 1024 t (k.2 - 1) } }

/-- Units, queues and flits of the partition are discarded (Table 16.11). -/
def State.discard (s : State) (p : Nat) (reset : Bool) : State :=
  let s1 := s.mapTiles fun t x0 =>
    let x := { x0 with rtr := s.purgeRouter p x0.rtr }
    if s.tilePart t = p then (if reset then resetTile x else abortTile x) else x
  let keep (s : State) (x : Site) : Site := { x with out := x.out.filter fun y => s.flitPart y.2 ≠ p }
  let s2 := (s1.sitesOf p).foldl (fun s n =>
    s.setSite n (keep s (siteAbort (s.siteEnv n) { s := s.site n, free := s.free } 0x18).s)) s1.freeLocks
  (s2.portsOf p).foldl (fun s q => s.endAll q 5) s2

/-- SEC_STATUS, SEC_PART, SEC_SITE (Table 17.7). -/
def State.secStatus (s : State) : Word :=
  let x := s.mod.sec
  BitVec.ofNat 32 (nb x.rngFail * 8 + nb s.mod.revoke0 * 4 + nb x.recovery * 2 + nb x.modDbg)
@[inherit_doc State.secStatus] def State.secPart (s : State) (p : Nat) : Word :=
  let q := s.part p
  BitVec.ofNat 32 (q.kgen % 2 ^ 16 * 2 ^ 16 + nb (q.key ≠ 0) * 4 + nb q.debug * 2 + bits (s.ez (0x5100 + 4 * p)) 0 0)
@[inherit_doc State.secStatus] def State.secSite (s : State) (n : Nat) : Word :=
  let x := s.site n
  BitVec.ofNat 32 (x.lastOwn * 16 + nb x.wiping * 4 + nb x.strDirty * 2 + nb x.dirty)

/-- Measurement 9 takes SEC_STATUS and SEC_PART as they stand at a change of debug state or recovery (R432). -/
def State.snapSec (s : State) : State :=
  let l := s.secStatus.toNat :: (List.range nParts).map fun p => (s.secPart p).toNat
  s.updMod fun m => { m with sec := { m.sec with secWords := l } }

/-- A run goes on after an abort for a dark field or a hard fault, until three attempts in a row end with ACAUSE 4 (R338, R440). Once a phase of
a pair has begun, it goes on after any abort: with the rollout, the swap or the learn step that the abort met (R348; log entry 147). -/
def keepRun (q : Part) : Option RunCtl :=
  match q.run with
  | none => none
  | some r =>
    if !r.halt && !q.reset && (q.acause = 3 || (if q.acause = 4 then decide (q.fails + 1 < 3) else q.job.any isPair && r.begun)) && q.after = 2 then some r else none

/-- ABORT_COMPLETE (R413 to R415): it waits for a flip to complete. A reset unloads the job and cancels the exports (R333). Every ABORT that joined
is answered; where none did, ABORTED goes out with TAG 0. -/
def State.abortDone (s : State) (p : Nat) : State :=
  let q := s.part p
  if q.state ≠ 4 || pavState (s.site (s.dsite p)) = 4 then s
  else
    let s1 := s.discard p q.reset
    let q1 := s1.part p
    let s2 := s1.setPart p { q1 with
      state := if q.reset then (if q.after = 6 then 6 else 1) else q.after, wdog := false, step := false, run := keepRun q,
      fails := if q.acause = 4 then q.fails + 1 else 0, waiting := false, reset := false, atags := [],
      debug := if q.reset then bit (s.ez (0x5100 + 4 * p)) 0 else q.debug }
    let s2 := if (s2.part p).debug ≠ q.debug then s2.snapSec else s2
    let s3 := if q.reset then (s2.unload p).eachSite p fun x => exportCommand x 2 else s2
    let tags := if q.atags.isEmpty then [0] else q.atags
    let s4 := (tags.foldl (fun s t => s.post p (.hostAborted t p q.acause (s3.part p).state (s3.stepRecord p))) s3).releaseNow p
    let s5 := if s4.mod.abortBusy && (List.range nParts).all (fun k => decide ((s4.part k).state ≠ 4)) then
        s4.updMod fun m => { m with abortBusy := false }
      else s4
    if s5.coolst = 3 then s5.coolDown else s5

/-- A command to PART_CTL: 1 abort, 2 reset, 3 disable, 4 enable (R413, R415, R416). A reset does an abort in every state, after it has stopped a
load, and leaves STATE 1 unless a disable follows (log entry 148). -/
def State.partCommand (s : State) (p cmd : Nat) : State :=
  let q := s.part p
  match cmd with
  | 1 => s.requestAbort p 1
  | 2 =>
    let s0 := if q.state = 5 then s.requestAbort p 7 else s
    let s1 := s0.requestAbort p 7
    if q.state = 0 then s else s1.setPart p { s1.part p with reset := true, after := 1 }
  | 3 =>
    if q.state = 6 then s
    else
      let s1 := s.requestAbort p 5
      s1.setPart p (if q.state = 5 then { s1.part p with state := 6 } else { s1.part p with after := 6 })
  | 4 => s.setPart p { q with state := if q.job.isSome then 2 else 1 }
  | _ => s

/-- The state of the partition does not admit a command (R475): only a disabled partition is enabled, only a defined one disabled. -/
def State.partRefused (s : State) (p cmd : Nat) : Bool :=
  let st := (s.part p).state
  (cmd = 3 && st = 0) || (cmd = 4 && st ≠ 6)

/-- A write of PART_CTL (Table 16.2). -/
def State.partCtl (s : State) (priv : Bool) (p cmd : Nat) : State :=
  let a := ezAddr (0x4000 + 0x40 * p)
  s.privileged priv a (partLoc p) (if s.partRefused p cmd then s.refuse a 0x4A (partLoc p) else s.partCommand p cmd)

/-- A module abort (R414). -/
def State.modAbort (s : State) : State :=
  let s1 := (List.range nParts).foldl (fun s p => s.requestAbort p 6) s
  let s2 := s1.updMod fun m => { m with abortBusy := (List.range nParts).any fun p => (s1.part p).state = 4 }
  (List.range nFields).foldl (fun s f => s.setField f (stopTest (s.field f))) s2

/-- The step of a partition started at the first issue of its invocation (R410); none while no tile has issued. -/
def State.stepStart (s : State) (p : Nat) : Option Nat :=
  ((s.busyTiles p).filterMap fun x => x.2.firstIssue.map (·.toNat)).foldl (fun a k => some (match a with | some j => min j k | none => k)) none

/-- WATCHDOG_EXPIRY (R410): ELAPSED, in ms since the step started, has reached LIMIT. -/
def State.elapsed (s : State) (p : Nat) : Nat :=
  match s.stepStart p with
  | some k => if (s.part p).wdog then (s.now.toNat - k) / 1000000 else 0
  | none => 0
@[inherit_doc State.elapsed] def State.watchdog (s : State) (p : Nat) : State :=
  if (s.part p).wdog && decide ((s.ez (0x4008 + 0x40 * p)).toNat ≤ s.elapsed p) then s.requestAbort p 2 else s

/-- The tile waits, and has issued nothing for 10 ms (R411). -/
def stuck (now : DWord) (x : Tile) : Bool := x.waiting && runBit x && decide (x.lastIssue.toNat + 10000000 ≤ now.toNat)

/-- NTILES of PART_STALL0: the tiles held now for 10 ms or more. -/
def State.heldNow (s : State) (p : Nat) : Nat := ((s.busyTiles p).filter fun x => stuck s.now x.2).length

/-- STALL_ADVISORY (R411): `held` the tiles that have issued nothing for 10 ms while WAITING. It is the stall before where a tile that this one found
held has not issued since; TILE then stays, and the advisory is sent again at most once a second. -/
def State.stall (s : State) (p : Nat) (held : List Nat) : State :=
  let q := s.part p
  let l := held.filter fun t => s.tilePart t = p && stuck s.now (s.tile t)
  let o := 0x4010 + 0x40 * p
  match l with
  | [] => s
  | t :: _ =>
    if q.state ≠ 3 then s
    else
      let same : Bool := q.stalled.any fun e => l.contains e.1 && (s.tile e.1).lastIssue = e.2
      let first := if bit (s.ez o) 31 && same then (s.ez (o + 4)).toNat else t
      let s1 := (((s.ezPut o (BitVec.ofNat 32 (2 ^ 31))).ezPut (o + 4) (BitVec.ofNat 32 first))).setPart p
        { q with stalled := l.map fun k => (k, (s.tile k).lastIssue) }
      let soon := same && (match q.advised with | some a => decide (s.now.toNat < a.toNat + 1000000000) | none => false)
      if soon then s1
      else (s1.setPart p { s1.part p with advised := some s.now }).post p (.hostAdvisory p 1 [l.length, first])

/-- CC_RESTART (R401): sessions are dropped. -/
def State.ccDown (s : State) : State := s.updMod fun m => { m with cc := { m.cc with up := false, sessions := [] } }

/-- CC_RESTART_COMPLETE (R401): the job service posts what the mailboxes hold; events wait for it to take them. -/
def State.ccUp (s : State) : State :=
  if s.mod.cc.up then s
  else
    let s1 := s.updMod fun m => { m with cc := { m.cc with up := true } }
    (List.range 9).foldl (fun s r =>
      let l := s.mailOf r
      (l.filterMap (·.msg)).foldl State.say (s.setMail r (l.filter fun e => e.msg.isNone))) s1

/-- A good field that is powered, or can be powered up now, so that the reserve can keep it powered (R39). -/
def State.keepable (s : State) (f : Nat) : Bool :=
  s.good f && !(s.field f).doomed && ((s.field f).power = 1 || (s.field f).power = 2 || (s.fieldCmdBad f 1).isNone)

/-- A field that the administrator names, or one of the good, unowned fields with the highest ids, is in the reserve (R39). -/
def State.reserveSet (s : State) : List Nat :=
  let cc := s.mod.cc
  let free (f : Nat) : Bool := s.keepable f && decide (s.fieldOwner f = 15)
  let l := if cc.reserveNamed.isEmpty then (List.range nFields).reverse else cc.reserveNamed
  (l.filter free).take cc.reserveCount

/-- A field joins the reserve: RESERVE shows it, and it is kept powered at V0 with its tiles idle (R39). -/
def State.keepReserve (s : State) (f : Nat) : State :=
  let s1 := ((s.setField f { s.field f with reserve := true }).ezField (pwr f 0) 2 0 0).levels f
  if (s1.fieldCmdBad f 1).isNone then s1.fieldCmd f 1 else s1

/-- RESERVE shows the reserve (R39). -/
def State.fillReserve (s : State) : State :=
  let l := s.reserveSet
  (List.range nFields).foldl (fun s f =>
    if l.contains f then s.keepReserve f else s.setField f { s.field f with reserve := false }) s

/-- A field that a partition releases refills the reserve while it is short (R40). -/
def State.refill (s : State) (f : Nat) : State :=
  if s.keepable f && s.reserveShort then s.keepReserve f else s

/-- A list with a unit taken out, or put in. -/
def without (i : Nat) (l : List Nat) : List Nat := l.filter (· ≠ i)
@[inherit_doc without] def withUnit (i : Nat) (l : List Nat) : List Nat := without i l ++ [i]

/-- The configuration of a partition with a unit of a kind changed by f. -/
def PartConf.change (c : PartConf) (k : ResKind) (f : List Nat → List Nat) : PartConf :=
  match k with
  | .field => { c with fields := f c.fields }
  | .site => { c with sites := f c.sites }
  | .chan => { c with chans := f c.chans }
  | .port => { c with ports := f c.ports }

/-- The configuration of the partitions follows a change of owner (R467). -/
def State.confMove (s : State) (k : ResKind) (i old new : Nat) : State :=
  let s1 := if old < nParts then s.setConf old ((s.conf old).change k (without i)) else s
  if new < nParts then s1.setConf new ((s1.conf new).change k (withUnit i)) else s1

/-- A loaded job's RESOURCES section names the unit. -/
def needsUnit (m : Manifest) (k : ResKind) (i : Nat) : Bool :=
  match k with
  | .field => m.fields.contains i
  | .site => m.sites.contains i
  | .chan => m.chans.contains i
  | .port => m.ports.contains i

/-- RELOC permits the job to be moved off a field: the reserve field and the manifest for it (R338, R417). -/
def State.movesOff (s : State) (p : Nat) (m : Manifest) (k : ResKind) (i : Nat) : Option (Nat × Manifest) :=
  if k = .field && needsUnit m k i && m.flags / 2 % 2 = 1 then s.moveFor p i m else none

/-- The job of a partition is moved off a field that it gives away (R417). -/
def State.jobMoves (s : State) (p i : Nat) : State :=
  match (if p < nParts then (s.part p).job else none), (s.part p).binary with
  | some m, some b => (match s.movesOff p m .field i with | some (g, m1) => s.moveField p i g m m1 b | none => s)
  | _, _ => s

/-- How many units of a kind the module has. -/
def unitCount (k : ResKind) : Nat := match k with | .field => nFields | .site => nSites | .chan => 24 | .port => nPorts

/-- A Halo port without its windows; KEYGEN is kept, so that no old key opens a new window. -/
def clearWindows (o : Port) : Port :=
  (List.range 64).foldl (fun o w =>
    let a := 0x1000 + 16 * w
    (((o.csrPut a 0).csrPut (a + 4) 0).csrPut (a + 8) 0).csrField (a + 12) 15 0 0) o

/-- Windows of a port that name a site are cleared when the site leaves. -/
def clearWindowsOf (n : Nat) (o : Port) : Port :=
  (List.range 64).foldl (fun o w =>
    let a := 0x1000 + 16 * w
    if (bits (o.csrWord (a + 4)) 15 0 * 2 ^ 32 + (o.csrWord a).toNat) / 2 ^ 42 = n && o.csrWord (a + 8) ≠ 0 then
      (((o.csrPut a 0).csrPut (a + 4) 0).csrPut (a + 8) 0).csrField (a + 12) 15 0 0
    else o) o

/-- A site leaves its partition (R417, R428, R429): key cleared, plaintext lines discarded, registers cleared but those of its key, its temperature
and its channel; the site and its share are dirty. -/
def leaveSite (x : Site) : Site :=
  let p := x.owner
  let y := disarmAll (discardPlain (dropKey x p))
  let z := { y with csr := y.csr.filter fun e => [0x8, 0xC, 0x10, 0x14].contains e.1 }
  { z.csrField 0x4 3 0 15 with dirty := true, strDirty := true, lastOwn := p, wiping := false, wipeStr := false, wipeFor := 15, red := {}, upd := {}, exp := {}, tempSub := none }

/-- A site without its state of the old owner leaves it; the old owner's windows that name it are cleared. -/
def State.siteLeaves (s : State) (n : Nat) : State :=
  let p := (s.site n).owner
  if 8 ≤ p then s
  else (s.portsOf p).foldl (fun s q => s.setPort q (clearWindowsOf n (s.port q))) (s.setSite n (leaveSite (s.site n)))

/-- A wipe begins (R428): the new owner's key goes to its slot and the copy engine writes zeros under it. -/
def State.wipeStart (s : State) (n p : Nat) (str : Bool) : State :=
  let x := loadKey (s.site n) p (s.part p).key
  s.setSite n { x with wiping := true, wipeStr := str, wipeFor := p }

/-- A change of owner is not admitted (R402, R417): the number answered in the Redfish result. -/
def State.capacityBad (s : State) (k : ResKind) (i old new : Nat) : Option Nat :=
  let one (c : Bool) (n : Nat) : Option Nat := if c then some n else none
  let job := if old < nParts then (s.part old).job else none
  one (!s.changeReady k i old new) 2 <|> one (match job with | some m => needsUnit m k i && (s.movesOff old m k i).isNone | none => false) 3 <|>
    one (new < nParts && (s.part new).state = 0) 4 <|>
    (match k with
    | .field => one (new < nParts && ((s.field i).reserve || !s.good i)) 5
    | .site => one ((s.site i).wiping || (new < nParts && (s.part new).key = 0)) 6
    | .chan => one (new < nParts && (s.site (2 * i)).owner ≠ new && (s.site (2 * i + 1)).owner ≠ new) 7
    | .port => none)

/-- The owner of a unit changes (R417). -/
def State.capacityDo (s : State) (k : ResKind) (i old new : Nat) : State :=
  match k with
  | .field =>
    let s0 := s.jobMoves old i
    let s1 := s0.mapTiles fun t x => if fieldOf t = i then { x with spd := [], par := [] } else x
    let s2 := s1.setFieldOwner i new
    ((if new = 15 then s2.refill i else s2).confMove k i old new).reroute
  | .site =>
    let s1 := (s.siteLeaves i).confMove k i old new
    (if new < nParts then s1.wipeStart i new false else s1).xmasks
  | .chan =>
    let put (s : State) (n : Nat) : State := s.setSite n (soilShare ((s.site n).csrField 0x14 3 0 new))
    (put (put s (2 * i)) (2 * i + 1)).confMove k i old new
  | .port => (s.setPort i ((clearWindows (s.port i)).csrField 0x0 23 20 new)).confMove k i old new

/-- The changes in progress without that of a unit. -/
def dropChange (k : ResKind) (i : Nat) (l : List (ResKind × Nat × Nat)) : List (ResKind × Nat × Nat) :=
  l.filter fun c => !(c.1 = k && c.2.1 = i)

/-- What the Redfish resource of a partition holds (Table 16.13, R408): STATE, resources, host keys, CAP and limit, and the ledger. -/
def State.redfishPart (s : State) (p : Nat) : Msg :=
  .redfishPart p (s.partStatus p) (s.fieldsOf p) (s.sitesOf p) ((List.range 24).filter fun c => s.chanOwner c = p) (s.portsOf p)
    ((s.conf p).keys.map (·.slot)) [s.capNow p, (s.conf p).maxCap] (s.part p).ledger

/-- A site that was disabled is enabled again through Redfish (R416). -/
def State.enableSite (s : State) (k : ResKind) (i : Nat) : State :=
  if k = .site && (s.site i).state = 3 then s.setSite i { s.site i with state := 2 } else s

/-- A request for the owner that a unit has: a change in progress is reported by its task monitor (R418); a disabled site is enabled; the resource
of the partition answers (log entry 155). -/
def State.sameOwner (s : State) (k : ResKind) (i p : Nat) : State :=
  let s1 := s.enableSite k i
  match s.mod.cc.changes.find? fun c => c.1 = k && c.2.1 = i with
  | some c => s1.say (.redfishTask k i c.2.2)
  | none => s1.say (if p < nParts then s1.redfishPart p else .redfish true 1)

/-- CAPACITY_CHANGE (R417, R418): while an owner is not quiescent, or an export runs at the site, the request stays in progress and the task monitor
reports it. -/
def State.capacity (s : State) (k : ResKind) (i new : Nat) : State :=
  let old := s.ownerOf k i
  if !s.mod.cc.up then s
  else if old = new then s.sameOwner k i new
  else
    match s.capacityBad k i old new with
    | some 2 => (s.updMod fun m => { m with cc := { m.cc with changes := dropChange k i m.cc.changes ++ [(k, i, new)] } }).say (.redfishTask k i new)
    | some n => s.say (.redfish false n)
    | none => (s.capacityDo k i old new).say (.redfish true 1)

/-- A change of owner in progress takes place, or is refused, at the first step boundary at which it can. -/
def State.changeGo (s : State) (c : ResKind × Nat × Nat) : State :=
  if s.mod.cc.up && s.changeReady c.1 c.2.1 (s.ownerOf c.1 c.2.1) c.2.2 then
    (s.updMod fun m => { m with cc := { m.cc with changes := dropChange c.1 c.2.1 m.cc.changes } }).capacity c.1 c.2.1 c.2.2
  else s

/-- PART_ABORT (R413). -/
def execPartAbort (priv : Bool) (p : Nat) (s : State) : Host.Outcome State Fault Refusal := s.checked (decide (p < nParts)) (s.partCtl priv p 1)

/-- PART_RESET (R415). -/
def execPartReset (priv : Bool) (p : Nat) (s : State) : Host.Outcome State Fault Refusal := s.checked (decide (p < nParts)) (s.partCtl priv p 2)

/-- PART_DISABLE (R416). -/
def execPartDisable (priv : Bool) (p : Nat) (s : State) : Host.Outcome State Fault Refusal := s.checked (decide (p < nParts)) (s.partCtl priv p 3)

/-- PART_ENABLE (R416). -/
def execPartEnable (priv : Bool) (p : Nat) (s : State) : Host.Outcome State Fault Refusal := s.checked (decide (p < nParts)) (s.partCtl priv p 4)

/-- ABORT_COMPLETE (R413). -/
def execAbortComplete (p : Nat) (s : State) : Host.Outcome State Fault Refusal := s.checked (decide (p < nParts)) (s.abortDone p)

/-- MOD_ABORT (R414). -/
def execModAbort (priv : Bool) (s : State) : Host.Outcome State Fault Refusal :=
  .next (s.privileged priv (ezAddr 0x4400) (feedLoc 2) s.modAbort)

/-- WATCHDOG_EXPIRY (R410). -/
def execWatchdogExpiry (p : Nat) (s : State) : Host.Outcome State Fault Refusal := s.checked (decide (p < nParts)) (s.watchdog p)

/-- STALL_ADVISORY (R411). -/
def execStallAdvisory (p : Nat) (held : List Nat) (s : State) : Host.Outcome State Fault Refusal :=
  s.checked (decide (p < nParts) && held.all fun t => decide (t < nTiles)) (s.stall p held)

/-- The job service has been started since power-on (Table 19.1). -/
def State.ccExists (s : State) : Bool := s.mod.powered && (decide (3 ≤ s.mod.stage) && decide (s.mod.stage ≤ 6) || s.mod.stage = 8)

/-- CC_RESTART (R401). -/
def execCcRestart (s : State) : Host.Outcome State Fault Refusal := .next (if s.ccExists then s.ccDown else s)

/-- CC_RESTART_COMPLETE (R401). -/
def execCcRestartComplete (s : State) : Host.Outcome State Fault Refusal := .next (if s.ccExists then s.ccUp else s)

/-- CAPACITY_CHANGE (R417). -/
def execCapacityChange (kind : ResKind) (i owner : Nat) (s : State) : Host.Outcome State Fault Refusal :=
  s.checked (decide (i < unitCount kind) && (decide (owner < nParts) || owner = 15)) (s.capacity kind i owner)

/-- RESERVE_SET (R39). -/
def execReserveSet (count : Nat) (named : List Nat) (s : State) : Host.Outcome State Fault Refusal :=
  s.checked (decide (count ≤ 2) && named.all fun f => decide (f < nFields))
    (if s.mod.cc.up then
      (s.updMod fun m => { m with cc := { m.cc with reserveCount := count, reserveNamed := named } }).fillReserve.say (.redfish true 1)
    else s)

end Sys2Proof.Machine
end

