-- ==== Sys2Proof/Machine/Security.lean ====
section
/-!
DEFINITION. The root of trust (R419 to R435): partition keys, wiping, host keys, signed images, attestation, debug policy and unlock.
-/

namespace Sys2Proof.Machine

/-- The two 256-bit halves of a memory key (R427). -/
def keyHalves (k : BitVec 512) : Nat × Nat := (k.toNat / 2 ^ 256, k.toNat % 2 ^ 256)

/-- The n-th draw that the root of trust takes (R427): a draw whose halves are equal is discarded and drawn anew, so that the one taken is
any value with different halves (log entry 8). -/
def keyDraw (n : Nat) : Nat :=
  let v := Config.drbg n
  if (keyHalves v).1 = (keyHalves v).2 then (v ^^^ 1).toNat else v.toNat

/-- A draw of the random bit generator; none after a health test failed (R420). -/
def State.drawKey (s : State) : Option (State × Nat) :=
  if s.mod.sec.rngFail then none
  else some (s.updMod fun m => { m with sec := { m.sec with drawn := m.sec.drawn + 1 } }, keyDraw s.mod.sec.drawn)

/-- A partition gets a newly drawn key (R427): KGEN counts it. -/
def State.giveKey (s : State) (p : Nat) : Option State :=
  s.drawKey.map fun x => x.1.setPart p { x.1.part p with key := x.2, kgen := (x.1.part p).kgen + 1 }

/-- A channel that the configuration names is given to a partition once it owns one of the two sites (R402, R467). -/
def State.restoreChan (s : State) (k p : Nat) : State :=
  if s.chanOwner k = 15 && s.chanFits (2 * k) p then
    (s.setSite (2 * k) ((s.site (2 * k)).csrField 0x14 3 0 p)).setSite (2 * k + 1) ((s.site (2 * k + 1)).csrField 0x14 3 0 p)
  else s

/-- What the configuration names is given to a partition again (R467); its sites are dirty and come with their wipe, and its channels with
them. -/
def State.restoreOwned (s : State) (p : Nat) : State :=
  let c := s.conf p
  let s1 := c.fields.foldl (fun s f => if s.fieldOwner f = 15 && s.good f && !(s.field f).reserve then s.setFieldOwner f p else s) s
  let s2 := c.chans.foldl (fun s k => s.restoreChan k p) s1
  c.ports.foldl (fun s q => if s.portOwner q = 15 then s.setPort q ((s.port q).csrField 0x0 23 20 p) else s) s2

/-- A partition is defined with a new key (R427): STATE 1; the ledger and the count of keys stay. -/
def State.definePart (s : State) (p : Nat) : Option State :=
  (s.giveKey p).map fun s1 => ((s1.setPart p { s1.part p with state := 1 }).restoreOwned p).xmasks

/-- PARTITION_DEFINE (R402, R424, R427): the administrator names the certificate of host sessions and the limit of CAP; a partition
that is defined keeps its key. -/
def State.partitionDefine (s : State) (p cert limit : Nat) : State :=
  if !s.mod.cc.up then s
  else
    let s0 := s.setConf p { s.conf p with known := true, cert := cert, maxCap := limit }
    if (s.part p).state ≠ 0 then s0.say (.redfish true 1)
    else
      match s0.definePart p with
      | some s1 => s1.say (.redfish true 1)
      | none => (s.rootRecord 1).say (.redfish false 8)

/-- The key of a partition is destroyed, and its slot at every site cleared (R427). -/
def State.destroyKey (s : State) (p : Nat) : State :=
  let s1 := s.setPart p { s.part p with key := 0 }
  (List.range nSites).foldl (fun s n => if Map.get (fun _ => 0) (s.site n).keys p = 0 then s else s.setSite n (dropKey (s.site n) p)) s1

/-- Everything a partition holds is released (R417). -/
def State.releaseAll (s : State) (p : Nat) : State :=
  let s1 := (s.fieldsOf p).foldl (fun s f => s.capacityDo .field f p 15) s
  let s2 := (s1.portsOf p).foldl (fun s q => s.capacityDo .port q p 15) s1
  let s3 := ((List.range 24).filter fun c => s2.chanOwner c = p).foldl (fun s c => s.capacityDo .chan c p 15) s2
  (s3.sitesOf p).foldl (fun s n => s.capacityDo .site n p 15) s3

/-- PARTITION_FREE (R427, R429): admitted with no job and quiescent; the key is destroyed, the ring zeroed; ledger and error log stay. -/
def State.partitionFree (s : State) (p : Nat) : State :=
  let q := s.part p
  if !s.mod.cc.up then s
  else if q.state = 0 || q.job.isSome || q.state = 4 || q.state = 5 || !s.quiescent p then s.say (.redfish false 2)
  else
    let s1 := ((s.releaseAll p).destroyKey p).setMail p []
    let s2 := s1.setPart p { ledger := q.ledger, kgen := q.kgen, inv := q.inv }
    let s3 := ((if q.debug then s2.snapSec else s2).setConf p {}).updMod fun m => { m with cc := { m.cc with sessions := m.cc.sessions.filter fun x => x.part ≠ p } }
    s3.say (.redfish true 1)

/-- SITE_WIPE (R428) of a dirty site with no owner, or of the dirty share of a site whose owner holds the channel. -/
def State.siteWipe (s : State) (n p : Nat) (str : Bool) : State :=
  let x := s.site n
  let ok : Bool := if str then x.strDirty && x.owner = p && s.chanOwner (n / 2) = p else x.dirty && x.owner = 15
  if !s.mod.cc.up then s
  else if x.wiping || (s.part p).key = 0 || (s.part p).state = 0 || !ok then s.say (.redfish false 6)
  else s.wipeStart n p str

/-- A memory of a site written with zeros by the copy engine, encrypted under the new owner's key: codes are formed anew; an armed injection
strikes (R428, R448). -/
def zeroMemory (lo hi kind : Nat) (x : Site) : Site :=
  let seen := x.m.ueSeen.map fun k => if decide (lo / 256 ≤ k / 2) && decide (k / 2 < hi / 256) then k / 2 * 2 + 1 else k
  let k := Map.get (fun _ => 0) x.keys x.wipeFor + 1
  let y := { x with m := { x.m with
    mem := Map.clearRange x.m.mem lo hi, sealed := Map.clearRange x.m.sealed (lo / 256) (hi / 256),
    wipeKey := if kind = 1 then k else x.m.wipeKey, strKey := if kind = 1 then x.m.strKey else k, bad := Map.clearRange x.m.bad (lo / 64) (hi / 64),
    cacheBad := Map.clearRange x.m.cacheBad (lo / 256) (hi / 256), ueSeen := seen } }
  let w := x.csrWord 0x30
  let u := bits w 25 24 * 2 ^ 32 + (x.csrWord 0x34).toNat
  if bits w 30 28 = kind && decide (lo ≤ 256 * u) && decide (256 * u < hi) then
    let z := writeUnit y (256 * u) (List.replicate 256 0#8)
    { z with m := { z.m with mem := y.m.mem, sealed := y.m.sealed } }
  else y

/-- WIPE_COMPLETE (R428, R417): SITE_OWN is written unless the new owner is gone; it waits until the new owner is quiescent. -/
def State.wipeDone (s : State) (n : Nat) : State :=
  let x := s.site n
  let p := x.wipeFor
  if !x.wiping || (!x.wipeStr && !s.quiescent p) then s
  else
    let y := if x.wipeStr then { zeroMemory strBase (strBase + s.mod.share * 0x1000000000) 2 x with strDirty := false }
      else { zeroMemory 0 hbmEnd 1 x with dirty := false }
    let z := { y with wiping := false, wipeStr := false, wipeFor := 15 }
    if !x.wipeStr && decide ((s.part p).key ≠ 0) && Map.get (fun _ => 0) x.keys p = (s.part p).key then
      let s1 := (s.setSite n (z.csrField 0x4 3 0 p)).confMove .site n 15 p
      if (s1.conf p).chans.contains (n / 2) then s1.restoreChan (n / 2) p else s1
    else if x.wipeStr then s.setSite n z
    else s.setSite n { z with dirty := true }

/-- DEBUG_POLICY_SET (R433): accepted in STATE 1 while quiescent, and applied by a partition reset. -/
def State.debugPolicy (s : State) (p : Nat) (on : Bool) : State :=
  if !s.mod.cc.up then s
  else if (s.part p).state ≠ 1 || !s.quiescent p then s.say (.redfish false 2)
  else ((s.ezField (0x5100 + 4 * p) 0 0 (nb on)).partCommand p 2).say (.redfish true 1)

/-- HOST_KEY_REGISTER (R424): a key with its rights in a slot, or the slot emptied. -/
def State.hostKey (s : State) (p slot : Nat) (key : Option Nat) (rights : Nat) : State :=
  let c := s.conf p
  let l := c.keys.filter fun k => k.slot ≠ slot
  if !s.mod.cc.up then s
  else if (s.part p).state = 0 || 4 ≤ rights then s.say (.redfish false 2)
  else
    (s.setConf p { c with keys := match key with | some k => l ++ [{ slot := slot, key := k, rights := rights }] | none => l }).say
      (.redfish true 1)

/-- The anti-rollback counter of a class is raised to an SVN; it never falls (R423). -/
def State.raiseArb (s : State) (c svn : Nat) : State :=
  if 6 ≤ c || svn ≤ (s.arb c).toNat || 2 ^ 32 ≤ svn then s
  else s.pregPut (0x90000 + 4 * c) (BitVec.ofNat 32 svn) (BitVec.ofNat 32 svn)

/-- A class is verified and runs (R421): none where both copies fail, which is logged. -/
def State.runClass (s : State) (c : Nat) : State × Bool :=
  match s.goodCopy c with
  | none => (s.rootRecord (0x10 + c), false)
  | some k =>
    let i := s.flash c k
    let s1 := s.updMod fun m => { m with sec := { m.sec with
      active := Map.set (fun _ => 0) m.sec.active c k, boot := Map.set (fun _ => 0) m.sec.boot c k, running := Map.set (fun _ => (0, 0)) m.sec.running c (i.digest, i.svn) } }
    (if i.commit then s1.raiseArb c i.svn else s1, true)

/-- The digest and SVN of the running image of a class; 0 for none. -/
def State.running (s : State) (c : Nat) : Nat × Nat := Map.get (fun _ => (0, 0)) s.mod.sec.running c

/-- The class of which the module in recovery accepts an image (R421): the failing one. -/
def State.failing (s : State) (c : Nat) : Bool := (c = 1 || c = 2) && c = s.mod.sec.failClass

/-- FIRMWARE_UPDATE (R421, R423, R468): the inactive copy is written, and takes effect at the next start; in recovery a verified image of the failing class restarts
power-on at stage 0, and a class 4 image installed is verified at once (R466). -/
def State.update (s : State) (i : Image) : State :=
  let c := i.cls
  let k := 1 - Map.get (fun _ => 0) s.mod.sec.active c
  let put := s.updMod fun m => { m with sec := { m.sec with
    images := (m.sec.images.filter fun x => x.1 ≠ 2 * c + k) ++ [(2 * c + k, i)], boot := Map.set (fun _ => 0) m.sec.boot c k } }
  if s.mod.sec.recovery then
    (if s.failing c && s.verifies c i then
      ((put.updMod fun m => { m with stage := 0, failStep := 0, sec := { m.sec with
        recovery := false, failClass := 0, running := [], aliasKey := 0, certIssued := false, conns := [] } }).snapSec).say (.redfish true 1)
    else s.say (.redfish false 9))
  else if !s.mod.cc.up then s
  else if c < 6 && decide (i.svn < (s.arb c).toNat) then s.say (.redfish false 9)
  else
    let s1 := if c = 4 && (s.running 4).1 = 0 then (put.runClass 4).1 else put
    s1.say (.redfish true 1)

/-- COMMIT_SECURITY_VERSION (R423). -/
def State.commitVersion (s : State) (c : Nat) : State :=
  if !s.mod.cc.up then s else (s.raiseArb c (s.running c).2).say (.redfish true 1)

/-- The words of a field's map as applied at its last power-up (Table 17.5, index 7). -/
def State.appliedWords (s : State) (f : Nat) : List Byte :=
  let x := s.field f
  if !x.mapped then []
  else ((List.range 1728).map (fun i => 4 * (1728 * f + i)) ++ [0x80000 + 8 * f, 0x80004 + 8 * f]).flatMap fun o =>
    leBytes (Map.get factoryWord x.applied o).toNat 4

/-- The measurement of an index (Table 17.5). -/
def State.measure (s : State) (i : Nat) : Option (List Nat) :=
  if 1 ≤ i && i ≤ 6 then some [nth 0 s.mod.sec.meas (i - 1)]
  else if i = 7 then some [Config.shake256 ((List.range nFields).flatMap s.appliedWords)]
  else if i = 8 then some ((List.range 6).map (fun c => (s.arb c).toNat) ++ [nb s.mod.revoke0])
  else if i = 9 then some s.mod.sec.secWords
  else if i = 10 then some ([0x80400, 0x80404, 0x80408, 0x8040C].map (fun o => (s.preg o).toNat) ++ [s.mod.serial, nb s.mod.b0])
  else if 16 ≤ i && i < 24 then
    some (match (s.part (i - 16)).job with
      | some m => [m.digest, m.slot, m.keyId, m.mseq, nb (s.part (i - 16)).debug]
      | none => [0, 0, 0, 0, 0])
  else none

/-- The indices measured. -/
def measured : List Nat := [1, 2, 3, 4, 5, 6, 7, 8, 9, 10, 16, 17, 18, 19, 20, 21, 22, 23]

/-- The certificate is issued (R419): it carries the digests of the classes verified so far; there is none without an alias key (R420). -/
def State.issueCert (s : State) : State :=
  if s.mod.sec.aliasKey = 0 then s
  else
    let s1 := s.updMod fun m => { m with sec := { m.sec with certIssued := true, meas := (List.range 6).map fun c => (s.running c).1 } }
    if s.mod.sec.secWords.isEmpty then s1.snapSec else s1

/-- How far an SPDM connection has negotiated. -/
def State.conn (s : State) (c : Nat) : Conn := Map.get (fun _ => {}) s.mod.sec.conns c
@[inherit_doc State.conn] def State.spdmAt (s : State) (c : Nat) : Nat := (s.conn c).level
@[inherit_doc State.conn] def State.setConn (s : State) (c : Nat) (x : Conn) : State :=
  s.updMod fun m => { m with sec := { m.sec with conns := Map.set (fun _ => {}) m.sec.conns c x } }
@[inherit_doc State.conn] def State.spdmGo (s : State) (c k : Nat) : State := s.setConn c { s.conn c with level := k }

/-- What passes over a connection joins its transcript (R432). -/
def State.spdmNote (s : State) (c : Nat) (l : List Nat) : State := s.setConn c { s.conn c with log := (s.conn c).log ++ l }

/-- A response, and one that the alias key signs over the transcript with it (R432). -/
def State.spdmSay (s : State) (c code : Nat) (l : List Nat) : State := (s.spdmNote c (code :: l)).say (.spdm c code l)
@[inherit_doc State.spdmSay] def State.spdmSign (s : State) (c code nonce : Nat) (l : List Nat) : State :=
  let s1 := s.spdmNote c (code :: l)
  s1.say (.spdmSigned c s.mod.sec.aliasKey nonce l (s1.conn c).log)

/-- A request that needs the attestation certificate and an agreed set of algorithms (R419, R431). -/
def State.spdmReady (s : State) (c : Nat) (k : State) : State :=
  if !s.mod.sec.certIssued then s.spdmSay c 0x7F [0x42]
  else if s.spdmAt c ≠ 3 then s.spdmSay c 0x7F [0x04]
  else k

/-- The certificates of slot 0 (Table 17.6), each the key that signs it, the key it certifies and what it carries: Huadewyn's root, the product
authority, the device identity with the serial number, the alias key with the digests of the six classes. -/
def State.certChain (s : State) : List (List Nat) :=
  let id := Config.certKey (2 + s.mod.serial)
  [[Config.certKey 0, Config.certKey 0], [Config.certKey 0, Config.certKey 1], [Config.certKey 1, id, s.mod.serial],
    [id, s.mod.sec.aliasKey] ++ s.mod.sec.meas]

/-- The digest of the chain (R431). -/
def State.chainDigest (s : State) : Nat := Config.shake256 (s.certChain.flatten.flatMap fun n => leBytes n 64)

/-- GET_VERSION: the connection starts anew. -/
def State.spdmVersion (s : State) (c : Nat) : State := (s.setConn c { level := 1, log := [0x84] }).spdmSay c 0x04 [0x13]

/-- GET_CAPABILITIES: CERT, CHAL, MEAS with signature (Table 17.6). -/
def State.spdmCaps (s : State) (c : Nat) : State :=
  if s.spdmAt c = 0 then s.spdmSay c 0x7F [0x04] else (s.spdmGo c 2).spdmSay c 0x61 [0x16]

/-- NEGOTIATE_ALGORITHMS: Falcon-1024 and SHAKE256 (R431). -/
def State.spdmAlgs (s : State) (c : Nat) (falcon shake : Bool) : State :=
  if !s.mod.sec.certIssued then s.spdmSay c 0x7F [0x42]
  else if s.spdmAt c ≠ 2 then s.spdmSay c 0x7F [0x04]
  else if falcon && shake then (s.spdmGo c 3).spdmSay c 0x63 [1, 1]
  else s.spdmSay c 0x7F [0x01]

/-- CHALLENGE: signed with the alias key. -/
def State.spdmChallenge (s : State) (c slot nonce : Nat) : State :=
  s.spdmReady c (if slot ≠ 0 then s.spdmSay c 0x7F [0x01] else s.spdmSign c 0x03 nonce [s.chainDigest])

/-- GET_MEASUREMENTS: the number of indices for 0, every index for 255, else one; signed with the alias key, from one instant (R432). -/
def State.spdmMeasure (s : State) (c idx nonce : Nat) : State :=
  s.spdmReady c
    (if idx = 0 then s.spdmSign c 0x60 nonce [measured.length]
    else if idx = 255 then s.spdmSign c 0x60 nonce (measured.flatMap fun i => i :: (s.measure i).getD [])
    else match s.measure idx with
      | some l => s.spdmSign c 0x60 nonce (idx :: l)
      | none => s.spdmSay c 0x7F [0x01])

/-- The root of trust answers: 52 V is present and stage 0 is done. -/
def State.rootUp (s : State) : Bool := s.mod.powered && decide (1 ≤ s.mod.stage)

/-- A request over one of the eight SPDM connections joins its transcript and is answered. -/
def State.spdm (s : State) (c : Nat) (req : List Nat) (k : State → State) : Host.Outcome State Fault Refusal :=
  s.checked (decide (c < 8)) (if s.rootUp then k (s.spdmNote c req) else s)

/-- Every partition key destroyed, every site dirty and without owner, no partition defined (R434, R470): the configuration stays. -/
def State.destroyAll (s : State) : State :=
  let seen := (List.range nParts).any fun p => (s.part p).debug
  let s1 := (List.range nParts).foldl State.destroyKey s
  let s2 := (List.range nSites).foldl (fun s n =>
    let x := s.site n
    let y := if x.owner = 15 then x else leaveSite x
    s.setSite n { y.csrField 0x14 3 0 15 with dirty := true, strDirty := true, wiping := false, wipeStr := false, wipeFor := 15 }) s1
  let s3 := (List.range nFields).foldl (fun s f => s.setFieldOwner f 15) s2
  let s4 := (List.range nPorts).foldl (fun s q => s.setPort q ((clearWindows (s.port q)).csrField 0x0 23 20 15)) s3
  let s5 := (List.range nParts).foldl (fun s p =>
    let q := s.part p
    s.setPart p { ledger := q.ledger, kgen := q.kgen, inv := q.inv }) s4
  if seen then s5.snapSec else s5

/-- A wipe or an abort is in progress. -/
def State.clearing (s : State) : Bool :=
  (List.range nParts).any (fun p => (s.part p).state = 4) || (List.range nSites).any fun n => (s.site n).wiping

/-- The unlock is over its module abort (R434): keys are destroyed, every site is dirty, MODDBG is set. -/
def State.unlockEnd (s : State) : State :=
  if (List.range nParts).any fun p => (s.part p).state = 4 then s
  else ((s.destroyAll.rootRecord 2).updMod fun m => { m with sec := { m.sec with modDbg := true, nonce := none, unlock := 0 } }).snapSec

/-- The test access port unlocks (R434): a module abort, in which a flip completes and hosts are told, then the rest. -/
def State.unlockNow (s : State) : State :=
  ((s.modAbort).updMod fun m => { m with sec := { m.sec with unlock := 2, nonce := none } }).unlockEnd

/-- A valid token that met a wipe or an abort takes effect when these are over (R434); one in effect goes on. -/
def State.unlockGo (s : State) : State :=
  if s.mod.sec.unlock = 2 then s.unlockEnd else if s.mod.sec.unlock = 1 && !s.clearing then s.unlockNow else s

/-- DEBUG_UNLOCK (R434): a token over the serial number and a nonce issued less than 10 min ago; any other is answered with a fresh
nonce (log entry 50). -/
def State.unlock (s : State) (serial nonce : Nat) (sigOk : Bool) : State :=
  let fresh : Bool := match s.mod.sec.nonce with
    | some n => n.1 = nonce && decide (s.now.toNat < n.2.toNat + 600000000000)
    | none => false
  if !s.rootUp then s
  else if !(sigOk && serial = s.mod.serial && fresh) then
    match s.drawKey with
    | none => s.rootRecord 1
    | some (s1, k) => (s1.rootRecord 3).updMod (fun m => { m with sec := { m.sec with nonce := some (k, s.now) } }) |>.say (.notice 5 k)
  else if s.clearing then s.updMod fun m => { m with sec := { m.sec with nonce := none, unlock := 1 } }
  else s.unlockNow

/-- PARTITION_DEFINE (R427). -/
def execPartitionDefine (p cert limit : Nat) (s : State) : Host.Outcome State Fault Refusal :=
  s.checked (decide (p < nParts) && decide (limit < 65536)) (s.partitionDefine p cert limit)

/-- PARTITION_FREE (R429). -/
def execPartitionFree (p : Nat) (s : State) : Host.Outcome State Fault Refusal := s.checked (decide (p < nParts)) (s.partitionFree p)

/-- SITE_WIPE (R428). -/
def execSiteWipe (n p : Nat) (str : Bool) (s : State) : Host.Outcome State Fault Refusal :=
  s.checked (decide (n < nSites) && decide (p < nParts)) (s.siteWipe n p str)

/-- WIPE_COMPLETE (R428). -/
def execWipeComplete (n : Nat) (s : State) : Host.Outcome State Fault Refusal := s.checked (decide (n < nSites)) (s.wipeDone n)

/-- DEBUG_POLICY_SET (R433). -/
def execDebugPolicySet (p : Nat) (on : Bool) (s : State) : Host.Outcome State Fault Refusal := s.checked (decide (p < nParts)) (s.debugPolicy p on)

/-- HOST_KEY_REGISTER (R424). -/
def execHostKeyRegister (p slot : Nat) (key : Option Nat) (rights : Nat) (s : State) : Host.Outcome State Fault Refusal :=
  s.checked (decide (p < nParts) && decide (slot < 4)) (s.hostKey p slot key rights)

/-- FIRMWARE_UPDATE (R423). -/
def execFirmwareUpdate (img : Image) (s : State) : Host.Outcome State Fault Refusal := s.checked (decide (img.cls < 7)) (s.update img)

/-- COMMIT_SECURITY_VERSION (R423). -/
def execCommitSecurityVersion (cls : Nat) (s : State) : Host.Outcome State Fault Refusal := s.checked (decide (cls < 6)) (s.commitVersion cls)

/-- GET_VERSION (R431). -/
def execGetVersion (c : Nat) (s : State) : Host.Outcome State Fault Refusal := s.spdm c [] fun s => s.spdmVersion c

/-- GET_CAPABILITIES (R431). -/
def execGetCapabilities (c : Nat) (s : State) : Host.Outcome State Fault Refusal := s.spdm c [0xE1] fun s => s.spdmCaps c

/-- NEGOTIATE_ALGORITHMS (R431). -/
def execNegotiateAlgorithms (c : Nat) (falcon shake : Bool) (s : State) : Host.Outcome State Fault Refusal :=
  s.spdm c [0xE3, nb falcon, nb shake] fun s => s.spdmAlgs c falcon shake

/-- GET_DIGESTS (R431): slot 0 alone is filled. -/
def execGetDigests (c : Nat) (s : State) : Host.Outcome State Fault Refusal :=
  s.spdm c [0x81] fun s => s.spdmReady c (s.spdmSay c 0x01 [1, s.chainDigest])

/-- GET_CERTIFICATE (R431). -/
def execGetCertificate (c slot : Nat) (s : State) : Host.Outcome State Fault Refusal :=
  s.spdm c [0x82, slot] fun s => s.spdmReady c (if slot = 0 then s.spdmSay c 0x02 s.certChain.flatten else s.spdmSay c 0x7F [0x01])

/-- CHALLENGE (R431). -/
def execChallenge (c slot nonce : Nat) (s : State) : Host.Outcome State Fault Refusal :=
  s.spdm c [0x83, slot, nonce] fun s => s.spdmChallenge c slot nonce

/-- GET_MEASUREMENTS (R432). -/
def execGetMeasurements (c idx nonce : Nat) (s : State) : Host.Outcome State Fault Refusal :=
  s.spdm c [0xE0, idx, nonce] fun s => s.spdmMeasure c idx nonce

/-- DEBUG_UNLOCK (R434). -/
def execDebugUnlock (serial nonce : Nat) (sigOk : Bool) (s : State) : Host.Outcome State Fault Refusal := .next (s.unlock serial nonce sigOk)

/-- ENTROPY_HEALTH_FAIL (R420). -/
def execEntropyHealthFail (s : State) : Host.Outcome State Fault Refusal :=
  .next ((s.updMod fun m => { m with sec := { m.sec with rngFail := true } }).rootRecord 0)

/-- QUIET_WINDOW_SET (R458): a running invocation completes first. -/
def execQuietWindowSet (p : Nat) (on : Bool) (s : State) : Host.Outcome State Fault Refusal :=
  s.checked (decide (p < nParts)) (if s.mod.cc.up then (s.setPart p { s.part p with quiet := on }).say (.redfish true 1) else s)

end Sys2Proof.Machine
end

