-- ==== Sys2Proof/Machine/BringUp.lean ====
section
/-!
DEFINITION. Feeds, power-on, and the module and tile resets (R349 to R351, R463 to R474).
-/

namespace Sys2Proof.Machine

/-- The module without 52 V (R351, Table 14.6, R473): what the factory fixed, the persistent words and the flash stay (images, the
copied log, the job service's configuration, suspects and journal, the repair lists). -/
def State.powerLost (s : State) : State :=
  let m := s.mod
  { pending := s.pending, free := s.free, now := 0, counting := false, tiles := [], fields := [],
    sites := (s.sites.filter fun x => x.2.repair ≠ []).map fun x => (x.1, { id := x.1, repair := x.2.repair }),
    ports := [], parts := [],
    mod := { b0 := m.b0, share := m.share, dramGen := m.dramGen + 1, serial := m.serial, revoke0 := m.revoke0, preg := m.preg, wear := m.wear, log := { flash := m.log.flash },
             sec := { images := m.sec.images, active := m.sec.active, boot := m.sec.boot, drawn := m.sec.drawn },
             cc := { reserveCount := m.cc.reserveCount, reserveNamed := m.cc.reserveNamed, journal := m.cc.journal,
                     journalField := m.cc.journalField, journalOpen := m.cc.journalOpen, suspects := m.cc.suspects, adders := m.cc.adders, conf := m.cc.conf } },
    outbox := s.outbox }

/-- A feed absent or present. -/
def State.setFeed (s : State) (k : Nat) (absent : Bool) : State :=
  let l := s.mod.pow.absent.filter (· ≠ k)
  s.updMod fun m => { m with pow := { m.pow with absent := if absent then l ++ [k] else l } }

/-- The fields of a feed's half may be powered again; the nodes of their auxiliary rails run (R373, R466). -/
def State.feedBack (s : State) (k : Nat) : State :=
  if !s.mod.pow.absent.contains k then s
  else
    (halfFields k).foldl (fun s f =>
      let p := (s.field f).power
      if p = 4 || p = 5 then s else s.startNodes f) (s.setFeed k false)

/-- A feed is lost (Table 14.1, Table 14.6, R351, R365): every stage of its half goes off at once, and each field of it stands at POWER 0 with
OFFCAUSE 5. With both absent the power-fail notice is raised, and the common bus is held up for a while. -/
def State.feedLost (s : State) (k : Nat) : State :=
  if s.mod.pow.absent.contains k then s
  else
    let s1 := s.setFeed k true
    let s2 := (halfFields k).foldl (fun s f =>
      let p := (s.field f).power
      if p = 1 || p = 2 || p = 3 then s.goDark f 0 5
      else ((s.setField f { s.field f with power := 0 }).ezField (pwr f 4) 7 4 5).stopNodes f) s1
    if s2.mod.pow.absent.length = 2 then (s2.post 8 (.notice 4 0)).updMod fun m => { m with holdUp := some s2.now } else s2

/-- The common bus is held up no longer (R351): at least 1 ms after the notice, and at once where no time base counts. -/
def State.holdUpOver (s : State) : State :=
  match s.mod.holdUp with
  | some t => if !s.counting || decide (t.toNat + 1000000 ≤ s.now.toNat) then s.powerLost else s
  | none => s

/-- STATE of a feed (Table 14.9), and a record of the feed monitor (Table 18.1) when it changes to another than normal. -/
def State.feedState (s : State) (k st cls : Nat) (inj : Bool) : State :=
  let o := 0x10 * k
  let old := bits (s.ez o) 2 0
  let s1 := s.ezField o 2 0 st
  if old = st || st = 1 || st = 4 then s1 else s1.raise { source := 0x0D, cls := cls, loc := feedLoc k, code := st, inj := inj, detail := [s1.ez o, s1.ez (o + 4)] }

/-- Samples of 10 µs in a row of a kind. -/
def countUp (m : Map Nat) (k : Nat) (yes : Bool) : Map Nat :=
  Map.set (fun _ => 0) m k (if yes then min 1000 (Map.get (fun _ => 0) m k + 1) else 0)

/-- FEED_VOLTAGE_SAMPLE (R350): the voltage of feed k in units of 10 mV, classified as Table 14.1 states. A half is usable again, and an
undervoltage is lifted, after 10 ms (1,000 samples) at 46.0 V or more; 50 µs is 5 samples. -/
def State.feedSample (s : State) (k mv0 : Nat) : State :=
  if !s.mod.powered || s.mod.holdUp.isSome then s
  else
    let v := (s.ezInj 1 k).getD mv0
    let inj := (s.ezInj 1 k).isSome
    let ok : Bool := decide (4600 ≤ v) && decide (v ≤ 5700)
    let pw := s.mod.pow
    let low := countUp pw.low k (v < 4200)
    let good := countUp pw.good k ok
    let s1 := (s.updMod fun m => { m with pow := { m.pow with low := low, good := good } }).ezField (0x10 * k) 31 16 (min v 65535)
    if 5700 < v then (s1.feedState k 3 1 inj).feedLost k
    else if ok then
      let s2 := if 5600 < v then s1.raise { source := 0x0D, cls := 4, loc := feedLoc k, code := 1, inj := inj, detail := [s1.ez (0x10 * k), s1.ez (0x10 * k + 4)] } else s1
      let s3 := (s2.feedState k 1 4 inj).feedHeld k
      if Map.get (fun _ => 0) good k = 1000 then
        ((s3.feedBack k).updMod fun m => { m with pow := { m.pow with uv := m.pow.uv.filter (· ≠ k) } }).allLevels
      else s3
    else if 5 ≤ Map.get (fun _ => 0) low k then (s1.feedState k 0 1 inj).feedLost k
    else
      ((s1.feedState k 2 4 inj).updMod fun m =>
        { m with pow := { m.pow with uv := if m.pow.uv.contains k then m.pow.uv else m.pow.uv ++ [k] } }).allLevels

/-- POWER_ON (R463): a feed has stayed in the normal band for 10 ms. Power-on begins at stage 0; a later feed makes its half usable. What both
feeds left held up is over before one returns. -/
def State.powerOn (s0 : State) (a b : Bool) : State :=
  let s := if s0.mod.holdUp.isSome then s0.powerLost else s0
  let back (s : State) : State :=
    let s1 := if a then (s.feedBack 0).ezField 0x0 2 0 1 else s
    if b then (s1.feedBack 1).ezField 0x10 2 0 1 else s1
  if s.mod.powered then back s
  else if a || b then
    back (s.updMod fun m => { m with powered := true, stage := 0, failStep := 0, pow := { m.pow with absent := [0, 1] } })
  else s

/-- Every site begins to train, or is out of service (Table 9.6, R466). -/
def State.sitesTrain (s : State) (bad : Nat → Bool) : State :=
  (List.range nSites).foldl (fun s n => s.setSite n { s.site n with state := if bad n then 3 else 1, chState := 1 }) s

/-- Post-package repair of the rows in a site's repair list (R441): their units are good again. -/
def repairSite (x : Site) : Site :=
  { x with repair := [], m := { x.m with reported := x.m.reported.filter fun u => !x.repair.contains u } }

/-- Stage 3: the sites whose training succeeded are ready, with their repairs, and the Stratus channels (R466). -/
def State.sitesReady (s : State) (failed : List Nat) : State :=
  (List.range nSites).foldl (fun s n =>
    let x := s.site n
    let y := if x.state = 3 || failed.contains n then { x with state := 3 } else { repairSite x with state := 2 }
    s.setSite n { y with chState := if failed.contains (64 + n / 2) then 3 else 2 }) s

/-- The module enters recovery for a class (R421, R468): no memory is trained, and the certificate is issued at once (R419). -/
def State.recover (s : State) (step cls : Nat) : State :=
  let off := (List.range nSites).foldl (fun s n => let x := s.site n; s.setSite n { x with state := if x.state = 3 then 3 else 0, chState := 0 }) s
  let s1 := (off.updMod fun m => { m with stage := 7, failStep := step, sec := { m.sec with recovery := true, failClass := cls } }).issueCert
  if s.mod.sec.recovery then s1 else s1.snapSec

/-- STAGE of MOD_BOOT. -/
def State.setStage (s : State) (n : Nat) : State := s.updMod fun m => { m with stage := n }

/-- Stage 1: firmware of the sites (class 3), of the Halo SerDes (class 5), and tile microcode (class 4, R466). Its end begins the training of stage 3,
but in recovery (R463, R468). -/
def State.stageOne (s : State) (failed : List Nat) : State :=
  let r3 := s.runClass 3
  let s1 := if s.mod.sec.recovery then r3.1 else r3.1.sitesTrain fun n => !r3.2 || failed.contains n
  let r5 := s1.runClass 5
  let s2 := if r5.2 then (List.range nPorts).foldl (fun s q => s.setPort q { s.port q with inReset := false }) r5.1 else (List.range nPorts).foldl (fun s q => s.setPort q { s.port q with state := 5, inReset := true }) r5.1
  (s2.runClass 4).1.setStage 2

/-- Stage 0: Ezper firmware (class 0) starts and the alias key is drawn (R419); none while a health test fails (R420). -/
def State.stageZero (s : State) : State :=
  let r := s.runClass 0
  if !r.2 then r.1
  else
    match r.1.drawKey with
    | some (s1, k) => (s1.updMod fun m => { m with sec := { m.sec with aliasKey := k } }).setStage 1
    | none => (r.1.rootRecord 0).setStage 1

/-- Stage 2's own work: the boot loader, then the operating system and the job service (R421, R466, R468); it waits for the training of stage 3 (R463). -/
def State.stageTwo (s : State) : State :=
  let r1 := s.runClass 1
  let r2 := if r1.2 then r1.1.runClass 2 else r1
  if r2.2 then
    let s1 := (r2.1.updMod fun m => { m with sec := { m.sec with recovery := false, failClass := 0 } }).issueCert
    (if s.mod.sec.recovery then s1.snapSec else s1).ccUp
  else r2.1.recover 2 (if r1.2 then 2 else 1)

/-- The march of stage 3 has run on every site that is ready (R463). -/
def State.marchesDone (s : State) : Bool := (List.range nSites).all fun n => (s.site n).state ≠ 2 || (s.site n).marched

/-- Stage 5 is complete (R463): every good field that may be powered up is powered, sensor-checked and logic-tested, or was left dark, and the ports that
the configuration names are trained. -/
def State.fieldsDone (s : State) : Bool :=
  ((List.range nFields).all fun f =>
    let x := s.field f
    !s.good f || (if x.power = 2 then x.sensed && x.tested else x.power ≠ 1 && x.power ≠ 3 && (x.tried || (s.fieldCmdBad f 1).isSome))) &&
  (List.range nParts).all fun p => (s.conf p).ports.all fun q => (s.port q).state = 2 || (s.port q).state = 5

/-- POWER_ON_STAGE_COMPLETE (R463, R464, R466): `failed` the sites that failed in stage 1 or 3, and 64 more than the Stratus channels
that did. Stage 2 ends in two parts: the job service starts; the training of stage 3, which runs beside it, ends. A stage whose work is not done is not
complete. -/
def State.stageDone (s : State) (failed : List Nat) : State :=
  if !s.mod.powered then s
  else
    match s.mod.stage with
    | 0 => s.stageZero
    | 1 => s.stageOne failed
    | 2 => if s.mod.cc.up then (s.sitesReady failed).setStage 3 else s.stageTwo
    | 3 => if s.marchesDone then s.setStage 4 else s
    | 4 =>
      (if s.mod.firstLock then s
      else ((s.cirSet true 0).post 8 (.notice 6 0)).raise { source := 0x11, cls := 4, loc := feedLoc 2 }).setStage 5
    | 5 => if s.fieldsDone then s.reroute.setStage 6 else s
    | _ => s

/-- MODULE_READY (R467): the stored partitions are defined again with new keys, the reserve is filled, the guarantee reported. -/
def State.moduleReady (s : State) : State :=
  if s.mod.stage = 6 && s.mod.cc.up && !s.mod.ready then
    let s1 := (List.range nParts).foldl (fun s p =>
      if (s.conf p).known && (s.part p).state = 0 then (match s.definePart p with | some t => t | none => s.rootRecord 1) else s)
      (s.updMod fun m => { m with ready := true })
    let s2 := s1.fillReserve
    ((List.range nParts).foldl (fun s p =>
      if (s.part p).state = 0 then s
      else
        let g := s2.guarantee p
        (s.setPart p { s.part p with guar := g }).post p (.hostAdvisory p 5 [g])) s2).xmasks
  else s

/-- A write of CMD 1 to MOD_RESET (R470): nothing while STAGE reads 8. -/
def State.moduleReset (s : State) (priv : Bool) : State :=
  s.privileged priv (ezAddr 0x4404) (feedLoc 2)
    (if s.mod.stage = 8 then s
    else
      (s.modAbort).updMod fun m => { m with stage := 8, failStep := 0, resetting := true, ready := false })

/-- A write of VREQ (R354, R369): the governors' ceilings follow it. -/
def State.vreqWrite (s : State) (f v : Nat) : State :=
  let p := s.fieldOwner f
  let g := if p < 8 then bits (s.ez (pwrPart p 4)) 10 8 else 0
  ((s.ezField (pwr f 0) 2 0 v).ezField (pwr f 0) 8 6 (lowered v g)).levels f

/-- Power-on restarts at stage 0, with 52 V held (R470, Table 19.3): the control complex, the sites and the ports start anew; the time base,
the error log and what the job service keeps in flash go on. In recovery the stages that it allows run again: no memory trains and no field is powered
(R468, R473). VREQ of every field is V0 (R467). -/
def State.restart (s : State) : State :=
  let s1 := (List.range nSites).foldl (fun s n => s.setSite n { s.site n with state := 0, chState := 0, marched := false }) s
  let s2 := (List.range nPorts).foldl (fun s q =>
    let st := (s.port q).state
    if 2 ≤ st && st ≤ 4 then s.haloRetrain q else s) s1
  let s3 := (List.range nFields).foldl (fun s f => (s.setField f { s.field f with tried := false }).vreqWrite f 0) s2
  s3.updMod fun m => { m with
    stage := 0
    resetting := false
    ready := false
    sec := { m.sec with running := [], aliasKey := 0, certIssued := false, conns := [], nonce := none }
    cc := { m.cc with up := false, sessions := [], changes := [] }
    pow := { m.pow with group := [] } }

/-- A module reset goes on when the abort is over: keys are destroyed and the fields drained; when every field is off, power-on restarts. -/
def State.resetGo (s : State) : State :=
  if !s.mod.resetting || (List.range nParts).any (fun p => (s.part p).state = 4) then s
  else
    let on (n : Nat) : List Nat := (List.range nFields).filter fun f => (s.field f).power = n
    if (on 1).isEmpty && (on 2).isEmpty && (on 3).isEmpty then s.destroyAll.restart
    else
      let s1 := (on 2).foldl (fun s f => s.fieldCmd f 2) s.destroyAll
      (on 1).foldl (fun s f => (s.stageOff f 0 1 false).startNodes f) s1

/-- What a tile reset resets (Table 19.3, R472): the instruction store, RTR_RDESC, RTR_STG, seeds, counters and an armed injection stay. -/
def tileResetDo (t : Tile) : Tile :=
  clearFaults { t with
    seq := .idle, fault := false, waiting := false, fcause := 0, pc := 0, sregs := [], vregs := [], pregs := [], regions := [],
    spd := [], par := [], vq := [], loose := [], ope := { ckFrac := t.ope.ckFrac } }

/-- A write of CMD 1 to TILE_RST (R469, R472): the partition is quiescent and no sweep of the tile runs. -/
def State.tileReset (s : State) (priv : Bool) (t : Nat) : State :=
  s.tileAccess priv t 0xC0C00
    (if !s.quiescent (s.tilePart t) || bit (csrWord (s.tile t) 0xB18) 2 then s.refuse (tileAddr t 0xC0C00) 0x42 t
    else s.setTile t (tileResetDo (s.tile t)))

/-- FEED_VOLTAGE_SAMPLE (R350). -/
def execFeedVoltageSample (feed mv10 : Nat) (s : State) : Host.Outcome State Fault Refusal :=
  s.checked (decide (feed < 2)) (s.feedSample feed mv10).reportGuar

/-- POWER_ON (R463). -/
def execPowerOn (a b : Bool) (s : State) : Host.Outcome State Fault Refusal := .next (s.powerOn a b)

/-- POWER_ON_STAGE_COMPLETE (R463). -/
def execPowerOnStageComplete (failed : List Nat) (s : State) : Host.Outcome State Fault Refusal := .next (s.stageDone failed)

/-- MODULE_READY (R467). -/
def execModuleReady (s : State) : Host.Outcome State Fault Refusal := .next s.moduleReady

/-- MODULE_RESET (R470). -/
def execModuleReset (priv : Bool) (s : State) : Host.Outcome State Fault Refusal := .next (s.moduleReset priv)

/-- TILE_RESET (R472). -/
def execTileReset (priv : Bool) (t : Nat) (s : State) : Host.Outcome State Fault Refusal :=
  s.checked (decide (t < nTiles)) (s.tileReset priv t)

end Sys2Proof.Machine
end

