-- ==== Sys2Proof/Machine/Control.lean ====
section
/-!
DEFINITION. Control and system instructions, the end report and the event flit (R146 to R158, R400).
-/

namespace Sys2Proof.Machine

/-- The event of a tile after the site die's answer: in the ring, or answered 0x41 or 0x46 (R400, R401). -/
def postedEvent (t : Tile) (code : Nat) (value : DWord) (taken : Bool) : Tile :=
  { t with event := t.event.map fun ev =>
      if !ev.sent || ev.code ≠ code || ev.value ≠ value then ev
      else if taken then { ev with posted := true }
      else { ev with refused := true } }

/-- The EVENT flit of tile t that has left the wafer toward its site die. -/
def isEvent (t : Nat) (f : Flit) : Bool := match f.body with | .ctl _ src 6 true => src = t | _ => false

/-- The EVENT flit of tile t among the flits that a tile's edge links hold, with its port. -/
def heldEvent (t : Nat) (x : Tile) : Option (Nat × Flit) := x.rtr.edge.findSome? fun e => (e.2.find? (isEvent t)).map fun f => (e.1, f)

/-- EVENT_POST (R400, R401): the EVENT flit of tile t reaches the site die, which puts it into the ring of its partition, or answers 0x41 where that is
full and 0x46 while the control complex restarts. An answer that no route carries is lost (R36). -/
def State.eventPost (s : State) (t : Nat) : State :=
  let p := min 8 (s.tilePart t)
  match s.tiles.findSome? fun e => (heldEvent t e.2).map fun w => (e.1, w) with
  | none => s
  | some (edge, port, f) =>
      let x := s.tile edge
      let s1 := s.setTile edge (setEdgeFlits x port ((edgeFlits x port).erase f))
      let value := nth 0#32 f.data 1 ++ nth 0#32 f.data 0
      let code := bits (nth 0#32 f.data 2) 15 0
      if s.mod.cc.up && decide ((s.mailOf p).length < 4096) then
        (s1.setMail p (s1.mailOf p ++ [{ tile := t, code := code, value := value }])).setTile t (postedEvent (s1.tile t) code value true)
      else if s.eventAnswered t then s1.setTile t (postedEvent (s1.tile t) code value false)
      else s1

/-- BEQZ (Table 6.2). -/
def execBeqz (t : Nat) (f : LB) (s : State) : Host.Outcome State Fault Refusal :=
  s.issue t fun e ts => branch e ts f true fun a _ => a = 0

/-- BNEZ (Table 6.2). -/
def execBnez (t : Nat) (f : LB) (s : State) : Host.Outcome State Fault Refusal :=
  s.issue t fun e ts => branch e ts f true fun a _ => a ≠ 0

/-- BEQ (Table 6.2). -/
def execBeq (t : Nat) (f : LB) (s : State) : Host.Outcome State Fault Refusal :=
  s.issue t fun e ts => branch e ts f false fun a b => a = b

/-- BNE (Table 6.2). -/
def execBne (t : Nat) (f : LB) (s : State) : Host.Outcome State Fault Refusal :=
  s.issue t fun e ts => branch e ts f false fun a b => a ≠ b

/-- BLT, signed (Table 6.2). -/
def execBlt (t : Nat) (f : LB) (s : State) : Host.Outcome State Fault Refusal :=
  s.issue t fun e ts => branch e ts f false fun a b => a.slt b

/-- BGE, signed (Table 6.2). -/
def execBge (t : Nat) (f : LB) (s : State) : Host.Outcome State Fault Refusal :=
  s.issue t fun e ts => branch e ts f false fun a b => !a.slt b

/-- BLTU, unsigned (Table 6.2). -/
def execBltu (t : Nat) (f : LB) (s : State) : Host.Outcome State Fault Refusal :=
  s.issue t fun e ts => branch e ts f false fun a b => a.ult b

/-- BGEU, unsigned (Table 6.2). -/
def execBgeu (t : Nat) (f : LB) (s : State) : Host.Outcome State Fault Refusal :=
  s.issue t fun e ts => branch e ts f false fun a b => !a.ult b

/-- JMP (R156). -/
def execJmp (t : Nat) (f : LB) (s : State) : Host.Outcome State Fault Refusal :=
  s.issue t fun e ts => tJmp e ts f

/-- JAL (Table 6.2). -/
def execJal (t : Nat) (f : LB) (s : State) : Host.Outcome State Fault Refusal :=
  s.issue t fun e ts => tJal e ts f

/-- JR (Table 6.2). -/
def execJr (t : Nat) (f : LB) (s : State) : Host.Outcome State Fault Refusal :=
  s.issue t fun e ts => tJr e ts f

/-- LOOP (R157). -/
def execLoop (t : Nat) (f : LB) (s : State) : Host.Outcome State Fault Refusal :=
  s.issue t fun e ts => tLoop e ts f

/-- CTL.END (R154). -/
def execCtlEnd (t : Nat) (f : LB) (s : State) : Host.Outcome State Fault Refusal :=
  s.issue t fun e ts => tEnd e ts f

/-- SYS.NOP (Table 6.2). -/
def execSysNop (t : Nat) (f : LSI) (s : State) : Host.Outcome State Fault Refusal :=
  s.issue t fun e ts => tNop e ts f

/-- SYS.FENCE (R153). -/
def execSysFence (t : Nat) (f : LSI) (s : State) : Host.Outcome State Fault Refusal :=
  s.issue t fun e ts => tFence e ts f

/-- SYS.TIME (Table 6.2, R157). -/
def execSysTime (t : Nat) (f : LSI) (s : State) : Host.Outcome State Fault Refusal :=
  s.issue t fun e ts => tTime e ts f

/-- SYS.EVENT (R158). -/
def execSysEvent (t : Nat) (f : LSI) (s : State) : Host.Outcome State Fault Refusal :=
  s.issue t fun e ts => tEvent e ts f

/-- EVENT_POST (R400). -/
def execEventPost (t : Nat) (s : State) : Host.Outcome State Fault Refusal :=
  s.checked (decide (t < nTiles)) (s.eventPost t)

/-- EVENT_RESEND (R400): the router sends the event again. -/
def execEventResend (t : Nat) (s : State) : Host.Outcome State Fault Refusal :=
  s.tileDo t fun _ ts => ts.upd fun t => { t with event := t.event.map fun ev => if ev.refused then { ev with refused := false, sent := false } else ev }

end Sys2Proof.Machine
end

