-- ==== Sys2Proof/Machine/HostBytes.lean ====
section
/-!
DEFINITION. Host messages as bytes (R404, R406): the manifest of Tables 16.3, 16.4 and 17.3, RUN and the other payloads of Table 16.5 as they come over
queue pair 1 of a Halo port in Ethernet mode, and what a SEND does (R396).
-/

namespace Sys2Proof.Machine

/-- An entry of the section table (Table 16.3): TYPE, INDEX, COUNT, OFFSET, LENGTH. -/
structure Section where
  typ : Nat
  idx : Nat
  count : Nat
  off : Nat
  len : Nat
  deriving DecidableEq, Repr

/-- The section table of a manifest. -/
def sections (l : List Byte) : List Section :=
  (List.range (min (numAt l 0x38 2) (l.length / 24))).map fun i =>
    let o := numAt l 0x40 8 + 24 * i
    { typ := numAt l o 2, idx := numAt l (o + 2) 2, count := numAt l (o + 4) 4, off := numAt l (o + 8) 8, len := numAt l (o + 16) 8 }

/-- Bytes of a record of a section type (Table 16.4); 0 for a type that has no records of one size. -/
def recordSize (typ : Nat) : Nat :=
  match typ with
  | 1 => 80
  | 3 => 256
  | 4 => 16
  | 5 => 16
  | 6 => 16
  | 7 => 24
  | 8 => 16
  | _ => 0

/-- The records of a section. -/
def Section.records (x : Section) (l : List Byte) : List (List Byte) :=
  let w := recordSize x.typ
  (List.range (min x.count (x.len / max w 1))).map fun i => (l.drop (x.off + w * i)).take w

/-- A section that is not laid out as its type says: an unknown TYPE, another LENGTH than its records have, an end beyond the manifest. -/
def Section.bad (x : Section) (l : List Byte) : Bool :=
  x.typ = 0 || decide (9 < x.typ) || decide (l.length < x.off + x.len) || (x.typ = 2 && x.len ≠ 70) ||
    (x.typ ≠ 2 && x.typ ≠ 9 && x.len ≠ x.count * recordSize x.typ) || decide (1 < x.idx)

/-- The reserved bytes of a record. -/
def recordRsv (typ : Nat) (r : List Byte) : Nat :=
  match typ with
  | 4 => numAt r 12 4
  | 5 => numAt r 1 3
  | 6 => numAt r 1 3
  | 7 => numAt r 2 6
  | _ => 0

/-- A register image of a record of TILEREGS (Table 16.4), of SITEREGS and MINUET. -/
def tileImage (r : List Byte) : RegImage := { unit := numAt r 0 4, off := numAt r 4 4, val := BitVec.ofNat 64 (numAt r 8 4) }
@[inherit_doc tileImage] def siteImage (r : List Byte) : RegImage := { unit := numAt r 0 1, off := numAt r 4 4, val := BitVec.ofNat 64 (numAt r 8 8) }

/-- The records of the sections of a type, and of an INDEX, in order. -/
def recordsOf (l : List Byte) (typ : Nat) (idx : Option Nat) : List (List Byte) :=
  ((sections l).filter fun x => x.typ = typ && (match idx with | none => true | some i => x.idx = i)).flatMap fun x => x.records l

/-- The bytes of the sections of a type. -/
def bytesOf (l : List Byte) (typ : Nat) : List Byte :=
  ((sections l).filter fun x => x.typ = typ).flatMap fun x => (l.drop x.off).take x.len

/-- The manifest that the bytes of a SUBMIT spell (R404, R425): the LENGTH bytes of Tables 16.3 and 16.4, then the signature block of Table 17.3 over
them and the serial number. Records of ARGS and BASE stand in the order of the classes, INDEX naming the binary (log entry 154). What is not laid out so counts
as a reserved byte. -/
def readManifest (serial : Nat) (all : List Byte) : Manifest :=
  let length := numAt all 0x48 8
  let l := all.take length
  let sig := all.drop length
  let n (o k : Nat) : Nat := numAt l o k
  let res := bytesOf l 9
  let rsv := n 0x2F 1 + n 0x3A 6 + ((l.drop 0x50).take 48).foldl (fun a b => a + b.toNat) 0 + numAt sig 5 3 +
    ((sections l).map fun x => nb (x.bad l) + ((x.records l).map (recordRsv x.typ)).sum).sum +
    nb (decide (l.length ≠ length) || decide (length < 0x80) || sig.length ≠ 1296 || numAt sig 0 4 ≠ 0x53474D54 || (sections l).length ≠ n 0x38 2)
  { magic := n 0 4, ver := n 4 1, part := n 5 1, flags := n 6 2, mseq := n 8 8, layout := n 0x10 8, wdog := n 0x18 4, cap := n 0x1C 2,
    pseed := n 0x1E 2, tau := BitVec.ofNat 32 (n 0x20 4), escale := n 0x24 1, emin := n 0x25 1, emax := n 0x26 1, dsite := n 0x27 1,
    grow := n 0x28 2, srate := n 0x2A 1, srateMax := n 0x2B 1, rmin := n 0x2C 1, rmax := n 0x2D 1, expDefer := n 0x2E 1, expW := n 0x30 2,
    ntied := n 0x32 2, kvtok := n 0x34 4, rsv := rsv, length := length,
    bins := (recordsOf l 1 (some 0) ++ recordsOf l 1 (some 1)).map fun r =>
      { digest := ofLeBytes (r.take 64), addr := numAt r 64 8, len := numAt r 72 8 },
    fmap := (bytesOf l 2).map (·.toNat),
    args := [0, 1].flatMap fun b => (recordsOf l 3 (some b)).zipIdx.map fun r =>
      { cls := r.2, bin := b, vals := (List.range 32).map fun i => BitVec.ofNat 64 (numAt r.1 (8 * i) 8) },
    tileRegs := (recordsOf l 4 (some 0)).map tileImage, siteRegs := (recordsOf l 5 (some 0)).map siteImage,
    tileRegs1 := (recordsOf l 4 (some 1)).map tileImage, siteRegs1 := (recordsOf l 5 (some 1)).map siteImage,
    minuet := (recordsOf l 6 none).map siteImage,
    halo := (recordsOf l 7 none).map fun r =>
      { port := numAt r 0 1, win := numAt r 1 1, base := numAt r 8 8, len := numAt r 16 4, ctl := numAt r 20 4 },
    base := (recordsOf l 8 none).zipIdx.map fun r => { cls := r.2, addr := numAt r.1 0 8, len := numAt r.1 8 8 },
    fields := Config.resourceUnits 0 res, sites := Config.resourceUnits 1 res, chans := Config.resourceUnits 2 res, ports := Config.resourceUnits 3 res,
    digest := Config.shake256 l, slot := numAt sig 4 1, keyId := numAt sig 8 8,
    sigOk := Config.falcon (numAt sig 8 8) (l ++ leBytes serial 16) ((sig.drop 16).take 1280) }

/-- An entry of a sequence table, of a stream table as their bytes spell it (Tables 12.3, 12.4). -/
def readSeq (l : List Byte) : SeqEntry :=
  { start := numAt l 0 4, len := numAt l 4 4, flags := numAt l 8 2, var := numAt l 10 2, rsv := numAt l 12 4 }
@[inherit_doc readSeq] def readStream (l : List Byte) : StreamEntry :=
  { plen := numAt l 0 4, gmax := numAt l 4 4, seed := numAt l 8 4, var := numAt l 12 2, flags := numAt l 14 2 }

/-- The RUN that a payload spells (Table 16.5): the places of its fields and of its table are not stated (log entry 154); the table's entries are those of
Tables 12.3 and 12.4. -/
def readRun (l : List Byte) : RunReq :=
  let k (i : Nat) : Nat := Config.runField i l
  let rows := (List.range (min (k 5) (l.length / 16))).map fun i => (l.drop (k 4 + 16 * i)).take 16
  { bin := k 0, n := k 1, input := k 2, samples := k 3, seqs := if k 6 = 0 then rows.map readSeq else [],
    streams := if k 6 = 0 then [] else rows.map readStream }

/-- Most bytes of a message's payload: 1 MiB for PUT, else 65,536 (R406). -/
def mostPayload (typ : Nat) : Nat := if typ = 10 then 2 ^ 20 else 65536

/-- A message of a TYPE for partition p (Table 16.5). A TYPE that no host sends is refused as a reserved value (log entry 156). -/
def State.hostDo (s : State) (typ p tag : Nat) (l : List Byte) : State :=
  let st (s : State) : State := s.say (s.statusMsg p tag)
  match typ with
  | 1 => s.submit p tag (readManifest s.mod.serial l)
  | 2 => s.runMsg p tag (readRun l)
  | 3 => st (s.haltRun p)
  | 4 => s.abortMsg p tag
  | 5 => st (s.taintMsg p (numAt l 0 1 % 2 = 1))
  | 6 => s.exportMsg p tag
  | 7 => st s
  | 8 => s.releaseMsg p
  | 9 => s.capMsg p tag (numAt l 0 2)
  | 10 => s.putMsg p tag (numAt l 0 8) (l.drop 8)
  | _ => s.say (.hostRefused tag p 9 0 0 0)

/-- A host message over queue pair 1 of port q (R406): its 16-byte header, then its payload. One that is not laid out so is refused as a reserved value
(log entry 156). -/
def State.hostBytes (s : State) (q : Nat) (l : List Byte) : State :=
  let p := numAt l 4 1
  let tag := numAt l 8 4
  let typ := numAt l 0 2
  let body := l.drop 16
  if !s.mod.cc.up || l.length < 16 then s
  else if s.portOwner q ≠ p then s.wrongPart tag p
  else if numAt l 5 3 ≠ 0 || numAt l 12 4 ≠ body.length || mostPayload typ < body.length then s.say (.hostRefused tag p 9 0 0 0)
  else s.hostDo typ p tag body

/-- ROCE_SEND (R396, R406): a SEND on queue pair 1 is a host message; on another it lands in its next receive area. -/
def State.roceSend (s : State) (q qp : Nat) (data : List Byte) : State :=
  if qp = 1 then (if s.roceUp q 1 && decide (s.portOwner q < nParts) then s.hostBytes q data else s) else s.roceLand q qp data

/-- ROCE_SEND (R396). -/
def execRoceSend (q qp : Nat) (data : List Byte) (s : State) : Host.Outcome State Fault Refusal := s.portDo q (s.roceSend q qp data)

/-- The job service sets up a port in Ethernet mode that is up: it has the addresses that Redfish gave it (Table 15.5; log entry 160), and a receive area is
posted for a queue pair (R396): which pair and which area are free values (log entry 27), of what the port's windows hold. -/
def State.postArea (s : State) (q : Nat) : State :=
  let o := { s.port q with addrs := if s.mod.cc.up then Config.portAddrs q else (s.port q).addrs }
  let v (k : Nat) : Nat := (Config.freeValue (s.free + k)).toNat
  let qp := 2 + v 0 % 1022
  let area := (v 1 % 64, v 2 % 2 ^ 32, v 3 % 2 ^ 32)
  let fits : Bool := s.roceUp q qp && s.mod.cc.up && decide (s.haloStatus q area.1 area.2.1 area.2.2 false = 0)
  { s with free := s.free + 4 }.setPort q
    { o with posted := if fits then Map.set (fun _ => []) o.posted qp (Map.get (fun _ => []) o.posted qp ++ [area]) else o.posted }

end Sys2Proof.Machine
end

