-- ==== Sys2Proof/Machine/OpeCmd.lean ====
section
/-!
DEFINITION. The outer-product engine and the shared ports (R43 to R74, R126, R172 to R180, R197).
-/

namespace Sys2Proof.Machine

/-- A command acts on accumulator set k of tile t. -/
def State.setDo (s : State) (t k : Nat) (f : Env → TS → TS) : Host.Outcome State Fault Refusal :=
  s.checked (decide (t < nTiles) && decide (k < 2)) (if (s.field (fieldOf t)).power = 2 then s.onTile t f else s)

/-- The port that takes a free slot of a bank (R126): the drain first, else in turn from the port after the last winner. -/
def slotWinner (last : Nat) (want : List Nat) : Option Nat :=
  if want.contains 2 then some 2
  else ((List.range 5).map fun i => 3 + (last + 3 + i) % 5).find? fun q => want.contains q

/-- The last winner of a bank; 7 before any has won, so that port 3 stands first (log entry 30). -/
def lastWinner (t : Tile) (bank : Nat) : Nat := Map.get (fun _ => 7) t.lastWin bank

/-- A slot of a bank: its winner is served; when it is the vector engine's, its queue goes on. -/
def tShared (e : Env) (ts : TS) (bank : Nat) (feed : Bool) (want : List Nat) : TS :=
  if feed then ts
  else
    match slotWinner (lastWinner ts.t bank) want with
    | none => ts
    | some q =>
      let u := ts.upd fun t => { t with lastWin := Map.set (fun _ => 7) t.lastWin bank q }
      if q = 3 || q = 4 then goVq e u else u

/-- OPE.MUL.CLR (R48, R172). -/
def execOpeMulClr (t : Nat) (f : LOM) (s : State) : Host.Outcome State Fault Refusal :=
  s.issue t fun e ts => tOpeMul e ts f false

/-- OPE.MUL.CONT (R48, R173). -/
def execOpeMulCont (t : Nat) (f : LOM) (s : State) : Host.Outcome State Fault Refusal :=
  s.issue t fun e ts => tOpeMul e ts f true

/-- OPE.DRN (R177 to R179). -/
def execOpeDrn (t : Nat) (f : LOD) (s : State) : Host.Outcome State Fault Refusal :=
  s.issue t fun e ts => tOpeDrn e ts f

/-- OPE.CUBE (R73, R180). -/
def execOpeCube (t : Nat) (f : LOC) (s : State) : Host.Outcome State Fault Refusal :=
  s.issue t fun e ts => tOpeCube e ts f

/-- OPE_FEED_BEAT (R197). -/
def execOpeFeedBeat (t : Nat) (s : State) : Host.Outcome State Fault Refusal :=
  s.tileDo t fun e ts => (tFeedBeat e ts).out ts

/-- OPE_SET_READY (R51). -/
def execOpeSetReady (t k : Nat) (s : State) : Host.Outcome State Fault Refusal :=
  s.setDo t k fun _ ts => ts.upd fun t => tSetReady t k

/-- OPE_DRAIN_START (R51, R274). -/
def execOpeDrainStart (t k : Nat) (s : State) : Host.Outcome State Fault Refusal :=
  s.setDo t k fun e ts => (tDrainStart e ts k).out ts

/-- OPE_CHECK (R61 to R68). -/
def execOpeCheck (t k : Nat) (upset : List (Nat × Nat × Nat)) (s : State) : Host.Outcome State Fault Refusal :=
  s.setDo t k fun e ts => (tCheck e ts k upset).out ts

/-- SHARED_PORT_ACCESS (R126): one slot of a bank, which a feed claims or the ports that want it contend for. -/
def execSharedPortAccess (t bank : Nat) (feed : Bool) (want : List Nat) (s : State) : Host.Outcome State Fault Refusal :=
  s.checked (decide (t < nTiles) && decide (bank < 32) && want.all fun q => decide (2 ≤ q) && decide (q ≤ 7))
    (if (s.field (fieldOf t)).power = 2 then s.onTile t fun e ts => tShared e ts bank feed want else s)

end Sys2Proof.Machine
end

