-- ==== Sys2Proof/Machine/PavaneCmd.lean ====
section
/-!
DEFINITION. The commands of the update engines and of the Pavane state machine (R306 to R333, R476).
-/

namespace Sys2Proof.Machine

/-- Every site of the partition has sent its partial in this step (R319). -/
def State.allFinished (s : State) (p : Nat) : Bool := (s.sitesOf p).all fun n => (s.site n).upd.finished

/-- SITE_FINISHED (R319): the partial goes to DSITE, behind the taints that the site has not passed on yet (R320); with the last of the
partials DSITE gathers (Table 11.8). -/
def State.siteFinish (s0 : State) (n : Nat) : State :=
  let s := if (s0.site n).upd.taints.isEmpty then s0 else s0.taintPropagate n
  let x := s.site n
  let p := x.owner
  let d := s.dsite p
  if 8 ≤ p || nSites ≤ d || pavState x ≠ 1 || x.upd.finished || !siteFinished x then s
  else
    let s1 := s.setSite n { x with upd := { x.upd with finished := true } }
    let y := s1.site d
    let s2 := s1.setSite d { y with upd := { y.upd with partials := Map.set (fun _ => 0#64) y.upd.partials n (ssq x) } }
    if s2.allFinished p then s2.eachSite p fun z => z.csrField 0x624 3 0 2 else s2

/-- N² (R319): the partials of the sites in ascending index, FP64 additions. -/
def State.normSq (s : State) (p : Nat) : Val :=
  let d := s.site (s.dsite p)
  (s.sitesOf p).foldl (fun a n => add64 a (f64 (Map.get (fun _ => 0#64) d.upd.partials n))) (.num false 0 0)

/-- c = TAU / N in FP64, rounded once to FP32 (R319). -/
def tauOver (x : Site) (nsq : DWord) : Word := toF32 (div64 (f32 (x.csrWord 0x634)) (sqrt64 (f64 nsq)))

/-- N ≤ TAU (R319): false where TAU is a NaN (Table 3.4). -/
def withinTau (x : Site) (nsq : DWord) : Bool :=
  let tau := f32 (x.csrWord 0x634)
  tau ≠ .nan && !ltVal tau (sqrt64 (f64 nsq))

/-- PAVANE_DECIDE (R319): withhold, flip or fold. -/
def State.pavaneDecide (s : State) (p : Nat) : State :=
  let d := s.dsite p
  let x := s.site d
  if nSites ≤ d || pavState x ≠ 2 then s
  else
    let n2 := s.normSq p
    let code := toF64 n2
    let s1 := s.setSite d ((x.csrPut 0x640 (code.setWidth 32)).csrPut 0x644 ((code >>> 32).setWidth 32))
    let s2 := if nonFinite n2 then
        (s1.onSite d fun e y => (detectTaint e y 3 0 0 0).upd fun z => { z with upd := { z.upd with taints := [] } }).taintAt p [3]
      else s1
    let y := s2.site d
    let fired := (s2.sitesOf p).any fun n => (s2.site n).upd.clip1
    if tainted y then s2.outcome p (if leanMode y then 7 else 6)
    else if leanMode y || !fired || withinTau y code then
      s2.eachSite p fun z => z.csrField 0x624 3 0 4
    else s2.eachSite p fun z => (z.csrField 0x624 3 0 3).csrPut 0x648 (tauOver y code)

/-- FOLD_COMPLETE (R322). -/
def State.foldComplete (s : State) (p : Nat) : State :=
  let d := s.dsite p
  if nSites ≤ d || pavState (s.site d) ≠ 3 || tainted (s.site d) then s
  else if (s.sitesOf p).all fun n => (s.site n).upd.folded && (s.site n).upd.taints.isEmpty then
    s.eachSite p fun z => z.csrField 0x624 3 0 4
  else s

/-- c_lag after a flip (R323): min(1, TAU / N) in FP32, the quotient by the root of R319 rounded once (log entry 75); kept where no counted
block fired. -/
def State.newLag (s : State) (p : Nat) : Word :=
  let x := s.site (s.dsite p)
  if (s.sitesOf p).any fun n => (s.site n).upd.counted then
    toF32 (minVal oneVal (div32 (f32 (x.csrWord 0x634)) (sqrt64 (f64 (x.csrWord 0x644 ++ x.csrWord 0x640)))))
  else x.csrWord 0x64C

/-- FLIP_COMPLETE (R322, R323). -/
def State.flipComplete (s : State) (p : Nat) : State :=
  let d := s.dsite p
  let x := s.site d
  if nSites ≤ d || pavState x ≠ 4 then s
  else
    let lag := s.newLag p
    let step := x.csrWord 0x628 + 1
    let s1 := s.eachSite p fun y =>
      let y1 := (y.csrPut 0x628 step).csrPut 0x64C lag
      if leanMode y then y1 else y1.csrField 0x624 8 8 (1 - pavEpoch y)
    s1.outcome p 5

/-- EXPORT_COMPLETE (R332): the records not yet written are, and the end is posted. -/
def State.exportComplete (s : State) (n : Nat) : State :=
  let x := s.site n
  if !x.exp.busy then s
  else
    let k := bits (x.csrWord 0x664) 19 0
    let y := exportRest (k - x.exp.next) x
    if y.exp.busy then
      (s.setSite n { y with exp := { y.exp with busy := false } }).post (min 8 x.owner)
        (.hostExported (s.part x.owner).expTag x.owner n (bits (y.csrWord 0x668) 27 0) k)
    else s.setSite n y

/-- DSITE_REASSIGN (R328): the lowest-indexed enabled site of the partition, with the last step record copied to it. -/
def State.dsiteReassign (s : State) (p : Nat) : State :=
  let d := s.dsite p
  let st := pavState (s.site d)
  match (s.sitesOf p).find? fun n => (s.site n).state ≠ 3 with
  | none => s
  | some n =>
    if d = n || (decide (d < nSites) && (s.site d).owner = p && (s.site d).state ≠ 3) || !s.quiescent p || (1 ≤ st && st ≤ 4) then s
    else
      let o := s.site d
      let r := o.bytes (256 * bits (o.csrWord 0x650) 27 0) 256
      let s1 := s.eachSite p fun y => y.csrField 0x600 29 24 n
      s1.setSite n (writeUnit (s1.site n) (256 * bits ((s1.site n).csrWord 0x650) 27 0) r)

/-- BIND_RECORD (R310). -/
def execBindRecord (n : Nat) (s : State) : Host.Outcome State Fault Refusal := s.siteDo n bindRecord

/-- BLOCK_UPDATE (R306). -/
def execBlockUpdate (n : Nat) (s : State) : Host.Outcome State Fault Refusal := s.siteDo n blockUpdate

/-- UPDATE_WRITE_COMPLETE (R310). -/
def execUpdateWriteComplete (n : Nat) (s : State) : Host.Outcome State Fault Refusal :=
  s.siteDo n fun _ x => x.upd updateComplete

/-- TAINT_PROPAGATE (R321). -/
def execTaintPropagate (n : Nat) (s : State) : Host.Outcome State Fault Refusal :=
  s.checked (decide (n < nSites)) (s.taintPropagate n)

/-- SITE_FINISHED (R319). -/
def execSiteFinished (n : Nat) (s : State) : Host.Outcome State Fault Refusal :=
  s.checked (decide (n < nSites)) (s.siteFinish n)

/-- PAVANE_DECIDE (R319). -/
def execPavaneDecide (p : Nat) (s : State) : Host.Outcome State Fault Refusal :=
  s.checked (decide (p < nParts)) (s.pavaneDecide p)

/-- FOLD (R324). -/
def execFold (n : Nat) (s : State) : Host.Outcome State Fault Refusal :=
  s.siteDo n fun e x => if pavState x.s = 3 then foldSite e x else x

/-- FOLD_COMPLETE (R322). -/
def execFoldComplete (p : Nat) (s : State) : Host.Outcome State Fault Refusal :=
  s.checked (decide (p < nParts)) (s.foldComplete p)

/-- FLIP_COMPLETE (R323). -/
def execFlipComplete (p : Nat) (s : State) : Host.Outcome State Fault Refusal :=
  s.checked (decide (p < nParts)) (s.flipComplete p)

/-- ARM (R329): CMD 1 to SITE_PAV_CTL. -/
def execArm (priv : Bool) (n : Nat) (s : State) : Host.Outcome State Fault Refusal :=
  s.checked (decide (n < nSites)) (s.siteWrite priv n 0x620 1)

/-- TAINT with halving (R320). -/
def execTaintHalve (priv : Bool) (n : Nat) (s : State) : Host.Outcome State Fault Refusal := s.siteReg priv n 0x620 2

/-- TAINT without halving (R320). -/
def execTaintNoHalve (priv : Bool) (n : Nat) (s : State) : Host.Outcome State Fault Refusal := s.siteReg priv n 0x620 3

/-- CLEAR (R322). -/
def execClear (priv : Bool) (n : Nat) (s : State) : Host.Outcome State Fault Refusal := s.siteReg priv n 0x620 4

/-- EXPORT_START (R331). -/
def execExportStart (priv : Bool) (n : Nat) (s : State) : Host.Outcome State Fault Refusal := s.siteReg priv n 0x66C 1

/-- EXPORT_CANCEL (R331). -/
def execExportCancel (priv : Bool) (n : Nat) (s : State) : Host.Outcome State Fault Refusal := s.siteReg priv n 0x66C 2

/-- EXPORT_COMPLETE (R332). -/
def execExportComplete (n : Nat) (s : State) : Host.Outcome State Fault Refusal :=
  s.checked (decide (n < nSites)) (s.exportComplete n)

/-- DSITE_REASSIGN (R328). -/
def execDsiteReassign (p : Nat) (s : State) : Host.Outcome State Fault Refusal :=
  s.checked (decide (p < nParts)) (s.dsiteReassign p)

end Sys2Proof.Machine
end

