-- ==== Sys2Proof/Machine/Reliability.lean ====
section
/-!
DEFINITION. Faults in service: judgements, re-sparing and retirement (R28, R41, R455 to R457), persistent words (R461), injection
(R446 to R450), sweeps (R453) and self-tests (R458 to R460).
-/

namespace Sys2Proof.Machine

/-- 24 h in nanoseconds. -/
def dayNs : Nat := 86400000000000

/-- The times that lie within 24 h. -/
def State.recent (s : State) (l : List DWord) : List DWord := l.filter fun t => decide (s.now.toNat < t.toNat + dayNs)

/-- A bad tile's entry: STATE 2, ORIGIN 1 (Table 1.3). -/
def badEntry (f cause : Nat) : Word := BitVec.ofNat 32 (2 * 2 ^ 29 + cause % 8 * 2 ^ 26 + 2 ^ 24 + f * 2 ^ 16 + 0xFFF0)

/-- The entries of a map with bypassed column b (R18, Table 1.3): bad tiles by index and cause. ORIGIN of the entries of STATE 3 and STATE 0 that an
in-service re-spare writes is 0 (log entry 60). -/
def State.spareWord (s : State) (f b : Nat) (bads : List (Nat × Nat)) (i : Nat) : Word :=
  let c := i % 36
  if c = b then
    (match bads.find? fun x => x.1 = i with
    | some x => badEntry f x.2
    | none => if bits (s.mapEntry f i) 31 29 = 2 then s.mapEntry f i else BitVec.ofNat 32 (3 * 2 ^ 29 + f * 2 ^ 16 + 0xFFF0))
  else BitVec.ofNat 32 (f * 2 ^ 16 + (if c < b then c else c - 1) * 2 ^ 10 + i / 36 * 2 ^ 4)

/-- Field f is re-spared: column b is bypassed, and the entries that change are written (R41). -/
def State.respareTo (s : State) (f b : Nat) (bads : List (Nat × Nat)) : State :=
  let new := (List.range 1728).map (s.spareWord f b bads)
  let words := ((List.range 1728).filter fun i => nth 0 new i ≠ s.mapEntry f i).map fun i => { idx := i, val := nth 0 new i }
  s.writeMap f words (new.filter fun w => bits w 31 29 = 2).length b false

/-- Field f is retired (R41, R456): STATE 5 in every entry, RETIRED, and one live field less. -/
def State.retireField (s : State) (f : Nat) : State :=
  let w := BitVec.ofNat 32 (5 * 2 ^ 29 + 2 ^ 24 + f * 2 ^ 16 + 0xFFF0)
  let s1 := s.writeMap f ((List.range 1728).map fun i => { idx := i, val := w }) 0 (bits (s.mapSum f) 5 0) true
  let n := BitVec.ofNat 32 ((s1.preg 0x80410).toNat - 1)
  s1.pregPut 0x80410 n n

/-- The spare column of a field is used, or holds a bad tile. -/
def State.spareUsed (s : State) (f : Nat) : Bool :=
  bits (s.mapSum f) 5 0 ≠ 35 || (List.range 48).any fun r => bits (s.mapEntry f (36 * r + 35)) 31 29 = 2

/-- A tile is judged bad (R41, R455): in the bypassed column it is recorded at once; else its field waits to be re-spared, or to be
retired where the spare is used or two columns are bad, that of the spare among them. A reserve field leaves the reserve (R457). -/
def State.judgeBad (s : State) (phys cause : Nat) : State :=
  let f := phys / 1728
  let i := phys % 1728
  let b := bits (s.mapSum f) 5 0
  let x := s.field f
  if nFields ≤ f || !s.good f || bits (s.mapEntry f i) 31 29 = 2 || x.respare.any (fun y => y.1 = i) then s
  else if i % 36 = b then
    let two := x.respare.any fun y => y.1 % 36 ≠ b
    (s.setField f { x with retire := x.retire || two }).writeMap f [{ idx := i, val := badEntry f cause }] (bits (s.mapSum f) 15 8 + 1) b false
  else
    s.setField f { x with
      respare := x.respare ++ [(i, cause)], reserve := false,
      retire := x.retire || s.spareUsed f || x.respare.any fun y => y.1 % 36 ≠ i % 36 }

/-- A tile enters the suspect list, by its physical index (R455); a record enters once. -/
def State.suspectTile (s : State) (phys source : Nat) (t : DWord) : State :=
  let l := s.mod.cc.suspects
  let hits := match l.find? fun x => x.phys = phys with | some x => x.hits | none => []
  if hits.contains (source, t) then s
  else s.updMod fun m => { m with cc := { m.cc with
    suspects := l.filter (fun x => x.phys ≠ phys) ++ [{ phys := phys, hits := hits ++ [(source, t)] }] } }

/-- Records of a source about a tile within 24 h. -/
def State.hitsOf (s : State) (phys source : Nat) : Nat :=
  match s.mod.cc.suspects.find? fun x => x.phys = phys with
  | some x => (s.recent ((x.hits.filter fun h => h.1 = source).map (·.2))).length
  | none => 0

/-- A router is named as suspected adder: bad with the third record in 24 h (R455). -/
def State.suspectAdder (s : State) (t : DWord) (tile : Nat) : State :=
  let phys := physOf (s.field (fieldOf tile)).bypass tile
  let l := s.mod.cc.adders
  let s1 := if l.contains (phys, t) then s else s.updMod fun m => { m with cc := { m.cc with adders := l ++ [(phys, t)] } }
  let n := (s1.recent ((s1.mod.cc.adders.filter fun x => x.1 = phys).map (·.2))).length
  if 3 ≤ n then s1.judgeBad phys 5 else s1.suspectTile phys 6 t

/-- The field test registers: RESULT, BUSY, KIND (Table 18.13). -/
def testBusy (x : Field) : Bool := bit (x.csrWord 0x20) 2
@[inherit_doc testBusy] def testStart (x : Field) (k : Nat) : Field := x.csrPut 0x20 (BitVec.ofNat 32 (k * 2 ^ 24 + 4))

/-- A test of kinds 1 to 3 is admitted by the field (R458). -/
def State.testable (s : State) (f : Nat) : Bool :=
  let p := s.fieldOwner f
  (s.field f).power = 2 && (decide (8 ≤ p) || (s.part p).state = 1 || (s.part p).state = 2)

/-- The job service starts a test there (R458, Table 14.7): on an owned field with no job, or in a quiet window; the module's mean
power over its last 20 windows plus 300 W for each field tested stays within 0.95 of ECAP, and the half's feed within 0.95 of its LIMIT. -/
def State.testAllowed (s : State) (f : Nat) : Bool :=
  let p := s.fieldOwner f
  let k := ((List.range nFields).filter fun g => testBusy (s.field g)).length + 1
  let o := 0x10 * feedOf f
  let w := s.mod.pow.windows
  (decide (8 ≤ p) || (s.part p).state = 1 || ((s.part p).quiet && s.quiescent p)) &&
    decide ((w.sum + 300 * k * w.length) * 100 ≤ 95 * bits (s.ez 0x20) 31 16 * w.length) &&
    decide (bits (s.ez (o + 4)) 15 0 * 100 ≤ 95 * bits (s.ez (o + 8)) 15 0)

/-- A write of CMD 1 and KIND k to FLD_TEST (R458 to R460). -/
def State.startTest (s : State) (priv : Bool) (f k : Nat) : State :=
  let x := s.field f
  s.privileged priv (fieldAddr f 0x20) (fieldLoc f)
    (if testBusy x then s.refuse (fieldAddr f 0x20) 0x4A (fieldLoc f)
    else if k = 0 || 5 ≤ k then s.refuse (fieldAddr f 0x20) 0x49 (fieldLoc f)
    else if k ≠ 4 && !s.testable f then
      (s.setField f (x.csrPut 0x20 (BitVec.ofNat 32 (k * 2 ^ 24 + 4 * 2 ^ 12)))).raise
        { source := 0x23, cls := 3, loc := fieldLoc f, addr := fieldAddr f 0x20 }
    else s.setField f (testStart x k))

/-- The job service starts a test of a kind where it may. -/
def State.jobTest (s : State) (priv : Bool) (f k : Nat) : State :=
  if priv && k ≠ 4 && s.testable f && !testBusy (s.field f) && !s.testAllowed f then s else s.startTest priv f k

/-- What a logic test leaves of a tile (Table 18.12): scratchpad, instruction store, descriptors, staging maps and RTR_RDESC are clear. -/
def testedTile (t : Tile) : Tile :=
  { t with
    spd := [], par := [], istore := [], regions := [],
    csr := t.csr.filter fun e => !((decide (0xA00 ≤ e.1) && decide (e.1 < 0xA40)) || decide (0x1000 ≤ e.1)) }

/-- FLD_TEST_COMPLETE (R459): `fail` the UNIT, physical column and row of a failing tile, `outliers` the sensors that disagree. A tile
that fails a logic test is bad (Table 18.11); a reserve field that fails leaves the reserve (R457). -/
def State.testDone (s : State) (f : Nat) (fail : Option (Nat × Nat × Nat)) (outliers : List Nat) : State :=
  let x := s.field f
  let k := bits (x.csrWord 0x20) 27 24
  let bad : Bool := if k = 4 then !outliers.isEmpty else fail.isSome
  if !testBusy x then s
  else
    let y := (x.csrField 0x20 2 2 0).csrField 0x20 15 12 (if bad then 2 else 1)
    let z := if k = 4 then { y with sensed := true, marked := y.marked ++ outliers.filter fun i => !y.marked.contains i }
      else match fail with
        | some (u, c, r) => { y.csrPut 0x24 (BitVec.ofNat 32 (2 ^ 31 + u % 8 * 2 ^ 28 + c % 64 * 2 ^ 16 + r % 64 * 2 ^ 10)) with reserve := false }
        | none => y
    let s1 := s.setField f (if k = 1 then { z with tested := true } else z)
    let s2 := if k = 1 then s1.mapTiles fun t v => if fieldOf t = f then testedTile v else v else s1
    if k = 1 && s.mod.cc.up then
      (match fail with | some (u, c, r) => s2.judgeBad (1728 * f + 36 * r + c) u | none => s2)
    else s2

/-- The judgement of a record about a tile (Table 18.11): a detection is suspect, and bad where the table says so. -/
def State.judgeTile (s : State) (r : LogRec) : State :=
  let s1 := s.suspectTile r.phys r.source r.time
  if r.source = 0x02 then (if r.cls = 1 then s1.judgeBad r.phys 2 else s1)
  else if r.source = 0x03 then (if r.cls = 1 then s1.judgeBad r.phys 3 else s1)
  else if r.source = 0x07 then (if r.cls = 1 then s1.judgeBad r.phys 1 else s1)
  else if r.source = 0x28 then s1.judgeBad r.phys 5
  else if r.source = 0x01 then (if 2 ≤ s1.hitsOf r.phys 1 then s1.judgeBad r.phys 1 else s1)
  else if r.source = 0x04 then (if 2 ≤ s1.hitsOf r.phys 4 then s1.judgeBad r.phys 4 else s1)
  else s1

/-- ERROR_RECORD_JUDGE of a record (R455): tiles by their physical index; the adding routers of the descriptor that a sample check
suspects, or of both trees; a field by its repeated events. A record of a tile whose field is dark waits (R457). -/
def State.judge (s : State) (r : LogRec) : State :=
  let f := r.phys / 1728
  if r.loc / 2 ^ 28 ≤ 1 then
    (if nFields ≤ f || (s.field f).power ≠ 2 then s
    else if r.source ≤ 0x07 || r.source = 0x13 || r.source = 0x28 then s.judgeTile r
    else s)
  else if r.source = 0x06 then
    let n := r.loc % 64
    let mirror : List Nat := match bktFind (s.site n) (r.addr / 2 ^ 16) with | some i => s.adders (bktMr (s.site n) i) 1024 (s.rootTile n (bktMr (s.site n) i)) | none => []
    let named (d : Nat) : List Nat := s.adders d 1024 (s.rootTile n d)
    (if r.cls = 1 then
      (named r.code ++ mirror).foldl
        (fun s t => s.suspectTile (physOf (s.field (fieldOf t)).bypass t) 6 r.time) s
    else (named r.code).foldl (fun s t => s.suspectAdder r.time t) s)
  else if r.source = 0x11 && r.loc / 2 ^ 28 = 2 then
    let g := r.loc % 128
    (if 2 ≤ (s.recent (s.field g).losses).length && !testBusy (s.field g) then s.jobTest true g 1 else s)
  else if r.source = 0x0E && r.loc / 2 ^ 28 = 2 then
    let g := r.loc % 128
    (if 2 ≤ (s.recent (s.field g).fuses).length && s.good g then s.setField g { s.field g with retire := true, reserve := false } else s)
  else s

/-- ERROR_RECORD_JUDGE (R455): the job service judges the record with a number. -/
def State.judgeSeq (s : State) (n : Nat) : State :=
  match s.mod.log.ring.find? fun x => x.2.seqno = n with
  | some x => if s.mod.cc.up then s.judge x.2 else s
  | none => s

/-- FIELD_RESPARE (R41, R456): once its owner is quiescent a marked field is drained; when it is off its map is written, and a
re-spared field is powered again. A field to be retired is retired. -/
def State.fieldRespare (s : State) (f : Nat) : State :=
  let x := s.field f
  if !s.mod.cc.up || !x.doomed || !s.good f || !s.quiescent (s.fieldOwner f) then s
  else if x.power = 2 then (if (s.fieldCmdBad f 2).isNone then s.fieldCmd f 2 else s)
  else if x.power = 1 || x.power = 3 then s
  else
    let s0 := s.setField f { x with respare := [], retire := false }
    if x.retire then s0.retireField f
    else
      match x.respare with
      | [] => s0
      | y :: _ =>
        let s1 := s0.respareTo f (y.1 % 36) x.respare
        if (s1.fieldCmdBad f 1).isNone then s1.fieldCmd f 1 else s1

/-- TMAP_CHANGE (R28): `words` the entries that change, `bad` and `byp` BADCNT and BYPASS; RETIRED where every entry has STATE 5. `cut`: the module
loses 52 V once that many words are written, and the journal completes the change at the next power-up. -/
def State.tmapChange (s : State) (f : Nat) (words : List MapWord) (bad byp : Nat) (cut : Option Nat) : State :=
  if !s.mod.cc.up then s
  else
    let retired := (List.range 1728).all fun i =>
      bits (match words.reverse.find? fun w => w.idx = i with | some w => w.val | none => s.mapEntry f i) 31 29 = 5
    let s1 := s.writeMap f words bad byp retired cut
    if cut.isSome then s1.powerLost else s1

/-- A write of a persistent word (R27, R32, R423, R461): the root of trust alone writes PREG_ARBn, and the grading words but
PREG_LIVEFIELDS are read only; `back` is what a worn cell reads back as. A word that does not hold its value is reported as worn. -/
def State.pregWrite (s : State) (priv : Bool) (o : Nat) (v back : Word) : State :=
  let a := 0x7801000000 + o
  s.privileged priv a (feedLoc 2)
    (if !pregExists o then s.refuse a 0x45 (feedLoc 2)
    else if decide (0x90000 ≤ o) && decide (o < 0x90018) then s.refuse a 0x40 (feedLoc 2)
    else if decide (0x80400 ≤ o) && decide (o < 0x80410) then s
    else
      let worn : Bool := decide (1000000 < s.wear o + 1) && back &&& pregMask o ≠ v &&& pregMask o
      let s1 := s.pregPut o v back
      if worn then ((s1.say (.refused a 0x47)).say (.notice 9 o)).raise { source := 0x29, cls := 4, loc := feedLoc 2, code := 0x47, addr := a } else s1)

/-- The record names a fault that may have ended a step of partition p: a CLASS 1 record of the last 24 h about a tile or an adding router. -/
def State.hitStep (s : State) (p : Nat) (r : LogRec) : Bool :=
  r.cls = 1 && r.part = p && (decide (r.loc / 2 ^ 28 ≤ 1) || r.source = 6) && decide (s.now.toNat < r.time.toNat + dayNs)

/-- STEP_RETRY (R440): after an abort for a hard fault the judgements of Table 18.11 come first; the run goes on with the same step. -/
def State.stepRetry (s : State) (p : Nat) : State :=
  let q := s.part p
  match q.run, q.binary with
  | some r, some b =>
    if q.state ≠ 2 || !s.mod.cc.up || r.over then s
    else
      let s1 := if q.acause = 4 then ((s.mod.log.ring.map (·.2)).filter (s.hitStep p)).foldl State.judge s else s
      let s2 := s1.reloadStopped b q.fmap
      s2.setPart p { s2.part p with state := 3 }
  | _, _ => s

/-- Two stored bits of a physical word flipped, parity unchanged (R447 kind 7). -/
def flipStored (t : Tile) : Tile :=
  let i := injArg t
  let w := Map.get (fun _ => 0#32) t.spd i
  if 98304 ≤ i then injFire t
  else
    let b := injBit t
    let m : Word := BitVec.ofNat 32 (2 ^ b + 2 ^ (b ^^^ 1))
    { injFire t with spd := Map.set (fun _ => 0#32) t.spd i (w ^^^ m), injWord := some (i, w ^^^ m) }

/-- A write of TILE_INJ that arms a kind (R446, R447): kind 7 acts at once; kind 8 needs the detector. -/
def State.tileInject (s : State) (priv : Bool) (t : Nat) (v : Word) : State :=
  let p := s.tilePart t
  let k := bits v 27 24
  s.tileAccess priv t 0xC0B00
    (if k ≠ 0 && !s.injectable p then s.refuse (tileAddr t 0xC0B00) 0x43 t
    else if k = 8 && !(decide (p < 8) && (s.part p).debug) then s.refuse (tileAddr t 0xC0B00) 0x43 t
    else if 9 ≤ k || (k = 5 && !(1 ≤ bits v 23 21 && bits v 23 21 ≤ 4)) then s.refuse (tileAddr t 0xC0B00) 0x49 t
    else
      let x := s.tile t
      let y := csrPut x 0xB00 (((csrWord x 0xB00 &&& 0x80000000) &&& ~~~v) ||| (v &&& 0x0FFF0000))
      s.setTile t (if k = 7 then flipStored y else y))

/-- An injection of kind k: ARG is written first, then TILE_INJ. A refusal arms nothing and leaves ARG as it was. -/
def State.tileInj (s : State) (priv : Bool) (t k port arg b : Nat) : State :=
  let v := BitVec.ofNat 32 (k * 2 ^ 24 + port % 8 * 2 ^ 21 + b % 32 * 2 ^ 16)
  if priv && s.reachable (fieldOf t) && s.injectable (s.tilePart t) then
    (s.setTile t (csrPut (s.tile t) 0xB04 (BitVec.ofNat 32 (arg % 2 ^ 17)))).tileInject priv t v
  else s.tileInject priv t v

/-- A write of SITE_INJ that arms a kind for a unit (R446, R448); UNIT is written first. -/
def State.siteInj (s : State) (priv : Bool) (n k unit count temp : Nat) : State :=
  let v := BitVec.ofNat 32 (k * 2 ^ 28 + count % 4 * 2 ^ 26 + unit / 2 ^ 32 % 4 * 2 ^ 24 + temp % 256 * 2 ^ 16)
  if priv && (s.siteRefused n 0x30 v).isNone then
    ((s.setSite n ((s.site n).csrPut 0x34 (BitVec.ofNat 32 unit))).siteWrite priv n 0x30 v)
  else s.siteWrite priv n 0x30 v

/-- SITE_INJ_TEMP_EXPIRY (R448): the stack's own readings stand again. -/
def tempExpiry (x : Site) : Site :=
  if x.tempSub.isSome then { x.csrField 0x30 30 28 0 with tempSub := none } else x

/-- HALO_INJ with a kind. -/
def haloInjWord (k lane count : Nat) : Word := BitVec.ofNat 32 (k * 2 ^ 28 + lane % 16 * 2 ^ 24 + count % 256 * 2 ^ 16)

/-- The target of an EZ_INJ of a kind meets its condition (R446). -/
def State.ezInjectable (s : State) (k target : Nat) : Bool :=
  if k = 1 || k = 6 then (List.range nParts).all fun p => !((s.part p).state = 3 || (s.part p).state = 4 || (s.part p).state = 5)
  else if 2 ≤ k && k ≤ 5 then
    let p := s.fieldOwner target
    s.injectable p && (List.range nParts).all fun q => q = p || !(bits (s.ez (pwr target 4)) 15 8).testBit q
  else true

/-- A write of EZ_INJ (R446, R450): kind 4 opens the fuse of its field once. -/
def State.ezInject (s : State) (priv : Bool) (v : Word) : State :=
  let k := bits v 30 27
  let t := bits v 26 20
  let a := ezAddr 0x7000
  s.privileged priv a (feedLoc 2)
    (if !bit v 31 then s.ezPut 0x7000 v
    else if !s.ezInjectable k t then s.refuse a 0x43 (feedLoc 2)
    else if 2 ≤ k && k ≤ 5 && nFields ≤ t then s.refuse a 0x49 (feedLoc 2)
    else if k = 4 then (s.ezPut 0x7000 (setBit v 31 false)).fuseOpen t true
    else s.ezPut 0x7000 v)

/-- An injection of kind k for a duration: EZ_INJ_DUR is written first, unless the write of EZ_INJ is refused. -/
def State.ezArm (s : State) (priv : Bool) (k target sensor value dur : Nat) : State :=
  let v := BitVec.ofNat 32 (2 ^ 31 + k * 2 ^ 27 + target % 128 * 2 ^ 20 + sensor % 16 * 2 ^ 16 + value % 65536)
  if priv && s.ezInjectable k target then (s.ezPut 0x7004 (BitVec.ofNat 32 dur)).ezInject priv v else s.ezInject priv v

/-- A write of a sweep register, admitted while RUN is clear (R454): CMD 1 starts a sweep, CMD 2 stops it. -/
def State.fpWrite (s : State) (priv : Bool) (t off : Nat) (v : Word) : State :=
  let x := s.tile t
  s.tileAccess priv t (0xC0000 + off)
    (if runBit x then s.refuse (tileAddr t (0xC0000 + off)) 0x4A t
    else
      let new := match regAt tileRegs off with | some r => regWrite r (csrWord x off) v | none => csrWord x off
      let y := csrPut x off new
      s.setTile t (if off ≠ 0xB18 then y
        else if bits v 1 0 = 1 then (if bit (csrWord x 0xB18) 2 then y else fpStart y)
        else if bits v 1 0 = 2 then fpStop y
        else y))

/-- TILE_FP_CTL with a CMD: NGRP as it stands. -/
def fpCommand (t : Tile) (cmd : Nat) : Word := BitVec.ofNat 32 (bits (csrWord t 0xB18) 31 24 * 2 ^ 24 + cmd)

/-- SUSPICION_LAPSE (R455): a tile's entry leaves the list 24 h after its last record. -/
def State.lapse (s : State) (phys : Nat) : State :=
  if !s.mod.cc.up then s
  else s.updMod fun m => { m with cc := { m.cc with suspects := m.cc.suspects.filter fun x =>
    x.phys ≠ phys || !(s.recent (x.hits.map (·.2))).isEmpty } }

/-- SITE_MEMORY_MARCH (R459) of a dirty site with no owner: `bad` the units found uncorrectable, which are reported and logged as by
patrol (R441). The march destroys what the memory held; the site stays dirty. -/
def State.march (s : State) (n : Nat) (bad : List Nat) : State :=
  let x := s.site n
  if !s.mod.cc.up || !x.dirty || x.owner ≠ 15 || x.wiping || x.state ≠ 2 then s
  else
    (s.setSite n { x with marched := true }).onSite n fun e y => bad.foldl
      (fun z u => if u < hbmEnd / 256 then raiseUe e { z with s := noteUe true (memErr z.s 0 true 0 u) u } 0x08 4 0x13 u else z)
      { y with s := zeroMemory 0 hbmEnd 1 y.s }

/-- A field that has passed its power-up returns to the reserve where nobody owns it and the reserve is short (R361, R456). -/
def State.fieldReadyDo (s : State) (f : Nat) (microcode lock : Bool) : State :=
  let s1 := s.fieldReady f microcode lock
  if s.mod.ready && s.mod.cc.up && (s.field f).power = 1 && (s1.field f).power = 2 && s1.fieldOwner f = 15 then s1.refill f else s1

/-- A command on a tile. -/
def State.onTileOk (s : State) (t : Nat) (k : State) : Host.Outcome State Fault Refusal := s.checked (decide (t < nTiles)) k

/-- FIELD_READY (R465). -/
def execFieldReady (f : Nat) (microcode lock : Bool) (s : State) : Host.Outcome State Fault Refusal :=
  s.fieldDo f (s.fieldReadyDo f microcode lock)

/-- ERROR_RECORD_JUDGE (R455). -/
def execErrorRecordJudge (seqno : Nat) (s : State) : Host.Outcome State Fault Refusal := .next (s.judgeSeq seqno)

/-- STEP_RETRY (R440). -/
def execStepRetry (p : Nat) (s : State) : Host.Outcome State Fault Refusal := s.checked (decide (p < nParts)) (s.stepRetry p)

/-- FIELD_RESPARE (R41). -/
def execFieldRespare (f : Nat) (s : State) : Host.Outcome State Fault Refusal := s.fieldDo f (s.fieldRespare f)

/-- TMAP_CHANGE (R28). -/
def execTmapChange (f : Nat) (words : List MapWord) (bad : Nat) (byp : MapEnd) (s : State) : Host.Outcome State Fault Refusal :=
  s.checked (decide (f < nFields) && words.all fun w => decide (w.idx < 1728)) (s.tmapChange f words bad byp.col byp.cut)

/-- PREG_WRITE (R461): an address of the persistent store. -/
def execPregWrite (priv : Bool) (addr : Nat) (v back : Word) (s : State) : Host.Outcome State Fault Refusal :=
  s.checked (decide (0x7801000000 ≤ addr) && decide (addr < 0x7802000000)) (s.pregWrite priv (addr - 0x7801000000) v back)

/-- TILE_INJ_PARITY (R447). -/
def execTileInjParity (priv : Bool) (t arg b : Nat) (s : State) : Host.Outcome State Fault Refusal := s.onTileOk t (s.tileInj priv t 1 0 arg b)

/-- TILE_INJ_ACCUMULATOR (R447). -/
def execTileInjAccumulator (priv : Bool) (t arg b : Nat) (s : State) : Host.Outcome State Fault Refusal :=
  s.onTileOk t (s.tileInj priv t 2 0 arg b)

/-- TILE_INJ_LANE (R447). -/
def execTileInjLane (priv : Bool) (t b : Nat) (s : State) : Host.Outcome State Fault Refusal := s.onTileOk t (s.tileInj priv t 3 0 0 b)

/-- TILE_INJ_INSTR_PARITY (R447). -/
def execTileInjInstrParity (priv : Bool) (t arg : Nat) (s : State) : Host.Outcome State Fault Refusal :=
  s.onTileOk t (s.tileInj priv t 4 0 arg 0)

/-- TILE_INJ_FLIT (R447). -/
def execTileInjFlit (priv : Bool) (t port arg b : Nat) (s : State) : Host.Outcome State Fault Refusal :=
  s.onTileOk t (s.tileInj priv t 5 port arg b)

/-- TILE_INJ_ADDER (R447). -/
def execTileInjAdder (priv : Bool) (t arg b : Nat) (s : State) : Host.Outcome State Fault Refusal := s.onTileOk t (s.tileInj priv t 6 0 arg b)

/-- TILE_INJ_STORED_BITS (R447). -/
def execTileInjStoredBits (priv : Bool) (t arg b : Nat) (s : State) : Host.Outcome State Fault Refusal :=
  s.onTileOk t (s.tileInj priv t 7 0 arg b)

/-- TILE_INJ_HAZARD (R447). -/
def execTileInjHazard (priv : Bool) (t arg : Nat) (s : State) : Host.Outcome State Fault Refusal := s.onTileOk t (s.tileInj priv t 8 0 arg 0)

/-- SITE_INJ_HBM (R448). -/
def execSiteInjHbm (priv : Bool) (n unit count : Nat) (s : State) : Host.Outcome State Fault Refusal :=
  s.checked (decide (n < nSites)) (s.siteInj priv n 1 unit count 0)

/-- SITE_INJ_STRATUS (R448). -/
def execSiteInjStratus (priv : Bool) (n unit count : Nat) (s : State) : Host.Outcome State Fault Refusal :=
  s.checked (decide (n < nSites)) (s.siteInj priv n 2 unit count 0)

/-- SITE_INJ_CACHE (R448). -/
def execSiteInjCache (priv : Bool) (n unit count : Nat) (s : State) : Host.Outcome State Fault Refusal :=
  s.checked (decide (n < nSites)) (s.siteInj priv n 3 unit count 0)

/-- SITE_INJ_TEMP (R448). -/
def execSiteInjTemp (priv : Bool) (n temp : Nat) (s : State) : Host.Outcome State Fault Refusal :=
  s.checked (decide (n < nSites)) (s.siteInj priv n 4 0 0 temp)

/-- SITE_INJ_TEMP_EXPIRY (R448). -/
def execSiteInjTempExpiry (n : Nat) (s : State) : Host.Outcome State Fault Refusal :=
  s.checked (decide (n < nSites)) (s.setSite n (tempExpiry (s.site n)))

/-- HALO_INJ_CRC (R449). -/
def execHaloInjCrc (priv : Bool) (q : Nat) (s : State) : Host.Outcome State Fault Refusal := s.portDo q (s.portWrite priv q 0x20 (haloInjWord 1 0 0))

/-- HALO_INJ_CODEWORDS (R449). -/
def execHaloInjCodewords (priv : Bool) (q lane count : Nat) (s : State) : Host.Outcome State Fault Refusal :=
  s.portDo q (s.portWrite priv q 0x20 (haloInjWord 2 lane count))

/-- HALO_INJ_LOCK (R449). -/
def execHaloInjLock (priv : Bool) (q lane : Nat) (s : State) : Host.Outcome State Fault Refusal :=
  s.portDo q (s.portWrite priv q 0x20 (haloInjWord 3 lane 0))

/-- EZ_INJ_FEED_VOLTAGE (R450). -/
def execEzInjFeedVoltage (priv : Bool) (feed value dur : Nat) (s : State) : Host.Outcome State Fault Refusal :=
  s.checked (decide (feed < 2)) (s.ezArm priv 1 feed 0 value dur)

/-- EZ_INJ_SENSOR_READING (R450). -/
def execEzInjSensorReading (priv : Bool) (f sensor value dur : Nat) (s : State) : Host.Outcome State Fault Refusal :=
  s.checked (decide (f < nFields) && decide (sensor < 16)) (s.ezArm priv 2 f sensor value dur)

/-- EZ_INJ_SENSOR_INVALID (R450). -/
def execEzInjSensorInvalid (priv : Bool) (f sensor dur : Nat) (s : State) : Host.Outcome State Fault Refusal :=
  s.checked (decide (f < nFields) && decide (sensor < 16)) (s.ezArm priv 3 f sensor 0 dur)

/-- EZ_INJ_STAGE_FAULT (R450). -/
def execEzInjStageFault (priv : Bool) (f : Nat) (s : State) : Host.Outcome State Fault Refusal := s.fieldDo f (s.ezArm priv 4 f 0 0 0)

/-- EZ_INJ_PHASE_ERROR (R450). -/
def execEzInjPhaseError (priv : Bool) (f value dur : Nat) (s : State) : Host.Outcome State Fault Refusal := s.fieldDo f (s.ezArm priv 5 f 0 value dur)

/-- EZ_INJ_COOLANT (R450). -/
def execEzInjCoolant (priv : Bool) (target value dur : Nat) (s : State) : Host.Outcome State Fault Refusal :=
  s.checked (decide (target < 3)) (s.ezArm priv 6 target 0 value dur)

/-- EZ_INJ_EXPIRY (R450). -/
def execEzInjExpiry (s : State) : Host.Outcome State Fault Refusal := .next (s.ezField 0x7000 31 31 0)

/-- FP_SWEEP_START (R453). -/
def execFpSweepStart (priv : Bool) (t : Nat) (s : State) : Host.Outcome State Fault Refusal :=
  s.onTileOk t (s.fpWrite priv t 0xB18 (fpCommand (s.tile t) 1))

/-- FP_SWEEP_STOP (R453). -/
def execFpSweepStop (priv : Bool) (t : Nat) (s : State) : Host.Outcome State Fault Refusal :=
  s.onTileOk t (s.fpWrite priv t 0xB18 (fpCommand (s.tile t) 2))

/-- FP_GROUP_CHECK (R453). -/
def execFpGroupCheck (t : Nat) (s : State) : Host.Outcome State Fault Refusal :=
  s.onTileOk t (if (s.field (fieldOf t)).power = 2 then s.fpStep t else s)

/-- FIELD_LOGIC_TEST (R459). -/
def execFieldLogicTest (priv : Bool) (f : Nat) (s : State) : Host.Outcome State Fault Refusal := s.fieldDo f (s.jobTest priv f 1)

/-- FIELD_LINK_TEST (R459). -/
def execFieldLinkTest (priv : Bool) (f : Nat) (s : State) : Host.Outcome State Fault Refusal := s.fieldDo f (s.jobTest priv f 2)

/-- RATE_CALIBRATION (R459). -/
def execRateCalibration (priv : Bool) (f : Nat) (s : State) : Host.Outcome State Fault Refusal := s.fieldDo f (s.jobTest priv f 3)

/-- SENSOR_CHECK (R459). -/
def execSensorCheck (priv : Bool) (f : Nat) (s : State) : Host.Outcome State Fault Refusal := s.fieldDo f (s.jobTest priv f 4)

/-- FLD_TEST_STOP (R460). -/
def execFldTestStop (priv : Bool) (f : Nat) (s : State) : Host.Outcome State Fault Refusal :=
  s.fieldDo f (s.privileged priv (fieldAddr f 0x20) (fieldLoc f) (s.setField f (stopTest (s.field f))))

/-- FLD_TEST_COMPLETE (R459). -/
def execFldTestComplete (f : Nat) (fail : Option (Nat × Nat × Nat)) (outliers : List Nat) (s : State) : Host.Outcome State Fault Refusal :=
  s.checked (decide (f < nFields) && outliers.all (fun i => decide (i < 16)) &&
    (match fail with | some (u, c, r) => decide (1 ≤ u) && decide (u ≤ 6) && decide (c < 36) && decide (r < 48) | none => true))
    (s.testDone f fail outliers)

/-- SUSPICION_LAPSE (R455). -/
def execSuspicionLapse (phys : Nat) (s : State) : Host.Outcome State Fault Refusal := .next (s.lapse phys)

/-- SITE_MEMORY_MARCH (R459). -/
def execSiteMemoryMarch (n : Nat) (bad : List Nat) (s : State) : Host.Outcome State Fault Refusal :=
  s.checked (decide (n < nSites)) (s.march n bad)

end Sys2Proof.Machine
end

