-- ==== Sys2Proof/Machine/Registers.lean ====
section
/-!
DEFINITION. Accesses to the registers of tiles, fields, sites, ports and the Ezper block, and to tile windows (R122, R136, R148, R184,
R210, R227, R242, R271, R281, R334, R378, R397, R435, R442, R461, R474, R475): what a read returns and what a write does.
-/

namespace Sys2Proof.Machine

/-- The descriptor as it would stand after a write of one of its registers (Tables 5.4 to 5.8). -/
def rgAfter (r : Region) (off : Nat) (v : Word) : Region :=
  if 0x200 ≤ off then { r with occ := bits v 16 0 }
  else
    match off % 16 with
    | 0 => { r with ver := bits v 31 28, base := bits v 16 0 }
    | 4 => { r with swz := bit v 31, resident := bit v 30, prod := bits v 29 27, cons := bits v 26 24, size := bits v 16 0 }
    | 8 => { r with head := bits v 16 0 }
    | _ => r

/-- The region whose register stands at an offset. -/
def rgOf (off : Nat) : Nat := if 0x200 ≤ off then (off - 0x200) / 4 else (off - 0x100) / 16

/-- TILE_RG_WRITE (R136). -/
def State.rgWrite (s : State) (t off : Nat) (v : Word) : State :=
  let a := tileAddr t (0xC0000 + off)
  let x := s.tile t
  let r := rgAfter (region x (rgOf off)) off v
  if !s.quiescent (s.tilePart t) then s.refuse a 0x42 t
  else if r.ver ≠ 0 && (!r.valid || 5 ≤ r.prod || 5 ≤ r.cons) then s.refuse a 0x49 t
  else s.setTile t (setRegion x (rgOf off) { r with cursor := 0 })

/-- HZD_CTL_WRITE (R210): FAULT is cleared at any time, ACTION changes while the partition is quiescent; without the debug policy a
write is ignored. -/
def State.hzdWrite (s : State) (t : Nat) (v : Word) : State :=
  let p := s.tilePart t
  let x := s.tile t
  if !(decide (p < 8) && (s.part p).debug) then s
  else if bit v 1 != bit (csrWord x 0x700) 1 && !s.quiescent p then s.refuse (tileAddr t 0xC0700) 0x42 t
  else s.setTile t (csrPut x 0x700 (regWrite ⟨0x700, 0, 1, 0x0, 0x2, 0x4, 0x0, false⟩ (csrWord x 0x700) v))

/-- RTR_RDESC does not accept the value (Table 10.4). -/
def rdescBad (v : Word) : Bool :=
  6 ≤ bits v 30 28 || 5 ≤ bits v 27 25 || [10, 13, 16, 19, 22].any (fun k => decide (5 ≤ bits v (k + 2) k)) ||
    (bit v 31 && (bits v 30 28 = 0 || bits v 27 25 = 0))

/-- A tile register does not accept the value. -/
def tileValueBad (off : Nat) (v : Word) : Bool :=
  if off = 0x8 then 4096 < bits v 15 0 else if 0x1000 ≤ off then rdescBad v else false

/-- A write of a tile register that has no rule of its own but those of its table (R99, R100, R184, R242, R281, R300). -/
def State.plainTileWrite (s : State) (t off : Nat) (v : Word) : State :=
  let a := tileAddr t (0xC0000 + off)
  let x := s.tile t
  match regAt tileRegs off with
  | none => s.refuse a 0x45 t
  | some r =>
    if r.quiet && !s.quiescent (s.tilePart t) then s.refuse a 0x42 t
    else if tileValueBad off v then s.refuse a 0x49 t
    else if off = 0x0 then s.setTile t (if bit v 1 then { x with fault := false } else x)
    else if off = 0x504 then s.setTile t (putStep x v)
    else if off = 0x508 then s.setTile t (putSeed x (bits v 16 0))
    else if decide (0x704 ≤ off) && decide (off < 0x714) && !(s.part (s.tilePart t)).debug then s
    else s.setTile t (csrPut x off (regWrite r (csrWord x off) v))

/-- A write of the tile CSR at an offset from +0xC_0000. -/
def State.csrWrite (s : State) (priv : Bool) (t off : Nat) (v : Word) : State :=
  if decide (0xB10 ≤ off) && decide (off < 0xB24) && (regAt tileRegs off).isSome then s.fpWrite priv t off v
  else if off = 0xB00 then s.tileInject priv t v
  else if off = 0xC00 && bit v 0 then s.tileReset priv t
  else
    s.tileAccess priv t (0xC0000 + off)
      (if decide (0x100 ≤ off) && decide (off < 0x240) && (regAt tileRegs off).isSome then s.rgWrite t off v
      else if off = 0x700 then s.hzdWrite t v
      else s.plainTileWrite t off v)

/-- TILE_WINDOW_WRITE (R122, R148): a physical word with its parity, a half of an instruction, or a CSR. -/
def State.windowWrite (s : State) (priv : Bool) (t off : Nat) (v : Word) : State :=
  let x := s.tile t
  if 0xC0000 ≤ off then s.csrWrite priv t (off - 0xC0000) v
  else
    s.tileAccess priv t off
      (if off % 4 ≠ 0 then s.refuse (tileAddr t off) 0x45 t
      else if off < 0x60000 then s.setTile t (writePhys x (off / 4) v)
      else if decide (0x80000 ≤ off) && decide (off < 0x88000) then
        s.setTile t { x with istore := Map.set (fun _ => 0#32) x.istore ((off - 0x80000) / 4) v, ipar := Map.set (fun _ => 0) x.ipar ((off - 0x80000) / 4) 0 }
      else s.refuse (tileAddr t off) 0x05 t)

/-- A read of a physical word through the window, at port 6 (R438): a word that fails parity is answered with ECODE 0x07. -/
def State.windowWord (s : State) (t off : Nat) : State :=
  match readPhys t { t := s.tile t, free := s.free } 6 (off / 4) none with
  | (ts, w, bad, inj) =>
    let s1 := ({ s with free := ts.free }).setTile t ts.t
    if bad = 0 then s1.say (.readData (tileAddr t off) w)
    else (s1.say (.refused (tileAddr t off) 0x07)).raise
      { source := 0x01, cls := 4, loc := t, code := 6 * 16 + bad, addr := off / 4, inj := inj,
        detail := csrWords (s1.tileEnv t) ts.t [0x0, 0x300, 0x304] }

/-- TILE_WINDOW_READ (R122, R148). -/
def State.windowRead (s : State) (priv : Bool) (t off : Nat) : State :=
  let a := tileAddr t off
  s.tileAccess priv t off
    (if off % 4 ≠ 0 then s.refuse a 0x45 t
    else if off < 0x60000 then s.windowWord t off
    else if decide (0x80000 ≤ off) && decide (off < 0x88000) then
      s.say (.readData a (Map.get (fun _ => 0#32) (s.tile t).istore ((off - 0x80000) / 4)))
    else if 0xC0000 ≤ off then
      (if (regAt tileRegs (off - 0xC0000)).isSome then s.say (.readData a (csrRead (s.tileEnv t) (s.tile t) (off - 0xC0000)))
      else s.refuse a 0x45 t)
    else s.refuse a 0x05 t)

/-- FLD_STATUS (Table 1.7): MAPPEND while the stored map differs from the one applied (R26). -/
def State.fieldStatus (s : State) (f : Nat) : Word :=
  let x := s.field f
  BitVec.ofNat 32 (f * 2 ^ 24 + s.fieldOwner f * 2 ^ 20 + x.bypass * 2 ^ 14 + nb x.routed * 2 ^ 9 +
    nb (x.mapped && x.applied ≠ s.fieldWords f) * 2 ^ 8 + nb x.mapErr * 2 ^ 7 + nb x.reserve * 2 ^ 6 +
    bits (s.mapSum f) 6 6 * 2 ^ 5 + bits (s.mapSum f) 7 7 * 2 ^ 4 + nb x.unreach * 2 ^ 3 + x.power)

/-- A read of a field register. -/
def State.fieldRead (s : State) (f o : Nat) : Word :=
  if o = 0x0 then s.fieldStatus f
  else if o = 0x10 then BitVec.ofNat 32 (s.oldFlits f * 2 ^ 8 + s.activeBank f)
  else (s.field f).csrWord o

/-- A write of a field register (R42; no reserve field gets an owner, R5; R226, R227, R229, R402, R417, R460). -/
def State.fieldWrite (s : State) (priv : Bool) (f o : Nat) (v : Word) : State :=
  let a := fieldAddr f o
  let x := s.field f
  if decide (0x1000 ≤ o) && decide (o < 0x1800) && o % 4 = 0 then s.entryWrite priv f ((o - 0x1000) / 0x400) ((o - 0x1000) % 0x400 / 4) v
  else if o = 0x10 then s.epochWrite priv f v
  else if o = 0x20 && bits v 1 0 = 1 then s.startTest priv f (bits v 27 24)
  else
    s.privileged priv a (fieldLoc f)
      (match regAt fieldRegs o with
      | none => s.refuse a 0x45 (fieldLoc f)
      | some r =>
        if o = 0x0 then s.setField f (if bit v 7 then { x with mapErr := false } else x)
        else if o = 0x4 then
          (if !(s.quiescent (s.fieldOwner f) && s.quiescent (bits v 3 0)) then s.refuse a 0x42 (fieldLoc f)
          else if x.reserve && decide (bits v 3 0 < nParts) then s.refuse a 0x4A (fieldLoc f)
          else if decide (8 ≤ bits v 3 0) && bits v 3 0 ≠ 15 then s.refuse a 0x49 (fieldLoc f)
          else (s.setFieldOwner f (bits v 3 0)).xmasks)
        else if o = 0x14 && decide (nSites ≤ bits v 5 0) then s.refuse a 0x49 (fieldLoc f)
        else
          let y := x.csrPut o (regWrite r (x.csrWord o) v)
          s.setField f (if o = 0x20 && bits v 1 0 = 2 then stopTest y else y))

/-- A binding record with RES of the block table in place of its own bits (Table 11.14). -/
def btWord (x : Site) (i k : Nat) : Word :=
  match x.upd.bt.find? fun e => e.1 = i with
  | none => 0
  | some e =>
    let w := nth 0#32 (x.words (256 * bits (x.csrWord 0x604) 27 0 + 16 * e.2.idx) 4) k
    if k = 1 then setBits w 15 14 e.2.res else w

/-- A read of a site register (Tables 9.6 to 9.12, 10.12 to 10.14, 11.12 to 11.14). -/
def State.siteRead (s : State) (n o : Nat) : Word :=
  let x := s.site n
  let w := (o - 0x100) / 16
  if o = 0x0 then
    BitVec.ofNat 32 (n * 2 ^ 24 + nb (s.mod.ring.contains n) * 2 ^ 9 + nb (s.mod.ring.contains ((n + 47) % 48)) * 2 ^ 8 +
      nb (s.siteEnv n).strav * 2 ^ 7 + bits (x.csrWord 0x0) 6 5 * 2 ^ 5 + x.state)
  else if o = 0xC then BitVec.ofNat 32 (s.mod.share * 2 ^ 16 + n / 2 * 2 ^ 8 + nb (n % 2 = 0) * 2 ^ 7 + x.chState)
  else if o = 0x14 then BitVec.ofNat 32 (s.chanOwner (n / 2))
  else if o = 0x68 then redStatus x
  else if decide (0x100 ≤ o) && decide (o < 0x180) && o % 16 = 8 then setBits (x.csrWord o) 2 0 (4 * nb (x.m.armed.contains w))
  else if o = 0x614 then
    BitVec.ofNat 32 (x.upd.proc * 2 ^ 11 + nb x.upd.waitSlot * 2 ^ 2 + bits (x.csrWord 0x614) 1 1 * 2 +
      nb (!x.upd.queue.isEmpty || x.upd.bt.any fun e => e.2.fired))
  else if o = 0x618 then BitVec.ofNat 32 x.upd.slots
  else if o = 0x66C then BitVec.ofNat 32 (x.exp.next * 2 ^ 12 + x.exp.half * 2 ^ 3 + nb x.exp.busy * 2 ^ 2)
  else if 0x20000 ≤ o then btWord x ((o - 0x20000) / 16) (o % 16 / 4)
  else x.csrWord o

/-- Words of the persistent store that have been written at least n times. -/
def State.wornWords (s : State) (n : Nat) : Nat := (s.mod.wear.filter fun e => decide (n ≤ s.wear e.1)).length

/-- A read of an Ezper register (Tables 14.9 to 14.12, 16.2, 17.7, 18.2, 18.14, 19.4). -/
def State.ezRead (s : State) (o : Nat) : Word :=
  if o = 0x3000 then s.now.setWidth 32
  else if o = 0x3004 then s.mod.timeHigh
  else if o = 0x3008 || o = 0x300C then 0
  else if o = 0x3014 then BitVec.ofNat 32 ((List.range nFields).filter fun f => (s.field f).nodes && !(s.field f).lock).length
  else if decide (0x3100 ≤ o) && decide (o < 0x3100 + 4 * nFields) then 
    BitVec.ofNat 32 (s.perr ((o - 0x3100) / 4) * 2 ^ 8 + bits (s.ez o) 1 1 * 2 + nb (s.field ((o - 0x3100) / 4)).lock)
  else if decide (0x4000 ≤ o) && decide (o < 0x4200) && o % 64 = 4 then s.partStatus ((o - 0x4000) / 64)
  else if decide (0x4000 ≤ o) && decide (o < 0x4200) && o % 64 = 0x10 then setBits (s.ez o) 16 0 (s.heldNow ((o - 0x4000) / 64))
  else if decide (0x4000 ≤ o) && decide (o < 0x4200) && o % 64 = 0xC then BitVec.ofNat 32 (s.elapsed ((o - 0x4000) / 64))
  else if o = 0x4400 then BitVec.ofNat 32 (2 * nb s.mod.abortBusy)
  else if o = 0x4410 then
    BitVec.ofNat 32 (((List.range nFields).filter fun f => (s.field f).power = 2).length * 2 ^ 16 + s.mod.failStep * 2 ^ 8 + s.mod.stage)
  else if o = 0x5000 then s.secStatus
  else if decide (0x5100 ≤ o) && decide (o < 0x5120) then s.secPart ((o - 0x5100) / 4)
  else if decide (0x5200 ≤ o) && decide (o < 0x52C0) then s.secSite ((o - 0x5200) / 4)
  else if o = 0x6100 then BitVec.ofNat 32 (min 65535 (s.wornWords 900000) * 2 ^ 16 + min 65535 (s.wornWords 1000000))
  else s.ez o

/-- The log in flash takes the records that the job service has read: those from the old TAIL to the new (R442). -/
def State.tailWrite (s : State) (v : Nat) : State :=
  let tail := bits (s.ez 0x6004) 13 0
  let held := (bits (s.ez 0x6000) 13 0 + 16384 - tail) % 16384
  let n := min ((v + 16384 - tail) % 16384) held
  let l := (List.range n).filterMap fun k => (s.mod.log.ring.find? fun e => e.1 = (tail + k) % 16384).map (·.2)
  (s.ezField 0x6004 13 0 v).updMod fun m => { m with log := { m.log with flash := m.log.flash ++ l } }

/-- An accepted write of an Ezper register that is no command. -/
def State.ezPlain (s : State) (o : Nat) (v : Word) : State :=
  match regAt modRegs o with
  | some r => s.ezPut o (regWrite r (s.ez o) v)
  | none => s

/-- A write of an Ezper register (R378, R402, R435, R442, R450, R474, R475). CIR_SET takes effect with its high word. -/
def State.ezWrite (s : State) (priv : Bool) (o : Nat) (v : Word) : State :=
  let a := ezAddr o
  let f := (o - 0x1000) / 32
  let isField : Bool := decide (0x1000 ≤ o) && decide (o < 0x1000 + 32 * nFields)
  let p := (o - 0x4000) / 64
  if o = 0x7000 then s.ezInject priv v
  else if o = 0x300C then s.cirSet priv (v ++ s.ez 0x3008)
  else if o = 0x4400 && bit v 0 then s.privileged priv a (feedLoc 2) s.modAbort
  else if o = 0x4404 && bit v 0 then s.moduleReset priv
  else if decide (0x4000 ≤ o) && decide (o < 0x4200) && o % 64 = 0 && 1 ≤ bits v 2 0 && bits v 2 0 ≤ 4 then s.partCtl priv p (bits v 2 0)
  else
    s.privileged priv a (feedLoc 2)
      (if (regAt modRegs o).isNone then s.refuse a 0x45 (feedLoc 2)
      else if o = 0x3008 then (if s.mod.firstLock then s.refuse a 0x4A (feedLoc 2) else s.ezPut o v)
      else if o = 0x3010 && !(decide ((BitVec.ofNat 16 v.toNat).toInt ≤ 5000) && decide (-5000 ≤ (BitVec.ofNat 16 v.toNat).toInt)) then
        s.refuse a 0x49 (feedLoc 2)
      else if o = 0x20 then (s.ezPlain o v).setEcap
      else if o = 0x6004 then s.tailWrite (bits v 13 0)
      else if isField && o % 32 = 0 then (s.vreqWrite f (bits v 2 0)).reportGuar
      else if isField && o % 32 = 0x10 then (s.ezPlain o v).levels f
      else if isField && o % 32 = 4 && 1 ≤ bits v 2 0 && bits v 2 0 ≤ 3 then
        (match s.fieldCmdBad f (bits v 2 0) with
        | some c => s.refuse a c (fieldLoc f)
        | none => if bits v 2 0 = 1 && !s.groupOpen f then s else ((s.ezPlain o v).fieldCmdNext f (bits v 2 0)).reportGuar)
      else s.ezPlain o v)

/-- What a read of a register of the two apertures returns; none where there is none. A reserved persistent address reads 0 (R461). -/
def State.regRead (s : State) (wafer : Bool) (a : Nat) : Option Word :=
  match targetOf wafer a with
  | .site n o => if (regAt siteRegs o).isSome then some (s.siteRead n o) else none
  | .port q o => if (regAt portRegs o).isSome then some ((s.port q).read o) else none
  | .ezper o => if (regAt modRegs o).isSome then some (s.ezRead o) else none
  | .preg o => some (if pregExists o then s.preg o else 0)
  | .wear o => some (BitVec.ofNat 32 (s.wear o))
  | .field f o => if (regAt fieldRegs o).isSome then some (s.fieldRead f o) else none
  | .dram o => some (Map.get (Config.dramFill s.mod.dramGen) s.mod.dram (o / 4))
  | _ => none

/-- Word i of an error-log record (Table 18.3). -/
def recWord (r : LogRec) (i : Nat) : Word :=
  match i with
  | 0 => r.time.setWidth 32
  | 1 => (r.time >>> 32).setWidth 32
  | 2 => BitVec.ofNat 32 r.seqno
  | 3 => BitVec.ofNat 32 (r.source % 256 + r.cls % 256 * 2 ^ 8 + r.part % 256 * 2 ^ 16 + r.flags % 256 * 2 ^ 24)
  | 4 => BitVec.ofNat 32 r.loc
  | 5 => BitVec.ofNat 32 (r.offset % 65536 + r.code % 65536 * 2 ^ 16)
  | 6 => BitVec.ofNat 32 r.addr
  | 7 => BitVec.ofNat 32 (r.addr / 2 ^ 32)
  | 8 => BitVec.ofNat 32 r.phys
  | n => nth 0#32 r.detail (n - 9)

/-- A read answered with a value that the manual does not state (log entry 53). -/
def State.readFree (s : State) (a : Nat) : State :=
  ({ s with free := s.free + 1 }).say (.readData a ((Config.freeValue s.free).setWidth 32))

/-- A read of the mailbox range (R400, R442): the error-log ring holds the records; the layout of mailbox entries is not stated. -/
def State.mailRead (s : State) (a o : Nat) : State :=
  if decide (0x900000 ≤ o) && decide (o < 0xA00000) then
    match s.mod.log.ring.find? fun x => x.1 = (o - 0x900000) / 64 with
    | some r => s.say (.readData a (recWord r.2 (o / 4 % 16)))
    | none => s.readFree a
  else if o < 0x840000 && o % 0x100000 < 0x40000 then s.readFree a
  else s.refuse a 0x45 (feedLoc 2)

/-- RATE of PWR_FLD_RATE as it is measured: a free value at or above the floor, 0 while the field is off (R353, log entry 51). -/
def State.rateNow (s : State) (f : Nat) : Nat :=
  let r := s.fieldRate f
  if r = 0 then 0 else r + (Config.freeValue s.free).toNat % (65536 - r)

/-- A read of an address (R122, R399): a tile window, or a register. The low word of CIR_TIME latches the high one (Table 14.12). -/
def State.addrRead (s : State) (priv wafer : Bool) (a : Nat) : State :=
  match targetOf wafer a with
  | .tile t off => s.windowRead priv t off
  | .ezper o =>
    s.privileged priv a (feedLoc 2)
      (if decide (0x1000 ≤ o) && decide (o < 0x1000 + 32 * nFields) && o % 32 = 0xC then
        ({ s with free := s.free + 1 }).say
          (.readData a (setBits (s.ez o) 31 16 (s.rateNow ((o - 0x1000) / 32))))
      else if o = 0x3000 then
        (s.updMod fun m => { m with timeHigh := (s.now >>> 32).setWidth 32 }).say (.readData a (s.now.setWidth 32))
      else match s.regRead wafer a with
        | some w => s.say (.readData a w)
        | none => s.refuse a 0x45 (feedLoc 2))
  | .mail o => s.privileged priv a (feedLoc 2) (s.mailRead a o)
  | _ =>
    s.privileged priv a (feedLoc 2)
      (match s.regRead wafer a with
      | some w => s.say (.readData a w)
      | none => s.refuse a 0x45 (feedLoc 2))

/-- REGISTER_WRITE (R475): the block that holds the register admits or refuses the write; where none does it is answered with 0x45. -/
def State.addrWrite (s : State) (priv wafer : Bool) (a : Nat) (v : Word) : State :=
  match targetOf wafer a with
  | .site n o => s.siteWrite priv n o v
  | .port q o => s.portWrite priv q o v
  | .ezper o => s.ezWrite priv o v
  | .preg o => s.pregWrite priv o v v
  | .wear o => s.privileged priv a (feedLoc 2) (if pregExists o then s else s.refuse a 0x45 (feedLoc 2))
  | .tile t off => s.windowWrite priv t off v
  | .field f o => s.fieldWrite priv f o v
  | .dram o => s.privileged priv a (feedLoc 2) (s.updMod fun m => { m with dram := Map.set (Config.dramFill m.dramGen) m.dram (o / 4) v })
  | _ => s.privileged priv a (feedLoc 2) (s.refuse a 0x45 (feedLoc 2))

/-- REGISTER_WRITE (R475). -/
def execRegisterWrite (priv wafer : Bool) (addr : Nat) (v : Word) (s : State) : Host.Outcome State Fault Refusal :=
  .next (s.addrWrite priv wafer addr v)

/-- TILE_WINDOW_READ (R122). -/
def execTileWindowRead (priv wafer : Bool) (addr : Nat) (s : State) : Host.Outcome State Fault Refusal :=
  .next (s.addrRead priv wafer addr)

/-- TILE_WINDOW_WRITE (R122). -/
def execTileWindowWrite (priv wafer : Bool) (addr : Nat) (v : Word) (s : State) : Host.Outcome State Fault Refusal :=
  .next (s.addrWrite priv wafer addr v)

/-- TILE_SR_STEP_WRITE (R100). -/
def execTileSrStepWrite (priv : Bool) (t : Nat) (v : Word) (s : State) : Host.Outcome State Fault Refusal :=
  s.onTileOk t (s.csrWrite priv t 0x504 v)

/-- TILE_RG_WRITE (R136): a register of Tables 5.4 to 5.8. -/
def execTileRgWrite (priv : Bool) (t off : Nat) (v : Word) (s : State) : Host.Outcome State Fault Refusal :=
  s.checked (decide (t < nTiles) && decide (0x100 ≤ off) && decide (off < 0x240) && (regAt tileRegs off).isSome) (s.csrWrite priv t off v)

/-- HZD_CTL_WRITE (R210). -/
def execHzdCtlWrite (priv : Bool) (t : Nat) (v : Word) (s : State) : Host.Outcome State Fault Refusal :=
  s.onTileOk t (s.csrWrite priv t 0x700 v)

/-- RDESC_WRITE (R281). -/
def execRdescWrite (priv : Bool) (t d : Nat) (v : Word) (s : State) : Host.Outcome State Fault Refusal :=
  s.checked (decide (t < nTiles) && decide (d < 256)) (s.csrWrite priv t (0x1000 + 4 * d) v)

end Sys2Proof.Machine
end

