-- ==== Sys2Proof/Machine/Scalar.lean ====
section
/-!
DEFINITION. Scalar instructions and region instructions of the sequencer (R159 to R164).
-/

namespace Sys2Proof.Machine

/-- ADD (Table 6.3, R160). -/
def execAdd (t : Nat) (f : LSR) (s : State) : Host.Outcome State Fault Refusal :=
  s.issue t fun e ts => tAlu e ts f .add

/-- SUB (Table 6.3, R160). -/
def execSub (t : Nat) (f : LSR) (s : State) : Host.Outcome State Fault Refusal :=
  s.issue t fun e ts => tAlu e ts f .sub

/-- MUL (Table 6.3, R160). -/
def execMul (t : Nat) (f : LSR) (s : State) : Host.Outcome State Fault Refusal :=
  s.issue t fun e ts => tAlu e ts f .mul

/-- AND (Table 6.3, R160). -/
def execAnd (t : Nat) (f : LSR) (s : State) : Host.Outcome State Fault Refusal :=
  s.issue t fun e ts => tAlu e ts f .and

/-- OR (Table 6.3, R160). -/
def execOr (t : Nat) (f : LSR) (s : State) : Host.Outcome State Fault Refusal :=
  s.issue t fun e ts => tAlu e ts f .or

/-- XOR (Table 6.3, R160). -/
def execXor (t : Nat) (f : LSR) (s : State) : Host.Outcome State Fault Refusal :=
  s.issue t fun e ts => tAlu e ts f .xor

/-- SLL (Table 6.3, R160). -/
def execSll (t : Nat) (f : LSR) (s : State) : Host.Outcome State Fault Refusal :=
  s.issue t fun e ts => tAlu e ts f .sll

/-- SRL (Table 6.3, R160). -/
def execSrl (t : Nat) (f : LSR) (s : State) : Host.Outcome State Fault Refusal :=
  s.issue t fun e ts => tAlu e ts f .srl

/-- SRA (Table 6.3, R160). -/
def execSra (t : Nat) (f : LSR) (s : State) : Host.Outcome State Fault Refusal :=
  s.issue t fun e ts => tAlu e ts f .sra

/-- SLT (Table 6.3, R160). -/
def execSlt (t : Nat) (f : LSR) (s : State) : Host.Outcome State Fault Refusal :=
  s.issue t fun e ts => tAlu e ts f .slt

/-- SLTU (Table 6.3, R160). -/
def execSltu (t : Nat) (f : LSR) (s : State) : Host.Outcome State Fault Refusal :=
  s.issue t fun e ts => tAlu e ts f .sltu

/-- MIN (Table 6.3, R160). -/
def execMin (t : Nat) (f : LSR) (s : State) : Host.Outcome State Fault Refusal :=
  s.issue t fun e ts => tAlu e ts f .min

/-- MAX (Table 6.3, R160). -/
def execMax (t : Nat) (f : LSR) (s : State) : Host.Outcome State Fault Refusal :=
  s.issue t fun e ts => tAlu e ts f .max

/-- MINU (Table 6.3, R160). -/
def execMinu (t : Nat) (f : LSR) (s : State) : Host.Outcome State Fault Refusal :=
  s.issue t fun e ts => tAlu e ts f .minu

/-- MAXU (Table 6.3, R160). -/
def execMaxu (t : Nat) (f : LSR) (s : State) : Host.Outcome State Fault Refusal :=
  s.issue t fun e ts => tAlu e ts f .maxu

/-- MOV (Table 6.3). -/
def execMov (t : Nat) (f : LSR) (s : State) : Host.Outcome State Fault Refusal :=
  s.issue t fun e ts => tMov e ts f

/-- ADDI (Table 6.3, R160). -/
def execAddi (t : Nat) (f : LSI) (s : State) : Host.Outcome State Fault Refusal :=
  s.issue t fun e ts => tAluImm e ts f .add

/-- ANDI (Table 6.3, R160). -/
def execAndi (t : Nat) (f : LSI) (s : State) : Host.Outcome State Fault Refusal :=
  s.issue t fun e ts => tAluImm e ts f .and

/-- ORI (Table 6.3, R160). -/
def execOri (t : Nat) (f : LSI) (s : State) : Host.Outcome State Fault Refusal :=
  s.issue t fun e ts => tAluImm e ts f .or

/-- XORI (Table 6.3, R160). -/
def execXori (t : Nat) (f : LSI) (s : State) : Host.Outcome State Fault Refusal :=
  s.issue t fun e ts => tAluImm e ts f .xor

/-- SLLI (Table 6.3, R160). -/
def execSlli (t : Nat) (f : LSI) (s : State) : Host.Outcome State Fault Refusal :=
  s.issue t fun e ts => tAluImm e ts f .sll

/-- SRLI (Table 6.3, R160). -/
def execSrli (t : Nat) (f : LSI) (s : State) : Host.Outcome State Fault Refusal :=
  s.issue t fun e ts => tAluImm e ts f .srl

/-- SRAI (Table 6.3, R160). -/
def execSrai (t : Nat) (f : LSI) (s : State) : Host.Outcome State Fault Refusal :=
  s.issue t fun e ts => tAluImm e ts f .sra

/-- SLTI (Table 6.3, R160). -/
def execSlti (t : Nat) (f : LSI) (s : State) : Host.Outcome State Fault Refusal :=
  s.issue t fun e ts => tAluImm e ts f .slt

/-- SLTIU (Table 6.3, R160). -/
def execSltiu (t : Nat) (f : LSI) (s : State) : Host.Outcome State Fault Refusal :=
  s.issue t fun e ts => tAluImm e ts f .sltu

/-- LI: IMM sign-extended (Table 6.3). -/
def execLi (t : Nat) (f : LSI) (s : State) : Host.Outcome State Fault Refusal :=
  s.issue t fun e ts => tLoadImm e ts f fun _ i => i.signExtend 64

/-- LIU: IMM zero-extended (Table 6.3). -/
def execLiu (t : Nat) (f : LSI) (s : State) : Host.Outcome State Fault Refusal :=
  s.issue t fun e ts => tLoadImm e ts f fun _ i => i.setWidth 64

/-- LIH: IMM to the high half (Table 6.3). -/
def execLih (t : Nat) (f : LSI) (s : State) : Host.Outcome State Fault Refusal :=
  s.issue t fun e ts => tLoadImm e ts f fun v i => i ++ v.setWidth 32

/-- LDW (Table 6.3, R161). -/
def execLdw (t : Nat) (f : LSM) (s : State) : Host.Outcome State Fault Refusal :=
  s.issue t fun e ts => tLoad e ts f 1

/-- LDD (Table 6.3, R161). -/
def execLdd (t : Nat) (f : LSM) (s : State) : Host.Outcome State Fault Refusal :=
  s.issue t fun e ts => tLoad e ts f 2

/-- STW (Table 6.3, R161). -/
def execStw (t : Nat) (f : LSM) (s : State) : Host.Outcome State Fault Refusal :=
  s.issue t fun e ts => tStore e ts f 1

/-- STD (Table 6.3, R161). -/
def execStd (t : Nat) (f : LSM) (s : State) : Host.Outcome State Fault Refusal :=
  s.issue t fun e ts => tStore e ts f 2

/-- CSRR (R161). -/
def execCsrr (t : Nat) (f : LSM) (s : State) : Host.Outcome State Fault Refusal :=
  s.issue t fun e ts => tCsrr e ts f

/-- Q.WAIT: OCC ≥ n (R133, R163). -/
def execQWait (t : Nat) (f : LQ) (s : State) : Host.Outcome State Fault Refusal :=
  s.issue t fun e ts => tQueue e ts f (fun _ => true) (fun r n => decide (n ≤ r.occ)) (fun r _ => r) fun r n => orderWords true r r.head n

/-- Q.SPACE: SIZE − OCC ≥ n (R133, R163). -/
def execQSpace (t : Nat) (f : LQ) (s : State) : Host.Outcome State Fault Refusal :=
  s.issue t fun e ts => tQueue e ts f (fun _ => true) (fun r n => decide (n ≤ r.space)) (fun r _ => r) fun _ _ t => t

/-- Q.POP: the head advances by n; CONS is 4 (R163). -/
def execQPop (t : Nat) (f : LQ) (s : State) : Host.Outcome State Fault Refusal :=
  s.issue t fun e ts => tQueue e ts f (fun r => decide (r.cons = 4)) (fun r n => decide (n ≤ r.occ)) Region.pop fun r n => orderWords true r r.head n

/-- Q.PUSH: the tail advances by n; PROD is 4 (R163). -/
def execQPush (t : Nat) (f : LQ) (s : State) : Host.Outcome State Fault Refusal :=
  s.issue t fun e ts => tQueue e ts f (fun r => decide (r.prod = 4)) (fun r n => decide (n ≤ r.space)) Region.push fun r n => orderWords false r r.tail n

/-- RG.SET (R135, R164). -/
def execRgSet (t : Nat) (f : LQ) (s : State) : Host.Outcome State Fault Refusal :=
  s.issue t fun e ts => tRgSet e ts f

/-- RG.GET (Table 6.4). -/
def execRgGet (t : Nat) (f : LQ) (s : State) : Host.Outcome State Fault Refusal :=
  s.issue t fun e ts => tRgGet e ts f

/-- SPD.CLR (R140, R164). -/
def execSpdClr (t : Nat) (f : LQ) (s : State) : Host.Outcome State Fault Refusal :=
  s.issue t fun e ts => tSpdClr e ts f

end Sys2Proof.Machine
end

