-- ==== Sys2Proof/Machine/VectorCmd.lean ====
section
/-!
DEFINITION. Vector instructions (R162, R165 to R171).
-/

namespace Sys2Proof.Machine

/-- MOV.VS (R162). -/
def execMovVs (t : Nat) (f : LMV) (s : State) : Host.Outcome State Fault Refusal :=
  s.issue t fun e ts => tVec e ts (.movVS f)

/-- MOV.SV (R162). -/
def execMovSv (t : Nat) (f : LMV) (s : State) : Host.Outcome State Fault Refusal :=
  s.issue t fun e ts => tVec e ts (.movSV f)

/-- MOV.VV (R162). -/
def execMovVv (t : Nat) (f : LMV) (s : State) : Host.Outcome State Fault Refusal :=
  s.issue t fun e ts => tVec e ts (.movVV f)

/-- MOV.PS (R162). -/
def execMovPs (t : Nat) (f : LMV) (s : State) : Host.Outcome State Fault Refusal :=
  s.issue t fun e ts => tVec e ts (.movPS f)

/-- MOV.SP (R162). -/
def execMovSp (t : Nat) (f : LMV) (s : State) : Host.Outcome State Fault Refusal :=
  s.issue t fun e ts => tVec e ts (.movSP f)

/-- VADD (Table 6.5). -/
def execVadd (t : Nat) (f : LVA) (s : State) : Host.Outcome State Fault Refusal :=
  s.issue t fun e ts => tVec e ts (.arith .fadd f)

/-- VSUB (Table 6.5). -/
def execVsub (t : Nat) (f : LVA) (s : State) : Host.Outcome State Fault Refusal :=
  s.issue t fun e ts => tVec e ts (.arith .fsub f)

/-- VMUL (Table 6.5). -/
def execVmul (t : Nat) (f : LVA) (s : State) : Host.Outcome State Fault Refusal :=
  s.issue t fun e ts => tVec e ts (.arith .fmul f)

/-- VFMA (Table 6.5). -/
def execVfma (t : Nat) (f : LVA) (s : State) : Host.Outcome State Fault Refusal :=
  s.issue t fun e ts => tVec e ts (.arith .ffma f)

/-- VMIN (Table 6.5). -/
def execVmin (t : Nat) (f : LVA) (s : State) : Host.Outcome State Fault Refusal :=
  s.issue t fun e ts => tVec e ts (.arith .fmin f)

/-- VMAX (Table 6.5). -/
def execVmax (t : Nat) (f : LVA) (s : State) : Host.Outcome State Fault Refusal :=
  s.issue t fun e ts => tVec e ts (.arith .fmax f)

/-- VABS (Table 6.5). -/
def execVabs (t : Nat) (f : LVA) (s : State) : Host.Outcome State Fault Refusal :=
  s.issue t fun e ts => tVec e ts (.arith .fabs f)

/-- VNEG (Table 6.5). -/
def execVneg (t : Nat) (f : LVA) (s : State) : Host.Outcome State Fault Refusal :=
  s.issue t fun e ts => tVec e ts (.arith .fneg f)

/-- VDIV (Table 6.5). -/
def execVdiv (t : Nat) (f : LVA) (s : State) : Host.Outcome State Fault Refusal :=
  s.issue t fun e ts => tVec e ts (.arith .div f)

/-- VSQRT (Table 6.5). -/
def execVsqrt (t : Nat) (f : LVA) (s : State) : Host.Outcome State Fault Refusal :=
  s.issue t fun e ts => tVec e ts (.arith .sqrt f)

/-- VRCP (Table 6.5). -/
def execVrcp (t : Nat) (f : LVA) (s : State) : Host.Outcome State Fault Refusal :=
  s.issue t fun e ts => tVec e ts (.arith .rcp f)

/-- VRSQRT (Table 6.5). -/
def execVrsqrt (t : Nat) (f : LVA) (s : State) : Host.Outcome State Fault Refusal :=
  s.issue t fun e ts => tVec e ts (.arith .rsqrt f)

/-- VEXP2 (Table 6.5). -/
def execVexp2 (t : Nat) (f : LVA) (s : State) : Host.Outcome State Fault Refusal :=
  s.issue t fun e ts => tVec e ts (.arith .exp2 f)

/-- VLOG2 (Table 6.5). -/
def execVlog2 (t : Nat) (f : LVA) (s : State) : Host.Outcome State Fault Refusal :=
  s.issue t fun e ts => tVec e ts (.arith .log2 f)

/-- VEXP (Table 6.5). -/
def execVexp (t : Nat) (f : LVA) (s : State) : Host.Outcome State Fault Refusal :=
  s.issue t fun e ts => tVec e ts (.arith .exp f)

/-- VLOG (Table 6.5). -/
def execVlog (t : Nat) (f : LVA) (s : State) : Host.Outcome State Fault Refusal :=
  s.issue t fun e ts => tVec e ts (.arith .log f)

/-- VTANH (Table 6.5). -/
def execVtanh (t : Nat) (f : LVA) (s : State) : Host.Outcome State Fault Refusal :=
  s.issue t fun e ts => tVec e ts (.arith .tanh f)

/-- VSIGM (Table 6.5). -/
def execVsigm (t : Nat) (f : LVA) (s : State) : Host.Outcome State Fault Refusal :=
  s.issue t fun e ts => tVec e ts (.arith .sigm f)

/-- VERF (Table 6.5). -/
def execVerf (t : Nat) (f : LVA) (s : State) : Host.Outcome State Fault Refusal :=
  s.issue t fun e ts => tVec e ts (.arith .erf f)

/-- VIADD (Table 6.5). -/
def execViadd (t : Nat) (f : LVA) (s : State) : Host.Outcome State Fault Refusal :=
  s.issue t fun e ts => tVec e ts (.arith .iadd f)

/-- VISUB (Table 6.5). -/
def execVisub (t : Nat) (f : LVA) (s : State) : Host.Outcome State Fault Refusal :=
  s.issue t fun e ts => tVec e ts (.arith .isub f)

/-- VIMUL (Table 6.5). -/
def execVimul (t : Nat) (f : LVA) (s : State) : Host.Outcome State Fault Refusal :=
  s.issue t fun e ts => tVec e ts (.arith .imul f)

/-- VAND (Table 6.5). -/
def execVand (t : Nat) (f : LVA) (s : State) : Host.Outcome State Fault Refusal :=
  s.issue t fun e ts => tVec e ts (.arith .and f)

/-- VOR (Table 6.5). -/
def execVor (t : Nat) (f : LVA) (s : State) : Host.Outcome State Fault Refusal :=
  s.issue t fun e ts => tVec e ts (.arith .or f)

/-- VXOR (Table 6.5). -/
def execVxor (t : Nat) (f : LVA) (s : State) : Host.Outcome State Fault Refusal :=
  s.issue t fun e ts => tVec e ts (.arith .xor f)

/-- VSLL (Table 6.5). -/
def execVsll (t : Nat) (f : LVA) (s : State) : Host.Outcome State Fault Refusal :=
  s.issue t fun e ts => tVec e ts (.arith .sll f)

/-- VSRL (Table 6.5). -/
def execVsrl (t : Nat) (f : LVA) (s : State) : Host.Outcome State Fault Refusal :=
  s.issue t fun e ts => tVec e ts (.arith .srl f)

/-- VSRA (Table 6.5). -/
def execVsra (t : Nat) (f : LVA) (s : State) : Host.Outcome State Fault Refusal :=
  s.issue t fun e ts => tVec e ts (.arith .sra f)

/-- VIMIN (Table 6.5). -/
def execVimin (t : Nat) (f : LVA) (s : State) : Host.Outcome State Fault Refusal :=
  s.issue t fun e ts => tVec e ts (.arith .imin f)

/-- VIMAX (Table 6.5). -/
def execVimax (t : Nat) (f : LVA) (s : State) : Host.Outcome State Fault Refusal :=
  s.issue t fun e ts => tVec e ts (.arith .imax f)

/-- VCMP.EQ (Table 6.5). -/
def execVcmpEq (t : Nat) (f : LVA) (s : State) : Host.Outcome State Fault Refusal :=
  s.issue t fun e ts => tVec e ts (.fcmp .eq f)

/-- VCMP.NE (Table 6.5). -/
def execVcmpNe (t : Nat) (f : LVA) (s : State) : Host.Outcome State Fault Refusal :=
  s.issue t fun e ts => tVec e ts (.fcmp .ne f)

/-- VCMP.LT (Table 6.5). -/
def execVcmpLt (t : Nat) (f : LVA) (s : State) : Host.Outcome State Fault Refusal :=
  s.issue t fun e ts => tVec e ts (.fcmp .lt f)

/-- VCMP.LE (Table 6.5). -/
def execVcmpLe (t : Nat) (f : LVA) (s : State) : Host.Outcome State Fault Refusal :=
  s.issue t fun e ts => tVec e ts (.fcmp .le f)

/-- VCMP.GT (Table 6.5). -/
def execVcmpGt (t : Nat) (f : LVA) (s : State) : Host.Outcome State Fault Refusal :=
  s.issue t fun e ts => tVec e ts (.fcmp .gt f)

/-- VCMP.GE (Table 6.5). -/
def execVcmpGe (t : Nat) (f : LVA) (s : State) : Host.Outcome State Fault Refusal :=
  s.issue t fun e ts => tVec e ts (.fcmp .ge f)

/-- VICMP.EQ (Table 6.5). -/
def execVicmpEq (t : Nat) (f : LVA) (s : State) : Host.Outcome State Fault Refusal :=
  s.issue t fun e ts => tVec e ts (.icmp .eq f)

/-- VICMP.NE (Table 6.5). -/
def execVicmpNe (t : Nat) (f : LVA) (s : State) : Host.Outcome State Fault Refusal :=
  s.issue t fun e ts => tVec e ts (.icmp .ne f)

/-- VICMP.LT (Table 6.5). -/
def execVicmpLt (t : Nat) (f : LVA) (s : State) : Host.Outcome State Fault Refusal :=
  s.issue t fun e ts => tVec e ts (.icmp .lt f)

/-- VICMP.LE (Table 6.5). -/
def execVicmpLe (t : Nat) (f : LVA) (s : State) : Host.Outcome State Fault Refusal :=
  s.issue t fun e ts => tVec e ts (.icmp .le f)

/-- VICMP.GT (Table 6.5). -/
def execVicmpGt (t : Nat) (f : LVA) (s : State) : Host.Outcome State Fault Refusal :=
  s.issue t fun e ts => tVec e ts (.icmp .gt f)

/-- VICMP.GE (Table 6.5). -/
def execVicmpGe (t : Nat) (f : LVA) (s : State) : Host.Outcome State Fault Refusal :=
  s.issue t fun e ts => tVec e ts (.icmp .ge f)

/-- PAND (Table 6.5). -/
def execPand (t : Nat) (f : LVA) (s : State) : Host.Outcome State Fault Refusal :=
  s.issue t fun e ts => tVec e ts (.plog .and f)

/-- POR (Table 6.5). -/
def execPor (t : Nat) (f : LVA) (s : State) : Host.Outcome State Fault Refusal :=
  s.issue t fun e ts => tVec e ts (.plog .or f)

/-- PXOR (Table 6.5). -/
def execPxor (t : Nat) (f : LVA) (s : State) : Host.Outcome State Fault Refusal :=
  s.issue t fun e ts => tVec e ts (.plog .xor f)

/-- PNOT (Table 6.5). -/
def execPnot (t : Nat) (f : LVA) (s : State) : Host.Outcome State Fault Refusal :=
  s.issue t fun e ts => tVec e ts (.plog .not f)

/-- PPOP (Table 6.5). -/
def execPpop (t : Nat) (f : LVA) (s : State) : Host.Outcome State Fault Refusal :=
  s.issue t fun e ts => tVec e ts (.ppop f)

/-- VCVT (R109, R166). -/
def execVcvt (t : Nat) (f : LVA) (s : State) : Host.Outcome State Fault Refusal :=
  s.issue t fun e ts => tVec e ts (.cvt f)

/-- VCVT.N2 (R109, R166). -/
def execVcvtN2 (t : Nat) (f : LVA) (s : State) : Host.Outcome State Fault Refusal :=
  s.issue t fun e ts => tVec e ts (.cvtN2 f)

/-- SUM.NF (R167). -/
def execSumNf (t : Nat) (f : LVS) (s : State) : Host.Outcome State Fault Refusal :=
  s.issue t fun e ts => tVec e ts (.sum .nf f)

/-- SUM.AMAX (R167). -/
def execSumAmax (t : Nat) (f : LVS) (s : State) : Host.Outcome State Fault Refusal :=
  s.issue t fun e ts => tVec e ts (.sum .amax f)

/-- SUM.ADD (R167). -/
def execSumAdd (t : Nat) (f : LVS) (s : State) : Host.Outcome State Fault Refusal :=
  s.issue t fun e ts => tVec e ts (.sum .add f)

/-- SUM.ARGMAX (R167). -/
def execSumArgmax (t : Nat) (f : LVS) (s : State) : Host.Outcome State Fault Refusal :=
  s.issue t fun e ts => tVec e ts (.sum .argmax f)

/-- VLD (R168 to R171). -/
def execVld (t : Nat) (f : LVM) (s : State) : Host.Outcome State Fault Refusal :=
  s.issue t fun e ts => tVec e ts (.vld f)

/-- VST (R168 to R171). -/
def execVst (t : Nat) (f : LVM) (s : State) : Host.Outcome State Fault Refusal :=
  s.issue t fun e ts => tVec e ts (.vst f)

/-- VST.CVT (R168 to R171). -/
def execVstCvt (t : Nat) (f : LVM) (s : State) : Host.Outcome State Fault Refusal :=
  s.issue t fun e ts => tVec e ts (.vstCvt f)

/-- VST.MX (R168 to R171). -/
def execVstMx (t : Nat) (f : LVM) (s : State) : Host.Outcome State Fault Refusal :=
  s.issue t fun e ts => tVec e ts (.vstMx f)

/-- VQ.POP (R168 to R171). -/
def execVqPop (t : Nat) (f : LVM) (s : State) : Host.Outcome State Fault Refusal :=
  s.issue t fun e ts => tVec e ts (.vqPop f)

/-- VQ.PUSH (R168 to R171). -/
def execVqPush (t : Nat) (f : LVM) (s : State) : Host.Outcome State Fault Refusal :=
  s.issue t fun e ts => tVec e ts (.vqPush f)

end Sys2Proof.Machine
end

