-- ==== Sys2Proof/Machine/Dispatch.lean ====
section
/-!
DEFINITION. The dispatch: one arm per command of spec/opcode_table.json, each a direct call of its meaning.
-/

namespace Sys2Proof.Machine

/-- The effect of a command on everything but the queue of waiting commands. -/
def exec (i : Instr) (s : State) : Host.Outcome State Fault Refusal :=
  match i with
  | .submit h m => Sys2Proof.Machine.execSubmit h m s
  | .loaded p => Sys2Proof.Machine.execLoaded p s
  | .run h r => Sys2Proof.Machine.execRun h r s
  | .halt h => Sys2Proof.Machine.execHalt h s
  | .abort h => Sys2Proof.Machine.execAbort h s
  | .taint h halve => Sys2Proof.Machine.execTaint h halve s
  | .exportMsg h => Sys2Proof.Machine.execExportMsg h s
  | .status h => Sys2Proof.Machine.execStatus h s
  | .release h => Sys2Proof.Machine.execRelease h s
  | .cap h cap => Sys2Proof.Machine.execCap h cap s
  | .put h addr data => Sys2Proof.Machine.execPut h addr data s
  | .invocationStart p => Sys2Proof.Machine.execInvocationStart p s
  | .phaseSwap p => Sys2Proof.Machine.execPhaseSwap p s
  | .tileEndReport t => Sys2Proof.Machine.execTileEndReport t s
  | .beqz t f => Sys2Proof.Machine.execBeqz t f s
  | .bnez t f => Sys2Proof.Machine.execBnez t f s
  | .beq t f => Sys2Proof.Machine.execBeq t f s
  | .bne t f => Sys2Proof.Machine.execBne t f s
  | .blt t f => Sys2Proof.Machine.execBlt t f s
  | .bge t f => Sys2Proof.Machine.execBge t f s
  | .bltu t f => Sys2Proof.Machine.execBltu t f s
  | .bgeu t f => Sys2Proof.Machine.execBgeu t f s
  | .jmp t f => Sys2Proof.Machine.execJmp t f s
  | .jal t f => Sys2Proof.Machine.execJal t f s
  | .jr t f => Sys2Proof.Machine.execJr t f s
  | .loop t f => Sys2Proof.Machine.execLoop t f s
  | .ctlEnd t f => Sys2Proof.Machine.execCtlEnd t f s
  | .sysNop t f => Sys2Proof.Machine.execSysNop t f s
  | .sysFence t f => Sys2Proof.Machine.execSysFence t f s
  | .sysTime t f => Sys2Proof.Machine.execSysTime t f s
  | .sysEvent t f => Sys2Proof.Machine.execSysEvent t f s
  | .eventPost t => Sys2Proof.Machine.execEventPost t s
  | .eventResend t => Sys2Proof.Machine.execEventResend t s
  | .add t f => Sys2Proof.Machine.execAdd t f s
  | .sub t f => Sys2Proof.Machine.execSub t f s
  | .mul t f => Sys2Proof.Machine.execMul t f s
  | .and t f => Sys2Proof.Machine.execAnd t f s
  | .or t f => Sys2Proof.Machine.execOr t f s
  | .xor t f => Sys2Proof.Machine.execXor t f s
  | .sll t f => Sys2Proof.Machine.execSll t f s
  | .srl t f => Sys2Proof.Machine.execSrl t f s
  | .sra t f => Sys2Proof.Machine.execSra t f s
  | .slt t f => Sys2Proof.Machine.execSlt t f s
  | .sltu t f => Sys2Proof.Machine.execSltu t f s
  | .min t f => Sys2Proof.Machine.execMin t f s
  | .max t f => Sys2Proof.Machine.execMax t f s
  | .minu t f => Sys2Proof.Machine.execMinu t f s
  | .maxu t f => Sys2Proof.Machine.execMaxu t f s
  | .mov t f => Sys2Proof.Machine.execMov t f s
  | .addi t f => Sys2Proof.Machine.execAddi t f s
  | .andi t f => Sys2Proof.Machine.execAndi t f s
  | .ori t f => Sys2Proof.Machine.execOri t f s
  | .xori t f => Sys2Proof.Machine.execXori t f s
  | .slli t f => Sys2Proof.Machine.execSlli t f s
  | .srli t f => Sys2Proof.Machine.execSrli t f s
  | .srai t f => Sys2Proof.Machine.execSrai t f s
  | .slti t f => Sys2Proof.Machine.execSlti t f s
  | .sltiu t f => Sys2Proof.Machine.execSltiu t f s
  | .li t f => Sys2Proof.Machine.execLi t f s
  | .liu t f => Sys2Proof.Machine.execLiu t f s
  | .lih t f => Sys2Proof.Machine.execLih t f s
  | .ldw t f => Sys2Proof.Machine.execLdw t f s
  | .ldd t f => Sys2Proof.Machine.execLdd t f s
  | .stw t f => Sys2Proof.Machine.execStw t f s
  | .std t f => Sys2Proof.Machine.execStd t f s
  | .csrr t f => Sys2Proof.Machine.execCsrr t f s
  | .movVs t f => Sys2Proof.Machine.execMovVs t f s
  | .movSv t f => Sys2Proof.Machine.execMovSv t f s
  | .movVv t f => Sys2Proof.Machine.execMovVv t f s
  | .movPs t f => Sys2Proof.Machine.execMovPs t f s
  | .movSp t f => Sys2Proof.Machine.execMovSp t f s
  | .qWait t f => Sys2Proof.Machine.execQWait t f s
  | .qSpace t f => Sys2Proof.Machine.execQSpace t f s
  | .qPop t f => Sys2Proof.Machine.execQPop t f s
  | .qPush t f => Sys2Proof.Machine.execQPush t f s
  | .rgSet t f => Sys2Proof.Machine.execRgSet t f s
  | .rgGet t f => Sys2Proof.Machine.execRgGet t f s
  | .spdClr t f => Sys2Proof.Machine.execSpdClr t f s
  | .vadd t f => Sys2Proof.Machine.execVadd t f s
  | .vsub t f => Sys2Proof.Machine.execVsub t f s
  | .vmul t f => Sys2Proof.Machine.execVmul t f s
  | .vfma t f => Sys2Proof.Machine.execVfma t f s
  | .vmin t f => Sys2Proof.Machine.execVmin t f s
  | .vmax t f => Sys2Proof.Machine.execVmax t f s
  | .vabs t f => Sys2Proof.Machine.execVabs t f s
  | .vneg t f => Sys2Proof.Machine.execVneg t f s
  | .vdiv t f => Sys2Proof.Machine.execVdiv t f s
  | .vsqrt t f => Sys2Proof.Machine.execVsqrt t f s
  | .vrcp t f => Sys2Proof.Machine.execVrcp t f s
  | .vrsqrt t f => Sys2Proof.Machine.execVrsqrt t f s
  | .vexp2 t f => Sys2Proof.Machine.execVexp2 t f s
  | .vlog2 t f => Sys2Proof.Machine.execVlog2 t f s
  | .vexp t f => Sys2Proof.Machine.execVexp t f s
  | .vlog t f => Sys2Proof.Machine.execVlog t f s
  | .vtanh t f => Sys2Proof.Machine.execVtanh t f s
  | .vsigm t f => Sys2Proof.Machine.execVsigm t f s
  | .verf t f => Sys2Proof.Machine.execVerf t f s
  | .viadd t f => Sys2Proof.Machine.execViadd t f s
  | .visub t f => Sys2Proof.Machine.execVisub t f s
  | .vimul t f => Sys2Proof.Machine.execVimul t f s
  | .vand t f => Sys2Proof.Machine.execVand t f s
  | .vor t f => Sys2Proof.Machine.execVor t f s
  | .vxor t f => Sys2Proof.Machine.execVxor t f s
  | .vsll t f => Sys2Proof.Machine.execVsll t f s
  | .vsrl t f => Sys2Proof.Machine.execVsrl t f s
  | .vsra t f => Sys2Proof.Machine.execVsra t f s
  | .vimin t f => Sys2Proof.Machine.execVimin t f s
  | .vimax t f => Sys2Proof.Machine.execVimax t f s
  | .vcmpEq t f => Sys2Proof.Machine.execVcmpEq t f s
  | .vcmpNe t f => Sys2Proof.Machine.execVcmpNe t f s
  | .vcmpLt t f => Sys2Proof.Machine.execVcmpLt t f s
  | .vcmpLe t f => Sys2Proof.Machine.execVcmpLe t f s
  | .vcmpGt t f => Sys2Proof.Machine.execVcmpGt t f s
  | .vcmpGe t f => Sys2Proof.Machine.execVcmpGe t f s
  | .vicmpEq t f => Sys2Proof.Machine.execVicmpEq t f s
  | .vicmpNe t f => Sys2Proof.Machine.execVicmpNe t f s
  | .vicmpLt t f => Sys2Proof.Machine.execVicmpLt t f s
  | .vicmpLe t f => Sys2Proof.Machine.execVicmpLe t f s
  | .vicmpGt t f => Sys2Proof.Machine.execVicmpGt t f s
  | .vicmpGe t f => Sys2Proof.Machine.execVicmpGe t f s
  | .pand t f => Sys2Proof.Machine.execPand t f s
  | .por t f => Sys2Proof.Machine.execPor t f s
  | .pxor t f => Sys2Proof.Machine.execPxor t f s
  | .pnot t f => Sys2Proof.Machine.execPnot t f s
  | .ppop t f => Sys2Proof.Machine.execPpop t f s
  | .vcvt t f => Sys2Proof.Machine.execVcvt t f s
  | .vcvtN2 t f => Sys2Proof.Machine.execVcvtN2 t f s
  | .sumNf t f => Sys2Proof.Machine.execSumNf t f s
  | .sumAmax t f => Sys2Proof.Machine.execSumAmax t f s
  | .sumAdd t f => Sys2Proof.Machine.execSumAdd t f s
  | .sumArgmax t f => Sys2Proof.Machine.execSumArgmax t f s
  | .vld t f => Sys2Proof.Machine.execVld t f s
  | .vst t f => Sys2Proof.Machine.execVst t f s
  | .vstCvt t f => Sys2Proof.Machine.execVstCvt t f s
  | .vstMx t f => Sys2Proof.Machine.execVstMx t f s
  | .vqPop t f => Sys2Proof.Machine.execVqPop t f s
  | .vqPush t f => Sys2Proof.Machine.execVqPush t f s
  | .sharedPortAccess t bank feed want => Sys2Proof.Machine.execSharedPortAccess t bank feed want s
  | .opeMulClr t f => Sys2Proof.Machine.execOpeMulClr t f s
  | .opeMulCont t f => Sys2Proof.Machine.execOpeMulCont t f s
  | .opeDrn t f => Sys2Proof.Machine.execOpeDrn t f s
  | .opeCube t f => Sys2Proof.Machine.execOpeCube t f s
  | .opeFeedBeat t => Sys2Proof.Machine.execOpeFeedBeat t s
  | .opeSetReady t k => Sys2Proof.Machine.execOpeSetReady t k s
  | .opeDrainStart t k => Sys2Proof.Machine.execOpeDrainStart t k s
  | .opeCheck t k upset => Sys2Proof.Machine.execOpeCheck t k upset s
  | .tileSrStepWrite priv t v => Sys2Proof.Machine.execTileSrStepWrite priv t v s
  | .tileRgWrite priv t off v => Sys2Proof.Machine.execTileRgWrite priv t off v s
  | .hzdCtlWrite priv t v => Sys2Proof.Machine.execHzdCtlWrite priv t v s
  | .registerWrite priv wafer addr v => Sys2Proof.Machine.execRegisterWrite priv wafer addr v s
  | .netPull t f => Sys2Proof.Machine.execNetPull t f s
  | .netPush t f => Sys2Proof.Machine.execNetPush t f s
  | .netSend t f => Sys2Proof.Machine.execNetSend t f s
  | .atomAdd t f => Sys2Proof.Machine.execAtomAdd t f s
  | .atomMin t f => Sys2Proof.Machine.execAtomMin t f s
  | .atomMax t f => Sys2Proof.Machine.execAtomMax t f s
  | .atomSwap t f => Sys2Proof.Machine.execAtomSwap t f s
  | .atomCas t f => Sys2Proof.Machine.execAtomCas t f s
  | .netUnitIssue t tid => Sys2Proof.Machine.execNetUnitIssue t tid s
  | .flitInject t => Sys2Proof.Machine.execFlitInject t s
  | .flitHop t port crcFail => Sys2Proof.Machine.execFlitHop t port crcFail s
  | .combinedReturnCopy t => Sys2Proof.Machine.execCombinedReturnCopy t s
  | .rdataArrive t => Sys2Proof.Machine.execRdataArrive t s
  | .unitAckArrive t => Sys2Proof.Machine.execUnitAckArrive t s
  | .netTransferComplete t tid => Sys2Proof.Machine.execNetTransferComplete t tid s
  | .sendFlitArrive t => Sys2Proof.Machine.execSendFlitArrive t s
  | .tileWindowRead priv wafer addr => Sys2Proof.Machine.execTileWindowRead priv wafer addr s
  | .tileWindowWrite priv wafer addr v => Sys2Proof.Machine.execTileWindowWrite priv wafer addr v s
  | .routeEntryWrite priv f bank d v => Sys2Proof.Machine.execRouteEntryWrite priv f bank d v s
  | .epochSwap priv f v => Sys2Proof.Machine.execEpochSwap priv f v s
  | .routeRecompute => Sys2Proof.Machine.execRouteRecompute s
  | .rdescWrite priv t d v => Sys2Proof.Machine.execRdescWrite priv t d v s
  | .redFlitSend t d => Sys2Proof.Machine.execRedFlitSend t d s
  | .redCombine t d => Sys2Proof.Machine.execRedCombine t d s
  | .redRootFlit n d => Sys2Proof.Machine.execRedRootFlit n d s
  | .bucketCommit n => Sys2Proof.Machine.execBucketCommit n s
  | .bucketAckReceive t => Sys2Proof.Machine.execBucketAckReceive t s
  | .retryDecision n => Sys2Proof.Machine.execRetryDecision n s
  | .siteRedStepWrite priv n v => Sys2Proof.Machine.execSiteRedStepWrite priv n v s
  | .siteRequestArrive t => Sys2Proof.Machine.execSiteRequestArrive t s
  | .siteRequestServe n flips => Sys2Proof.Machine.execSiteRequestServe n flips s
  | .pwinRead n flips => Sys2Proof.Machine.execPwinRead n flips s
  | .pwinFill n => Sys2Proof.Machine.execPwinFill n s
  | .armFilled priv n w => Sys2Proof.Machine.execArmFilled priv n w s
  | .armEmpty priv n w => Sys2Proof.Machine.execArmEmpty priv n w s
  | .disarm priv n w => Sys2Proof.Machine.execDisarm priv n w s
  | .siteScAllocWrite priv n v => Sys2Proof.Machine.execSiteScAllocWrite priv n v s
  | .siteOwnWrite priv n v => Sys2Proof.Machine.execSiteOwnWrite priv n v s
  | .patrolRead n str flips => Sys2Proof.Machine.execPatrolRead n str flips s
  | .selfRefreshEntry n str => Sys2Proof.Machine.execSelfRefreshEntry n str s
  | .refresh n => Sys2Proof.Machine.execRefresh n s
  | .stackThermalReading n temp => Sys2Proof.Machine.execStackThermalReading n temp s
  | .siteDisable priv n => Sys2Proof.Machine.execSiteDisable priv n s
  | .keySlotLoad n p => Sys2Proof.Machine.execKeySlotLoad n p s
  | .bindRecord n => Sys2Proof.Machine.execBindRecord n s
  | .blockUpdate n => Sys2Proof.Machine.execBlockUpdate n s
  | .updateWriteComplete n => Sys2Proof.Machine.execUpdateWriteComplete n s
  | .taintPropagate n => Sys2Proof.Machine.execTaintPropagate n s
  | .siteFinished n => Sys2Proof.Machine.execSiteFinished n s
  | .pavaneDecide p => Sys2Proof.Machine.execPavaneDecide p s
  | .fold n => Sys2Proof.Machine.execFold n s
  | .foldComplete p => Sys2Proof.Machine.execFoldComplete p s
  | .flipComplete p => Sys2Proof.Machine.execFlipComplete p s
  | .arm priv n => Sys2Proof.Machine.execArm priv n s
  | .taintHalve priv n => Sys2Proof.Machine.execTaintHalve priv n s
  | .taintNoHalve priv n => Sys2Proof.Machine.execTaintNoHalve priv n s
  | .clear priv n => Sys2Proof.Machine.execClear priv n s
  | .exportStart priv n => Sys2Proof.Machine.execExportStart priv n s
  | .exportCancel priv n => Sys2Proof.Machine.execExportCancel priv n s
  | .exportComplete n => Sys2Proof.Machine.execExportComplete n s
  | .dsiteReassign p => Sys2Proof.Machine.execDsiteReassign p s
  | .fieldRelocate p f => Sys2Proof.Machine.execFieldRelocate p f s
  | .feedVoltageSample feed mv10 => Sys2Proof.Machine.execFeedVoltageSample feed mv10 s
  | .fieldSensorReading f temps => Sys2Proof.Machine.execFieldSensorReading f temps s
  | .throttleEscalate f => Sys2Proof.Machine.execThrottleEscalate f s
  | .throttleRelease f => Sys2Proof.Machine.execThrottleRelease f s
  | .squallDrainComplete f => Sys2Proof.Machine.execSquallDrainComplete f s
  | .fuseOpen f => Sys2Proof.Machine.execFuseOpen f s
  | .fieldPowerUp priv f => Sys2Proof.Machine.execFieldPowerUp priv f s
  | .fieldReady f microcode lock => Sys2Proof.Machine.execFieldReady f microcode lock s
  | .fieldPowerDown priv f => Sys2Proof.Machine.execFieldPowerDown priv f s
  | .fieldDrainComplete f => Sys2Proof.Machine.execFieldDrainComplete f s
  | .fuseRetest priv f => Sys2Proof.Machine.execFuseRetest priv f s
  | .fuseRetestComplete f reached => Sys2Proof.Machine.execFuseRetestComplete f reached s
  | .coolantSample tin tout flow => Sys2Proof.Machine.execCoolantSample tin tout flow s
  | .energyWindowEnd feedA feedB module_ parts fields => Sys2Proof.Machine.execEnergyWindowEnd feedA feedB module_ parts fields s
  | .pacingTick => Sys2Proof.Machine.execPacingTick s
  | .cirSet priv v => Sys2Proof.Machine.execCirSet priv v s
  | .cirrusPhaseLoss f perr => Sys2Proof.Machine.execCirrusPhaseLoss f perr s
  | .cirrusNodeStop f => Sys2Proof.Machine.execCirrusNodeStop f s
  | .haloEnable priv q => Sys2Proof.Machine.execHaloEnable priv q s
  | .haloDisable priv q => Sys2Proof.Machine.execHaloDisable priv q s
  | .haloRetrain priv q => Sys2Proof.Machine.execHaloRetrain priv q s
  | .haloTrainingComplete q ok rtt => Sys2Proof.Machine.execHaloTrainingComplete q ok rtt s
  | .idle q x => Sys2Proof.Machine.execIdle q x s
  | .wreq q x => Sys2Proof.Machine.execWreq q x s
  | .wdata q x => Sys2Proof.Machine.execWdata q x s
  | .rreq q x => Sys2Proof.Machine.execRreq q x s
  | .rdata q x => Sys2Proof.Machine.execRdata q x s
  | .cmpl q x => Sys2Proof.Machine.execCmpl q x s
  | .ctrl q x => Sys2Proof.Machine.execCtrl q x s
  | .haloWriteComplete q tag => Sys2Proof.Machine.execHaloWriteComplete q tag s
  | .haloLaneBad q lane => Sys2Proof.Machine.execHaloLaneBad q lane s
  | .ringBreak link => Sys2Proof.Machine.execRingBreak link s
  | .haloWinWrite priv q off v => Sys2Proof.Machine.execHaloWinWrite priv q off v s
  | .haloModuleTransfer q win unit n read => Sys2Proof.Machine.execHaloModuleTransfer q win unit n read s
  | .roceWrite q qp key off data => Sys2Proof.Machine.execRoceWrite q qp key off data s
  | .roceWriteImm q qp key off data imm => Sys2Proof.Machine.execRoceWriteImm q qp key off data imm s
  | .roceRead q qp key off len => Sys2Proof.Machine.execRoceRead q qp key off len s
  | .roceSend q qp data => Sys2Proof.Machine.execRoceSend q qp data s
  | .cnpReceived q qp => Sys2Proof.Machine.execCnpReceived q qp s
  | .ecnMarkedPacket q qp => Sys2Proof.Machine.execEcnMarkedPacket q qp s
  | .arpRequest q addr => Sys2Proof.Machine.execArpRequest q addr s
  | .neighbourDiscovery q addr => Sys2Proof.Machine.execNeighbourDiscovery q addr s
  | .icmpEcho q addr id data => Sys2Proof.Machine.execIcmpEcho q addr id data s
  | .nonRoceFrame q => Sys2Proof.Machine.execNonRoceFrame q s
  | .partAbort priv p => Sys2Proof.Machine.execPartAbort priv p s
  | .partReset priv p => Sys2Proof.Machine.execPartReset priv p s
  | .partDisable priv p => Sys2Proof.Machine.execPartDisable priv p s
  | .partEnable priv p => Sys2Proof.Machine.execPartEnable priv p s
  | .abortComplete p => Sys2Proof.Machine.execAbortComplete p s
  | .modAbort priv => Sys2Proof.Machine.execModAbort priv s
  | .watchdogExpiry p => Sys2Proof.Machine.execWatchdogExpiry p s
  | .stallAdvisory p held => Sys2Proof.Machine.execStallAdvisory p held s
  | .ccRestart => Sys2Proof.Machine.execCcRestart s
  | .ccRestartComplete => Sys2Proof.Machine.execCcRestartComplete s
  | .capacityChange kind u owner => Sys2Proof.Machine.execCapacityChange kind u owner s
  | .partitionDefine p cert limit => Sys2Proof.Machine.execPartitionDefine p cert limit s
  | .partitionFree p => Sys2Proof.Machine.execPartitionFree p s
  | .siteWipe n p str => Sys2Proof.Machine.execSiteWipe n p str s
  | .wipeComplete n => Sys2Proof.Machine.execWipeComplete n s
  | .reserveSet count named => Sys2Proof.Machine.execReserveSet count named s
  | .debugPolicySet p on => Sys2Proof.Machine.execDebugPolicySet p on s
  | .quietWindowSet p on => Sys2Proof.Machine.execQuietWindowSet p on s
  | .hostKeyRegister p slot key rights => Sys2Proof.Machine.execHostKeyRegister p slot key rights s
  | .firmwareUpdate img => Sys2Proof.Machine.execFirmwareUpdate img s
  | .commitSecurityVersion cls => Sys2Proof.Machine.execCommitSecurityVersion cls s
  | .getVersion c => Sys2Proof.Machine.execGetVersion c s
  | .getCapabilities c => Sys2Proof.Machine.execGetCapabilities c s
  | .negotiateAlgorithms c falcon shake => Sys2Proof.Machine.execNegotiateAlgorithms c falcon shake s
  | .getDigests c => Sys2Proof.Machine.execGetDigests c s
  | .getCertificate c slot => Sys2Proof.Machine.execGetCertificate c slot s
  | .challenge c slot nonce => Sys2Proof.Machine.execChallenge c slot nonce s
  | .getMeasurements c idx nonce => Sys2Proof.Machine.execGetMeasurements c idx nonce s
  | .debugUnlock serial nonce sigOk => Sys2Proof.Machine.execDebugUnlock serial nonce sigOk s
  | .entropyHealthFail => Sys2Proof.Machine.execEntropyHealthFail s
  | .errorRecordJudge seqno => Sys2Proof.Machine.execErrorRecordJudge seqno s
  | .fieldRespare f => Sys2Proof.Machine.execFieldRespare f s
  | .tmapChange f words bad byp => Sys2Proof.Machine.execTmapChange f words bad byp s
  | .pregWrite priv addr v back => Sys2Proof.Machine.execPregWrite priv addr v back s
  | .stepRetry p => Sys2Proof.Machine.execStepRetry p s
  | .tileInjParity priv t arg b => Sys2Proof.Machine.execTileInjParity priv t arg b s
  | .tileInjAccumulator priv t arg b => Sys2Proof.Machine.execTileInjAccumulator priv t arg b s
  | .tileInjLane priv t b => Sys2Proof.Machine.execTileInjLane priv t b s
  | .tileInjInstrParity priv t arg => Sys2Proof.Machine.execTileInjInstrParity priv t arg s
  | .tileInjFlit priv t port arg b => Sys2Proof.Machine.execTileInjFlit priv t port arg b s
  | .tileInjAdder priv t arg b => Sys2Proof.Machine.execTileInjAdder priv t arg b s
  | .tileInjStoredBits priv t arg b => Sys2Proof.Machine.execTileInjStoredBits priv t arg b s
  | .tileInjHazard priv t arg => Sys2Proof.Machine.execTileInjHazard priv t arg s
  | .siteInjHbm priv n unit count => Sys2Proof.Machine.execSiteInjHbm priv n unit count s
  | .siteInjStratus priv n unit count => Sys2Proof.Machine.execSiteInjStratus priv n unit count s
  | .siteInjCache priv n unit count => Sys2Proof.Machine.execSiteInjCache priv n unit count s
  | .siteInjTemp priv n temp => Sys2Proof.Machine.execSiteInjTemp priv n temp s
  | .siteInjTempExpiry n => Sys2Proof.Machine.execSiteInjTempExpiry n s
  | .haloInjCrc priv q => Sys2Proof.Machine.execHaloInjCrc priv q s
  | .haloInjCodewords priv q lane count => Sys2Proof.Machine.execHaloInjCodewords priv q lane count s
  | .haloInjLock priv q lane => Sys2Proof.Machine.execHaloInjLock priv q lane s
  | .ezInjFeedVoltage priv feed value dur => Sys2Proof.Machine.execEzInjFeedVoltage priv feed value dur s
  | .ezInjSensorReading priv f sensor value dur => Sys2Proof.Machine.execEzInjSensorReading priv f sensor value dur s
  | .ezInjSensorInvalid priv f sensor dur => Sys2Proof.Machine.execEzInjSensorInvalid priv f sensor dur s
  | .ezInjStageFault priv f => Sys2Proof.Machine.execEzInjStageFault priv f s
  | .ezInjPhaseError priv f value dur => Sys2Proof.Machine.execEzInjPhaseError priv f value dur s
  | .ezInjCoolant priv target value dur => Sys2Proof.Machine.execEzInjCoolant priv target value dur s
  | .ezInjExpiry => Sys2Proof.Machine.execEzInjExpiry s
  | .fpSweepStart priv t => Sys2Proof.Machine.execFpSweepStart priv t s
  | .fpSweepStop priv t => Sys2Proof.Machine.execFpSweepStop priv t s
  | .fpGroupCheck t => Sys2Proof.Machine.execFpGroupCheck t s
  | .fieldLogicTest priv f => Sys2Proof.Machine.execFieldLogicTest priv f s
  | .fieldLinkTest priv f => Sys2Proof.Machine.execFieldLinkTest priv f s
  | .rateCalibration priv f => Sys2Proof.Machine.execRateCalibration priv f s
  | .sensorCheck priv f => Sys2Proof.Machine.execSensorCheck priv f s
  | .fldTestStop priv f => Sys2Proof.Machine.execFldTestStop priv f s
  | .fldTestComplete f fail outliers => Sys2Proof.Machine.execFldTestComplete f fail outliers s
  | .powerOn a b => Sys2Proof.Machine.execPowerOn a b s
  | .powerOnStageComplete failed => Sys2Proof.Machine.execPowerOnStageComplete failed s
  | .moduleReady => Sys2Proof.Machine.execModuleReady s
  | .moduleReset priv => Sys2Proof.Machine.execModuleReset priv s
  | .tileReset priv t => Sys2Proof.Machine.execTileReset priv t s
  | .eventAcknowledge ring => Sys2Proof.Machine.execEventAcknowledge ring s
  | .hostSessionOpen cert port => Sys2Proof.Machine.execHostSessionOpen cert port s
  | .ethernetLinkDown q => Sys2Proof.Machine.execEthernetLinkDown q s
  | .priorityFlowControlFrame q prio pause => Sys2Proof.Machine.execPriorityFlowControlFrame q prio pause s
  | .roceAcknowledge q tag nak => Sys2Proof.Machine.execRoceAcknowledge q tag nak s
  | .roceRetransmitTimeout q tag => Sys2Proof.Machine.execRoceRetransmitTimeout q tag s
  | .suspicionLapse phys => Sys2Proof.Machine.execSuspicionLapse phys s
  | .siteMemoryMarch n bad => Sys2Proof.Machine.execSiteMemoryMarch n bad s

end Sys2Proof.Machine
end

