-- ==== Sys2Proof/Machine/Idle.lean ====
section
/-!
DEFINITION. A pass of time: what the block does of its own accord while no command waits (log entry 5). Vector instructions
whose waits are met execute (R111), reads into landing slots complete and an export goes on by one entry (R310, R332), the Halo
ports send what waits (R385, R393), jobs to release are unloaded (R406), changes of owner that are due take place (R417), an unlock that waited takes effect (R434), a held epoch swap is finished (R229), a module reset goes on (R470), the hold-up after both feeds are
lost ends (R351), and Cirrus counts on (R374).
-/

namespace Sys2Proof.Machine

/-- The nanoseconds that Cirrus counts while the reference counts d, trimmed by CIR_TRIM in units of 0.01 ppm (R374). -/
def State.trimmed (s : State) (d : Nat) : Nat := ((d : Int) + (d : Int) * (BitVec.ofNat 16 (s.ez 0x3010).toNat).toInt / 100000000).toNat

/-- The time base advances by a time that nothing states, while it counts: it never goes back. -/
def State.idleTime (s : State) : State :=
  if s.counting then
    { s with now := BitVec.ofNat 64 (min (2 ^ 64 - 1) (s.now.toNat + s.trimmed (Config.elapsed s.free))), free := s.free + 1 }
  else s

/-- The job service keeps XMASK as flits of an old epoch leave, and finishes a swap that waits (R229, R360). -/
def State.idleRoutes (s : State) : State := if s.onFields.isEmpty then s else s.xmasks.heldSwap

/-- A fault of the silicon in a pass of time in which tiles run (R117, R142, R241, R437, R439; log entry 131): which tile it hits and what it is are free
values. It makes attempts of the next sampled vector instruction fail, flips a parity bit of an instruction's half or bytes of a scratchpad word, or spoils
flits of a site on an edge link. -/
def State.upset (s : State) : State :=
  if !(s.tiles.any fun t => runBit t.2) then s
  else
    let v (k : Nat) : Nat := (Config.freeValue (s.free + k)).toNat
    let t := v 0 % nTiles
    let x := s.tile t
    let s1 := { s with free := s.free + 4 }
    if (s.field (fieldOf t)).power ≠ 2 then s1
    else
      match v 1 % 8 with
      | 1 => s1.setTile t { x with laneBad := v 2 % 4 }
      | 2 => s1.setTile t { x with ipar := Map.set (fun _ => 0) x.ipar (v 2 % 8192) 1 }
      | 3 => s1.setTile t { x with par := Map.set (fun _ => 0) x.par (v 2 % 98304) (v 3 % 16) }
      | 4 =>
        let q := 1 + v 2 % 4
        if (edgeLink t q).isSome then
          s1.setTile t { x with rtr := { x.rtr with edgeBad := Map.set (fun _ => 0) x.rtr.edgeBad q (v 3 % 32) } } else s1
      | _ => s1

/-- The vector queue of a tile goes on. -/
def State.idleTile (s : State) (t : Nat) : State :=
  if (s.field (fieldOf t)).power = 2 && !(s.tile t).vq.isEmpty then s.onTile t goVq else s

/-- The update engine and the export of a site go on, and what waits to enter the wafer does (R215, R241). -/
def State.idleSite (s : State) (n : Nat) : State :=
  let s0 := ((s.site n).out.map (·.1)).foldl State.siteRefill s
  let s1 := s0.onSite n landSlots
  let x := s1.site n
  s1.setSite n (if x.exp.busy && decide (x.exp.next < bits (x.csrWord 0x664) 19 0) then exportEntry x else x)

/-- A port sends what waits, and has receive areas posted in Ethernet mode. -/
def State.idlePort (s : State) (q : Nat) : State :=
  let s1 := s.haloTick q
  if (s1.port q).ether && (s1.port q).state = 2 then s1.postArea q else s1

/-- What happens at a step with an empty queue. -/
def State.idle (s : State) : State :=
  let s1 := (s.tiles.map (·.1)).foldl State.idleTile s.idleTime.upset
  let s2 := (s.sites.map (·.1)).foldl State.idleSite s1
  let s3 := (s.ports.map (·.1)).foldl State.idlePort s2
  let s4 := (List.range nParts).foldl State.releaseNow s3
  ((s4.mod.cc.changes.foldl State.changeGo s4).idleRoutes).resetGo.unlockGo.holdUpOver

end Sys2Proof.Machine
end

