-- ==== Sys2Proof/WellFormed.lean ====
section
/-!
DEFINITION. Well-formed commands: each operand names a part that the module has (R11, R14, R15, R379, R402) or lies in the
range that the command's table gives it. The fields of a Greset instruction need no check: their widths are their types, and a
reserved encoding is a command that stops its tile (R146), not an ill-formed one.
-/

namespace Sys2Proof

/-- A tile id: 336 rows of 350 columns (R15). -/
def isTile (t : Nat) : Bool := decide (t < 117600)

/-- A field id: ten columns of seven rows. -/
def isField (f : Nat) : Bool := decide (f < 70)

/-- A site index. -/
def isSite (n : Nat) : Bool := decide (n < 48)

/-- A Halo port. -/
def isPort (q : Nat) : Bool := decide (q < 12)

/-- A partition (R402). -/
def isPart (p : Nat) : Bool := decide (p < 8)

/-- An owner field's value: a partition, or 0xF for none. -/
def isOwner (p : Nat) : Bool := isPart p || decide (p = 15)

/-- An SPDM connection: eight at once (R431). -/
def isConn (c : Nat) : Bool := decide (c < 8)

/-- A unit that CAPACITY_CHANGE moves (R417): a field, site, Stratus channel or port. -/
def isUnit (k : ResKind) (i : Nat) : Bool :=
  match k with
  | .field => isField i
  | .site => isSite i
  | .chan => decide (i < 24)
  | .port => isPort i

/-- Every operand of the command is in its range. -/
def Instr.wf (c : Instr) : Bool :=
  match c with
  | .submit _ _ => true
  | .loaded p => isPart p
  | .run _ _ => true
  | .halt _ => true
  | .abort _ => true
  | .taint _ _ => true
  | .exportMsg _ => true
  | .status _ => true
  | .release _ => true
  | .cap _ _ => true
  | .put _ _ _ => true
  | .invocationStart p => isPart p
  | .phaseSwap p => isPart p
  | .tileEndReport t => isTile t
  | .beqz t _ => isTile t
  | .bnez t _ => isTile t
  | .beq t _ => isTile t
  | .bne t _ => isTile t
  | .blt t _ => isTile t
  | .bge t _ => isTile t
  | .bltu t _ => isTile t
  | .bgeu t _ => isTile t
  | .jmp t _ => isTile t
  | .jal t _ => isTile t
  | .jr t _ => isTile t
  | .loop t _ => isTile t
  | .ctlEnd t _ => isTile t
  | .sysNop t _ => isTile t
  | .sysFence t _ => isTile t
  | .sysTime t _ => isTile t
  | .sysEvent t _ => isTile t
  | .eventPost t => isTile t
  | .eventResend t => isTile t
  | .add t _ => isTile t
  | .sub t _ => isTile t
  | .mul t _ => isTile t
  | .and t _ => isTile t
  | .or t _ => isTile t
  | .xor t _ => isTile t
  | .sll t _ => isTile t
  | .srl t _ => isTile t
  | .sra t _ => isTile t
  | .slt t _ => isTile t
  | .sltu t _ => isTile t
  | .min t _ => isTile t
  | .max t _ => isTile t
  | .minu t _ => isTile t
  | .maxu t _ => isTile t
  | .mov t _ => isTile t
  | .addi t _ => isTile t
  | .andi t _ => isTile t
  | .ori t _ => isTile t
  | .xori t _ => isTile t
  | .slli t _ => isTile t
  | .srli t _ => isTile t
  | .srai t _ => isTile t
  | .slti t _ => isTile t
  | .sltiu t _ => isTile t
  | .li t _ => isTile t
  | .liu t _ => isTile t
  | .lih t _ => isTile t
  | .ldw t _ => isTile t
  | .ldd t _ => isTile t
  | .stw t _ => isTile t
  | .std t _ => isTile t
  | .csrr t _ => isTile t
  | .movVs t _ => isTile t
  | .movSv t _ => isTile t
  | .movVv t _ => isTile t
  | .movPs t _ => isTile t
  | .movSp t _ => isTile t
  | .qWait t _ => isTile t
  | .qSpace t _ => isTile t
  | .qPop t _ => isTile t
  | .qPush t _ => isTile t
  | .rgSet t _ => isTile t
  | .rgGet t _ => isTile t
  | .spdClr t _ => isTile t
  | .vadd t _ => isTile t
  | .vsub t _ => isTile t
  | .vmul t _ => isTile t
  | .vfma t _ => isTile t
  | .vmin t _ => isTile t
  | .vmax t _ => isTile t
  | .vabs t _ => isTile t
  | .vneg t _ => isTile t
  | .vdiv t _ => isTile t
  | .vsqrt t _ => isTile t
  | .vrcp t _ => isTile t
  | .vrsqrt t _ => isTile t
  | .vexp2 t _ => isTile t
  | .vlog2 t _ => isTile t
  | .vexp t _ => isTile t
  | .vlog t _ => isTile t
  | .vtanh t _ => isTile t
  | .vsigm t _ => isTile t
  | .verf t _ => isTile t
  | .viadd t _ => isTile t
  | .visub t _ => isTile t
  | .vimul t _ => isTile t
  | .vand t _ => isTile t
  | .vor t _ => isTile t
  | .vxor t _ => isTile t
  | .vsll t _ => isTile t
  | .vsrl t _ => isTile t
  | .vsra t _ => isTile t
  | .vimin t _ => isTile t
  | .vimax t _ => isTile t
  | .vcmpEq t _ => isTile t
  | .vcmpNe t _ => isTile t
  | .vcmpLt t _ => isTile t
  | .vcmpLe t _ => isTile t
  | .vcmpGt t _ => isTile t
  | .vcmpGe t _ => isTile t
  | .vicmpEq t _ => isTile t
  | .vicmpNe t _ => isTile t
  | .vicmpLt t _ => isTile t
  | .vicmpLe t _ => isTile t
  | .vicmpGt t _ => isTile t
  | .vicmpGe t _ => isTile t
  | .pand t _ => isTile t
  | .por t _ => isTile t
  | .pxor t _ => isTile t
  | .pnot t _ => isTile t
  | .ppop t _ => isTile t
  | .vcvt t _ => isTile t
  | .vcvtN2 t _ => isTile t
  | .sumNf t _ => isTile t
  | .sumAmax t _ => isTile t
  | .sumAdd t _ => isTile t
  | .sumArgmax t _ => isTile t
  | .vld t _ => isTile t
  | .vst t _ => isTile t
  | .vstCvt t _ => isTile t
  | .vstMx t _ => isTile t
  | .vqPop t _ => isTile t
  | .vqPush t _ => isTile t
  | .sharedPortAccess t bank _ want => isTile t && decide (bank < 32) && want.all fun q => decide (2 ≤ q) && decide (q ≤ 7)
  | .opeMulClr t _ => isTile t
  | .opeMulCont t _ => isTile t
  | .opeDrn t _ => isTile t
  | .opeCube t _ => isTile t
  | .opeFeedBeat t => isTile t
  | .opeSetReady t k => isTile t && decide (k < 2)
  | .opeDrainStart t k => isTile t && decide (k < 2)
  | .opeCheck t k _ => isTile t && decide (k < 2)
  | .tileSrStepWrite _ t _ => isTile t
  | .tileRgWrite _ t off _ => isTile t && decide (0x100 ≤ off) && decide (off < 0x240) && decide (off % 4 = 0)
  | .hzdCtlWrite _ t _ => isTile t
  | .registerWrite _ _ _ _ => true
  | .netPull t _ => isTile t
  | .netPush t _ => isTile t
  | .netSend t _ => isTile t
  | .atomAdd t _ => isTile t
  | .atomMin t _ => isTile t
  | .atomMax t _ => isTile t
  | .atomSwap t _ => isTile t
  | .atomCas t _ => isTile t
  | .netUnitIssue t tid => isTile t && decide (tid < 16)
  | .flitInject t => isTile t
  | .flitHop t port _ => isTile t && decide (port < 5)
  | .combinedReturnCopy t => isTile t
  | .rdataArrive t => isTile t
  | .unitAckArrive t => isTile t
  | .netTransferComplete t tid => isTile t && decide (tid < 16)
  | .sendFlitArrive t => isTile t
  | .tileWindowRead _ _ _ => true
  | .tileWindowWrite _ _ _ _ => true
  | .routeEntryWrite _ f bank d _ => isField f && decide (bank < 2) && decide (d < 256)
  | .epochSwap _ f _ => isField f
  | .routeRecompute => true
  | .rdescWrite _ t d _ => isTile t && decide (d < 256)
  | .redFlitSend t d => isTile t && decide (d < 256)
  | .redCombine t d => isTile t && decide (d < 256)
  | .redRootFlit n d => isSite n && decide (d < 256)
  | .bucketCommit n => isSite n
  | .bucketAckReceive t => isTile t
  | .retryDecision n => isSite n
  | .siteRedStepWrite _ n _ => isSite n
  | .siteRequestArrive t => isTile t
  | .siteRequestServe n _ => isSite n
  | .pwinRead n _ => isSite n
  | .pwinFill n => isSite n.site
  | .armFilled _ n w => isSite n && decide (w < 8)
  | .armEmpty _ n w => isSite n && decide (w < 8)
  | .disarm _ n w => isSite n && decide (w < 8)
  | .siteScAllocWrite _ n _ => isSite n
  | .siteOwnWrite _ n _ => isSite n
  | .patrolRead n _ _ => isSite n
  | .selfRefreshEntry n _ => isSite n
  | .refresh n => isSite n
  | .stackThermalReading n temp => isSite n && decide (temp < 256)
  | .siteDisable _ n => isSite n
  | .keySlotLoad n p => isSite n && isPart p
  | .bindRecord n => isSite n
  | .blockUpdate n => isSite n
  | .updateWriteComplete n => isSite n
  | .taintPropagate n => isSite n
  | .siteFinished n => isSite n
  | .pavaneDecide p => isPart p
  | .fold n => isSite n
  | .foldComplete p => isPart p
  | .flipComplete p => isPart p
  | .arm _ n => isSite n
  | .taintHalve _ n => isSite n
  | .taintNoHalve _ n => isSite n
  | .clear _ n => isSite n
  | .exportStart _ n => isSite n
  | .exportCancel _ n => isSite n
  | .exportComplete n => isSite n
  | .dsiteReassign p => isPart p
  | .fieldRelocate p f => isPart p && isField f
  | .feedVoltageSample feed _ => decide (feed < 2)
  | .fieldSensorReading f temps => isField f && decide (temps.length = 16)
  | .throttleEscalate f => isField f
  | .throttleRelease f => isField f
  | .squallDrainComplete f => isField f
  | .fuseOpen f => isField f
  | .fieldPowerUp _ f => isField f
  | .fieldReady f _ _ => isField f
  | .fieldPowerDown _ f => isField f
  | .fieldDrainComplete f => isField f
  | .fuseRetest _ f => isField f
  | .fuseRetestComplete f _ => isField f
  | .coolantSample _ _ _ => true
  | .energyWindowEnd _ _ _ parts fields => decide (parts.length = 8) && decide (fields.length = 70)
  | .pacingTick => true
  | .cirSet _ _ => true
  | .cirrusPhaseLoss f _ => isField f
  | .cirrusNodeStop f => isField f
  | .haloEnable _ q => isPort q
  | .haloDisable _ q => isPort q
  | .haloRetrain _ q => isPort q
  | .haloTrainingComplete q _ _ => isPort q
  | .idle q _ => isPort q
  | .wreq q _ => isPort q
  | .wdata q _ => isPort q
  | .rreq q _ => isPort q
  | .rdata q _ => isPort q
  | .cmpl q _ => isPort q
  | .ctrl q _ => isPort q
  | .haloWriteComplete q _ => isPort q
  | .haloLaneBad q lane => isPort q && decide (lane < 9)
  | .ringBreak link => decide (link < 48)
  | .haloWinWrite _ q off _ => isPort q && decide (0x1000 ≤ off) && decide (off < 0x1400) && decide (off % 4 = 0)
  | .haloModuleTransfer q _ _ _ _ => isPort q
  | .roceWrite q _ _ _ _ => isPort q
  | .roceWriteImm q _ _ _ _ _ => isPort q
  | .roceRead q _ _ _ _ => isPort q
  | .roceSend q _ _ => isPort q
  | .cnpReceived q _ => isPort q
  | .ecnMarkedPacket q _ => isPort q
  | .arpRequest q _ => isPort q
  | .neighbourDiscovery q _ => isPort q
  | .icmpEcho q _ _ _ => isPort q
  | .nonRoceFrame q => isPort q
  | .partAbort _ p => isPart p
  | .partReset _ p => isPart p
  | .partDisable _ p => isPart p
  | .partEnable _ p => isPart p
  | .abortComplete p => isPart p
  | .modAbort _ => true
  | .watchdogExpiry p => isPart p
  | .stallAdvisory p held => isPart p && held.all fun t => isTile t
  | .ccRestart => true
  | .ccRestartComplete => true
  | .capacityChange kind u owner => isUnit kind u && isOwner owner
  | .partitionDefine p _ limit => isPart p && decide (limit < 65536)
  | .partitionFree p => isPart p
  | .siteWipe n p _ => isSite n && isPart p
  | .wipeComplete n => isSite n
  | .reserveSet count named => decide (count ≤ 2) && named.all fun f => isField f
  | .debugPolicySet p _ => isPart p
  | .quietWindowSet p _ => isPart p
  | .hostKeyRegister p slot _ _ => isPart p && decide (slot < 4)
  | .firmwareUpdate img => decide (img.cls < 7)
  | .commitSecurityVersion cls => decide (cls < 6)
  | .getVersion c => isConn c
  | .getCapabilities c => isConn c
  | .negotiateAlgorithms c _ _ => isConn c
  | .getDigests c => isConn c
  | .getCertificate c _ => isConn c
  | .challenge c _ _ => isConn c
  | .getMeasurements c _ _ => isConn c
  | .debugUnlock _ _ _ => true
  | .entropyHealthFail => true
  | .errorRecordJudge _ => true
  | .fieldRespare f => isField f
  | .tmapChange f words _ _ => isField f && words.all fun w => decide (w.idx < 1728)
  | .pregWrite _ addr _ _ => decide (0x7801000000 ≤ addr) && decide (addr < 0x7802000000)
  | .stepRetry p => isPart p
  | .tileInjParity _ t _ _ => isTile t
  | .tileInjAccumulator _ t _ _ => isTile t
  | .tileInjLane _ t _ => isTile t
  | .tileInjInstrParity _ t _ => isTile t
  | .tileInjFlit _ t _ _ _ => isTile t
  | .tileInjAdder _ t _ _ => isTile t
  | .tileInjStoredBits _ t _ _ => isTile t
  | .tileInjHazard _ t _ => isTile t
  | .siteInjHbm _ n _ _ => isSite n
  | .siteInjStratus _ n _ _ => isSite n
  | .siteInjCache _ n _ _ => isSite n
  | .siteInjTemp _ n _ => isSite n
  | .siteInjTempExpiry n => isSite n
  | .haloInjCrc _ q => isPort q
  | .haloInjCodewords _ q _ _ => isPort q
  | .haloInjLock _ q _ => isPort q
  | .ezInjFeedVoltage _ feed _ _ => decide (feed < 2)
  | .ezInjSensorReading _ f sensor _ _ => isField f && decide (sensor < 16)
  | .ezInjSensorInvalid _ f sensor _ => isField f && decide (sensor < 16)
  | .ezInjStageFault _ f => isField f
  | .ezInjPhaseError _ f _ _ => isField f
  | .ezInjCoolant _ target _ _ => decide (target < 3)
  | .ezInjExpiry => true
  | .fpSweepStart _ t => isTile t
  | .fpSweepStop _ t => isTile t
  | .fpGroupCheck t => isTile t
  | .fieldLogicTest _ f => isField f
  | .fieldLinkTest _ f => isField f
  | .rateCalibration _ f => isField f
  | .sensorCheck _ f => isField f
  | .fldTestStop _ f => isField f
  | .fldTestComplete f fail outliers =>
    isField f && outliers.all (fun i => decide (i < 16)) && (match fail with | some (u, c, r) => decide (1 ≤ u) && decide (u ≤ 6) && decide (c < 36) && decide (r < 48) | none => true)
  | .powerOn _ _ => true
  | .powerOnStageComplete _ => true
  | .moduleReady => true
  | .moduleReset _ => true
  | .tileReset _ t => isTile t
  | .eventAcknowledge ring => decide (ring ≤ 8)
  | .hostSessionOpen _ _ => true
  | .ethernetLinkDown q => isPort q
  | .priorityFlowControlFrame q prio _ => isPort q && decide (prio < 8)
  | .roceAcknowledge q _ _ => isPort q
  | .roceRetransmitTimeout q _ => isPort q
  | .suspicionLapse _ => true
  | .siteMemoryMarch n _ => isSite n

end Sys2Proof
end

