-- ==== Sys2Proof/Safety.lean ====
section
/-!
DEFINITION. The terms that statements use: the canonical form of a state, a tile whose next instruction issues, and the states that
an instruction leaves.
-/

namespace Sys2Proof.Machine

/-- The registers and memories of a tile are in their canonical form. -/
def Tile.canonical (x : Tile) : Bool :=
  Map.wf (regReset tileRegs) x.csr && Map.wf (fun _ => 0#32) x.spd && Map.wf (fun _ => 0) x.par && Map.wf (fun _ => 0#32) x.istore &&
    Map.wf (fun _ => 0) x.ipar && Map.wf (fun _ => 0#64) x.sregs && Map.wf (fun _ => 0#32) x.vregs && Map.wf (fun _ => 0#64) x.pregs &&
    Map.wf (fun _ => ({} : Region)) x.regions

/-- The registers and the map words of a field are in their canonical form. -/
def Field.canonical (x : Field) : Bool :=
  Map.wf (regReset fieldRegs) x.csr && Map.wf factoryWord x.accepted && Map.wf factoryWord x.applied

/-- The registers, the keys and the memory of a site are in their canonical form. -/
def Site.canonical (x : Site) : Bool :=
  Map.wf (regReset siteRegs) x.csr && Map.wf (fun _ => 0) x.keys && Map.wf (fun _ => 0#8) x.m.mem && Map.wf (fun _ => 0) x.m.sealed

/-- The registers, the persistent words, the configuration and the DRAM of the module are in their canonical form. -/
def Module.canonical (m : Module) : Bool :=
  Map.wf (regReset modRegs) m.csr && Map.wf factoryWord m.preg && Map.wf (fun _ => 0) m.wear && Map.wf (fun _ => 0) m.sec.active &&
    Map.wf (fun _ => 0) m.sec.boot && Map.wf (fun _ => ({} : PartConf)) m.cc.conf && Map.wf (Config.dramFill m.dramGen) m.dram

/-- Every part of the module is in its canonical form: the keys of its maps rise strictly, and nothing is listed that is in its reset state. -/
def State.canonical (s : State) : Bool :=
  Map.wf (fun _ => ({} : Tile)) s.tiles && Map.wf (fun _ => ({} : Field)) s.fields && Map.wf blankSite s.sites &&
    Map.wf (fun _ => ({} : Port)) s.ports && Map.wf (fun _ => ({} : Part)) s.parts && s.tiles.all (fun e => e.2.canonical) &&
    s.fields.all (fun e => e.2.canonical) && s.sites.all (fun e => e.2.canonical) &&
    s.ports.all (fun e => Map.wf (regReset portRegs) e.2.csr) && s.mod.canonical

/-- The instruction at the PC of a tile issues (R148, R149, R358, R413, R439): its field is on, its partition is not aborting, its
sequencer runs inside its program, and the parity of both halves of the instruction is good. -/
def State.canIssue (s : State) (t : Nat) : Bool :=
  let x := s.tile t
  isTile t && decide ((s.field (fieldOf t)).power = 2) && decide ((s.part (s.tilePart t)).state ≠ 4) && decide (x.seq = .running) &&
    decide (x.pc < progLen x) && !badInstr x x.pc

/-- The tile is in a field that is on. -/
def State.tileOn (s : State) (t : Nat) : Bool := isTile t && decide ((s.field (fieldOf t)).power = 2)

/-- The state that an instruction of a tile leaves: the tile as its effect made it, issued now, at index `pc`, not waiting. -/
def State.goTo (s : State) (t : Nat) (x : Tile) (pc : Nat) : State := s.setTile t (x.issued s.now pc)

/-- The state that a completed instruction without a transfer of control leaves. -/
def State.retire (s : State) (t : Nat) (x : Tile) : State := s.goTo t x ((s.tile t).pc + 1)

/-- The state that a held instruction leaves: WAITING is set (R149). -/
def State.heldAt (s : State) (t : Nat) (x : Tile) : State := s.setTile t { x with waiting := true }

/-- The state that a sequencer stop leaves (R155): FAULT and FCAUSE are set, the PC stays, and the hard-fault record of the stop is
raised, which asks for the abort. -/
def State.stopped (s : State) (t cause source code : Nat) (x : Tile) (regs : List Nat) (addr : Nat := 0) : State :=
  let y := { x with seq := .stopped, fault := true, fcause := cause, waiting := false }
  (s.setTile t y).raise { source := source, cls := 1, loc := t, offset := (s.tile t).pc, code := code, addr := addr,
                          detail := csrWords (s.tileEnv t) y regs }

/-- SPD_STATUS of a tile whose access fails (R137, R438): FAULT, FCAUSE and FREG. -/
def spdFault (x : Tile) (cause g : Nat) : Tile := csrField (csrField (csrField x 0x300 19 16 cause) 0x300 15 12 g) 0x300 1 1 1

/-- The state that a region fault leaves (R137): the tile stops with FCAUSE 0x5 and the fault's own cause in SPD_STATUS. -/
def State.regionStop (s : State) (t cause g : Nat) : State := s.stopped t 5 0x20 cause (spdFault (s.tile t) cause g) [0x0, 0x300, 0x304]

/-- The tile after the compare of a checked vector instruction that comes out equal, before its result is written (R116, R117): its
ordinal advances, and a sampled instruction is counted, 65,536 of them to one count of VEC_LPC. -/
def countedTile (x : Tile) : Tile :=
  let y := { x with lpcOrd := x.lpcOrd + 1 }
  if x.lpcOrd % 2 ^ x.rate = 0 then
    (if x.lpcFrac + 1 = 65536 then csrCount { y with lpcFrac := 0 } 0x608 15 0 1 else { y with lpcFrac := x.lpcFrac + 1 })
  else y

/-- A vector instruction issues and executes at once on what its registers hold (R111, R146, R150): its encoding is not reserved,
the vector queue is empty, the scalar it reads is not pending, and no lane failure lies ahead (R117, R447). -/
def State.vecReady (s : State) (t : Nat) (op : VOp) : Bool :=
  let x := s.tile t
  s.canIssue t && vopLegal op && x.vq.isEmpty && decide (injKind x ≠ 3) && decide (x.laneBad = 0) &&
    !scalarBusy x (match vopScalar op with | some n => [n] | none => [])

/-- The vector arithmetic of Table 6.5 as commands. -/
def arithCmd : VFn → Nat → LVA → Instr
  | .fadd => .vadd | .fsub => .vsub | .fmul => .vmul | .ffma => .vfma | .fmin => .vmin | .fmax => .vmax | .fabs => .vabs
  | .fneg => .vneg | .div => .vdiv | .sqrt => .vsqrt | .rcp => .vrcp | .rsqrt => .vrsqrt | .exp2 => .vexp2 | .log2 => .vlog2
  | .exp => .vexp | .log => .vlog | .tanh => .vtanh | .sigm => .vsigm | .erf => .verf | .iadd => .viadd | .isub => .visub
  | .imul => .vimul | .and => .vand | .or => .vor | .xor => .vxor | .sll => .vsll | .srl => .vsrl | .sra => .vsra
  | .imin => .vimin | .imax => .vimax

/-- The floating and the integer compares of Table 6.5 as commands. -/
def fcmpCmd : VRel → Nat → LVA → Instr
  | .eq => .vcmpEq | .ne => .vcmpNe | .lt => .vcmpLt | .le => .vcmpLe | .gt => .vcmpGt | .ge => .vcmpGe
@[inherit_doc fcmpCmd] def icmpCmd : VRel → Nat → LVA → Instr
  | .eq => .vicmpEq | .ne => .vicmpNe | .lt => .vicmpLt | .le => .vicmpLe | .gt => .vicmpGt | .ge => .vicmpGe

/-- A physical word that a port may read, through region `via` or by its address (R54, R127, R142, R152): its parity is good, no
unreleased drain is to write it, and every write of it is ordered before the read. -/
def goodWord (x : Tile) (port : Nat) (via : Option Nat) (i : Nat) : Bool :=
  decide (Map.get (fun _ => 0) x.par i = 0) && !(drainTargets x).contains i && x.loose.all fun l => l.idx ≠ i || !l.openTo port via

/-- A region that a unit may use as consumer, or (`out`) as producer (R131, R134). -/
def usable (x : Tile) (g u : Nat) (out : Bool) : Bool :=
  (region x g).valid && decide ((if out then (region x g).prod else (region x g).cons) = u)

/-- The words that region offsets hold. -/
def regionWords (x : Tile) (r : Region) (o n : Nat) : List Word := (rgSpan r o n).map fun i => Map.get (fun _ => 0#32) x.spd i

/-- Set k after a comparison that passed, before its release (R63, R65): the skipped lines and the comparison are counted, 65,536 to
a count of OPE_CKCNT, and the set has passed its check. -/
def passedSet (x : Tile) (k skips : Nat) : Tile :=
  let y := csrCount x 0x408 31 0 skips
  let z := if x.ope.ckFrac + 1 = 65536 then csrCount { y with ope := { y.ope with ckFrac := 0 } } 0x404 15 0 1
    else { y with ope := { y.ope with ckFrac := x.ope.ckFrac + 1 } }
  { z with ope := setAcc z.ope k { accSet z.ope k with phase := .held } }

end Sys2Proof.Machine
end

