-- ==== Sys2Proof/Certificates/Slice0/Obligations.lean ====
section
/-!
DEFINITION. The statements about the model, for the provers.
-/

open Sys2Proof Sys2Proof.Machine

/-- For every command c, queue l and state s, a step of s with c at the front of its queue is exec of c on s with the rest of the
queue. (95_what_each_step_holds.md) -/
def Obligations.StepRunsFront : Prop :=
  ∀ (c : Instr) (l : List Instr) (s : State), step { s with pending := c :: l } = exec c { s with pending := l }

/-- The spec has no command for time, so that the model lets it pass in a step on an empty queue (log entry 5, a choice of the model).
From every state with an empty queue such a step answers a next state whose queue is empty; while the common bus holds, Cirrus
never goes back, and stands where it does not count. In it the queue of each tile that is on and has vector instructions waiting
goes on (R111), each site lets reads that wait land and a running export goes on by one entry (R310, R332), each port in Ethernet
mode that is up posts receive areas, a job to release is unloaded once nothing holds it (R406), a change of owner that is due
takes place (R417), and a held epoch swap is looked at again (R229); a part with nothing due stays as it is. From reset, where
nothing runs, the step changes nothing. (R111, R310, R332, R374, R406, R417, R229, R351) -/
def Obligations.IdleKeepsRunning : Prop :=
  (∀ s : State, s.pending = [] → ∃ u, step s = .next u ∧ u.pending = [] ∧
      (s.mod.holdUp = none → u.counting = s.counting ∧ (s.counting = false → u.now = s.now) ∧ s.now.toNat ≤ u.now.toNat) ∧
      (∀ k, s.mod.holdUp = some k → s.counting = false → u.now = 0 ∧ u.tiles = [])) ∧
    (∀ s : State, s.pending = [] → step s = .next
      (let a := (s.tiles.map (·.1)).foldl State.idleTile s.idleTime.upset
      let b := (s.sites.map (·.1)).foldl State.idleSite a
      let c := (List.range nParts).foldl State.releaseNow ((s.ports.map (·.1)).foldl State.idlePort b)
      (c.mod.cc.changes.foldl State.changeGo c).idleRoutes.resetGo.unlockGo.holdUpOver)) ∧
    (∀ (s : State) (t : Nat), s.idleTile t = if (s.field (fieldOf t)).power = 2 ∧ (s.tile t).vq ≠ [] then s.onTile t goVq else s) ∧
    (∀ (s : State) (p : Nat), (s.part p).release = false ∨ s.quiescent p = false → s.releaseNow p = s) ∧
    (∀ (s : State) (p : Nat), (s.part p).release = true → (s.part p).state ∉ [3, 4, 5] → s.quiescent p = true → s.releaseNow p = s.unload p) ∧
    (∀ (s : State) (n : Nat), (s.site n).out = [] → s.idleSite n =
      (let a := s.onSite n landSlots
      let x := a.site n
      a.setSite n (if x.exp.busy = true ∧ x.exp.next < bits (x.csrWord 0x664) 19 0 then exportEntry x else x))) ∧
    (∀ (s : State) (q : Nat), s.idlePort q =
      (let a := s.haloTick q
      if (a.port q).ether = true ∧ (a.port q).state = 2 then a.postArea q else a)) ∧
    (∀ s : State, s.idleRoutes = if s.onFields = [] then s else s.xmasks.heldSwap) ∧
    (∀ (s : State) (k : ResKind) (i p : Nat), s.mod.cc.up = true → s.changeReady k i (s.ownerOf k i) p = true →
      s.changeGo (k, i, p) = (s.updMod fun m => { m with cc := { m.cc with changes := dropChange k i m.cc.changes } }).capacity k i p) ∧
    (∀ (s : State) (k : ResKind) (i p : Nat), s.changeReady k i (s.ownerOf k i) p = false → s.changeGo (k, i, p) = s) ∧
    step State.reset = .next State.reset

/-- A scalar register instruction (ADD, SUB, MUL, AND, OR, XOR, SLL, SRL, SRA, SLT, SLTU, MIN, MAX, MINU, MAXU, MOV) that issues with
its scalars free answers a next state in which scalar SD holds the 64-bit result of Table 6.3, the PC is one higher, WAITING is 0,
and every other part of the state is as before. (R160) -/
def Obligations.ScalarRegisterResults : Prop :=
  ∀ (t : Nat) (f : LSR) (s : State), s.canIssue t = true → f.rsv = 0 → scalarBusy (s.tile t) [f.sd.toNat, f.sa.toNat, f.sb.toNat] = false →
    let x := s.tile t
    let a := sreg x f.sa.toNat
    let b := sreg x f.sb.toNat
    let gives (v : DWord) : Host.Outcome State Fault Refusal := .next (s.retire t (setSreg x f.sd.toNat v))
    exec (.add t f) s = gives (a + b) ∧ exec (.sub t f) s = gives (a - b) ∧ exec (.mul t f) s = gives (a * b) ∧
    exec (.and t f) s = gives (a &&& b) ∧ exec (.or t f) s = gives (a ||| b) ∧ exec (.xor t f) s = gives (a ^^^ b) ∧
    exec (.sll t f) s = gives (a <<< (b.toNat % 64)) ∧ exec (.srl t f) s = gives (a >>> (b.toNat % 64)) ∧
    exec (.sra t f) s = gives (a.sshiftRight (b.toNat % 64)) ∧
    exec (.slt t f) s = gives (if a.toInt < b.toInt then 1 else 0) ∧ exec (.sltu t f) s = gives (if a.toNat < b.toNat then 1 else 0) ∧
    exec (.min t f) s = gives (if a.toInt < b.toInt then a else b) ∧ exec (.max t f) s = gives (if a.toInt < b.toInt then b else a) ∧
    exec (.minu t f) s = gives (if a.toNat < b.toNat then a else b) ∧ exec (.maxu t f) s = gives (if a.toNat < b.toNat then b else a) ∧
    (f.sb = 0 → exec (.mov t f) s = gives a)

/-- A scalar immediate instruction (ADDI, ANDI, ORI, XORI, SLLI, SRLI, SRAI, SLTI, SLTIU) works on s[sa] and the sign-extended IMM;
LI, LIU and LIH write the sign-extended IMM, the zero-extended IMM and the high half. Nothing else changes but the PC and WAITING.
(06_greset_isa.md, R160) -/
def Obligations.ScalarImmediateResults : Prop :=
  ∀ (t : Nat) (f : LSI) (s : State), s.canIssue t = true → f.rsv = 0 → scalarBusy (s.tile t) [f.sd.toNat, f.sa.toNat] = false →
    let x := s.tile t
    let a := sreg x f.sa.toNat
    let i : DWord := f.imm.signExtend 64
    let gives (v : DWord) : Host.Outcome State Fault Refusal := .next (s.retire t (setSreg x f.sd.toNat v))
    exec (.addi t f) s = gives (a + i) ∧ exec (.andi t f) s = gives (a &&& i) ∧ exec (.ori t f) s = gives (a ||| i) ∧
    exec (.xori t f) s = gives (a ^^^ i) ∧ exec (.slli t f) s = gives (a <<< (i.toNat % 64)) ∧
    exec (.srli t f) s = gives (a >>> (i.toNat % 64)) ∧ exec (.srai t f) s = gives (a.sshiftRight (i.toNat % 64)) ∧
    exec (.slti t f) s = gives (if a.toInt < i.toInt then 1 else 0) ∧ exec (.sltiu t f) s = gives (if a.toNat < i.toNat then 1 else 0) ∧
    (f.sa = 0 → exec (.li t f) s = gives i ∧ exec (.liu t f) s = gives (f.imm.setWidth 64) ∧
      exec (.lih t f) s = gives (f.imm ++ (sreg x f.sd.toNat).setWidth 32))

/-- STW and STD with an address inside the scratchpad (an even one for STD) store the low word, or both words, of s[sd] at s[sa] +
OFF, and the model notes the words written as not yet ordered before reads of the tile's other units (log entry 69); CSRR writes
the register at OFF. Nothing else changes but the PC and WAITING. (R161, 06_greset_isa.md) -/
def Obligations.ScalarStores : Prop :=
  ∀ (t : Nat) (f : LSM) (s : State), s.canIssue t = true → f.rsv = 0 → scalarBusy (s.tile t) [f.sd.toNat, f.sa.toNat] = false →
    let x := s.tile t
    let a := (sreg x f.sa.toNat).toNat + f.off.toNat
    let v := sreg x f.sd.toNat
    let i := physIdx false a
    let j := physIdx false (a + 1)
    (f.off.toNat < 2 ^ 17 → a < 98304 → exec (.stw t f) s = .next (s.retire t (loosen false none x (writePhys x i (v.setWidth 32)) [i]))) ∧
    (f.off.toNat < 2 ^ 17 → a % 2 = 0 → a + 2 ≤ 98304 →
      exec (.std t f) s = .next (s.retire t
        (loosen false none x (writePhys (writePhys x i (v.setWidth 32)) j ((v >>> 32).setWidth 32)) [i, j]))) ∧
    (f.off.toNat < 2 ^ 16 → f.off.toNat % 4 = 0 →
      exec (.csrr t f) s = .next (s.retire t (setSreg x f.sd.toNat ((csrRead (s.tileEnv t) x f.off.toNat).setWidth 64))))

/-- LDW and LDD at an address inside the scratchpad (an even one for LDD), whose words have good parity, are no target of an
unreleased drain, stand after every vector store (R152) and carry no injection, write the word, or the pair of words low word
first, to s[sd]. Nothing else changes but the PC and WAITING. LDW of a word whose parity fails records and counts the failure, and
stops the tile with FAULT and FCAUSE 0x5 in SEQ_STATUS and FAULT, PARERR and FCAUSE 0x5 in SPD_STATUS, raising the record of
SOURCE 0x01 with the port and the bytes in CODE; that FREG reads 0 for an absolute load is the model's choice (log entry 65).
(R161, R142, R438) -/
def Obligations.ScalarLoads : Prop :=
  ∀ (t : Nat) (f : LSM) (s : State), s.canIssue t = true → f.rsv = 0 → f.off.toNat < 2 ^ 17 →
    scalarBusy (s.tile t) [f.sd.toNat, f.sa.toNat] = false → injKind (s.tile t) ≠ 1 →
    let x := s.tile t
    let a := (sreg x f.sa.toNat).toNat + f.off.toNat
    let w (i : Nat) : Word := Map.get (fun _ => 0#32) x.spd i
    (a < 98304 → goodWord x 7 none a = true → exec (.ldw t f) s = .next (s.retire t (setSreg x f.sd.toNat ((w a).setWidth 64)))) ∧
    (a % 2 = 0 → a + 2 ≤ 98304 → goodWord x 7 none a = true → goodWord x 7 none (a + 1) = true →
      exec (.ldd t f) s = .next (s.retire t (setSreg x f.sd.toNat (w (a + 1) ++ w a)))) ∧
    (∀ bad, a < 98304 → Map.get (fun _ => 0) x.par a = bad → bad ≠ 0 → goodWord { x with par := [] } 7 none a = true →
      exec (.ldw t f) s = .next
        (s.stopped t 5 0x01 (7 * 16 + bad) (csrField (spdFault (parityRecord x 7 bad a) 5 0) 0x300 2 2 1) [0x0, 0x300, 0x304] a))

/-- BEQZ, BNEZ, BEQ, BNE, BLT, BGE, BLTU, BGEU go to TGT when their condition holds, else to the next index; JMP goes to TGT, JAL also
writes the next index to s[sa], JR goes to s[sa], LOOP writes s[sa] - 1 and goes to TGT while that is not 0. Nothing else changes
but WAITING and the time of issue. A taken transfer to an index at or beyond LEN stops the tile with FCAUSE 0x2 at the
transferring instruction, which takes no effect, and raises the record of SOURCE 0x21. (06_greset_isa.md, R148, R157) -/
def Obligations.BranchTargets : Prop :=
  ∀ (t : Nat) (f : LB) (s : State), s.canIssue t = true → f.rsv = 0 → f.tgt.toNat < 4096 →
    scalarBusy (s.tile t) [f.sa.toNat, f.sb.toNat] = false →
    let x := s.tile t
    let a := sreg x f.sa.toNat
    let b := sreg x f.sb.toNat
    let past : Bool := progLen x ≤ f.tgt.toNat
    let stop : State := s.stopped t 2 0x21 2 x [0x0, 0x4, 0x8, 0xC]
    let goes (taken : Bool) : Host.Outcome State Fault Refusal :=
      .next (if taken && past then stop else s.goTo t x (if taken then f.tgt.toNat else x.pc + 1))
    exec (.beq t f) s = goes (a = b) ∧ exec (.bne t f) s = goes (a ≠ b) ∧ exec (.blt t f) s = goes (a.toInt < b.toInt) ∧
    exec (.bge t f) s = goes (b.toInt ≤ a.toInt) ∧ exec (.bltu t f) s = goes (a.toNat < b.toNat) ∧
    exec (.bgeu t f) s = goes (b.toNat ≤ a.toNat) ∧
    (f.sb = 0 → exec (.beqz t f) s = goes (a = 0) ∧ exec (.bnez t f) s = goes (a ≠ 0)) ∧
    (f.sa = 0 → f.sb = 0 → exec (.jmp t f) s = goes true) ∧
    exec (.jal t f) s = .next (if past then stop else s.goTo t (setSreg x f.sa.toNat (BitVec.ofNat 64 (x.pc + 1))) f.tgt.toNat) ∧
    exec (.jr t f) s = .next (if a.toNat < 4096 ∧ a.toNat < progLen x then s.goTo t x a.toNat else stop) ∧
    exec (.loop t f) s = .next (if a - 1 ≠ 0 ∧ past then stop
      else s.goTo t (setSreg x f.sa.toNat (a - 1)) (if a - 1 = 0 then x.pc + 1 else f.tgt.toNat))

/-- CTL.END leaves the tile ending, SYS.NOP only advances the PC, SYS.TIME writes the Cirrus count to s[sd], and SYS.FENCE completes
when every unit that IMM[2:0] names (the OPE, the vector engine, the router) has finished (the stores of a vector engine that it
names are then ordered before what follows), and is held with WAITING set otherwise. (R153, R154, R157) -/
def Obligations.SystemInstructions : Prop :=
  ∀ (t : Nat) (s : State), s.canIssue t = true →
    let x := s.tile t
    exec (.ctlEnd t { sa := 0, sb := 0, tgt := 0 }) s = .next (s.retire t { x with seq := .ending }) ∧
    (∀ f : LSI, f.rsv = 0 → exec (.sysNop t f) s = .next (s.retire t x)) ∧
    (∀ f : LSI, f.rsv = 0 → scalarBusy x [f.sd.toNat] = false → exec (.sysTime t f) s = .next (s.retire t (setSreg x f.sd.toNat s.now))) ∧
    (∀ f : LSI, f.rsv = 0 → f.imm.toNat < 8 →
      exec (.sysFence t f) s = .next
        (if (bit f.imm 0 → opeIdle x.ope) ∧ (bit f.imm 1 → x.vq = []) ∧ (bit f.imm 2 → x.net = []) then
          s.retire t (if bit f.imm 1 then orderAll true x else x)
          else s.heldAt t x))

/-- SYS.EVENT of a host code puts the event out once and holds the tile; it completes when the job service has accepted the event.
EVENT_POST takes the event's flit from the edge tile into the mailbox ring of the partition (the module ring for a tile of none)
while there is room; EVENT_RESEND sends a refused one again; EVENT_ACKNOWLEDGE takes the oldest event of a ring, passes a host
code on and lets the tile go on where the answer reaches it. That the event posts once and is sent again by EVENT_RESEND alone is
log entry 22, that its answer is taken along the routes at once log entry 100, and where its value and code stand in the flit log
entry 58: choices of the model. (R158, R400, R36) -/
def Obligations.EventPath : Prop :=
  (∀ (t : Nat) (f : LSI) (s : State), s.canIssue t = true → f.rsv = 0 → 256 ≤ f.imm.toNat % 65536 ∨ f.imm.toNat % 65536 = 1 → scalarBusy (s.tile t) [f.sa.toNat] = false →
      let x := s.tile t
      (x.event = none → exec (.sysEvent t f) s =
        .next (s.heldAt t { x with event := some { code := f.imm.toNat % 65536, value := sreg x f.sa.toNat } })) ∧
      (∀ ev, x.event = some ev → ev.accepted = true → exec (.sysEvent t f) s = .next (s.retire t { x with event := none })) ∧
      (∀ ev, x.event = some ev → ev.accepted = false → exec (.sysEvent t f) s = .next (s.heldAt t x))) ∧
    (∀ (t e port : Nat) (s : State) (f : Flit), isTile t = true → s.mod.cc.up = true →
      (s.tiles.findSome? fun z => (heldEvent t z.2).map fun w => (z.1, w)) = some (e, port, f) →
      let y := s.tile e
      let r := min 8 (s.tilePart t)
      let code := bits (nth 0#32 f.data 2) 15 0
      let value := nth 0#32 f.data 1 ++ nth 0#32 f.data 0
      (s.mailOf r).length < 4096 →
      exec (.eventPost t) s = .next
        (let s1 := s.setTile e (setEdgeFlits y port ((edgeFlits y port).erase f))
        let s2 := s1.setMail r (s.mailOf r ++ [{ tile := t, code := code, value := value }])
        s2.setTile t (postedEvent (s1.tile t) code value true))) ∧
    (∀ (t : Nat) (s : State) (ev : Event), s.tileOn t = true → (s.tile t).event = some ev → ev.refused = true →
      exec (.eventResend t) s = .next (s.setTile t { s.tile t with event := some { ev with refused := false, sent := false } })) ∧
    (∀ (ring : Nat) (s : State) (m : Mail) (l : List Mail) (ev : Event), ring ≤ 8 → s.mod.cc.up = true → s.mailOf ring = m :: l → m.msg = none →
      256 ≤ m.code → (s.tile m.tile).event = some ev → ev.posted = true → ev.code = m.code → ev.value = m.value → s.eventAnswered m.tile = true →
      exec (.eventAcknowledge ring) s = .next
        (((s.setMail ring l).setTile m.tile { s.tile m.tile with event := some { ev with accepted := true } }).say
          (.hostEvent ring m.tile m.code m.value)))

/-- On a valid region and a count n within SIZE, Q.WAIT (which orders the vector stores to the words it waits for) completes when OCC
is at least n and Q.SPACE when SIZE - OCC is; Q.POP moves the head and Q.PUSH the tail by n under the same conditions, when the
region names the sequencer; otherwise they are held. RG.SET with no unfinished instruction on the region and a valid image writes
the descriptor of s[sa] and s[sb]; RG.GET of a valid descriptor writes OCC above HEAD to s[sa]; SPD.CLR clears s[sb] words from
s[sa]. Nothing else changes. Q.POP orders the vector stores to the words it takes, Q.PUSH the scalar stores to the words it gives,
before what follows (the note of unordered stores is log entry 69). A region whose descriptor is not valid stops the tile with
FCAUSE 0x2 of SPD_STATUS, one that does not name the sequencer with 0x3, and a count beyond SIZE with 0x4, SEQ_STATUS showing
FCAUSE 0x5, with the record of SOURCE 0x20; which cause stands where several conditions are broken is the model's choice (log
entry 64). (R133, R134, R135, R137, R140, R163, R164, R202) -/
def Obligations.Regions : Prop :=
  (∀ (t : Nat) (f : LQ) (s : State), s.canIssue t = true → f.rsv = 0 → f.ns = 0 →
    let x := s.tile t
    let g := f.rg.toNat
    let r := region x g
    let n := f.n.toNat
    r.valid = true → n ≤ r.size →
    exec (.qWait t f) s = .next (if n ≤ r.occ then s.retire t (orderWords true r r.head n (setRegion x g r)) else s.heldAt t x) ∧
    exec (.qSpace t f) s = .next (if n ≤ r.size - r.occ then s.retire t (setRegion x g r) else s.heldAt t x) ∧
    (r.cons = 4 → exec (.qPop t f) s = .next
      (if n ≤ r.occ then s.retire t (orderWords true r r.head n (setRegion x g { r with occ := r.occ - n, head := (r.head + n) % r.size }))
      else s.heldAt t x)) ∧
    (r.prod = 4 → exec (.qPush t f) s = .next
      (if n ≤ r.size - r.occ then s.retire t (orderWords false r r.tail n (setRegion x g { r with occ := r.occ + n })) else s.heldAt t x))) ∧
    (∀ (t : Nat) (f : LQ) (s : State), s.canIssue t = true → f.rsv = 0 → f.ns = 0 →
    let g := f.rg.toNat
    let r := region (s.tile t) g
    let stop (cause : Nat) : Host.Outcome State Fault Refusal := .next (s.regionStop t cause g)
    (r.valid = false → exec (.qWait t f) s = stop 2 ∧ exec (.qSpace t f) s = stop 2 ∧ exec (.qPop t f) s = stop 2 ∧
      exec (.qPush t f) s = stop 2) ∧
    (r.valid = true → (r.cons ≠ 4 → exec (.qPop t f) s = stop 3) ∧ (r.prod ≠ 4 → exec (.qPush t f) s = stop 3)) ∧
    (r.valid = true → r.size < f.n.toNat → exec (.qWait t f) s = stop 4 ∧ exec (.qSpace t f) s = stop 4 ∧
      (r.cons = 4 → exec (.qPop t f) s = stop 4) ∧ (r.prod = 4 → exec (.qPush t f) s = stop 4))) ∧
    (∀ (t : Nat) (f : LQ) (s : State), s.canIssue t = true → f.rsv = 0 → f.ns = 0 → f.n = 0 → scalarBusy (s.tile t) [f.sa.toNat, f.sb.toNat] = false →
    let x := s.tile t
    let a := sreg x f.sa.toNat
    let b := sreg x f.sb.toNat
    (busyRegions x = [] → rgReserved a b = false → (rgFromScalars a b).valid = true →
      exec (.rgSet t f) s = .next (s.retire t (setRegion x f.rg.toNat (rgFromScalars a b)))) ∧
    (f.sb = 0 → (region x f.rg.toNat).valid = true → exec (.rgGet t f) s = .next (s.retire t (setSreg x f.sa.toNat
      (BitVec.ofNat 64 ((region x f.rg.toNat).occ * 2 ^ 32 + (region x f.rg.toNat).head))))) ∧
    (f.rg = 0 → busyRegions x = [] → a.toNat + b.toNat ≤ 98304 →
      exec (.spdClr t f) s = .next (s.retire t { x with
        spd := x.spd.filter fun e => decide (e.1 < a.toNat) || decide (a.toNat + b.toNat ≤ e.1),
        par := x.par.filter fun e => decide (e.1 < a.toNat) || decide (a.toNat + b.toNat ≤ e.1) })))

/-- Whatever instruction of whatever layout issues: where its encoding is reserved (a reserved bit, an operand outside its list, a
field that it must leave 0) it takes no effect, and the tile is stopped with FAULT set and FCAUSE 0x1, the PC at it, and the hard-
fault record of SOURCE 0x21 raised. Where the PC has run to LEN or beyond, no instruction takes effect and the tile stops the same
way with FCAUSE 0x2. Which unused fields are looked at is the model's reading where the spec is silent (log entries 133, 135,
138). (R146, R148, R155) -/
def Obligations.ReservedEncodingStops : Prop :=
  ∀ (t : Nat) (w : DWord) (c : Instr) (s : State), decodeWord t w = some c →
    let stop (cause : Nat) := Host.Outcome.next (s.stopped t cause 0x21 cause (s.tile t) [0x0, 0x4, 0x8, 0xC])
    (s.canIssue t = true → legalInstr c = false → exec c s = stop 1) ∧
    (s.tileOn t = true → (s.part (s.tilePart t)).state ≠ 4 → (s.tile t).seq = .running → progLen (s.tile t) ≤ (s.tile t).pc →
      exec c s = stop 2)

/-- A vector arithmetic instruction (all 30 of Table 6.5, as arithCmd names them) that issues into an empty vector queue on a good
lane pair answers a next state in which vd holds the elementwise results (VectorElements says which), the lane-pair ordinal and
sample count have advanced, the PC is one higher and WAITING is 0; everything else is as before. (R111, R116, 04_vector_engine.md) -/
def Obligations.VectorArithmetic : Prop :=
  ∀ (fn : VFn) (t : Nat) (f : LVA) (s : State), s.vecReady t (.arith fn f) = true →
    let x := s.tile t
    exec (arithCmd fn t f) s = .next (s.retire t (setVreg (countedTile x) f.vd.toNat
      (arithWords x fn f (if f.bs = 1 then sreg x f.sb.toNat else 0))))

/-- For every element position e of an arithmetic instruction (64 in BF16 and FP16, else 32), the new destination register holds at e
the operation on element e of va, of vb (or the broadcast scalar) and of vc where the predicate bit e is set, and the old element
e of vd where it is clear. VIADD, VISUB, VIMUL wrap and the integer shifts use the low 5 bits. (R101, R102, R103) -/
def Obligations.VectorElements : Prop :=
  (∀ (x : Tile) (fn : VFn) (f : LVA) (b : DWord) (e : Nat),
      let w16 := is16 f.fmt.toNat && !isInt fn
      let w := if w16 then 16 else 32
      let old (n : BitVec 4) : Nat := nth 0 (elems w16 (vreg x n.toNat)) e
      let vb := if f.bs = 1 then b.toNat % 2 ^ w else old f.vb
      let res := if isInt fn then (ielem fn (BitVec.ofNat 32 (old f.va)) (BitVec.ofNat 32 vb)).toNat
        else felem (vfmt f.fmt.toNat) fn (old f.va) vb (old f.vc)
      e < (if w16 then 64 else 32) →
      nth 0 (elems w16 (arithWords x fn f b)) e = (if (predOf x f.pe f.pr).getLsbD e then res else old f.vd) % 2 ^ w) ∧
    (∀ a b : Word, ielem .iadd a b = a + b ∧ ielem .isub a b = a - b ∧ ielem .imul a b = a * b ∧ ielem .and a b = a &&& b ∧
      ielem .or a b = a ||| b ∧ ielem .xor a b = a ^^^ b ∧ ielem .sll a b = a <<< (b.toNat % 32) ∧
      ielem .srl a b = a >>> (b.toNat % 32) ∧ ielem .sra a b = a.sshiftRight (b.toNat % 32) ∧
      ielem .imin a b = (if a.toInt < b.toInt then a else b) ∧ ielem .imax a b = (if a.toInt < b.toInt then b else a))

/-- A compare writes p[vd] with the relation of the enabled element positions and 0 elsewhere; PAND, POR, PXOR and PNOT work on whole
predicates; PPOP writes a population count to a scalar; VCVT and VCVT.N2 write the converted register. Nothing else changes but
the lane-pair counts, the PC and WAITING. (R103, R107, R166) -/
def Obligations.VectorPredicates : Prop :=
  ∀ (t : Nat) (f : LVA) (s : State),
    let x := s.tile t
    let b := if f.bs = 1 then sreg x f.sb.toNat else 0
    let d := f.vd.toNat % 8
    let pa := preg x (f.va.toNat % 8)
    let pb := preg x (f.vb.toNat % 8)
    let is (op : VOp) (c : Instr) (y : Tile) : Prop := s.vecReady t op = true → exec c s = .next (s.retire t y)
    (∀ r, is (.fcmp r f) (fcmpCmd r t f)
      (setPreg (countedTile x) d (cmpPred x f b (is16 f.fmt.toNat) (fcmp (vfmt f.fmt.toNat) r)))) ∧
    (∀ r, is (.icmp r f) (icmpCmd r t f)
      (setPreg (countedTile x) d (cmpPred x f b false fun u v => icmp r (BitVec.ofNat 32 u) (BitVec.ofNat 32 v)))) ∧
    is (.plog .and f) (.pand t f) (setPreg x d (pa &&& pb)) ∧ is (.plog .or f) (.por t f) (setPreg x d (pa ||| pb)) ∧
    is (.plog .xor f) (.pxor t f) (setPreg x d (pa ^^^ pb)) ∧ is (.plog .not f) (.pnot t f) (setPreg x d (~~~pa)) ∧
    is (.ppop f) (.ppop t f) (setSreg x f.sb.toNat (BitVec.ofNat 64 ((List.range 64).countP fun i => pa.getLsbD i))) ∧
    is (.cvt f) (.vcvt t f) (setVreg (countedTile x) f.vd.toNat (cvtWords x f)) ∧
    is (.cvtN2 f) (.vcvtN2 t f) (setVreg (countedTile x) f.vd.toNat (cvtN2Words x f))

/-- The moves carry one lane, one register or one predicate between the files; SUM.NF counts the enabled non-finite elements, SUM.AMAX
takes the largest magnitude, SUM.ADD the sum by the tree and SUM.ARGMAX the position and value of the largest, each into its
scalars. Nothing else changes but the PC and WAITING. The model's choice: SUM.ARGMAX widens a 16-bit value to FP32 (log entry
134). (R113, R114, R162) -/
def Obligations.VectorMovesAndSummaries : Prop :=
  (∀ (t : Nat) (f : LMV) (s : State),
      let x := s.tile t
      let is (op : VOp) (c : Instr) (y : Tile) : Prop := s.vecReady t op = true → exec c s = .next (s.retire t y)
      is (.movVS f) (.movVs t f) (setSreg x f.s.toNat ((nth 0#32 (vreg x f.v.toNat) f.lane.toNat).setWidth 64)) ∧
      is (.movSV f) (.movSv t f)
        { x with vregs := Map.set (fun _ => 0#32) x.vregs (32 * f.v.toNat + f.lane.toNat) ((sreg x f.s.toNat).setWidth 32) } ∧
      is (.movVV f) (.movVv t f) (setVreg x f.v.toNat (vreg x f.s.toNat)) ∧
      is (.movPS f) (.movPs t f) (setSreg x f.s.toNat (preg x f.p.toNat)) ∧
      is (.movSP f) (.movSp t f) (setPreg x f.p.toNat (sreg x f.s.toNat))) ∧
    (∀ (t : Nat) (f : LVS) (s : State),
      let x := s.tile t
      let is (fn : SFn) (c : Instr) (y : Tile) : Prop := s.vecReady t (.sum fn f) = true → exec c s = .next (s.retire t y)
      let old := sreg x f.sd.toNat
      let el := sumElems x f
      let n := ((el.filterMap id).filter nonFinite).length
      let m := (el.filterMap id).foldl (fun a v => maxVal a (absVal v)) (.num false 0 0)
      let a := nth 0#32 (treeSum 6 (el.map fun o => match o with | some v => toF32 v | none => 0#32)) 0
      is .nf (.sumNf t f) (setSreg x f.sd.toNat ((if f.acc = 1 then old else 0) + BitVec.ofNat 64 n)) ∧
      is .amax (.sumAmax t f) (setSreg x f.sd.toNat
        ((toF32 (if f.acc = 1 then maxVal (absVal (f32 (old.setWidth 32))) m else m)).setWidth 64)) ∧
      is .add (.sumAdd t f) (setSreg x f.sd.toNat
        ((if f.acc = 1 then toF32 (addVal (f32 (old.setWidth 32)) (f32 a)) else a).setWidth 64)) ∧
      is .argmax (.sumArgmax t f) (sumEffect x .argmax f (if f.acc = 1 then sreg x f.sbase.toNat else 0)) ∧
      (f.acc = 0 → (∀ i v, argmaxFrom 0 none el = some (i, v) →
        sumEffect x .argmax f 0 = setSreg (setSreg x f.sd.toNat (BitVec.ofNat 64 i)) (f.sd.toNat + 1) ((toF32 v).setWidth 64)) ∧
        (argmaxFrom 0 none el = none →
          sumEffect x .argmax f 0 = setSreg (setSreg x f.sd.toNat 0xFFFFFFFF) (f.sd.toNat + 1) (qnan.setWidth 64))))

/-- On a region that is valid, names the vector engine and has the words (or the space) asked for, VLD loads 32 words from the head
offset under its predicate, VST writes 32 words from the tail offset, VST.CVT and VST.MX write the converted elements, and VQ.POP
and VQ.PUSH move head and tail; ADV moves it by 32. Nothing else changes but the vector store ordinal, the model's note of stores
that no read is ordered after yet (log entry 69), the PC and WAITING. At issue a region whose descriptor is not valid stops the
tile with FCAUSE 0x2 of SPD_STATUS, one that does not name the vector engine as the instruction uses it with 0x3, and words beyond
SIZE with 0x4 (in this order: log entry 64). (R108, R133, R134, R137, R169, R170, R171) -/
def Obligations.VectorMemory : Prop :=
  ∀ (t : Nat) (f : LVM) (s : State),
    let x := s.tile t
    let g := f.rg.toNat
    let r := region x g
    let b := if f.so = 1 then sreg x f.soff.toNat else 0
    let o := f.off.toNat + b.toNat
    let p := predOf x f.pe f.pr
    let is (op : VOp) (c : Instr) (y : Tile) : Prop := s.vecReady t op = true → exec c s = .next (s.retire t y)
    (usable x g 2 false = true → o + 32 ≤ r.occ → injKind x ≠ 1 → (∀ i ∈ rgSpan r (r.head + o) 32, goodWord x 3 (some g) i = true) →
      is (.vld f) (.vld t f)
        (let y := setVreg x f.vr.toNat (mergeWords p (vreg x f.vr.toNat) (regionWords x r (r.head + o) 32))
        if f.adv = 1 then setRegion y g { r with occ := r.occ - 32, head := (r.head + 32) % r.size } else y)) ∧
    (usable x g 2 true = true → o + 32 ≤ r.size - r.occ →
      is (.vst f) (.vst t f) (vmAdvance (bumpVord (loosen true (some g) x (storeWords x r p (r.tail + o) 0 (vreg x f.vr.toNat))
        (rgSpan r (r.tail + o) 32))) f) ∧
      is (.vstCvt f) (.vstCvt t f) (vstCvtEffect t x f o)) ∧
    (usable x g 2 true = true → usable x f.srg.toNat 2 true = true →
      mxBase f + mxWords f * (sreg x f.soff.toNat).toNat + mxWords f ≤ r.size → 8 * (sreg x f.soff.toNat).toNat + 8 ≤ (region x f.srg.toNat).size →
      (mxNeed f (sreg x f.soff.toNat).toNat).1 ≤ r.space → (mxNeed f (sreg x f.soff.toNat).toNat).2 ≤ (region x f.srg.toNat).space →
      is (.vstMx f) (.vstMx t f) (vstMxEffect x f (sreg x f.soff.toNat).toNat)) ∧
    (usable x g 2 false = true → f.off.toNat ≤ r.occ →
      is (.vqPop f) (.vqPop t f) (setRegion x g { r with occ := r.occ - f.off.toNat, head := (r.head + f.off.toNat) % r.size })) ∧
    (usable x g 2 true = true → f.off.toNat ≤ r.size - r.occ →
      is (.vqPush f) (.vqPush t f) (setRegion x g { r with occ := r.occ + f.off.toNat })) ∧
    (s.canIssue t = true → x.vq.length < 32 → scalarBusy x (if f.so = 1 then [f.soff.toNat] else []) = false →
      let stop (cause : Nat) : Host.Outcome State Fault Refusal := .next (s.regionStop t cause g)
      (r.valid = false → exec (.vld t f) s = stop 2 ∧ exec (.vst t f) s = stop 2 ∧ exec (.vqPop t f) s = stop 2 ∧
        exec (.vqPush t f) s = stop 2) ∧
      (r.valid = true → r.cons ≠ 2 → exec (.vld t f) s = stop 3 ∧ exec (.vqPop t f) s = stop 3) ∧
      (r.valid = true → r.prod ≠ 2 → exec (.vst t f) s = stop 3 ∧ exec (.vqPush t f) s = stop 3) ∧
      (usable x g 2 false = true → (r.size < o + 32 → exec (.vld t f) s = stop 4) ∧
        (r.size < f.off.toNat → exec (.vqPop t f) s = stop 4)) ∧
      (usable x g 2 true = true → (r.size < o + 32 → exec (.vst t f) s = stop 4) ∧
        (r.size < f.off.toNat → exec (.vqPush t f) s = stop 4)))

/-- On a tile whose scratchpad is in its canonical form, every physical word outside the words that a store names (the word itself,
the 32 words from the tail offset of VST, the words of a converting store or of VST.MX at their offsets) reads as before; a stored
word reads as written: of VST each word whose lane is enabled, of VST.CVT each enabled byte, of VST.MX each byte of the run, while
the words fit into the region. (R108, R109, R120, R130, R161) -/
def Obligations.StoreFrames : Prop :=
  ∀ (x : Tile), Map.wf (fun _ => 0#32) x.spd = true →
    let w (y : Tile) (i : Nat) : Word := Map.get (fun _ => 0#32) y.spd i
    (∀ (i j : Nat) (v : Word), w (writePhys x i v) j = if j = i then v else w x j) ∧
    (∀ (r : Region) (p : DWord) (o i : Nat) (l : List Word) (j : Nat), j ∉ rgSpan r o l.length → w (storeWords x r p o i l) j = w x j) ∧
    (∀ (r : Region) (m : Nat → Nat) (o i : Nat) (l : List Word) (j : Nat), j ∉ rgSpan r o l.length →
      w (storeMasked x r m o i l) j = w x j) ∧
    (∀ (r : Region) (o : Nat) (l : List Word) (j : Nat), j ∉ rgSpan r o l.length → w (writeRegion x r o l) j = w x j) ∧
    (∀ (r : Region) (o b : Nat) (l : List Nat) (j : Nat), j ∉ rgSpan r o ((b + l.length + 3) / 4) →
      w (writeByteRun x r o b l) j = w x j) ∧
    (∀ (a n j : Nat), j < a ∨ a + n ≤ j → w (clearWords x a n) j = w x j) ∧
    (∀ (a n j : Nat), a ≤ j → j < a + n → w (clearWords x a n) j = 0#32) ∧
    (∀ (r : Region) (p : DWord) (o i k : Nat) (l : List Word), r.valid = true → l.length ≤ r.size → k < l.length →
      w (storeWords x r p o i l) (rgPhys r (o + k)) = if p.getLsbD (i + k) then nth 0 l k else w x (rgPhys r (o + k))) ∧
    (∀ (r : Region) (o k : Nat) (l : List Word), r.valid = true → l.length ≤ r.size → k < l.length →
      w (writeRegion x r o l) (rgPhys r (o + k)) = nth 0 l k) ∧
    (∀ (r : Region) (m : Nat → Nat) (o i k b : Nat) (l : List Word), r.valid = true → l.length ≤ r.size → k < l.length → b < 4 →
      let byte (v : Word) : Nat := bits v (8 * b + 7) (8 * b)
      byte (w (storeMasked x r m o i l) (rgPhys r (o + k))) =
        if (m (i + k)).testBit b then byte (nth 0 l k) else byte (w x (rgPhys r (o + k)))) ∧
    (∀ (r : Region) (o b k : Nat) (l : List Nat), r.valid = true → (b + l.length + 3) / 4 ≤ r.size → k < l.length →
      let q := (b + k) % 4
      bits (w (writeByteRun x r o b l) (rgPhys r (o + (b + k) / 4))) (8 * q + 7) (8 * q) = nth 0 l k % 256)

/-- A legal OPE.MUL or OPE.CUBE whose regions are valid, name the OPE feeds and can hold the product enters the queue with its mask
read at issue while the queue holds fewer than four entries, fewer than three products are uncompleted and a paced field has
credit (it spends its beats); OPE.DRN enters with its tag and ordinal where its region can hold the block (and has the router as
consumer in reduction mode). Nothing else changes but the PC and WAITING. The model's choices: an OPE.CUBE with CRG equal to RRG
reads the same words for both (log entry 137), and the mode of an OPE.DRN of a set without a product (log entry 71). (R149, R150,
R172, R174, R177, R180, R371) -/
def Obligations.OpeIssue : Prop :=
  ∀ (t : Nat) (s : State), s.canIssue t = true →
    let x := s.tile t
    let e := s.tileEnv t
    let holds (p : Product) : Prop := ∀ g ∈ productWords p, usable x g.1 1 false = true ∧ g.2 ≤ (region x g.1).size
    let room : Prop := x.ope.queue.length < 4 ∧ pend x.ope < 3 ∧ (e.pace = 0 ∨ 0 < tileCredit e x)
    let queued (p : Product) (cost : Nat) : Host.Outcome State Fault Refusal := .next (s.retire t { x with
      credit := if e.pace = 0 then none else some (tileCredit e x - (cost : Int)), ope := { x.ope with queue := x.ope.queue ++ [.mul p] } })
    (∀ f : LOM, omLegal f = true → scalarBusy x (if f.mall = 1 then [] else [f.msk.toNat]) = false → room →
      (holds (productOf x f false) →
        exec (.opeMulClr t f) s = queued (productOf x f false) ((f.lm1.toNat + 1) * passes (productOf x f false))) ∧
      (holds (productOf x f true) →
        exec (.opeMulCont t f) s = queued (productOf x f true) ((f.lm1.toNat + 1) * passes (productOf x f true)))) ∧
    (∀ f : LOC, f.rsv = 0 → f.fmt = 1 ∨ f.fmt = 2 → room →
      let p : Product := { set := f.set.toNat, cont := f.cont = 1, cube := true, len := 4, cfmt := f.fmt.toNat, rfmt := f.fmt.toNat,
                           crg := f.crg.toNat, rrg := f.rrg.toNat, csrg := 0, rsrg := 0, ct := false, rt := false, cpx := false,
                           mask := 15, pc := x.pc }
      holds p → exec (.opeCube t f) s = queued p 4) ∧
    (∀ f : LOD, odLegal f = true → scalarBusy x (if f.dst = 1 then [f.tag.toNat] else []) = false → x.ope.queue.length < 4 →
      let cpx := (drainKind x.ope f.set.toNat).1
      let cube := (drainKind x.ope f.set.toNat).2
      let tag := if f.dst = 1 then sreg x f.tag.toNat else 0
      let d : Drain := { set := f.set.toNat, dst := f.dst.toNat, fmt := f.fmt.toNat, rnd := f.rnd = 1, sat := f.sat = 1,
                         drg := f.drg.toNat, tag := tag, pc := x.pc, ord := (csrWord x 0x50C).toNat, cpx := cpx, cube := cube }
      tag.toNat < 2 ^ 32 → (f.dst = 1 → cpx = true → bits tag 15 0 ≠ 0xFFFF) →
      (cube = true → f.dst = 0 ∧ f.rnd = 0 ∧ f.sat = 0 ∧ f.fmt.toNat ≤ 2) →
      usable x f.drg.toNat 1 true = true → (f.dst = 1 → (region x f.drg.toNat).cons = 3) →
      drainWords d * (if cpx && f.dst = 0 then 2 else 1) ≤ (region x f.drg.toNat).size →
      exec (.opeDrn t f) s = .next (s.retire t { csrPut x 0x50C (csrWord x 0x50C + (if cpx then 2 else 1)) with
        ope := { x.ope with queue := x.ope.queue ++ [.drn d] } }))

/-- A feed beat of the product at the feed of a running OPE with nothing due for release, whose words are present, good and free of
slot conflicts, adds to accumulator (i, j) of its set the exact sum of products of lane i and lane j where row i is enabled (and
no split pass skips it), rounded once as R87 says, leaves the disabled rows, and moves the product to its next beat. Nothing
outside the OPE of the tile changes. (R57, R84, R87, R197) -/
def Obligations.OpeFeedBeat : Prop :=
  ∀ (t : Nat) (s : State) (p : Product), s.tileOn t = true → (s.part (s.tilePart t)).debug = false →
    let x := s.tile t
    let idx (r : FeedRead) : Nat := rgPhys (region x r.rg) (startOff p r.src + r.off)
    let words (k : FeedSrc) : List Word := ((beatReads p).filter fun r => decide (r.src = k)).map fun r => Map.get (fun _ => 0#32) x.spd (idx r)
    let scale (k : FeedSrc) (old : List Word) : List Word := if (words k).isEmpty then old else words k
    let A := lanes p false (words .col) (scale .colScale x.ope.latchCS) x.ope.latchC
    let B := lanes p true (words .row) (scale .rowScale x.ope.latchRS) x.ope.latchR
    let old := accSet x.ope (passSet p)
    x.ope.halted = false → x.ope.zero = [] → x.ope.set0.phase ≠ .held → x.ope.set1.phase ≠ .held →
    x.ope.feed = some p → p.cube = false → takeDrains 4 x.ope = x.ope → present x p = true → injKind x ≠ 1 →
    (∀ r ∈ beatReads p, goodWord x (match r.src with | .row => 1 | .rowScale => 1 | _ => 0) (some r.rg) (idx r) = true) → (∀ c ∈ claimsOf x p, slotHit (claimsOf x p) c = false) →
    Map.wf (fun _ => 0#32) old.cells = true →
    ∃ y : Tile, exec (.opeFeedBeat t) s = .next (s.setTile t y) ∧ { y with ope := x.ope } = x ∧
      y.ope.feed = (if (nextBeat p).fed then none else some (nextBeat p)) ∧
      ∀ i j : Nat, i < 32 → j < 32 → cellAt (accSet y.ope (passSet p)) (33 * i + j) =
        if p.mask.getLsbD i && !skipTerm p (nth [] A i) (nth [] B j) then
          accumulate (cellAt old (33 * i + j)) (term (nth [] A i) (nth [] B j))
        else cellAt old (33 * i + j)

/-- A set whose products are all fed becomes ready; a ready set with its drain in force, its turn and space drains; a drained set
whose comparison passes is released in its turn: alone in the OPE it is written out, its operands released and the set emptied,
and one that fails before its third attempt is recorded (SOURCE 0x02) and its products are replayed into an empty set. A slot of a
bank goes to the drain, else in turn; a feed claims it first. The model's choices: which lanes pair in the checksum trees (log
entry 145), and the port that stands first at a bank (log entry 30). (R51, R52, R61, R66, R67, R126) -/
def Obligations.OpeSetsAndPorts : Prop :=
  ∀ (t : Nat) (s : State), s.tileOn t = true →
    let x := s.tile t
    (∀ k < 2,
      let o := takeDrains 4 x.ope
      let a := accSet o k
      (a.phase = .accumulating → (∀ p, o.feed = some p → p.set ≠ k ∧ p.cpx = false) → (∀ p ∈ o.replay, p.set ≠ k ∧ p.cpx = false) →
        exec (.opeSetReady t k) s = .next (s.setTile t { x with ope := setAcc o k { a with phase := .ready } })) ∧
      (∀ d, a.drn = some d → a.phase = .ready → (accSet o (1 - k)).phase ≠ .draining →
        (d.dst = 1 → bit (csrWord x (0xA00 + 4 * d.drg)) 31 = true) → (d.cpx = true → k = 1 → (accSet o (1 - k)).phase = .held) →
        let blocks := if d.cpx = true ∧ d.dst = 1 ∧ k = 0 then 2 else 1
        let kept := keptByOther (accSet o (1 - k)) a d.drg
        blocks * drainWords d + kept.1 ≤ (region x d.drg).space → d.dst = 0 ∨ x.rtr.stage.length + blocks + kept.2 ≤ 256 →
        exec (.opeDrainStart t k) s = .next (s.setTile t { x with ope := setAcc o k { a with phase := .draining } }))) ∧
    (∀ k < 2,
      let b := accSet x.ope k
      b.phase = .draining → x.ope.halted = false → x.ope.cube = false → injKind x ≠ 2 →
      (∀ n, ckResult b = (none, n) →
        exec (.opeCheck t k []) s = .next (s.setTile t (settle t (passedSet x k n))) ∧
        (∀ d, b.drn = some d → d.cpx = false → x.seq ≠ .stopped → accSet x.ope (1 - k) = {} → x.ope.zero = [] →
          mayAdvance x b.prods [d] = true →
          settle t (passedSet x k n) = (let z := b.prods.foldl releaseOperands (releaseBlock t (passedSet x k n) k)
            { z with ope := setAcc z.ope k {} }))) ∧
      (∀ c i n, accCpx b = false → b.attempt < 3 → ckResult b = (some (c, i), n) →
        ∃ (y : Tile) (r : Rec), exec (.opeCheck t k []) s = .next ((s.setTile t y).raise r) ∧ r.source = 0x02 ∧ r.cls = 2 ∧ r.loc = t ∧
          y.ope.replay = x.ope.replay ++ b.prods.map rewind ∧ (accSet y.ope k).attempt = b.attempt + 1 ∧
          (accSet y.ope k).cells = [] ∧ (accSet y.ope k).prods = b.prods)) ∧
    (∀ (bank : Nat) (want : List Nat), bank < 32 → (∀ q ∈ want, 2 ≤ q ∧ q ≤ 7) → x.vq = [] →
      exec (.sharedPortAccess t bank true want) s = .next (s.setTile t x) ∧
      exec (.sharedPortAccess t bank false want) s = .next (s.setTile t
        (match slotWinner (lastWinner x bank) want with
        | none => x
        | some q => { x with lastWin := Map.set (fun _ => 7) x.lastWin bank q })))

/-- A NET instruction with well-formed scalars, on regions that serve the NET unit and can hold the transfer, takes the lowest free
slot of the 16 with the transfer that its scalars describe, at the region offsets that follow the transfers before it. Nothing
else changes but the PC and WAITING. (R149, R181, R182, R183) -/
def Obligations.NetIssue : Prop :=
  ∀ (t : Nat) (f : LN) (s : State), s.canIssue t = true → f.rsv = 0 → scalarBusy (s.tile t) [f.sa.toNat, f.sb.toNat] = false →
    let x := s.tile t
    let a := sreg x f.sa.toNat
    let b := sreg x f.sb.toNat
    let n := 8 * bits b 15 0
    let base (k : NetKind) : Prop :=
      netScalarsOk k a b = true ∧ usable x f.rg.toNat 3 (k = .pull) = true ∧ n ≤ (region x f.rg.toNat).size
    let starts (k : NetKind) (c : Instr) : Prop := ∀ tid, freeTid x = some tid →
      exec c s = .next (s.retire t { x with net := x.net ++ [transferOf x tid k f a b] })
    (base .pull → openInto x f.rg.toNat = false → starts .pull (.netPull t f)) ∧
    (base .push → starts .push (.netPush t f)) ∧ (base .send → starts .send (.netSend t f)) ∧
    (∀ c ∈ [(0, Instr.atomAdd t f), (1, .atomMin t f), (2, .atomMax t f), (3, .atomSwap t f), (4, .atomCas t f)],
      base (.atom c.1) →
      f.rrg = f.rg ∨ (usable x f.rrg.toNat 3 true = true ∧ (if c.1 = 4 then n / 2 else n) ≤ (region x f.rrg.toNat).size ∧
        openInto x f.rrg.toNat = false) →
      starts (.atom c.1) c.2)

/-- A ready unit of a transfer, once every transfer before it has handed over its units, becomes the flits of R231 in the local list
of the router; the next flit whose buffer has room enters the router with the class, epoch, partition and age of R224; the flit
that wins the slot of an output port leaves its buffer for the next router (through the crossing buffer of a seam), the site die
or the tile itself, and what waited for its place enters. Nothing but the routers involved changes. The model's choices: BULK of
an atomic (log entry 132), and where a round-robin begins (log entry 117). (R220, R223, R224, R230, R231, R240) -/
def Obligations.NetFlits : Prop :=
  ∀ (t : Nat) (s : State), isTile t = true → (s.field (fieldOf t)).power = 2 ∨ (s.field (fieldOf t)).power = 3 →
    let x := s.tile t
    (∀ (tid edge : Nat) (y : Transfer) (u : Nat × Nat), tid < 16 → (x.net.find? fun z => z.tid = tid) = some y → nextUnit y = some u →
      y.failed = false → netTurn x y = true → unitReady x y u = true → injKind x ≠ 1 →
      (y.kind = .send ∧ edge = 0) ∨ (y.kind ≠ .send ∧ y.addr / 2 ^ 42 < 48 ∧ s.edgeFor t (y.addr / 2 ^ 42) = some edge) →
      let n := if y.kind = .pull then 0 else 8 * u.2
      (∀ i ∈ rgSpan (region x y.rg) (y.off + 8 * u.1) n, goodWord x 6 (some y.rg) i = true) →
      exec (.netUnitIssue t tid) s = .next (s.setTile t { setTransfer x { y with issued := u.1 + u.2 } with
        rtr := { x.rtr with inject := (x.rtr.inject ++ unitFlits (s.tileEnv t) y u edge
          (regionWords x (region x y.rg) (y.off + 8 * u.1) n)) } })) ∧
    (∀ (i : Nat) (f : Flit), (s.part (s.tilePart t)).hold = false →
      let w := s.withEvent t
      let st := s.stampOf t f
      nextInject w w.rtr.inject [] = some (i, f) →
      (∀ d q r tid, f.body = .send d q r tid → s.sendOutside t f.dest = false) →
      exec (.flitInject t) s = .next (s.setTile t
        (acceptFlit t s.mod.b0 { w with rtr := { w.rtr with
            inject := w.rtr.inject.eraseIdx i, packet := Map.set (fun _ => (0, 0)) w.rtr.packet f.vc st } } 0
          (stampFlit f st.1 st.2 (s.now.toNat % 2 ^ 32))))) ∧
    (∀ (port key : Nat) (f : Flit), port < 5 → (∀ e ∈ bufHeads x, ∃ q, s.nextPort t e.2 = .port q) → injKind x ≠ 5 →
      let l := s.ready t port
      let ds := s.redWants t port
      pickSlot x port l ds = some (.flit key f) →
      let sent := closeCmb t (afterSlot (popBuf x key) port l ds (.flit key f)) f
      let past := crcPassed sent port key
      (port = 0 → exec (.flitHop t port false) s =
        .next ((s.setTile t { sent with rtr := { sent.rtr with arrived := sent.rtr.arrived ++ [f] } }).refillBufs t)) ∧
      (port ≠ 0 → neighbour t port = none → exec (.flitHop t port false) s =
        .next ((s.setTile t (setEdgeFlits past port (edgeFlits past port ++ [f]))).refillBufs t)) ∧
      (∀ n, port ≠ 0 → neighbour t port = some n → exec (.flitHop t port false) s =
        .next (let s1 := s.setTile t past
          (s1.setTile n (linkIn s.mod.b0 t n (facing port) (s1.tile n) f)).refillBufs t)))

/-- A return for a combining entry is copied to each of its requesters; return data goes to its words of the region, an
acknowledgement or an error to its transfer, and the error that answers an event makes the router send it again (log entries 31,
100: how the answer is told apart is the model's choice); a transfer that is done and first on its regions, whose region can
honour the advance, moves the tail of its destination or the head of its source and frees its slot; a flit of a SEND lands in its
open transfer at its own place. Nothing else on the wafer changes. (R183, R231, R236, R237) -/
def Obligations.NetArrivals : Prop :=
  ∀ (t : Nat) (s : State), isTile t = true → (s.field (fieldOf t)).power = 2 ∨ (s.field (fieldOf t)).power = 3 →
    let x := s.tile t
    let fetched (p : Flit → Bool) (f : Flit) : Prop := x.rtr.arrived.find? p = some f
    let without (f : Flit) : Tile := { x with rtr := { x.rtr with arrived := x.rtr.arrived.erase f } }
    let isData (f : Flit) : Bool := match f.body with | .rdata _ _ 31 => true | .adata _ _ 31 => true | _ => false
    let isAck (f : Flit) : Bool := !isBktAck f && match f.body with | .ack _ _ _ => true | .err _ _ _ _ c => c = 31 || c = eventAnswer | _ => false
    (∀ (f : Flit) (tid seq k : Nat) (c : CmbEntry) (q : CmbReq) (l : List CmbReq), fetched (fun g => returnSlot g ≠ 31) f →
      f.body = .rdata tid seq k → (x.rtr.cmb.find? fun e => e.slot = k) = some c → c.reqs = q :: l →
      exec (.combinedReturnCopy t) s = .next (s.setTile t
        (let u := addInject (without f) (c.reqs.map (copyFor q.seq f))
        { u with rtr := { u.rtr with
          cmb := if c.nfl ≤ c.copied + 1 then u.rtr.cmb.filter fun e => e.slot ≠ k
            else u.rtr.cmb.map fun e => if e.slot = k then { e with copied := e.copied + 1 } else e } }))) ∧
    (∀ (f : Flit) (tid seq : Nat) (y : Transfer), fetched isData f → f.body = .rdata tid seq 31 →
      (x.net.find? fun z => z.tid = tid) = some y → y.kind = .pull → seq ∉ y.got →
      exec (.rdataArrive t) s = .next (s.setTile t (setTransfer
        (writeRegion (without f) (region x y.rg) (y.off + 8 * seq) f.data) { y with got := y.got ++ [seq] }))) ∧
    (∀ (f : Flit) (tid : Nat) (y : Transfer), fetched isAck f → (x.net.find? fun z => z.tid = tid) = some y →
      (∀ seq ex, f.body = .ack tid seq ex → seq ∉ y.acked →
        exec (.unitAckArrive t) s = .next (s.setTile t (setTransfer (without f) { y with acked := y.acked ++ [seq] }))) ∧
      (∀ seq c ex, f.body = .err tid seq c ex 31 →
        exec (.unitAckArrive t) s = .next (s.setTile t (setTransfer (without f)
          { y with failed := true, erred := if y.erred.contains seq then y.erred else y.erred ++ [seq] })))) ∧
    (∀ (f : Flit) (tid seq c : Nat) (ex : Bool), fetched isAck f → f.body = .err tid seq c ex eventAnswer →
      exec (.unitAckArrive t) s = .next (s.setTile t (eventRefused (without f)))) ∧
    (∀ (y : Transfer) (l : List Transfer), x.net = y :: l → x.inSends = [] → y.tid < 16 → netDone y = true → netAdvances x y = true →
      exec (.netTransferComplete t y.tid) s = .next (s.setTile t
        (let r := region x y.rg
        let u := if y.kind = .pull then setRegion x y.rg (r.push (netWords y)) else setRegion x y.rg (r.pop (netWords y))
        let v := if y.kind = .pull ∨ netDest y y.rrg = 0 then u
          else setRegion u y.rrg ((region u y.rrg).push (netDest y y.rrg))
        { v with net := x.net.filter fun z => z.tid ≠ y.tid }))) ∧
    (∀ (f : Flit) (g seq src tid : Nat) (v : Tile) (z : InSend), fetched (sendTurn x) f → f.body = .send g seq src tid →
      usable x g 3 true = true → openSend (without f) g src tid seq = some (v, z) →
      exec (.sendFlitArrive t) s = .next (s.setTile t (landSend v z f seq src tid)))

/-- The next flit of a staged block leaves its region for the local input of its descriptor; a router whose inputs all hold the flit
of one key adds them in input order and hands the sum to what OUT leads to, once the slot of that output is its own, taking one
credit and giving one back to each feeder, so that what waits in the crossing buffer of a seam enters the freed slots; heads of
different keys stop the descriptor and are recorded; an acknowledgement is applied at a leaf and copied toward every input, once
the staging regions can honour the advance, and stops a descriptor whose entry is not loaded. That the recorded keys are those of
the heads as Table 8.5 places them is the model's choice (log entry 101). (R239, R275, R277, R279, R283) -/
def Obligations.ReductionAtTiles : Prop :=
  ∀ (t : Nat) (s : State), isTile t = true → s.live (fieldOf t) = true →
    let x := s.tile t
    (∀ (d i k off : Nat) (r : StageRec), d < 256 → redBuf x d 0 = [] → firstStream x d x.rtr.stage = some (i, r, k, off) →
      aheadOk x r = true → injKind x ≠ 1 → (∀ j ∈ rgSpan (region x r.rg) (r.off + 8 * off) 8, goodWord x 6 (some r.rg) j = true) →
      let ws := regionWords x (region x r.rg) (r.off + 8 * off) 8
      exec (.redFlitSend t d) s = .next (s.setTile t
        (let y := setRedBuf x d 0 [{ bucket := r.bucket, block := r.block, off := off, wide := r.wide, mir := k = 1,
                                     mask := flitMask r.wide r.mask off, nf := (redVals r.wide ws).any nonFinite, data := ws, ep := s.activeBank (fieldOf t) }]
        { y with rtr := { y.rtr with stage := setNth x.rtr.stage i (bumpStream r k) } }))) ∧
    (∀ (d : Nat) (a f : RedFlit) (l : List RedFlit), d < 256 → s.canonical = true → d ∉ x.rtr.redStopped → s.redStops t d = false →
      redHeads x d = some (a :: l) → injKind x ≠ 6 → addFlits (a :: l) = some f →
      let port := rdOut (rdesc x d)
      let heads := s.ready t port
      let ds := s.redWants t port
      pickSlot x port heads ds = some (.red d) → injFlit x port = false →
      Map.get (fun _ => 0) x.rtr.redUsed d < vc1Slots (bits (rdesc x d) 7 6) ∧
      exec (.redCombine t d) s = .next
        (let ins := rdInputs (rdesc x d)
        let w := crcPassed (afterSlot x port heads ds (.red d)) port (1024 + d)
        let y := ins.foldl (fun y p => redCrossIn p (crossSize + 1) (setRedBuf y d p ((redBuf y d p).drop 1))) w
        let z := { y with rtr := { y.rtr with
          redUsed := Map.set (fun _ => 0) y.rtr.redUsed d (Map.get (fun _ => 0) y.rtr.redUsed d + 1) } }
        (ins.foldl (fun u p => if p = 0 then u else u.creditAt t p d) ((s.setTile t w).setTile t z)).redDeliver t port d f)) ∧
    (∀ (a : RedFlit) (l : List RedFlit) (d : Nat), d < 256 → redHeads x d = some (a :: l) → (∃ b ∈ l, sameKey a b = false) →
      d ∉ x.rtr.redStopped → ∃ (y : Tile) (r : Rec), exec (.redCombine t d) s = .next ((s.setTile t y).raise r) ∧
        y.rtr.redStopped = x.rtr.redStopped ++ [d] ∧ y.rtr.redKeys = x.rtr.redKeys ++ [(d, (a :: l).map redKeyBits)] ∧
        y.rtr.redIn = x.rtr.redIn ∧ r.source = 0x25 ∧ r.cls = 1 ∧ r.loc = t ∧ r.code = d) ∧
    (∀ f : Flit, x.rtr.arrived.find? (fun f => isBktAck f && !x.rtr.redStopped.contains (bktAckOf f).rdesc &&
        (!(rdInputs (rdesc x (bktAckOf f).rdesc)).contains 0 || ackReady x (bktAckOf f))) = some f →
      let a := bktAckOf f
      let ins := rdInputs (rdesc x a.rdesc)
      let y := { x with rtr := { x.rtr with arrived := x.rtr.arrived.erase f } }
      let copies := ins.filterMap fun p => if p = 0 then none else (neighbour t p).map (bktAckFlit a)
      (bit (rdesc x a.rdesc) 31 = true → 0 ∉ ins → exec (.bucketAckReceive t) s = .next (s.setTile t (addInject y copies))) ∧
      (bit (rdesc x a.rdesc) 31 = true → 0 ∈ ins →
        exec (.bucketAckReceive t) s = .next (s.setTile t (addInject (applyAck y a) copies))) ∧
      (bit (rdesc x a.rdesc) 31 = false → ∃ (z : Tile) (r : Rec), exec (.bucketAckReceive t) s = .next ((s.setTile t z).raise r) ∧
        z.rtr.redStopped = x.rtr.redStopped ++ [a.rdesc] ∧ z.rtr.arrived = x.rtr.arrived ∧ r.source = 0x25 ∧ r.cls = 1 ∧
        r.code = a.rdesc))

/-- A root flit whose record lies in the window is taken into its block and its slot is free again; a relayed one leaves through
OUTLINK with the epoch of that field while a slot there is free and the link is whole; a complete bucket at the head commits and
is acknowledged, a marked one gets the resend verdict first; the retry is decided by what the retry sums equal and recorded
(SOURCE 0x06); an accepted write of SITE_RED_STEP opens the window at the first record. (R279, R282, R289, R290, R291, R294, R295) -/
def Obligations.ReductionAtSites : Prop :=
  ∀ (n : Nat) (s : State), n < 48 →
    let x := s.site n
    (∀ (d j i k : Nat) (f : RedFlit), d < 256 → redFront x d = some (j, f) → d ∉ x.red.stopped →
      s.fieldOwner (fieldOf (linkTile n j).1) = x.owner → bit (siteRdesc x d) 31 = true → rdIn (siteRdesc x d) = j →
      bit (siteRdesc x d) 30 = false → bktFind x f.bucket = some i → x.red.started = true → x.red.head ≤ i → i < x.red.head + 64 →
      streamFor x i d f = some k → rootRepeats x i k f = false →
      exec (.redRootFlit n d) s = .next ((s.setSite n (takeRoot (popVc1 x j d) i k f)).setTile (linkTile n j).1
        (creditBack (s.tile (linkTile n j).1) d))) ∧
    (∀ (d j : Nat) (f : RedFlit), d < 256 → redFront x d = some (j, f) → d ∉ x.red.stopped →
      s.fieldOwner (fieldOf (linkTile n j).1) = x.owner → bit (siteRdesc x d) 31 = true → rdIn (siteRdesc x d) = j →
      bit (siteRdesc x d) 30 = true →
      let out := linkTile n (rdRelay (siteRdesc x d))
      (redBuf (s.tile out.1) d out.2).length < vc1Slots (bits (siteRdesc x d) 27 26) → s.live (fieldOf out.1) = true →
      out.2 ∉ (s.tile out.1).rtr.linkFail → Map.get (fun _ => 0) (s.tile out.1).rtr.edgeBad out.2 = 0 →
      exec (.redRootFlit n d) s = .next
        (let u := (s.setSite n (popVc1 x j d)).setTile (linkTile n j).1 (creditBack (s.tile (linkTile n j).1) d)
        u.setTile out.1 (setRedBuf (u.tile out.1) d out.2 (redBuf (u.tile out.1) d out.2 ++ [{ f with ep := s.activeBank (fieldOf out.1) }])))) ∧
    (let i := x.red.head
      let b := bktGet x i
      x.red.started = true → redDone x = false → bktComplete x i = true → b.unresolved = false → x.upd.stopped = false →
      (b.marked = true → b.decided = false → b.resent = false →
        exec (.bucketCommit n) s = .next ((s.setSite n (bktSet x i { b with resent := true })).sendAcks n [bktAckOut x i true])) ∧
      (b.marked = false → ∀ y m, passAll (s.siteEnv n) i ((commitBlocks b).drop b.passed) { s := x, free := s.free } = (y, m) →
        (commitBlocks b).length ≤ b.passed + m →
        exec (.bucketCommit n) s = .next (((({ s with free := y.free }).setSite n
          { y.s with red := { y.s.red with head := i + 1, bkts := Map.erase y.s.red.bkts i } }).sendAcks n
            [bktAckOut y.s i false]).raiseAll y.recs))) ∧
    (let i := x.red.head
      let b := bktGet x i
      let retr := b.blocks.filter fun r => r.stream = 2 && blkDone x i r
      let same (k : Nat) (r : RedBlk) : Bool := match redBlk b k r.block with | some p => blkEq (bktFlits x i) p r | none => false
      let out : Nat := if retr.all (same 0) then 1 else if retr.all fun r => !siteChosen x i r.block || same 1 r then 2 else 3
      b.resent = true → b.decided = false → b.unresolved = false → bktBlocks x i ≤ retr.length →
      ∃ (y : Site) (r : Rec), exec (.retryDecision n) s = .next ((s.setSite n y).raise r) ∧ r.source = 0x06 ∧ r.loc = siteLoc n ∧
        r.cls = (if out = 3 then 1 else 2) ∧
        y.red = (bktSet x i { b with decided := decide (out ≠ 3), useRetry := decide (out = 2), unresolved := decide (out = 3) }).red) ∧
    (∀ v, s.siteRefused n 0x64 v = none → exec (.siteRedStepWrite true n v) s = .next (s.setSite n
      { x.csrPut 0x64 v with red := { x.red with started := true, head := 0, bkts := [] } }))

/-- A packet of the owner at an edge link joins the queue of the site, or waits parked, while there is room; the oldest request is
served: a clean read returns its words, a whole unit is written and acknowledged, an atomic on a line of the ATOM part returns the
old words and writes the new; a read of a filled window unit also lowers its reader count by RCNT, a fill of an empty one sets it;
the copy engine moves a unit as a fill does. Nothing else changes. That the copy engine is driven by PWIN_FILL is log entry 74,
and that a return flit waits at the site for room of its class log entry 15: readings of the model. (R231, R234, R247, R256, R259,
R264, R265) -/
def Obligations.SiteRequests : Prop :=
  (∀ (t n port : Nat) (r : SiteReq) (rest : List Flit) (s : State), isTile t = true → port ∈ [1, 2, 3, 4] →
      edgePacket t 2 (edgeFlits (s.tile t) port) = some (n, r, rest) →
      (∀ q < port, edgePacket t 2 (edgeFlits (s.tile t) q) = none ∧ edgePacket t 5 (edgeFlits (s.tile t) q) = none) →
      let x := s.site n
      let q := { r with arr := x.m.arrivals }
      let here (m : SiteMem) : State :=
        (s.setTile t (setEdgeFlits (s.tile t) port rest)).setSite n
          (touchMem (s.siteEnv n) (decide (hbmEnd ≤ r.off)) { x with m := { m with arrivals := x.m.arrivals + 1 } })
      arriveCode (s.siteEnv n) x r = none →
      (mustPark x r = false → x.m.queue.length < 2048 →
        exec (.siteRequestArrive t) s = .next (here { x.m with queue := x.m.queue ++ [q] })) ∧
      (mustPark x r = true → x.m.parked.length < 4096 →
        exec (.siteRequestArrive t) s = .next (here { x.m with parked := x.m.parked ++ [q] }))) ∧
    (∀ (n : Nat) (r : SiteReq) (s : State), n < 48 → nextReq (s.site n) = some r → mustPark (s.site n) r = false →
      r.off < hbmEnd ∨ (s.siteEnv n).strav = true →
      let x := touchMem (s.siteEnv n) (decide (hbmEnd ≤ r.off)) (dropReq (s.site n) r)
      let u := r.off / 256
      let clean : Prop := siteInjHit x 3 u = false ∧ Map.get (fun _ => 0) x.m.cacheBad u = 0 ∧
        ∀ b < 4, Map.get (fun _ => []) x.m.bad (4 * u + b) = []
      let back (l : List Flit) (z : Site) : State := l.foldl (fun v f => v.fromSite n r.edge f) (s.setSite n z)
      let data := dataFlits n r (x.words r.off (8 * r.nfl)) 8 r.nfl
      (r.op = 1 → clean → windowOf x u = none → exec (.siteRequestServe n []) s = .next (back data x)) ∧
      (r.op = 1 → clean → ∀ w, windowOf x u = some w → r.rcnt ≤ readers x u →
        exec (.pwinRead n []) s = .next (back data (setReaders x u (readers x u - r.rcnt)))) ∧
      (r.op = 2 → r.nfl = 8 → r.raw = [] → windowOf x u = none →
        exec (.siteRequestServe n []) s = .next (back [ackFlit n r] (storeUnit x r.off (wordsBytes r.data)))) ∧
      (r.op = 2 → r.nfl = 8 → r.raw = [] → ∀ w, windowOf x u = some w →
        exec (.pwinFill { site := n }) s = .next (back [ackFlit n r] (setReaders (storeUnit x r.off (wordsBytes r.data)) u (winDef x w)))) ∧
      (r.op = 3 → r.aop < 5 → windowOf x u = none → (clean ∨ u ∈ x.m.atom) →
        let per := if r.aop = 4 then 4 else 8
        let old := x.words r.off (per * r.nfl)
        exec (.siteRequestServe n []) s = .next (back (dataFlits n r old per r.nfl ++ [ackFlit n r])
          ((touchAtom x u).putWords r.off (atomWords (r.atype = 1) r.aop old r.data))))) ∧
    (∀ (n a b : Nat) (s : State), n < 48 → s.mod.cc.up = true → (s.site n).state = 2 →
      let there (u : Nat) : Prop := 256 * u < hbmEnd ∨ inShare (s.siteEnv n) (256 * u) = true ∧ (s.siteEnv n).strav = true
      there a → there b →
      let x := s.site n
      siteInjHit x 3 a = false → Map.get (fun _ => 0) x.m.cacheBad a = 0 → ((List.range 4).all fun k => (Map.get (fun _ => []) x.m.bad (4 * a + k)).isEmpty) = true →
      let y := storeUnit x (256 * b) (x.bytes (256 * a) 256)
      windowOf x b = windowOf y b →
      (windowOf x b = none → exec (.pwinFill { site := n, copy := some (a, b) }) s = .next (s.setSite n y)) ∧
      (∀ w, windowOf x b = some w → readers x b = 0 →
        exec (.pwinFill { site := n, copy := some (a, b) }) s = .next (s.setSite n (setReaders y b (winDef y w)))))

/-- As the site decrypts its memory, a byte inside a write reads as written and every byte outside it as before (also through the unit
write of a request, which forms the codes anew), whatever key a unit was stored under; words written at an offset read back. What
a unit that nothing has written reads as is the model's choice (log entries 16, 72). (R247, R256, R266) -/
def Obligations.SiteMemoryReads : Prop :=
  ∀ (x : Site) (o : Nat) (l : List Byte), Map.wf (fun _ => 0#8) x.m.mem = true →
    Map.wf (fun _ => 0) x.m.sealed = true →
    let at_ (y : Site) (a : Nat) : Byte := nth 0#8 (y.plainUnit (a / 256)) (a % 256)
    (∀ a, a < o ∨ o + l.length ≤ a → at_ (x.putBytes o l) a = at_ x a ∧ at_ (writeUnit x o l) a = at_ x a) ∧
    (∀ i, i < l.length → at_ (x.putBytes o l) (o + i) = nth 0#8 l i ∧ at_ (writeUnit x o l) (o + i) = nth 0#8 l i) ∧
    (∀ ws : List Word, (x.putWords o ws).words o ws.length = ws) ∧
    (∀ n i, i < n → nth 0#8 (x.bytes o n) i = at_ x (o + i)) ∧
    (∀ y ∈ [x.putBytes o l, writeUnit x o l], Map.wf (fun _ => 0#8) y.m.mem = true ∧ Map.wf (fun _ => 0) y.m.sealed = true)

/-- An accepted command of the job service arms a pull window with the reader count of every unit at RDEF or 0, or disarms it; an
accepted division or owner is stored, and a new owner finds no plaintext of the old: a wipe ends undone, the key of the old owner
goes and that of the new is loaded, and the site is dirty where a partition owned it; a disabled site that holds no request shows
STATE 3, has nothing of its partition in flight and keeps its memory; a loaded key slot shows KVALID and counts KGEN. Nothing else
changes. That keys are loaded and counted so is the model's reading (log entry 128). (R258, R263, R265, R267, R270, R271, R427,
R428) -/
def Obligations.SiteWindowsAndOwner : Prop :=
  ∀ (n : Nat) (s : State), n < 48 →
    let x := s.site n
    Map.wf (regReset siteRegs) x.csr = true →
    (∀ w < 8, ∀ c ∈ [(1, Instr.armFilled true n w), (2, .armEmpty true n w)],
      s.siteRefused n (0x108 + 16 * w) (winWord x w c.1) = none → armable x w = true →
      ∃ y : Site, exec c.2 s = .next (s.setSite n y) ∧ winDef y w = winDef x w ∧ { y with m := x.m, csr := x.csr } = x ∧
        y.m = { x.m with armed := if w ∈ x.m.armed then x.m.armed else x.m.armed ++ [w], count := Map.setMany (fun _ => 0) x.m.count (winBase x w)
                          (List.replicate (winSize x w) (if c.1 = 1 then winDef x w else 0)) }) ∧
    (∀ w < 8, s.siteRefused n (0x108 + 16 * w) (winWord x w 3) = none → w ∈ x.m.armed →
      ∃ y : Site, exec (.disarm true n w) s = .next (s.setSite n y) ∧ { y with m := x.m, csr := x.csr } = x ∧
        y.m = { x.m with armed := x.m.armed.filter (· ≠ w),
                         count := Map.clearRange x.m.count (winBase x w) (winBase x w + winSize x w) }) ∧
    (∀ v, s.siteRefused n 0x40 v = none → exec (.siteScAllocWrite true n v) s = .next (s.setSite n (x.csrPut 0x40 v))) ∧
    (∀ v, s.siteRefused n 0x4 v = none → ∃ y : Site, exec (.siteOwnWrite true n v) s = .next (s.setSite n y) ∧ y.owner = bits v 3 0 ∧
      (y.owner = x.owner → { y with csr := x.csr } = x ∧ ∀ o, o ≠ 0x4 → y.csrWord o = x.csrWord o) ∧
      (y.owner ≠ x.owner →
        let left := decide (x.owner < 8)
        let key := if y.owner < 8 then (s.part y.owner).key else 0
        y.m = { x.m with queue := [], parked := [], armed := [], count := [], atom := [], accum := [], cacheBad := [] } ∧
        y.keys = (let k := if left then Map.set (fun _ => 0) x.keys x.owner 0 else x.keys
          if key = 0 then k else Map.set (fun _ => 0) k y.owner key) ∧
        (left = true → bit (y.csrWord 0x8) x.owner = false) ∧ (key ≠ 0 → bit (y.csrWord 0x8) y.owner = true) ∧
        { y with csr := x.csr, m := x.m, keys := x.keys } = { x with
          wiping := false, wipeStr := false, wipeFor := 15, lastOwn := if left then x.owner else x.lastOwn,
          dirty := left || x.dirty, strDirty := left || x.strDirty } ∧
        ∀ o, o ≠ 0x4 → o ≠ 0x8 → y.csrWord o = x.csrWord o)) ∧
    (x.m.queue = [] → x.m.parked = [] → (s.part x.owner).step = false →
      Map.wf (fun _ => 0#8) x.m.mem = true → Map.wf (fun _ => 0) x.m.sealed = true →
      ∃ y : Site, exec (.siteDisable true n) s = .next (s.setSite n y) ∧ y.state = 3 ∧ (∀ u, y.plainUnit u = x.plainUnit u) ∧
        { y with csr := x.csr, m := x.m, red := x.red, upd := x.upd, exp := x.exp, tempSub := x.tempSub, injUnit := x.injUnit,
                 state := x.state } = x ∧
        { y.m with mem := x.m.mem, bad := x.m.bad, sealed := x.m.sealed, cacheBad := x.m.cacheBad, ueSeen := x.m.ueSeen } =
          { x.m with queue := [], parked := [], armed := [], count := [], atom := [], accum := [] } ∧
        y.red = { x.red with vc1 := [], stopped := [], started := false, bkts := [], held := x.red.held || x.red.started } ∧
        y.upd = { x.upd with bt := [], queue := [], slots := 0, waitSlot := false, fired := [], taints := [], finished := false,
                             partials := [] } ∧
        y.exp = { x.exp with busy := false } ∧ y.tempSub = none ∧
        ∀ o, o ≠ 0x30 → o ≠ 0x614 → y.csrWord o = x.csrWord o) ∧
    (∀ p < 8, (s.part p).key ≠ 0 →
      ∃ y : Site, exec (.keySlotLoad n p) s = .next (s.setSite n y) ∧ y.keys = Map.set (fun _ => 0) x.keys p (s.part p).key ∧
        bit (y.csrWord 0x8) p = true ∧ bits (y.csrWord 0x8) 31 16 = min 65535 (bits (x.csrWord 0x8) 31 16 + 1) ∧
        { y with keys := x.keys, csr := x.csr } = x ∧ ∀ o, o ≠ 0x8 → y.csrWord o = x.csrWord o)

/-- A clean patrol read moves the patrol position on, around its end; a single erroneous symbol of HBM is corrected and logged with
CLASS 2; a memory that has had no request for 1 ms enters self-refresh; a refresh changes no data; a reading sets TEMP, TPEAK and
the level of Table 9.4, entering or leaving level 4 is recorded (SOURCE 0x10, CLASS 4), level 3, level 4 and the end of level 4
are advised, and level 4 with COOLST 0 is reported (notice 8: the numbers of notices are the model's own, log entry 38). That
newly found errors and readings come as operands of the commands is the model's choice (log entries 121, 125). (R244, R250, R251,
R268, R269, R364) -/
def Obligations.SiteCare : Prop :=
  ∀ (n : Nat) (s : State), n < 48 →
    let x := s.site n
    (∀ str : Bool, str = true ∨ bits (x.csrWord 0x10) 2 0 ≠ 4 →
      let k := if str then (s.siteEnv n).share / 256 else hbmEnd / 256
      let i := if str then x.m.strPatrol else x.m.patrol
      let u := i + (if str then strBase / 256 else 0)
      let next := if k ≤ i + 1 then 0 else i + 1
      let step (y : Site) : Site := if str then { y with m := { y.m with strPatrol := next } } else { y with m := { y.m with patrol := next } }
      k ≠ 0 → (∀ b < 4, Map.get (fun _ => []) x.m.bad (4 * u + b) = []) →
      exec (.patrolRead n str []) s = .next (s.setSite n (step x)) ∧
      (∀ sym < 256, ∃ (y : Site) (r : Rec), exec (.patrolRead n str [sym]) s = .next ((s.setSite n y).raise r) ∧
        r.source = (if str then 0x09 else 0x08) ∧ r.cls = 2 ∧ r.addr = n * 2 ^ 42 + u * 256 ∧ y.m.mem = x.m.mem ∧
        (if str then y.m.strPatrol else y.m.patrol) = next)) ∧
    (x.m.queue = [] → x.m.parked = [] → 1000000 ≤ (s.now - x.m.lastStr).toNat → 1000000 ≤ (s.now - x.m.lastHbm).toNat →
      exec (.selfRefreshEntry n true) s = .next (s.setSite n { x with m := { x.m with strRefresh := true } }) ∧
      exec (.selfRefreshEntry n false) s = .next (s.setSite n { x with m := { x.m with selfRefresh := true } })) ∧
    exec (.refresh n) s = .next (s.setSite n x) ∧
    (∀ temp < 256, x.tempSub = none →
      let l := bits (x.csrWord 0x10) 2 0
      let m := thermLevel l temp
      let y := x.csrPut 0x10 (BitVec.ofNat 32 (temp * 2 ^ 16 + max temp (bits (x.csrWord 0x10) 15 8) * 2 ^ 8 + m))
      let adv : Msg := .hostAdvisory x.owner 2 [n, m]
      Map.wf (regReset siteRegs) x.csr = true →
      (l = m → exec (.stackThermalReading n temp) s = .next (s.setSite n y)) ∧
      (l ≠ m → l < 4 → m < 3 → exec (.stackThermalReading n temp) s = .next (s.setSite n y).reportGuar) ∧
      (l < 3 → m = 3 → exec (.stackThermalReading n temp) s = .next ((s.setSite n y).post (min 8 x.owner) adv).reportGuar) ∧
      (l ≤ 4 → ((l = 4) ≠ (m = 4)) → ∃ r : Rec, r.source = 0x10 ∧ r.cls = 4 ∧ r.loc = siteLoc n ∧ r.code = m ∧
        exec (.stackThermalReading n temp) s = .next
          (let u := ((s.setSite n y).raise r).post (min 8 x.owner) adv
          (if m = 4 ∧ bits (u.ez 0x30) 1 0 = 0 then u.post 8 (.notice 8 n) else u).reportGuar))) ∧
    (∀ l t, l ≤ 4 → thermLevel l t ≤ 4 ∧ (105 ≤ t → thermLevel l t = 4) ∧ (t ≤ 82 → thermLevel l t = 0) ∧
      (100 ≤ t → t < 105 → l ≤ 3 → thermLevel l t = 3) ∧ (100 < t → l = 4 → thermLevel l t = 4))

/-- The next record of the list takes its entry, and a carry copies its live half to its shadow half (nothing in lean mode); the first
committed block of a training group writes the new state of its optimizer to the work half (or is freed in a tainted step); a
completed write frees its entry; a site that has finished sends its partial and DSITE gathers with the last; a taint found at a
site reaches DSITE, which takes the first cause. Nothing else changes. What the copy of the masked rows of a guarded update is
formed from is the model's choice (log entry 146), and so is the landing slot that a record takes (log entry 76). (R262, R305,
R306, R309, R310, R319, R321) -/
def Obligations.EngineBlocks : Prop :=
  ∀ (n : Nat) (s : State), n < 48 →
    let x := s.site n
    let b := bindRec x x.upd.next
    let d := s.dsite x.owner
    let u := { x.upd with next := x.upd.next + 1, slots := x.upd.slots + bindTier b, waitSlot := false }
    (mayBind x = true → bindCarry b = false →
      exec (.bindRecord n) s = .next (s.setSite n (btSet { x with upd := u }
        (bindBlock b % 16384) { bind := b, idx := x.upd.next, res := if bindTier b = 0 then 1 else 2, fired := false,
                                slot := if bindTier b = 0 then 0 else freeLanding x }))) ∧
    (mayBind x = true → bindCarry b = true → leanMode x = true →
      exec (.bindRecord n) s = .next (s.setSite n { x with upd := { u with proc := x.upd.proc + 1, slots := x.upd.slots } })) ∧
    (mayBind x = true → bindCarry b = true → leanMode x = false → bindTier b = 0 →
      let y := btSet { x with upd := u } (bindBlock b % 16384) { bind := b, idx := x.upd.next, res := 1, fired := true }
      let live := halfUnit y b (liveHalf y)
      readHalf (s.siteEnv n) (bindGroup b) live { s := y, free := s.free } = ({ s := y, free := s.free }, false) →
      exec (.bindRecord n) s = .next (s.setSite n
        (writeUnits y (256 * halfUnit y b (workHalf y)) (y.bytes (256 * live) (256 * recu y (bindGroup b)))))) ∧
    (∀ k l en blk, x.upd.queue = k :: l → btGet x k = some en → en.got = some blk →
      (tainted x = true →
        exec (.blockUpdate n) s = .next (s.setSite n { btFree x k with upd := { (btFree x k).upd with queue := l } })) ∧
      (tainted x = false → en.res ≠ 2 → x.upd.stopped = false → en.parked = false →
        let g := bindGroup en.bind
        let lu := liveUnit x en
        trains x g = true → grpClip x g = 0 → grpOpt x g ≠ 4 →
        readState (s.siteEnv n) g lu { s := x, free := s.free } = ({ s := x, free := s.free }, false) →
        let live := readParts x g lu
        let new := List.zipWith (fun v old => (optElem (grpOpt x g) (optConst x g) v old).map toF32)
          (blk.vals.map (gradElem x)) (byElem live)
        ∀ y, writeHalf (!leanMode x) x en.bind blk.mask lu (List.range live.length) new = (y, false) → grpClip y g = 0 →
        exec (.blockUpdate n) s = .next (s.setSite n
          (let z := btSet { y with upd := { y.upd with updated := true } } k { en with fired := true }
          { z with upd := { z.upd with queue := l } })))) ∧
    (∀ k en, x.upd.bt.filter (fun e => e.2.fired) = [(k, en)] →
      exec (.updateWriteComplete n) s = .next (s.setSite n { btFree x k with upd := { (btFree x k).upd with
        proc := x.upd.proc + 1, slots := x.upd.slots - bindTier en.bind } })) ∧
    (x.owner < 8 → d < 48 → x.upd.taints = [] → pavState x = 1 → x.upd.finished = false → siteFinished x = true →
      let s1 := s.setSite n { x with upd := { x.upd with finished := true } }
      let y := s1.site d
      let s2 := s1.setSite d { y with upd := { y.upd with partials := Map.set (fun _ => 0#64) y.upd.partials n (ssq x) } }
      exec (.siteFinished n) s = .next (if s2.allFinished x.owner then s2.eachSite x.owner fun z => z.csrField 0x624 3 0 2 else s2)) ∧
    (x.owner < 8 → d < 48 → d ≠ n → s.canonical = true →
      let y := s.site d
      Map.wf (regReset siteRegs) y.csr = true → 1 ≤ pavState y → pavState y ≤ 2 →
      ∀ c l, x.upd.taints = c :: l → c < 16 → tainted y = false →
      ∃ u : State, exec (.taintPropagate n) s = .next u ∧ tainted (u.site d) = true ∧ bits ((u.site d).csrWord 0x624) 23 20 = c ∧
        pavState (u.site d) = pavState y ∧ (u.site n).upd.taints = [] ∧ (u.site n).upd.queue = [] ∧ u.tiles = s.tiles ∧ u.outbox = s.outbox)

/-- DSITE decides on the norm of the step: flip where it is within TAU or nothing is to clip, else fold; a fold that is complete
flips; a completed flip counts the step, changes the live half and has outcome 5; ARM sets every site running, TAINT taints the
step with its cause, CLEAR makes the sites idle; a new DSITE takes over the last step record. That min(1, TAU / N) of c_lag is
rounded once to FP32 is the model's reading (log entry 75). (R319, R322, R323, R324, R328, R329, R331, R339, R476) -/
def Obligations.PavaneStates : Prop :=
  ∀ (p : Nat) (s : State), p < 8 →
    let d := s.dsite p
    let x := s.site d
    let code := toF64 (s.normSq p)
    let s1 := s.setSite d ((x.csrPut 0x640 (code.setWidth 32)).csrPut 0x644 ((code >>> 32).setWidth 32))
    let y := s1.site d
    (d < 48 → pavState x = 2 → nonFinite (s.normSq p) = false →
      (tainted y = true → exec (.pavaneDecide p) s = .next (s1.outcome p (if leanMode y then 7 else 6))) ∧
      (tainted y = false →
        leanMode y = true ∨ ((s1.sitesOf p).all fun n => !(s1.site n).upd.clip1) = true ∨
          withinTau y code = true →
        exec (.pavaneDecide p) s = .next (s1.eachSite p fun z => z.csrField 0x624 3 0 4)) ∧
      (tainted y = false → leanMode y = false → ((s1.sitesOf p).any fun n => (s1.site n).upd.clip1) = true →
        withinTau y code = false →
        exec (.pavaneDecide p) s = .next (s1.eachSite p fun z => (z.csrField 0x624 3 0 3).csrPut 0x648 (tauOver y code)))) ∧
    (∀ n < 48, pavState (s.site n) = 3 → bits ((s.site n).csrWord 0x10) 2 0 ≠ 4 → (s.site n).upd.folded = false →
      let z := s.site n
      (z.upd.fired = [] → exec (.fold n) s = .next (s.setSite n { z with upd := { z.upd with folded := true } })) ∧
      (∀ f, z.upd.fired = [f] →
        let g := bindGroup f.bind
        let lu := halfUnit z f.bind (liveHalf z)
        let wu := halfUnit z f.bind (workHalf z)
        readState (s.siteEnv n) g lu { s := z, free := s.free } = ({ s := z, free := s.free }, false) →
        readUnits (s.siteEnv n) (wu + copyUnits (grpCopy z g) + 16) (16 * slotsOf z g) { s := z, free := s.free } =
          ({ s := z, free := s.free }, false) →
        let sh := readParts z g wu
        let new := List.zipWith (fun l h => (foldElem (grpOpt z g) (optConst z g) (f32 (z.csrWord 0x648)) l h).map toF32)
          (byElem (readParts z g lu)) (byElem sh)
        ∀ v, writeHalf false z f.bind f.mask wu (List.range sh.length) new = (v, false) →
        exec (.fold n) s = .next (s.setSite n { v with upd := { v.upd with folded := true } }))) ∧
    (d < 48 → pavState x = 3 → tainted x = false →
      ((s.sitesOf p).all fun n => (s.site n).upd.folded && (s.site n).upd.taints.isEmpty) = true →
      exec (.foldComplete p) s = .next (s.eachSite p fun z => z.csrField 0x624 3 0 4)) ∧
    (d < 48 → pavState x = 4 →
      exec (.flipComplete p) s = .next ((s.eachSite p fun z =>
        let z1 := (z.csrPut 0x628 (x.csrWord 0x628 + 1)).csrPut 0x64C (s.newLag p)
        if leanMode z then z1 else z1.csrField 0x624 8 8 (1 - pavEpoch z)).outcome p 5)) ∧
    (∀ n < 48, (s.site n).owner = p → s.mod.cc.up = true → s.siteRefused n 0x620 1 = none → s.armBlocked p = none →
      exec (.arm true n) s = .next ((s.eachSite p (armSite x)).setPart p { s.part p with step := true })) ∧
    (∀ n < 48, (s.site n).owner = p → ∀ c ∈ [(2, Instr.taintHalve true n), (3, .taintNoHalve true n)],
      s.siteRefused n 0x620 (BitVec.ofNat 32 c.1) = none →
      ∃ (z : Site) (r : Rec), exec c.2 s = .next (((s.setSite n z).raise r).taintAt p [c.1 + 2]) ∧ z.m = (s.site n).m ∧ z.upd.taints = [] ∧
        r.source = 0x27 ∧ r.cls = 2 ∧ r.code = c.1 + 2 ∧ r.loc = siteLoc n) ∧
    (∀ n < 48, (s.site n).owner = p → s.siteRefused n 0x620 4 = none →
      exec (.clear true n) s = .next (s.eachSite p fun z => z.csrField 0x624 3 0 0)) ∧
    (∀ n, ((s.sitesOf p).find? fun k => (s.site k).state ≠ 3) = some n → d < 48 → d ≠ n → x.state = 3 → s.quiescent p = true →
      pavState x = 0 ∨ 5 ≤ pavState x →
      exec (.dsiteReassign p) s = .next
        (let u := (s.eachSite p fun z => z.csrField 0x600 29 24 n)
        u.setSite n (writeUnit (u.site n) (256 * bits ((u.site n).csrWord 0x650) 27 0) (x.bytes (256 * bits (x.csrWord 0x650) 27 0) 256))))

/-- An accepted start makes the export of the site busy on the live half, from its first entry; a cancel ends it; a complete writes
the records of the entries left, ends it and posts the end with the place and the count; at the end of HBM it stops without.
Nothing else changes. What of the record that reaches the end of HBM is written is the model's choice (log entry 116). (R331,
R332, R333) -/
def Obligations.Exports : Prop :=
  ∀ (n : Nat) (s : State), n < 48 →
    let x := s.site n
    (s.siteRefused n 0x66C 1 = none →
      exec (.exportStart true n) s = .next (s.setSite n { x with exp := { busy := true, half := liveHalf x, step := pavStep x, next := 0, out := 0 } })) ∧
    (s.siteRefused n 0x66C 2 = none →
      exec (.exportCancel true n) s = .next (s.setSite n { x with exp := { x.exp with busy := false } })) ∧
    (x.exp.busy = true →
      let k := bits (x.csrWord 0x664) 19 0
      let y := exportRest (k - x.exp.next) x
      (x.exp.next = k → y = x) ∧
      (y.exp.busy = true →
        exec (.exportComplete n) s = .next ((s.setSite n { y with exp := { y.exp with busy := false } }).post (min 8 x.owner)
          (.hostExported (s.part x.owner).expTag x.owner n (bits (y.csrWord 0x668) 27 0) k))) ∧
      (y.exp.busy = false → exec (.exportComplete n) s = .next (s.setSite n y)))

/-- A command that writes (or reads) a register, sent without the privilege, changes nothing: the answer to its address carries ECODE
0x40 and the refusal is logged with the locator of the unit (a command on a field also reports a guarantee that has changed,
R367). So for the registers of tiles, fields, sites, Halo ports, partitions, the module and the persistent store. That an operand
names the aperture of a register is the model's choice (log entry 91). (R27, R475, R397, R442) -/
def Obligations.PrivilegeNeeded : Prop :=
  ∀ (s : State) (v : Word),
    (∀ t, isTile t = true → ∀ (off d port arg b : Nat), 0x100 ≤ off → off < 0x240 → (regAt tileRegs off).isSome = true → d < 256 →
      ∀ e ∈ [(Instr.tileSrStepWrite false t v, 0x504), (.tileRgWrite false t off v, off), (.hzdCtlWrite false t v, 0x700),
          (.rdescWrite false t d v, 0x1000 + 4 * d), (.tileInjParity false t arg b, 0xB00), (.tileInjAccumulator false t arg b, 0xB00),
          (.tileInjLane false t b, 0xB00), (.tileInjInstrParity false t arg, 0xB00), (.tileInjFlit false t port arg b, 0xB00),
          (.tileInjAdder false t arg b, 0xB00), (.tileInjStoredBits false t arg b, 0xB00), (.tileInjHazard false t arg, 0xB00),
          (.fpSweepStart false t, 0xB18), (.fpSweepStop false t, 0xB18), (.tileReset false t, 0xC00)],
        exec e.1 s = .next (s.refuse (tileAddr t (0xC0000 + e.2)) 0x40 t)) ∧
    (∀ a t off, targetOf true a = .tile t off → ∀ c ∈ [Instr.tileWindowRead false true a, .tileWindowWrite false true a v,
        .registerWrite false true a v], exec c s = .next (s.refuse (tileAddr t off) 0x40 t)) ∧
    (∀ f < 70, ∀ bank < 2, ∀ d < 256,
      (∀ e ∈ [(Instr.routeEntryWrite false f bank d v, 0x1000 + 0x400 * bank + 4 * d), (.epochSwap false f v, 0x10)],
        exec e.1 s = .next (s.refuse (fieldAddr f e.2) 0x40 (fieldLoc f))) ∧
      (∀ c ∈ [Instr.fieldLogicTest false f, .fieldLinkTest false f, .rateCalibration false f, .sensorCheck false f, .fldTestStop false f],
        exec c s = .next (s.refuse (fieldAddr f 0x20) 0x40 (fieldLoc f)).reportGuar)) ∧
    (∀ n < 48, ∀ w < 8, s.mod.cc.up = true → ∀ (unit count temp : Nat),
      ∀ e ∈ [(Instr.siteRedStepWrite false n v, 0x64), (.armFilled false n w, 0x108 + 16 * w), (.armEmpty false n w, 0x108 + 16 * w),
          (.disarm false n w, 0x108 + 16 * w), (.siteScAllocWrite false n v, 0x40), (.siteOwnWrite false n v, 0x4), (.siteDisable false n, 0),
          (.arm false n, 0x620), (.taintHalve false n, 0x620), (.taintNoHalve false n, 0x620), (.clear false n, 0x620),
          (.exportStart false n, 0x66C), (.exportCancel false n, 0x66C), (.siteInjHbm false n unit count, 0x30),
          (.siteInjStratus false n unit count, 0x30), (.siteInjCache false n unit count, 0x30), (.siteInjTemp false n temp, 0x30)],
        exec e.1 s = .next (s.refuse (siteAddr n e.2) 0x40 (siteLoc n))) ∧
    (∀ q < 12, ∀ (off lane count : Nat), 0x1000 ≤ off → off < 0x1400 → off % 4 = 0 →
      ∀ e ∈ [(Instr.haloEnable false q, 0x0), (.haloDisable false q, 0x0), (.haloRetrain false q, 0x0), (.haloWinWrite false q off v, off),
          (.haloInjCrc false q, 0x20), (.haloInjCodewords false q lane count, 0x20), (.haloInjLock false q lane, 0x20)],
        exec e.1 s = .next (s.refuse (portAddr q e.2) 0x40 (portLoc q 0))) ∧
    (∀ f < 70, ∀ c ∈ [Instr.fieldPowerUp false f, .fieldPowerDown false f, .fuseRetest false f],
      exec c s = .next (s.refuse (ezAddr (0x1004 + 0x20 * f)) 0x40 (fieldLoc f)).reportGuar) ∧
    (∀ p < 8, ∀ c ∈ [Instr.partAbort false p, .partReset false p, .partDisable false p, .partEnable false p],
      exec c s = .next (s.refuse (ezAddr (0x4000 + 0x40 * p)) 0x40 (partLoc p))) ∧
    (∀ (w : DWord) (feed value dur f sensor target : Nat), feed < 2 → f < 70 → sensor < 16 → target < 3 →
      (∀ e ∈ [(Instr.cirSet false w, 0x3008), (.modAbort false, 0x4400), (.moduleReset false, 0x4404),
          (.ezInjFeedVoltage false feed value dur, 0x7000), (.ezInjSensorReading false f sensor value dur, 0x7000),
          (.ezInjSensorInvalid false f sensor dur, 0x7000), (.ezInjCoolant false target value dur, 0x7000)],
        exec e.1 s = .next (s.refuse (ezAddr e.2) 0x40 (feedLoc 2))) ∧
      (∀ c ∈ [Instr.ezInjStageFault false f, .ezInjPhaseError false f value dur],
        exec c s = .next (s.refuse (ezAddr 0x7000) 0x40 (feedLoc 2)).reportGuar)) ∧
    (∀ (a : Nat) (w : Word), 0x7801000000 ≤ a → a < 0x7802000000 →
      exec (.pregWrite false a v w) s = .next (s.refuse a 0x40 (feedLoc 2)))

/-- With the privilege, on a tile that the wafer bridge reaches both ways: TILE_SR_STEP takes the step, the ordinals begin anew and
the sampling rate takes effect; a region descriptor register is written and its cursor cleared while the partition is quiescent;
HZD_CTL takes its enables under the debug policy; RTR_RDESC takes an admitted value; a window write reaches a scratchpad word or
an instruction word and sets its parity, a read returns the word; TILE_RST resets the tile. Nothing else changes. That an operand
names the aperture of an access is the model's choice (log entry 91). (R27, R100, R122, R136, R148, R210, R227, R281, R469, R472) -/
def Obligations.TileRegisterWrites : Prop :=
  ∀ (t : Nat) (s : State) (v : Word), isTile t = true → s.ctlCode t = none → s.ctlReturns t = true →
    let x := s.tile t
    let p := s.tilePart t
    let zero : Tile := csrPut (csrPut (csrPut x 0x504 v) 0x50C 0) 0x510 0
    (s.quiescent p = true → exec (.tileSrStepWrite true t v) s = .next (s.setTile t
      { zero with lpcOrd := 0, rate := bits (csrWord zero 0x604) 3 0, rtr := { zero.rtr with staged := [] } })) ∧
    (∀ off, 0x100 ≤ off → off < 0x240 → (regAt tileRegs off).isSome = true → s.quiescent p = true →
      let r := rgAfter (region x (rgOf off)) off v
      r.ver = 0 ∨ (r.valid = true ∧ r.prod < 5 ∧ r.cons < 5) →
      exec (.tileRgWrite true t off v) s = .next (s.setTile t (setRegion x (rgOf off) { r with cursor := 0 }))) ∧
    (p < 8 → (s.part p).debug = true → bit v 1 = bit (csrWord x 0x700) 1 ∨ s.quiescent p = true →
      ∃ w : Word, exec (.hzdCtlWrite true t v) s = .next (s.setTile t (csrPut x 0x700 w)) ∧ bit w 1 = bit v 1 ∧
        bit w 2 = (bit (csrWord x 0x700) 2 && !bit v 2)) ∧
    (∀ d < 256, s.quiescent p = true → rdescBad v = false →
      ∃ w : Word, exec (.rdescWrite true t d v) s = .next (s.setTile t (csrPut x (0x1000 + 4 * d) w)) ∧
        w &&& 0xFFFFFFC0 = v &&& 0xFFFFFFC0) ∧
    (s.quiescent p = true → bit (csrWord x 0xB18) 2 = false → exec (.tileReset true t) s = .next (s.setTile t (tileResetDo x))) ∧
    (∀ a off, targetOf true a = .tile t off → off % 4 = 0 →
      (off < 0x60000 →
        exec (.tileWindowWrite true true a v) s = .next (s.setTile t (writePhys x (off / 4) v)) ∧
        exec (.registerWrite true true a v) s = .next (s.setTile t (writePhys x (off / 4) v)) ∧
        (goodWord x 6 none (off / 4) = true → injKind x ≠ 1 →
          exec (.tileWindowRead true true a) s = .next ((s.setTile t x).say (.readData (tileAddr t off)
            (Map.get (fun _ => 0#32) x.spd (off / 4)))))) ∧
      (0x80000 ≤ off → off < 0x88000 →
        exec (.tileWindowWrite true true a v) s =
          .next (s.setTile t { x with istore := Map.set (fun _ => 0#32) x.istore ((off - 0x80000) / 4) v,
                                      ipar := Map.set (fun _ => 0) x.ipar ((off - 0x80000) / 4) 0 }) ∧
        exec (.tileWindowRead true true a) s =
          .next (s.say (.readData (tileAddr t off) (Map.get (fun _ => 0#32) x.istore ((off - 0x80000) / 4))))) ∧
      (0xC0000 ≤ off → (regAt tileRegs (off - 0xC0000)).isSome = true →
        exec (.tileWindowRead true true a) s =
          .next (s.say (.readData (tileAddr t off) (csrRead (s.tileEnv t) x (off - 0xC0000))))))

/-- The window address of a tile, a field, a site, a port and a register of the module leads back to that unit and offset, for every
offset of the window; the addresses of one aperture are none of the other. (R399) -/
def Obligations.ApertureMap : Prop :=
  (∀ t off, isTile t = true → off < 0x100000 → targetOf true (tileAddr t off) = .tile t off) ∧
    (∀ f off, f < 70 → off < 0x40000000 → targetOf true (fieldAddr f off) = .field f off) ∧
    (∀ n off, n < 48 → off < 0x10000000 → targetOf false (siteAddr n off) = .site n off) ∧
    (∀ q off, q < 12 → off < 0x1000000 → targetOf false (portAddr q off) = .port q off) ∧
    (∀ off, off < 0x1000000 → targetOf false (ezAddr off) = .ezper off) ∧
    (∀ a i o, targetOf false a ≠ .tile i o ∧ targetOf false a ≠ .field i o ∧ targetOf true a ≠ .site i o ∧ targetOf true a ≠ .port i o ∧
      targetOf true a ≠ .ezper o ∧ targetOf true a ≠ .preg o)

/-- An entry of the bank that is not selected takes an admitted value (entries 0x46 and above ignore it); a write of the epoch
register selects the bank and sets ROUTED of a field that is on; with no flit of the other epoch left, the recomputation gives
every field that is on the entries of R228 for every destination, and selects the bank it wrote; a swap whose old and new routes
allow a cycle of waits is held until no flit is left; tiles and sites are as before. Which set of routes is taken where there are
holes (log entries 45, 130) and when a held swap ends (log entry 97) is the model's choice. (R35, R226, R227, R228, R229) -/
def Obligations.Routes : Prop :=
  ∀ s : State,
    (∀ f < 70, ∀ d < 256, ∀ v : Word, let bank := 1 - s.activeBank f
      (0x46 ≤ d → exec (.routeEntryWrite true f bank d v) s = .next s) ∧
      (d < 0x46 → s.anyOld = false → (bits v 19 16 ≤ 4 ∨ bits v 19 16 = 15) → (bits v 15 12 ≤ 4 ∨ bits v 15 12 = 15) →
        exec (.routeEntryWrite true f bank d v) s = .next
          (s.setField f ((s.field f).csrPut (0x1000 + 0x400 * bank + 4 * d) (v &&& 0x03FFF800))))) ∧
    (∀ f < 70, ∀ v : Word, exec (.epochSwap true f v) s =
      .next (s.setField f { (s.field f).csrField 0x10 0 0 (bits v 0 0) with
        routed := (s.field f).routed || decide ((s.field f).power = 2) }).xmasks) ∧
    (s.mod.cc.up = true → s.mod.cc.swap = true →
      (s.flitsLeft = true → exec .routeRecompute s = .next s.putXmask) ∧
      (s.flitsLeft = false → exec .routeRecompute s = .next s.putXmask.finishSwap)) ∧
    (s.mod.cc.up = true → s.mod.cc.swap = false → s.anyOld = false → s.canonical = true →
      let kept := s.routeSet.1
      let r := s.routeSet.2
      let main := mainGroup kept
      let bank := 1 - s.epochBank
      (∀ f ∈ List.range 70, (s.field f).power ≠ 2 ∨ f ∈ main ∨ (s.field f).unreach = true) → s.swapCycles kept r = false →
      ∃ u : State, exec .routeRecompute s = .next u ∧ u.tiles = s.tiles ∧ u.sites = s.sites ∧ u.ports = s.ports ∧ u.now = s.now ∧
        ∀ f, f < 70 → (s.field f).power = 2 →
          u.activeBank f = bank ∧ (u.field f).routed = true ∧ (u.field f).power = 2 ∧ (u.field f).unreach = decide (f ∉ main) ∧
          ∀ d < 70, u.rtEntry f bank d = s.routeEntry kept r (nth [] (allHops kept) d) f d)

/-- Where R446 admits it, an injection of a tile is armed with its kind and argument (kind 7 flips two stored bits at once); one of a
site is armed for its unit, one of a stack temperature takes the place of the readings until it expires; one of a port is armed,
or acts at once on its lane; one of the module is armed with its duration (kind 4 opens the fuse), and expires. Nothing else
changes. That ARG, UNIT and the duration are written before KIND is the model's choice (log entry 87). (R446, R447, R448, R449,
R450) -/
def Obligations.Injections : Prop :=
  ∀ s : State,
    (∀ (t arg b port : Nat), isTile t = true → s.ctlCode t = none → s.ctlReturns t = true → s.injectable (s.tilePart t) = true → s.canonical = true →
      arg < 2 ^ 17 → b < 32 → 1 ≤ port → port ≤ 4 →
      let x := s.tile t
      (∀ e ∈ [(Instr.tileInjParity true t arg b, 1), (.tileInjAccumulator true t arg b, 2), (.tileInjFlit true t port arg b, 5),
          (.tileInjAdder true t arg b, 6)],
        ∃ c : Map Word, exec e.1 s = .next (s.setTile t { x with csr := c }) ∧ injKind { x with csr := c } = e.2 ∧
          injArg { x with csr := c } = arg ∧ injBit { x with csr := c } = b) ∧
      (∃ c : Map Word, exec (.tileInjLane true t b) s = .next (s.setTile t { x with csr := c }) ∧ injKind { x with csr := c } = 3 ∧
        injBit { x with csr := c } = b) ∧
      (∃ c : Map Word, exec (.tileInjInstrParity true t arg) s = .next (s.setTile t { x with csr := c }) ∧ injKind { x with csr := c } = 4 ∧
        injArg { x with csr := c } = arg) ∧
      (s.tilePart t < 8 → (s.part (s.tilePart t)).debug = true → ∃ c : Map Word, exec (.tileInjHazard true t arg) s =
        .next (s.setTile t { x with csr := c }) ∧ injKind { x with csr := c } = 8 ∧ injArg { x with csr := c } = arg) ∧
      (arg < 98304 → ∃ y : Tile, exec (.tileInjStoredBits true t arg b) s = .next (s.setTile t y) ∧ { y with csr := x.csr, spd := x.spd, injWord := x.injWord } = x ∧
        y.spd = Map.set (fun _ => 0#32) x.spd arg (Map.get (fun _ => 0#32) x.spd arg ^^^ BitVec.ofNat 32 (2 ^ b + 2 ^ (b ^^^ 1))) ∧
        y.injWord = some (arg, Map.get (fun _ => 0#32) x.spd arg ^^^ BitVec.ofNat 32 (2 ^ b + 2 ^ (b ^^^ 1))) ∧ injKind y = 0)) ∧
    (∀ (n unit count temp : Nat), n < 48 → s.canonical = true →
      s.injectable (s.site n).owner = true → unit < 2 ^ 28 → 1 ≤ count → count ≤ 2 → temp < 256 →
      let x := s.site n
      (∀ e ∈ [(Instr.siteInjHbm true n unit count, 1), (.siteInjStratus true n unit count, 2), (.siteInjCache true n unit count, 3)],
        ∃ c : Map Word, exec e.1 s = .next (s.setSite n { x with csr := c }) ∧
          siteInjHit { x with csr := c } e.2 unit = true ∧ bits ({ x with csr := c }.csrWord 0x30) 27 26 = count) ∧
      (∃ c : Map Word, exec (.siteInjTemp true n temp) s = .next (s.setSite n { x with csr := c, tempSub := some temp }) ∧
        bit ({ x with csr := c }.csrWord 0x30) 31 = true ∧ bits ({ x with csr := c }.csrWord 0x30) 30 28 = 0) ∧
      (exec (.siteInjTempExpiry n) s = .next (s.setSite n
        (if x.tempSub.isSome then { x.csrField 0x30 30 28 0 with tempSub := none } else x)))) ∧
    (∀ (q lane count : Nat), q < 12 → lane < 9 → 1 ≤ count → count < 256 → s.injectable (s.portOwner q) = true →
      ∃ w : Word → Word, let armed (v : Word) : State := s.setPort q ((s.port q).csrPut 0x20 (w v))
      exec (.haloInjCrc true q) s = .next (armed (haloInjWord 1 0 0)) ∧
      exec (.haloInjCodewords true q lane count) s = .next ((armed (haloInjWord 2 lane count)).portInject q (haloInjWord 2 lane count)) ∧
      exec (.haloInjLock true q lane) s = .next ((armed (haloInjWord 3 lane 0)).portInject q (haloInjWord 3 lane 0)) ∧
      bits (w (haloInjWord 1 0 0)) 30 28 = 1) ∧
    (∀ (f sensor target feed value dur : Nat), Map.wf (regReset modRegs) s.mod.csr = true → f < 70 → sensor < 16 → target < 3 → feed < 2 →
      (∀ e ∈ [(Instr.ezInjFeedVoltage true feed value dur, 1, feed, 0, value), (.ezInjSensorReading true f sensor value dur, 2, f, sensor, value),
          (.ezInjSensorInvalid true f sensor dur, 3, f, sensor, 0), (.ezInjCoolant true target value dur, 6, target, 0, value)],
        s.ezInjectable e.2.1 e.2.2.1 = true →
        exec e.1 s = .next ((s.ezPut 0x7004 (BitVec.ofNat 32 dur)).ezPut 0x7000 (BitVec.ofNat 32
          (2 ^ 31 + e.2.1 * 2 ^ 27 + e.2.2.1 % 128 * 2 ^ 20 + e.2.2.2.1 % 16 * 2 ^ 16 + e.2.2.2.2 % 65536)))) ∧
      (s.ezInjectable 5 f = true → exec (.ezInjPhaseError true f value dur) s = .next ((s.ezPut 0x7004 (BitVec.ofNat 32 dur)).ezPut 0x7000
        (BitVec.ofNat 32 (2 ^ 31 + 5 * 2 ^ 27 + f * 2 ^ 20 + value % 65536))).reportGuar) ∧
      (s.ezInjectable 4 f = true → ∃ u : State, u.tiles = s.tiles ∧ u.parts = s.parts ∧ u.fields = s.fields ∧
        exec (.ezInjStageFault true f) s = .next (u.fuseOpen f true).reportGuar)) ∧
    exec .ezInjExpiry s = .next (s.ezField 0x7000 31 31 0)

/-- While RUN is clear a sweep starts on a tile with resident groups (NGRP, all for 0), a stop clears BUSY; a checked group whose
fingerprint is that of the image is counted, CURSOR moves on. A test that the field and the power budget admit shows BUSY and its
KIND; a stop leaves RESULT 3; its completion RESULT 1, or 2 where a tile failed (it is named) or a sensor disagrees (it is
marked); a march of a dirty unowned site leaves its memory zero and is noted. Nothing else changes. What a sensor check and a
march answer, and that a sweep reads the image in the command that checks the group, is the model's choice (log entries 83, 84).
(R452, R453, R454, R457, R458, R459, R460) -/
def Obligations.SelfTests : Prop :=
  (∀ (t : Nat) (s : State), isTile t = true → s.canonical = true →
    let x := s.tile t
    (s.ctlCode t = none → s.ctlReturns t = true → runBit x = false →
      (fpGroups x ≠ [] → bit (csrWord x 0xB18) 2 = false →
        ∃ c : Map Word, bit (csrWord { x with csr := c } 0xB18) 2 = true ∧ bits (csrWord { x with csr := c } 0xB18) 31 24 = bits (csrWord x 0xB18) 31 24 ∧
          exec (.fpSweepStart true t) s = .next (s.setTile t
            (let n := bits (csrWord x 0xB18) 31 24
            { x with csr := c, fpLeft := (if n = 0 then (fpGroups x).length else n) }))) ∧
      (∃ c : Map Word, bit (csrWord { x with csr := c } 0xB18) 2 = false ∧
        exec (.fpSweepStop true t) s = .next (s.setTile t { x with csr := c, fpLeft := 0 }))) ∧
    ((s.field (fieldOf t)).power = 2 → runBit x = false → bit (csrWord x 0xB18) 2 = true →
      let k := bits (csrWord x 0xB18) 23 8 % (fpGroups x).length
      ∀ g u, (fpGroups x)[k]? = some g → s.fpCheck t g = (u, true) → 1 < (u.tile t).fpLeft →
        exec (.fpGroupCheck t) s = .next (u.setTile t
          (csrField { u.tile t with fpLeft := (u.tile t).fpLeft - 1 } 0xB18 23 8 ((k + 1) % (fpGroups x).length)))) ∧
    (∀ (g : FpGroup) (s1 s2 : State) (b : List Byte) (hit : Bool), s.fpPull t g.sumAt 8 = (s1, some b) → s1.fpMatches t g (ofLeBytes b) = (s2, true, hit) →
      s.fpCheck t g = (s2.setTile t (fpCounted (s2.tile t)), true))) ∧
    (∀ (s : State),
    (∀ f < 70, testBusy (s.field f) = false →
      (∀ e ∈ [(1, Instr.fieldLogicTest true f), (2, .fieldLinkTest true f), (3, .rateCalibration true f)],
        s.testable f = true → s.testAllowed f = true →
        exec e.2 s = .next (s.setField f ((s.field f).csrPut 0x20 (BitVec.ofNat 32 (e.1 * 2 ^ 24 + 4)))).reportGuar) ∧
      exec (.sensorCheck true f) s = .next (s.setField f ((s.field f).csrPut 0x20 (BitVec.ofNat 32 (4 * 2 ^ 24 + 4)))).reportGuar) ∧
    (∀ f < 70, exec (.fldTestStop true f) s = .next (s.setField f
      (if testBusy (s.field f) then ((s.field f).csrField 0x20 2 2 0).csrField 0x20 15 12 3 else s.field f)).reportGuar) ∧
    (∀ f < 70, testBusy (s.field f) = true →
      let x := s.field f
      let ended (r : Nat) : Field := (x.csrField 0x20 2 2 0).csrField 0x20 15 12 r
      (∀ k, bits (x.csrWord 0x20) 27 24 = k → k = 2 ∨ k = 3 →
        exec (.fldTestComplete f none []) s = .next (s.setField f (ended 1)) ∧
        ∀ u c r, 1 ≤ u → u ≤ 6 → c < 36 → r < 48 → exec (.fldTestComplete f (some (u, c, r)) []) s =
          .next (s.setField f { (ended 2).csrPut 0x24 (BitVec.ofNat 32 (2 ^ 31 + u * 2 ^ 28 + c * 2 ^ 16 + r * 2 ^ 10)) with reserve := false })) ∧
      (bits (x.csrWord 0x20) 27 24 = 4 →
        exec (.fldTestComplete f none []) s = .next (s.setField f { ended 1 with sensed := true }) ∧
        ∀ i < 16, i ∉ x.marked →
          exec (.fldTestComplete f none [i]) s = .next (s.setField f { ended 2 with sensed := true, marked := x.marked ++ [i] }))) ∧
    (∀ n < 48, let x := s.site n
      s.mod.cc.up = true → x.dirty = true → x.owner = 15 → x.wiping = false → x.state = 2 →
      exec (.siteMemoryMarch n []) s = .next (s.setSite n (zeroMemory 0 hbmEnd 1 { x with marched := true }))))

/-- A hard-fault record of an accumulator comparison makes its tile suspect and, outside the bypassed column, marks its field to be
re-spared; a marked field that is off takes the map with the new bypassed column, and is powered again; a change of the map is
journalled and written, once a change that the journal still holds is complete, and one cut short stands in the journal; an
accepted word of the persistent store is stored and its writes counted; a suspicion lapses after 24 h. The order of a re-spare
(log entry 81), ORIGIN of the entries that it rewrites (60), the operand that cuts a change short (104) and the order of two
changes (149) are the model's choices. (R28, R32, R41, R455, R456, R461) -/
def Obligations.Judgements : Prop :=
  ∀ (s : State), s.mod.cc.up = true →
    (∀ (r : LogRec) (n k : Nat), (s.mod.log.ring.find? fun x => x.2.seqno = n) = some (k, r) → r.loc < 2 ^ 28 → r.source = 0x02 → r.cls = 1 →
      r.phys / 1728 < 70 → (s.field (r.phys / 1728)).power = 2 →
      exec (.errorRecordJudge n) s = .next ((s.suspectTile r.phys 0x02 r.time).judgeBad r.phys 2)) ∧
    (∀ (phys cause : Nat), let f := phys / 1728
      f < 70 → s.good f = true → bits (s.mapEntry f (phys % 1728)) 31 29 ≠ 2 → (s.field f).respare = [] → s.spareUsed f = false →
      phys % 36 ≠ bits (s.mapSum f) 5 0 → (s.judgeBad phys cause) = s.setField f { s.field f with
        respare := [(phys % 1728, cause)], reserve := false }) ∧
    (∀ f < 70, ∀ (y : Nat × Nat) (l : List (Nat × Nat)), (s.field f).respare = y :: l → (s.field f).power = 0 → s.good f = true →
      s.quiescent (s.fieldOwner f) = true → (s.field f).retire = false →
      let u := (s.setField f { s.field f with respare := [], retire := false }).respareTo f (y.1 % 36) (y :: l)
      exec (.fieldRespare f) s = .next (if (u.fieldCmdBad f 1).isNone then u.fieldCmd f 1 else u).reportGuar) ∧
    (∀ f < 70, ∀ (i : Nat) (w : Word) (bad byp : Nat), i < 1728 → bits w 31 29 ≠ 5 → bad < 256 → byp < 64 →
      let s0 := s.closeJournal
      bits (s0.mapSum f) 7 6 = 0 →
      let sum := BitVec.ofNat 32 (min 0xFFFF (bits (s0.mapSum f) 31 16 + 1) * 2 ^ 16 + bad * 2 ^ 8 + byp)
      let o := 4 * (1728 * f + i)
      let e := w &&& pregMask o
      let after := ((List.range 1728).map fun k => if k = i then e else s0.mapEntry f k)
      let all : List MapWord := [{ idx := i, val := e }, { idx := 1728, val := sum }, { idx := 1729, val := entriesCrc after }]
      let begun := s0.updMod fun m => { m with cc := { m.cc with journal := all, journalField := some f, journalOpen := true } }
      exec (.tmapChange f [{ idx := i, val := w }] bad { col := byp }) s = .next
        ((((begun.pregPut o e e).pregPut (0x80000 + 8 * f) sum sum).pregPut (0x80004 + 8 * f) (entriesCrc after) (entriesCrc after)).setJournal false) ∧
      exec (.tmapChange f [{ idx := i, val := w }] bad { col := byp, cut := some 1 }) s = .next (begun.pregPut o e e).powerLost) ∧
    (∀ (o : Nat) (v back : Word), o < 0x80000 → pregExists o = true → s.wear o + 1 ≤ 1000000 →
      exec (.pregWrite true (0x7801000000 + o) v back) s = .next (s.pregPut o v back) ∧
      (s.wear o + 1 ≠ 900000 → s.pregPut o v back = s.updMod fun m => { m with
        preg := Map.set factoryWord m.preg o (v &&& pregMask o)
        wear := Map.set (fun _ => 0) m.wear o (Map.get (fun _ => 0) m.wear o + 1) })) ∧
    (∀ phys, exec (.suspicionLapse phys) s = .next (s.updMod fun m => { m with cc := { m.cc with suspects := (m.cc.suspects.filter fun x =>
      x.phys ≠ phys || (x.hits.any fun h => decide (s.now.toNat < h.2.toNat + 24 * 3600 * 1000000000))) } }))

/-- A host whose session is bound to the partition that its message names (over a Halo port, while the partition owns the port): a
manifest that passes every check is loading with MSEQ written (a failing one is refused for its reason); when all is written and
the windows of its fields can be reached STATE is 2 and the host learns digests, placement and guarantee under the TAG of its
SUBMIT; RUN starts the run in STATE 2; HALT stops it after the running step; ABORT of a running partition requests the abort with
ACAUSE 1 and joins those to be answered (a quiescent one is answered as it stands, a load is stopped); TAINT writes the taint at
DSITE. A message for another partition is refused. The model's choices: a manifest that comes parsed (log entry 119), the SOURCE
of the record of a binary tuned for the other stepping, a free value (log entry 158), HALT answered at once (log entry 23), and
ABORT of a partition with nothing to abort (log entry 25). (R320, R405, R406, R407, R413) -/
def Obligations.HostRuns : Prop :=
  ∀ (s : State), s.mod.cc.up = true → s.canonical = true →
    (∀ p < 8, ∀ m, (s.part p).state = 5 → (s.part p).job = some m →
      let u := s.loadManifest p m (s.part p).bins
      let fmap := if m.fmap.isEmpty then List.range 70 else m.fmap
      ((s.part p).bins.all fun b => (mappedFields b fmap).all fun f => s.live f && s.reachable f) = true →
      exec (.loaded p) s = .next ((u.setPart p { u.part p with
        state := 2, fmap := fmap, run := none, phase := 0, rollouts := 0, exportDue := false, defers := 0, srateUp := 0, fails := 0,
        waiting := false, release := false }).say (.hostLoaded (s.part p).loadTag p (m.bins.map (·.digest)) fmap (u.guarantee p)))) ∧
    (∀ (h : Hdr) (x : Session), (s.mod.cc.sessions.find? fun y => y.id = h.session) = some x →
      (∀ i : Nat, x.port = some i → (s.port i).ether = true ∧ (s.port i).state = 2) →
      let p := h.part
      let q := s.part p
      let mine : Prop := x.part = p ∧ ∀ i : Nat, x.port = some i → s.portOwner i = p
      (¬ mine → exec (.status h) s = .next ((s.say (.hostRefused h.tag p 2 0 0 0)).raise
        { source := 0x24, cls := 3, loc := partLoc (min 15 p), code := 0x44 })) ∧
      (mine →
        (∀ m : Manifest, s.mod.ready = true →
          (∀ r c k i, s.manifestBad p m = some (r, c, k, i) → exec (.submit h m) s = .next (s.say (.hostRefused h.tag p r c k i))) ∧
          (s.manifestBad p m = none →
            let bins := (s.readBins p m).filterMap id
            let hi := BitVec.ofNat 32 (m.mseq / 2 ^ 32)
            let lo := BitVec.ofNat 32 m.mseq
            let u := (s.pregPut (0x90104 + 8 * p) hi hi).pregPut (0x90100 + 8 * p) lo lo
            let v := u.setPart p { u.part p with state := 5, job := some m, bins := bins, run := none, loadTag := h.tag }
            exec (.submit h m) s = .next (if bins.any (tunedElse s.mod.b0) = true then
              v.raise { source := Config.recordSource 0, cls := 4, loc := partLoc p } else v))) ∧
        (∀ r : RunReq, q.state = 2 → q.job.isSome = true → q.run = none → r.bin < q.bins.length →
          exec (.run h r) s = .next ((s.setPart p { q with run := some { req := r }, state := 3, fails := 0, waiting := false }).say
            (.hostAccepted h.tag p (q.inv + 1)))) ∧
        (∀ r, q.run = some r → q.busy = true → exec (.halt h) s = .next
          (let u := s.setPart p { q with run := some { r with halt := true } }
          u.say (u.statusMsg p h.tag))) ∧
        (q.state ≠ 5 → s.quiescent p = false ∨ q.state = 4 → exec (.abort h) s = .next (let u := s.requestAbort p 1
          u.setPart p { u.part p with atags := (u.part p).atags ++ [h.tag] })) ∧
        (q.state = 5 → exec (.abort h) s = .next (let u := s.requestAbort p 1
          u.say (.hostAborted h.tag p (u.part p).acause (u.part p).state (u.stepRecord p)))) ∧
        (s.quiescent p = true → q.state ≠ 4 → q.state ≠ 5 →
          exec (.abort h) s = .next (s.say (.hostAborted h.tag p q.acause q.state (s.stepRecord p)))) ∧
        (s.dsite p < 48 → ∀ halve : Bool, exec (.taint h halve) s = .next
          (let u := s.siteWrite true (s.dsite p) 0x620 (if halve then 2 else 3)
          u.say (u.statusMsg p h.tag)))))

/-- Over its session a host makes an export due at the next step boundary, learns the status, has a quiescent job unloaded (STATE 1; 6
of a disabled partition), sets the power cap not below the floor of its partition, and writes memory of it (data elsewhere is
refused and logged). A session opens for the partition of a registered certificate or of an Ethernet port. An acknowledged event
whose answer finds a way to its tile lets the tile go on, and reaches the host. The model's choices: an export due with no run
starts at once (log entry 24), a disabled partition keeps STATE 6 (log entry 148), a session over a Halo port (log entry 89), and
the answer to an event along the loaded routes (log entry 100). (R331, R369, R400, R404, R406, R424, R158) -/
def Obligations.HostRequests : Prop :=
  ∀ (s : State), s.mod.cc.up = true → s.canonical = true →
    (∀ (h : Hdr) (x : Session), (s.mod.cc.sessions.find? fun y => y.id = h.session) = some x → x.part = h.part →
      (∀ i : Nat, x.port = some i → (s.port i).ether = true ∧ (s.port i).state = 2 ∧ s.portOwner i = x.part) →
      let p := h.part
      let q := s.part p
      (q.run.isSome = true → exec (.exportMsg h) s = .next (s.setPart p { q with exportDue := true, expTag := h.tag })) ∧
      (q.run = none → s.exporters p = [] → exec (.exportMsg h) s = .next (s.setPart p { q with exportDue := false, defers := 0, expTag := h.tag })) ∧
      exec (.status h) s = .next (s.say (s.statusMsg p h.tag)) ∧
      (q.job.isSome = true → q.run = none → q.state = 2 ∨ q.state = 6 → s.quiescent p = true → exec (.release h) s = .next (s.setPart p { q with
        job := none, bins := [], fmap := [], run := none, state := if q.state = 6 then 6 else 1, phase := 0, rollouts := 0, exportDue := false,
        defers := 0, srateUp := 0, fails := 0, waiting := false, release := false })) ∧
      (∀ cap : Nat, let c := min cap (s.conf p).maxCap
        let least := 66 * (s.fieldsOf p).length + 50 * (s.sitesOf p).length
        (c < least → exec (.cap h cap) s = .next (s.say (.hostRefused h.tag p 9 0 0 0))) ∧
        (least ≤ c → exec (.cap h cap) s = .next (let u := s.ezField (0x2000 + 0x40 * p) 15 0 c
          u.say (u.statusMsg p h.tag)))) ∧
      (∀ (a : Nat) (l : List Byte), l.length + 8 ≤ 2 ^ 20 →
        (s.holds p a l.length = true → exec (.put h a l) s = .next (let u := s.memPut a l
          u.say (u.statusMsg p h.tag))) ∧
        (s.holds p a l.length = false → exec (.put h a l) s = .next ((s.say (.hostRefused h.tag p 3 0 0 0)).raise
          { source := 0x24, cls := 3, loc := partLoc p, code := 0x10, addr := a })))) ∧
    (let id := s.mod.cc.nextSession
      let opened (p : Nat) (port : Option Nat) : State := (s.updMod fun m => { m with cc := { m.cc with
        sessions := m.cc.sessions ++ [{ id := id, part := p, port := port }]
        nextSession := id + 1 } }).say (.sessionOpen id p)
      (∀ cert port p : Nat, 12 ≤ port → cert ≠ 0 →
        ((List.range 8).find? fun k => (s.conf k).known && decide ((s.conf k).cert = cert)) = some p →
        exec (.hostSessionOpen cert port) s = .next (opened p none)) ∧
      (∀ cert port : Nat, port < 12 → (s.port port).ether = true → (s.port port).state = 2 → s.portOwner port < 8 →
        exec (.hostSessionOpen cert port) s = .next (opened (s.portOwner port) (some port))) ∧
      (∀ port : Nat, 12 ≤ port → exec (.hostSessionOpen 0 port) s = .next (s.say .sessionRefused))) ∧
    (∀ (ring : Nat) (e : Mail) (l : List Mail), ring ≤ 8 → takeEvent (s.mailOf ring) = some (e, l) → 0x100 ≤ e.code → s.eventAnswered e.tile = true →
      exec (.eventAcknowledge ring) s = .next (((s.setMail ring l).setTile e.tile { s.tile e.tile with
        event := (s.tile e.tile).event.map fun v =>
          if v.posted && decide (v.code = e.code) && decide (v.value = e.value) then { v with accepted := true } else v }).say
            (.hostEvent ring e.tile e.code e.value)))

/-- An invocation whose tables fail a condition of R336 is refused and its run ends; one whose field is lost waits and says so once;
else it starts, and every tile it starts has its arguments, cleared vector and predicate registers and the entry as PC. A tile
whose end is complete reports it. A phase swap exchanges the phase, and changes no site where the pair has one set of tables. A
retry with nothing to judge resumes the run. A lost field leaves to a reserve field that keeps every sum, or the partition waits.
The model's choices: the offset of a step's INPUT (log entry 152), the table sets that the job service finds (log entry 46), when
a group is defined (log entry 47), and a pair's second tables (log entry 59). (R99, R147, R154, R336, R338, R346, R440) -/
def Obligations.Invocations : Prop :=
  ∀ (s : State), s.mod.cc.up = true → s.canonical = true →
    (∀ p < 8, ∀ m r b, let q := s.part p
      q.job = some m → q.run = some r → q.binary = some b → q.state = 3 → q.quiet = false → r.over = false → s.mayInvoke p = true →
      s.swapDue p = false → s.changeDue p = false →
      (s.lostFields b q.fmap ≠ [] → q.waiting = false → exec (.invocationStart p) s = .next
        ((s.setPart p { q with waiting := true }).say (.hostAdvisory p 6 (s.lostFields b q.fmap)))) ∧
      (s.lostFields b q.fmap = [] →
        (∀ k, tableBad (tablesFor m q.phase) (isRollout m q r.req) r.req = some k → exec (.invocationStart p) s = .next
          ((s.setPart p { q with run := none, state := 2 }).say (.invocationRefused p k))) ∧
        (tableBad (tablesFor m q.phase) (isRollout m q r.req) r.req = none → exec (.invocationStart p) s = .next (s.invoke p m b r)))) ∧
    (∀ (vals : List DWord) (c : ClassRec) (entry pseed seed : Nat) (step : Word) (now : DWord) (x : Tile),
      let y := startTile vals c entry pseed seed step now x
      y.seq = .running ∧ y.pc = entry ∧ y.fault = false ∧ y.fcause = 0 ∧ y.waiting = false ∧ y.vregs = [] ∧ y.pregs = [] ∧ y.firstIssue = none ∧ y.lastIssue = now ∧
        (∀ i < 32, sreg y i = nth 0#64 vals i) ∧ y.istore = x.istore ∧ y.spd = x.spd) ∧
    (∀ t : Nat, s.tileOn t = true → let x := s.tile t
      x.seq = .ending → queuesEmpty x = true → pend x.ope = 0 → pendingScalars x = [] →
      (s.part (s.tilePart t)).wdog = false ∨ (s.part (s.tilePart t)).step = true →
      exec (.tileEndReport t) s = .next (s.setTile t { x with seq := .ended, loose := [] })) ∧
    (∀ p < 8, ∀ m a b, let q := s.part p
      q.job = some m → q.binary = some a → q.bins[1 - q.phase]? = some b → q.state = 3 → s.quiescent p = true → q.busy = false →
      s.swapDue p = true →
      ∃ u : State, exec (.phaseSwap p) s = .next u ∧ (m.tileRegs1 = [] → m.siteRegs1 = [] → u.sites = s.sites) ∧ u.fields = s.fields ∧ u.mod = s.mod ∧
        u.part p = { q with phase := 1 - q.phase, rollouts := 0, run := q.run.map fun r => { r with learned := false } }) ∧
    (∀ p < 8, ∀ r b, let q := s.part p
      q.run = some r → q.binary = some b → q.state = 2 → r.over = false →
      q.acause ≠ 4 ∨ (s.mod.log.ring.map (·.2)).filter (s.hitStep p) = [] → (∀ e ∈ b.tiles q.fmap, (s.tile e.1).fcause ≠ 3) →
      exec (.stepRetry p) s = .next (s.setPart p { q with state := 3 })) ∧
    (∀ p < 8, ∀ f < 70, ∀ m b, let q := s.part p
      q.job = some m → q.binary = some b → q.state ≠ 4 → q.state ≠ 5 → q.busy = false → s.quiescent p = true →
      (s.lostFields b q.fmap).contains f = true →
      (m.flags / 2 % 2 ≠ 1 ∨ s.moveFor p f m = none → q.waiting = false →
        exec (.fieldRelocate p f) s = .next ((s.setPart p { q with waiting := true }).say (.hostAdvisory p 6 [f]))) ∧
      (∀ g m1, m.flags / 2 % 2 = 1 → s.moveFor p f m = some (g, m1) →
        let u := s.movedField p f g m m1 b
        exec (.fieldRelocate p f) s = .next u.reroute ∧ (u.part p).fmap = (q.fmap.map fun x => if x = f then g else x) ∧
          (u.part p).job = some m1 ∧ (u.part p).waiting = false ∧ (u.part p).run = q.run ∧ (u.part p).state = q.state))

/-- A feed sample in the normal band shows its voltage and STATE 1 (4 while held at its LIMIT); a coolant sample shows the readings, a
higher COOLST at once and ECAP; a reading of a field shows its temperature, one from 95 °C takes two levels at once, and 110 °C or
more begins the Squall drain; a throttle step moves the ceiling by one level; an energy window shows its powers, lengthens the
ledgers and lowers a partition above its cap by one level; a tick gives paced tiles their credit. What is said of tiles and
partitions leaves their pacing credit and their last reported guarantee aside. The readings are operands of the commands (log
entry 125), and the caps of COOLST 3 are those of COOLST 2 (log entry 34): the model's choices. (R350, R356, R357, R358, R363,
R368, R369, R371) -/
def Obligations.PowerSensing : Prop :=
  ∀ (s : State), s.canonical = true →
    let sameParts (u : State) : Prop := ∀ p, { u.part p with guar := 0 } = { s.part p with guar := 0 }
    let sameTiles (u : State) : Prop := ∀ t, { u.tile t with credit := none } = { s.tile t with credit := none }
    (∀ k < 2, ∀ v, s.mod.powered = true → s.mod.holdUp = none → s.ezInj 1 k = none → 4600 ≤ v → v ≤ 5600 → Map.get (fun _ => 0) s.mod.pow.good k < 900 →
      ∃ u : State, exec (.feedVoltageSample k v) s = .next u ∧ bits (u.ez (0x10 * k)) 31 16 = v ∧
        bits (u.ez (0x10 * k)) 2 0 = (if Map.get (fun _ => 0) s.mod.pow.gov k = 0 then 1 else 4) ∧
        u.fields = s.fields ∧ u.tiles = s.tiles ∧ u.sites = s.sites ∧ sameParts u ∧ u.mod.log = s.mod.log) ∧
    (∀ tin tout flow, (∀ i ∈ List.range 3, s.ezInj 6 i = none) → tin < 256 → tout < 256 → flow < 256 →
      let raw := coolRaw tin flow (if flow < 10 then s.mod.pow.flowLow + 1 else 0)
      raw = s.coolst ∨ (s.coolst < raw ∧ raw < 3) →
      ∃ u : State, exec (.coolantSample tin tout flow) s = .next u ∧
        u.ez 0x30 = BitVec.ofNat 32 (tin * 2 ^ 24 + tout * 2 ^ 16 + flow * 2 ^ 8 + raw) ∧
        bits (u.ez 0x20) 31 16 = min (bits (s.ez 0x20) 15 0) (coolCap raw) ∧ sameTiles u ∧ u.sites = s.sites ∧ sameParts u) ∧
    (∀ f < 70, ∀ l : List Nat, l.length = 16 → (s.field f).marked = [] → s.ezInj 2 f = none → s.ezInj 3 f = none →
      let t := l.foldl max 0
      (t < 95 → ∃ u : State, exec (.fieldSensorReading f (l.map some)) s = .next u ∧ bits (u.ez (0x1008 + 0x20 * f)) 23 16 = t ∧
        bits (u.ez (0x1008 + 0x20 * f)) 31 24 = max (bits (s.ez (0x1008 + 0x20 * f)) 31 24) t ∧
        bits (u.ez (0x1008 + 0x20 * f)) 15 12 = 0 ∧ (u.field f).power = (s.field f).power ∧ u.tiles = s.tiles ∧ sameParts u) ∧
      (95 ≤ t → t < 110 → (s.field f).power = 2 → (s.field f).hot = false → ∃ u : State, exec (.fieldSensorReading f (l.map some)) s = .next u ∧
        (u.field f).power = 2 ∧ (u.field f).hot = true ∧
        bits (u.ez (0x1000 + 0x20 * f)) 5 3 = bits (s.ez (0x1000 + 0x20 * f)) 14 12 - 2 ∧ sameTiles u ∧ sameParts u) ∧
      (110 ≤ t → (s.field f).power = 2 → ∃ u : State, exec (.fieldSensorReading f (l.map some)) s = .next u ∧ (u.field f).power = 3 ∧
        (u.field f).drainTo = 5 ∧ bits (u.ez (0x1004 + 0x20 * f)) 7 4 = 2)) ∧
    (∀ f < 70, (s.field f).power = 2 →
      let w := s.ez (0x1000 + 0x20 * f)
      let pace := bits (s.ez (0x1010 + 0x20 * f)) 15 8
      ((s.field f).hot = true → bits w 14 12 ≠ 0 → exec (.throttleEscalate f) s = .next (s.throttle f (bits w 5 3 - 1) pace).reportGuar) ∧
      ((s.field f).hot = true → bits w 14 12 = 0 →
        exec (.throttleEscalate f) s = .next (s.throttle f (bits w 5 3) (if pace = 0 then 128 else max 16 (pace / 2))).reportGuar) ∧
      ((s.field f).cool = true → pace = 0 → exec (.throttleRelease f) s = .next (s.throttle f (min 7 (bits w 5 3 + 1)) 0).reportGuar) ∧
      ((s.field f).cool = true → pace ≠ 0 →
        exec (.throttleRelease f) s = .next (s.throttle f (bits w 5 3) (if 128 ≤ pace then 0 else pace * 2)).reportGuar) ∧
      (∀ v g, v < 8 → g < 256 → let u := s.throttle f v g
        bits (u.ez (0x1000 + 0x20 * f)) 5 3 = v ∧ bits (u.ez (0x1010 + 0x20 * f)) 15 8 = g ∧
          (bits (u.ez (0x1008 + 0x20 * f)) 0 0 = 1 ↔ v < 7 ∨ g ≠ 0) ∧ sameTiles u ∧ ∀ h, { u.field h with fresh := 0 } = { s.field h with fresh := 0 })) ∧
    (∀ a b m parts fields, List.length parts = 8 → List.length fields = 70 → a < 65536 → b < 65536 → m < 65536 →
      ∃ u : State, exec (.energyWindowEnd a b m parts fields) s = .next u ∧ bits (u.ez 0x4) 15 0 = a ∧ bits (u.ez 0x14) 15 0 = b ∧
        bits (u.ez 0x24) 15 0 = m ∧ sameTiles u ∧ u.sites = s.sites ∧
        ∀ p < 8, (s.part p).ledger.length < 65536 → (u.part p).ledger = (s.part p).ledger ++ [nth 0 parts p]) ∧
    (∀ p < 8, ∀ e, bit (s.ez (0x2000 + 0x40 * p)) 31 = true → bits (s.ez (0x2000 + 0x40 * p)) 15 0 < nth 0 e p →
      ((s.fieldsOf p).all fun f => bits (s.ez (0x1000 + 0x20 * f)) 14 12 = 0) = false →
      bits ((s.partWindow e p).ez (0x2004 + 0x40 * p)) 10 8 = min 7 (bits (s.ez (0x2004 + 0x40 * p)) 10 8 + 1)) ∧
    (∃ u : State, exec .pacingTick s = .next u ∧ { u with tiles := s.tiles, fields := s.fields } = s ∧
      let on (f : Nat) : Bool := (s.field f).lock && decide (s.pace f ≠ 0)
      (∀ f < 70, u.field f = if on f = true then { s.field f with fresh := 8 * s.pace f } else s.field f) ∧
      ∀ t, fieldOf t < 70 → u.tile t = (match (s.tile t).credit with
        | none => s.tile t
        | some c =>
          if on (fieldOf t) = true then
            { s.tile t with credit := if 0 ≤ c then none else some (min (c + 8 * s.pace (fieldOf t)) (8 * s.pace (fieldOf t))) }
          else s.tile t))

/-- An admitted command powers a field up where its map is accepted (one whose map fails stays off, the failing word logged, and the
job service restores the map of the factory where an image of it verifies, or completes a change that was cut short and powers the
field), drains it or asks for a fuse re-test; a field that is powering up is ready with its column bypassed and its tiles empty,
or off where its microcode or its lock fails; a drain ends in the state it was for and an opened fuse in 4, and the tiles of the
field are empty; a re-test that reaches its voltage leaves the field off; the first write of CIR_SET from stage 4 on starts the
count, an earlier and a later one are refused; a phase error above 1 ns is logged, a stopped node loses its lock and aborts the
owner in XMASK with ACAUSE 3. Every command on a field reports a guarantee that has changed (R367). The model's choices: DETAIL of
the record of a map that fails is empty (log entry 143), the registers that the other records copy (log entry 159), and the map
that the factory restores, a free value where the image is another than the factory's (log entry 157). (R24, R355, R358, R359,
R361, R362, R366, R376, R377, R464, R465) -/
def Obligations.FieldPower : Prop :=
  ∀ (s : State), s.canonical = true →
    (∀ f < 70, let x := s.field f
      (s.fieldCmdBad f 1 = none → s.mod.stage ≠ 5 → s.fused f = false → bit (s.mapSum f) 6 = false →
        (s.mapBad f = none → x.power = 0 → exec (.fieldPowerUp true f) s = .next
          ((s.setField f { x with power := 1, accepted := s.fieldWords f, mapErr := false }).ezField (0x1004 + 0x20 * f) 7 4 0).reportGuar) ∧
        (s.mapBad f = none → x.power = 5 → ∃ u : State, exec (.fieldPowerUp true f) s = .next u ∧ (u.field f).power = 1 ∧
          (u.field f).nodes = true ∧ (u.field f).accepted = s.fieldWords f ∧ (u.field f).mapErr = false ∧ u.tiles = s.tiles) ∧
        (∀ o, s.mapBad f = some o → s.mod.cc.up = false → x.power = 0 → exec (.fieldPowerUp true f) s = .next
          (((((s.setField f { x with power := 0, mapErr := true, reserve := false, kept := false }).ezField (0x1004 + 0x20 * f) 7 4 0).startNodes f).raise
            { source := 0x22, cls := 4, loc := fieldLoc f, addr := 0x7801000000 + o }).reportGuar)) ∧
        (∀ o, s.mapBad f = some o → s.mod.cc.up = true → s.mod.cc.journalOpen = false → ∃ u : State, exec (.fieldPowerUp true f) s = .next u ∧
          (u.field f).power = 0 ∧ (u.field f).mapErr = true ∧ (u.field f).reserve = false ∧
          ((s.goodCopy 6).isSome = true → u.mod.cc.journalField = some f ∧ u.mod.cc.journalOpen = false)) ∧
        (∀ o, s.mapBad f = some o → s.mod.cc.up = true → s.mod.cc.journalOpen = true → s.mod.cc.journalField = some f →
          let v := s.closeJournal
          v.fused f = false → bit (v.mapSum f) 6 = false → v.mapBad f = none →
          ∃ u : State, exec (.fieldPowerUp true f) s = .next u ∧ (u.field f).power = 1 ∧ (u.field f).accepted = v.fieldWords f ∧
            u.mod.cc.journalOpen = false ∧ u.tiles = s.tiles)) ∧
      (s.fieldCmdBad f 2 = none →
        exec (.fieldPowerDown true f) s = .next ((s.setField f { x with power := 3, drainTo := 0 }).ezField (0x1004 + 0x20 * f) 7 4 1).reportGuar) ∧
      (x.power = 4 → x.retested = false → exec (.fuseRetest true f) s = .next (s.setField f { x with retested := true }).reportGuar) ∧
      (x.power = 4 → x.retested = true →
        exec (.fuseRetestComplete f true) s =
          .next ((((s.setField f { x with power := 0 }).ezField (0x1004 + 0x20 * f) 7 4 0).startNodes f).reportGuar) ∧
        exec (.fuseRetestComplete f false) s = .next (s.raise { source := 0x0E, cls := 4, loc := fieldLoc f, code := 4, detail := [0, 4, 8, 0xC, 0x10].map fun o => s.ez (0x1000 + 0x20 * f + o) }).reportGuar) ∧
      (x.power = 1 → let hasCode : Prop := (Map.get (fun _ => (0, 0)) s.mod.sec.running 4).1 ≠ 0
        (hasCode → s.mod.sec.recovery = false → s.counting = true → s.fused f = false → s.mod.pow.absent.contains (feedOf f) = false →
          (s.setField f { x with nodes := true }).joined.contains f = true →
          ∃ u : State, exec (.fieldReady f true true) s = .next u ∧ (u.field f).power = 2 ∧ (u.field f).lock = true ∧
            (u.field f).bypass = bits (Map.get factoryWord x.accepted (0x80000 + 8 * f)) 5 0 ∧ (u.field f).routed = false ∧
            (∀ t, fieldOf t = f → u.tile t = {}) ∧ ∀ t, fieldOf t ≠ f → u.tile t = s.tile t) ∧
        (hasCode → s.mod.sec.recovery = false → ∃ u : State, exec (.fieldReady f true false) s = .next u ∧ (u.field f).power = 0 ∧
          (u.field f).lock = false ∧ (u.field f).reserve = false ∧ u.tiles = s.tiles) ∧
        (∀ lock : Bool, s.mod.sec.recovery = false → exec (.fieldReady f false lock) s = .next
          (((s.setField f { x with power := 0, mapErr := false, reserve := false, kept := false }).startNodes f).raise
            { source := 0x2A, cls := 4, loc := fieldLoc f, detail := [0, 4, 8, 0xC, 0x10].map fun o => s.ez (0x1000 + 0x20 * f + o) }).reportGuar)) ∧
      (x.power = 3 → x.drainTo = 0 →
        ∃ u : State, exec (.fieldDrainComplete f) s = .next u ∧ (u.field f).power = 0 ∧ (u.field f).routed = false ∧ (u.field f).reserve = false ∧
          (∀ t, fieldOf t = f → u.tile t = {}) ∧ (∀ t, fieldOf t ≠ f → u.tile t = clearCross f t (s.tile t)) ∧
          ∀ p, { u.part p with guar := 0 } = { s.part p with guar := 0 }) ∧
      (x.power = 3 → x.drainTo = 5 → ∃ u : State, exec (.squallDrainComplete f) s = .next u ∧ (u.field f).power = 5 ∧
        (u.field f).nodes = false ∧ ∀ t, fieldOf t = f → u.tile t = {}) ∧
      (1 ≤ x.power → x.power ≤ 3 → ∃ u : State, exec (.fuseOpen f) s = .next u ∧ (u.field f).power = 4 ∧
        (u.field f).fuses = x.fuses ++ [s.now] ∧ bits (u.ez (0x1004 + 0x20 * f)) 7 4 = 4 ∧ ∀ t, fieldOf t = f → u.tile t = {}) ∧
      (∀ perr, s.ezInj 5 f = none → perr ≤ 10 → exec (.cirrusPhaseLoss f perr) s =
        .next (s.setField f { x with phases := s.phasesNow f ++ [(s.now, perr)] }).reportGuar) ∧
      (∀ perr, s.ezInj 5 f = none → 10 < perr → perr < 256 → ∃ u : State, exec (.cirrusPhaseLoss f perr) s =
        .next (u.raise { source := 0x11, cls := 4, loc := fieldLoc f, code := perr }).reportGuar ∧ (u.field f).losses = x.losses ++ [s.now] ∧
        u.perr f = max (s.perr f) perr ∧ bit (u.ez (0x3100 + 4 * f)) 1 = true ∧ u.tiles = s.tiles) ∧
      (x.lock = true → x.power = 2 → s.fieldOwner f < 8 → (bits (s.ez (0x1004 + 0x20 * f)) 15 8).testBit (s.fieldOwner f) = true →
        (s.part (s.fieldOwner f)).state = 3 →
        ∃ u : State, exec (.cirrusNodeStop f) s = .next u ∧ (u.field f).nodes = false ∧ (u.field f).lock = false ∧
          (u.part (s.fieldOwner f)).state = 4 ∧ (u.part (s.fieldOwner f)).acause = 3)) ∧
    (∀ v : DWord,
      (s.mod.firstLock = false → 4 ≤ s.mod.stage → s.mod.stage ≠ 7 → ∃ u : State, exec (.cirSet true v) s = .next u ∧ u.now = v ∧ u.counting = true ∧ u.mod.firstLock = true ∧
        u.tiles = s.tiles ∧ u.sites = s.sites ∧ u.parts = s.parts) ∧
      (s.mod.firstLock = true ∨ s.mod.stage < 4 ∨ s.mod.stage = 7 → exec (.cirSet true v) s = .next (s.refuse (ezAddr 0x3008) 0x4A (feedLoc 2))))

/-- An admitted command of HALO_PORT_CTL begins training with fresh sequence numbers and no credits, retrains, or lets the port drain
with its transfers ended; training that succeeds within 2.5 us brings the port up, its third failure in a row fails it; an IDLE
gives credits and acknowledges; a bad lane is recorded and gives its position to the spare at the SEQ that the module's CTRL flit
names; a broken ring link is listed; an accepted window write advances KEYGEN. The model's choices: the STATE in which each
command acts, and the SEQ that a CTRL flit names (log entry 35), the record of a broken ring link (log entry 33). (R382, R385,
R387, R388, R393, R395, R396, R397) -/
def Obligations.HaloPorts : Prop :=
  ∀ (s : State), s.canonical = true →
    (∀ q < 12, let o := s.port q
      (s.portRefused q 0 (ctlWord o 1) = none →
        ∃ y : Port, exec (.haloEnable true q) s = .next (s.setPort q y) ∧ y.state = 1 ∧ y.rxSeq = 0 ∧ y.txSeq = 0 ∧ y.rxBuf = [] ∧ y.sent = [] ∧
          y.txq = [] ∧ y.credits = 0 ∧ y.owed = (if o.ether then 0 else 4096) ∧ y.xfers = o.xfers) ∧
      (s.portRefused q 0 (ctlWord o 2) = none →
        ∃ u : State, exec (.haloDisable true q) s = .next u ∧ (u.port q).state = 4 ∧ (u.port q).xfers = [] ∧ u.tiles = s.tiles) ∧
      (s.portRefused q 0 (ctlWord o 3) = none →
        ∃ y : Port, exec (.haloRetrain true q) s = .next (s.setPort q y) ∧ y.state = 3 ∧ y.txq = o.txq ∧ y.sent = o.sent ∧
          y.rxBuf = o.rxBuf ∧ y.xfers = o.xfers ∧ y.rxSeq = o.rxSeq) ∧
      (∀ rtt ≤ 250, o.state = 1 → o.rxBuf = [] → o.txq = [] → o.xfers = [] →
        ∃ u : State, exec (.haloTrainingComplete q true rtt) s = .next u ∧ (u.port q).state = 2 ∧ (u.port q).bad = [] ∧
          (∀ l < 9, (u.port q).role l = l) ∧ u.tiles = s.tiles ∧ u.sites = s.sites) ∧
      (∀ rtt, o.state = 1 ∨ o.state = 3 → o.trainFails < 2 →
        exec (.haloTrainingComplete q false rtt) s = .next (s.setPort q { o with trainFails := o.trainFails + 1 })) ∧
      (∀ rtt, o.state = 1 ∨ o.state = 3 → 2 ≤ o.trainFails → ∃ u : State, exec (.haloTrainingComplete q false rtt) s = .next u ∧
        (u.port q).state = 5 ∧ (u.port q).xfers = []) ∧
      (∀ (x : HFlit) (f : HSent) (l : List HSent), o.state = 2 → o.ether = false → o.rxBuf = [] → o.txq = [] → o.xfers = [] → o.held = [] →
        haloGood 0 x = true → x.codewords = [] → x.nak = false → o.sent = f :: l → x.ack = f.seq →
        exec (.idle q x) s = .next (s.setPort q { o with sent := l, credits := min 4096 (o.credits + x.cred), fails := 0 })) ∧
      (∀ lane < 8, o.state = 2 → o.ether = false → lane ∉ o.bad → o.role lane < 8 → o.role 8 = 8 → o.turn = [] →
        let sq := (o.txSeq + o.txq.length + 1) % 4096
        ∃ u : State, exec (.haloLaneBad q lane) s = .next u ∧ (u.port q).bad = o.bad ++ [lane] ∧ (u.port q).state = 2 ∧ u.tiles = s.tiles ∧
          (o.txq = [] → 0 < o.credits → o.sent.length < 2048 → (u.port q).role 8 = o.role lane ∧ (u.port q).role lane = 15 ∧ (u.port q).turn = [] ∧
            (u.port q).sent = o.sent ++ [{ seq := o.txSeq, typ := 6, tag := 0, off := 0, data := [1, BitVec.ofNat 8 lane] ++ leBytes sq 2 }]) ∧
          (o.credits = 0 → (u.port q).role 8 = 8 ∧ (u.port q).role lane = o.role lane ∧ (u.port q).turn = [(1, lane, sq)])) ∧
      (∀ off v, 0x1000 ≤ off → off < 0x1400 → off % 4 = 0 → s.portRefused q off v = none →
        ∃ w : Word, exec (.haloWinWrite true q off v) s = .next (s.setPort q (let y := o.csrPut off w
          let c := 0x100C + 16 * ((off - 0x1000) / 16)
          y.csrField c 31 16 (bits (y.csrWord c) 31 16 + 1))) ∧ (off % 16 = 0 ∨ off % 16 = 8 → w = v)) ∧
      (s.roceUp q 0 = true → ∃ y : Port, exec (.ethernetLinkDown q) s = .next (s.setPort q y) ∧ y.state = 3 ∧ y.sent = o.sent ∧ y.xfers = o.xfers)) ∧
    (∀ link < 48, link ∉ s.mod.ring → (∀ q ∈ List.range 12, (s.port q).xfers = []) → (∀ p ∈ List.range 8, (s.part p).step = false) →
      exec (.ringBreak link) s = .next ((s.updMod fun m => { m with ring := m.ring ++ [link] }).raiseAll
        [{ source := 0x0C, cls := 4, loc := siteLoc link }, { source := 0x0C, cls := 4, loc := siteLoc ((link + 1) % 48) }]))

/-- On an up port in Halo-native mode, the flit of the expected SEQ whose CRC holds is taken: a request that the window admits begins
its transfer (a read asks the site for its first unit), one it does not admit is turned away with the first error kept; write data
and read data are given to the site as whole units; a completion ends the transfer of the module, the change that a CTRL names
takes effect at its SEQ: the port retrains, or the spare takes the lane's position. A write whose units are all written completes
with STATUS 0. A transfer of the module begins on its own window. The model's choices: what a request carries at a site (log entry
28), and the rights that a module transfer takes (log entry 36). (R385, R387, R389, R390, R392, R393) -/
def Obligations.HaloTransfers : Prop :=
  ∀ (q : Nat) (x : HFlit) (s : State), q < 12 → s.canonical = true →
    let o := s.port q
    let win := (nth 0#8 x.data 0).toNat
    let unit := ofLeBytes ((x.data.drop 1).take 4)
    let n := ofLeBytes ((x.data.drop 5).take 4)
    let takes (typ : Nat) (c : Instr) (post : State → Prop) : Prop := haloGood typ x = true → ∃ u : State, exec c s = .next u ∧ (u.port q).rxSeq = (x.seq + 1) % 4096 ∧
      (u.port q).rxBuf = [] ∧ u.tiles = s.tiles ∧ u.parts = s.parts ∧ post u
    (o.state = 2 → o.ether = false → o.rxBuf = [] → o.txq = [] → o.sent = [] → o.change = [] → o.held = [] → x.codewords = [] → x.nak = false →
      bits (o.csrWord 0x20) 30 28 ≠ 1 → x.seq = o.rxSeq →
      (o.xfers = [] → s.haloStatus q win unit n false = 0 →
        takes 1 (.wreq q x) fun u => (u.port q).xfers = [haloXfer o x.tag false false win unit n] ∧ u.sites = s.sites) ∧
      (o.xfers = [] → s.haloStatus q win unit n false ≠ 0 → bit (o.csrWord 0x14) 31 = false →
        takes 1 (.wreq q x) fun u => (u.port q).xfers = [] ∧ u.sites = s.sites ∧ bit ((u.port q).csrWord 0x14) 31 = true ∧
          bits ((u.port q).csrWord 0x14) 30 24 = s.haloStatus q win unit n false) ∧
      (let y := haloXfer o x.tag false true win unit n
        let z := s.site y.site
        o.xfers = [] → s.haloStatus q win unit n true = 0 → n = 1 → y.site < 48 → z.state = 2 → z.owner = s.portOwner q → z.owner < 8 →
        y.base < 0xC00000000 → z.m.queue.length < 2047 → z.m.parked.length < 4095 →
        takes 3 (.rreq q x) fun u => (u.port q).xfers = [{ y with next := 1 }] ∧
          ∃ r : SiteReq, (u.site y.site).m.queue = z.m.queue ++ [r] ∧ r.op = 1 ∧ r.off = y.base ∧ r.nfl = 8 ∧ r.rcnt = 0) ∧
      (∀ y : HXfer, o.xfers = [y] → y.tag = x.tag → y.n = 1 → x.off = 0 → x.data.length = 256 → y.next = 0 → y.data = [] →
        let z := s.site y.site
        y.site < 48 → z.state = 2 → z.owner = s.portOwner q → z.owner < 8 → y.base < 0xC00000000 →
        z.m.queue.length < 2047 → z.m.parked.length < 4095 →
        let given (u : State) : Prop := (u.port q).xfers = [y] ∧ ∃ r : SiteReq, (u.site y.site).m.queue = z.m.queue ++ [r] ∧
          r.op = 2 ∧ r.off = y.base ∧ r.nfl = 8 ∧ r.data = bytesWords 64 x.data
        (y.mod = false → y.read = false → takes 2 (.wdata q x) given) ∧ (y.mod = true → y.read = true → takes 4 (.rdata q x) given)) ∧
      (∀ y : HXfer, o.xfers = [y] → y.tag = x.tag → y.mod = true → takes 5 (.cmpl q x) fun u => (u.port q).xfers = [] ∧ (nth 0#8 x.data 0 = 0#8 → u.sites = s.sites)) ∧
      (o.xfers = [] → nth 0#8 x.data 0 = 3#8 → ofLeBytes ((x.data.drop 2).take 2) % 4096 = (x.seq + 1) % 4096 →
        takes 6 (.ctrl q x) fun u => (u.port q).state = 3 ∧ u.sites = s.sites) ∧
      (∀ lane < 8, o.xfers = [] → nth 0#8 x.data 0 = 1#8 → nth 0#8 x.data 1 = BitVec.ofNat 8 lane →
        ofLeBytes ((x.data.drop 2).take 2) % 4096 = (x.seq + 1) % 4096 → o.role 8 = 8 →
        takes 6 (.ctrl q x) fun u => (u.port q).role 8 = o.role lane ∧ (u.port q).role lane = 15 ∧ (u.port q).state = 2 ∧ u.sites = s.sites)) ∧
    (∀ y : HXfer, (o.xfers.find? fun z => z.tag = x.tag && !z.mod && !z.read) = some y → (∀ k ∈ List.range y.n, k ∈ y.got) → y.imm = none →
      exec (.haloWriteComplete q x.tag) s = .next ((s.setPort q { o with
        xfers := o.xfers.filter fun z => !(decide (z.tag = y.tag) && z.mod == y.mod) }).haloCmpl q y.tag y.qp 0 0 [])) ∧
    (∀ (read : Bool) (w u m : Nat), o.state = 2 → s.mod.cc.up = true → o.xfers = [] → s.haloStatus q w u m (!read) = 0 →
      ∃ v : State, exec (.haloModuleTransfer q w u m read) s = .next v ∧ v.tiles = s.tiles ∧
        (read = true → (v.port q).xfers = [haloXfer o 0 true true w u m] ∧ v.sites = s.sites))

/-- On a port that carries RoCEv2, a write, a write with immediate or a read under the right key of a window that admits it becomes a
transfer over the units that its bytes touch; a send on queue pair 1 is a host message of its TYPE, one on another pair such a
write into the next receive area posted for it, or turned away where the area is too short; congestion notices, ARP, neighbour
discovery and ICMP echo at one of the port's addresses, other frames, pauses, acknowledgements and retransmit timeouts have the
effect of Table 15.5. The model's choices: the areas posted (log entry 27), the TAGs of peers (log entry 36), the priority of
RoCEv2 (log entry 150), and a host message that is not laid out (log entry 156). (R391, R396, 15_halo_links.md) -/
def Obligations.RoceTraffic : Prop :=
  ∀ (q : Nat) (s : State), q < 12 → s.canonical = true →
    let o := s.port q
    (∀ (qp key off len : Nat), s.roceUp q qp = true → o.xfers = [] → 0 < len → key % 256 < 64 → key = haloKey o q (key % 256) →
      let w := key % 256
      let unit := off / 256
      let n := (off + len - 1) / 256 - unit + 1
      let begins (read : Bool) (data : List Byte) (imm : Option Word) : State := (s.setPort q { o with xfers :=
        [{ haloXfer o 256 false read w unit n with qp := qp, skip := off % 256, len := len, data := data, imm := imm }] }).haloAsk
          q 256 false 2048
      (s.haloStatus q w unit n true = 0 → exec (.roceRead q qp key off len) s = .next (begins true [] none)) ∧
      (∀ data : List Byte, data.length = len → s.haloStatus q w unit n false = 0 →
        exec (.roceWrite q qp key off data) s = .next (begins false data none) ∧
        ∀ i : Word, exec (.roceWriteImm q qp key off data i) s = .next (begins false data (some i)))) ∧
    (∀ (qp w unit n : Nat) (l : List (Nat × Nat × Nat)) (data : List Byte), s.roceUp q qp = true → qp ≠ 1 →
      Map.get (fun _ => []) o.posted qp = (w, unit, n) :: l → w < 64 →
      let p : Port := { o with posted := Map.set (fun _ => []) o.posted qp l }
      let u := s.setPort q p
      (256 * n < data.length → exec (.roceSend q qp data) s = .next (u.haloTurnAway q 0 qp w unit 2)) ∧
      (0 < data.length → data.length ≤ 256 * n → o.xfers = [] → u.haloStatus q w unit ((data.length + 255) / 256) false = 0 →
        exec (.roceSend q qp data) s = .next ((s.setPort q { p with xfers := [{ haloXfer o 256 false false w unit ((data.length + 255) / 256) with
          qp := qp, skip := 0, len := data.length, data := data, imm := none }] }).haloAsk q 256 false 2048)) ∧
      (u.port q).posted = Map.set (fun _ => []) o.posted qp l) ∧
    (∀ (qp : Nat) (data : List Byte), s.roceUp q qp = true → qp ≠ 1 → Map.get (fun _ => []) o.posted qp = [] →
      exec (.roceSend q qp data) s = .next s) ∧
    (∀ (typ p tag : Nat) (body : List Byte), s.roceUp q 1 = true → s.mod.cc.up = true → s.portOwner q < 8 → typ < 11 → p < 256 → tag < 2 ^ 32 →
      body.length ≤ (if typ = 10 then 2 ^ 20 else 65536) →
      let h : List Byte := leBytes typ 2 ++ leBytes 0 2 ++ leBytes p 4 ++ leBytes tag 4 ++ leBytes body.length 4
      (s.portOwner q ≠ p → exec (.roceSend q 1 (h ++ body)) s = .next (s.wrongPart tag p)) ∧
      (s.portOwner q = p → exec (.roceSend q 1 (h ++ body)) s = .next (s.hostDo typ p tag body)) ∧
      s.hostDo 7 p tag body = s.say (s.statusMsg p tag) ∧ s.hostDo 4 p tag body = s.abortMsg p tag ∧
      s.hostDo 1 p tag body = s.submit p tag (readManifest s.mod.serial body) ∧ s.hostDo 2 p tag body = s.runMsg p tag (readRun body) ∧
      s.hostDo 0 p tag body = s.say (.hostRefused tag p 9 0 0 0)) ∧
    (s.roceUp q 0 = true → Config.rocePriority q ∈ o.paused → (∀ k : Nat, s.haloFlush q k = s) ∧ s.roceFlush q = s) ∧
    (∀ qp : Nat, s.roceUp q qp = true →
      exec (.cnpReceived q qp) s = .next (s.setPort q { o with rate := o.rate + 1 }) ∧
      exec (.ecnMarkedPacket q qp) s = .next (s.say (.frame q 0 qp []))) ∧
    (s.roceUp q 0 = true →
      (s.mod.cc.up = true → ∀ (a id : Nat) (data : List Byte), a ∉ o.addrs →
        exec (.arpRequest q a) s = .next s ∧ exec (.neighbourDiscovery q a) s = .next s ∧ exec (.icmpEcho q a id data) s = .next s) ∧
      (s.mod.cc.up = true → ∀ (a id : Nat) (data : List Byte), a ∈ o.addrs → data.length ≤ 9150 →
        exec (.arpRequest q a) s = .next (s.say (.frame q 1 a [])) ∧
        exec (.neighbourDiscovery q a) s = .next (s.say (.frame q 2 a [])) ∧
        exec (.icmpEcho q a id data) s = .next (s.say (.frame q 3 a (leBytes id 2 ++ data)))) ∧
      exec (.nonRoceFrame q) s = .next (s.setPort q { o with dropped := o.dropped + 1 }) ∧
      (∀ prio < 8, exec (.priorityFlowControlFrame q prio false) s = .next ((s.setPort q { o with paused := o.paused.filter (· ≠ prio) }).haloTick q) ∧
        ((o.paused.filter (· ≠ prio)).length < 2 → exec (.priorityFlowControlFrame q prio true) s =
          .next (s.setPort q { o with paused := o.paused.filter (· ≠ prio) ++ [prio] }))) ∧
      (∀ (tag : Nat) (x : HXfer), (o.xfers.find? fun y => y.tag = tag && y.mod) = some x →
        exec (.roceAcknowledge q tag false) s = .next (s.setPort q { o with
          sent := o.sent.filter fun f => f.tag ≠ tag
          xfers := o.xfers.filter fun y => !(decide (y.tag = tag) && y.mod) }) ∧
        exec (.roceAcknowledge q tag true) s = exec (.roceRetransmitTimeout q tag) s) ∧
      (∀ tag f, (o.sent.filter fun f => f.tag = tag) = [f] → exec (.roceRetransmitTimeout q tag) s = .next (s.say (.rdma q f))))

/-- A command of PART_CTL, MOD_ABORT or a watchdog that has run out puts a partition that is running or loaded into STATE 4 with the
ACAUSE of its cause (1, 7, 5, 6, 2); a disabled partition is enabled; the completion of the abort leaves its STATE, stops watchdog
and step, answers the host, and leaves the tiles of the partition without units at work, regions and scratchpad, and answers every
ABORT that joined; a stall is advised with its first tile. The model's choices: the request acts at once (log entry 21), a reset
of a disabled partition leaves STATE 1 (log entry 148), the tiles of a stall are those that its operand names (log entry 129).
(R403, R410, R411, R413, R414, R415, R416) -/
def Obligations.Aborts : Prop :=
  ∀ (s : State), s.canonical = true →
    (∀ p < 8, let q := s.part p
      (q.state = 1 ∨ q.state = 2 ∨ q.state = 3 ∨ q.state = 6 →
        (∃ u : State, exec (.partAbort true p) s = .next u ∧ (u.part p).state = 4 ∧ (u.part p).acause = 1 ∧ (u.part p).wdog = false) ∧
        (q.state ≠ 6 → ∃ u : State, exec (.partDisable true p) s = .next u ∧ (u.part p).state = 4 ∧ (u.part p).acause = 5 ∧
          (u.part p).after = 6)) ∧
      (q.state ≠ 0 → q.state ≠ 4 → ∃ u : State, exec (.partReset true p) s = .next u ∧ (u.part p).state = 4 ∧ (u.part p).acause = 7 ∧
          (u.part p).reset = true ∧ (u.part p).after = 1) ∧
      (q.state = 6 → exec (.partEnable true p) s = .next (s.setPart p { q with state := if q.job.isSome then 2 else 1 })) ∧
      (q.state ≠ 6 → exec (.partEnable true p) s = .next (s.refuse (ezAddr (0x4000 + 0x40 * p)) 0x4A (partLoc p))) ∧
      (s.stepStart p = none → 0 < (s.ez (0x4008 + 0x40 * p)).toNat → exec (.watchdogExpiry p) s = .next s) ∧
      (∀ k, s.stepStart p = some k → q.state = 3 → q.wdog = true → (s.ez (0x4008 + 0x40 * p)).toNat ≤ (s.now.toNat - k) / 1000000 →
        exec (.watchdogExpiry p) s = .next (s.requestAbort p 2) ∧ ((s.requestAbort p 2).part p).state = 4 ∧
          ((s.requestAbort p 2).part p).acause = 2) ∧
      (q.state = 4 → pavState (s.site (s.dsite p)) ≠ 4 → q.reset = false → q.after = 2 → q.release = false → s.mod.abortBusy = false →
        s.coolst ≠ 3 → ∃ u : State, exec (.abortComplete p) s = .next u ∧ (u.part p).state = 2 ∧ (u.part p).wdog = false ∧
          (u.part p).step = false ∧ (u.part p).acause = q.acause ∧ (u.part p).atags = [] ∧
          (s.mod.cc.up = true → ∀ t ∈ (if q.atags = [] then [0] else q.atags), ∃ r : StepRec, Msg.hostAborted t p q.acause 2 r ∈ u.outbox) ∧
          ∀ t, s.tilePart t = p → (u.tile t).regions = [] ∧ (u.tile t).spd = [] ∧ (u.tile t).vq = [] ∧ (u.tile t).net = [] ∧
            opeIdle (u.tile t).ope = true ∧ runBit (u.tile t) = false ∧ (u.tile t).istore = (s.tile t).istore ∧
            (u.tile t).sregs = (s.tile t).sregs) ∧
      (∀ (t : Nat) (l : List Nat), q.state = 3 → (∀ k ∈ t :: l, isTile k = true ∧ s.tilePart k = p ∧ (s.tile k).waiting = true ∧
          runBit (s.tile k) = true ∧ (s.tile k).lastIssue.toNat + 10000000 ≤ s.now.toNat) → bit (s.ez (0x4010 + 0x40 * p)) 31 = false → q.advised = none → s.mod.cc.up = true →
        let u := (((s.ezPut (0x4010 + 0x40 * p) (BitVec.ofNat 32 (2 ^ 31))).ezPut (0x4014 + 0x40 * p) (BitVec.ofNat 32 t)).setPart p
          { q with stalled := (t :: l).map fun k => (k, (s.tile k).lastIssue), advised := some s.now }).say (.hostAdvisory p 1 [l.length + 1, t])
        exec (.stallAdvisory p (t :: l)) s = .next u ∧ ((t :: l).Nodup → l.length + 1 ≤ u.heldNow p))) ∧
    (∃ u : State, exec (.modAbort true) s = .next u ∧
      ∀ p < 8, 1 ≤ (s.part p).state → (s.part p).state ≤ 3 → (u.part p).state = 4 ∧ (u.part p).acause = 6 ∧ u.mod.abortBusy = true)

/-- A restart drops the sessions and the job service comes back; a unit changes its owner when no condition of R417 forbids it, or the
change waits while an owner is not quiescent and its task monitor reports it; a request for the owner that a unit has enables a
disabled site and is answered with the partition's resource; a defined partition has STATE 1 and a newly drawn key whose halves
differ; a freed one keeps only its ledger and counts; a wipe loads the key of the new owner, and its end writes zeros and the
owner; the reserve, the debug policy, quiet windows and host keys are set as asked. The model's choices: the answers of Redfish
and their numbers (log entries 120, 155), and how long a change that waits is kept (log entry 107). (R39, R401, R402, R417, R424,
R427, R428, R429, R433, R458) -/
def Obligations.Capacity : Prop :=
  ∀ (s : State), s.canonical = true →
    let sameTiles (u : State) : Prop := ∀ t, { u.tile t with credit := none } = { s.tile t with credit := none }
    (s.ccExists = true → exec .ccRestart s = .next (s.updMod fun m => { m with cc := { m.cc with up := false, sessions := [] } }) ∧
      (s.mod.cc.up = false → ∃ u : State, exec .ccRestartComplete s = .next u ∧ u.mod.cc.up = true ∧ u.tiles = s.tiles ∧ u.sites = s.sites ∧
        u.parts = s.parts ∧ u.mod.csr = s.mod.csr)) ∧
    (s.mod.cc.up = true →
      (∀ k i new, (Instr.capacityChange k i new).wf = true →
        (s.ownerOf k i = new →
          (∀ c, (s.mod.cc.changes.find? fun c => c.1 = k && c.2.1 = i) = some c → (k = .site → (s.site i).state ≠ 3) →
            exec (.capacityChange k i new) s = .next (s.say (.redfishTask k i c.2.2))) ∧
          ((s.mod.cc.changes.find? fun c => c.1 = k && c.2.1 = i) = none →
            ((k = .site → (s.site i).state ≠ 3) →
              exec (.capacityChange k i new) s = .next (s.say (if new < 8 then s.redfishPart new else .redfish true 1))) ∧
            (k = .site → (s.site i).state = 3 → ∃ m : Msg,
              exec (.capacityChange k i new) s = .next ((s.setSite i { s.site i with state := 2 }).say m)))) ∧
        (s.ownerOf k i ≠ new → ∀ n, n ≠ 2 → s.capacityBad k i (s.ownerOf k i) new = some n →
          exec (.capacityChange k i new) s = .next (s.say (.redfish false n))) ∧
        (s.ownerOf k i ≠ new → s.capacityBad k i (s.ownerOf k i) new = some 2 → exec (.capacityChange k i new) s = .next
          ((s.updMod fun m => { m with cc := { m.cc with changes := dropChange k i m.cc.changes ++ [(k, i, new)] } }).say (.redfishTask k i new))) ∧
        (s.ownerOf k i ≠ new → s.capacityBad k i (s.ownerOf k i) new = none →
          exec (.capacityChange k i new) s = .next ((s.capacityDo k i (s.ownerOf k i) new).say (.redfish true 1)))) ∧
      (∀ q < 12, ∀ old new, new < 16 → (s.capacityDo .port q old new).portOwner q = new) ∧
      (∀ p < 8, ∀ cert limit, limit < 65536 → (s.part p).state = 0 → s.mod.sec.rngFail = false →
        ∃ u : State, exec (.partitionDefine p cert limit) s = .next u ∧ (u.part p).state = 1 ∧ (u.part p).kgen = (s.part p).kgen + 1 ∧
          (u.part p).key / 2 ^ 256 ≠ (u.part p).key % 2 ^ 256 ∧ sameTiles u ∧ u.mod.sec.drawn = s.mod.sec.drawn + 1) ∧
      (∀ p < 8, (s.part p).state = 1 ∨ (s.part p).state = 2 → (s.part p).job = none → s.quiescent p = true →
        ∃ u : State, exec (.partitionFree p) s = .next u ∧
          u.part p = { ledger := (s.part p).ledger, kgen := (s.part p).kgen, inv := (s.part p).inv } ∧
          ∀ x ∈ u.mod.cc.sessions, x.part ≠ p) ∧
      (∀ n < 48, ∀ p < 8, (s.site n).dirty = true → (s.site n).owner = 15 → (s.site n).wiping = false → (s.part p).key ≠ 0 →
        (s.part p).state ≠ 0 →
        ∃ y : Site, exec (.siteWipe n p false) s = .next (s.setSite n y) ∧ y.wiping = true ∧ y.wipeFor = p ∧
          Map.get (fun _ => 0) y.keys p = (s.part p).key ∧ y.owner = 15 ∧ y.m = (s.site n).m) ∧
      (∀ n < 48, let x := s.site n
        x.wiping = true → x.wipeStr = false → x.wipeFor < 8 → (s.part x.wipeFor).key ≠ 0 →
        Map.get (fun _ => 0) x.keys x.wipeFor = (s.part x.wipeFor).key → bits (x.csrWord 0x30) 30 28 ≠ 1 → s.quiescent x.wipeFor = true →
        ∃ u : State, exec (.wipeComplete n) s = .next u ∧ (u.site n).owner = x.wipeFor ∧ (u.site n).dirty = false ∧
          (u.site n).wiping = false ∧ (u.site n).m.mem = Map.clearRange x.m.mem 0 0xC00000000 ∧ u.tiles = s.tiles ∧
          (s.conf x.wipeFor).sites.filter (· ≠ n) ++ [n] = (u.conf x.wipeFor).sites) ∧
      (∀ count named, count ≤ 2 → (∀ f ∈ named, f < 70) → ∃ u : State, exec (.reserveSet count named) s = .next (u.say (.redfish true 1)) ∧
        u.mod.cc.reserveCount = count ∧ u.mod.cc.reserveNamed = named ∧ sameTiles u ∧ u.parts = s.parts) ∧
      (∀ p < 8, ∀ on : Bool,
        exec (.quietWindowSet p on) s = .next ((s.setPart p { s.part p with quiet := on }).say (.redfish true 1)) ∧
        ((s.part p).state ≠ 1 → exec (.debugPolicySet p on) s = .next (s.say (.redfish false 2))) ∧
        ((s.part p).state = 1 → s.quiescent p = true →
          ∃ u : State, exec (.debugPolicySet p on) s = .next (u.say (.redfish true 1)) ∧ bits (u.ez (0x5100 + 4 * p)) 0 0 = nb on ∧
            (u.part p).state = 4 ∧ (u.part p).reset = true)) ∧
      (∀ p < 8, ∀ slot < 4, ∀ key rights, (s.part p).state ≠ 0 → rights < 4 →
        let l := (s.conf p).keys.filter fun k => k.slot ≠ slot
        exec (.hostKeyRegister p slot (some key) rights) s = .next ((s.setConf p { s.conf p with
          keys := l ++ [{ slot := slot, key := key, rights := rights }] }).say (.redfish true 1)) ∧
        exec (.hostKeyRegister p slot none rights) s = .next ((s.setConf p { s.conf p with keys := l }).say (.redfish true 1))))

/-- For every field and every in-field position the tile has the logical position of R10, lies in that field and on the wafer, and no
other field and in-field position names the same tile. (R10) -/
def Obligations.Coordinates : Prop :=
  ∀ fx fy tx ty : Nat, fx < 10 → fy < 7 → tx < 35 → ty < 48 →
    let t := fieldTile (fy * 10 + fx) tx ty
    tileX t = fx * 35 + tx ∧ tileY t = fy * 48 + ty ∧ fieldOf t = fy * 10 + fx ∧ isTile t = true ∧
      ∀ gx gy ux uy : Nat, gx < 10 → gy < 7 → ux < 35 → uy < 48 → fieldTile (gy * 10 + gx) ux uy = t → gx = fx ∧ gy = fy ∧ ux = tx ∧ uy = ty

/-- A region descriptor is valid exactly when VER is 1, SIZE is 1 or more, BASE + SIZE is at most 98,304, OCC is at most SIZE and HEAD
is below SIZE. (R131) -/
def Obligations.RegionValidity : Prop :=
  ∀ r : Region, r.valid = true ↔ r.ver = 1 ∧ 1 ≤ r.size ∧ r.base + r.size ≤ 98304 ∧ r.occ ≤ r.size ∧ r.head < r.size

/-- An admitted update writes the inactive flash copy of its class and no other, which the next start tries first; one whose SVN is
below the counter is refused; in recovery an image of the failing class that verifies begins power-on anew; a commit raises the
counter to the SVN that runs, and it never falls; a valid unlock token aborts every partition, waits for a wipe or an abort, and
when the abort is over destroys every partition key and frees every partition; any other is answered with a fresh nonce; a failed
health test is recorded and stops the draws. The model's choices: the draws (log entry 8), the nonce (log entry 50), and
Falcon-1024 is symbolic (log entry 20). (R420, R421, R423, R434) -/
def Obligations.FirmwareAndKeys : Prop :=
  ∀ s : State, s.canonical = true →
    (∀ i : Image, i.cls < 7 → s.mod.cc.up = true → s.mod.sec.recovery = false →
      let a := Map.get (fun _ => 0) s.mod.sec.active i.cls
      (i.cls < 6 → i.svn < (s.arb i.cls).toNat → exec (.firmwareUpdate i) s = .next (s.say (.redfish false 9))) ∧
      (i.cls = 6 ∨ (s.arb i.cls).toNat ≤ i.svn → a ≤ 1 → i.cls ≠ 4 ∨ (s.running 4).1 ≠ 0 →
        ∃ u : State, exec (.firmwareUpdate i) s = .next (u.say (.redfish true 1)) ∧ u.flash i.cls (1 - a) = i ∧
          (∀ c k, k ≤ 1 → (c, k) ≠ (i.cls, 1 - a) → u.flash c k = s.flash c k) ∧ Map.get (fun _ => 0) u.mod.sec.boot i.cls = 1 - a ∧ { u with mod := s.mod } = s ∧
          { u.mod with sec := s.mod.sec } = s.mod)) ∧
    (∀ i : Image, i.cls < 7 → s.mod.sec.recovery = true →
      ((i.cls = 1 ∨ i.cls = 2) → i.cls = s.mod.sec.failClass → s.verifies i.cls i = true → ∃ u : State,
        exec (.firmwareUpdate i) s = .next (u.say (.redfish true 1)) ∧ u.mod.stage = 0 ∧ u.mod.sec.recovery = false ∧ u.mod.sec.certIssued = false ∧
          u.flash i.cls (1 - Map.get (fun _ => 0) s.mod.sec.active i.cls) = i ∧ { u with mod := s.mod } = s) ∧
      (i.cls ≠ s.mod.sec.failClass ∨ s.verifies i.cls i = false → exec (.firmwareUpdate i) s = .next (s.say (.redfish false 9)))) ∧
    (∀ c < 6, s.mod.cc.up = true → (s.running c).2 < 2 ^ 32 →
      ∃ u : State, exec (.commitSecurityVersion c) s = .next u ∧ (u.arb c).toNat = max (s.arb c).toNat (s.running c).2 ∧
        u.tiles = s.tiles ∧ u.sites = s.sites ∧ u.parts = s.parts) ∧
    (exec .entropyHealthFail s = .next ((s.updMod fun m => { m with sec := { m.sec with rngFail := true } }).raise
      { source := 0x2A, cls := 4, loc := feedLoc 2, code := 0 })) ∧
    (s.rootUp = true →
      (∀ (serial nonce : Nat) (t : DWord), s.mod.sec.nonce = some (nonce, t) → s.now.toNat < t.toNat + 600000000000 → serial = s.mod.serial →
        (s.clearing = true → exec (.debugUnlock serial nonce true) s =
          .next (s.updMod fun m => { m with sec := { m.sec with nonce := none, unlock := 1 } })) ∧
        (s.clearing = false → ∃ u : State, exec (.debugUnlock serial nonce true) s = .next u ∧ u.mod.sec.nonce = none ∧
          (∀ p < 8, 1 ≤ (s.part p).state → (s.part p).state ≤ 3 → (u.part p).state = 4 ∧ (u.part p).acause = 6 ∧ u.mod.sec.unlock = 2) ∧
          ((∀ p ∈ List.range 8, (s.part p).state = 0) → u.mod.sec.modDbg = true ∧ (∀ p < 8, (u.part p).key = 0) ∧ ∀ n < 48, (u.site n).dirty = true))) ∧
      (s.mod.sec.unlock = 2 → (∀ p ∈ List.range 8, (s.part p).state ≠ 4) → let u := s.unlockGo
        u.mod.sec.modDbg = true ∧ u.mod.sec.unlock = 0 ∧ (∀ p < 8, (u.part p).key = 0 ∧ (u.part p).state = 0 ∧ (u.part p).job = none) ∧
          ∀ n < 48, (u.site n).dirty = true) ∧
      (∀ serial nonce, s.mod.sec.rngFail = false → ∃ u : State, exec (.debugUnlock serial nonce false) s = .next u ∧
        u.mod.sec.nonce = some (keyDraw s.mod.sec.drawn, s.now) ∧ u.mod.sec.modDbg = s.mod.sec.modDbg ∧ u.parts = s.parts ∧ u.sites = s.sites))

/-- Once the root of trust answers: a connection negotiates version, capabilities and algorithms in that order; with the certificate
issued and the algorithms agreed it gets the digest of the chain of slot 0 and its certificates, and the challenge and
measurements signed with the alias key over the transcript, the measurements of one instant. A request out of order is answered
with an error. The request and its answer join the transcript, and nothing else changes. That the codes are those of the DMTF
standard is presumed (log entry 37). (R419, R431, R432) -/
def Obligations.Attestation : Prop :=
  ∀ (c : Nat) (s : State), c < 8 → s.rootUp = true →
    Map.wf (fun _ => ({} : Conn)) s.mod.sec.conns = true →
    let sec := s.mod.sec
    let at_ (level : Nat) (log : List Nat) : State := s.setConn c { level := level, log := log }
    let now := (s.conn c).level
    let script (req : List Nat) (code : Nat) (l : List Nat) : List Nat := (s.conn c).log ++ req ++ code :: l
    let sends (req : List Nat) (level code : Nat) (l : List Nat) : Host.Outcome State Fault Refusal :=
      .next ((at_ level (script req code l)).say (.spdm c code l))
    let signs (req : List Nat) (code nonce : Nat) (l : List Nat) : Host.Outcome State Fault Refusal :=
      .next ((at_ now (script req code l)).say (.spdmSigned c sec.aliasKey nonce l (script req code l)))
    exec (.getVersion c) s = .next ((at_ 1 [0x84, 0x04, 0x13]).say (.spdm c 0x04 [0x13])) ∧
    (now = 0 → exec (.getCapabilities c) s = sends [0xE1] 0 0x7F [0x04]) ∧
    (now ≠ 0 → exec (.getCapabilities c) s = sends [0xE1] 2 0x61 [0x16]) ∧
    (sec.certIssued = true → now = 2 →
      exec (.negotiateAlgorithms c true true) s = sends [0xE3, 1, 1] 3 0x63 [1, 1] ∧
      ∀ b : Bool, exec (.negotiateAlgorithms c false b) s = sends [0xE3, 0, nb b] now 0x7F [0x01]) ∧
    (∀ k log, (at_ k log).spdmAt c = k ∧ ∀ d, d ≠ c → (at_ k log).conn d = s.conn d) ∧
    (sec.certIssued = true → now = 3 →
      exec (.getDigests c) s = sends [0x81] now 0x01 [1, s.chainDigest] ∧
      exec (.getCertificate c 0) s = sends [0x82, 0] now 0x02 s.certChain.flatten ∧
      (∀ nonce, exec (.challenge c 0 nonce) s = signs [0x83, 0, nonce] 0x03 nonce [s.chainDigest] ∧
        exec (.getMeasurements c 0 nonce) s = signs [0xE0, 0, nonce] 0x60 nonce [18] ∧
        ∀ i l, 0 < i → i < 255 → s.measure i = some l → exec (.getMeasurements c i nonce) s = signs [0xE0, i, nonce] 0x60 nonce (i :: l)) ∧
      (∀ slot nonce, slot ≠ 0 → exec (.challenge c slot nonce) s = sends [0x83, slot, nonce] now 0x7F [0x01])) ∧
    (sec.certIssued = true → now ≠ 3 → exec (.getDigests c) s = sends [0x81] now 0x7F [0x04]) ∧
    (sec.certIssued = false → exec (.getDigests c) s = sends [0x81] now 0x7F [0x42])

/-- Power-on begins at stage 0; stage 0 leads to 1 with the alias key drawn, the end of stage 1 begins the training of the sites whose
firmware verified, stage 2 starts the job service or enters recovery (STAGE 7), and ends with the training, which leaves trained
sites ready; stage 3 ends with the march of every ready site, stage 4 leads to 5 after the first lock, stage 5 to 6 with routes
computed once every field that may be powered is ready and tested; the module is ready once; a module reset aborts every partition
and reads STAGE 8. The model's choices: the draws (log entry 8), and when STATE of a site and the certificate change (log entry
40). (R463, R464, R466, R467, R468, R470) -/
def Obligations.PowerOnAndReset : Prop :=
  ∀ s : State, s.canonical = true →
    (∀ a b : Bool, s.mod.powered = false → s.mod.holdUp = none → a = true ∨ b = true → ∃ u : State, exec (.powerOn a b) s = .next u ∧ u.mod.powered = true ∧
      u.mod.stage = 0 ∧ u.tiles = s.tiles ∧ u.sites = s.sites ∧ (0 ∈ u.mod.pow.absent ↔ a = false) ∧ (1 ∈ u.mod.pow.absent ↔ b = false)) ∧
    (s.mod.powered = true →
      (s.mod.stage = 0 → (s.goodCopy 0).isSome = true → s.mod.sec.rngFail = false → ∀ l,
        ∃ u : State, exec (.powerOnStageComplete l) s = .next u ∧ u.mod.stage = 1 ∧ u.mod.sec.aliasKey = keyDraw s.mod.sec.drawn ∧
          u.sites = s.sites) ∧
      (s.mod.stage = 1 → s.mod.sec.recovery = false → (s.goodCopy 3).isSome = true → ∀ l, ∃ u : State, exec (.powerOnStageComplete l) s = .next u ∧ u.mod.stage = 2 ∧
        u.tiles = s.tiles ∧ ∀ n < 48, (u.site n).state = (if n ∈ l then 3 else 1) ∧ (u.site n).m = (s.site n).m) ∧
      (s.mod.stage = 2 → s.mod.cc.up = false → (s.goodCopy 1).isSome = true → (s.goodCopy 2).isSome = true → ∀ l,
        ∃ u : State, exec (.powerOnStageComplete l) s = .next u ∧ u.mod.stage = 2 ∧ u.mod.cc.up = true ∧
          (s.mod.sec.aliasKey ≠ 0 → u.mod.sec.certIssued = true) ∧ u.sites = s.sites) ∧
      (s.mod.stage = 2 → s.mod.cc.up = false → s.goodCopy 1 = none ∨ s.goodCopy 2 = none → ∀ l,
        ∃ u : State, exec (.powerOnStageComplete l) s = .next u ∧ u.mod.stage = 7 ∧ u.mod.failStep = 2 ∧ u.mod.sec.recovery = true ∧
          u.mod.sec.failClass = (if s.goodCopy 1 = none then 1 else 2)) ∧
      (s.mod.stage = 2 → s.mod.cc.up = true → ∀ l, ∃ u : State, exec (.powerOnStageComplete l) s = .next u ∧ u.mod.stage = 3 ∧
        ∀ n < 48, (u.site n).state = (if (s.site n).state = 3 ∨ n ∈ l then 3 else 2)) ∧
      (s.mod.stage = 3 → ∀ l,
        ((∀ n ∈ List.range 48, (s.site n).state ≠ 2 ∨ (s.site n).marched = true) → exec (.powerOnStageComplete l) s = .next (s.setStage 4)) ∧
        ((∃ n ∈ List.range 48, (s.site n).state = 2 ∧ (s.site n).marched = false) → exec (.powerOnStageComplete l) s = .next s)) ∧
      (s.mod.stage = 4 → s.mod.firstLock = true → ∀ l, exec (.powerOnStageComplete l) s = .next (s.setStage 5)) ∧
      (s.mod.stage = 4 → s.mod.firstLock = false → ∀ l, ∃ u : State, exec (.powerOnStageComplete l) s = .next u ∧ u.mod.stage = 5 ∧
        u.now = 0 ∧ u.counting = true ∧ u.mod.firstLock = true) ∧
      (s.mod.stage = 5 → ∀ l, (s.fieldsDone = true → exec (.powerOnStageComplete l) s = .next (s.reroute.setStage 6)) ∧
        (s.fieldsDone = false → exec (.powerOnStageComplete l) s = .next s)) ∧
      (6 ≤ s.mod.stage → ∀ l, exec (.powerOnStageComplete l) s = .next s)) ∧
    (s.mod.stage = 6 → s.mod.cc.up = true → s.mod.ready = false → ∃ u : State, exec .moduleReady s = .next u ∧ u.mod.ready = true ∧
      (∀ t, { u.tile t with credit := none } = { s.tile t with credit := none }) ∧ ∀ p < 8, (s.conf p).known = true → (s.part p).state = 0 → s.mod.sec.rngFail = false →
        (u.part p).state = 1 ∧ (u.part p).key / 2 ^ 256 ≠ (u.part p).key % 2 ^ 256) ∧
    (s.mod.stage ≠ 8 → ∃ u : State, exec (.moduleReset true) s = .next u ∧ u.mod.stage = 8 ∧
      u.mod.resetting = true ∧ u.mod.ready = false ∧ ∀ p < 8, 1 ≤ (s.part p).state → (s.part p).state ≤ 3 →
        (u.part p).state = 4 ∧ (u.part p).acause = 6) ∧
    (s.mod.stage = 8 → exec (.moduleReset true) s = .next s)

/-- After reset no command waits, Cirrus does not count, the module is at stage 0 and not powered; every field is off with its map of
the factory, every site, port and partition in STATE 0, every tile idle; the registers of the module read their reset values (feed
LIMIT 27,000 W, ECAP 42,000 W); the state is canonical. The values that the spec does not state (the factory data, log entries 2
and 3) are the choices of the model. (R349, R463, R464, 19_bringup_reset.md, 14_power_thermal_timebase.md) -/
def Obligations.ResetState : Prop :=
  let s := State.reset;
    s.pending = [] ∧ s.counting = false ∧ s.mod.stage = 0 ∧ s.mod.powered = false ∧ s.mod.cc.up = false ∧ s.outbox = [] ∧ s.canonical = true ∧
      (∀ t, s.tile t = {} ∧ runBit (s.tile t) = false) ∧ (∀ f, (s.field f).power = 0 ∧ (s.field f).lock = false) ∧
      (∀ n, (s.site n).state = 0 ∧ (s.site n).owner = 15 ∧ (s.site n).dirty = true ∧ (s.site n).id = n) ∧ (∀ q, (s.port q).state = 0 ∧ s.portOwner q = 15) ∧
      (∀ p, (s.part p).state = 0 ∧ (s.part p).key = 0) ∧ (∀ o, s.ez o = regReset modRegs o) ∧ (∀ o, s.preg o = factoryWord o) ∧
      bits (s.ez 0x8) 15 0 = 27000 ∧ bits (s.ez 0x18) 15 0 = 27000 ∧ bits (s.ez 0x20) 31 16 = 42000

/-- A record that the rate limit lets pass takes the next place of the ring with the next number, its source, class and locator, and
the time where Cirrus counts; HEAD and SEQNO advance. A second record of CLASS 2 to 4 of the same source and locator at that
instant changes nothing. A full ring keeps its records, counts the drop and marks the next record as LOST. While Cirrus does not
count, TIME is 0 and the rate limit takes all records as of one instant: the model's choice (log entry 118). (R442, R443, R444,
R445) -/
def Obligations.ErrorLogRecords : Prop :=
  ∀ (s : State) (r : Rec), Map.wf (regReset modRegs) s.mod.csr = true →
    let head := bits (s.ez 0x6000) 13 0
    let tail := bits (s.ez 0x6004) 13 0
    let limited : Prop := 2 ≤ r.cls ∧ r.cls ≤ 4 ∧
      ∃ x ∈ s.mod.log.last, x.1 = r.source ∧ x.2.1 = r.loc ∧ s.now.toNat < x.2.2.toNat + 1000000
    let u := s.logRec r
    (limited → u = s) ∧
    (¬ limited → (head + 1) % 16384 ≠ tail →
      bits (u.ez 0x6000) 13 0 = (head + 1) % 16384 ∧ u.ez 0x600C = s.ez 0x600C + 1 ∧ u.ez 0x6004 = s.ez 0x6004 ∧
      u.mod.log.lost = false ∧ u.mod.log.flash = s.mod.log.flash ∧ { u with mod := s.mod } = s ∧
      (∃ e : LogRec, (u.mod.log.ring.find? fun x => x.1 = head) = some (head, e) ∧ e.seqno = (s.ez 0x600C).toNat ∧ e.source = r.source ∧
        e.cls = r.cls ∧ e.loc = r.loc ∧ e.part = s.locPart r.loc ∧ e.addr = r.addr ∧ e.time = (if s.counting then s.now else 0) ∧
        e.flags = nb (r.cls = 1 && decide (s.locPart r.loc < 8)) + 2 * nb r.inj + 4 * nb s.mod.log.lost) ∧
      (2 ≤ r.cls → r.cls ≤ 4 → ∀ v : Rec, v.source = r.source → v.loc = r.loc → 2 ≤ v.cls → v.cls ≤ 4 → u.logRec v = u)) ∧
    (¬ limited → (head + 1) % 16384 = tail → u.mod.log.ring = s.mod.log.ring ∧ u.mod.log.lost = true ∧
      (u.ez 0x6008).toNat = min (2 ^ 32 - 1) ((s.ez 0x6008).toNat + 1) ∧ u.ez 0x600C = s.ez 0x600C)

/-- Whatever command is carried out in whatever state, the commands that wait are those that waited, in their order.
(95_what_each_step_holds.md) -/
def Obligations.QueueKept : Prop :=
  ∀ (c : Instr) (s u : State), exec c s = .next u → u.pending = s.pending

/-- A command whose operands lie in their ranges answers a next state in every state, be it its effect, a wait or a refusal that the
module answers; a command that names what the module does not have is a fault of the model's own (log entry 17), and leaves
nothing. (R475, 95_what_each_step_holds.md) -/
def Obligations.WellFormedCompletes : Prop :=
  ∀ (c : Instr) (s : State), (c.wf = true → ∃ u : State, exec c s = .next u) ∧ (c.wf = false → exec c s = .fault .malformed)

/-- Every instruction of a tile that has a word, with every operand field at every value, is what its word decodes to; and whatever
word decodes to an instruction is the word of that instruction: no bit of an encoding is dropped and no two instructions share a
word. (R144, R145, R146, R156, R172, R181, 06_greset_isa.md) -/
def Obligations.EncodeDecode : Prop :=
  (∀ (c : Instr) (w : DWord), encodeWord c = some w → ∃ t, decodeWord t w = some c) ∧
    (∀ (t : Nat) (w : DWord) (c : Instr), decodeWord t w = some c → encodeWord c = some w)

/-- From every state in canonical form, whatever commands wait, a step that answers a next state leaves a state in canonical form: the
tiles, fields, sites, ports and partitions, the registers and memories of each tile, field, site and port, and the registers, the
persistent words, the configuration and the DRAM of the module are listed by rising keys, and nothing is listed that is in its
reset state. (95_what_each_step_holds.md) -/
def Obligations.CanonicalKept : Prop :=
  ∀ (s u : State), s.canonical = true → step s = .next u → u.canonical = true
end

