-- ==== Sys2Proof/Laws/FactoryMap.lean ====
section
/-!
SUPPORT. The tile map that the factory stored for a field is one that a power-up accepts.
-/

namespace Sys2Proof.Machine

/-- Every entry of a field accords with the factory's bypassed column, and names no bad tile. -/
theorem factory_entries : ∀ i < 1728, (entryOk 69 35 i (factoryEntry (119232 + i)) && !(bits (factoryEntry (119232 + i)) 31 29 = 2)) = true := by
  have all : ((List.range 48).all fun a => (List.range 36).all fun b =>
      entryOk 69 35 (36 * a + b) (factoryEntry (119232 + (36 * a + b))) &&
        !(bits (factoryEntry (119232 + (36 * a + b))) 31 29 = 2)) = true := by decide +kernel
  intro i hi
  have one := List.all_eq_true.mp (List.all_eq_true.mp all (i / 36) (List.mem_range.mpr (by omega))) (i % 36) (List.mem_range.mpr (by omega))
  rwa [show 36 * (i / 36) + i % 36 = i by omega] at one

/-- The words of a field's map as the factory stored them. -/
theorem factory_word (s : State) (h : s.mod.preg = []) (i : Nat) (hi : i < 1728) : s.mapEntry 69 i = factoryEntry (119232 + i) := by
  have ho : 4 * (1728 * 69 + i) < 4 * 120960 := by omega
  simp only [State.mapEntry, State.preg, h, Map.get, factoryWord, ho, if_true]
  congr 1
  omega

/-- The CRC that the factory stored is that of its entries. -/
theorem factory_crc (s : State) (h : s.mod.preg = []) : s.mapCrc 69 = entriesCrc ((List.range 1728).map (s.mapEntry 69)) := by
  rw [List.map_congr_left fun i hi => factory_word s h i (List.mem_range.mp hi)]
  have word : factoryWord (0x80004 + 8 * 69) =
      entriesCrc ((List.range 1728).map fun i => factoryEntry ((0x80004 + 8 * 69 - 0x80000) / 8 * 1728 + i)) := by
    rw [factoryWord, if_neg (by decide), if_pos (by decide), if_neg (by decide)]
  rw [State.mapCrc, State.preg, h]
  exact word

/-- The map that the factory stored for a field is accepted. -/
theorem mapBad_factory (s : State) (h : s.mod.preg = []) : s.mapBad 69 = none := by
  have sum : s.mapSum 69 = 35#32 := by rw [State.mapSum, State.preg, h]; decide
  have word (i : Nat) (hi : i < 1728) : nth 0 ((List.range 1728).map (s.mapEntry 69)) i = factoryEntry (119232 + i) := by
    simp [nth, hi, factory_word s h i hi]
  have none2 : ((List.range 1728).map (s.mapEntry 69)).filter (fun w => bits w 31 29 = 2) = [] := by
    rw [List.filter_eq_nil_iff]
    intro w hw
    obtain ⟨i, hi, rfl⟩ := List.mem_map.mp hw
    have := factory_entries i (List.mem_range.mp hi)
    rw [factory_word s h i (List.mem_range.mp hi)]
    simp only [Bool.and_eq_true, Bool.not_eq_true', decide_eq_false_iff_not] at this
    simpa using this.2
  have good : ((List.range 1728).find? fun i =>
      !entryOk 69 (bits 35#32 5 0) i (nth 0 ((List.range 1728).map (s.mapEntry 69)) i)) = none := by
    rw [List.find?_eq_none]
    intro i hi
    have hi := List.mem_range.mp hi
    have := factory_entries i hi
    simp only [Bool.and_eq_true] at this
    rw [word i hi, show bits 35#32 5 0 = 35 by decide]
    simpa using this.1
  unfold State.mapBad
  simp only [sum, good, none2, ← factory_crc s h]
  simp only [List.length_nil, ne_eq, not_true_eq_false, if_false]
  exact if_neg (by decide)

end Sys2Proof.Machine
end

