-- ==== Sys2Proof/Laws/Map.lean ====
section
/-!
SUPPORT. The sparse map: a read after a write, reads of other keys, and that every operation keeps the canonical form.
-/

namespace Sys2Proof.Map

variable {α : Type}

theorem above_iff {k : Nat} {m : Map α} : above k m = true ↔ ∀ e ∈ m, k < e.1 := by
  simp [above]

/-- A key below every listed key reads as the default. -/
theorem get_of_above (d : Nat → α) {m : Map α} {k : Nat} (h : ∀ e ∈ m, k < e.1) : get d m k = d k := by
  cases m with
  | nil => rfl
  | cons e m =>
    obtain ⟨j, v⟩ := e
    have := h (j, v) (by simp)
    simp only at this
    simp only [get]
    rw [if_neg (by omega), if_pos this]

theorem get_insert_self (d : Nat → α) (m : Map α) (k : Nat) (x : α) : get d (insert m k x) k = x := by
  induction m with
  | nil => simp [insert, get]
  | cons e m ih =>
    obtain ⟨j, v⟩ := e
    simp only [insert]
    split
    · simp [get]
    · split
      · simp [get]
      · rename_i h1 h2
        simp only [get]
        rw [if_neg h1, if_neg h2, ih]

theorem get_insert_ne (d : Nat → α) (m : Map α) {k l : Nat} (x : α) (h : l ≠ k) :
    get d (insert m k x) l = get d m l := by
  induction m with
  | nil =>
    simp only [insert, get]
    rw [if_neg h]
    split <;> rfl
  | cons e m ih =>
    obtain ⟨j, v⟩ := e
    simp only [insert]
    split
    · rename_i h1
      subst h1
      simp only [get]
      rw [if_neg h]
      rw [if_neg h]
    · split
      · rename_i h1 h2
        simp only [get]
        by_cases hl : l < k
        · rw [if_neg h, if_pos hl, if_neg (by omega), if_pos (by omega)]
        · rw [if_neg h, if_neg hl]
      · simp only [get, ih]

theorem above_insert {m : Map α} {j k : Nat} {x : α} (h : above j m = true) (hk : j < k) :
    above j (insert m k x) = true := by
  induction m with
  | nil => simp [insert, above, hk]
  | cons e m ih =>
    obtain ⟨i, v⟩ := e
    simp only [above_iff, List.mem_cons, forall_eq_or_imp] at h
    simp only [insert]
    split
    · simp only [above_iff, List.mem_cons, forall_eq_or_imp]
      exact ⟨hk, h.2⟩
    · split
      · simp only [above_iff, List.mem_cons, forall_eq_or_imp]
        exact ⟨hk, h.1, h.2⟩
      · have := ih (above_iff.2 h.2)
        rw [above_iff] at this
        simp only [above_iff, List.mem_cons, forall_eq_or_imp]
        exact ⟨h.1, this⟩

theorem above_erase {m : Map α} {j k : Nat} (h : above j m = true) : above j (erase m k) = true := by
  induction m with
  | nil => simp [erase, above]
  | cons e m ih =>
    obtain ⟨i, v⟩ := e
    simp only [above_iff, List.mem_cons, forall_eq_or_imp] at h
    simp only [erase]
    split
    · exact above_iff.2 h.2
    · split
      · exact above_iff.2 (by simpa using h)
      · have := ih (above_iff.2 h.2)
        rw [above_iff] at this
        simp only [above_iff, List.mem_cons, forall_eq_or_imp]
        exact ⟨h.1, this⟩

theorem above_trans {m : Map α} {j k : Nat} (h : above k m = true) (hj : j ≤ k) : above j m = true := by
  rw [above_iff] at *
  intro e he
  have := h e he
  omega

variable [DecidableEq α]

theorem wf_insert {d : Nat → α} {m : Map α} {k : Nat} {x : α} (h : wf d m = true) (hx : x ≠ d k) :
    wf d (insert m k x) = true := by
  induction m with
  | nil => simp [insert, wf, above, hx]
  | cons e m ih =>
    obtain ⟨j, v⟩ := e
    simp only [wf, Bool.and_eq_true, decide_eq_true_eq] at h
    simp only [insert]
    split
    · rename_i h1
      subst h1
      simp only [wf, Bool.and_eq_true, decide_eq_true_eq]
      exact ⟨⟨h.1.1, hx⟩, h.2⟩
    · split
      · rename_i h1 h2
        simp only [wf, Bool.and_eq_true, decide_eq_true_eq]
        refine ⟨⟨?_, hx⟩, h⟩
        simp only [above_iff, List.mem_cons, forall_eq_or_imp]
        exact ⟨h2, above_iff.1 (above_trans h.1.1 (by omega))⟩
      · rename_i h1 h2
        simp only [wf, Bool.and_eq_true, decide_eq_true_eq]
        exact ⟨⟨above_insert h.1.1 (by omega), h.1.2⟩, ih h.2⟩

theorem wf_erase {d : Nat → α} {m : Map α} {k : Nat} (h : wf d m = true) : wf d (erase m k) = true := by
  induction m with
  | nil => simp [erase, wf]
  | cons e m ih =>
    obtain ⟨j, v⟩ := e
    have h' := h
    simp only [wf, Bool.and_eq_true, decide_eq_true_eq] at h
    simp only [erase]
    split
    · exact h.2
    · split
      · exact h'
      · simp only [wf, Bool.and_eq_true, decide_eq_true_eq]
        exact ⟨⟨above_erase h.1.1, h.1.2⟩, ih h.2⟩

/-- A write keeps the canonical form. -/
theorem wf_set {d : Nat → α} {m : Map α} {k : Nat} {x : α} (h : wf d m = true) : wf d (set d m k x) = true := by
  simp only [set]
  split
  · exact wf_erase h
  · rename_i hx
    exact wf_insert h hx

theorem wf_setMany {d : Nat → α} {m : Map α} {k : Nat} {l : List α} (h : wf d m = true) :
    wf d (setMany d m k l) = true := by
  induction l generalizing m k with
  | nil => exact h
  | cons x l ih => exact ih (wf_set h)

theorem wf_filter {d : Nat → α} {m : Map α} {p : Nat × α → Bool} (h : wf d m = true) :
    wf d (m.filter p) = true := by
  induction m with
  | nil => rfl
  | cons e m ih =>
    obtain ⟨j, v⟩ := e
    simp only [wf, Bool.and_eq_true, decide_eq_true_eq] at h
    simp only [List.filter_cons]
    split
    · simp only [wf, Bool.and_eq_true, decide_eq_true_eq]
      refine ⟨⟨?_, h.1.2⟩, ih h.2⟩
      have h1 := above_iff.1 h.1.1
      exact above_iff.2 fun e he => h1 e (List.mem_filter.1 he).1
    · exact ih h.2

theorem wf_clearRange {d : Nat → α} {m : Map α} {lo hi : Nat} (h : wf d m = true) :
    wf d (clearRange m lo hi) = true := wf_filter h

/-- In a canonical map, erasing a key makes it read as the default. -/
theorem get_erase_self {d : Nat → α} {m : Map α} {k : Nat} (h : wf d m = true) : get d (erase m k) k = d k := by
  induction m with
  | nil => rfl
  | cons e m ih =>
    obtain ⟨j, v⟩ := e
    simp only [wf, Bool.and_eq_true, decide_eq_true_eq] at h
    simp only [erase]
    split
    · rename_i h1
      subst h1
      exact get_of_above d (above_iff.1 h.1.1)
    · split
      · rename_i h1 h2
        simp only [get]
        rw [if_neg h1, if_pos h2]
      · rename_i h1 h2
        simp only [get]
        rw [if_neg h1, if_neg h2, ih h.2]

theorem get_erase_ne {d : Nat → α} {m : Map α} {k l : Nat} (h : wf d m = true) (hl : l ≠ k) :
    get d (erase m k) l = get d m l := by
  induction m with
  | nil => rfl
  | cons e m ih =>
    obtain ⟨j, v⟩ := e
    simp only [wf, Bool.and_eq_true, decide_eq_true_eq] at h
    simp only [erase]
    split
    · rename_i h1
      subst h1
      simp only [get]
      rw [if_neg hl]
      split
      · rename_i h2
        exact get_of_above d fun e he => by have := above_iff.1 h.1.1 e he; omega
      · rfl
    · split
      · rfl
      · simp only [get, ih h.2]

/-- A read after a write to the same key. -/
theorem get_set_self {d : Nat → α} {m : Map α} {k : Nat} {x : α} (h : wf d m = true) : get d (set d m k x) k = x := by
  simp only [set]
  split
  · rename_i hx
    rw [get_erase_self h, hx]
  · exact get_insert_self d m k x

/-- A write leaves every other key alone. -/
theorem get_set_ne {d : Nat → α} {m : Map α} {k l : Nat} {x : α} (h : wf d m = true) (hl : l ≠ k) :
    get d (set d m k x) l = get d m l := by
  simp only [set]
  split
  · exact get_erase_ne h hl
  · exact get_insert_ne d m x hl

/-- Canonical maps that read alike are equal. -/
theorem ext_wf {d : Nat → α} {m n : Map α} (hm : wf d m = true) (hn : wf d n = true) (h : ∀ k, get d m k = get d n k) :
    m = n := by
  induction m generalizing n with
  | nil =>
    cases n with
    | nil => rfl
    | cons e n =>
      obtain ⟨j, v⟩ := e
      simp only [wf, Bool.and_eq_true, decide_eq_true_eq] at hn
      have := h j
      simp [get] at this
      exact absurd this.symm hn.1.2
  | cons e m ih =>
    obtain ⟨j, v⟩ := e
    cases n with
    | nil =>
      simp only [wf, Bool.and_eq_true, decide_eq_true_eq] at hm
      have := h j
      simp [get] at this
      exact absurd this hm.1.2
    | cons e' n =>
      obtain ⟨i, w⟩ := e'
      simp only [wf, Bool.and_eq_true, decide_eq_true_eq] at hm hn
      have hji : j = i := by
        by_contra hne
        rcases Nat.lt_or_ge j i with hlt | hge
        · have := h j
          simp only [get, if_true] at this
          rw [if_neg (by omega), if_pos hlt] at this
          exact hm.1.2 this
        · have hlt : i < j := by omega
          have := h i
          simp only [get, if_true] at this
          rw [if_neg (by omega), if_pos hlt] at this
          exact hn.1.2 this.symm
      subst hji
      have hv : v = w := by
        have := h j
        simpa [get] using this
      subst hv
      congr 1
      apply ih hm.2 hn.2
      intro k
      by_cases hk : k = j
      · subst hk
        rw [get_of_above d (above_iff.1 hm.1.1), get_of_above d (above_iff.1 hn.1.1)]
      · by_cases hlt : k < j
        · rw [get_of_above d fun e he => by have := above_iff.1 hm.1.1 e he; omega,
            get_of_above d fun e he => by have := above_iff.1 hn.1.1 e he; omega]
        · have := h k
          simp only [get] at this
          rwa [if_neg hk, if_neg hlt, if_neg hk, if_neg hlt] at this

end Sys2Proof.Map
end

