-- ==== Sys2Proof/Laws/State.lean ====
section
/-!
SUPPORT. The state: what each update does to each field, reads after writes of a part, and that updates keep the canonical form.
-/

namespace Sys2Proof.Machine

@[simp] theorem State.setTile_pending (s : State) (i : Nat) (x : Tile) : (s.setTile i x).pending = s.pending := rfl
@[simp] theorem State.setTile_free (s : State) (i : Nat) (x : Tile) : (s.setTile i x).free = s.free := rfl
@[simp] theorem State.setTile_now (s : State) (i : Nat) (x : Tile) : (s.setTile i x).now = s.now := rfl
@[simp] theorem State.setTile_counting (s : State) (i : Nat) (x : Tile) : (s.setTile i x).counting = s.counting := rfl
theorem State.setTile_tiles (s : State) (i : Nat) (x : Tile) : (s.setTile i x).tiles = Map.set (fun _ => ({} : Tile)) s.tiles i x := rfl
@[simp] theorem State.setTile_fields (s : State) (i : Nat) (x : Tile) : (s.setTile i x).fields = s.fields := rfl
@[simp] theorem State.setTile_sites (s : State) (i : Nat) (x : Tile) : (s.setTile i x).sites = s.sites := rfl
@[simp] theorem State.setTile_ports (s : State) (i : Nat) (x : Tile) : (s.setTile i x).ports = s.ports := rfl
@[simp] theorem State.setTile_parts (s : State) (i : Nat) (x : Tile) : (s.setTile i x).parts = s.parts := rfl
@[simp] theorem State.setTile_mod (s : State) (i : Nat) (x : Tile) : (s.setTile i x).mod = s.mod := rfl
@[simp] theorem State.setTile_outbox (s : State) (i : Nat) (x : Tile) : (s.setTile i x).outbox = s.outbox := rfl
@[simp] theorem State.setTile_field (s : State) (i : Nat) (x : Tile) (j : Nat) : (s.setTile i x).field j = s.field j := rfl
@[simp] theorem State.setTile_site (s : State) (i : Nat) (x : Tile) (j : Nat) : (s.setTile i x).site j = s.site j := rfl
@[simp] theorem State.setTile_port (s : State) (i : Nat) (x : Tile) (j : Nat) : (s.setTile i x).port j = s.port j := rfl
@[simp] theorem State.setTile_part (s : State) (i : Nat) (x : Tile) (j : Nat) : (s.setTile i x).part j = s.part j := rfl

@[simp] theorem State.setField_pending (s : State) (i : Nat) (x : Field) : (s.setField i x).pending = s.pending := rfl
@[simp] theorem State.setField_free (s : State) (i : Nat) (x : Field) : (s.setField i x).free = s.free := rfl
@[simp] theorem State.setField_now (s : State) (i : Nat) (x : Field) : (s.setField i x).now = s.now := rfl
@[simp] theorem State.setField_counting (s : State) (i : Nat) (x : Field) : (s.setField i x).counting = s.counting := rfl
@[simp] theorem State.setField_tiles (s : State) (i : Nat) (x : Field) : (s.setField i x).tiles = s.tiles := rfl
theorem State.setField_fields (s : State) (i : Nat) (x : Field) : (s.setField i x).fields = Map.set (fun _ => ({} : Field)) s.fields i x := rfl
@[simp] theorem State.setField_sites (s : State) (i : Nat) (x : Field) : (s.setField i x).sites = s.sites := rfl
@[simp] theorem State.setField_ports (s : State) (i : Nat) (x : Field) : (s.setField i x).ports = s.ports := rfl
@[simp] theorem State.setField_parts (s : State) (i : Nat) (x : Field) : (s.setField i x).parts = s.parts := rfl
@[simp] theorem State.setField_mod (s : State) (i : Nat) (x : Field) : (s.setField i x).mod = s.mod := rfl
@[simp] theorem State.setField_outbox (s : State) (i : Nat) (x : Field) : (s.setField i x).outbox = s.outbox := rfl
@[simp] theorem State.setField_tile (s : State) (i : Nat) (x : Field) (j : Nat) : (s.setField i x).tile j = s.tile j := rfl
@[simp] theorem State.setField_site (s : State) (i : Nat) (x : Field) (j : Nat) : (s.setField i x).site j = s.site j := rfl
@[simp] theorem State.setField_port (s : State) (i : Nat) (x : Field) (j : Nat) : (s.setField i x).port j = s.port j := rfl
@[simp] theorem State.setField_part (s : State) (i : Nat) (x : Field) (j : Nat) : (s.setField i x).part j = s.part j := rfl

@[simp] theorem State.setSite_pending (s : State) (i : Nat) (x : Site) : (s.setSite i x).pending = s.pending := rfl
@[simp] theorem State.setSite_free (s : State) (i : Nat) (x : Site) : (s.setSite i x).free = s.free := rfl
@[simp] theorem State.setSite_now (s : State) (i : Nat) (x : Site) : (s.setSite i x).now = s.now := rfl
@[simp] theorem State.setSite_counting (s : State) (i : Nat) (x : Site) : (s.setSite i x).counting = s.counting := rfl
@[simp] theorem State.setSite_tiles (s : State) (i : Nat) (x : Site) : (s.setSite i x).tiles = s.tiles := rfl
@[simp] theorem State.setSite_fields (s : State) (i : Nat) (x : Site) : (s.setSite i x).fields = s.fields := rfl
theorem State.setSite_sites (s : State) (i : Nat) (x : Site) : (s.setSite i x).sites = Map.set blankSite s.sites i x := rfl
@[simp] theorem State.setSite_ports (s : State) (i : Nat) (x : Site) : (s.setSite i x).ports = s.ports := rfl
@[simp] theorem State.setSite_parts (s : State) (i : Nat) (x : Site) : (s.setSite i x).parts = s.parts := rfl
@[simp] theorem State.setSite_mod (s : State) (i : Nat) (x : Site) : (s.setSite i x).mod = s.mod := rfl
@[simp] theorem State.setSite_outbox (s : State) (i : Nat) (x : Site) : (s.setSite i x).outbox = s.outbox := rfl
@[simp] theorem State.setSite_tile (s : State) (i : Nat) (x : Site) (j : Nat) : (s.setSite i x).tile j = s.tile j := rfl
@[simp] theorem State.setSite_field (s : State) (i : Nat) (x : Site) (j : Nat) : (s.setSite i x).field j = s.field j := rfl
@[simp] theorem State.setSite_port (s : State) (i : Nat) (x : Site) (j : Nat) : (s.setSite i x).port j = s.port j := rfl
@[simp] theorem State.setSite_part (s : State) (i : Nat) (x : Site) (j : Nat) : (s.setSite i x).part j = s.part j := rfl

@[simp] theorem State.setPort_pending (s : State) (i : Nat) (x : Port) : (s.setPort i x).pending = s.pending := rfl
@[simp] theorem State.setPort_free (s : State) (i : Nat) (x : Port) : (s.setPort i x).free = s.free := rfl
@[simp] theorem State.setPort_now (s : State) (i : Nat) (x : Port) : (s.setPort i x).now = s.now := rfl
@[simp] theorem State.setPort_counting (s : State) (i : Nat) (x : Port) : (s.setPort i x).counting = s.counting := rfl
@[simp] theorem State.setPort_tiles (s : State) (i : Nat) (x : Port) : (s.setPort i x).tiles = s.tiles := rfl
@[simp] theorem State.setPort_fields (s : State) (i : Nat) (x : Port) : (s.setPort i x).fields = s.fields := rfl
@[simp] theorem State.setPort_sites (s : State) (i : Nat) (x : Port) : (s.setPort i x).sites = s.sites := rfl
theorem State.setPort_ports (s : State) (i : Nat) (x : Port) : (s.setPort i x).ports = Map.set (fun _ => ({} : Port)) s.ports i x := rfl
@[simp] theorem State.setPort_parts (s : State) (i : Nat) (x : Port) : (s.setPort i x).parts = s.parts := rfl
@[simp] theorem State.setPort_mod (s : State) (i : Nat) (x : Port) : (s.setPort i x).mod = s.mod := rfl
@[simp] theorem State.setPort_outbox (s : State) (i : Nat) (x : Port) : (s.setPort i x).outbox = s.outbox := rfl
@[simp] theorem State.setPort_tile (s : State) (i : Nat) (x : Port) (j : Nat) : (s.setPort i x).tile j = s.tile j := rfl
@[simp] theorem State.setPort_field (s : State) (i : Nat) (x : Port) (j : Nat) : (s.setPort i x).field j = s.field j := rfl
@[simp] theorem State.setPort_site (s : State) (i : Nat) (x : Port) (j : Nat) : (s.setPort i x).site j = s.site j := rfl
@[simp] theorem State.setPort_part (s : State) (i : Nat) (x : Port) (j : Nat) : (s.setPort i x).part j = s.part j := rfl

@[simp] theorem State.setPart_pending (s : State) (i : Nat) (x : Part) : (s.setPart i x).pending = s.pending := rfl
@[simp] theorem State.setPart_free (s : State) (i : Nat) (x : Part) : (s.setPart i x).free = s.free := rfl
@[simp] theorem State.setPart_now (s : State) (i : Nat) (x : Part) : (s.setPart i x).now = s.now := rfl
@[simp] theorem State.setPart_counting (s : State) (i : Nat) (x : Part) : (s.setPart i x).counting = s.counting := rfl
@[simp] theorem State.setPart_tiles (s : State) (i : Nat) (x : Part) : (s.setPart i x).tiles = s.tiles := rfl
@[simp] theorem State.setPart_fields (s : State) (i : Nat) (x : Part) : (s.setPart i x).fields = s.fields := rfl
@[simp] theorem State.setPart_sites (s : State) (i : Nat) (x : Part) : (s.setPart i x).sites = s.sites := rfl
@[simp] theorem State.setPart_ports (s : State) (i : Nat) (x : Part) : (s.setPart i x).ports = s.ports := rfl
theorem State.setPart_parts (s : State) (i : Nat) (x : Part) : (s.setPart i x).parts = Map.set (fun _ => ({} : Part)) s.parts i x := rfl
@[simp] theorem State.setPart_mod (s : State) (i : Nat) (x : Part) : (s.setPart i x).mod = s.mod := rfl
@[simp] theorem State.setPart_outbox (s : State) (i : Nat) (x : Part) : (s.setPart i x).outbox = s.outbox := rfl
@[simp] theorem State.setPart_tile (s : State) (i : Nat) (x : Part) (j : Nat) : (s.setPart i x).tile j = s.tile j := rfl
@[simp] theorem State.setPart_field (s : State) (i : Nat) (x : Part) (j : Nat) : (s.setPart i x).field j = s.field j := rfl
@[simp] theorem State.setPart_site (s : State) (i : Nat) (x : Part) (j : Nat) : (s.setPart i x).site j = s.site j := rfl
@[simp] theorem State.setPart_port (s : State) (i : Nat) (x : Part) (j : Nat) : (s.setPart i x).port j = s.port j := rfl

@[simp] theorem State.updMod_pending (s : State) (f : Module → Module) : (s.updMod f).pending = s.pending := rfl
@[simp] theorem State.updMod_free (s : State) (f : Module → Module) : (s.updMod f).free = s.free := rfl
@[simp] theorem State.updMod_now (s : State) (f : Module → Module) : (s.updMod f).now = s.now := rfl
@[simp] theorem State.updMod_counting (s : State) (f : Module → Module) : (s.updMod f).counting = s.counting := rfl
@[simp] theorem State.updMod_tiles (s : State) (f : Module → Module) : (s.updMod f).tiles = s.tiles := rfl
@[simp] theorem State.updMod_fields (s : State) (f : Module → Module) : (s.updMod f).fields = s.fields := rfl
@[simp] theorem State.updMod_sites (s : State) (f : Module → Module) : (s.updMod f).sites = s.sites := rfl
@[simp] theorem State.updMod_ports (s : State) (f : Module → Module) : (s.updMod f).ports = s.ports := rfl
@[simp] theorem State.updMod_parts (s : State) (f : Module → Module) : (s.updMod f).parts = s.parts := rfl
@[simp] theorem State.updMod_mod (s : State) (f : Module → Module) : (s.updMod f).mod = f s.mod := rfl
@[simp] theorem State.updMod_outbox (s : State) (f : Module → Module) : (s.updMod f).outbox = s.outbox := rfl
@[simp] theorem State.updMod_tile (s : State) (f : Module → Module) (j : Nat) : (s.updMod f).tile j = s.tile j := rfl
@[simp] theorem State.updMod_field (s : State) (f : Module → Module) (j : Nat) : (s.updMod f).field j = s.field j := rfl
@[simp] theorem State.updMod_site (s : State) (f : Module → Module) (j : Nat) : (s.updMod f).site j = s.site j := rfl
@[simp] theorem State.updMod_port (s : State) (f : Module → Module) (j : Nat) : (s.updMod f).port j = s.port j := rfl
@[simp] theorem State.updMod_part (s : State) (f : Module → Module) (j : Nat) : (s.updMod f).part j = s.part j := rfl

@[simp] theorem State.say_pending (s : State) (m : Msg) : (s.say m).pending = s.pending := rfl
@[simp] theorem State.say_free (s : State) (m : Msg) : (s.say m).free = s.free := rfl
@[simp] theorem State.say_now (s : State) (m : Msg) : (s.say m).now = s.now := rfl
@[simp] theorem State.say_counting (s : State) (m : Msg) : (s.say m).counting = s.counting := rfl
@[simp] theorem State.say_tiles (s : State) (m : Msg) : (s.say m).tiles = s.tiles := rfl
@[simp] theorem State.say_fields (s : State) (m : Msg) : (s.say m).fields = s.fields := rfl
@[simp] theorem State.say_sites (s : State) (m : Msg) : (s.say m).sites = s.sites := rfl
@[simp] theorem State.say_ports (s : State) (m : Msg) : (s.say m).ports = s.ports := rfl
@[simp] theorem State.say_parts (s : State) (m : Msg) : (s.say m).parts = s.parts := rfl
@[simp] theorem State.say_mod (s : State) (m : Msg) : (s.say m).mod = s.mod := rfl
@[simp] theorem State.say_outbox (s : State) (m : Msg) : (s.say m).outbox = s.outbox ++ [m] := rfl
@[simp] theorem State.say_tile (s : State) (m : Msg) (j : Nat) : (s.say m).tile j = s.tile j := rfl
@[simp] theorem State.say_field (s : State) (m : Msg) (j : Nat) : (s.say m).field j = s.field j := rfl
@[simp] theorem State.say_site (s : State) (m : Msg) (j : Nat) : (s.say m).site j = s.site j := rfl
@[simp] theorem State.say_port (s : State) (m : Msg) (j : Nat) : (s.say m).port j = s.port j := rfl
@[simp] theorem State.say_part (s : State) (m : Msg) (j : Nat) : (s.say m).part j = s.part j := rfl

/-- A tile read after it is written, in a canonical state. -/
theorem State.setTile_tile_self {s : State} {i : Nat} {x : Tile} (h : Map.wf (fun _ => ({} : Tile)) s.tiles = true) :
    (s.setTile i x).tile i = x := Map.get_set_self h

/-- The other parts keep what they held. -/
theorem State.setTile_tile_ne {s : State} {i j : Nat} {x : Tile} (h : Map.wf (fun _ => ({} : Tile)) s.tiles = true) (hj : j ≠ i) :
    (s.setTile i x).tile j = s.tile j := Map.get_set_ne h hj

/-- A field read after it is written, in a canonical state. -/
theorem State.setField_field_self {s : State} {i : Nat} {x : Field} (h : Map.wf (fun _ => ({} : Field)) s.fields = true) :
    (s.setField i x).field i = x := Map.get_set_self h

/-- The other parts keep what they held. -/
theorem State.setField_field_ne {s : State} {i j : Nat} {x : Field} (h : Map.wf (fun _ => ({} : Field)) s.fields = true) (hj : j ≠ i) :
    (s.setField i x).field j = s.field j := Map.get_set_ne h hj

/-- A site read after it is written, in a canonical state. -/
theorem State.setSite_site_self {s : State} {i : Nat} {x : Site} (h : Map.wf blankSite s.sites = true) :
    (s.setSite i x).site i = x := Map.get_set_self h

/-- The other parts keep what they held. -/
theorem State.setSite_site_ne {s : State} {i j : Nat} {x : Site} (h : Map.wf blankSite s.sites = true) (hj : j ≠ i) :
    (s.setSite i x).site j = s.site j := Map.get_set_ne h hj

/-- A port read after it is written, in a canonical state. -/
theorem State.setPort_port_self {s : State} {i : Nat} {x : Port} (h : Map.wf (fun _ => ({} : Port)) s.ports = true) :
    (s.setPort i x).port i = x := Map.get_set_self h

/-- The other parts keep what they held. -/
theorem State.setPort_port_ne {s : State} {i j : Nat} {x : Port} (h : Map.wf (fun _ => ({} : Port)) s.ports = true) (hj : j ≠ i) :
    (s.setPort i x).port j = s.port j := Map.get_set_ne h hj

/-- A part read after it is written, in a canonical state. -/
theorem State.setPart_part_self {s : State} {i : Nat} {x : Part} (h : Map.wf (fun _ => ({} : Part)) s.parts = true) :
    (s.setPart i x).part i = x := Map.get_set_self h

/-- The other parts keep what they held. -/
theorem State.setPart_part_ne {s : State} {i j : Nat} {x : Part} (h : Map.wf (fun _ => ({} : Part)) s.parts = true) (hj : j ≠ i) :
    (s.setPart i x).part j = s.part j := Map.get_set_ne h hj

end Sys2Proof.Machine
end

