-- ==== Sys2Proof/Laws/Ops.lean ====
section
/-!
SUPPORT. The shared operations: what each of them can do, said once.
-/

namespace Sys2Proof.Machine

/-- A checked command answers a next state exactly where its check holds. -/
theorem State.checked_next {s k u : State} {ok : Bool} : s.checked ok k = .next u ↔ ok = true ∧ u = k := by
  unfold State.checked
  split <;> simp_all [eq_comm]

/-- Where its check fails it is a fault, and never a refusal. -/
theorem State.checked_fault {s k : State} {ok : Bool} {f : Fault} : s.checked ok k = .fault f ↔ ok = false ∧ f = .malformed := by
  unfold State.checked
  split <;> simp_all [eq_comm]

@[simp] theorem State.checked_true (s k : State) : s.checked true k = .next k := rfl
@[simp] theorem State.checked_false (s k : State) : s.checked false k = .fault .malformed := rfl

/-- What an instruction's issue can answer. -/
theorem State.issue_next {s u : State} {t : Nat} {f : Env → TS → Issue} :
    s.issue t f = .next u ↔ t < nTiles ∧ u = if s.mayIssue t then s.onTile t fun e ts => issueTile e ts (f e) else s := by
  simp [State.issue, State.checked_next]

/-- What a command on a tile can answer. -/
theorem State.tileDo_next {s u : State} {t : Nat} {f : Env → TS → TS} :
    s.tileDo t f = .next u ↔ t < nTiles ∧ u = if (s.field (fieldOf t)).power = 2 then s.onTile t f else s := by
  simp [State.tileDo, State.checked_next]

/-- What a command on a site can answer. -/
theorem State.siteDo_next {s u : State} {n : Nat} {f : SEnv → SS → SS} : s.siteDo n f = .next u ↔ n < nSites ∧ u = s.onSite n f := by
  simp [State.siteDo, State.checked_next]

@[simp] theorem State.raiseAll_nil (s : State) : s.raiseAll [] = s := rfl
@[simp] theorem State.raiseAll_cons (s : State) (r : Rec) (l : List Rec) : s.raiseAll (r :: l) = (s.raise r).raiseAll l := rfl

/-- A tile's part of a command that raises no record changes that tile and the free counter. -/
theorem State.onTile_quiet {s : State} {t : Nat} {f : Env → TS → TS}
    (h : (f (s.tileEnv t) { t := s.tile t, free := s.free }).recs = []) :
    s.onTile t f = ({ s with free := (f (s.tileEnv t) { t := s.tile t, free := s.free }).free }).setTile t
      (f (s.tileEnv t) { t := s.tile t, free := s.free }).t := by
  simp [State.onTile, h]

/-- A site's part of a command that raises no record and returns no flit changes that site and the free counter. -/
theorem State.onSite_quiet {s : State} {n : Nat} {f : SEnv → SS → SS}
    (h : (f (s.siteEnv n) { s := s.site n, free := s.free }).recs = []) (hr : (f (s.siteEnv n) { s := s.site n, free := s.free }).ret = []) :
    s.onSite n f = ({ s with free := (f (s.siteEnv n) { s := s.site n, free := s.free }).free }).setSite n
      (f (s.siteEnv n) { s := s.site n, free := s.free }).s := by
  simp [State.onSite, h, hr]

/-- A record logged changes the module's own part (the log and its registers) alone. -/
theorem State.logRec_frame (s : State) (r : Rec) : ∃ m, s.logRec r = { s with mod := m } := by
  unfold State.logRec
  dsimp only
  split
  · exact ⟨s.mod, rfl⟩
  · split
    · exact ⟨_, rfl⟩
    · exact ⟨_, rfl⟩

/-- A record that is no hard fault is logged and nothing more. -/
theorem State.raise_soft {s : State} {r : Rec} (h : r.cls ≠ 1) : s.raise r = s.logRec r := by simp [State.raise, h]

/-- A hard fault requests the abort of its partition, even where the record is dropped. -/
theorem State.raise_hard {s : State} {r : Rec} (h : r.cls = 1) : s.raise r = (s.logRec r).requestAbort (s.locPart r.loc) 4 := by
  simp [State.raise, h]

/-- A refusal answers and logs; every part of the module but its own stands. -/
theorem State.refuse_frame (s : State) (a e loc : Nat) : ∃ m, s.refuse a e loc = { s.say (.refused a e) with mod := m } := by
  rw [State.refuse, State.raise_soft (show (3 : Nat) ≠ 1 by decide)]
  exact State.logRec_frame _ _

/-- A privileged write takes effect, or is refused. -/
theorem State.privileged_cases (s : State) (priv : Bool) (a loc : Nat) (k : State) :
    (priv = true ∧ s.privileged priv a loc k = k) ∨ (priv = false ∧ s.privileged priv a loc k = s.refuse a 0x40 loc) := by
  cases priv <;> simp [State.privileged]

/-- No abort is requested of what no partition owns, of a free partition, or of one that is aborting. -/
theorem State.requestAbort_none {s : State} {p c : Nat} (h : 8 ≤ p ∨ (s.part p).state = 0 ∨ (s.part p).state = 4) : s.requestAbort p c = s := by
  simp only [State.requestAbort]
  rw [if_pos]
  simpa [or_assoc] using h

end Sys2Proof.Machine
end

