-- ==== Sys2Proof/Laws/Site.lean ====
section
/-!
SUPPORT. What writes to the memory of a site leave of its registers.
-/

namespace Sys2Proof.Machine

/-- A fold that keeps the registers of a site. -/
theorem foldl_csr {α : Type} (c : Map Word) (f : Site → α → Site) (h : ∀ s a, s.csr = c → (f s a).csr = c) (l : List α) :
    ∀ s : Site, s.csr = c → (l.foldl f s).csr = c := by
  induction l with
  | nil => exact fun _ h => h
  | cons a l ih => exact fun s hs => ih _ (h s a hs)

/-- Bytes written keep the registers. -/
theorem putBytes_csr (c : Map Word) (s : Site) (o : Nat) (l : List Byte) (hs : s.csr = c) : (s.putBytes o l).csr = c :=
  foldl_csr c Site.reseal (fun _ _ h => h) _ _ hs

/-- Where no injection is armed at a site, a unit write keeps its registers. -/
theorem writeUnit_csr (c : Map Word) (hc : bits (Map.get (regReset siteRegs) c 0x30) 30 28 = 0) (s : Site) (o : Nat) (l : List Byte)
    (hs : s.csr = c) : (writeUnit s o l).csr = c := by
  have key (y : Site) (k u : Nat) (hk : k ≠ 0) (hy : y.csr = c) : siteInjHit y k u = false := by
    simp only [siteInjHit, Site.csrWord, hy, hc]
    simp [Ne.symm hk]
  have hp : (s.putBytes o l).csr = c := putBytes_csr _ _ _ _ hs
  simp only [writeUnit]
  rw [if_neg]
  · exact hp
  · exact Bool.eq_false_iff.mp (key _ _ _ (by split <;> decide) hp)

/-- A block of which no row is enabled writes its half without a number that is not finite, and keeps the registers. -/
theorem writeHalf_noRows (s : Site) (b old : Nat) (made : List Nat) (new : List (List Word))
    (hc : bits (Map.get (regReset siteRegs) s.csr 0x30) 30 28 = 0) :
    ∃ y : Site, writeHalf anew s b 0 old made new = (y, false) ∧ y.csr = s.csr := by
  have units (o : Nat) (l : List Byte) (y : Site) (hy : y.csr = s.csr) : (writeUnits y o l).csr = s.csr :=
    foldl_csr _ _ (fun _ _ h => writeUnit_csr _ hc _ _ _ h) _ _ hy
  refine ⟨(writeHalf anew s b 0 old made new).1, Prod.ext rfl ?_, ?_⟩
  · simp [writeHalf, rowOn]
  · simp only [writeHalf]
    refine foldl_csr _ _ (fun y k h => units _ _ y h) _ _ ?_
    split
    · rfl
    · exact units _ _ _ rfl

end Sys2Proof.Machine
end

