-- ==== Sys2Proof/Tests/Slice0.lean ====
section
/-!
SUPPORT. Tests of the model: instruction words decoded, ill-formed commands refused, values and steps that the spec works out, and for
every statement states and operands that meet its hypotheses (theorem witness_<statement>_<clause>).
-/

set_option maxRecDepth 100000
set_option Elab.async false

namespace Sys2Proof.Tests

open Sys2Proof.Machine

/-- A field that is on, locked and routed, of partition 0. -/
def fieldOn : Field := { power := 2, lock := true, routed := true, csr := [(4, 0#32)] }
/-- A tile that runs a program of 16 instructions. -/
def tileOn : Tile := { seq := .running, csr := [(8, 16#32)] }
/-- Partition 0 running on field 0, whose tile 0 is as given. -/
def withTile (x : Tile) : State :=
  { State.reset with fields := [(0, fieldOn)], tiles := [(0, x)], parts := [(0, { state := 3 })] }
/-- Tile 0 runs. -/
def running : State := withTile tileOn
/-- The same partition with no tile at work. -/
def quietState : State := { running with tiles := [] }
/-- The bytes of a binary: one tile of class 0, whose program is CTL.END. -/
def binBytes : List Byte :=
  leBytes 0x54535247 4 ++ [1, 1] ++ leBytes 0 10 ++ leBytes 1 4 ++ leBytes 1 4 ++ leBytes 1 4 ++ leBytes 0 4 ++ leBytes 128 8 ++ leBytes 144 8 ++
    leBytes 280 8 ++ leBytes 304 8 ++ leBytes 0 60 ++ leBytes 0x3D32B954 4 ++ leBytes 296 8 ++ leBytes 1 2 ++ leBytes 0 6 ++ leBytes 0 136 ++
    leBytes 0 16 ++ leBytes 0x0420000000000000 8
/-- The binary that they hold. -/
def bin0 : Binary :=
  { level := 1, minProf := 0, tuned := 0, features := 0, length := 304, fields := 0, buckets := 0, rdescs := 0, pgroups := 0, siteBytes := 0,
    stratBytes := 0, rights := 0, rsv := false, progs := [{ words := [0x0420000000000000#64], entry := 0 }],
    classes := [{ prog := 0, spdWords := 0, desc := List.replicate 16 (0#32, 0#32) }], places := [{ x0 := 0, y0 := 0, x1 := 0, y1 := 0, cls := 0 }] }
/-- A manifest of partition 0 for it. -/
def mani0 : Manifest :=
  { magic := 0x464D5954, ver := 1, part := 0, flags := 0, mseq := 1, layout := 0x10000, wdog := 0, cap := 0, pseed := 0, tau := 0#32, escale := 0,
    emin := 0, emax := 0, dsite := 0, grow := 0, srate := 0, srateMax := 0, rmin := 0, rmax := 0, expDefer := 0, expW := 0, ntied := 0, kvtok := 0,
    rsv := 0, length := 0, bins := [{ digest := 0, addr := 0, len := 304 }], fmap := [], args := [], tileRegs := [], siteRegs := [], tileRegs1 := [],
    siteRegs1 := [], minuet := [], halo := [], base := [], fields := [], sites := [], chans := [], ports := [], digest := 0, slot := 0, keyId := 0,
    sigOk := true }
/-- A run of it, with one sequence. -/
def req0 : RunReq := { bin := 0, n := 1, input := 0, samples := 0, seqs := [{ start := 0, len := 1, flags := 0, var := 0xFFFF, rsv := 0 }], streams := [] }
/-- A session of partition 0. -/
def sess0 : Session := { id := 1, part := 0, port := none }
/-- Partition 0, as given, with field 0 and site 0, and its host's session. -/
def hosted (q : Part) : State :=
  let m : Module := { cc := { up := true, sessions := [sess0], conf := [(0, { keys := [{ slot := 0, key := 0, rights := 0 }] })] } }
  { State.reset with fields := [(0, fieldOn)], sites := [(0, { csr := [(4, 0#32)] })], parts := [(0, q)], mod := m }
/-- HBM with the binary at its start. -/
def binMem : Map Byte := (List.range 304).zip binBytes |>.filter fun e => e.2 ≠ 0
/-- A Halo-native flit of a TYPE, with its CRC. -/
def flitOf (typ : Nat) (data : List Byte) : HFlit :=
  { seq := 0, ack := 4095, nak := false, cred := 3, tag := 5, off := 0, data := data, crc := haloCrc (haloHeader typ 0 4095 false 3 5 0) data,
    rtype := 0, codewords := [] }
/-- Partition 0 with site 0 and Halo port 11, as given. -/
def ported (o : Port) : State :=
  { quietState with ports := [(11, o)], sites := [(0, { state := 2, csr := [(4, 0#32)] })], mod := { cc := { up := true } } }

/-! Instruction words. The first two theorems decode the program that spec/06_greset_isa.md gives with its words; the others write a word of
each family out from its layout. -/

/-- The masked block row (06, worked example). -/
theorem test_decode_masked_row :
    decodeWord 7 0x2240A00000FFFFFF = some (.li 7 { sd := 5, sa := 0, imm := 0x00FFFFFF }) ∧
    decodeWord 7 0x2201060000000001 = some (.addi 7 { sd := 8, sa := 6, imm := 1 }) ∧
    decodeWord 7 0x0410E000000000A3 = some (.loop 7 { sa := 7, sb := 0, tgt := 0xA3 }) := by decide

/-- Its products and drains; the fields of OPE.MUL stand in the order of Table 6.6, after the set. -/
theorem test_decode_masked_products :
    decodeWord 7 0x4007FC448C001400 = some (.opeMulClr 7 ⟨0, 0x1FF, 1, 1, 2, 3, 0, 0, 0, 0, 0, 5, 0, 0⟩) ∧
    decodeWord 7 0x4207FC448C001400 = some (.opeMulClr 7 ⟨1, 0x1FF, 1, 1, 2, 3, 0, 0, 0, 0, 0, 5, 0, 0⟩) ∧
    decodeWord 7 0x4888860000000000 = some (.opeDrn 7 { set := 0, dst := 1, fmt := 1, rnd := 0, sat := 0, drg := 4, tag := 6 }) ∧
    decodeWord 7 0x4A88880000000000 = some (.opeDrn 7 { set := 1, dst := 1, fmt := 1, rnd := 0, sat := 0, drg := 4, tag := 8 }) := by decide

/-- Layouts B, SI, SR and SM (R156, R159). -/
theorem test_decode_sequencer :
    decodeWord 0 (0x01#7 ++ 0#1 ++ 0x05#6 ++ 3#5 ++ 4#5 ++ 0#24 ++ 0x0ABC#16) = some (.bge 0 { sa := 3, sb := 4, tgt := 0xABC }) ∧
    decodeWord 0 (0x08#7 ++ 0#1 ++ 0x03#6 ++ 0#5 ++ 9#5 ++ 0#8 ++ 0x0100#32) = some (.sysEvent 0 { sd := 0, sa := 9, imm := 0x100 }) ∧
    decodeWord 0 (0x10#7 ++ 0#1 ++ 0x0E#6 ++ 1#5 ++ 2#5 ++ 31#5 ++ 0#35) = some (.maxu 0 { sd := 1, sa := 2, sb := 31 }) ∧
    decodeWord 0 (0x12#7 ++ 0#1 ++ 0x01#6 ++ 1#5 ++ 2#5 ++ 0#22 ++ 0x12345#18) = some (.ldd 0 { sd := 1, sa := 2, off := 0x12345 }) := by decide

/-- Layouts MV, Q and N (R162, R163, R181). -/
theorem test_decode_moves_regions_net :
    decodeWord 0 (0x13#7 ++ 0#1 ++ 0x01#6 ++ 6#5 ++ 11#4 ++ 0#3 ++ 0#33 ++ 30#5) = some (.movSv 0 { s := 6, v := 11, p := 0, lane := 30 }) ∧
    decodeWord 0 (0x38#7 ++ 0#1 ++ 0x03#6 ++ 12#4 ++ 0#5 ++ 0#5 ++ 0#1 ++ 0#18 ++ 0x10001#17) =
      some (.qPush 0 { rg := 12, sa := 0, sb := 0, ns := 0, n := 0x10001 }) ∧
    decodeWord 0 (0x30#7 ++ 0#1 ++ 0x0C#6 ++ 13#4 ++ 20#5 ++ 21#5 ++ 14#4 ++ 0#32) = some (.atomCas 0 { rg := 13, sa := 20, sb := 21, rrg := 14 }) := by
  decide

/-- Layouts VA, VS and VM (R165, R167, R168). -/
theorem test_decode_vector :
    decodeWord 0 (0x28#7 ++ 0#1 ++ 0x03#6 ++ 1#4 ++ 2#4 ++ 3#4 ++ 4#4 ++ 1#1 ++ 5#3 ++ 2#4 ++ 0#1 ++ 0#5 ++ 0#20) =
      some (.vfma 0 { vd := 1, va := 2, vb := 3, vc := 4, pe := 1, pr := 5, fmt := 2, bs := 0, sb := 0 }) ∧
    decodeWord 0 (0x2D#7 ++ 0#1 ++ 0x02#6 ++ 17#5 ++ 9#4 ++ 0#1 ++ 0#3 ++ 0#4 ++ 1#1 ++ 0#5 ++ 0#27) =
      some (.sumAdd 0 { sd := 17, va := 9, pe := 0, pr := 0, fmt := 0, acc := 1, sbase := 0 }) ∧
    decodeWord 0 (0x2E#7 ++ 0#1 ++ 0x02#6 ++ 8#4 ++ 5#4 ++ 1#1 ++ 0#1 ++ 0#5 ++ 0#1 ++ 0#3 ++ 3#4 ++ 0#4 ++ 1#1 ++ 1#1 ++ 0#4 ++ 0x20#17) =
      some (.vstCvt 0 ⟨8, 5, 1, 0, 0, 0, 0, 3, 0, 1, 1, 0, 0x20⟩) := by decide

/-- OPE.CUBE, and a complex CONT product (R172, R173, R180). -/
theorem test_decode_ope :
    decodeWord 0 (0x26#7 ++ 0#1 ++ 1#1 ++ 1#1 ++ 2#4 ++ 7#4 ++ 9#4 ++ 0#42) = some (.opeCube 0 { set := 1, cont := 1, fmt := 2, crg := 7, rrg := 9 }) ∧
    decodeWord 0 (0x22#7 ++ 0#1 ++ 62#14 ++ 1#4 ++ 1#4 ++ 2#4 ++ 3#4 ++ 0#4 ++ 0#4 ++ 0#1 ++ 1#1 ++ 1#1 ++ 0#5 ++ 1#1 ++ 0#9) =
      some (.opeMulCont 0 ⟨0, 62, 1, 1, 2, 3, 0, 0, 0, 1, 1, 0, 1, 0⟩) := by decide

/-- Reserved words (R146): all zero, X set, an unlisted minor, an unlisted major. -/
theorem test_decode_reserved :
    decodeWord 0 0 = none ∧ decodeWord 0 0x2340A00000FFFFFF = none ∧ decodeWord 0 (0x02#7 ++ 0#1 ++ 0x03#6 ++ 0#50) = none ∧
      decodeWord 0 (0x60#7 ++ 0#57) = none := by decide

/-! Operands out of range, one for each check of WellFormed; each check with a term that it accepts. -/

/-- What the part does not have: a tile, field, site, port, partition, owner, unit or connection. -/
theorem test_ill_formed_places :
    (Instr.eventPost 117600).wf = false ∧ (Instr.eventPost 117599).wf = true ∧ (Instr.fuseOpen 70).wf = false ∧ (Instr.fuseOpen 69).wf = true ∧
    (Instr.refresh 48).wf = false ∧ (Instr.refresh 47).wf = true ∧ (Instr.nonRoceFrame 12).wf = false ∧ (Instr.nonRoceFrame 11).wf = true ∧
    (Instr.loaded 8).wf = false ∧ (Instr.loaded 7).wf = true ∧ (Instr.capacityChange .site 47 8).wf = false ∧
    (Instr.capacityChange .site 47 15).wf = true ∧ (Instr.capacityChange .site 48 1).wf = false ∧ (Instr.capacityChange .chan 24 1).wf = false ∧
    (Instr.capacityChange .chan 23 1).wf = true ∧ (Instr.capacityChange .field 70 1).wf = false ∧ (Instr.capacityChange .port 12 1).wf = false ∧
    (Instr.getVersion 8).wf = false ∧ (Instr.getVersion 7).wf = true := by decide

/-- What a tile, its router or a site does not have. -/
theorem test_ill_formed_units :
    (Instr.sharedPortAccess 0 32 false [2]).wf = false ∧ (Instr.sharedPortAccess 0 31 false [1]).wf = false ∧
    (Instr.sharedPortAccess 0 31 true [2, 7]).wf = true ∧ (Instr.opeSetReady 0 2).wf = false ∧ (Instr.opeDrainStart 0 2).wf = false ∧
    (Instr.opeCheck 0 2 []).wf = false ∧ (Instr.opeCheck 0 1 []).wf = true ∧ (Instr.tileRgWrite true 0 0xFC 0).wf = false ∧
    (Instr.tileRgWrite true 0 0x240 0).wf = false ∧ (Instr.tileRgWrite true 0 0x102 0).wf = false ∧ (Instr.tileRgWrite true 0 0x23C 0).wf = true ∧
    (Instr.netUnitIssue 0 16).wf = false ∧ (Instr.netTransferComplete 0 16).wf = false ∧ (Instr.flitHop 0 5 false).wf = false ∧
    (Instr.routeEntryWrite true 0 2 0 0).wf = false ∧ (Instr.routeEntryWrite true 0 1 256 0).wf = false ∧ (Instr.rdescWrite true 0 256 0).wf = false ∧
    (Instr.redFlitSend 0 256).wf = false ∧ (Instr.redCombine 0 256).wf = false ∧ (Instr.redRootFlit 0 256).wf = false ∧
    (Instr.armFilled true 0 8).wf = false ∧ (Instr.armEmpty true 0 8).wf = false ∧ (Instr.disarm true 0 8).wf = false ∧
    (Instr.stackThermalReading 0 256).wf = false ∧ (Instr.stackThermalReading 0 255).wf = true := by decide

/-- What the module, its ports and its control complex do not have. -/
theorem test_ill_formed_module :
    (Instr.feedVoltageSample 2 4800).wf = false ∧ (Instr.fieldSensorReading 0 [some 60]).wf = false ∧
    (Instr.energyWindowEnd 0 0 0 [] []).wf = false ∧ (Instr.energyWindowEnd 0 0 0 (List.replicate 8 0) (List.replicate 70 0)).wf = true ∧
    (Instr.haloLaneBad 0 9).wf = false ∧ (Instr.haloLaneBad 0 8).wf = true ∧ (Instr.ringBreak 48).wf = false ∧
    (Instr.haloWinWrite true 0 0x1400 0).wf = false ∧ (Instr.haloWinWrite true 0 0x13FC 0).wf = true ∧
    (Instr.priorityFlowControlFrame 0 8 true).wf = false ∧ (Instr.eventAcknowledge 9).wf = false ∧ (Instr.stallAdvisory 0 [117600]).wf = false ∧
    (Instr.partitionDefine 0 0 65536).wf = false ∧ (Instr.reserveSet 3 []).wf = false ∧ (Instr.reserveSet 2 [70]).wf = false ∧
    (Instr.hostKeyRegister 0 4 none 0).wf = false ∧ (Instr.firmwareUpdate (factoryImage 7)).wf = false ∧ (Instr.commitSecurityVersion 6).wf = false ∧
    (Instr.tmapChange 0 [{ idx := 1728, val := 0 }] 0 { col := 0 }).wf = false ∧ (Instr.pregWrite true 0x7802000000 0 0).wf = false ∧
    (Instr.pregWrite true 0x7801000000 0 0).wf = true ∧ (Instr.ezInjFeedVoltage true 2 0 0).wf = false ∧ (Instr.ezInjSensorReading true 0 16 0 0).wf = false ∧
    (Instr.ezInjSensorInvalid true 0 16 0).wf = false ∧ (Instr.ezInjCoolant true 3 0 0).wf = false ∧ (Instr.fldTestComplete 0 (some (7, 0, 0)) []).wf = false ∧
    (Instr.fldTestComplete 0 (some (1, 36, 0)) []).wf = false ∧ (Instr.fldTestComplete 0 none [16]).wf = false ∧
    (Instr.fldTestComplete 0 (some (6, 35, 47)) [15]).wf = true := by decide

/-- An ill-formed command is a fault. -/
theorem test_ill_formed_fault : execFuseOpen 70 State.reset = .fault .malformed := rfl

/-! Values that the spec works out. -/

/-- Tile (212, 130) (00, worked example). -/
theorem test_tile_id : fieldTile 26 2 34 = 45712 ∧ fieldOf 45712 = 26 ∧ tileX 45712 = 212 ∧ tileY 45712 = 130 := by decide

/-- Its physical index with b = 35 and with b = 1 (00 and 01, worked examples). -/
theorem test_physical_index : physOf 35 45712 = 46154 ∧ physOf 1 45712 = 46155 := by decide

/-- The entries of field 26 after column 1, whose tile of row 7 is bad, is re-spared in service: ORIGIN 1 at the bad tile (Table 1.3), else as in
the worked example of 01. -/
theorem test_spare_entries :
    let s := State.reset
    s.spareWord 26 1 [(7 * 36 + 1, 1)] (7 * 36 + 1) = 0x451AFFF0 ∧ s.spareWord 26 1 [(7 * 36 + 1, 1)] (8 * 36 + 1) = 0x601AFFF0 ∧
      s.spareWord 26 1 [(7 * 36 + 1, 1)] (34 * 36 + 3) = 0x001A0A20 := by decide

/-- Word 32,803 of a swizzled region (05). -/
theorem test_swizzle : bankOf true 32803 = 2 ∧ physIdx true 32803 = 32802 ∧ physIdx false 32803 = 32803 := by decide

/-- 1 + 2^-9 to BF16: rounded to nearest, and by draws on either side of 0xC000 (03, example). -/
theorem test_stochastic :
    convert bf16 false none (f32 0x3F804000) = 0x3F80 ∧ convert bf16 false (some 0xC000) (f32 0x3F804000) = 0x3F81 ∧
      convert bf16 false (some 0xBFFF) (f32 0x3F804000) = 0x3F80 := by decide

/-- 15.0, -2.6, 0.3 and 5.0 as an MXFP4 block, saturating and not (03, worked example). -/
theorem test_mxfp4 :
    let l := [f32 0x41700000, f32 0xC0266666, f32 0x3E99999A, f32 0x40A00000]
    mxBlock e2m1 true l = (0x80, [0x7, 0xB, 0x0, 0x4]) ∧ mxBlock e2m1 false l = (0x81, [0x6, 0x9, 0x0, 0x2]) := by decide

/-- The edge tile of tiles (100, 40), (101, 41) and (103, 40) for site N5 (08, worked example). -/
theorem test_edge_tile :
    let s : State := { State.reset with fields := (List.range 70).map fun f => (f, fieldOn) }
    [14100, 14451, 14103].map (fun t => s.edgeFor t 5) = [some 101, some 101, some 101] := by decide +kernel

/-- The check value of CRC-16 with polynomial 0x1021 from 0xFFFF, over the bytes of "123456789" (a published value). -/
theorem test_crc16 : crc16 72 0x313233343536373839 = 0x29B1 := by decide

/-! Single steps. -/

/-- Scalar arithmetic wraps, and a source may be the destination (R160). -/
theorem test_add_wraps :
    let s := withTile { tileOn with sregs := [(1, 0xFFFFFFFFFFFFFFFF#64), (2, 2#64)] }
    (match execAdd 0 { sd := 1, sa := 1, sb := 2 } s with | .next u => (sreg (u.tile 0) 1, (u.tile 0).pc) | _ => (0, 0)) = (1, 1) := by decide

/-- A shift uses the low 6 bits of its amount, and SRA keeps the sign (R160). -/
theorem test_sra_amount :
    let s := withTile { tileOn with sregs := [(1, 0x8000000000000000#64), (2, 65#64)] }
    (match execSra 0 { sd := 3, sa := 1, sb := 2 } s with | .next u => sreg (u.tile 0) 3 | _ => 0) = 0xC000000000000000 := by decide

/-- A LOOP whose scalar is 0 wraps and branches (R157). -/
theorem test_loop_wraps :
    (match execLoop 0 { sa := 7, sb := 0, tgt := 9 } running with | .next u => (sreg (u.tile 0) 7, (u.tile 0).pc) | _ => (0, 0)) =
      (0xFFFFFFFFFFFFFFFF, 9) := by decide

/-- A JR past the instruction store stops the tile with FCAUSE 0x2 (Table 6.2). -/
theorem test_jr_stops :
    let s := withTile { tileOn with sregs := [(4, 0x1000#64)] }
    (match execJr 0 { sa := 4, sb := 0, tgt := 0 } s with | .next u => seqStatus (u.tile 0) | _ => 0) = 0x00020003 := by decide

/-- The S-box of AES, a column of MixColumns, and the doubling of a tweak (FIPS 197 and IEEE 1619, which R266 names). -/
theorem test_aes :
    sbox 0x00 = 0x63 ∧ sbox 0x53 = 0xED ∧ invSbox 0xED = 0x53 ∧
      (mixColumns [2, 3, 1, 1] ([0xDB, 0x13, 0x53, 0x45] ++ List.replicate 12 0)).take 4 = [0x8E, 0x4D, 0xA1, 0xBC] ∧
      nextTweak (List.replicate 15 0 ++ [0x80]) = 0x87 :: List.replicate 15 0 := by decide +kernel

/-- The bytes of a manifest with one SITEREGS image (Tables 16.3 and 16.4). -/
def maniBytes : List Byte :=
  leBytes 0x464D5954 4 ++ [1, 3] ++ leBytes 5 2 ++ leBytes 0x0102030405060708 8 ++ leBytes 0x10000 8 ++ leBytes 0 8 ++ leBytes 0x3F800000 4 ++
    leBytes 0 20 ++ leBytes 1 2 ++ leBytes 0 6 ++ leBytes 0x80 8 ++ leBytes 0xA8 8 ++ leBytes 0 48 ++
    (leBytes 5 2 ++ leBytes 1 2 ++ leBytes 1 4 ++ leBytes 0x98 8 ++ leBytes 16 8) ++ ([47] ++ leBytes 0 3 ++ leBytes 0x40 4 ++ leBytes 0x10100404 8)

theorem test_manifest :
    let m := readManifest 7 maniBytes
    m.part = 3 ∧ m.flags = 5 ∧ m.mseq = 0x0102030405060708 ∧ m.layout = 0x10000 ∧ m.tau = 0x3F800000 ∧ m.length = 0xA8 ∧ m.siteRegs = [] ∧
      m.siteRegs1 = [{ unit := 47, off := 0x40, val := 0x10100404 }] := by decide +kernel

theorem test_reset_canonical : State.reset.canonical = true := by decide

/-! States and operands that meet the hypotheses of each statement. -/

theorem witness_IdleKeepsRunning_0 : (
    let s : State := running
    decide (s.pending = [])) = true := by decide

theorem witness_IdleKeepsRunning_2 : (
    let s : State := { running with mod := { running.mod with holdUp := some 0#64 } }
    decide (s.pending = [])) = true := by decide

theorem witness_IdleKeepsRunning_6 : (
    let s : State := running
    let p : Nat := 0
    decide ((s.part p).release = false ∨ s.quiescent p = false)) = true := by decide

theorem witness_IdleKeepsRunning_7 : (
    let s : State := { quietState with parts := [(0, { state := 2, release := true })] }
    let p : Nat := 0
    decide ((s.part p).release = true) &&
    decide ((s.part p).state ∉ [3, 4, 5]) &&
    decide (s.quiescent p = true)) = true := by decide

theorem witness_IdleKeepsRunning_8 : (
    let s : State := running
    let n : Nat := 0
    decide ((s.site n).out = [])) = true := by decide

theorem witness_IdleKeepsRunning_11 : (
    let s : State := { quietState with mod := { cc := { up := true } } }
    let k : ResKind := .field
    let i : Nat := 0
    let p : Nat := 1
    decide (s.mod.cc.up = true) &&
    decide (s.changeReady k i (s.ownerOf k i) p = true)) = true := by decide

theorem witness_IdleKeepsRunning_12 : (
    let s : State := running
    let k : ResKind := .field
    let i : Nat := 0
    let p : Nat := 1
    decide (s.changeReady k i (s.ownerOf k i) p = false)) = true := by decide

theorem witness_ScalarRegisterResults_0 : (
    let t : Nat := 0
    let f : LSR := { sd := 31, sa := 0, sb := 0 }
    let s : State := withTile { tileOn with sregs := [(0, 0x8000000000000000#64), (1, 5#64)] }
    decide (s.canIssue t = true) &&
    decide (f.rsv = 0) &&
    decide (scalarBusy (s.tile t) [f.sd.toNat, f.sa.toNat, f.sb.toNat] = false) &&
    decide (f.sb = 0)) = true := by decide

theorem witness_ScalarRegisterResults_1 : (
    let t : Nat := 0
    let f : LSR := { sd := 31, sa := 0, sb := 0 }
    let s : State := withTile { tileOn with sregs := [(0, 0x8000000000000000#64), (1, 5#64)] }
    decide (s.canIssue t = true) &&
    decide (f.rsv = 0) &&
    decide (scalarBusy (s.tile t) [f.sd.toNat, f.sa.toNat, f.sb.toNat] = false)) = true := by decide

theorem witness_ScalarImmediateResults_0 : (
    let t : Nat := 0
    let f : LSI := { sd := 31, sa := 0, imm := 0x80000000 }
    let s : State := withTile { tileOn with sregs := [(0, 0x8000000000000000#64), (31, 5#64)] }
    decide (s.canIssue t = true) &&
    decide (f.rsv = 0) &&
    decide (scalarBusy (s.tile t) [f.sd.toNat, f.sa.toNat] = false) &&
    decide (f.sa = 0)) = true := by decide

theorem witness_ScalarImmediateResults_1 : (
    let t : Nat := 0
    let f : LSI := { sd := 31, sa := 0, imm := 0x80000000 }
    let s : State := withTile { tileOn with sregs := [(0, 0x8000000000000000#64), (31, 5#64)] }
    decide (s.canIssue t = true) &&
    decide (f.rsv = 0) &&
    decide (scalarBusy (s.tile t) [f.sd.toNat, f.sa.toNat] = false)) = true := by decide

theorem witness_ScalarStores_0 : (
    let t : Nat := 0
    let f : LSM := { sd := 1, sa := 2, off := 4 }
    let s : State := withTile { tileOn with sregs := [(1, 0x123456789ABCDEF0#64), (2, 98299#64)] }
    decide (s.canIssue t = true) &&
    decide (f.rsv = 0) &&
    decide (scalarBusy (s.tile t) [f.sd.toNat, f.sa.toNat] = false) &&
    let x := s.tile t
    let a := (sreg x f.sa.toNat).toNat + f.off.toNat
    decide (f.off.toNat < 2 ^ 17) &&
    decide (a < 98304)) = true := by decide

theorem witness_ScalarStores_1 : (
    let t : Nat := 0
    let f : LSM := { sd := 1, sa := 2, off := 4 }
    let s : State := withTile { tileOn with sregs := [(1, 0x123456789ABCDEF0#64), (2, 98298#64)] }
    decide (s.canIssue t = true) &&
    decide (f.rsv = 0) &&
    decide (scalarBusy (s.tile t) [f.sd.toNat, f.sa.toNat] = false) &&
    let x := s.tile t
    let a := (sreg x f.sa.toNat).toNat + f.off.toNat
    decide (f.off.toNat < 2 ^ 17) &&
    decide (a % 2 = 0) &&
    decide (a + 2 ≤ 98304)) = true := by decide

theorem witness_ScalarStores_2 : (
    let t : Nat := 0
    let f : LSM := { sd := 1, sa := 2, off := 8 }
    let s : State := withTile { tileOn with sregs := [(1, 0x123456789ABCDEF0#64), (2, 98298#64)] }
    decide (s.canIssue t = true) &&
    decide (f.rsv = 0) &&
    decide (scalarBusy (s.tile t) [f.sd.toNat, f.sa.toNat] = false) &&
    decide (f.off.toNat < 2 ^ 16) &&
    decide (f.off.toNat % 4 = 0)) = true := by decide

theorem witness_ScalarLoads_0 : (
    let t : Nat := 0
    let f : LSM := { sd := 1, sa := 2, off := 4 }
    let s : State := withTile { tileOn with sregs := [(2, 98299#64)], spd := [(98303, 9#32)] }
    decide (s.canIssue t = true) &&
    decide (f.rsv = 0) &&
    decide (f.off.toNat < 2 ^ 17) &&
    decide (scalarBusy (s.tile t) [f.sd.toNat, f.sa.toNat] = false) &&
    decide (injKind (s.tile t) ≠ 1) &&
    let x := s.tile t
    let a := (sreg x f.sa.toNat).toNat + f.off.toNat
    decide (a < 98304) &&
    decide (goodWord x 7 none a = true)) = true := by decide

theorem witness_ScalarLoads_1 : (
    let t : Nat := 0
    let f : LSM := { sd := 1, sa := 2, off := 4 }
    let s : State := withTile { tileOn with sregs := [(2, 98298#64)], spd := [(98302, 7#32), (98303, 9#32)] }
    decide (s.canIssue t = true) &&
    decide (f.rsv = 0) &&
    decide (f.off.toNat < 2 ^ 17) &&
    decide (scalarBusy (s.tile t) [f.sd.toNat, f.sa.toNat] = false) &&
    decide (injKind (s.tile t) ≠ 1) &&
    let x := s.tile t
    let a := (sreg x f.sa.toNat).toNat + f.off.toNat
    decide (a % 2 = 0) &&
    decide (a + 2 ≤ 98304) &&
    decide (goodWord x 7 none a = true) &&
    decide (goodWord x 7 none (a + 1) = true)) = true := by decide

theorem witness_ScalarLoads_2 : (
    let t : Nat := 0
    let f : LSM := { sd := 1, sa := 2, off := 4 }
    let s : State := withTile { tileOn with sregs := [(2, 98298#64)], par := [(98302, 2)], spd := [(98302, 7#32)] }
    decide (s.canIssue t = true) &&
    decide (f.rsv = 0) &&
    decide (f.off.toNat < 2 ^ 17) &&
    decide (scalarBusy (s.tile t) [f.sd.toNat, f.sa.toNat] = false) &&
    decide (injKind (s.tile t) ≠ 1) &&
    let x := s.tile t
    let a := (sreg x f.sa.toNat).toNat + f.off.toNat
    let bad := 2
    decide (a < 98304) &&
    decide (Map.get (fun _ => 0) x.par a = bad) &&
    decide (bad ≠ 0) &&
    decide (goodWord { x with par := [] } 7 none a = true)) = true := by decide

theorem witness_BranchTargets_0 : (
    let t : Nat := 0
    let f : LB := { sa := 1, sb := 0, tgt := 15 }
    let s : State := withTile { tileOn with pc := 3, sregs := [(1, 1#64), (2, 0xFFFFFFFFFFFFFFFF#64)] }
    decide (s.canIssue t = true) &&
    decide (f.rsv = 0) &&
    decide (f.tgt.toNat < 4096) &&
    decide (scalarBusy (s.tile t) [f.sa.toNat, f.sb.toNat] = false) &&
    decide (f.sb = 0)) = true := by decide

theorem witness_BranchTargets_1 : (
    let t : Nat := 0
    let f : LB := { sa := 0, sb := 0, tgt := 15 }
    let s : State := withTile { tileOn with pc := 3, sregs := [(1, 1#64), (2, 0xFFFFFFFFFFFFFFFF#64)] }
    decide (s.canIssue t = true) &&
    decide (f.rsv = 0) &&
    decide (f.tgt.toNat < 4096) &&
    decide (scalarBusy (s.tile t) [f.sa.toNat, f.sb.toNat] = false) &&
    decide (f.sa = 0) &&
    decide (f.sb = 0)) = true := by decide

theorem witness_BranchTargets_2a : (
    let t : Nat := 0
    let f : LB := { sa := 1, sb := 2, tgt := 15 }
    let s : State := withTile { tileOn with pc := 3, sregs := [(1, 1#64), (2, 0xFFFFFFFFFFFFFFFF#64)] }
    decide (s.canIssue t = true) &&
    decide (f.rsv = 0) &&
    decide (f.tgt.toNat < 4096) &&
    decide (scalarBusy (s.tile t) [f.sa.toNat, f.sb.toNat] = false)) = true := by decide

theorem witness_SystemInstructions_0 : (
    let t : Nat := 0
    let s : State := running
    decide (s.canIssue t = true) &&
    let f : LSI := { sd := 3, sa := 1, imm := 7 }
    decide (f.rsv = 0)) = true := by decide

theorem witness_SystemInstructions_1 : (
    let t : Nat := 0
    let s : State := running
    decide (s.canIssue t = true) &&
    let x := s.tile t
    let f : LSI := { sd := 3, sa := 1, imm := 7 }
    decide (f.rsv = 0) &&
    decide (scalarBusy x [f.sd.toNat] = false)) = true := by decide

theorem witness_SystemInstructions_2 : (
    let t : Nat := 0
    let s : State := running
    decide (s.canIssue t = true) &&
    let f : LSI := { sd := 3, sa := 1, imm := 7 }
    decide (f.rsv = 0) &&
    decide (f.imm.toNat < 8)) = true := by decide

theorem witness_SystemInstructions_3 : (
    let t : Nat := 0
    let s : State := running
    decide (s.canIssue t = true)) = true := by decide

theorem witness_EventPath_0 : (
    let t : Nat := 0
    let f : LSI := { sd := 0, sa := 1, imm := 0x100 }
    let s : State := running
    decide (s.canIssue t = true) &&
    decide (f.rsv = 0) &&
    decide (256 ≤ f.imm.toNat % 65536 ∨ f.imm.toNat % 65536 = 1) &&
    decide (scalarBusy (s.tile t) [f.sa.toNat] = false) &&
    let x := s.tile t
    decide (x.event = none)) = true := by decide

theorem witness_EventPath_1 : (
    let t : Nat := 0
    let f : LSI := { sd := 0, sa := 1, imm := 0x100 }
    let s : State := withTile { tileOn with event := some ({ code := 0x100, value := 5#64, posted := true, accepted := true } : Event) }
    decide (s.canIssue t = true) &&
    decide (f.rsv = 0) &&
    decide (256 ≤ f.imm.toNat % 65536 ∨ f.imm.toNat % 65536 = 1) &&
    decide (scalarBusy (s.tile t) [f.sa.toNat] = false) &&
    let x := s.tile t
    let ev := ({ code := 0x100, value := 5#64, posted := true, accepted := true } : Event)
    decide (x.event = some ev) &&
    decide (ev.accepted = true)) = true := by decide

theorem witness_EventPath_2 : (
    let t : Nat := 0
    let f : LSI := { sd := 0, sa := 1, imm := 0x100 }
    let s : State := withTile { tileOn with event := some ({ code := 0x100, value := 5#64, posted := true } : Event) }
    decide (s.canIssue t = true) &&
    decide (f.rsv = 0) &&
    decide (256 ≤ f.imm.toNat % 65536 ∨ f.imm.toNat % 65536 = 1) &&
    decide (scalarBusy (s.tile t) [f.sa.toNat] = false) &&
    let x := s.tile t
    let ev := ({ code := 0x100, value := 5#64, posted := true } : Event)
    decide (x.event = some ev) &&
    decide (ev.accepted = false)) = true := by decide

theorem witness_EventPath_3 : (
    let t : Nat := 0
    let e : Nat := 0
    let port : Nat := 1
    let s : State := { withTile { tileOn with event := some ({ code := 0x100, value := 5#64, sent := true } : Event), rtr := { edge := [(1, [{ vc := 0, dest := 0, body := .ctl 0 0 6 true, data := [5#32, 0#32, 0x100#32] }])] } } with mod := { cc := { up := true } } }
    let f : Flit := ({ vc := 0, dest := 0, body := .ctl 0 0 6 true, data := [5#32, 0#32, 0x100#32] } : Flit)
    decide (isTile t = true) &&
    decide (s.mod.cc.up = true) &&
    decide ((s.tiles.findSome? fun z => (heldEvent t z.2).map fun w => (z.1, w)) = some (e, port, f)) &&
    let r := min 8 (s.tilePart t)
    decide ((s.mailOf r).length < 4096)) = true := by decide

theorem witness_EventPath_4 : (
    let t : Nat := 0
    let s : State := withTile { tileOn with event := some ({ code := 0x100, value := 5#64, refused := true } : Event) }
    let ev : Event := ({ code := 0x100, value := 5#64, refused := true } : Event)
    decide (s.tileOn t = true) &&
    decide ((s.tile t).event = some ev) &&
    decide (ev.refused = true)) = true := by decide

theorem witness_EventPath_5 : (
    let ring : Nat := 0
    let s : State := { withTile { tileOn with event := some ({ code := 0x100, value := 5#64, posted := true } : Event) } with mod := { cc := { up := true, mail := [(0, [{ tile := 0, code := 0x100, value := 5#64 }])] } } }
    let m : Mail := ({ tile := 0, code := 0x100, value := 5#64 } : Mail)
    let l : List Mail := ([] : List Mail)
    let ev : Event := ({ code := 0x100, value := 5#64, posted := true } : Event)
    decide (ring ≤ 8) &&
    decide (s.mod.cc.up = true) &&
    decide (s.mailOf ring = m :: l) &&
    decide (m.msg = none) &&
    decide (256 ≤ m.code) &&
    decide ((s.tile m.tile).event = some ev) &&
    decide (ev.posted = true) &&
    decide (ev.code = m.code) &&
    decide (ev.value = m.value) &&
    decide (s.eventAnswered m.tile = true)) = true := by decide

theorem witness_Regions_0 : (
    let t : Nat := 0
    let f : LQ := { rg := 2, ns := 0, sa := 1, sb := 2, n := 60 }
    let s : State := withTile { tileOn with regions := [(2, ({ ver := 1, base := 8, size := 100, prod := 4, cons := 4, occ := 60, head := 90 } : Region))], sregs := [(1, 98208#64), (2, 96#64)] }
    decide (s.canIssue t = true) &&
    decide (f.rsv = 0) &&
    decide (f.ns = 0) &&
    let x := s.tile t
    let g := f.rg.toNat
    let r := region x g
    let n := f.n.toNat
    decide (r.valid = true) &&
    decide (n ≤ r.size) &&
    decide (r.cons = 4)) = true := by decide

theorem witness_Regions_1 : (
    let t : Nat := 0
    let f : LQ := { rg := 2, ns := 0, sa := 1, sb := 2, n := 40 }
    let s : State := withTile { tileOn with regions := [(2, ({ ver := 1, base := 8, size := 100, prod := 4, cons := 4, occ := 60, head := 90 } : Region))], sregs := [(1, 98208#64), (2, 96#64)] }
    decide (s.canIssue t = true) &&
    decide (f.rsv = 0) &&
    decide (f.ns = 0) &&
    let x := s.tile t
    let g := f.rg.toNat
    let r := region x g
    let n := f.n.toNat
    decide (r.valid = true) &&
    decide (n ≤ r.size) &&
    decide (r.prod = 4)) = true := by decide

theorem witness_Regions_2 : (
    let t : Nat := 0
    let f : LQ := { rg := 2, ns := 0, sa := 1, sb := 2, n := 100 }
    let s : State := withTile { tileOn with regions := [(2, ({ ver := 1, base := 8, size := 100, prod := 4, cons := 4, occ := 60, head := 90 } : Region))], sregs := [(1, 98208#64), (2, 96#64)] }
    decide (s.canIssue t = true) &&
    decide (f.rsv = 0) &&
    decide (f.ns = 0) &&
    let x := s.tile t
    let g := f.rg.toNat
    let r := region x g
    let n := f.n.toNat
    decide (r.valid = true) &&
    decide (n ≤ r.size)) = true := by decide

theorem witness_Regions_3 : (
    let t : Nat := 0
    let f : LQ := { rg := 2, ns := 0, sa := 1, sb := 2, n := 40 }
    let s : State := running
    decide (s.canIssue t = true) &&
    decide (f.rsv = 0) &&
    decide (f.ns = 0) &&
    let g := f.rg.toNat
    let r := region (s.tile t) g
    decide (r.valid = false)) = true := by decide

theorem witness_Regions_4 : (
    let t : Nat := 0
    let f : LQ := { rg := 2, ns := 0, sa := 1, sb := 2, n := 40 }
    let s : State := withTile { tileOn with regions := [(2, ({ ver := 1, base := 8, size := 100, prod := 4, cons := 1, occ := 60, head := 90 } : Region))] }
    decide (s.canIssue t = true) &&
    decide (f.rsv = 0) &&
    decide (f.ns = 0) &&
    let g := f.rg.toNat
    let r := region (s.tile t) g
    decide (r.valid = true) &&
    decide (r.cons ≠ 4)) = true := by decide

theorem witness_Regions_5 : (
    let t : Nat := 0
    let f : LQ := { rg := 2, ns := 0, sa := 1, sb := 2, n := 40 }
    let s : State := withTile { tileOn with regions := [(2, ({ ver := 1, base := 8, size := 100, prod := 1, cons := 4, occ := 60, head := 90 } : Region))] }
    decide (s.canIssue t = true) &&
    decide (f.rsv = 0) &&
    decide (f.ns = 0) &&
    let g := f.rg.toNat
    let r := region (s.tile t) g
    decide (r.valid = true) &&
    decide (r.prod ≠ 4)) = true := by decide

theorem witness_Regions_6 : (
    let t : Nat := 0
    let f : LQ := { rg := 2, ns := 0, sa := 1, sb := 2, n := 101 }
    let s : State := withTile { tileOn with regions := [(2, ({ ver := 1, base := 8, size := 100, prod := 4, cons := 4, occ := 60, head := 90 } : Region))], sregs := [(1, 98208#64), (2, 96#64)] }
    decide (s.canIssue t = true) &&
    decide (f.rsv = 0) &&
    decide (f.ns = 0) &&
    let g := f.rg.toNat
    let r := region (s.tile t) g
    decide (r.valid = true) &&
    decide (r.size < f.n.toNat) &&
    decide (r.cons = 4)) = true := by decide

theorem witness_Regions_7 : (
    let t : Nat := 0
    let f : LQ := { rg := 2, ns := 0, sa := 1, sb := 2, n := 101 }
    let s : State := withTile { tileOn with regions := [(2, ({ ver := 1, base := 8, size := 100, prod := 4, cons := 4, occ := 60, head := 90 } : Region))], sregs := [(1, 98208#64), (2, 96#64)] }
    decide (s.canIssue t = true) &&
    decide (f.rsv = 0) &&
    decide (f.ns = 0) &&
    let g := f.rg.toNat
    let r := region (s.tile t) g
    decide (r.valid = true) &&
    decide (r.size < f.n.toNat) &&
    decide (r.prod = 4)) = true := by decide

theorem witness_Regions_8 : (
    let t : Nat := 0
    let f : LQ := { rg := 2, ns := 0, sa := 1, sb := 2, n := 101 }
    let s : State := withTile { tileOn with regions := [(2, ({ ver := 1, base := 8, size := 100, prod := 4, cons := 4, occ := 60, head := 90 } : Region))], sregs := [(1, 98208#64), (2, 96#64)] }
    decide (s.canIssue t = true) &&
    decide (f.rsv = 0) &&
    decide (f.ns = 0) &&
    let g := f.rg.toNat
    let r := region (s.tile t) g
    decide (r.valid = true) &&
    decide (r.size < f.n.toNat)) = true := by decide

theorem witness_Regions_9 : (
    let t : Nat := 0
    let f : LQ := { rg := 2, ns := 0, sa := 1, sb := 2, n := 0 }
    let s : State := withTile { tileOn with sregs := [(1, 0x0001800010000000#64), (2, 0#64)] }
    decide (s.canIssue t = true) &&
    decide (f.rsv = 0) &&
    decide (f.ns = 0) &&
    decide (f.n = 0) &&
    decide (scalarBusy (s.tile t) [f.sa.toNat, f.sb.toNat] = false) &&
    let x := s.tile t
    let a := sreg x f.sa.toNat
    let b := sreg x f.sb.toNat
    decide (busyRegions x = []) &&
    decide (rgReserved a b = false) &&
    decide ((rgFromScalars a b).valid = true)) = true := by decide

theorem witness_Regions_10 : (
    let t : Nat := 0
    let f : LQ := { rg := 2, ns := 0, sa := 1, sb := 0, n := 0 }
    let s : State := withTile { tileOn with regions := [(2, ({ ver := 1, base := 8, size := 100, prod := 4, cons := 4, occ := 60, head := 90 } : Region))], sregs := [(1, 98208#64), (2, 96#64)] }
    decide (s.canIssue t = true) &&
    decide (f.rsv = 0) &&
    decide (f.ns = 0) &&
    decide (f.n = 0) &&
    decide (scalarBusy (s.tile t) [f.sa.toNat, f.sb.toNat] = false) &&
    let x := s.tile t
    decide (f.sb = 0) &&
    decide ((region x f.rg.toNat).valid = true)) = true := by decide

theorem witness_Regions_11 : (
    let t : Nat := 0
    let f : LQ := { rg := 0, ns := 0, sa := 1, sb := 2, n := 0 }
    let s : State := withTile { tileOn with spd := [(98207, 1#32), (98303, 2#32)], sregs := [(1, 98208#64), (2, 96#64)] }
    decide (s.canIssue t = true) &&
    decide (f.rsv = 0) &&
    decide (f.ns = 0) &&
    decide (f.n = 0) &&
    decide (scalarBusy (s.tile t) [f.sa.toNat, f.sb.toNat] = false) &&
    let x := s.tile t
    let a := sreg x f.sa.toNat
    let b := sreg x f.sb.toNat
    decide (f.rg = 0) &&
    decide (busyRegions x = []) &&
    decide (a.toNat + b.toNat ≤ 98304)) = true := by decide

theorem witness_ReservedEncodingStops_0 : (
    let t : Nat := 0
    let w : DWord := 2305880495688253441#64
    let c : Instr := (.add 0 { sd := 1, sa := 2, sb := 3, rsv := 1 })
    let s : State := running
    decide (decodeWord t w = some c) &&
    decide (s.canIssue t = true) &&
    decide (legalInstr c = false)) = true := by decide

theorem witness_ReservedEncodingStops_1 : (
    let t : Nat := 0
    let w : DWord := 0x0420000000000000#64
    let c : Instr := (.ctlEnd 0 { sa := 0, sb := 0, tgt := 0 })
    let s : State := withTile { tileOn with pc := 16 }
    decide (decodeWord t w = some c) &&
    decide (s.tileOn t = true) &&
    decide ((s.part (s.tilePart t)).state ≠ 4) &&
    decide ((s.tile t).seq = .running) &&
    decide (progLen (s.tile t) ≤ (s.tile t).pc)) = true := by decide

theorem witness_VectorArithmetic_0a : (
    let fn : VFn := .fadd
    let t : Nat := 0
    let f : LVA := { vd := 0, va := 1, vb := 2, vc := 0, pe := 1, pr := 1, fmt := 0, bs := 0, sb := 0 }
    let s : State := withTile { tileOn with vregs := [(32, 0x3F800000#32), (33, 0x7F800000#32), (64, 0x40000000#32), (65, 0xFFC00000#32), (95, 0x00000001#32)], pregs := [(1, 0x8000000000000003#64)], sregs := [(4, 0x00000000C0000000#64), (6, 1#64)] }
    decide (s.vecReady t (.arith fn f) = true)) = true := by decide

theorem witness_VectorElements_0a : (
    let fn : VFn := .fadd
    let f : LVA := { vd := 0, va := 1, vb := 2, vc := 2, pe := 1, pr := 1, fmt := 0, bs := 0, sb := 4 }
    let e : Nat := 0
    let w16 := is16 f.fmt.toNat && !isInt fn
    decide (e < (if w16 then 64 else 32))) = true := by decide

theorem witness_VectorPredicates_0a : (
    let t : Nat := 0
    let f : LVA := { vd := 7, va := 1, vb := 2, vc := 0, pe := 1, pr := 1, fmt := 0, bs := 0, sb := 0 }
    let s : State := withTile { tileOn with vregs := [(32, 0x3F800000#32), (33, 0x7F800000#32), (64, 0x40000000#32), (65, 0xFFC00000#32), (95, 0x00000001#32)], pregs := [(1, 0x8000000000000003#64)], sregs := [(4, 0x00000000C0000000#64), (6, 1#64)] }
    let r := .eq
    decide (s.vecReady t (.fcmp r f) = true)) = true := by decide

theorem witness_VectorPredicates_0b : (
    let t : Nat := 0
    let f : LVA := { vd := 7, va := 1, vb := 2, vc := 0, pe := 1, pr := 1, fmt := 1, bs := 0, sb := 0 }
    let s : State := withTile { tileOn with vregs := [(32, 0x3F800000#32), (33, 0x7F800000#32), (64, 0x40000000#32), (65, 0xFFC00000#32), (95, 0x00000001#32)], pregs := [(1, 0x8000000000000003#64)], sregs := [(4, 0x00000000C0000000#64), (6, 1#64)] }
    let r := .ne
    decide (s.vecReady t (.fcmp r f) = true)) = true := by decide

theorem witness_VectorPredicates_0c : (
    let t : Nat := 0
    let f : LVA := { vd := 7, va := 1, vb := 0, vc := 0, pe := 1, pr := 1, fmt := 0, bs := 1, sb := 4 }
    let s : State := withTile { tileOn with vregs := [(32, 0x3F800000#32), (33, 0x7F800000#32), (64, 0x40000000#32), (65, 0xFFC00000#32), (95, 0x00000001#32)], pregs := [(1, 0x8000000000000003#64)], sregs := [(4, 0x00000000C0000000#64), (6, 1#64)] }
    let r := .lt
    decide (s.vecReady t (.fcmp r f) = true)) = true := by decide

theorem witness_VectorPredicates_0d : (
    let t : Nat := 0
    let f : LVA := { vd := 7, va := 1, vb := 2, vc := 0, pe := 1, pr := 1, fmt := 2, bs := 0, sb := 0 }
    let s : State := withTile { tileOn with vregs := [(32, 0x3F800000#32), (33, 0x7F800000#32), (64, 0x40000000#32), (65, 0xFFC00000#32), (95, 0x00000001#32)], pregs := [(1, 0x8000000000000003#64)], sregs := [(4, 0x00000000C0000000#64), (6, 1#64)] }
    let r := .le
    decide (s.vecReady t (.fcmp r f) = true)) = true := by decide

theorem witness_VectorPredicates_0e : (
    let t : Nat := 0
    let f : LVA := { vd := 7, va := 1, vb := 2, vc := 0, pe := 1, pr := 1, fmt := 0, bs := 0, sb := 0 }
    let s : State := withTile { tileOn with vregs := [(32, 0x3F800000#32), (33, 0x7F800000#32), (64, 0x40000000#32), (65, 0xFFC00000#32), (95, 0x00000001#32)], pregs := [(1, 0x8000000000000003#64)], sregs := [(4, 0x00000000C0000000#64), (6, 1#64)] }
    let r := .gt
    decide (s.vecReady t (.fcmp r f) = true)) = true := by decide

theorem witness_VectorPredicates_0f : (
    let t : Nat := 0
    let f : LVA := { vd := 7, va := 1, vb := 2, vc := 0, pe := 1, pr := 1, fmt := 0, bs := 0, sb := 0 }
    let s : State := withTile { tileOn with vregs := [(32, 0x3F800000#32), (33, 0x7F800000#32), (64, 0x40000000#32), (65, 0xFFC00000#32), (95, 0x00000001#32)], pregs := [(1, 0x8000000000000003#64)], sregs := [(4, 0x00000000C0000000#64), (6, 1#64)] }
    let r := .ge
    decide (s.vecReady t (.fcmp r f) = true)) = true := by decide

theorem witness_VectorPredicates_1a : (
    let t : Nat := 0
    let f : LVA := { vd := 7, va := 1, vb := 2, vc := 0, pe := 1, pr := 1, fmt := 0, bs := 0, sb := 0 }
    let s : State := withTile { tileOn with vregs := [(32, 0x3F800000#32), (33, 0x7F800000#32), (64, 0x40000000#32), (65, 0xFFC00000#32), (95, 0x00000001#32)], pregs := [(1, 0x8000000000000003#64)], sregs := [(4, 0x00000000C0000000#64), (6, 1#64)] }
    let r := .eq
    decide (s.vecReady t (.icmp r f) = true)) = true := by decide

theorem witness_VectorPredicates_1b : (
    let t : Nat := 0
    let f : LVA := { vd := 7, va := 1, vb := 2, vc := 0, pe := 1, pr := 1, fmt := 0, bs := 0, sb := 0 }
    let s : State := withTile { tileOn with vregs := [(32, 0x3F800000#32), (33, 0x7F800000#32), (64, 0x40000000#32), (65, 0xFFC00000#32), (95, 0x00000001#32)], pregs := [(1, 0x8000000000000003#64)], sregs := [(4, 0x00000000C0000000#64), (6, 1#64)] }
    let r := .ne
    decide (s.vecReady t (.icmp r f) = true)) = true := by decide

theorem witness_VectorPredicates_1c : (
    let t : Nat := 0
    let f : LVA := { vd := 7, va := 1, vb := 2, vc := 0, pe := 1, pr := 1, fmt := 0, bs := 0, sb := 0 }
    let s : State := withTile { tileOn with vregs := [(32, 0x3F800000#32), (33, 0x7F800000#32), (64, 0x40000000#32), (65, 0xFFC00000#32), (95, 0x00000001#32)], pregs := [(1, 0x8000000000000003#64)], sregs := [(4, 0x00000000C0000000#64), (6, 1#64)] }
    let r := .lt
    decide (s.vecReady t (.icmp r f) = true)) = true := by decide

theorem witness_VectorPredicates_1d : (
    let t : Nat := 0
    let f : LVA := { vd := 7, va := 1, vb := 2, vc := 0, pe := 1, pr := 1, fmt := 0, bs := 0, sb := 0 }
    let s : State := withTile { tileOn with vregs := [(32, 0x3F800000#32), (33, 0x7F800000#32), (64, 0x40000000#32), (65, 0xFFC00000#32), (95, 0x00000001#32)], pregs := [(1, 0x8000000000000003#64)], sregs := [(4, 0x00000000C0000000#64), (6, 1#64)] }
    let r := .le
    decide (s.vecReady t (.icmp r f) = true)) = true := by decide

theorem witness_VectorPredicates_1e : (
    let t : Nat := 0
    let f : LVA := { vd := 7, va := 1, vb := 2, vc := 0, pe := 1, pr := 1, fmt := 0, bs := 0, sb := 0 }
    let s : State := withTile { tileOn with vregs := [(32, 0x3F800000#32), (33, 0x7F800000#32), (64, 0x40000000#32), (65, 0xFFC00000#32), (95, 0x00000001#32)], pregs := [(1, 0x8000000000000003#64)], sregs := [(4, 0x00000000C0000000#64), (6, 1#64)] }
    let r := .gt
    decide (s.vecReady t (.icmp r f) = true)) = true := by decide

theorem witness_VectorPredicates_1f : (
    let t : Nat := 0
    let f : LVA := { vd := 7, va := 1, vb := 2, vc := 0, pe := 1, pr := 1, fmt := 0, bs := 0, sb := 0 }
    let s : State := withTile { tileOn with vregs := [(32, 0x3F800000#32), (33, 0x7F800000#32), (64, 0x40000000#32), (65, 0xFFC00000#32), (95, 0x00000001#32)], pregs := [(1, 0x8000000000000003#64)], sregs := [(4, 0x00000000C0000000#64), (6, 1#64)] }
    let r := .ge
    decide (s.vecReady t (.icmp r f) = true)) = true := by decide

theorem witness_VectorPredicates_2a : (
    let t : Nat := 0
    let f : LVA := { vd := 2, va := 1, vb := 1, vc := 0, pe := 0, pr := 0, fmt := 0, bs := 0, sb := 0 }
    let s : State := withTile { tileOn with vregs := [(32, 0x3F800000#32), (33, 0x7F800000#32), (64, 0x40000000#32), (65, 0xFFC00000#32), (95, 0x00000001#32)], pregs := [(1, 0x8000000000000003#64)], sregs := [(4, 0x00000000C0000000#64), (6, 1#64)] }
    decide (s.vecReady t (.plog .and f) = true)) = true := by decide

theorem witness_VectorPredicates_2b : (
    let t : Nat := 0
    let f : LVA := { vd := 2, va := 1, vb := 0, vc := 0, pe := 0, pr := 0, fmt := 0, bs := 0, sb := 0 }
    let s : State := withTile { tileOn with vregs := [(32, 0x3F800000#32), (33, 0x7F800000#32), (64, 0x40000000#32), (65, 0xFFC00000#32), (95, 0x00000001#32)], pregs := [(1, 0x8000000000000003#64)], sregs := [(4, 0x00000000C0000000#64), (6, 1#64)] }
    decide (s.vecReady t (.plog .not f) = true)) = true := by decide

theorem witness_VectorPredicates_2c : (
    let t : Nat := 0
    let f : LVA := { vd := 0, va := 1, vb := 0, vc := 0, pe := 0, pr := 0, fmt := 0, bs := 0, sb := 9 }
    let s : State := withTile { tileOn with vregs := [(32, 0x3F800000#32), (33, 0x7F800000#32), (64, 0x40000000#32), (65, 0xFFC00000#32), (95, 0x00000001#32)], pregs := [(1, 0x8000000000000003#64)], sregs := [(4, 0x00000000C0000000#64), (6, 1#64)] }
    decide (s.vecReady t (.ppop f) = true)) = true := by decide

theorem witness_VectorPredicates_2d : (
    let t : Nat := 0
    let f : LVA := { vd := 5, va := 1, vb := 1, vc := 1, pe := 1, pr := 1, fmt := 0, bs := 0, sb := 0 }
    let s : State := withTile { tileOn with vregs := [(32, 0x3F800000#32), (33, 0x7F800000#32), (64, 0x40000000#32), (65, 0xFFC00000#32), (95, 0x00000001#32)], pregs := [(1, 0x8000000000000003#64)], sregs := [(4, 0x00000000C0000000#64), (6, 1#64)] }
    decide (s.vecReady t (.cvt f) = true)) = true := by decide

theorem witness_VectorPredicates_2e : (
    let t : Nat := 0
    let f : LVA := { vd := 5, va := 1, vb := 0, vc := 0, pe := 0, pr := 0, fmt := 1, bs := 0, sb := 0 }
    let s : State := withTile { tileOn with vregs := [(32, 0x3F800000#32), (33, 0x7F800000#32), (64, 0x40000000#32), (65, 0xFFC00000#32), (95, 0x00000001#32)], pregs := [(1, 0x8000000000000003#64)], sregs := [(4, 0x00000000C0000000#64), (6, 1#64)] }
    decide (s.vecReady t (.cvt f) = true)) = true := by decide

theorem witness_VectorPredicates_2f : (
    let t : Nat := 0
    let f : LVA := { vd := 5, va := 2, vb := 0, vc := 1, pe := 0, pr := 0, fmt := 0, bs := 0, sb := 0 }
    let s : State := withTile { tileOn with vregs := [(32, 0x3F800000#32), (33, 0x7F800000#32), (64, 0x40000000#32), (65, 0xFFC00000#32), (95, 0x00000001#32)], pregs := [(1, 0x8000000000000003#64)], sregs := [(4, 0x00000000C0000000#64), (6, 1#64)] }
    decide (s.vecReady t (.cvtN2 f) = true)) = true := by decide

theorem witness_VectorMovesAndSummaries_0a : (
    let t : Nat := 0
    let f : LMV := { s := 9, v := 2, p := 0, lane := 31 }
    let s : State := withTile { tileOn with vregs := [(32, 0x3F800000#32), (33, 0x7F800000#32), (64, 0x40000000#32), (65, 0xFFC00000#32), (95, 0x00000001#32)], pregs := [(1, 0x8000000000000003#64)], sregs := [(4, 0x00000000C0000000#64), (6, 1#64)] }
    decide (s.vecReady t (.movVS f) = true)) = true := by decide

theorem witness_VectorMovesAndSummaries_0b : (
    let t : Nat := 0
    let f : LMV := { s := 4, v := 3, p := 0, lane := 31 }
    let s : State := withTile { tileOn with vregs := [(32, 0x3F800000#32), (33, 0x7F800000#32), (64, 0x40000000#32), (65, 0xFFC00000#32), (95, 0x00000001#32)], pregs := [(1, 0x8000000000000003#64)], sregs := [(4, 0x00000000C0000000#64), (6, 1#64)] }
    decide (s.vecReady t (.movSV f) = true)) = true := by decide

theorem witness_VectorMovesAndSummaries_0c : (
    let t : Nat := 0
    let f : LMV := { s := 15, v := 3, p := 0, lane := 0 }
    let s : State := withTile { tileOn with vregs := [(32, 0x3F800000#32), (33, 0x7F800000#32), (64, 0x40000000#32), (65, 0xFFC00000#32), (95, 0x00000001#32)], pregs := [(1, 0x8000000000000003#64)], sregs := [(4, 0x00000000C0000000#64), (6, 1#64)] }
    decide (s.vecReady t (.movVV f) = true)) = true := by decide

theorem witness_VectorMovesAndSummaries_0d : (
    let t : Nat := 0
    let f : LMV := { s := 31, v := 0, p := 1, lane := 0 }
    let s : State := withTile { tileOn with vregs := [(32, 0x3F800000#32), (33, 0x7F800000#32), (64, 0x40000000#32), (65, 0xFFC00000#32), (95, 0x00000001#32)], pregs := [(1, 0x8000000000000003#64)], sregs := [(4, 0x00000000C0000000#64), (6, 1#64)] }
    decide (s.vecReady t (.movPS f) = true)) = true := by decide

theorem witness_VectorMovesAndSummaries_0e : (
    let t : Nat := 0
    let f : LMV := { s := 4, v := 0, p := 7, lane := 0 }
    let s : State := withTile { tileOn with vregs := [(32, 0x3F800000#32), (33, 0x7F800000#32), (64, 0x40000000#32), (65, 0xFFC00000#32), (95, 0x00000001#32)], pregs := [(1, 0x8000000000000003#64)], sregs := [(4, 0x00000000C0000000#64), (6, 1#64)] }
    decide (s.vecReady t (.movSP f) = true)) = true := by decide

theorem witness_VectorMovesAndSummaries_1 : (
    let t : Nat := 0
    let f : LVS := { sd := 30, va := 1, pe := 0, pr := 0, fmt := 0, acc := 0, sbase := 0 }
    let s : State := withTile { tileOn with vregs := [(32, 0x3F800000#32), (33, 0x7F800000#32), (64, 0x40000000#32), (65, 0xFFC00000#32), (95, 0x00000001#32)], pregs := [(1, 0x8000000000000003#64)], sregs := [(4, 0x00000000C0000000#64), (6, 1#64)] }
    let x := s.tile t
    let el := sumElems x f
    decide (f.acc = 0) &&
    let i := 1
    let v := .inf false
    decide (argmaxFrom 0 none el = some (i, v))) = true := by decide

theorem witness_VectorMovesAndSummaries_2 : (
    let t : Nat := 0
    let f : LVS := { sd := 30, va := 1, pe := 1, pr := 0, fmt := 0, acc := 0, sbase := 0 }
    let s : State := withTile { tileOn with vregs := [(32, 0x3F800000#32), (33, 0x7F800000#32), (64, 0x40000000#32), (65, 0xFFC00000#32), (95, 0x00000001#32)], pregs := [(1, 0x8000000000000003#64)], sregs := [(4, 0x00000000C0000000#64), (6, 1#64)] }
    let x := s.tile t
    let el := sumElems x f
    decide (f.acc = 0) &&
    decide (argmaxFrom 0 none el = none)) = true := by decide

theorem witness_VectorMovesAndSummaries_3a : (
    let t : Nat := 0
    let f : LVS := { sd := 8, va := 1, pe := 1, pr := 1, fmt := 0, acc := 1, sbase := 0 }
    let s : State := withTile { tileOn with vregs := [(32, 0x3F800000#32), (33, 0x7F800000#32), (64, 0x40000000#32), (65, 0xFFC00000#32), (95, 0x00000001#32)], pregs := [(1, 0x8000000000000003#64)], sregs := [(4, 0x00000000C0000000#64), (6, 1#64)] }
    decide (s.vecReady t (.sum .nf f) = true)) = true := by decide

theorem witness_VectorMovesAndSummaries_3b : (
    let t : Nat := 0
    let f : LVS := { sd := 8, va := 2, pe := 0, pr := 0, fmt := 1, acc := 0, sbase := 0 }
    let s : State := withTile { tileOn with vregs := [(32, 0x3F800000#32), (33, 0x7F800000#32), (64, 0x40000000#32), (65, 0xFFC00000#32), (95, 0x00000001#32)], pregs := [(1, 0x8000000000000003#64)], sregs := [(4, 0x00000000C0000000#64), (6, 1#64)] }
    decide (s.vecReady t (.sum .nf f) = true)) = true := by decide

theorem witness_VectorMovesAndSummaries_3c : (
    let t : Nat := 0
    let f : LVS := { sd := 8, va := 1, pe := 0, pr := 0, fmt := 0, acc := 0, sbase := 0 }
    let s : State := withTile { tileOn with vregs := [(32, 0x3F800000#32), (33, 0x7F800000#32), (64, 0x40000000#32), (65, 0xFFC00000#32), (95, 0x00000001#32)], pregs := [(1, 0x8000000000000003#64)], sregs := [(4, 0x00000000C0000000#64), (6, 1#64)] }
    decide (s.vecReady t (.sum .amax f) = true)) = true := by decide

theorem witness_VectorMovesAndSummaries_3d : (
    let t : Nat := 0
    let f : LVS := { sd := 8, va := 2, pe := 1, pr := 1, fmt := 2, acc := 1, sbase := 0 }
    let s : State := withTile { tileOn with vregs := [(32, 0x3F800000#32), (33, 0x7F800000#32), (64, 0x40000000#32), (65, 0xFFC00000#32), (95, 0x00000001#32)], pregs := [(1, 0x8000000000000003#64)], sregs := [(4, 0x00000000C0000000#64), (6, 1#64)] }
    decide (s.vecReady t (.sum .amax f) = true)) = true := by decide

theorem witness_VectorMovesAndSummaries_3e : (
    let t : Nat := 0
    let f : LVS := { sd := 8, va := 1, pe := 1, pr := 1, fmt := 1, acc := 1, sbase := 0 }
    let s : State := withTile { tileOn with vregs := [(32, 0x3F800000#32), (33, 0x7F800000#32), (64, 0x40000000#32), (65, 0xFFC00000#32), (95, 0x00000001#32)], pregs := [(1, 0x8000000000000003#64)], sregs := [(4, 0x00000000C0000000#64), (6, 1#64)] }
    decide (s.vecReady t (.sum .add f) = true)) = true := by decide

theorem witness_VectorMovesAndSummaries_3f : (
    let t : Nat := 0
    let f : LVS := { sd := 8, va := 2, pe := 0, pr := 0, fmt := 0, acc := 0, sbase := 0 }
    let s : State := withTile { tileOn with vregs := [(32, 0x3F800000#32), (33, 0x7F800000#32), (64, 0x40000000#32), (65, 0xFFC00000#32), (95, 0x00000001#32)], pregs := [(1, 0x8000000000000003#64)], sregs := [(4, 0x00000000C0000000#64), (6, 1#64)] }
    decide (s.vecReady t (.sum .add f) = true)) = true := by decide

theorem witness_VectorMovesAndSummaries_3g : (
    let t : Nat := 0
    let f : LVS := { sd := 8, va := 1, pe := 0, pr := 0, fmt := 0, acc := 1, sbase := 6 }
    let s : State := withTile { tileOn with vregs := [(32, 0x3F800000#32), (33, 0x7F800000#32), (64, 0x40000000#32), (65, 0xFFC00000#32), (95, 0x00000001#32)], pregs := [(1, 0x8000000000000003#64)], sregs := [(4, 0x00000000C0000000#64), (6, 1#64)] }
    decide (s.vecReady t (.sum .argmax f) = true)) = true := by decide

theorem witness_VectorMovesAndSummaries_3h : (
    let t : Nat := 0
    let f : LVS := { sd := 8, va := 2, pe := 0, pr := 0, fmt := 1, acc := 0, sbase := 0 }
    let s : State := withTile { tileOn with vregs := [(32, 0x3F800000#32), (33, 0x7F800000#32), (64, 0x40000000#32), (65, 0xFFC00000#32), (95, 0x00000001#32)], pregs := [(1, 0x8000000000000003#64)], sregs := [(4, 0x00000000C0000000#64), (6, 1#64)] }
    decide (s.vecReady t (.sum .argmax f) = true)) = true := by decide

theorem witness_VectorMemory_0a : (
    let t : Nat := 0
    let f : LVM := { vr := 3, rg := 2, adv := 1, so := 0, soff := 0, pe := 0, pr := 0, tfmt := 0, sfmt := 0, rnd := 0, sat := 0, srg := 0, off := 8 }
    let s : State := withTile { { tileOn with vregs := [(32, 0x3F800000#32), (33, 0x7F800000#32), (64, 0x40000000#32), (65, 0xFFC00000#32), (95, 0x00000001#32)], pregs := [(1, 0x8000000000000003#64)], sregs := [(4, 0x00000000C0000000#64), (6, 1#64)] } with regions := [(2, ({ ver := 1, base := 16, size := 400, prod := 2, cons := 2, occ := 40, head := 380 } : Region)), (3, ({ ver := 1, base := 600, size := 16, prod := 2, cons := 1, occ := 0, head := 3 } : Region))], spd := [(16, 5#32), (396, 7#32)] }
    let x := s.tile t
    let g := f.rg.toNat
    let r := region x g
    let b := if f.so = 1 then sreg x f.soff.toNat else 0
    let o := f.off.toNat + b.toNat
    decide (usable x g 2 false = true) &&
    decide (o + 32 ≤ r.occ) &&
    decide (injKind x ≠ 1) &&
    decide (((rgSpan r (r.head + o) 32).all fun i => decide (goodWord x 3 (some g) i = true)) = true) &&
    decide (s.vecReady t (.vld f) = true)) = true := by decide

theorem witness_VectorMemory_0b : (
    let t : Nat := 0
    let f : LVM := { vr := 3, rg := 2, adv := 0, so := 1, soff := 6, pe := 1, pr := 1, tfmt := 0, sfmt := 0, rnd := 0, sat := 0, srg := 0, off := 7 }
    let s : State := withTile { { tileOn with vregs := [(32, 0x3F800000#32), (33, 0x7F800000#32), (64, 0x40000000#32), (65, 0xFFC00000#32), (95, 0x00000001#32)], pregs := [(1, 0x8000000000000003#64)], sregs := [(4, 0x00000000C0000000#64), (6, 1#64)] } with regions := [(2, ({ ver := 1, base := 16, size := 400, prod := 2, cons := 2, occ := 40, head := 380 } : Region)), (3, ({ ver := 1, base := 600, size := 16, prod := 2, cons := 1, occ := 0, head := 3 } : Region))], spd := [(16, 5#32), (396, 7#32)] }
    let x := s.tile t
    let g := f.rg.toNat
    let r := region x g
    let b := if f.so = 1 then sreg x f.soff.toNat else 0
    let o := f.off.toNat + b.toNat
    decide (usable x g 2 false = true) &&
    decide (o + 32 ≤ r.occ) &&
    decide (injKind x ≠ 1) &&
    decide (((rgSpan r (r.head + o) 32).all fun i => decide (goodWord x 3 (some g) i = true)) = true) &&
    decide (s.vecReady t (.vld f) = true)) = true := by decide

theorem witness_VectorMemory_1a : (
    let t : Nat := 0
    let f : LVM := { vr := 2, rg := 2, adv := 1, so := 0, soff := 0, pe := 1, pr := 1, tfmt := 0, sfmt := 0, rnd := 0, sat := 0, srg := 0, off := 328 }
    let s : State := withTile { { tileOn with vregs := [(32, 0x3F800000#32), (33, 0x7F800000#32), (64, 0x40000000#32), (65, 0xFFC00000#32), (95, 0x00000001#32)], pregs := [(1, 0x8000000000000003#64)], sregs := [(4, 0x00000000C0000000#64), (6, 1#64)] } with regions := [(2, ({ ver := 1, base := 16, size := 400, prod := 2, cons := 2, occ := 40, head := 380 } : Region)), (3, ({ ver := 1, base := 600, size := 16, prod := 2, cons := 1, occ := 0, head := 3 } : Region))], spd := [(16, 5#32), (396, 7#32)] }
    let x := s.tile t
    let g := f.rg.toNat
    let r := region x g
    let b := if f.so = 1 then sreg x f.soff.toNat else 0
    let o := f.off.toNat + b.toNat
    decide (usable x g 2 true = true) &&
    decide (o + 32 ≤ r.size - r.occ) &&
    decide (s.vecReady t (.vst f) = true)) = true := by decide

theorem witness_VectorMemory_1b : (
    let t : Nat := 0
    let f : LVM := { vr := 2, rg := 2, adv := 0, so := 1, soff := 6, pe := 0, pr := 0, tfmt := 0, sfmt := 0, rnd := 0, sat := 0, srg := 0, off := 3 }
    let s : State := withTile { { tileOn with vregs := [(32, 0x3F800000#32), (33, 0x7F800000#32), (64, 0x40000000#32), (65, 0xFFC00000#32), (95, 0x00000001#32)], pregs := [(1, 0x8000000000000003#64)], sregs := [(4, 0x00000000C0000000#64), (6, 1#64)] } with regions := [(2, ({ ver := 1, base := 16, size := 400, prod := 2, cons := 2, occ := 40, head := 380 } : Region)), (3, ({ ver := 1, base := 600, size := 16, prod := 2, cons := 1, occ := 0, head := 3 } : Region))], spd := [(16, 5#32), (396, 7#32)] }
    let x := s.tile t
    let g := f.rg.toNat
    let r := region x g
    let b := if f.so = 1 then sreg x f.soff.toNat else 0
    let o := f.off.toNat + b.toNat
    decide (usable x g 2 true = true) &&
    decide (o + 32 ≤ r.size - r.occ) &&
    decide (s.vecReady t (.vst f) = true)) = true := by decide

theorem witness_VectorMemory_1c : (
    let t : Nat := 0
    let f : LVM := { vr := 2, rg := 2, adv := 1, so := 0, soff := 0, pe := 0, pr := 0, tfmt := 1, sfmt := 0, rnd := 0, sat := 0, srg := 0, off := 3 }
    let s : State := withTile { { tileOn with vregs := [(32, 0x3F800000#32), (33, 0x7F800000#32), (64, 0x40000000#32), (65, 0xFFC00000#32), (95, 0x00000001#32)], pregs := [(1, 0x8000000000000003#64)], sregs := [(4, 0x00000000C0000000#64), (6, 1#64)] } with regions := [(2, ({ ver := 1, base := 16, size := 400, prod := 2, cons := 2, occ := 40, head := 380 } : Region)), (3, ({ ver := 1, base := 600, size := 16, prod := 2, cons := 1, occ := 0, head := 3 } : Region))], spd := [(16, 5#32), (396, 7#32)] }
    let x := s.tile t
    let g := f.rg.toNat
    let r := region x g
    let b := if f.so = 1 then sreg x f.soff.toNat else 0
    let o := f.off.toNat + b.toNat
    decide (usable x g 2 true = true) &&
    decide (o + 32 ≤ r.size - r.occ) &&
    decide (s.vecReady t (.vstCvt f) = true)) = true := by decide

theorem witness_VectorMemory_1d : (
    let t : Nat := 0
    let f : LVM := { vr := 4, rg := 2, adv := 0, so := 0, soff := 0, pe := 1, pr := 1, tfmt := 3, sfmt := 0, rnd := 1, sat := 1, srg := 0, off := 3 }
    let s : State := withTile { { tileOn with vregs := [(32, 0x3F800000#32), (33, 0x7F800000#32), (64, 0x40000000#32), (65, 0xFFC00000#32), (95, 0x00000001#32)], pregs := [(1, 0x8000000000000003#64)], sregs := [(4, 0x00000000C0000000#64), (6, 1#64)] } with regions := [(2, ({ ver := 1, base := 16, size := 400, prod := 2, cons := 2, occ := 40, head := 380 } : Region)), (3, ({ ver := 1, base := 600, size := 16, prod := 2, cons := 1, occ := 0, head := 3 } : Region))], spd := [(16, 5#32), (396, 7#32)] }
    let x := s.tile t
    let g := f.rg.toNat
    let r := region x g
    let b := if f.so = 1 then sreg x f.soff.toNat else 0
    let o := f.off.toNat + b.toNat
    decide (usable x g 2 true = true) &&
    decide (o + 32 ≤ r.size - r.occ) &&
    decide (s.vecReady t (.vstCvt f) = true)) = true := by decide

theorem witness_VectorMemory_2a : (
    let t : Nat := 0
    let f : LVM := { vr := 2, rg := 2, adv := 0, so := 1, soff := 7, pe := 0, pr := 0, tfmt := 5, sfmt := 0, rnd := 0, sat := 0, srg := 3, off := 0 }
    let s : State := withTile { { tileOn with vregs := [(32, 0x3F800000#32), (33, 0x7F800000#32), (64, 0x40000000#32), (65, 0xFFC00000#32), (95, 0x00000001#32)], pregs := [(1, 0x8000000000000003#64)], sregs := [(4, 0x00000000C0000000#64), (6, 1#64)] } with regions := [(2, ({ ver := 1, base := 16, size := 400, prod := 2, cons := 2, occ := 40, head := 380 } : Region)), (3, ({ ver := 1, base := 600, size := 16, prod := 2, cons := 1, occ := 0, head := 3 } : Region))], spd := [(16, 5#32), (396, 7#32)] }
    let x := s.tile t
    let g := f.rg.toNat
    let r := region x g
    decide (usable x g 2 true = true) &&
    decide (usable x f.srg.toNat 2 true = true) &&
    decide (mxBase f + mxWords f * (sreg x f.soff.toNat).toNat + mxWords f ≤ r.size) &&
    decide (8 * (sreg x f.soff.toNat).toNat + 8 ≤ (region x f.srg.toNat).size) &&
    decide ((mxNeed f (sreg x f.soff.toNat).toNat).1 ≤ r.space) &&
    decide ((mxNeed f (sreg x f.soff.toNat).toNat).2 ≤ (region x f.srg.toNat).space) &&
    decide (s.vecReady t (.vstMx f) = true)) = true := by decide

theorem witness_VectorMemory_2b : (
    let t : Nat := 0
    let f : LVM := { vr := 2, rg := 2, adv := 0, so := 1, soff := 6, pe := 0, pr := 0, tfmt := 7, sfmt := 0, rnd := 0, sat := 0, srg := 3, off := 0 }
    let s : State := withTile { { tileOn with vregs := [(32, 0x3F800000#32), (33, 0x7F800000#32), (64, 0x40000000#32), (65, 0xFFC00000#32), (95, 0x00000001#32)], pregs := [(1, 0x8000000000000003#64)], sregs := [(4, 0x00000000C0000000#64), (6, 1#64)] } with regions := [(2, ({ ver := 1, base := 16, size := 400, prod := 2, cons := 2, occ := 40, head := 380 } : Region)), (3, ({ ver := 1, base := 600, size := 16, prod := 2, cons := 1, occ := 0, head := 3 } : Region))], spd := [(16, 5#32), (396, 7#32)] }
    let x := s.tile t
    let g := f.rg.toNat
    let r := region x g
    decide (usable x g 2 true = true) &&
    decide (usable x f.srg.toNat 2 true = true) &&
    decide (mxBase f + mxWords f * (sreg x f.soff.toNat).toNat + mxWords f ≤ r.size) &&
    decide (8 * (sreg x f.soff.toNat).toNat + 8 ≤ (region x f.srg.toNat).size) &&
    decide ((mxNeed f (sreg x f.soff.toNat).toNat).1 ≤ r.space) &&
    decide ((mxNeed f (sreg x f.soff.toNat).toNat).2 ≤ (region x f.srg.toNat).space) &&
    decide (s.vecReady t (.vstMx f) = true)) = true := by decide

theorem witness_VectorMemory_3a : (
    let t : Nat := 0
    let f : LVM := { vr := 0, rg := 2, adv := 0, so := 0, soff := 0, pe := 0, pr := 0, tfmt := 0, sfmt := 0, rnd := 0, sat := 0, srg := 0, off := 40 }
    let s : State := withTile { { tileOn with vregs := [(32, 0x3F800000#32), (33, 0x7F800000#32), (64, 0x40000000#32), (65, 0xFFC00000#32), (95, 0x00000001#32)], pregs := [(1, 0x8000000000000003#64)], sregs := [(4, 0x00000000C0000000#64), (6, 1#64)] } with regions := [(2, ({ ver := 1, base := 16, size := 400, prod := 2, cons := 2, occ := 40, head := 380 } : Region)), (3, ({ ver := 1, base := 600, size := 16, prod := 2, cons := 1, occ := 0, head := 3 } : Region))], spd := [(16, 5#32), (396, 7#32)] }
    let x := s.tile t
    let g := f.rg.toNat
    let r := region x g
    decide (usable x g 2 false = true) &&
    decide (f.off.toNat ≤ r.occ) &&
    decide (s.vecReady t (.vqPop f) = true)) = true := by decide

theorem witness_VectorMemory_4a : (
    let t : Nat := 0
    let f : LVM := { vr := 0, rg := 2, adv := 0, so := 0, soff := 0, pe := 0, pr := 0, tfmt := 0, sfmt := 0, rnd := 0, sat := 0, srg := 0, off := 360 }
    let s : State := withTile { { tileOn with vregs := [(32, 0x3F800000#32), (33, 0x7F800000#32), (64, 0x40000000#32), (65, 0xFFC00000#32), (95, 0x00000001#32)], pregs := [(1, 0x8000000000000003#64)], sregs := [(4, 0x00000000C0000000#64), (6, 1#64)] } with regions := [(2, ({ ver := 1, base := 16, size := 400, prod := 2, cons := 2, occ := 40, head := 380 } : Region)), (3, ({ ver := 1, base := 600, size := 16, prod := 2, cons := 1, occ := 0, head := 3 } : Region))], spd := [(16, 5#32), (396, 7#32)] }
    let x := s.tile t
    let g := f.rg.toNat
    let r := region x g
    decide (usable x g 2 true = true) &&
    decide (f.off.toNat ≤ r.size - r.occ) &&
    decide (s.vecReady t (.vqPush f) = true)) = true := by decide

theorem witness_VectorMemory_5 : (
    let t : Nat := 0
    let f : LVM := { vr := 3, rg := 5, adv := 1, so := 0, soff := 0, pe := 0, pr := 0, tfmt := 0, sfmt := 0, rnd := 0, sat := 0, srg := 0, off := 8 }
    let s : State := withTile { { tileOn with vregs := [(32, 0x3F800000#32), (33, 0x7F800000#32), (64, 0x40000000#32), (65, 0xFFC00000#32), (95, 0x00000001#32)], pregs := [(1, 0x8000000000000003#64)], sregs := [(4, 0x00000000C0000000#64), (6, 1#64)] } with regions := [(2, ({ ver := 1, base := 16, size := 400, prod := 2, cons := 2, occ := 40, head := 380 } : Region)), (3, ({ ver := 1, base := 600, size := 16, prod := 2, cons := 1, occ := 0, head := 3 } : Region))], spd := [(16, 5#32), (396, 7#32)] }
    let x := s.tile t
    let g := f.rg.toNat
    let r := region x g
    decide (s.canIssue t = true) &&
    decide (x.vq.length < 32) &&
    decide (scalarBusy x (if f.so = 1 then [f.soff.toNat] else []) = false) &&
    decide (r.valid = false)) = true := by decide

theorem witness_VectorMemory_6 : (
    let t : Nat := 0
    let f : LVM := { vr := 3, rg := 2, adv := 1, so := 0, soff := 0, pe := 0, pr := 0, tfmt := 0, sfmt := 0, rnd := 0, sat := 0, srg := 0, off := 8 }
    let s : State := withTile { { tileOn with vregs := [(32, 0x3F800000#32), (33, 0x7F800000#32), (64, 0x40000000#32), (65, 0xFFC00000#32), (95, 0x00000001#32)], pregs := [(1, 0x8000000000000003#64)], sregs := [(4, 0x00000000C0000000#64), (6, 1#64)] } with regions := [(2, ({ ver := 1, base := 16, size := 400, prod := 1, cons := 1, occ := 40, head := 380 } : Region))] }
    let x := s.tile t
    let g := f.rg.toNat
    let r := region x g
    decide (s.canIssue t = true) &&
    decide (x.vq.length < 32) &&
    decide (scalarBusy x (if f.so = 1 then [f.soff.toNat] else []) = false) &&
    decide (r.valid = true) &&
    decide (r.cons ≠ 2)) = true := by decide

theorem witness_VectorMemory_7 : (
    let t : Nat := 0
    let f : LVM := { vr := 3, rg := 2, adv := 1, so := 0, soff := 0, pe := 0, pr := 0, tfmt := 0, sfmt := 0, rnd := 0, sat := 0, srg := 0, off := 8 }
    let s : State := withTile { { tileOn with vregs := [(32, 0x3F800000#32), (33, 0x7F800000#32), (64, 0x40000000#32), (65, 0xFFC00000#32), (95, 0x00000001#32)], pregs := [(1, 0x8000000000000003#64)], sregs := [(4, 0x00000000C0000000#64), (6, 1#64)] } with regions := [(2, ({ ver := 1, base := 16, size := 400, prod := 1, cons := 1, occ := 40, head := 380 } : Region))] }
    let x := s.tile t
    let g := f.rg.toNat
    let r := region x g
    decide (s.canIssue t = true) &&
    decide (x.vq.length < 32) &&
    decide (scalarBusy x (if f.so = 1 then [f.soff.toNat] else []) = false) &&
    decide (r.valid = true) &&
    decide (r.prod ≠ 2)) = true := by decide

theorem witness_VectorMemory_8 : (
    let t : Nat := 0
    let f : LVM := { vr := 3, rg := 2, adv := 1, so := 0, soff := 0, pe := 0, pr := 0, tfmt := 0, sfmt := 0, rnd := 0, sat := 0, srg := 0, off := 369 }
    let s : State := withTile { { tileOn with vregs := [(32, 0x3F800000#32), (33, 0x7F800000#32), (64, 0x40000000#32), (65, 0xFFC00000#32), (95, 0x00000001#32)], pregs := [(1, 0x8000000000000003#64)], sregs := [(4, 0x00000000C0000000#64), (6, 1#64)] } with regions := [(2, ({ ver := 1, base := 16, size := 400, prod := 2, cons := 2, occ := 40, head := 380 } : Region)), (3, ({ ver := 1, base := 600, size := 16, prod := 2, cons := 1, occ := 0, head := 3 } : Region))], spd := [(16, 5#32), (396, 7#32)] }
    let x := s.tile t
    let g := f.rg.toNat
    let r := region x g
    let b := if f.so = 1 then sreg x f.soff.toNat else 0
    let o := f.off.toNat + b.toNat
    decide (s.canIssue t = true) &&
    decide (x.vq.length < 32) &&
    decide (scalarBusy x (if f.so = 1 then [f.soff.toNat] else []) = false) &&
    decide (usable x g 2 false = true) &&
    decide (r.size < o + 32)) = true := by decide

theorem witness_VectorMemory_9 : (
    let t : Nat := 0
    let f : LVM := { vr := 0, rg := 2, adv := 0, so := 0, soff := 0, pe := 0, pr := 0, tfmt := 0, sfmt := 0, rnd := 0, sat := 0, srg := 0, off := 401 }
    let s : State := withTile { { tileOn with vregs := [(32, 0x3F800000#32), (33, 0x7F800000#32), (64, 0x40000000#32), (65, 0xFFC00000#32), (95, 0x00000001#32)], pregs := [(1, 0x8000000000000003#64)], sregs := [(4, 0x00000000C0000000#64), (6, 1#64)] } with regions := [(2, ({ ver := 1, base := 16, size := 400, prod := 2, cons := 2, occ := 40, head := 380 } : Region)), (3, ({ ver := 1, base := 600, size := 16, prod := 2, cons := 1, occ := 0, head := 3 } : Region))], spd := [(16, 5#32), (396, 7#32)] }
    let x := s.tile t
    let g := f.rg.toNat
    let r := region x g
    decide (s.canIssue t = true) &&
    decide (x.vq.length < 32) &&
    decide (scalarBusy x (if f.so = 1 then [f.soff.toNat] else []) = false) &&
    decide (usable x g 2 false = true) &&
    decide (r.size < f.off.toNat)) = true := by decide

theorem witness_VectorMemory_10 : (
    let t : Nat := 0
    let f : LVM := { vr := 3, rg := 2, adv := 1, so := 0, soff := 0, pe := 0, pr := 0, tfmt := 0, sfmt := 0, rnd := 0, sat := 0, srg := 0, off := 369 }
    let s : State := withTile { { tileOn with vregs := [(32, 0x3F800000#32), (33, 0x7F800000#32), (64, 0x40000000#32), (65, 0xFFC00000#32), (95, 0x00000001#32)], pregs := [(1, 0x8000000000000003#64)], sregs := [(4, 0x00000000C0000000#64), (6, 1#64)] } with regions := [(2, ({ ver := 1, base := 16, size := 400, prod := 2, cons := 2, occ := 40, head := 380 } : Region)), (3, ({ ver := 1, base := 600, size := 16, prod := 2, cons := 1, occ := 0, head := 3 } : Region))], spd := [(16, 5#32), (396, 7#32)] }
    let x := s.tile t
    let g := f.rg.toNat
    let r := region x g
    let b := if f.so = 1 then sreg x f.soff.toNat else 0
    let o := f.off.toNat + b.toNat
    decide (s.canIssue t = true) &&
    decide (x.vq.length < 32) &&
    decide (scalarBusy x (if f.so = 1 then [f.soff.toNat] else []) = false) &&
    decide (usable x g 2 true = true) &&
    decide (r.size < o + 32)) = true := by decide

theorem witness_VectorMemory_11 : (
    let t : Nat := 0
    let f : LVM := { vr := 0, rg := 2, adv := 0, so := 0, soff := 0, pe := 0, pr := 0, tfmt := 0, sfmt := 0, rnd := 0, sat := 0, srg := 0, off := 401 }
    let s : State := withTile { { tileOn with vregs := [(32, 0x3F800000#32), (33, 0x7F800000#32), (64, 0x40000000#32), (65, 0xFFC00000#32), (95, 0x00000001#32)], pregs := [(1, 0x8000000000000003#64)], sregs := [(4, 0x00000000C0000000#64), (6, 1#64)] } with regions := [(2, ({ ver := 1, base := 16, size := 400, prod := 2, cons := 2, occ := 40, head := 380 } : Region)), (3, ({ ver := 1, base := 600, size := 16, prod := 2, cons := 1, occ := 0, head := 3 } : Region))], spd := [(16, 5#32), (396, 7#32)] }
    let x := s.tile t
    let g := f.rg.toNat
    let r := region x g
    decide (s.canIssue t = true) &&
    decide (x.vq.length < 32) &&
    decide (scalarBusy x (if f.so = 1 then [f.soff.toNat] else []) = false) &&
    decide (usable x g 2 true = true) &&
    decide (r.size < f.off.toNat)) = true := by decide

theorem witness_StoreFrames_0a : (
    let x : Tile := { spd := [(3, 5#32), (7, 9#32), (40, 11#32)] }
    decide (Map.wf (fun _ => 0#32) x.spd = true)) = true := by decide

theorem witness_StoreFrames_1a : (
    let x : Tile := { spd := [(3, 5#32), (7, 9#32), (40, 11#32)] }
    decide (Map.wf (fun _ => 0#32) x.spd = true) &&
    let r : Region := { ver := 1, base := 16, size := 40, head := 38 }
    let o : Nat := 37
    let l : List Word := [1#32, 2#32]
    let j : Nat := 40
    decide (j ∉ rgSpan r o l.length)) = true := by decide

theorem witness_StoreFrames_4a : (
    let x : Tile := { spd := [(3, 5#32), (7, 9#32), (40, 11#32)] }
    decide (Map.wf (fun _ => 0#32) x.spd = true) &&
    let r : Region := { ver := 1, base := 16, size := 40, head := 38 }
    let o : Nat := 37
    let b : Nat := 3
    let l : List Nat := [1, 2, 3]
    let j : Nat := 40
    decide (j ∉ rgSpan r o ((b + l.length + 3) / 4))) = true := by decide

theorem witness_StoreFrames_5a : (
    let x : Tile := { spd := [(3, 5#32), (7, 9#32), (40, 11#32)] }
    decide (Map.wf (fun _ => 0#32) x.spd = true) &&
    let a : Nat := 7
    let n : Nat := 33
    let j : Nat := 40
    decide (j < a ∨ a + n ≤ j)) = true := by decide

theorem witness_StoreFrames_6a : (
    let x : Tile := { spd := [(3, 5#32), (7, 9#32), (40, 11#32)] }
    decide (Map.wf (fun _ => 0#32) x.spd = true) &&
    let a : Nat := 7
    let n : Nat := 34
    let j : Nat := 7
    decide (a ≤ j) &&
    decide (j < a + n)) = true := by decide

theorem witness_StoreFrames_7a : (
    let x : Tile := { spd := [(3, 5#32), (7, 9#32), (40, 11#32)] }
    decide (Map.wf (fun _ => 0#32) x.spd = true) &&
    let r : Region := { ver := 1, base := 16, size := 40, head := 38 }
    let k : Nat := 1
    let l : List Word := [1#32, 2#32]
    decide (r.valid = true) &&
    decide (l.length ≤ r.size) &&
    decide (k < l.length)) = true := by decide

theorem witness_StoreFrames_9a : (
    let x : Tile := { spd := [(3, 5#32), (7, 9#32), (40, 11#32)] }
    decide (Map.wf (fun _ => 0#32) x.spd = true) &&
    let r : Region := { ver := 1, base := 16, size := 40, head := 38 }
    let k : Nat := 1
    let b : Nat := 0
    let l : List Word := [1#32, 2#32]
    decide (r.valid = true) &&
    decide (l.length ≤ r.size) &&
    decide (k < l.length) &&
    decide (b < 4)) = true := by decide

theorem witness_StoreFrames_10a : (
    let x : Tile := { spd := [(3, 5#32), (7, 9#32), (40, 11#32)] }
    decide (Map.wf (fun _ => 0#32) x.spd = true) &&
    let r : Region := { ver := 1, base := 16, size := 40, head := 38 }
    let b : Nat := 3
    let k : Nat := 1
    let l : List Nat := [1, 2, 3, 258]
    decide (r.valid = true) &&
    decide ((b + l.length + 3) / 4 ≤ r.size) &&
    decide (k < l.length)) = true := by decide

theorem witness_OpeIssue_0a : (
    let t : Nat := 0
    let s : State := withTile { tileOn with regions := [(0, ({ ver := 1, base := 0, size := 192, prod := 1, cons := 1, occ := 64, head := 0 } : Region)), (1, ({ ver := 1, base := 320, size := 192, prod := 1, cons := 1, occ := 64, head := 0 } : Region)), (2, ({ ver := 1, base := 512, size := 2048, prod := 1, cons := 3, occ := 0, head := 0 } : Region)), (3, ({ ver := 1, base := 4096, size := 8, prod := 1, cons := 1, occ := 8, head := 0 } : Region)), (4, ({ ver := 1, base := 4112, size := 8, prod := 1, cons := 1, occ := 8, head := 0 } : Region))], sregs := [(7, 0xFFFFFFFF#64), (8, 0x12345#64)] }
    decide (s.canIssue t = true) &&
    let x := s.tile t
    let e := s.tileEnv t
    let holds (p : Product) : Bool := decide (∀ g ∈ productWords p, usable x g.1 1 false = true ∧ g.2 ≤ (region x g.1).size)
    let room : Bool := decide (x.ope.queue.length < 4 ∧ pend x.ope < 3 ∧ (e.pace = 0 ∨ 0 < tileCredit e x))
    let f : LOM := { set := 0, lm1 := 1, cfmt := 0, rfmt := 0, crg := 0, rrg := 1, csrg := 0, rsrg := 0, ct := 0, rt := 0, cpx := 0, msk := 7, mall := 0 }
    decide (omLegal f = true) &&
    decide (scalarBusy x (if f.mall = 1 then [] else [f.msk.toNat]) = false) &&
    decide (room) &&
    decide (holds (productOf x f false))) = true := by decide

theorem witness_OpeIssue_1a : (
    let t : Nat := 0
    let s : State := withTile { tileOn with regions := [(0, ({ ver := 1, base := 0, size := 192, prod := 1, cons := 1, occ := 64, head := 0 } : Region)), (1, ({ ver := 1, base := 320, size := 192, prod := 1, cons := 1, occ := 64, head := 0 } : Region)), (2, ({ ver := 1, base := 512, size := 2048, prod := 1, cons := 3, occ := 0, head := 0 } : Region)), (3, ({ ver := 1, base := 4096, size := 8, prod := 1, cons := 1, occ := 8, head := 0 } : Region)), (4, ({ ver := 1, base := 4112, size := 8, prod := 1, cons := 1, occ := 8, head := 0 } : Region))], sregs := [(7, 0xFFFFFFFF#64), (8, 0x12345#64)] }
    decide (s.canIssue t = true) &&
    let x := s.tile t
    let e := s.tileEnv t
    let holds (p : Product) : Bool := decide (∀ g ∈ productWords p, usable x g.1 1 false = true ∧ g.2 ≤ (region x g.1).size)
    let room : Bool := decide (x.ope.queue.length < 4 ∧ pend x.ope < 3 ∧ (e.pace = 0 ∨ 0 < tileCredit e x))
    let f : LOM := { set := 0, lm1 := 1, cfmt := 0, rfmt := 0, crg := 0, rrg := 1, csrg := 0, rsrg := 0, ct := 0, rt := 0, cpx := 0, msk := 7, mall := 0 }
    decide (omLegal f = true) &&
    decide (scalarBusy x (if f.mall = 1 then [] else [f.msk.toNat]) = false) &&
    decide (room) &&
    decide (holds (productOf x f true))) = true := by decide

theorem witness_OpeIssue_2a : (
    let t : Nat := 0
    let s : State := withTile { tileOn with regions := [(0, ({ ver := 1, base := 0, size := 192, prod := 1, cons := 1, occ := 64, head := 0 } : Region)), (1, ({ ver := 1, base := 320, size := 192, prod := 1, cons := 1, occ := 64, head := 0 } : Region)), (2, ({ ver := 1, base := 512, size := 2048, prod := 1, cons := 3, occ := 0, head := 0 } : Region)), (3, ({ ver := 1, base := 4096, size := 8, prod := 1, cons := 1, occ := 8, head := 0 } : Region)), (4, ({ ver := 1, base := 4112, size := 8, prod := 1, cons := 1, occ := 8, head := 0 } : Region))], sregs := [(7, 0xFFFFFFFF#64), (8, 0x12345#64)] }
    decide (s.canIssue t = true) &&
    let x := s.tile t
    let e := s.tileEnv t
    let holds (p : Product) : Bool := decide (∀ g ∈ productWords p, usable x g.1 1 false = true ∧ g.2 ≤ (region x g.1).size)
    let room : Bool := decide (x.ope.queue.length < 4 ∧ pend x.ope < 3 ∧ (e.pace = 0 ∨ 0 < tileCredit e x))
    let f : LOC := { set := 1, cont := 1, fmt := 2, crg := 0, rrg := 1 }
    decide (f.rsv = 0) &&
    decide (f.fmt = 1 ∨ f.fmt = 2) &&
    decide (room) &&
    let p : Product := { set := f.set.toNat, cont := f.cont = 1, cube := true, len := 4, cfmt := f.fmt.toNat, rfmt := f.fmt.toNat,
                         crg := f.crg.toNat, rrg := f.rrg.toNat, csrg := 0, rsrg := 0, ct := false, rt := false, cpx := false,
                         mask := 15, pc := x.pc }
    decide (holds p)) = true := by decide

theorem witness_OpeIssue_3a : (
    let t : Nat := 0
    let s : State := withTile { tileOn with regions := [(0, ({ ver := 1, base := 0, size := 192, prod := 1, cons := 1, occ := 64, head := 0 } : Region)), (1, ({ ver := 1, base := 320, size := 192, prod := 1, cons := 1, occ := 64, head := 0 } : Region)), (2, ({ ver := 1, base := 512, size := 2048, prod := 1, cons := 3, occ := 0, head := 0 } : Region)), (3, ({ ver := 1, base := 4096, size := 8, prod := 1, cons := 1, occ := 8, head := 0 } : Region)), (4, ({ ver := 1, base := 4112, size := 8, prod := 1, cons := 1, occ := 8, head := 0 } : Region))], sregs := [(7, 0xFFFFFFFF#64), (8, 0x12345#64)] }
    decide (s.canIssue t = true) &&
    let x := s.tile t
    let f : LOD := { set := 0, dst := 0, fmt := 1, rnd := 1, sat := 0, drg := 2, tag := 0 }
    decide (odLegal f = true) &&
    decide (scalarBusy x (if f.dst = 1 then [f.tag.toNat] else []) = false) &&
    decide (x.ope.queue.length < 4) &&
    let cpx := (drainKind x.ope f.set.toNat).1
    let cube := (drainKind x.ope f.set.toNat).2
    let tag := if f.dst = 1 then sreg x f.tag.toNat else 0
    let d : Drain := { set := f.set.toNat, dst := f.dst.toNat, fmt := f.fmt.toNat, rnd := f.rnd = 1, sat := f.sat = 1,
                       drg := f.drg.toNat, tag := tag, pc := x.pc, ord := (csrWord x 0x50C).toNat, cpx := cpx, cube := cube }
    decide (tag.toNat < 2 ^ 32) &&
    decide ((f.dst = 1 → cpx = true → bits tag 15 0 ≠ 0xFFFF)) &&
    decide ((cube = true → f.dst = 0 ∧ f.rnd = 0 ∧ f.sat = 0 ∧ f.fmt.toNat ≤ 2)) &&
    decide (usable x f.drg.toNat 1 true = true) &&
    decide ((f.dst = 1 → (region x f.drg.toNat).cons = 3)) &&
    decide (drainWords d * (if cpx && f.dst = 0 then 2 else 1) ≤ (region x f.drg.toNat).size)) = true := by decide

theorem witness_OpeFeedBeat_0a : (
    let t : Nat := 0
    let s : State := withTile { tileOn with regions := [(0, ({ ver := 1, base := 0, size := 192, prod := 1, cons := 1, occ := 64, head := 0 } : Region)), (1, ({ ver := 1, base := 320, size := 192, prod := 1, cons := 1, occ := 64, head := 0 } : Region)), (2, ({ ver := 1, base := 512, size := 2048, prod := 1, cons := 3, occ := 0, head := 0 } : Region)), (3, ({ ver := 1, base := 4096, size := 8, prod := 1, cons := 1, occ := 8, head := 0 } : Region)), (4, ({ ver := 1, base := 4112, size := 8, prod := 1, cons := 1, occ := 8, head := 0 } : Region))], spd := [(0, 0x38383838#32), (7, 0xB8384048#32), (16, 0x40003FC0#32), (31, 0x40000000#32), (32, 0x3FC00000#32), (63, 0x40400000#32), (336, 0x3C3C3E3F#32), (343, 0x78563C3C#32), (352, 0x3F803F80#32), (367, 0xC0003F80#32), (383, 0xBF800000#32)], ope := { feed := some ({ set := 0, cont := false, cube := false, len := 2, cfmt := 0, rfmt := 0, crg := 0, rrg := 1, csrg := 0, rsrg := 0, ct := false, rt := false, cpx := false, mask := 0x80000001#32, pc := 3, beat := 1 } : Product), set0 := { phase := .accumulating, cells := [(0, 0x3F800000#32), (31, 5#32), (1054, 0x40A00000#32)], prods := [({ set := 0, cont := false, cube := false, len := 2, cfmt := 0, rfmt := 0, crg := 0, rrg := 1, csrg := 0, rsrg := 0, ct := false, rt := false, cpx := false, mask := 0x80000001#32, pc := 3, beat := 1 } : Product)] } } }
    let p : Product := ({ set := 0, cont := false, cube := false, len := 2, cfmt := 0, rfmt := 0, crg := 0, rrg := 1, csrg := 0, rsrg := 0, ct := false, rt := false, cpx := false, mask := 0x80000001#32, pc := 3, beat := 1 } : Product)
    decide (s.tileOn t = true) &&
    decide ((s.part (s.tilePart t)).debug = false) &&
    let x := s.tile t
    let idx (r : FeedRead) : Nat := rgPhys (region x r.rg) (startOff p r.src + r.off)
    let old := accSet x.ope (passSet p)
    decide (x.ope.halted = false) &&
    decide (x.ope.zero = []) &&
    decide (x.ope.set0.phase ≠ .held) &&
    decide (x.ope.set1.phase ≠ .held) &&
    decide (x.ope.feed = some p) &&
    decide (p.cube = false) &&
    decide (takeDrains 4 x.ope = x.ope) &&
    decide (present x p = true) &&
    decide (injKind x ≠ 1) &&
    decide (((beatReads p).all fun r => decide (goodWord x (match r.src with | .row => 1 | .rowScale => 1 | _ => 0) (some r.rg) (idx r) = true)) = true) &&
    decide (((claimsOf x p).all fun c => decide (slotHit (claimsOf x p) c = false)) = true) &&
    decide (Map.wf (fun _ => 0#32) old.cells = true)) = true := by decide

theorem witness_OpeSetsAndPorts_0 : (
    let t : Nat := 0
    let s : State := withTile { tileOn with regions := [(0, ({ ver := 1, base := 0, size := 192, prod := 1, cons := 1, occ := 64, head := 0 } : Region)), (1, ({ ver := 1, base := 320, size := 192, prod := 1, cons := 1, occ := 64, head := 0 } : Region)), (2, ({ ver := 1, base := 512, size := 2048, prod := 1, cons := 3, occ := 0, head := 0 } : Region)), (3, ({ ver := 1, base := 4096, size := 8, prod := 1, cons := 1, occ := 8, head := 0 } : Region)), (4, ({ ver := 1, base := 4112, size := 8, prod := 1, cons := 1, occ := 8, head := 0 } : Region))], ope := { set1 := { phase := .accumulating, prods := [({ set := 1, cont := false, cube := false, len := 2, cfmt := 0, rfmt := 0, crg := 0, rrg := 1, csrg := 0, rsrg := 0, ct := false, rt := false, cpx := false, mask := 0x80000001#32, pc := 3, pass := 0, beat := 2, fed := true } : Product)] }, feed := some ({ set := 0, cont := false, cube := false, len := 2, cfmt := 0, rfmt := 0, crg := 0, rrg := 1, csrg := 0, rsrg := 0, ct := false, rt := false, cpx := false, mask := 0x80000001#32, pc := 3, beat := 1 } : Product) } }
    decide (s.tileOn t = true) &&
    let x := s.tile t
    let k : Nat := 1
    decide (k < 2) &&
    let o := takeDrains 4 x.ope
    let a := accSet o k
    decide (a.phase = .accumulating) &&
    decide (((o.feed.toList).all fun p => decide (p.set ≠ k ∧ p.cpx = false)) = true) &&
    decide (((o.replay).all fun p => decide (p.set ≠ k ∧ p.cpx = false)) = true)) = true := by decide

theorem witness_OpeSetsAndPorts_1a : (
    let t : Nat := 0
    let s : State := withTile { tileOn with regions := [(0, ({ ver := 1, base := 0, size := 192, prod := 1, cons := 1, occ := 64, head := 0 } : Region)), (1, ({ ver := 1, base := 320, size := 192, prod := 1, cons := 1, occ := 64, head := 0 } : Region)), (2, ({ ver := 1, base := 512, size := 2048, prod := 1, cons := 3, occ := 0, head := 0 } : Region)), (3, ({ ver := 1, base := 4096, size := 8, prod := 1, cons := 1, occ := 8, head := 0 } : Region)), (4, ({ ver := 1, base := 4112, size := 8, prod := 1, cons := 1, occ := 8, head := 0 } : Region))], ope := { set0 := { phase := .ready, drn := some ({ set := 0, dst := 0, fmt := 0, rnd := false, sat := false, drg := 2, tag := 0x20001#64, pc := 5 } : Drain), prods := [({ set := 0, cont := false, cube := false, len := 2, cfmt := 0, rfmt := 0, crg := 0, rrg := 1, csrg := 0, rsrg := 0, ct := false, rt := false, cpx := false, mask := 0x80000001#32, pc := 3, pass := 0, beat := 2, fed := true } : Product)] } } }
    decide (s.tileOn t = true) &&
    let x := s.tile t
    let k : Nat := 0
    decide (k < 2) &&
    let o := takeDrains 4 x.ope
    let a := accSet o k
    let d := ({ set := 0, dst := 0, fmt := 0, rnd := false, sat := false, drg := 2, tag := 0x20001#64, pc := 5 } : Drain)
    decide (a.drn = some d) &&
    decide (a.phase = .ready) &&
    decide ((accSet o (1 - k)).phase ≠ .draining) &&
    decide ((d.dst = 1 → bit (csrWord x (0xA00 + 4 * d.drg)) 31 = true)) &&
    decide ((d.cpx = true → k = 1 → (accSet o (1 - k)).phase = .held)) &&
    let blocks := if d.cpx = true ∧ d.dst = 1 ∧ k = 0 then 2 else 1
    let kept := keptByOther (accSet o (1 - k)) a d.drg
    decide (blocks * drainWords d + kept.1 ≤ (region x d.drg).space) &&
    decide (d.dst = 0 ∨ x.rtr.stage.length + blocks + kept.2 ≤ 256)) = true := by decide

theorem witness_OpeSetsAndPorts_2a : (
    let t : Nat := 0
    let s : State := withTile { tileOn with regions := [(0, ({ ver := 1, base := 0, size := 192, prod := 1, cons := 1, occ := 64, head := 0 } : Region)), (1, ({ ver := 1, base := 320, size := 192, prod := 1, cons := 1, occ := 64, head := 0 } : Region)), (2, ({ ver := 1, base := 512, size := 2048, prod := 1, cons := 3, occ := 0, head := 0 } : Region)), (3, ({ ver := 1, base := 4096, size := 8, prod := 1, cons := 1, occ := 8, head := 0 } : Region)), (4, ({ ver := 1, base := 4112, size := 8, prod := 1, cons := 1, occ := 8, head := 0 } : Region))], csr := [(8, 16#32), (0xA08, 0x80000000#32)], ope := { set0 := { phase := .draining, drn := some ({ set := 0, dst := 0, fmt := 0, rnd := false, sat := false, drg := 2, tag := 0x20001#64, pc := 5 } : Drain), prods := [({ set := 0, cont := false, cube := false, len := 2, cfmt := 0, rfmt := 0, crg := 0, rrg := 1, csrg := 0, rsrg := 0, ct := false, rt := false, cpx := false, mask := 0x80000001#32, pc := 3, pass := 0, beat := 2, fed := true } : Product)] } } }
    decide (s.tileOn t = true) &&
    let x := s.tile t
    let k : Nat := 0
    decide (k < 2) &&
    let b := accSet x.ope k
    decide (b.phase = .draining) &&
    decide (x.ope.halted = false) &&
    decide (x.ope.cube = false) &&
    decide (injKind x ≠ 2) &&
    let n := (ckResult (accSet x.ope k)).2
    decide (ckResult b = (none, n)) &&
    let d := ({ set := 0, dst := 0, fmt := 0, rnd := false, sat := false, drg := 2, tag := 0x20001#64, pc := 5 } : Drain)
    decide (b.drn = some d) &&
    decide (d.cpx = false) &&
    decide (x.seq ≠ .stopped) &&
    decide (accSet x.ope (1 - k) = {}) &&
    decide (x.ope.zero = []) &&
    decide (mayAdvance x b.prods [d] = true)) = true := by decide

theorem witness_OpeSetsAndPorts_3a : (
    let t : Nat := 0
    let s : State := withTile { tileOn with regions := [(0, ({ ver := 1, base := 0, size := 192, prod := 1, cons := 1, occ := 64, head := 0 } : Region)), (1, ({ ver := 1, base := 320, size := 192, prod := 1, cons := 1, occ := 64, head := 0 } : Region)), (2, ({ ver := 1, base := 512, size := 2048, prod := 1, cons := 3, occ := 0, head := 0 } : Region)), (3, ({ ver := 1, base := 4096, size := 8, prod := 1, cons := 1, occ := 8, head := 0 } : Region)), (4, ({ ver := 1, base := 4112, size := 8, prod := 1, cons := 1, occ := 8, head := 0 } : Region))], ope := { set0 := { phase := .draining, drn := some ({ set := 0, dst := 0, fmt := 0, rnd := false, sat := false, drg := 2, tag := 0x20001#64, pc := 5 } : Drain), prods := [({ set := 0, cont := false, cube := false, len := 2, cfmt := 0, rfmt := 0, crg := 0, rrg := 1, csrg := 0, rsrg := 0, ct := false, rt := false, cpx := false, mask := 0x80000001#32, pc := 3, pass := 0, beat := 2, fed := true } : Product)] }, set1 := { phase := .held, prods := [({ set := 0, cont := false, cube := false, len := 2, cfmt := 0, rfmt := 0, crg := 0, rrg := 1, csrg := 0, rsrg := 0, ct := false, rt := false, cpx := false, mask := 0x80000001#32, pc := 3, pass := 0, beat := 2, fed := true } : Product)] } } }
    decide (s.tileOn t = true) &&
    let x := s.tile t
    let k : Nat := 0
    decide (k < 2) &&
    let b := accSet x.ope k
    decide (b.phase = .draining) &&
    decide (x.ope.halted = false) &&
    decide (x.ope.cube = false) &&
    decide (injKind x ≠ 2) &&
    let n := (ckResult (accSet x.ope k)).2
    decide (ckResult b = (none, n))) = true := by decide

theorem witness_OpeSetsAndPorts_4a : (
    let t : Nat := 0
    let s : State := withTile { tileOn with regions := [(0, ({ ver := 1, base := 0, size := 192, prod := 1, cons := 1, occ := 64, head := 0 } : Region)), (1, ({ ver := 1, base := 320, size := 192, prod := 1, cons := 1, occ := 64, head := 0 } : Region)), (2, ({ ver := 1, base := 512, size := 2048, prod := 1, cons := 3, occ := 0, head := 0 } : Region)), (3, ({ ver := 1, base := 4096, size := 8, prod := 1, cons := 1, occ := 8, head := 0 } : Region)), (4, ({ ver := 1, base := 4112, size := 8, prod := 1, cons := 1, occ := 8, head := 0 } : Region))], ope := { set0 := { phase := .draining, cells := [(0, 0x3F800000#32)], drn := some ({ set := 0, dst := 0, fmt := 0, rnd := false, sat := false, drg := 2, tag := 0x20001#64, pc := 5 } : Drain), prods := [({ set := 0, cont := false, cube := false, len := 2, cfmt := 0, rfmt := 0, crg := 0, rrg := 1, csrg := 0, rsrg := 0, ct := false, rt := false, cpx := false, mask := 0x80000001#32, pc := 3, pass := 0, beat := 2, fed := true } : Product)], attempt := 1 } } }
    decide (s.tileOn t = true) &&
    let x := s.tile t
    let k : Nat := 0
    decide (k < 2) &&
    let b := accSet x.ope k
    decide (b.phase = .draining) &&
    decide (x.ope.halted = false) &&
    decide (x.ope.cube = false) &&
    decide (injKind x ≠ 2) &&
    let c := true
    let i := 0
    let n := (ckResult (accSet x.ope k)).2
    decide (accCpx b = false) &&
    decide (b.attempt < 3) &&
    decide (ckResult b = (some (c, i), n))) = true := by decide

theorem witness_OpeSetsAndPorts_5a : (
    let t : Nat := 0
    let s : State := running
    decide (s.tileOn t = true) &&
    let x := s.tile t
    let bank : Nat := 31
    let want : List Nat := [7, 3]
    decide (bank < 32) &&
    decide (((want).all fun q => decide (2 ≤ q ∧ q ≤ 7)) = true) &&
    decide (x.vq = [])) = true := by decide

theorem witness_NetIssue_0 : (
    let t : Nat := 0
    let f : LN := { rg := 1, sa := 1, sb := 2, rrg := 0 }
    let s : State := withTile { tileOn with regions := [(0, ({ ver := 1, base := 0, size := 64, prod := 3, cons := 3, occ := 40, head := 60 } : Region)), (1, ({ ver := 1, base := 64, size := 64, prod := 3, cons := 3, occ := 0, head := 0 } : Region)), (2, ({ ver := 1, base := 128, size := 32, prod := 3, cons := 2, occ := 0, head := 0 } : Region))], sregs := [(1, 0xFFFFFFFFFFE0#64), (2, 8#64)] }
    decide (s.canIssue t = true) &&
    decide (f.rsv = 0) &&
    decide (scalarBusy (s.tile t) [f.sa.toNat, f.sb.toNat] = false) &&
    let x := s.tile t
    let a := sreg x f.sa.toNat
    let b := sreg x f.sb.toNat
    let n := 8 * bits b 15 0
    let base (k : NetKind) : Bool := decide (netScalarsOk k a b = true ∧ usable x f.rg.toNat 3 (k = .pull) = true ∧ n ≤ (region x f.rg.toNat).size)
    decide (base .pull) &&
    decide (openInto x f.rg.toNat = false)) = true := by decide

theorem witness_NetIssue_1 : (
    let t : Nat := 0
    let f : LN := { rg := 0, sa := 1, sb := 2, rrg := 0 }
    let s : State := withTile { tileOn with regions := [(0, ({ ver := 1, base := 0, size := 64, prod := 3, cons := 3, occ := 40, head := 60 } : Region)), (1, ({ ver := 1, base := 64, size := 64, prod := 3, cons := 3, occ := 0, head := 0 } : Region)), (2, ({ ver := 1, base := 128, size := 32, prod := 3, cons := 2, occ := 0, head := 0 } : Region))], sregs := [(1, 0x40#64), (2, 5#64)], net := [({ tid := 0, kind := .push, rg := 0, rrg := 0, addr := 0, len := 1 } : Transfer)] }
    decide (s.canIssue t = true) &&
    decide (f.rsv = 0) &&
    decide (scalarBusy (s.tile t) [f.sa.toNat, f.sb.toNat] = false) &&
    let x := s.tile t
    let a := sreg x f.sa.toNat
    let b := sreg x f.sb.toNat
    let n := 8 * bits b 15 0
    let base (k : NetKind) : Bool := decide (netScalarsOk k a b = true ∧ usable x f.rg.toNat 3 (k = .pull) = true ∧ n ≤ (region x f.rg.toNat).size)
    decide (base .push)) = true := by decide

theorem witness_NetIssue_2 : (
    let t : Nat := 0
    let f : LN := { rg := 0, sa := 1, sb := 2, rrg := 0 }
    let s : State := withTile { tileOn with regions := [(0, ({ ver := 1, base := 0, size := 64, prod := 3, cons := 3, occ := 40, head := 60 } : Region)), (1, ({ ver := 1, base := 64, size := 64, prod := 3, cons := 3, occ := 0, head := 0 } : Region)), (2, ({ ver := 1, base := 128, size := 32, prod := 3, cons := 2, occ := 0, head := 0 } : Region))], sregs := [(1, 0xF1CB5F#64), (2, 5#64)] }
    decide (s.canIssue t = true) &&
    decide (f.rsv = 0) &&
    decide (scalarBusy (s.tile t) [f.sa.toNat, f.sb.toNat] = false) &&
    let x := s.tile t
    let a := sreg x f.sa.toNat
    let b := sreg x f.sb.toNat
    let n := 8 * bits b 15 0
    let base (k : NetKind) : Bool := decide (netScalarsOk k a b = true ∧ usable x f.rg.toNat 3 (k = .pull) = true ∧ n ≤ (region x f.rg.toNat).size)
    decide (base .send)) = true := by decide

theorem witness_NetIssue_3a : (
    let t : Nat := 0
    let f : LN := { rg := 0, sa := 1, sb := 2, rrg := 0 }
    let s : State := withTile { tileOn with regions := [(0, ({ ver := 1, base := 0, size := 64, prod := 3, cons := 3, occ := 40, head := 60 } : Region)), (1, ({ ver := 1, base := 64, size := 64, prod := 3, cons := 3, occ := 0, head := 0 } : Region)), (2, ({ ver := 1, base := 128, size := 32, prod := 3, cons := 2, occ := 0, head := 0 } : Region))], sregs := [(1, 0x40#64), (2, 2#64)] }
    decide (s.canIssue t = true) &&
    decide (f.rsv = 0) &&
    decide (scalarBusy (s.tile t) [f.sa.toNat, f.sb.toNat] = false) &&
    let x := s.tile t
    let a := sreg x f.sa.toNat
    let b := sreg x f.sb.toNat
    let n := 8 * bits b 15 0
    let base (k : NetKind) : Bool := decide (netScalarsOk k a b = true ∧ usable x f.rg.toNat 3 (k = .pull) = true ∧ n ≤ (region x f.rg.toNat).size)
    ([(0, Instr.atomAdd t f), (1, .atomMin t f), (2, .atomMax t f), (3, .atomSwap t f), (4, .atomCas t f)].all fun c =>
    decide (base (.atom c.1)) &&
    decide (f.rrg = f.rg ∨ (usable x f.rrg.toNat 3 true = true ∧ (if c.1 = 4 then n / 2 else n) ≤ (region x f.rrg.toNat).size ∧
              openInto x f.rrg.toNat = false)))) = true := by decide

theorem witness_NetFlits_0a : (
    let t : Nat := 0
    let s : State := withTile { tileOn with regions := [(0, ({ ver := 1, base := 0, size := 256, prod := 3, cons := 3, occ := 96, head := 200 } : Region)), (1, ({ ver := 1, base := 256, size := 64, prod := 3, cons := 3, occ := 0, head := 0 } : Region))], net := [({ tid := 0, kind := .push, rg := 0, rrg := 0, addr := 0, len := 12, issued := 8 } : Transfer)], rtr := {  } }
    decide (isTile t = true) &&
    decide ((s.field (fieldOf t)).power = 2 ∨ (s.field (fieldOf t)).power = 3) &&
    let x := s.tile t
    let tid : Nat := 0
    let edge : Nat := (s.edgeFor t 0).getD 0
    let y : Transfer := ({ tid := 0, kind := .push, rg := 0, rrg := 0, addr := 0, len := 12, issued := 8 } : Transfer)
    let u : Nat × Nat := (8, 4)
    decide (tid < 16) &&
    decide ((x.net.find? fun z => z.tid = tid) = some y) &&
    decide (nextUnit y = some u) &&
    decide (y.failed = false) &&
    decide (netTurn x y = true) &&
    decide (unitReady x y u = true) &&
    decide (injKind x ≠ 1) &&
    decide ((y.kind = .send ∧ edge = 0) ∨ (y.kind ≠ .send ∧ y.addr / 2 ^ 42 < 48 ∧ s.edgeFor t (y.addr / 2 ^ 42) = some edge)) &&
    let n := if y.kind = .pull then 0 else 8 * u.2
    decide (((rgSpan (region x y.rg) (y.off + 8 * u.1) n).all fun i => decide (goodWord x 6 (some y.rg) i = true)) = true)) = true := by decide

theorem witness_NetFlits_1a : (
    let t : Nat := 0
    let s : State := withTile { tileOn with regions := [(0, ({ ver := 1, base := 0, size := 256, prod := 3, cons := 3, occ := 96, head := 200 } : Region)), (1, ({ ver := 1, base := 256, size := 64, prod := 3, cons := 3, occ := 0, head := 0 } : Region))], net := [], rtr := { inject := [({ vc := 2, dest := 0, body := .req 1 0 0 31 0 0x40 0 8 2 1 5 0 0 } : Flit), ({ vc := 4, dest := 5, body := .send 1 0 9 2, data := [1#32] } : Flit)] } }
    decide (isTile t = true) &&
    decide ((s.field (fieldOf t)).power = 2 ∨ (s.field (fieldOf t)).power = 3) &&
    let i : Nat := 0
    let f : Flit := ({ vc := 2, dest := 0, body := .req 1 0 0 31 0 0x40 0 8 2 1 5 0 0 } : Flit)
    decide ((s.part (s.tilePart t)).hold = false) &&
    let w := s.withEvent t
    decide (nextInject w w.rtr.inject [] = some (i, f)) &&
    decide ((match f.body with | .send _ _ _ _ => s.sendOutside t f.dest = false | _ => True))) = true := by decide

theorem witness_NetFlits_2a : (
    let t : Nat := 0
    let s : State := withTile { tileOn with regions := [(0, ({ ver := 1, base := 0, size := 256, prod := 3, cons := 3, occ := 96, head := 200 } : Region)), (1, ({ ver := 1, base := 256, size := 64, prod := 3, cons := 3, occ := 0, head := 0 } : Region))], net := [], rtr := { bufs := [(40, [({ vc := 4, dest := 0, body := .send 1 0 9 2, data := [1#32] } : Flit)])] } }
    decide (isTile t = true) &&
    decide ((s.field (fieldOf t)).power = 2 ∨ (s.field (fieldOf t)).power = 3) &&
    let x := s.tile t
    let port : Nat := 0
    let key : Nat := 40
    let f : Flit := ({ vc := 4, dest := 0, body := .send 1 0 9 2, data := [1#32] } : Flit)
    decide (port < 5) &&
    decide ((((bufHeads x).all fun e => match s.nextPort t e.2 with | .port _ => true | _ => false) = true)) &&
    decide (injKind x ≠ 5) &&
    let l := s.ready t port
    let ds := s.redWants t port
    decide (pickSlot x port l ds = some (.flit key f)) &&
    decide (port = 0)) = true := by decide

theorem witness_NetFlits_3a : (
    let t : Nat := 0
    let s : State := withTile { tileOn with regions := [(0, ({ ver := 1, base := 0, size := 256, prod := 3, cons := 3, occ := 96, head := 200 } : Region)), (1, ({ ver := 1, base := 256, size := 64, prod := 3, cons := 3, occ := 0, head := 0 } : Region))], net := [], rtr := { bufs := [(4, [({ vc := 2, dest := 0, body := .req 1 0 0 31 0 0x40 0 8 2 1 5 0 0 } : Flit)])] } }
    decide (isTile t = true) &&
    decide ((s.field (fieldOf t)).power = 2 ∨ (s.field (fieldOf t)).power = 3) &&
    let x := s.tile t
    let port : Nat := 1
    let key : Nat := 4
    let f : Flit := ({ vc := 2, dest := 0, body := .req 1 0 0 31 0 0x40 0 8 2 1 5 0 0 } : Flit)
    decide (port < 5) &&
    decide ((((bufHeads x).all fun e => match s.nextPort t e.2 with | .port _ => true | _ => false) = true)) &&
    decide (injKind x ≠ 5) &&
    let l := s.ready t port
    let ds := s.redWants t port
    decide (pickSlot x port l ds = some (.flit key f)) &&
    decide (port ≠ 0) &&
    decide (neighbour t port = none)) = true := by decide

theorem witness_NetFlits_4a : (
    let t : Nat := 0
    let s : State := withTile { tileOn with regions := [(0, ({ ver := 1, base := 0, size := 256, prod := 3, cons := 3, occ := 96, head := 200 } : Region)), (1, ({ ver := 1, base := 256, size := 64, prod := 3, cons := 3, occ := 0, head := 0 } : Region))], net := [], rtr := { bufs := [(8, [({ vc := 4, dest := 5, body := .send 1 0 9 2, data := [1#32] } : Flit)])] } }
    decide (isTile t = true) &&
    decide ((s.field (fieldOf t)).power = 2 ∨ (s.field (fieldOf t)).power = 3) &&
    let x := s.tile t
    let port : Nat := 2
    let key : Nat := 8
    let f : Flit := ({ vc := 4, dest := 5, body := .send 1 0 9 2, data := [1#32] } : Flit)
    decide (port < 5) &&
    decide ((((bufHeads x).all fun e => match s.nextPort t e.2 with | .port _ => true | _ => false) = true)) &&
    decide (injKind x ≠ 5) &&
    let l := s.ready t port
    let ds := s.redWants t port
    decide (pickSlot x port l ds = some (.flit key f)) &&
    let n := 1
    decide (port ≠ 0) &&
    decide (neighbour t port = some n)) = true := by decide

theorem witness_NetArrivals_0a : (
    let t : Nat := 0
    let s : State := withTile { tileOn with regions := [(0, ({ ver := 1, base := 0, size := 256, prod := 3, cons := 3, occ := 96, head := 200 } : Region)), (1, ({ ver := 1, base := 256, size := 64, prod := 3, cons := 3, occ := 0, head := 0 } : Region))], net := [], rtr := { arrived := [({ vc := 0, dest := 0, body := .ack 0 8 true } : Flit), ({ vc := 3, dest := 0, body := .rdata 4 9 5, data := [1#32, 2#32] } : Flit)], cmb := [({ slot := 5, site := 0, addr := 0x40, nfl := 1, part := 0, reqs := [({ src := 350, tid := 4, seq := 8, cmb := 31 } : CmbReq), ({ src := 1, tid := 2, seq := 0, cmb := 3 } : CmbReq)], waiting := false, copied := 0 } : CmbEntry)] } }
    decide (isTile t = true) &&
    decide ((s.field (fieldOf t)).power = 2 ∨ (s.field (fieldOf t)).power = 3) &&
    let x := s.tile t
    let fetched (p : Flit → Bool) (f : Flit) : Bool := decide (x.rtr.arrived.find? p = some f)
    let f : Flit := ({ vc := 3, dest := 0, body := .rdata 4 9 5, data := [1#32, 2#32] } : Flit)
    let tid : Nat := 4
    let seq : Nat := 9
    let k : Nat := 5
    let c : CmbEntry := ({ slot := 5, site := 0, addr := 0x40, nfl := 1, part := 0, reqs := [({ src := 350, tid := 4, seq := 8, cmb := 31 } : CmbReq), ({ src := 1, tid := 2, seq := 0, cmb := 3 } : CmbReq)], waiting := false, copied := 0 } : CmbEntry)
    let q : CmbReq := ({ src := 350, tid := 4, seq := 8, cmb := 31 } : CmbReq)
    let l : List CmbReq := [({ src := 1, tid := 2, seq := 0, cmb := 3 } : CmbReq)]
    decide (fetched (fun g => returnSlot g ≠ 31) f) &&
    decide (f.body = .rdata tid seq k) &&
    decide ((x.rtr.cmb.find? fun e => e.slot = k) = some c) &&
    decide (c.reqs = q :: l)) = true := by decide

theorem witness_NetArrivals_1a : (
    let t : Nat := 0
    let s : State := withTile { tileOn with regions := [(0, ({ ver := 1, base := 0, size := 256, prod := 3, cons := 3, occ := 96, head := 200 } : Region)), (1, ({ ver := 1, base := 256, size := 64, prod := 3, cons := 3, occ := 0, head := 0 } : Region))], net := [({ tid := 0, kind := .pull, rg := 1, rrg := 0, addr := 0x1000, len := 8 } : Transfer)], rtr := { arrived := [({ vc := 3, dest := 0, body := .rdata 0 7 31, data := [1#32, 2#32, 3#32, 4#32, 5#32, 6#32, 7#32, 8#32] } : Flit)] } }
    decide (isTile t = true) &&
    decide ((s.field (fieldOf t)).power = 2 ∨ (s.field (fieldOf t)).power = 3) &&
    let x := s.tile t
    let fetched (p : Flit → Bool) (f : Flit) : Bool := decide (x.rtr.arrived.find? p = some f)
    let isData (f : Flit) : Bool := match f.body with | .rdata _ _ 31 => true | .adata _ _ 31 => true | _ => false
    let f : Flit := ({ vc := 3, dest := 0, body := .rdata 0 7 31, data := [1#32, 2#32, 3#32, 4#32, 5#32, 6#32, 7#32, 8#32] } : Flit)
    let tid : Nat := 0
    let seq : Nat := 7
    let y : Transfer := ({ tid := 0, kind := .pull, rg := 1, rrg := 0, addr := 0x1000, len := 8 } : Transfer)
    decide (fetched isData f) &&
    decide (f.body = .rdata tid seq 31) &&
    decide ((x.net.find? fun z => z.tid = tid) = some y) &&
    decide (y.kind = .pull) &&
    decide (seq ∉ y.got)) = true := by decide

theorem witness_NetArrivals_2a : (
    let t : Nat := 0
    let s : State := withTile { tileOn with regions := [(0, ({ ver := 1, base := 0, size := 256, prod := 3, cons := 3, occ := 96, head := 200 } : Region)), (1, ({ ver := 1, base := 256, size := 64, prod := 3, cons := 3, occ := 0, head := 0 } : Region))], net := [({ tid := 0, kind := .push, rg := 0, rrg := 0, addr := 0, len := 12, issued := 8 } : Transfer)], rtr := { arrived := [({ vc := 0, dest := 0, body := .ack 0 8 true } : Flit)] } }
    decide (isTile t = true) &&
    decide ((s.field (fieldOf t)).power = 2 ∨ (s.field (fieldOf t)).power = 3) &&
    let x := s.tile t
    let fetched (p : Flit → Bool) (f : Flit) : Bool := decide (x.rtr.arrived.find? p = some f)
    let isAck (f : Flit) : Bool := !isBktAck f && match f.body with | .ack _ _ _ => true | .err _ _ _ _ c => c = 31 || c = eventAnswer | _ => false
    let f : Flit := ({ vc := 0, dest := 0, body := .ack 0 8 true } : Flit)
    let tid : Nat := 0
    let y : Transfer := ({ tid := 0, kind := .push, rg := 0, rrg := 0, addr := 0, len := 12, issued := 8 } : Transfer)
    decide (fetched isAck f) &&
    decide ((x.net.find? fun z => z.tid = tid) = some y) &&
    let seq := 8
    let ex := true
    decide (f.body = .ack tid seq ex) &&
    decide (seq ∉ y.acked)) = true := by decide

theorem witness_NetArrivals_3a : (
    let t : Nat := 0
    let s : State := withTile { tileOn with regions := [(0, ({ ver := 1, base := 0, size := 256, prod := 3, cons := 3, occ := 96, head := 200 } : Region)), (1, ({ ver := 1, base := 256, size := 64, prod := 3, cons := 3, occ := 0, head := 0 } : Region))], net := [({ tid := 0, kind := .push, rg := 0, rrg := 0, addr := 0, len := 12, issued := 8 } : Transfer)], rtr := { arrived := [({ vc := 0, dest := 0, body := .err 0 8 17 false 31 } : Flit)] } }
    decide (isTile t = true) &&
    decide ((s.field (fieldOf t)).power = 2 ∨ (s.field (fieldOf t)).power = 3) &&
    let x := s.tile t
    let fetched (p : Flit → Bool) (f : Flit) : Bool := decide (x.rtr.arrived.find? p = some f)
    let isAck (f : Flit) : Bool := !isBktAck f && match f.body with | .ack _ _ _ => true | .err _ _ _ _ c => c = 31 || c = eventAnswer | _ => false
    let f : Flit := ({ vc := 0, dest := 0, body := .err 0 8 17 false 31 } : Flit)
    let tid : Nat := 0
    let y : Transfer := ({ tid := 0, kind := .push, rg := 0, rrg := 0, addr := 0, len := 12, issued := 8 } : Transfer)
    decide (fetched isAck f) &&
    decide ((x.net.find? fun z => z.tid = tid) = some y) &&
    let seq := 8
    let c := 17
    let ex := false
    decide (f.body = .err tid seq c ex 31)) = true := by decide

theorem witness_NetArrivals_4a : (
    let t : Nat := 0
    let s : State := withTile { tileOn with regions := [(0, ({ ver := 1, base := 0, size := 256, prod := 3, cons := 3, occ := 96, head := 200 } : Region)), (1, ({ ver := 1, base := 256, size := 64, prod := 3, cons := 3, occ := 0, head := 0 } : Region))], net := [({ tid := 0, kind := .push, rg := 0, rrg := 0, addr := 0, len := 12, issued := 8 } : Transfer)], rtr := { arrived := [({ vc := 0, dest := 0, body := .err 0 0 3 false eventAnswer } : Flit)] } }
    decide (isTile t = true) &&
    decide ((s.field (fieldOf t)).power = 2 ∨ (s.field (fieldOf t)).power = 3) &&
    let x := s.tile t
    let fetched (p : Flit → Bool) (f : Flit) : Bool := decide (x.rtr.arrived.find? p = some f)
    let isAck (f : Flit) : Bool := !isBktAck f && match f.body with | .ack _ _ _ => true | .err _ _ _ _ c => c = 31 || c = eventAnswer | _ => false
    let f : Flit := ({ vc := 0, dest := 0, body := .err 0 0 3 false eventAnswer } : Flit)
    let tid : Nat := 0
    let seq : Nat := 0
    let c : Nat := 3
    let ex : Bool := false
    decide (fetched isAck f) &&
    decide (f.body = .err tid seq c ex eventAnswer)) = true := by decide

theorem witness_NetArrivals_5a : (
    let t : Nat := 0
    let s : State := withTile { tileOn with regions := [(0, ({ ver := 1, base := 0, size := 256, prod := 3, cons := 3, occ := 96, head := 200 } : Region)), (1, ({ ver := 1, base := 256, size := 64, prod := 3, cons := 3, occ := 0, head := 0 } : Region))], net := [({ tid := 0, kind := .push, rg := 0, rrg := 0, addr := 0, len := 4, issued := 4, acked := [0] } : Transfer)], rtr := {  } }
    decide (isTile t = true) &&
    decide ((s.field (fieldOf t)).power = 2 ∨ (s.field (fieldOf t)).power = 3) &&
    let x := s.tile t
    let y : Transfer := ({ tid := 0, kind := .push, rg := 0, rrg := 0, addr := 0, len := 4, issued := 4, acked := [0] } : Transfer)
    let l : List Transfer := []
    decide (x.net = y :: l) &&
    decide (x.inSends = []) &&
    decide (y.tid < 16) &&
    decide (netDone y = true) &&
    decide (netAdvances x y = true)) = true := by decide

theorem witness_NetArrivals_6a : (
    let t : Nat := 0
    let s : State := withTile { tileOn with regions := [(0, ({ ver := 1, base := 0, size := 256, prod := 3, cons := 3, occ := 96, head := 200 } : Region)), (1, ({ ver := 1, base := 256, size := 64, prod := 3, cons := 3, occ := 0, head := 0 } : Region))], net := [], rtr := { arrived := [({ vc := 4, dest := 0, body := .send 1 0 9 2, data := [1#32, 2#32, 3#32, 4#32, 5#32, 6#32, 7#32, 8#32] } : Flit)] } }
    decide (isTile t = true) &&
    decide ((s.field (fieldOf t)).power = 2 ∨ (s.field (fieldOf t)).power = 3) &&
    let x := s.tile t
    let fetched (p : Flit → Bool) (f : Flit) : Bool := decide (x.rtr.arrived.find? p = some f)
    let without (f : Flit) : Tile := { x with rtr := { x.rtr with arrived := x.rtr.arrived.erase f } }
    let f : Flit := ({ vc := 4, dest := 0, body := .send 1 0 9 2, data := [1#32, 2#32, 3#32, 4#32, 5#32, 6#32, 7#32, 8#32] } : Flit)
    let g : Nat := 1
    let seq : Nat := 0
    let src : Nat := 9
    let tid : Nat := 2
    let v : Tile := ((openSend (without f) g src tid seq).getD (x, ({ rg := 1, src := 9, tid := 2, off := 0, got := [0, 1, 2, 3, 4, 5, 6] } : InSend))).1
    let z : InSend := ((openSend (without f) g src tid seq).getD (x, ({ rg := 1, src := 9, tid := 2, off := 0, got := [0, 1, 2, 3, 4, 5, 6] } : InSend))).2
    decide (fetched (sendTurn x) f) &&
    decide (f.body = .send g seq src tid) &&
    decide (usable x g 3 true = true) &&
    decide (openSend (without f) g src tid seq = some (v, z))) = true := by decide

theorem witness_ReductionAtTiles_0a : (
    let t : Nat := 0
    let s : State := withTile { tileOn with regions := [(1, ({ ver := 1, base := 256, size := 1024, prod := 1, cons := 3, occ := 1024, head := 0 } : Region))], csr := [(8, 16#32), (0xA04, 0x800000FF#32)], spd := [(767, 0x7F800000#32)], rtr := { stage := [({ bucket := 3, block := 1, wide := false, mask := 0xFFFF0001#32, rg := 1, off := 0, prim := 63 } : StageRec)], staged := [{ rg := 1, bucket := 3 }] } }
    decide (isTile t = true) &&
    decide (s.live (fieldOf t) = true) &&
    let x := s.tile t
    let d : Nat := 255
    let i : Nat := 0
    let k : Nat := 0
    let off : Nat := 63
    let r : StageRec := ({ bucket := 3, block := 1, wide := false, mask := 0xFFFF0001#32, rg := 1, off := 0, prim := 63 } : StageRec)
    decide (d < 256) &&
    decide (redBuf x d 0 = []) &&
    decide (firstStream x d x.rtr.stage = some (i, r, k, off)) &&
    decide (aheadOk x r = true) &&
    decide (injKind x ≠ 1) &&
    decide (((rgSpan (region x r.rg) (r.off + 8 * off) 8).all fun j => decide (goodWord x 6 (some r.rg) j = true)) = true)) = true := by decide

theorem witness_ReductionAtTiles_1a : (
    let t : Nat := 0
    let s : State := { withTile { tileOn with regions := [(1, ({ ver := 1, base := 256, size := 1024, prod := 1, cons := 3, occ := 1024, head := 0 } : Region))], csr := [(8, 16#32), (0x13FC, 0xA2006000#32)], rtr := { redIn := [(2040, [({ bucket := 3, block := 1, off := 5, wide := false, mir := false, mask := 1, nf := false, data := [0x3F803F80#32, 5#32, 0#32, 0#32, 0#32, 0#32, 0#32, 0#32] } : RedFlit)]), (2043, [({ bucket := 3, block := 1, off := 5, wide := false, mir := false, mask := 1, nf := false, data := [0x3F803F80#32, 0x7F800001#32, 0#32, 0#32, 0#32, 0#32, 0#32, 0#32] } : RedFlit), ({ bucket := 3, block := 1, off := 5, wide := false, mir := false, mask := 1, nf := false, data := [0x3F803F80#32, 5#32, 0#32, 0#32, 0#32, 0#32, 0#32, 0#32] } : RedFlit)])], redUsed := [(255, 1)] } } with sites := [(0, { state := 2, csr := [(4, 0#32)] })] }
    decide (isTile t = true) &&
    decide (s.live (fieldOf t) = true) &&
    let x := s.tile t
    let d : Nat := 255
    let a : RedFlit := ({ bucket := 3, block := 1, off := 5, wide := false, mir := false, mask := 1, nf := false, data := [0x3F803F80#32, 5#32, 0#32, 0#32, 0#32, 0#32, 0#32, 0#32] } : RedFlit)
    let f : RedFlit := (addFlits [({ bucket := 3, block := 1, off := 5, wide := false, mir := false, mask := 1, nf := false, data := [0x3F803F80#32, 5#32, 0#32, 0#32, 0#32, 0#32, 0#32, 0#32] } : RedFlit), ({ bucket := 3, block := 1, off := 5, wide := false, mir := false, mask := 1, nf := false, data := [0x3F803F80#32, 0x7F800001#32, 0#32, 0#32, 0#32, 0#32, 0#32, 0#32] } : RedFlit)]).getD ({ bucket := 3, block := 1, off := 5, wide := false, mir := false, mask := 1, nf := false, data := [0x3F803F80#32, 5#32, 0#32, 0#32, 0#32, 0#32, 0#32, 0#32] } : RedFlit)
    let l : List RedFlit := [({ bucket := 3, block := 1, off := 5, wide := false, mir := false, mask := 1, nf := false, data := [0x3F803F80#32, 0x7F800001#32, 0#32, 0#32, 0#32, 0#32, 0#32, 0#32] } : RedFlit)]
    decide (d < 256) &&
    decide (s.canonical = true) &&
    decide (d ∉ x.rtr.redStopped) &&
    decide (s.redStops t d = false) &&
    decide (redHeads x d = some (a :: l)) &&
    decide (injKind x ≠ 6) &&
    decide (addFlits (a :: l) = some f) &&
    let port := rdOut (rdesc x d)
    let heads := s.ready t port
    let ds := s.redWants t port
    decide (pickSlot x port heads ds = some (.red d)) &&
    decide (injFlit x port = false)) = true := by decide

theorem witness_ReductionAtTiles_2a : (
    let t : Nat := 0
    let s : State := { withTile { tileOn with regions := [(1, ({ ver := 1, base := 256, size := 1024, prod := 1, cons := 3, occ := 1024, head := 0 } : Region))], csr := [(8, 16#32), (0x13FC, 0xA2006000#32)], rtr := { redIn := [(2040, [({ bucket := 3, block := 1, off := 5, wide := false, mir := false, mask := 1, nf := false, data := [0x3F803F80#32, 5#32, 0#32, 0#32, 0#32, 0#32, 0#32, 0#32] } : RedFlit)]), (2043, [({ bucket := 3, block := 2, off := 5, wide := false, mir := false, mask := 1, nf := false, data := [0x3F803F80#32, 5#32, 0#32, 0#32, 0#32, 0#32, 0#32, 0#32] } : RedFlit)])], redUsed := [(255, 1)] } } with sites := [(0, { state := 2, csr := [(4, 0#32)] })] }
    decide (isTile t = true) &&
    decide (s.live (fieldOf t) = true) &&
    let x := s.tile t
    let a : RedFlit := ({ bucket := 3, block := 1, off := 5, wide := false, mir := false, mask := 1, nf := false, data := [0x3F803F80#32, 5#32, 0#32, 0#32, 0#32, 0#32, 0#32, 0#32] } : RedFlit)
    let l : List RedFlit := [({ bucket := 3, block := 2, off := 5, wide := false, mir := false, mask := 1, nf := false, data := [0x3F803F80#32, 5#32, 0#32, 0#32, 0#32, 0#32, 0#32, 0#32] } : RedFlit)]
    let d : Nat := 255
    decide (d < 256) &&
    decide (redHeads x d = some (a :: l)) &&
    decide ((∃ b ∈ l, sameKey a b = false)) &&
    decide (d ∉ x.rtr.redStopped)) = true := by decide

theorem witness_ReductionAtTiles_3a : (
    let t : Nat := 0
    let s : State := withTile { tileOn with regions := [(1, ({ ver := 1, base := 256, size := 1024, prod := 1, cons := 3, occ := 1024, head := 0 } : Region))], csr := [(8, 16#32), (0xA04, 0x800000FF#32), (0x13FC, 0x90000800#32)], rtr := { arrived := [({ vc := 0, dest := 0, body := .ack 1 0 false } : Flit), (bktAckFlit ({ bucket := 3, rdesc := 255, resend := false } : BktAck) 0)], stage := [({ bucket := 3, block := 1, wide := false, mask := 0xFFFF0001#32, rg := 1, off := 0, prim := 64 } : StageRec)], staged := [{ rg := 1, bucket := 3 }] } }
    decide (isTile t = true) &&
    decide (s.live (fieldOf t) = true) &&
    let x := s.tile t
    let f : Flit := (bktAckFlit ({ bucket := 3, rdesc := 255, resend := false } : BktAck) 0)
    decide (x.rtr.arrived.find? (fun f => isBktAck f && !x.rtr.redStopped.contains (bktAckOf f).rdesc &&
             (!(rdInputs (rdesc x (bktAckOf f).rdesc)).contains 0 || ackReady x (bktAckOf f))) = some f) &&
    let a := bktAckOf f
    let ins := rdInputs (rdesc x a.rdesc)
    decide (bit (rdesc x a.rdesc) 31 = true) &&
    decide (0 ∉ ins)) = true := by decide

theorem witness_ReductionAtTiles_4a : (
    let t : Nat := 0
    let s : State := withTile { tileOn with regions := [(1, ({ ver := 1, base := 256, size := 1024, prod := 1, cons := 3, occ := 1024, head := 0 } : Region))], csr := [(8, 16#32), (0xA04, 0x800000FF#32), (0x13FC, 0x90000000#32)], rtr := { arrived := [({ vc := 0, dest := 0, body := .ack 1 0 false } : Flit), (bktAckFlit ({ bucket := 3, rdesc := 255, resend := false } : BktAck) 0)], stage := [({ bucket := 3, block := 1, wide := false, mask := 0xFFFF0001#32, rg := 1, off := 0, prim := 64 } : StageRec)], staged := [{ rg := 1, bucket := 3 }] } }
    decide (isTile t = true) &&
    decide (s.live (fieldOf t) = true) &&
    let x := s.tile t
    let f : Flit := (bktAckFlit ({ bucket := 3, rdesc := 255, resend := false } : BktAck) 0)
    decide (x.rtr.arrived.find? (fun f => isBktAck f && !x.rtr.redStopped.contains (bktAckOf f).rdesc &&
             (!(rdInputs (rdesc x (bktAckOf f).rdesc)).contains 0 || ackReady x (bktAckOf f))) = some f) &&
    let a := bktAckOf f
    let ins := rdInputs (rdesc x a.rdesc)
    decide (bit (rdesc x a.rdesc) 31 = true) &&
    decide (0 ∈ ins)) = true := by decide

theorem witness_ReductionAtTiles_5a : (
    let t : Nat := 0
    let s : State := withTile { tileOn with regions := [(1, ({ ver := 1, base := 256, size := 1024, prod := 1, cons := 3, occ := 1024, head := 0 } : Region))], csr := [(8, 16#32), (0xA04, 0x800000FF#32)], rtr := { arrived := [({ vc := 0, dest := 0, body := .ack 1 0 false } : Flit), (bktAckFlit ({ bucket := 3, rdesc := 255, resend := false } : BktAck) 0)], stage := [({ bucket := 3, block := 1, wide := false, mask := 0xFFFF0001#32, rg := 1, off := 0, prim := 64 } : StageRec)], staged := [{ rg := 1, bucket := 3 }] } }
    decide (isTile t = true) &&
    decide (s.live (fieldOf t) = true) &&
    let x := s.tile t
    let f : Flit := (bktAckFlit ({ bucket := 3, rdesc := 255, resend := false } : BktAck) 0)
    decide (x.rtr.arrived.find? (fun f => isBktAck f && !x.rtr.redStopped.contains (bktAckOf f).rdesc &&
             (!(rdInputs (rdesc x (bktAckOf f).rdesc)).contains 0 || ackReady x (bktAckOf f))) = some f) &&
    let a := bktAckOf f
    decide (bit (rdesc x a.rdesc) 31 = false)) = true := by decide

theorem witness_ReductionAtSites_0a : (
    let n : Nat := 0
    let s : State := { running with sites := [(0, ({ state := 2, dirty := false, strDirty := false, csr := [(4, 0#32), (0x21C, 0x80000000#32), (0x1000, 0x00088000#32), (0x1004, 0x00090700#32)], red := { started := true, bkts := [], vc1 := [(7, [({ bucket := 9, block := 0, off := 3, wide := false, mir := false, mask := 1, nf := false, data := [0x7F800000#32, 0#32, 0#32, 0#32, 0#32, 0#32, 0#32, 0#32] } : RedFlit)])] } } : Site))], mod := { cc := { up := true } } }
    decide (n < 48) &&
    let x := s.site n
    let d : Nat := 7
    let j : Nat := 0
    let i : Nat := 0
    let k : Nat := 0
    let f : RedFlit := ({ bucket := 9, block := 0, off := 3, wide := false, mir := false, mask := 1, nf := false, data := [0x7F800000#32, 0#32, 0#32, 0#32, 0#32, 0#32, 0#32, 0#32] } : RedFlit)
    decide (d < 256) &&
    decide (redFront x d = some (j, f)) &&
    decide (d ∉ x.red.stopped) &&
    decide (s.fieldOwner (fieldOf (linkTile n j).1) = x.owner) &&
    decide (bit (siteRdesc x d) 31 = true) &&
    decide (rdIn (siteRdesc x d) = j) &&
    decide (bit (siteRdesc x d) 30 = false) &&
    decide (bktFind x f.bucket = some i) &&
    decide (x.red.started = true) &&
    decide (x.red.head ≤ i) &&
    decide (i < x.red.head + 64) &&
    decide (streamFor x i d f = some k) &&
    decide (rootRepeats x i k f = false)) = true := by decide

theorem witness_ReductionAtSites_1a : (
    let n : Nat := 0
    let s : State := { running with sites := [(0, ({ state := 2, dirty := false, strDirty := false, csr := [(4, 0#32), (0x21C, 0xC0010000#32)], red := { vc1 := [(7, [({ bucket := 9, block := 0, off := 3, wide := false, mir := false, mask := 1, nf := false, data := [5#32, 0#32, 0#32, 0#32, 0#32, 0#32, 0#32, 0#32] } : RedFlit)])] } } : Site))], mod := { cc := { up := true } } }
    decide (n < 48) &&
    let x := s.site n
    let d : Nat := 7
    let j : Nat := 0
    let f : RedFlit := ({ bucket := 9, block := 0, off := 3, wide := false, mir := false, mask := 1, nf := false, data := [5#32, 0#32, 0#32, 0#32, 0#32, 0#32, 0#32, 0#32] } : RedFlit)
    decide (d < 256) &&
    decide (redFront x d = some (j, f)) &&
    decide (d ∉ x.red.stopped) &&
    decide (s.fieldOwner (fieldOf (linkTile n j).1) = x.owner) &&
    decide (bit (siteRdesc x d) 31 = true) &&
    decide (rdIn (siteRdesc x d) = j) &&
    decide (bit (siteRdesc x d) 30 = true) &&
    let out := linkTile n (rdRelay (siteRdesc x d))
    decide ((redBuf (s.tile out.1) d out.2).length < vc1Slots (bits (siteRdesc x d) 27 26)) &&
    decide (s.live (fieldOf out.1) = true) &&
    decide (out.2 ∉ (s.tile out.1).rtr.linkFail) &&
    decide (Map.get (fun _ => 0) (s.tile out.1).rtr.edgeBad out.2 = 0)) = true := by decide

theorem witness_ReductionAtSites_2a : (
    let n : Nat := 0
    let s : State := { running with sites := [(0, ({ state := 2, dirty := false, strDirty := false, csr := [(4, 0#32), (0x21C, 0x80000000#32), (0x1000, 0x00088000#32), (0x1004, 0x00090700#32)], red := { started := true, bkts := [(0, ({ blocks := [({ block := 0, stream := 0, flits := (List.range 8).map fun o => ({ bucket := 9, block := 0, off := o, wide := false, mir := false, mask := 1, nf := false, data := [1#32, 0#32, 0#32, 0#32, 0#32, 0#32, 0#32, 0#32] } : RedFlit) } : RedBlk)], marked := true } : RedBkt))] } } : Site))], mod := { cc := { up := true } } }
    decide (n < 48) &&
    let x := s.site n
    let i := x.red.head
    let b := bktGet x i
    decide (x.red.started = true) &&
    decide (redDone x = false) &&
    decide (bktComplete x i = true) &&
    decide (b.unresolved = false) &&
    decide (x.upd.stopped = false) &&
    decide (b.marked = true) &&
    decide (b.decided = false) &&
    decide (b.resent = false)) = true := by decide

theorem witness_ReductionAtSites_3a : (
    let n : Nat := 0
    let s : State := { running with sites := [(0, ({ state := 2, dirty := false, strDirty := false, csr := [(4, 0#32), (0x21C, 0x80000000#32), (0x1000, 0x00288000#32), (0x1004, 0x00090700#32)], red := { started := true, bkts := [(0, ({ blocks := [({ block := 0, stream := 0, flits := (List.range 8).map fun o => ({ bucket := 9, block := 0, off := o, wide := false, mir := false, mask := 1, nf := false, data := [1#32, 0#32, 0#32, 0#32, 0#32, 0#32, 0#32, 0#32] } : RedFlit) } : RedBlk)] } : RedBkt))] } } : Site))], mod := { cc := { up := true } } }
    decide (n < 48) &&
    let x := s.site n
    let i := x.red.head
    let b := bktGet x i
    decide (x.red.started = true) &&
    decide (redDone x = false) &&
    decide (bktComplete x i = true) &&
    decide (b.unresolved = false) &&
    decide (x.upd.stopped = false) &&
    decide (b.marked = false) &&
    let y := (passAll (s.siteEnv n) i ((commitBlocks b).drop b.passed) { s := x, free := s.free }).1
    let m := (passAll (s.siteEnv n) i ((commitBlocks b).drop b.passed) { s := x, free := s.free }).2
    decide (passAll (s.siteEnv n) i ((commitBlocks b).drop b.passed) { s := x, free := s.free } = (y, m)) &&
    decide ((commitBlocks b).length ≤ b.passed + m)) = true := by decide

theorem witness_ReductionAtSites_4a : (
    let n : Nat := 0
    let s : State := { running with sites := [(0, ({ state := 2, dirty := false, strDirty := false, csr := [(4, 0#32), (0x21C, 0x80000000#32), (0x1000, 0x00088000#32), (0x1004, 0x00090700#32)], red := { started := true, bkts := [(0, ({ blocks := [({ block := 0, stream := 0, flits := (List.range 8).map fun o => ({ bucket := 9, block := 0, off := o, wide := false, mir := false, mask := 1, nf := false, data := [1#32, 0#32, 0#32, 0#32, 0#32, 0#32, 0#32, 0#32] } : RedFlit) } : RedBlk), ({ block := 0, stream := 2, flits := (List.range 8).map fun o => ({ bucket := 9, block := 0, off := o, wide := false, mir := false, mask := 1, nf := false, data := [1#32, 0#32, 0#32, 0#32, 0#32, 0#32, 0#32, 0#32] } : RedFlit) } : RedBlk)], marked := true, resent := true } : RedBkt))] } } : Site))], mod := { cc := { up := true } } }
    decide (n < 48) &&
    let x := s.site n
    let i := x.red.head
    let b := bktGet x i
    let retr := b.blocks.filter fun r => r.stream = 2 && blkDone x i r
    decide (b.resent = true) &&
    decide (b.decided = false) &&
    decide (b.unresolved = false) &&
    decide (bktBlocks x i ≤ retr.length)) = true := by decide

theorem witness_ReductionAtSites_5a : (
    let n : Nat := 0
    let s : State := { quietState with sites := [(0, ({ state := 2, dirty := false, strDirty := false, csr := [(4, 0#32)] } : Site))], mod := { cc := { up := true } } }
    decide (n < 48) &&
    let v := 7#32
    decide (s.siteRefused n 0x64 v = none)) = true := by decide

theorem witness_SiteRequests_0a : (
    let t : Nat := 0
    let n : Nat := 0
    let port : Nat := 4
    let r : SiteReq := ({ op := 1, off := 0x40, nfl := 8, seq := 0, tid := 2, src := 0, cmb := 31, part := 0, rcnt := 1, age := 5, atype := 0, aop := 0, data := [] } : SiteReq)
    let rest : List Flit := []
    let s : State := { { running with sites := [(0, ({ state := 2, dirty := false, strDirty := false, csr := [(4, 0#32)] } : Site))], mod := { cc := { up := true } } } with tiles := [(0, { tileOn with rtr := { edge := [(4, [({ vc := 2, dest := 0, body := .req 1 0 0 31 0 0x40 0 8 2 1 5 0 0 } : Flit)])] } })] }
    decide (isTile t = true) &&
    decide (port ∈ [1, 2, 3, 4]) &&
    decide (edgePacket t 2 (edgeFlits (s.tile t) port) = some (n, r, rest)) &&
    decide ((∀ q < port, edgePacket t 2 (edgeFlits (s.tile t) q) = none ∧ edgePacket t 5 (edgeFlits (s.tile t) q) = none)) &&
    let x := s.site n
    decide (arriveCode (s.siteEnv n) x r = none) &&
    decide (mustPark x r = false) &&
    decide (x.m.queue.length < 2048)) = true := by decide

theorem witness_SiteRequests_1a : (
    let t : Nat := 0
    let n : Nat := 0
    let port : Nat := 4
    let r : SiteReq := ({ op := 1, off := 0x40, nfl := 8, seq := 0, tid := 2, src := 0, cmb := 31, part := 0, rcnt := 1, age := 5, atype := 0, aop := 0, data := [] } : SiteReq)
    let rest : List Flit := []
    let s : State := { { running with sites := [(0, ({ state := 2, dirty := false, strDirty := false, csr := [(4, 0#32), (0x104, 1#32), (0x108, 0x00030000#32)], m := { armed := [0] } } : Site))], mod := { cc := { up := true } } } with tiles := [(0, { tileOn with rtr := { edge := [(4, [({ vc := 2, dest := 0, body := .req 1 0 0 31 0 0x40 0 8 2 1 5 0 0 } : Flit)])] } })] }
    decide (isTile t = true) &&
    decide (port ∈ [1, 2, 3, 4]) &&
    decide (edgePacket t 2 (edgeFlits (s.tile t) port) = some (n, r, rest)) &&
    decide ((∀ q < port, edgePacket t 2 (edgeFlits (s.tile t) q) = none ∧ edgePacket t 5 (edgeFlits (s.tile t) q) = none)) &&
    let x := s.site n
    decide (arriveCode (s.siteEnv n) x r = none) &&
    decide (mustPark x r = true) &&
    decide (x.m.parked.length < 4096)) = true := by decide

theorem witness_SiteRequests_2a : (
    let n : Nat := 0
    let r : SiteReq := ({ op := 1, off := 0x40, nfl := 8, seq := 0, tid := 2, src := 0, cmb := 31, part := 0, rcnt := 1, age := 5, atype := 0, aop := 0, data := [] } : SiteReq)
    let s : State := { running with sites := [(0, ({ state := 2, dirty := false, strDirty := false, csr := [(4, 0#32)], m := { queue := [({ op := 1, off := 0x40, nfl := 8, seq := 0, tid := 2, src := 0, cmb := 31, part := 0, rcnt := 1, age := 5, atype := 0, aop := 0, data := [] } : SiteReq)], mem := [(64, 7#8), (319, 9#8)] } } : Site))], mod := { cc := { up := true } } }
    decide (n < 48) &&
    decide (nextReq (s.site n) = some r) &&
    decide (mustPark (s.site n) r = false) &&
    decide (r.off < hbmEnd ∨ (s.siteEnv n).strav = true) &&
    let x := touchMem (s.siteEnv n) (decide (hbmEnd ≤ r.off)) (dropReq (s.site n) r)
    let u := r.off / 256
    let clean : Bool := decide (siteInjHit x 3 u = false ∧ Map.get (fun _ => 0) x.m.cacheBad u = 0 ∧
      ((List.range 4).all fun b => decide (Map.get (fun _ => []) x.m.bad (4 * u + b) = [])) = true)
    decide (r.op = 1) &&
    decide (clean) &&
    decide (windowOf x u = none)) = true := by decide

theorem witness_SiteRequests_3a : (
    let n : Nat := 0
    let r : SiteReq := ({ op := 1, off := 0x40, nfl := 8, seq := 0, tid := 2, src := 0, cmb := 31, part := 0, rcnt := 1, age := 5, atype := 0, aop := 0, data := [] } : SiteReq)
    let s : State := { running with sites := [(0, ({ state := 2, dirty := false, strDirty := false, csr := [(4, 0#32), (0x104, 1#32), (0x108, 0x00030000#32)], m := { queue := [({ op := 1, off := 0x40, nfl := 8, seq := 0, tid := 2, src := 0, cmb := 31, part := 0, rcnt := 1, age := 5, atype := 0, aop := 0, data := [] } : SiteReq)], armed := [0], count := [(0, 1)] } } : Site))], mod := { cc := { up := true } } }
    decide (n < 48) &&
    decide (nextReq (s.site n) = some r) &&
    decide (mustPark (s.site n) r = false) &&
    decide (r.off < hbmEnd ∨ (s.siteEnv n).strav = true) &&
    let x := touchMem (s.siteEnv n) (decide (hbmEnd ≤ r.off)) (dropReq (s.site n) r)
    let u := r.off / 256
    let clean : Bool := decide (siteInjHit x 3 u = false ∧ Map.get (fun _ => 0) x.m.cacheBad u = 0 ∧
      ((List.range 4).all fun b => decide (Map.get (fun _ => []) x.m.bad (4 * u + b) = [])) = true)
    decide (r.op = 1) &&
    decide (clean) &&
    let w := 0
    decide (windowOf x u = some w) &&
    decide (r.rcnt ≤ readers x u)) = true := by decide

theorem witness_SiteRequests_4a : (
    let n : Nat := 0
    let r : SiteReq := ({ op := 2, off := 0x0, nfl := 8, seq := 0, tid := 2, src := 0, cmb := 31, part := 0, rcnt := 1, age := 5, atype := 0, aop := 0, data := (List.range 64).map fun i => BitVec.ofNat 32 (i + 1) } : SiteReq)
    let s : State := { running with sites := [(0, ({ state := 2, dirty := false, strDirty := false, csr := [(4, 0#32)], m := { queue := [({ op := 2, off := 0x0, nfl := 8, seq := 0, tid := 2, src := 0, cmb := 31, part := 0, rcnt := 1, age := 5, atype := 0, aop := 0, data := (List.range 64).map fun i => BitVec.ofNat 32 (i + 1) } : SiteReq)], bad := [(0, [3])] } } : Site))], mod := { cc := { up := true } } }
    decide (n < 48) &&
    decide (nextReq (s.site n) = some r) &&
    decide (mustPark (s.site n) r = false) &&
    decide (r.off < hbmEnd ∨ (s.siteEnv n).strav = true) &&
    let x := touchMem (s.siteEnv n) (decide (hbmEnd ≤ r.off)) (dropReq (s.site n) r)
    let u := r.off / 256
    decide (r.op = 2) &&
    decide (r.nfl = 8) &&
    decide (r.raw = []) &&
    decide (windowOf x u = none)) = true := by decide

theorem witness_SiteRequests_5a : (
    let n : Nat := 0
    let r : SiteReq := ({ op := 2, off := 0x0, nfl := 8, seq := 0, tid := 2, src := 0, cmb := 31, part := 0, rcnt := 1, age := 5, atype := 0, aop := 0, data := (List.range 64).map fun i => BitVec.ofNat 32 (i + 1) } : SiteReq)
    let s : State := { running with sites := [(0, ({ state := 2, dirty := false, strDirty := false, csr := [(4, 0#32), (0x104, 1#32), (0x108, 0x00030000#32)], m := { queue := [({ op := 2, off := 0x0, nfl := 8, seq := 0, tid := 2, src := 0, cmb := 31, part := 0, rcnt := 1, age := 5, atype := 0, aop := 0, data := (List.range 64).map fun i => BitVec.ofNat 32 (i + 1) } : SiteReq)], armed := [0], count := [] } } : Site))], mod := { cc := { up := true } } }
    decide (n < 48) &&
    decide (nextReq (s.site n) = some r) &&
    decide (mustPark (s.site n) r = false) &&
    decide (r.off < hbmEnd ∨ (s.siteEnv n).strav = true) &&
    let x := touchMem (s.siteEnv n) (decide (hbmEnd ≤ r.off)) (dropReq (s.site n) r)
    let u := r.off / 256
    decide (r.op = 2) &&
    decide (r.nfl = 8) &&
    decide (r.raw = []) &&
    let w := 0
    decide (windowOf x u = some w)) = true := by decide

theorem witness_SiteRequests_6a : (
    let n : Nat := 0
    let r : SiteReq := ({ op := 3, off := 0x20, nfl := 8, seq := 0, tid := 2, src := 0, cmb := 31, part := 0, rcnt := 1, age := 5, atype := 0, aop := 0, data := (List.range 64).map fun i => BitVec.ofNat 32 (i + 1) } : SiteReq)
    let s : State := { running with sites := [(0, ({ state := 2, dirty := false, strDirty := false, csr := [(4, 0#32)], m := { queue := [({ op := 3, off := 0x20, nfl := 8, seq := 0, tid := 2, src := 0, cmb := 31, part := 0, rcnt := 1, age := 5, atype := 0, aop := 0, data := (List.range 64).map fun i => BitVec.ofNat 32 (i + 1) } : SiteReq)], mem := [(32, 7#8)], atom := [0] } } : Site))], mod := { cc := { up := true } } }
    decide (n < 48) &&
    decide (nextReq (s.site n) = some r) &&
    decide (mustPark (s.site n) r = false) &&
    decide (r.off < hbmEnd ∨ (s.siteEnv n).strav = true) &&
    let x := touchMem (s.siteEnv n) (decide (hbmEnd ≤ r.off)) (dropReq (s.site n) r)
    let u := r.off / 256
    let clean : Bool := decide (siteInjHit x 3 u = false ∧ Map.get (fun _ => 0) x.m.cacheBad u = 0 ∧
      ((List.range 4).all fun b => decide (Map.get (fun _ => []) x.m.bad (4 * u + b) = [])) = true)
    decide (r.op = 3) &&
    decide (r.aop < 5) &&
    decide (windowOf x u = none) &&
    decide ((clean ∨ u ∈ x.m.atom))) = true := by decide

theorem witness_SiteRequests_7a : (
    let n : Nat := 0
    let a : Nat := 1
    let b : Nat := 2
    let s : State := { running with sites := [(0, ({ state := 2, dirty := false, strDirty := false, csr := [(4, 0#32)], m := { mem := [(256, 7#8), (511, 9#8)], atom := [2] } } : Site))], mod := { cc := { up := true } } }
    decide (n < 48) &&
    decide (s.mod.cc.up = true) &&
    decide ((s.site n).state = 2) &&
    let there (u : Nat) : Bool := decide (256 * u < hbmEnd ∨ inShare (s.siteEnv n) (256 * u) = true ∧ (s.siteEnv n).strav = true)
    decide (there a) &&
    decide (there b) &&
    let x := s.site n
    decide (siteInjHit x 3 a = false) &&
    decide (Map.get (fun _ => 0) x.m.cacheBad a = 0) &&
    decide (((List.range 4).all fun k => (Map.get (fun _ => []) x.m.bad (4 * a + k)).isEmpty) = true) &&
    let y := storeUnit x (256 * b) (x.bytes (256 * a) 256)
    decide (windowOf x b = windowOf y b) &&
    decide (windowOf x b = none)) = true := by decide

theorem witness_SiteRequests_8a : (
    let n : Nat := 0
    let a : Nat := 1
    let b : Nat := 0
    let s : State := { running with sites := [(0, ({ state := 2, dirty := false, strDirty := false, csr := [(4, 0#32), (0x104, 1#32), (0x108, 0x00030000#32)], m := { armed := [0], mem := [(256, 7#8), (511, 9#8)] } } : Site))], mod := { cc := { up := true } } }
    decide (n < 48) &&
    decide (s.mod.cc.up = true) &&
    decide ((s.site n).state = 2) &&
    let there (u : Nat) : Bool := decide (256 * u < hbmEnd ∨ inShare (s.siteEnv n) (256 * u) = true ∧ (s.siteEnv n).strav = true)
    decide (there a) &&
    decide (there b) &&
    let x := s.site n
    decide (siteInjHit x 3 a = false) &&
    decide (Map.get (fun _ => 0) x.m.cacheBad a = 0) &&
    decide (((List.range 4).all fun k => (Map.get (fun _ => []) x.m.bad (4 * a + k)).isEmpty) = true) &&
    let y := storeUnit x (256 * b) (x.bytes (256 * a) 256)
    decide (windowOf x b = windowOf y b) &&
    let w := 0
    decide (windowOf x b = some w) &&
    decide (readers x b = 0)) = true := by decide

theorem witness_SiteMemoryReads_0a : (
    let x : Site := ({ keys := [(15, 6)], m := { sealed := [(0, 6)], mem := [(3, 5#8), (7, 9#8), (300, 1#8)], bad := [(0, [1])] } } : Site)
    let o : Nat := 4
    let l : List Byte := [0#8, 1#8, 0#8, 0#8, 8#8]
    decide (Map.wf (fun _ => 0#8) x.m.mem = true) &&
    decide (Map.wf (fun _ => 0) x.m.sealed = true) &&
    let a := 3
    decide (a < o ∨ o + l.length ≤ a)) = true := by decide

theorem witness_SiteMemoryReads_1a : (
    let x : Site := ({ keys := [(15, 6)], m := { sealed := [(0, 6)], mem := [(3, 5#8), (7, 9#8), (300, 1#8)], bad := [(0, [1])] } } : Site)
    let l : List Byte := [0#8, 1#8, 0#8, 0#8, 8#8]
    decide (Map.wf (fun _ => 0#8) x.m.mem = true) &&
    decide (Map.wf (fun _ => 0) x.m.sealed = true) &&
    let i := 0
    decide (i < l.length)) = true := by decide

theorem witness_SiteMemoryReads_2 : (
    let x : Site := ({ keys := [(15, 6)], m := { sealed := [(0, 6)], mem := [(3, 5#8), (7, 9#8), (300, 1#8)], bad := [(0, [1])] } } : Site)
    decide (Map.wf (fun _ => 0#8) x.m.mem = true) &&
    decide (Map.wf (fun _ => 0) x.m.sealed = true)) = true := by decide

theorem witness_SiteMemoryReads_3a : (
    let x : Site := ({ keys := [(15, 6)], m := { sealed := [(0, 6)], mem := [(3, 5#8), (7, 9#8), (300, 1#8)], bad := [(0, [1])] } } : Site)
    decide (Map.wf (fun _ => 0#8) x.m.mem = true) &&
    decide (Map.wf (fun _ => 0) x.m.sealed = true) &&
    let n := 300
    let i := 3
    decide (i < n)) = true := by decide

theorem witness_SiteWindowsAndOwner_0a : (
    let n : Nat := 0
    let s : State := { quietState with sites := [(0, ({ state := 2, dirty := false, strDirty := false, csr := [(4, 0#32), (0x100, 4#32), (0x104, 3#32), (0x108, 0x00050000#32), (0x170, 16#32), (0x174, 2#32), (0x178, 0x00020000#32)] } : Site))], mod := { cc := { up := true } } }
    decide (n < 48) &&
    let x := s.site n
    decide (Map.wf (regReset siteRegs) x.csr = true) &&
    let w : Nat := 0
    decide (w < 8) &&
    ([(1, Instr.armFilled true n w), (2, .armEmpty true n w)].all fun c =>
    decide (s.siteRefused n (0x108 + 16 * w) (winWord x w c.1) = none) &&
    decide (armable x w = true))) = true := by decide

theorem witness_SiteWindowsAndOwner_1a : (
    let n : Nat := 0
    let s : State := { quietState with sites := [(0, ({ state := 2, dirty := false, strDirty := false, csr := [(4, 0#32), (0x100, 4#32), (0x104, 3#32), (0x108, 0x00050000#32), (0x170, 16#32), (0x174, 2#32), (0x178, 0x00020000#32)], m := { armed := [0, 7], count := [(16, 1), (17, 1), (30, 2)] } } : Site))], mod := { cc := { up := true } } }
    decide (n < 48) &&
    let x := s.site n
    decide (Map.wf (regReset siteRegs) x.csr = true) &&
    let w : Nat := 7
    decide (w < 8) &&
    decide (s.siteRefused n (0x108 + 16 * w) (winWord x w 3) = none) &&
    decide (w ∈ x.m.armed)) = true := by decide

theorem witness_SiteWindowsAndOwner_2a : (
    let n : Nat := 0
    let s : State := { quietState with sites := [(0, ({ state := 2, dirty := false, strDirty := false, csr := [(4, 0#32)] } : Site))], mod := { cc := { up := true } } }
    decide (n < 48) &&
    let x := s.site n
    decide (Map.wf (regReset siteRegs) x.csr = true) &&
    let v := 0x10100404#32
    decide (s.siteRefused n 0x40 v = none)) = true := by decide

theorem witness_SiteWindowsAndOwner_3a : (
    let n : Nat := 0
    let s : State := { quietState with sites := [(0, ({ state := 2, dirty := false, strDirty := false, csr := [(4, 0#32), (0x40, 0x10100404#32)], m := { mem := [(3, 5#8)], atom := [2] }, keys := [(0, 9)] } : Site))], mod := { cc := { up := true } }, parts := [(7, { state := 1, key := 77 })] }
    decide (n < 48) &&
    let x := s.site n
    decide (Map.wf (regReset siteRegs) x.csr = true) &&
    let v := 0#32
    decide (s.siteRefused n 0x4 v = none)) = true := by decide

theorem witness_SiteWindowsAndOwner_5a : (
    let n : Nat := 0
    let s : State := { quietState with sites := [(0, ({ state := 2, dirty := false, strDirty := false, csr := [(4, 0#32), (0x40, 0x10100404#32)], m := { mem := [(3, 5#8)], atom := [2] }, keys := [(0, 9)] } : Site))], mod := { cc := { up := true } }, parts := [(7, { state := 1, key := 77 })] }
    decide (n < 48) &&
    let x := s.site n
    decide (Map.wf (regReset siteRegs) x.csr = true) &&
    let v := 7#32
    decide (s.siteRefused n 0x4 v = none)) = true := by decide

theorem witness_SiteWindowsAndOwner_10a : (
    let n : Nat := 0
    let s : State := { quietState with sites := [(0, ({ state := 2, dirty := false, strDirty := false, csr := [(4, 0#32), (0x100, 4#32), (0x104, 3#32), (0x108, 0x00050000#32), (0x170, 16#32), (0x174, 2#32), (0x178, 0x00020000#32)], m := { mem := [(3, 5#8)], armed := [2], atom := [9, 0] }, keys := [(0, 9)], exp := { busy := true } } : Site))], mod := { cc := { up := true } } }
    decide (n < 48) &&
    let x := s.site n
    decide (Map.wf (regReset siteRegs) x.csr = true) &&
    decide (x.m.queue = []) &&
    decide (x.m.parked = []) &&
    decide ((s.part x.owner).step = false) &&
    decide (Map.wf (fun _ => 0#8) x.m.mem = true) &&
    decide (Map.wf (fun _ => 0) x.m.sealed = true)) = true := by decide

theorem witness_SiteWindowsAndOwner_13a : (
    let n : Nat := 0
    let s : State := { State.reset with sites := [(0, ({ state := 2, dirty := false, strDirty := false, csr := [(4, 0#32), (8, 0xFFFE0001#32)] } : Site))], mod := { cc := { up := true } }, parts := [(7, { state := 1, key := 77 })] }
    decide (n < 48) &&
    let x := s.site n
    decide (Map.wf (regReset siteRegs) x.csr = true) &&
    let p : Nat := 7
    decide (p < 8) &&
    decide ((s.part p).key ≠ 0)) = true := by decide

theorem witness_SiteCare_0a : (
    let n : Nat := 0
    let s : State := { quietState with sites := [(0, ({ state := 2, dirty := false, strDirty := false, csr := [(4, 0#32), (0x14, 0#32)], chState := 2, m := { mem := [(3, 5#8)], strPatrol := 0, patrol := 0xBFFFFFF } } : Site))], mod := { cc := { up := true } } }
    decide (n < 48) &&
    let x := s.site n
    let str : Bool := true
    decide (str = true ∨ bits (x.csrWord 0x10) 2 0 ≠ 4) &&
    let k := if str then (s.siteEnv n).share / 256 else hbmEnd / 256
    let i := if str then x.m.strPatrol else x.m.patrol
    let u := i + (if str then strBase / 256 else 0)
    decide (k ≠ 0) &&
    decide ((((List.range 4).all fun b => decide (Map.get (fun _ => []) x.m.bad (4 * u + b) = [])) = true)) &&
    let sym : Nat := 255
    decide (sym < 256)) = true := by decide

theorem witness_SiteCare_1a : (
    let n : Nat := 0
    let s : State := { quietState with sites := [(0, ({ state := 2, dirty := false, strDirty := false, csr := [(4, 0#32), (0x14, 0#32)], chState := 2, m := { mem := [(3, 5#8)], strPatrol := 0, patrol := 0xBFFFFFF } } : Site))], mod := { cc := { up := true } } }
    decide (n < 48) &&
    let x := s.site n
    let str : Bool := true
    decide (str = true ∨ bits (x.csrWord 0x10) 2 0 ≠ 4) &&
    let k := if str then (s.siteEnv n).share / 256 else hbmEnd / 256
    let i := if str then x.m.strPatrol else x.m.patrol
    let u := i + (if str then strBase / 256 else 0)
    decide (k ≠ 0) &&
    decide ((((List.range 4).all fun b => decide (Map.get (fun _ => []) x.m.bad (4 * u + b) = [])) = true))) = true := by decide

theorem witness_SiteCare_2a : (
    let n : Nat := 0
    let s : State := { quietState with sites := [(0, ({ state := 2, dirty := false, strDirty := false, csr := [(4, 0#32)] } : Site))], mod := { cc := { up := true } }, now := 1000000#64 }
    decide (n < 48) &&
    let x := s.site n
    decide (x.m.queue = []) &&
    decide (x.m.parked = []) &&
    decide (1000000 ≤ (s.now - x.m.lastStr).toNat) &&
    decide (1000000 ≤ (s.now - x.m.lastHbm).toNat)) = true := by decide

theorem witness_SiteCare_3a : (
    let n : Nat := 0
    let s : State := { quietState with sites := [(0, ({ state := 2, dirty := false, strDirty := false, csr := [(4, 0#32), (0x10, 0x006A6A04#32)] } : Site))], mod := { cc := { up := true } } }
    decide (n < 48) &&
    let x := s.site n
    let temp : Nat := 101
    decide (temp < 256) &&
    decide (x.tempSub = none) &&
    let l := bits (x.csrWord 0x10) 2 0
    let m := thermLevel l temp
    decide (Map.wf (regReset siteRegs) x.csr = true) &&
    decide (l = m)) = true := by decide

theorem witness_SiteCare_4a : (
    let n : Nat := 0
    let s : State := { quietState with sites := [(0, ({ state := 2, dirty := false, strDirty := false, csr := [(4, 0#32), (0x10, 0x00505000#32)] } : Site))], mod := { cc := { up := true } } }
    decide (n < 48) &&
    let x := s.site n
    let temp : Nat := 85
    decide (temp < 256) &&
    decide (x.tempSub = none) &&
    let l := bits (x.csrWord 0x10) 2 0
    let m := thermLevel l temp
    decide (Map.wf (regReset siteRegs) x.csr = true) &&
    decide (l ≠ m) &&
    decide (l < 4) &&
    decide (m < 3)) = true := by decide

theorem witness_SiteCare_5a : (
    let n : Nat := 0
    let s : State := { quietState with sites := [(0, ({ state := 2, dirty := false, strDirty := false, csr := [(4, 0#32), (0x10, 0x00505000#32)] } : Site))], mod := { cc := { up := true } } }
    decide (n < 48) &&
    let x := s.site n
    let temp : Nat := 104
    decide (temp < 256) &&
    decide (x.tempSub = none) &&
    let l := bits (x.csrWord 0x10) 2 0
    let m := thermLevel l temp
    decide (Map.wf (regReset siteRegs) x.csr = true) &&
    decide (l < 3) &&
    decide (m = 3)) = true := by decide

theorem witness_SiteCare_6a : (
    let n : Nat := 0
    let s : State := { quietState with sites := [(0, ({ state := 2, dirty := false, strDirty := false, csr := [(4, 0#32), (0x10, 0x00505000#32)] } : Site))], mod := { cc := { up := true } } }
    decide (n < 48) &&
    let x := s.site n
    let temp : Nat := 105
    decide (temp < 256) &&
    decide (x.tempSub = none) &&
    let l := bits (x.csrWord 0x10) 2 0
    let m := thermLevel l temp
    decide (Map.wf (regReset siteRegs) x.csr = true) &&
    decide (l ≤ 4) &&
    decide (((l = 4) ≠ (m = 4)))) = true := by decide

theorem witness_SiteCare_7a : (
    let n : Nat := 0
    decide (n < 48) &&
    let l := 0
    let t := 105
    decide (l ≤ 4) &&
    decide (105 ≤ t)) = true := by decide

theorem witness_SiteCare_8a : (
    let n : Nat := 0
    decide (n < 48) &&
    let l := 4
    let t := 82
    decide (l ≤ 4) &&
    decide (t ≤ 82)) = true := by decide

theorem witness_SiteCare_9a : (
    let n : Nat := 0
    decide (n < 48) &&
    let l := 3
    let t := 100
    decide (l ≤ 4) &&
    decide (100 ≤ t) &&
    decide (t < 105) &&
    decide (l ≤ 3)) = true := by decide

theorem witness_SiteCare_10a : (
    let n : Nat := 0
    decide (n < 48) &&
    let l := 4
    let t := 101
    decide (l ≤ 4) &&
    decide (100 < t) &&
    decide (l = 4)) = true := by decide

theorem witness_SiteCare_11a : (
    let n : Nat := 0
    decide (n < 48) &&
    let l := 4
    decide (l ≤ 4)) = true := by decide

theorem witness_SiteCare_12 : (
    let n : Nat := 0
    decide (n < 48)) = true := by decide

theorem witness_EngineBlocks_0a : (
    let n : Nat := 0
    let s : State := { quietState with sites := [(0, ({ state := 2, dirty := false, strDirty := false, csr := [(4, 0#32), (0x608, 1#32), (0x624, 1#32)], upd := {  }, m := { mem := [(0, 1#8), (6, 4#8)] } } : Site))], mod := { cc := { up := true } } }
    decide (n < 48) &&
    let x := s.site n
    let b := bindRec x x.upd.next
    decide (mayBind x = true) &&
    decide (bindCarry b = false)) = true := by decide

theorem witness_EngineBlocks_1a : (
    let n : Nat := 0
    let s : State := { quietState with sites := [(0, ({ state := 2, dirty := false, strDirty := false, csr := [(4, 0#32), (0x600, 0x00010003#32), (0x608, 2#32), (0x624, 1#32)], upd := { next := 1 }, m := { mem := [(21, 0x20#8), (22, 4#8)] } } : Site))], mod := { cc := { up := true } } }
    decide (n < 48) &&
    let x := s.site n
    let b := bindRec x x.upd.next
    decide (mayBind x = true) &&
    decide (bindCarry b = true) &&
    decide (leanMode x = true)) = true := by decide

theorem witness_EngineBlocks_2a : (
    let n : Nat := 0
    let s : State := { quietState with sites := [(0, ({ state := 2, dirty := false, strDirty := false, csr := [(4, 0#32), (0x608, 1#32), (0x624, 1#32), (0xA000, 0x00780000#32)], upd := {  }, m := { mem := [(5, 0x20#8), (6, 4#8), (1024, 9#8)] } } : Site))], mod := { cc := { up := true } } }
    decide (n < 48) &&
    let x := s.site n
    let b := bindRec x x.upd.next
    let u := { x.upd with next := x.upd.next + 1, slots := x.upd.slots + bindTier b, waitSlot := false }
    decide (mayBind x = true) &&
    decide (bindCarry b = true) &&
    decide (leanMode x = false) &&
    decide (bindTier b = 0) &&
    let y := btSet { x with upd := u } (bindBlock b % 16384) { bind := b, idx := x.upd.next, res := 1, fired := true }
    let live := halfUnit y b (liveHalf y)
    decide (readHalf (s.siteEnv n) (bindGroup b) live { s := y, free := s.free } = ({ s := y, free := s.free }, false))) = true := by decide +kernel

theorem witness_EngineBlocks_3a : (
    let n : Nat := 0
    let s : State := { quietState with sites := [(0, ({ state := 2, dirty := false, strDirty := false, csr := [(4, 0#32), (0x608, 1#32), (0x624, 0x10001#32)], upd := { next := 1, queue := [1, 7], bt := [(1, ({ bind := 1125899906842625, idx := 0, res := 1, got := some ({ bucket := 9, block := 1, vals := [0x3F800000#32], nf := false, mask := 1#32 } : EngBlk), fired := false } : BtEntry))] } } : Site))], mod := { cc := { up := true } } }
    decide (n < 48) &&
    let x := s.site n
    let k := 1
    let l := [7]
    let en := ({ bind := 1125899906842625, idx := 0, res := 1, got := some ({ bucket := 9, block := 1, vals := [0x3F800000#32], nf := false, mask := 1#32 } : EngBlk), fired := false } : BtEntry)
    let blk := ({ bucket := 9, block := 1, vals := [0x3F800000#32], nf := false, mask := 1#32 } : EngBlk)
    decide (x.upd.queue = k :: l) &&
    decide (btGet x k = some en) &&
    decide (en.got = some blk) &&
    decide (tainted x = true)) = true := by decide

theorem witness_EngineBlocks_5a : (
    let n : Nat := 0
    let s : State := { quietState with sites := [(0, ({ state := 2, dirty := false, strDirty := false, csr := [(4, 0#32), (0x608, 1#32), (0x624, 1#32)], upd := { next := 1, slots := 1, bt := [(1, ({ bind := 17592186044417, idx := 0, res := 2, got := some ({ bucket := 9, block := 1, vals := [0x3F800000#32], nf := false, mask := 1#32 } : EngBlk), fired := true } : BtEntry)), (3, ({ bind := 1125899906842625, idx := 0, res := 1, got := some ({ bucket := 9, block := 1, vals := [0x3F800000#32], nf := false, mask := 1#32 } : EngBlk), fired := false } : BtEntry))] } } : Site))], mod := { cc := { up := true } } }
    decide (n < 48) &&
    let x := s.site n
    let k := 1
    let en := ({ bind := 17592186044417, idx := 0, res := 2, got := some ({ bucket := 9, block := 1, vals := [0x3F800000#32], nf := false, mask := 1#32 } : EngBlk), fired := true } : BtEntry)
    decide (x.upd.bt.filter (fun e => e.2.fired) = [(k, en)])) = true := by decide

theorem witness_EngineBlocks_6a : (
    let n : Nat := 0
    let s : State := { quietState with sites := [(0, ({ state := 2, dirty := false, strDirty := false, csr := [(4, 0#32), (0x624, 1#32)], upd := {  }, red := { started := true } } : Site)), (1, ({ state := 2, dirty := false, strDirty := false, csr := [(4, 0#32), (0x624, 1#32)], upd := { finished := true }, red := { started := true } } : Site))], mod := { cc := { up := true } } }
    decide (n < 48) &&
    let x := s.site n
    let d := s.dsite x.owner
    decide (x.owner < 8) &&
    decide (d < 48) &&
    decide (x.upd.taints = []) &&
    decide (pavState x = 1) &&
    decide (x.upd.finished = false) &&
    decide (siteFinished x = true)) = true := by decide

theorem witness_EngineBlocks_7a : (
    let n : Nat := 1
    let s : State := { quietState with sites := [(0, ({ state := 2, dirty := false, strDirty := false, csr := [(4, 0#32), (0x624, 1#32)], upd := {  } } : Site)), (1, ({ state := 2, dirty := false, strDirty := false, csr := [(4, 0#32), (0x624, 1#32)], upd := { taints := [3, 4], queue := [1] } } : Site))], mod := { cc := { up := true } } }
    decide (n < 48) &&
    let x := s.site n
    let d := s.dsite x.owner
    decide (x.owner < 8) &&
    decide (d < 48) &&
    decide (d ≠ n) &&
    decide (s.canonical = true) &&
    let y := s.site d
    decide (Map.wf (regReset siteRegs) y.csr = true) &&
    decide (1 ≤ pavState y) &&
    decide (pavState y ≤ 2) &&
    let c := 3
    let l := [4]
    decide (x.upd.taints = c :: l) &&
    decide (c < 16) &&
    decide (tainted y = false)) = true := by decide

theorem witness_PavaneStates_0a : (
    let p : Nat := 0
    let s : State := { quietState with sites := [(0, ({ state := 2, csr := [(4, 0#32), (0x624, 0x10002#32)], upd := { partials := [(0, 0x4024000000000000#64)] } } : Site)), (1, ({ state := 2, dirty := false, strDirty := false, csr := [(4, 0#32), (0x624, 0x10002#32)], upd := {  } } : Site))], mod := { cc := { up := true } }, parts := [(0, { state := 3, step := true, job := none })] }
    decide (p < 8) &&
    let d := s.dsite p
    let x := s.site d
    let code := toF64 (s.normSq p)
    let s1 := s.setSite d ((x.csrPut 0x640 (code.setWidth 32)).csrPut 0x644 ((code >>> 32).setWidth 32))
    let y := s1.site d
    decide (d < 48) &&
    decide (pavState x = 2) &&
    decide (nonFinite (s.normSq p) = false) &&
    decide (tainted y = true)) = true := by decide

theorem witness_PavaneStates_1a : (
    let p : Nat := 0
    let s : State := { quietState with sites := [(0, ({ state := 2, csr := [(4, 0#32), (0x624, 2#32), (0x634, 0x3F800000#32)], upd := { partials := [(0, 0x4024000000000000#64)] } } : Site))], mod := { cc := { up := true } }, parts := [(0, { state := 3, step := true, job := none })] }
    decide (p < 8) &&
    let d := s.dsite p
    let x := s.site d
    let code := toF64 (s.normSq p)
    let s1 := s.setSite d ((x.csrPut 0x640 (code.setWidth 32)).csrPut 0x644 ((code >>> 32).setWidth 32))
    let y := s1.site d
    decide (d < 48) &&
    decide (pavState x = 2) &&
    decide (nonFinite (s.normSq p) = false) &&
    decide (tainted y = false) &&
    decide (leanMode y = true ∨ ((s1.sitesOf p).all fun n => !(s1.site n).upd.clip1) = true ∨
              withinTau y code = true)) = true := by decide

theorem witness_PavaneStates_2a : (
    let p : Nat := 0
    let s : State := { quietState with sites := [(0, ({ state := 2, csr := [(4, 0#32), (0x624, 2#32), (0x634, 0x3F800000#32)], upd := { clip1 := true, partials := [(0, 0x4024000000000000#64), (1, 0x3FF0000000000000#64)] } } : Site)), (1, ({ state := 2, dirty := false, strDirty := false, csr := [(4, 0#32), (0x624, 2#32), (0x634, 0x3F800000#32)], upd := {  } } : Site))], mod := { cc := { up := true } }, parts := [(0, { state := 3, step := true, job := none })] }
    decide (p < 8) &&
    let d := s.dsite p
    let x := s.site d
    let code := toF64 (s.normSq p)
    let s1 := s.setSite d ((x.csrPut 0x640 (code.setWidth 32)).csrPut 0x644 ((code >>> 32).setWidth 32))
    let y := s1.site d
    decide (d < 48) &&
    decide (pavState x = 2) &&
    decide (nonFinite (s.normSq p) = false) &&
    decide (tainted y = false) &&
    decide (leanMode y = false) &&
    decide (((s1.sitesOf p).any fun n => (s1.site n).upd.clip1) = true) &&
    decide (withinTau y code = false)) = true := by decide

theorem witness_PavaneStates_3a : (
    let p : Nat := 0
    let s : State := { quietState with sites := [(0, ({ state := 2, csr := [(4, 0#32), (0x624, 3#32)], upd := {  } } : Site))], mod := { cc := { up := true } }, parts := [(0, { state := 3, step := true, job := none })] }
    decide (p < 8) &&
    let n : Nat := 0
    decide (n < 48) &&
    decide (pavState (s.site n) = 3) &&
    decide (bits ((s.site n).csrWord 0x10) 2 0 ≠ 4) &&
    decide ((s.site n).upd.folded = false) &&
    let z := s.site n
    decide (z.upd.fired = [])) = true := by decide

theorem witness_PavaneStates_5a : (
    let p : Nat := 0
    let s : State := { quietState with sites := [(0, ({ state := 2, csr := [(4, 0#32), (0x624, 3#32)], upd := { folded := true } } : Site)), (1, ({ state := 2, dirty := false, strDirty := false, csr := [(4, 0#32), (0x624, 3#32)], upd := { folded := true } } : Site))], mod := { cc := { up := true } }, parts := [(0, { state := 3, step := true, job := none })] }
    decide (p < 8) &&
    let d := s.dsite p
    let x := s.site d
    decide (d < 48) &&
    decide (pavState x = 3) &&
    decide (tainted x = false) &&
    decide (((s.sitesOf p).all fun n => (s.site n).upd.folded && (s.site n).upd.taints.isEmpty) = true)) = true := by decide

theorem witness_PavaneStates_6a : (
    let p : Nat := 0
    let s : State := { quietState with sites := [(0, ({ state := 2, csr := [(4, 0#32), (0x624, 4#32)], upd := {  } } : Site)), (1, ({ state := 2, dirty := false, strDirty := false, csr := [(4, 0#32), (0x624, 4#32)], upd := {  } } : Site))], mod := { cc := { up := true } }, parts := [(0, { state := 3, step := true, job := none })] }
    decide (p < 8) &&
    let d := s.dsite p
    let x := s.site d
    decide (d < 48) &&
    decide (pavState x = 4)) = true := by decide

theorem witness_PavaneStates_7a : (
    let p : Nat := 0
    let s : State := { quietState with sites := [(0, ({ state := 2, csr := [(4, 0#32), (0x624, 0#32)], upd := {  } } : Site)), (1, ({ state := 2, dirty := false, strDirty := false, csr := [(4, 0#32), (0x624, 0#32)], upd := {  } } : Site))], mod := { cc := { up := true } }, parts := [(0, { state := 3, step := false })] }
    decide (p < 8) &&
    let n : Nat := 0
    decide (n < 48) &&
    decide ((s.site n).owner = p) &&
    decide (s.mod.cc.up = true) &&
    decide (s.siteRefused n 0x620 1 = none) &&
    decide (s.armBlocked p = none)) = true := by decide

theorem witness_PavaneStates_8a : (
    let p : Nat := 0
    let s : State := { quietState with sites := [(0, ({ state := 2, csr := [(4, 0#32), (0x624, 1#32)], upd := {  } } : Site))], mod := { cc := { up := true } }, parts := [(0, { state := 3, step := true, job := none })] }
    decide (p < 8) &&
    let n : Nat := 0
    decide (n < 48) &&
    decide ((s.site n).owner = p) &&
    ([(2, Instr.taintHalve true n), (3, .taintNoHalve true n)].all fun c =>
    decide (s.siteRefused n 0x620 (BitVec.ofNat 32 c.1) = none))) = true := by decide

theorem witness_PavaneStates_9a : (
    let p : Nat := 0
    let s : State := { quietState with sites := [(0, ({ state := 2, csr := [(4, 0#32), (0x624, 7#32)], upd := {  } } : Site)), (1, ({ state := 2, dirty := false, strDirty := false, csr := [(4, 0#32), (0x624, 7#32)], upd := {  } } : Site))], mod := { cc := { up := true } }, parts := [(0, { state := 3, step := false })] }
    decide (p < 8) &&
    let n : Nat := 0
    decide (n < 48) &&
    decide ((s.site n).owner = p) &&
    decide (s.siteRefused n 0x620 4 = none)) = true := by decide

theorem witness_PavaneStates_10a : (
    let p : Nat := 0
    let s : State := { quietState with sites := [(0, ({ state := 3, csr := [(4, 0#32), (0x624, 0#32)], upd := {  }, m := { mem := [(0, 5#8), (255, 1#8), (256, 7#8)] } } : Site)), (1, ({ state := 2, dirty := false, strDirty := false, csr := [(4, 0#32), (0x624, 0#32)], upd := {  } } : Site))], mod := { cc := { up := true } }, parts := [(0, { state := 3, step := false })] }
    decide (p < 8) &&
    let d := s.dsite p
    let x := s.site d
    let n := 1
    decide (((s.sitesOf p).find? fun k => (s.site k).state ≠ 3) = some n) &&
    decide (d < 48) &&
    decide (d ≠ n) &&
    decide (x.state = 3) &&
    decide (s.quiescent p = true) &&
    decide (pavState x = 0 ∨ 5 ≤ pavState x)) = true := by decide

theorem witness_Exports_0a : (
    let n : Nat := 47
    let s : State := { quietState with sites := [(47, ({ state := 2, dirty := false, strDirty := false, csr := [(4, 0#32), (0x624, 0x108#32)] } : Site))], mod := { cc := { up := true } } }
    decide (n < 48) &&
    decide (s.siteRefused n 0x66C 1 = none)) = true := by decide

theorem witness_Exports_1a : (
    let n : Nat := 47
    let s : State := { quietState with sites := [(47, ({ state := 2, dirty := false, strDirty := false, csr := [(4, 0#32)], exp := { busy := true, next := 3 } } : Site))], mod := { cc := { up := true } } }
    decide (n < 48) &&
    decide (s.siteRefused n 0x66C 2 = none)) = true := by decide

theorem witness_Exports_2a : (
    let n : Nat := 47
    let s : State := { quietState with sites := [(47, ({ state := 2, dirty := false, strDirty := false, csr := [(4, 0#32), (0x664, 3#32), (0x668, 9#32)], exp := { busy := true, next := 3 } } : Site))], mod := { cc := { up := true } } }
    decide (n < 48) &&
    let x := s.site n
    decide (x.exp.busy = true) &&
    let k := bits (x.csrWord 0x664) 19 0
    decide (x.exp.next = k)) = true := by decide

theorem witness_Exports_3a : (
    let n : Nat := 47
    let s : State := { quietState with sites := [(47, ({ state := 2, dirty := false, strDirty := false, csr := [(4, 0#32), (0x664, 3#32), (0x668, 9#32)], exp := { busy := true, next := 3 } } : Site))], mod := { cc := { up := true } } }
    decide (n < 48) &&
    let x := s.site n
    decide (x.exp.busy = true) &&
    let k := bits (x.csrWord 0x664) 19 0
    let y := exportRest (k - x.exp.next) x
    decide (y.exp.busy = true)) = true := by decide

theorem witness_Exports_4a : (
    let n : Nat := 47
    let s : State := { quietState with sites := [(47, ({ state := 2, dirty := false, strDirty := false, csr := [(4, 0#32), (0x664, 2#32), (0x668, 0xBFFFFFF#32)], m := { mem := [(13, 1#8)] }, exp := { busy := true } } : Site))], mod := { cc := { up := true } } }
    decide (n < 48) &&
    let x := s.site n
    decide (x.exp.busy = true) &&
    let k := bits (x.csrWord 0x664) 19 0
    let y := exportRest (k - x.exp.next) x
    decide (y.exp.busy = false)) = true := by decide +kernel

theorem witness_PrivilegeNeeded_0a : (
    let t := 0
    decide (isTile t = true) &&
    let off : Nat := 0x23C
    let d : Nat := 255
    decide (0x100 ≤ off) &&
    decide (off < 0x240) &&
    decide ((regAt tileRegs off).isSome = true) &&
    decide (d < 256)) = true := by decide

theorem witness_PrivilegeNeeded_1 : (
    let a := tileAddr 0 0xFFFFC
    let t := 0
    let off := 0xFFFFC
    decide (targetOf true a = .tile t off)) = true := by decide

theorem witness_PrivilegeNeeded_2 : (
    let f : Nat := 69
    decide (f < 70) &&
    let bank : Nat := 1
    decide (bank < 2) &&
    let d : Nat := 255
    decide (d < 256)) = true := by decide

theorem witness_PrivilegeNeeded_4 : (
    let s : State := { State.reset with mod := { cc := { up := true } } }
    let n : Nat := 47
    decide (n < 48) &&
    let w : Nat := 7
    decide (w < 8) &&
    decide (s.mod.cc.up = true)) = true := by decide

theorem witness_PrivilegeNeeded_5 : (
    let q : Nat := 11
    decide (q < 12) &&
    let off : Nat := 0x13FC
    decide (0x1000 ≤ off) &&
    decide (off < 0x1400) &&
    decide (off % 4 = 0)) = true := by decide

theorem witness_PrivilegeNeeded_6 : (
    let f : Nat := 69
    decide (f < 70)) = true := by decide

theorem witness_PrivilegeNeeded_7 : (
    let p : Nat := 7
    decide (p < 8)) = true := by decide

theorem witness_PrivilegeNeeded_8 : (
    let feed : Nat := 1
    let f : Nat := 69
    let sensor : Nat := 15
    let target : Nat := 2
    decide (feed < 2) &&
    decide (f < 70) &&
    decide (sensor < 16) &&
    decide (target < 3)) = true := by decide

theorem witness_PrivilegeNeeded_10 : (
    let a : Nat := 0x7801000000
    decide (0x7801000000 ≤ a) &&
    decide (a < 0x7802000000)) = true := by decide

theorem witness_TileRegisterWrites_0a : (
    let t : Nat := 0
    let s : State := { quietState with tiles := [(0, ({ csr := [(8, 16#32), (0x604, 7#32)], lpcOrd := 9 } : Tile))], parts := [(0, { state := 3, debug := false })] }
    decide (isTile t = true) &&
    decide (s.ctlCode t = none) &&
    decide (s.ctlReturns t = true) &&
    let p := s.tilePart t
    decide (s.quiescent p = true)) = true := by decide

theorem witness_TileRegisterWrites_1a : (
    let t : Nat := 0
    let s : State := { quietState with tiles := [(0, ({ regions := [(0, { size := 64 })] } : Tile))], parts := [(0, { state := 3, debug := false })] }
    let v : Word := 0x10000000#32
    decide (isTile t = true) &&
    decide (s.ctlCode t = none) &&
    decide (s.ctlReturns t = true) &&
    let x := s.tile t
    let p := s.tilePart t
    let off := 0x100
    decide (0x100 ≤ off) &&
    decide (off < 0x240) &&
    decide ((regAt tileRegs off).isSome = true) &&
    decide (s.quiescent p = true) &&
    let r := rgAfter (region x (rgOf off)) off v
    decide (r.ver = 0 ∨ (r.valid = true ∧ r.prod < 5 ∧ r.cons < 5))) = true := by decide

theorem witness_TileRegisterWrites_2a : (
    let t : Nat := 0
    let s : State := { quietState with tiles := [(0, ({ csr := [(8, 16#32), (0x700, 4#32)] } : Tile))], parts := [(0, { state := 3, debug := true })] }
    let v : Word := 6#32
    decide (isTile t = true) &&
    decide (s.ctlCode t = none) &&
    decide (s.ctlReturns t = true) &&
    let x := s.tile t
    let p := s.tilePart t
    decide (p < 8) &&
    decide ((s.part p).debug = true) &&
    decide (bit v 1 = bit (csrWord x 0x700) 1 ∨ s.quiescent p = true)) = true := by decide

theorem witness_TileRegisterWrites_3a : (
    let t : Nat := 0
    let s : State := { quietState with tiles := [(0, ({ csr := [(8, 16#32), (0x604, 7#32)], lpcOrd := 9 } : Tile))], parts := [(0, { state := 3, debug := false })] }
    let v : Word := 0xA2006040#32
    decide (isTile t = true) &&
    decide (s.ctlCode t = none) &&
    decide (s.ctlReturns t = true) &&
    let p := s.tilePart t
    let d : Nat := 255
    decide (d < 256) &&
    decide (s.quiescent p = true) &&
    decide (rdescBad v = false)) = true := by decide

theorem witness_TileRegisterWrites_4a : (
    let t : Nat := 0
    let s : State := { quietState with tiles := [(0, ({ csr := [(8, 16#32), (0x604, 7#32)], lpcOrd := 9 } : Tile))], parts := [(0, { state := 3, debug := false })] }
    decide (isTile t = true) &&
    decide (s.ctlCode t = none) &&
    decide (s.ctlReturns t = true) &&
    let x := s.tile t
    let p := s.tilePart t
    decide (s.quiescent p = true) &&
    decide (bit (csrWord x 0xB18) 2 = false)) = true := by decide

theorem witness_TileRegisterWrites_5a : (
    let t : Nat := 0
    let s : State := { quietState with tiles := [(0, ({ spd := [(98303, 7#32)] } : Tile))], parts := [(0, { state := 3, debug := false })] }
    decide (isTile t = true) &&
    decide (s.ctlCode t = none) &&
    decide (s.ctlReturns t = true) &&
    let x := s.tile t
    let a := tileAddr 0 0x5FFFC
    let off := 0x5FFFC
    decide (targetOf true a = .tile t off) &&
    decide (off % 4 = 0) &&
    decide (off < 0x60000) &&
    decide (goodWord x 6 none (off / 4) = true) &&
    decide (injKind x ≠ 1)) = true := by decide

theorem witness_TileRegisterWrites_6a : (
    let t : Nat := 0
    let s : State := { quietState with tiles := [(0, ({ csr := [(8, 16#32), (0x604, 7#32)], lpcOrd := 9 } : Tile))], parts := [(0, { state := 3, debug := false })] }
    decide (isTile t = true) &&
    decide (s.ctlCode t = none) &&
    decide (s.ctlReturns t = true) &&
    let a := tileAddr 0 0x5FFFC
    let off := 0x5FFFC
    decide (targetOf true a = .tile t off) &&
    decide (off % 4 = 0) &&
    decide (off < 0x60000)) = true := by decide

theorem witness_TileRegisterWrites_7a : (
    let t : Nat := 0
    let s : State := { quietState with tiles := [(0, ({ csr := [(8, 16#32), (0x604, 7#32)], lpcOrd := 9 } : Tile))], parts := [(0, { state := 3, debug := false })] }
    decide (isTile t = true) &&
    decide (s.ctlCode t = none) &&
    decide (s.ctlReturns t = true) &&
    let a := tileAddr 0 0x87FFC
    let off := 0x87FFC
    decide (targetOf true a = .tile t off) &&
    decide (off % 4 = 0) &&
    decide (0x80000 ≤ off) &&
    decide (off < 0x88000)) = true := by decide

theorem witness_TileRegisterWrites_8a : (
    let t : Nat := 0
    let s : State := { quietState with tiles := [(0, ({ csr := [(8, 16#32), (0x604, 7#32)], lpcOrd := 9 } : Tile))], parts := [(0, { state := 3, debug := false })] }
    decide (isTile t = true) &&
    decide (s.ctlCode t = none) &&
    decide (s.ctlReturns t = true) &&
    let a := tileAddr 0 0xC0000
    let off := 0xC0000
    decide (targetOf true a = .tile t off) &&
    decide (off % 4 = 0) &&
    decide (0xC0000 ≤ off) &&
    decide ((regAt tileRegs (off - 0xC0000)).isSome = true)) = true := by decide

theorem witness_ApertureMap_0a : (
    let t := 0
    let off := 0
    decide (isTile t = true) &&
    decide (off < 0x100000)) = true := by decide

theorem witness_ApertureMap_1a : (
    let f := 0
    let off := 0
    decide (f < 70) &&
    decide (off < 0x40000000)) = true := by decide

theorem witness_ApertureMap_2a : (
    let n := 0
    let off := 0
    decide (n < 48) &&
    decide (off < 0x10000000)) = true := by decide

theorem witness_ApertureMap_3a : (
    let q := 0
    let off := 0
    decide (q < 12) &&
    decide (off < 0x1000000)) = true := by decide

theorem witness_Routes_0a : (
    let f : Nat := 69
    decide (f < 70) &&
    let d : Nat := 0x46
    decide (d < 256) &&
    decide (0x46 ≤ d)) = true := by decide

theorem witness_Routes_1a : (
    let s : State := { State.reset with fields := (List.range 70).map fun k => (k, { power := 2, lock := true }), mod := { cc := { up := true } } }
    let f : Nat := 69
    decide (f < 70) &&
    let d : Nat := 0x45
    decide (d < 256) &&
    let v : Word := 0x00F44800#32
    decide (d < 0x46) &&
    decide (s.anyOld = false) &&
    decide ((bits v 19 16 ≤ 4 ∨ bits v 19 16 = 15)) &&
    decide ((bits v 15 12 ≤ 4 ∨ bits v 15 12 = 15))) = true := by decide

theorem witness_Routes_2a : (
    let f : Nat := 69
    decide (f < 70)) = true := by decide

theorem witness_Routes_3a : (
    let s : State := { withTile { tileOn with rtr := { bufs := [(3, [({ vc := 0, dest := 0, body := .ack 1 0 false } : Flit)])] } } with mod := { cc := { up := true, swap := true } } }
    decide (s.mod.cc.up = true) &&
    decide (s.mod.cc.swap = true) &&
    decide (s.flitsLeft = true)) = true := by decide

theorem witness_Routes_4a : (
    let s : State := { withTile tileOn with mod := { cc := { up := true, swap := true } } }
    decide (s.mod.cc.up = true) &&
    decide (s.mod.cc.swap = true) &&
    decide (s.flitsLeft = false)) = true := by decide

theorem witness_Injections_0 : (
    let s : State := { withTile { tileOn with csr := [(8, 16#32)] } with parts := [(0, { state := 3, debug := true })] }
    let t : Nat := 0
    let arg : Nat := 131071
    let b : Nat := 31
    let port : Nat := 4
    decide (isTile t = true) &&
    decide (s.ctlCode t = none) &&
    decide (s.ctlReturns t = true) &&
    decide (s.injectable (s.tilePart t) = true) &&
    decide (s.canonical = true) &&
    decide (arg < 2 ^ 17) &&
    decide (b < 32) &&
    decide (1 ≤ port) &&
    decide (port ≤ 4)) = true := by decide

theorem witness_Injections_3 : (
    let s : State := { withTile { tileOn with csr := [(8, 16#32)] } with parts := [(0, { state := 3, debug := true })] }
    let t : Nat := 0
    let arg : Nat := 131071
    let b : Nat := 31
    let port : Nat := 4
    decide (isTile t = true) &&
    decide (s.ctlCode t = none) &&
    decide (s.ctlReturns t = true) &&
    decide (s.injectable (s.tilePart t) = true) &&
    decide (s.canonical = true) &&
    decide (arg < 2 ^ 17) &&
    decide (b < 32) &&
    decide (1 ≤ port) &&
    decide (port ≤ 4) &&
    decide (s.tilePart t < 8) &&
    decide ((s.part (s.tilePart t)).debug = true)) = true := by decide

theorem witness_Injections_4 : (
    let s : State := { withTile { tileOn with csr := [(8, 16#32)] } with parts := [(0, { state := 3, debug := true })] }
    let t : Nat := 0
    let arg : Nat := 98303
    let b : Nat := 31
    let port : Nat := 4
    decide (isTile t = true) &&
    decide (s.ctlCode t = none) &&
    decide (s.ctlReturns t = true) &&
    decide (s.injectable (s.tilePart t) = true) &&
    decide (s.canonical = true) &&
    decide (arg < 2 ^ 17) &&
    decide (b < 32) &&
    decide (1 ≤ port) &&
    decide (port ≤ 4) &&
    decide (arg < 98304)) = true := by decide

theorem witness_Injections_5 : (
    let s : State := { State.reset with sites := [(47, { csr := [(4, 0#32)] })], parts := [(0, { state := 3, debug := true })] }
    let n : Nat := 47
    let unit : Nat := 268435455
    let count : Nat := 2
    let temp : Nat := 255
    decide (n < 48) &&
    decide (s.canonical = true) &&
    decide (s.injectable (s.site n).owner = true) &&
    decide (unit < 2 ^ 28) &&
    decide (1 ≤ count) &&
    decide (count ≤ 2) &&
    decide (temp < 256)) = true := by decide

theorem witness_Injections_8 : (
    let s : State := { withTile { tileOn with csr := [(8, 16#32)] } with parts := [(0, { state := 3, debug := true })] }
    let q : Nat := 11
    let lane : Nat := 8
    let count : Nat := 255
    decide (q < 12) &&
    decide (lane < 9) &&
    decide (1 ≤ count) &&
    decide (count < 256) &&
    decide (s.injectable (s.portOwner q) = true)) = true := by decide

theorem witness_Injections_9 : (
    let s : State := { State.reset with fields := [(69, { power := 2 })] }
    let f : Nat := 69
    let sensor : Nat := 15
    let target : Nat := 2
    let feed : Nat := 1
    let value : Nat := 65535
    let dur : Nat := 9
    decide (Map.wf (regReset modRegs) s.mod.csr = true) &&
    decide (f < 70) &&
    decide (sensor < 16) &&
    decide (target < 3) &&
    decide (feed < 2) &&
    ([(Instr.ezInjFeedVoltage true feed value dur, 1, feed, 0, value), (.ezInjSensorReading true f sensor value dur, 2, f, sensor, value),
               (.ezInjSensorInvalid true f sensor dur, 3, f, sensor, 0), (.ezInjCoolant true target value dur, 6, target, 0, value)].all fun e =>
    decide (s.ezInjectable e.2.1 e.2.2.1 = true))) = true := by decide

theorem witness_Injections_10 : (
    let s : State := { State.reset with fields := [(69, { power := 2 })] }
    let f : Nat := 69
    let sensor : Nat := 15
    let target : Nat := 2
    let feed : Nat := 1
    decide (Map.wf (regReset modRegs) s.mod.csr = true) &&
    decide (f < 70) &&
    decide (sensor < 16) &&
    decide (target < 3) &&
    decide (feed < 2) &&
    decide (s.ezInjectable 5 f = true)) = true := by decide

theorem witness_Injections_11 : (
    let s : State := { State.reset with fields := [(69, { power := 2 })] }
    let f : Nat := 69
    let sensor : Nat := 15
    let target : Nat := 2
    let feed : Nat := 1
    decide (Map.wf (regReset modRegs) s.mod.csr = true) &&
    decide (f < 70) &&
    decide (sensor < 16) &&
    decide (target < 3) &&
    decide (feed < 2) &&
    decide (s.ezInjectable 4 f = true)) = true := by decide

theorem witness_SelfTests_0 : (
    let t : Nat := 0
    let s : State := { quietState with tiles := [(0, ({ csr := [(8, 16#32)], regions := [(0, { ver := 1, resident := true, size := 600, prod := 3, cons := 2 })] } : Tile))] }
    decide (isTile t = true) &&
    decide (s.canonical = true) &&
    let x := s.tile t
    decide (s.ctlCode t = none) &&
    decide (s.ctlReturns t = true) &&
    decide (runBit x = false) &&
    decide (fpGroups x ≠ []) &&
    decide (bit (csrWord x 0xB18) 2 = false)) = true := by decide

theorem witness_SelfTests_1 : (
    let t : Nat := 0
    let s : State := { quietState with tiles := [(0, ({ csr := [(8, 16#32)], regions := [(0, { ver := 1, resident := true, size := 600, prod := 3, cons := 2 })] } : Tile))] }
    decide (isTile t = true) &&
    decide (s.canonical = true) &&
    let x := s.tile t
    decide (s.ctlCode t = none) &&
    decide (s.ctlReturns t = true) &&
    decide (runBit x = false)) = true := by decide

theorem witness_SelfTests_2 : (
    let t : Nat := 0
    let s : State := { quietState with tiles := [(0, ({ fpLeft := 2, csr := [(8, 16#32), (0xB18, 4#32)], regions := [(0, { ver := 1, resident := true, size := 600, prod := 3, cons := 2 })] } : Tile))], sites := [(0, ({ state := 2, csr := [(4, 0#32)] } : Site).putBytes 2560 (leBytes (fingerprint []).toNat 8))] }
    decide (isTile t = true) &&
    decide (s.canonical = true) &&
    let x := s.tile t
    decide ((s.field (fieldOf t)).power = 2) &&
    decide (runBit x = false) &&
    decide (bit (csrWord x 0xB18) 2 = true) &&
    let k := bits (csrWord x 0xB18) 23 8 % (fpGroups x).length
    let g := ((fpGroups x)[0]?.getD { rg := 0, grp := 0, words := [], wordsAt := 0, sumAt := 0 })
    let u := (s.fpCheck t g).1
    decide ((fpGroups x)[k]? = some g) &&
    decide (s.fpCheck t g = (u, true)) &&
    decide (1 < (u.tile t).fpLeft)) = true := by decide +kernel

theorem witness_SelfTests_3 : (
    let t : Nat := 0
    let s : State := { quietState with tiles := [(0, ({ fpLeft := 2, csr := [(8, 16#32), (0xB18, 4#32)], regions := [(0, { ver := 1, resident := true, size := 600, prod := 3, cons := 2 })] } : Tile))], sites := [(0, ({ state := 2, csr := [(4, 0#32)] } : Site).putBytes 2560 (leBytes (fingerprint []).toNat 8))] }
    decide (isTile t = true) &&
    decide (s.canonical = true) &&
    let x := s.tile t
    let g : FpGroup := ((fpGroups x)[0]?.getD { rg := 0, grp := 0, words := [], wordsAt := 0, sumAt := 0 })
    let s1 : State := (s.fpPull t g.sumAt 8).1
    let s2 : State := (s1.fpMatches t g (ofLeBytes ((s.fpPull t g.sumAt 8).2.getD []))).1
    let b : List Byte := ((s.fpPull t g.sumAt 8).2.getD [])
    let hit : Bool := (s1.fpMatches t g (ofLeBytes ((s.fpPull t g.sumAt 8).2.getD []))).2.2
    decide (s.fpPull t g.sumAt 8 = (s1, some b)) &&
    decide (s1.fpMatches t g (ofLeBytes b) = (s2, true, hit))) = true := by decide +kernel

theorem witness_SelfTests_4 : (
    let s : State := { State.reset with fields := [(69, { power := 2, csr := [(0x20, 0#32)] })], mod := { State.reset.mod with pow := { windows := [20000] } } }
    let f : Nat := 69
    decide (f < 70) &&
    decide (testBusy (s.field f) = false) &&
    ([(1, Instr.fieldLogicTest true f), (2, .fieldLinkTest true f), (3, .rateCalibration true f)].all fun e =>
    decide (s.testable f = true) &&
    decide (s.testAllowed f = true))) = true := by decide

theorem witness_SelfTests_5 : (
    let s : State := { State.reset with fields := [(69, { power := 2, csr := [(0x20, 0#32)] })], mod := { State.reset.mod with pow := { windows := [20000] } } }
    let f : Nat := 69
    decide (f < 70) &&
    decide (testBusy (s.field f) = false)) = true := by decide

theorem witness_SelfTests_6a : (
    let f : Nat := 69
    decide (f < 70)) = true := by decide

theorem witness_SelfTests_7a : (
    let s : State := { State.reset with fields := [(69, { power := 2, csr := [(0x20, 0x02000004#32)] })], mod := { State.reset.mod with pow := { windows := [20000] } } }
    let f : Nat := 69
    decide (f < 70) &&
    decide (testBusy (s.field f) = true) &&
    let x := s.field f
    let k := 2
    decide (bits (x.csrWord 0x20) 27 24 = k) &&
    decide (k = 2 ∨ k = 3) &&
    let u := 6
    let c := 35
    let r := 47
    decide (1 ≤ u) &&
    decide (u ≤ 6) &&
    decide (c < 36) &&
    decide (r < 48)) = true := by decide

theorem witness_SelfTests_8a : (
    let s : State := { State.reset with fields := [(69, { power := 2, csr := [(0x20, 0x02000004#32)] })], mod := { State.reset.mod with pow := { windows := [20000] } } }
    let f : Nat := 69
    decide (f < 70) &&
    decide (testBusy (s.field f) = true) &&
    let x := s.field f
    let k := 2
    decide (bits (x.csrWord 0x20) 27 24 = k) &&
    decide (k = 2 ∨ k = 3)) = true := by decide

theorem witness_SelfTests_9 : (
    let s : State := { State.reset with fields := [(69, { power := 2, csr := [(0x20, 0x04000004#32)], marked := [3] })], mod := { State.reset.mod with pow := { windows := [20000] } } }
    let f : Nat := 69
    decide (f < 70) &&
    decide (testBusy (s.field f) = true) &&
    let x := s.field f
    decide (bits (x.csrWord 0x20) 27 24 = 4) &&
    let i : Nat := 15
    decide (i < 16) &&
    decide (i ∉ x.marked)) = true := by decide

theorem witness_SelfTests_10 : (
    let s : State := { State.reset with fields := [(69, { power := 2, csr := [(0x20, 0x04000004#32)] })], mod := { State.reset.mod with pow := { windows := [20000] } } }
    let f : Nat := 69
    decide (f < 70) &&
    decide (testBusy (s.field f) = true) &&
    let x := s.field f
    decide (bits (x.csrWord 0x20) 27 24 = 4)) = true := by decide

theorem witness_SelfTests_11 : (
    let s : State := { State.reset with mod := { cc := { up := true } }, sites := [(47, { state := 2, dirty := true, m := { mem := [(3, 5#8)] } })] }
    let n : Nat := 47
    decide (n < 48) &&
    let x := s.site n
    decide (s.mod.cc.up = true) &&
    decide (x.dirty = true) &&
    decide (x.owner = 15) &&
    decide (x.wiping = false) &&
    decide (x.state = 2)) = true := by decide

theorem witness_Judgements_0 : (
    let s : State := { State.reset with fields := [(0, { power := 2 })], mod := { cc := { up := true }, log := { ring := [(3, ({ time := 0#64, seqno := 5, source := 2, cls := 1, part := 0, flags := 1, loc := 0, offset := 0, code := 0, addr := 0, phys := 37, detail := [] } : LogRec))] } } }
    decide (s.mod.cc.up = true) &&
    let r : LogRec := ({ time := 0#64, seqno := 5, source := 2, cls := 1, part := 0, flags := 1, loc := 0, offset := 0, code := 0, addr := 0, phys := 37, detail := [] } : LogRec)
    let n : Nat := 5
    let k : Nat := 3
    decide ((s.mod.log.ring.find? fun x => x.2.seqno = n) = some (k, r)) &&
    decide (r.loc < 2 ^ 28) &&
    decide (r.source = 0x02) &&
    decide (r.cls = 1) &&
    decide (r.phys / 1728 < 70) &&
    decide ((s.field (r.phys / 1728)).power = 2)) = true := by decide

theorem witness_Judgements_1 : (
    let s : State := { State.reset with fields := [(0, { power := 2 })], mod := { cc := { up := true } } }
    decide (s.mod.cc.up = true) &&
    let phys : Nat := 37
    let f := phys / 1728
    decide (f < 70) &&
    decide (s.good f = true) &&
    decide (bits (s.mapEntry f (phys % 1728)) 31 29 ≠ 2) &&
    decide ((s.field f).respare = []) &&
    decide (s.spareUsed f = false) &&
    decide (phys % 36 ≠ bits (s.mapSum f) 5 0)) = true := by decide

theorem witness_Judgements_2 : (
    let s : State := { State.reset with fields := [(0, { respare := [(37, 2), (73, 3)] })], mod := { cc := { up := true } } }
    decide (s.mod.cc.up = true) &&
    let f : Nat := 0
    decide (f < 70) &&
    let y : Nat × Nat := (37, 2)
    let l : List (Nat × Nat) := [(73, 3)]
    decide ((s.field f).respare = y :: l) &&
    decide ((s.field f).power = 0) &&
    decide (s.good f = true) &&
    decide (s.quiescent (s.fieldOwner f) = true) &&
    decide ((s.field f).retire = false)) = true := by decide

theorem witness_Judgements_3 : (
    let s : State := { State.reset with fields := [(0, { power := 0 })], mod := { cc := { up := true } } }
    decide (s.mod.cc.up = true) &&
    let f : Nat := 0
    decide (f < 70) &&
    let i : Nat := 1727
    let w : Word := 0x40000000#32
    let bad : Nat := 255
    let byp : Nat := 35
    decide (i < 1728) &&
    decide (bits w 31 29 ≠ 5) &&
    decide (bad < 256) &&
    decide (byp < 64) &&
    let s0 := s.closeJournal
    decide (bits (s0.mapSum f) 7 6 = 0)) = true := by decide

theorem witness_Judgements_4a : (
    let s : State := { State.reset with fields := [(0, { power := 2 })], mod := { cc := { up := true } } }
    decide (s.mod.cc.up = true) &&
    let o : Nat := 483836
    decide (o < 0x80000) &&
    decide (pregExists o = true) &&
    decide (s.wear o + 1 ≤ 1000000) &&
    decide (s.wear o + 1 ≠ 900000)) = true := by decide

theorem witness_Judgements_5a : (
    let s : State := { State.reset with fields := [(0, { power := 2 })], mod := { cc := { up := true }, wear := [(483836, 999998)] } }
    decide (s.mod.cc.up = true) &&
    let o : Nat := 483836
    decide (o < 0x80000) &&
    decide (pregExists o = true) &&
    decide (s.wear o + 1 ≤ 1000000)) = true := by decide

theorem witness_Judgements_6a : (
    let s : State := { State.reset with fields := [(0, { power := 2 })], mod := { cc := { up := true, suspects := [{ phys := 37, hits := [(2, 5#64)] }] } } } 
    decide (s.mod.cc.up = true)) = true := by decide

theorem witness_HostRuns_0 : (
    let s : State := hosted { state := 5, job := some mani0, bins := [bin0], fmap := List.range 70 }
    decide (s.mod.cc.up = true) &&
    decide (s.canonical = true) &&
    let p : Nat := 0
    decide (p < 8) &&
    let m := mani0
    decide ((s.part p).state = 5) &&
    decide ((s.part p).job = some m) &&
    let fmap := if m.fmap.isEmpty then List.range 70 else m.fmap
    decide (((s.part p).bins.all fun b => (mappedFields b fmap).all fun f => s.live f && s.reachable f) = true)) = true := by decide

theorem witness_HostRuns_1 : (
    let s : State := hosted { state := 1 }
    decide (s.mod.cc.up = true) &&
    decide (s.canonical = true) &&
    let h : Hdr := { session := 1, part := 1, tag := 3 }
    let x : Session := sess0
    decide ((s.mod.cc.sessions.find? fun y => y.id = h.session) = some x) &&
    decide ((∀ i : Nat, x.port = some i → (s.port i).ether = true ∧ (s.port i).state = 2)) &&
    let p := h.part
    let mine : Bool := decide (x.part = p ∧ ∀ i : Nat, x.port = some i → s.portOwner i = p)
    decide (¬ mine)) = true := by decide

theorem witness_HostRuns_2 : (
    let s : State := { hosted { state := 1 } with mod := { (hosted {}).mod with ready := true } }
    decide (s.mod.cc.up = true) &&
    decide (s.canonical = true) &&
    let h : Hdr := { session := 1, part := 0, tag := 65535 }
    let x : Session := sess0
    decide ((s.mod.cc.sessions.find? fun y => y.id = h.session) = some x) &&
    decide ((∀ i : Nat, x.port = some i → (s.port i).ether = true ∧ (s.port i).state = 2)) &&
    let p := h.part
    let mine : Bool := decide (x.part = p ∧ ∀ i : Nat, x.port = some i → s.portOwner i = p)
    decide (mine) &&
    let m : Manifest := { mani0 with fields := [1] }
    decide (s.mod.ready = true) &&
    let r := 3
    let c := 0
    let k := 0
    let i := 0
    decide (s.manifestBad p m = some (r, c, k, i))) = true := by decide

theorem witness_HostRuns_4 : (
    let s : State := hosted { state := 2, job := some mani0, bins := [bin0], fmap := List.range 70 }
    decide (s.mod.cc.up = true) &&
    decide (s.canonical = true) &&
    let h : Hdr := { session := 1, part := 0, tag := 65535 }
    let x : Session := sess0
    decide ((s.mod.cc.sessions.find? fun y => y.id = h.session) = some x) &&
    decide ((∀ i : Nat, x.port = some i → (s.port i).ether = true ∧ (s.port i).state = 2)) &&
    let p := h.part
    let q := s.part p
    let mine : Bool := decide (x.part = p ∧ ∀ i : Nat, x.port = some i → s.portOwner i = p)
    decide (mine) &&
    let r : RunReq := req0
    decide (q.state = 2) &&
    decide (q.job.isSome = true) &&
    decide (q.run = none) &&
    decide (r.bin < q.bins.length)) = true := by decide

theorem witness_HostRuns_5 : (
    let s : State := hosted { state := 3, wdog := true, job := some mani0, bins := [bin0], fmap := List.range 70, run := some { req := req0 } }
    decide (s.mod.cc.up = true) &&
    decide (s.canonical = true) &&
    let h : Hdr := { session := 1, part := 0, tag := 65535 }
    let x : Session := sess0
    decide ((s.mod.cc.sessions.find? fun y => y.id = h.session) = some x) &&
    decide ((∀ i : Nat, x.port = some i → (s.port i).ether = true ∧ (s.port i).state = 2)) &&
    let p := h.part
    let q := s.part p
    let mine : Bool := decide (x.part = p ∧ ∀ i : Nat, x.port = some i → s.portOwner i = p)
    decide (mine) &&
    let r := { req := req0 }
    decide (q.run = some r) &&
    decide (q.busy = true)) = true := by decide

theorem witness_HostRuns_6 : (
    let s : State := { (hosted { state := 3, wdog := true, job := some mani0, bins := [bin0], fmap := List.range 70, run := some { req := req0 } }) with tiles := [(0, tileOn)] }
    decide (s.mod.cc.up = true) &&
    decide (s.canonical = true) &&
    let h : Hdr := { session := 1, part := 0, tag := 65535 }
    let x : Session := sess0
    decide ((s.mod.cc.sessions.find? fun y => y.id = h.session) = some x) &&
    decide ((∀ i : Nat, x.port = some i → (s.port i).ether = true ∧ (s.port i).state = 2)) &&
    let p := h.part
    let q := s.part p
    let mine : Bool := decide (x.part = p ∧ ∀ i : Nat, x.port = some i → s.portOwner i = p)
    decide (mine) &&
    decide (q.state ≠ 5) &&
    decide (s.quiescent p = false ∨ q.state = 4)) = true := by decide

theorem witness_HostRuns_7 : (
    let s : State := hosted { state := 5, loadTag := 3, job := some mani0, bins := [bin0], fmap := List.range 70 }
    decide (s.mod.cc.up = true) &&
    decide (s.canonical = true) &&
    let h : Hdr := { session := 1, part := 0, tag := 65535 }
    let x : Session := sess0
    decide ((s.mod.cc.sessions.find? fun y => y.id = h.session) = some x) &&
    decide ((∀ i : Nat, x.port = some i → (s.port i).ether = true ∧ (s.port i).state = 2)) &&
    let p := h.part
    let q := s.part p
    let mine : Bool := decide (x.part = p ∧ ∀ i : Nat, x.port = some i → s.portOwner i = p)
    decide (mine) &&
    decide (q.state = 5)) = true := by decide

theorem witness_HostRuns_8a : (
    let s : State := hosted { state := 1 }
    decide (s.mod.cc.up = true) &&
    decide (s.canonical = true) &&
    let h : Hdr := { session := 1, part := 0, tag := 65535 }
    let x : Session := sess0
    decide ((s.mod.cc.sessions.find? fun y => y.id = h.session) = some x) &&
    decide ((∀ i : Nat, x.port = some i → (s.port i).ether = true ∧ (s.port i).state = 2)) &&
    let p := h.part
    let q := s.part p
    let mine : Bool := decide (x.part = p ∧ ∀ i : Nat, x.port = some i → s.portOwner i = p)
    decide (mine) &&
    decide (s.quiescent p = true) &&
    decide (q.state ≠ 4) &&
    decide (q.state ≠ 5)) = true := by decide

theorem witness_HostRuns_9a : (
    let s : State := hosted { state := 3, job := some mani0, bins := [bin0], fmap := List.range 70 }
    decide (s.mod.cc.up = true) &&
    decide (s.canonical = true) &&
    let h : Hdr := { session := 1, part := 0, tag := 65535 }
    let x : Session := sess0
    decide ((s.mod.cc.sessions.find? fun y => y.id = h.session) = some x) &&
    decide ((∀ i : Nat, x.port = some i → (s.port i).ether = true ∧ (s.port i).state = 2)) &&
    let p := h.part
    let mine : Bool := decide (x.part = p ∧ ∀ i : Nat, x.port = some i → s.portOwner i = p)
    decide (mine) &&
    decide (s.dsite p < 48)) = true := by decide

theorem witness_HostRequests_0 : (
    let s : State := hosted { state := 3, job := some mani0, bins := [bin0], fmap := List.range 70, run := some { req := req0 } }
    decide (s.mod.cc.up = true) &&
    decide (s.canonical = true) &&
    let h : Hdr := { session := 1, part := 0, tag := 65535 }
    let x : Session := sess0
    decide ((s.mod.cc.sessions.find? fun y => y.id = h.session) = some x) &&
    decide (x.part = h.part) &&
    decide ((∀ i : Nat, x.port = some i → (s.port i).ether = true ∧ (s.port i).state = 2 ∧ s.portOwner i = x.part)) &&
    let p := h.part
    let q := s.part p
    decide (q.run.isSome = true)) = true := by decide

theorem witness_HostRequests_1 : (
    let s : State := hosted { state := 2, job := some mani0, bins := [bin0], fmap := List.range 70 }
    decide (s.mod.cc.up = true) &&
    decide (s.canonical = true) &&
    let h : Hdr := { session := 1, part := 0, tag := 65535 }
    let x : Session := sess0
    decide ((s.mod.cc.sessions.find? fun y => y.id = h.session) = some x) &&
    decide (x.part = h.part) &&
    decide ((∀ i : Nat, x.port = some i → (s.port i).ether = true ∧ (s.port i).state = 2 ∧ s.portOwner i = x.part)) &&
    let p := h.part
    let q := s.part p
    decide (q.run = none) &&
    decide (s.exporters p = [])) = true := by decide

theorem witness_HostRequests_2 : (
    let s : State := hosted { state := 2, job := some mani0, bins := [bin0], fmap := List.range 70 }
    decide (s.mod.cc.up = true) &&
    decide (s.canonical = true) &&
    let h : Hdr := { session := 1, part := 0, tag := 65535 }
    let x : Session := sess0
    decide ((s.mod.cc.sessions.find? fun y => y.id = h.session) = some x) &&
    decide (x.part = h.part) &&
    decide ((∀ i : Nat, x.port = some i → (s.port i).ether = true ∧ (s.port i).state = 2 ∧ s.portOwner i = x.part)) &&
    let p := h.part
    let q := s.part p
    decide (q.job.isSome = true) &&
    decide (q.run = none) &&
    decide (q.state = 2 ∨ q.state = 6) &&
    decide (s.quiescent p = true)) = true := by decide

theorem witness_HostRequests_3 : (
    let s : State := hosted { state := 2, job := some mani0, bins := [bin0], fmap := List.range 70 }
    decide (s.mod.cc.up = true) &&
    decide (s.canonical = true) &&
    let h : Hdr := { session := 1, part := 0, tag := 65535 }
    let x : Session := sess0
    decide ((s.mod.cc.sessions.find? fun y => y.id = h.session) = some x) &&
    decide (x.part = h.part) &&
    decide ((∀ i : Nat, x.port = some i → (s.port i).ether = true ∧ (s.port i).state = 2 ∧ s.portOwner i = x.part)) &&
    let p := h.part
    let cap : Nat := 115
    let c := min cap (s.conf p).maxCap
    let least := 66 * (s.fieldsOf p).length + 50 * (s.sitesOf p).length
    decide (c < least)) = true := by decide

theorem witness_HostRequests_4a : (
    let s : State := hosted { state := 2, job := some mani0, bins := [bin0], fmap := List.range 70 }
    decide (s.mod.cc.up = true) &&
    decide (s.canonical = true) &&
    let h : Hdr := { session := 1, part := 0, tag := 65535 }
    let x : Session := sess0
    decide ((s.mod.cc.sessions.find? fun y => y.id = h.session) = some x) &&
    decide (x.part = h.part) &&
    decide ((∀ i : Nat, x.port = some i → (s.port i).ether = true ∧ (s.port i).state = 2 ∧ s.portOwner i = x.part)) &&
    let p := h.part
    let cap : Nat := 116
    let c := min cap (s.conf p).maxCap
    let least := 66 * (s.fieldsOf p).length + 50 * (s.sitesOf p).length
    decide (least ≤ c)) = true := by decide

theorem witness_HostRequests_5a : (
    let s : State := hosted { state := 2, job := some mani0, bins := [bin0], fmap := List.range 70 }
    decide (s.mod.cc.up = true) &&
    decide (s.canonical = true) &&
    let h : Hdr := { session := 1, part := 0, tag := 65535 }
    let x : Session := sess0
    decide ((s.mod.cc.sessions.find? fun y => y.id = h.session) = some x) &&
    decide (x.part = h.part) &&
    decide ((∀ i : Nat, x.port = some i → (s.port i).ether = true ∧ (s.port i).state = 2 ∧ s.portOwner i = x.part)) &&
    let p := h.part
    let a : Nat := 255
    let l : List Byte := [5#8, 6#8]
    decide (l.length + 8 ≤ 2 ^ 20) &&
    decide (s.holds p a l.length = true)) = true := by decide

theorem witness_HostRequests_6a : (
    let s : State := hosted { state := 2, job := some mani0, bins := [bin0], fmap := List.range 70 }
    decide (s.mod.cc.up = true) &&
    decide (s.canonical = true) &&
    let h : Hdr := { session := 1, part := 0, tag := 65535 }
    let x : Session := sess0
    decide ((s.mod.cc.sessions.find? fun y => y.id = h.session) = some x) &&
    decide (x.part = h.part) &&
    decide ((∀ i : Nat, x.port = some i → (s.port i).ether = true ∧ (s.port i).state = 2 ∧ s.portOwner i = x.part)) &&
    let p := h.part
    let a : Nat := hbmEnd - 1
    let l : List Byte := [5#8, 6#8]
    decide (l.length + 8 ≤ 2 ^ 20) &&
    decide (s.holds p a l.length = false)) = true := by decide

theorem witness_HostRequests_7 : (
    let s : State := hosted { state := 2, job := some mani0, bins := [bin0], fmap := List.range 70 }
    decide (s.mod.cc.up = true) &&
    decide (s.canonical = true) &&
    let h : Hdr := { session := 1, part := 0, tag := 65535 }
    let x : Session := sess0
    decide ((s.mod.cc.sessions.find? fun y => y.id = h.session) = some x) &&
    decide (x.part = h.part) &&
    decide ((∀ i : Nat, x.port = some i → (s.port i).ether = true ∧ (s.port i).state = 2 ∧ s.portOwner i = x.part))) = true := by decide

theorem witness_HostRequests_8 : (
    let s : State := { State.reset with mod := { cc := { up := true, conf := [(0, { known := true, cert := 7 })] } } }
    decide (s.mod.cc.up = true) &&
    decide (s.canonical = true) &&
    let cert : Nat := 7
    let port : Nat := 12
    let p : Nat := 0
    decide (12 ≤ port) &&
    decide (cert ≠ 0) &&
    decide (((List.range 8).find? fun k => (s.conf k).known && decide ((s.conf k).cert = cert)) = some p)) = true := by decide

theorem witness_HostRequests_9 : (
    let s : State := { State.reset with ports := [(11, { state := 2, csr := [(0, 0x00000001#32)] })], mod := { cc := { up := true } } }
    decide (s.mod.cc.up = true) &&
    decide (s.canonical = true) &&
    let port : Nat := 11
    decide (port < 12) &&
    decide ((s.port port).ether = true) &&
    decide ((s.port port).state = 2) &&
    decide (s.portOwner port < 8)) = true := by decide

theorem witness_HostRequests_10a : (
    let s : State := hosted { state := 2, job := some mani0, bins := [bin0], fmap := List.range 70 }
    decide (s.mod.cc.up = true) &&
    decide (s.canonical = true) &&
    let port : Nat := 12
    decide (12 ≤ port)) = true := by decide

theorem witness_HostRequests_11 : (
    let s : State := { (hosted { state := 3 }) with tiles := [(0, { event := some { code := 0x100, value := 5#64, posted := true } })], mod := { cc := { up := true, mail := [(0, [{ tile := 0, code := 0x100, value := 5#64 }, { tile := 1, code := 3 }])] } } }
    decide (s.mod.cc.up = true) &&
    decide (s.canonical = true) &&
    let ring : Nat := 0
    let e : Mail := { tile := 0, code := 0x100, value := 5#64 }
    let l : List Mail := [{ tile := 1, code := 3 }]
    decide (ring ≤ 8) &&
    decide (takeEvent (s.mailOf ring) = some (e, l)) &&
    decide (0x100 ≤ e.code) &&
    decide (s.eventAnswered e.tile = true)) = true := by decide

theorem witness_Invocations_0 : (
    let s : State := { (hosted { state := 3, job := some mani0, bins := [bin0], fmap := List.range 70, run := some { req := req0 } }) with fields := [(0, { csr := [(4, 0#32)] })] }
    decide (s.mod.cc.up = true) &&
    decide (s.canonical = true) &&
    let p : Nat := 0
    decide (p < 8) &&
    let m := mani0
    let r := { req := req0 }
    let b := bin0
    let q := s.part p
    decide (q.job = some m) &&
    decide (q.run = some r) &&
    decide (q.binary = some b) &&
    decide (q.state = 3) &&
    decide (q.quiet = false) &&
    decide (r.over = false) &&
    decide (s.mayInvoke p = true) &&
    decide (s.swapDue p = false) &&
    decide (s.changeDue p = false) &&
    decide (s.lostFields b q.fmap ≠ []) &&
    decide (q.waiting = false)) = true := by decide

theorem witness_Invocations_1 : (
    let s : State := hosted { state := 3, job := some mani0, bins := [bin0], fmap := List.range 70, run := some { req := { req0 with seqs := [] } } }
    decide (s.mod.cc.up = true) &&
    decide (s.canonical = true) &&
    let p : Nat := 0
    decide (p < 8) &&
    let m := mani0
    let r := { req := { req0 with seqs := [] } }
    let b := bin0
    let q := s.part p
    decide (q.job = some m) &&
    decide (q.run = some r) &&
    decide (q.binary = some b) &&
    decide (q.state = 3) &&
    decide (q.quiet = false) &&
    decide (r.over = false) &&
    decide (s.mayInvoke p = true) &&
    decide (s.swapDue p = false) &&
    decide (s.changeDue p = false) &&
    decide (s.lostFields b q.fmap = []) &&
    let k := 1
    decide (tableBad (tablesFor m q.phase) (isRollout m q r.req) r.req = some k)) = true := by decide

theorem witness_Invocations_2 : (
    let s : State := hosted { state := 3, job := some mani0, bins := [bin0], fmap := List.range 70, run := some { req := req0 } }
    decide (s.mod.cc.up = true) &&
    decide (s.canonical = true) &&
    let p : Nat := 0
    decide (p < 8) &&
    let m := mani0
    let r := { req := req0 }
    let b := bin0
    let q := s.part p
    decide (q.job = some m) &&
    decide (q.run = some r) &&
    decide (q.binary = some b) &&
    decide (q.state = 3) &&
    decide (q.quiet = false) &&
    decide (r.over = false) &&
    decide (s.mayInvoke p = true) &&
    decide (s.swapDue p = false) &&
    decide (s.changeDue p = false) &&
    decide (s.lostFields b q.fmap = []) &&
    decide (tableBad (tablesFor m q.phase) (isRollout m q r.req) r.req = none)) = true := by decide

theorem witness_Invocations_3 : (
    let s : State := hosted { state := 3, job := some mani0, bins := [bin0], fmap := List.range 70, run := some { req := req0 } }
    decide (s.mod.cc.up = true) &&
    decide (s.canonical = true) &&
    let i : Nat := 1
    decide (i < 32)) = true := by decide

theorem witness_Invocations_4 : (
    let s : State := hosted { state := 3, job := some mani0, bins := [bin0], fmap := List.range 70, run := some { req := req0 } }
    decide (s.mod.cc.up = true) &&
    decide (s.canonical = true)) = true := by decide

theorem witness_Invocations_5 : (
    let s : State := { hosted { state := 3 } with tiles := [(0, { seq := .ending, fault := true })] }
    decide (s.mod.cc.up = true) &&
    decide (s.canonical = true) &&
    let t : Nat := 0
    decide (s.tileOn t = true) &&
    let x := s.tile t
    decide (x.seq = .ending) &&
    decide (queuesEmpty x = true) &&
    decide (pend x.ope = 0) &&
    decide (pendingScalars x = []) &&
    decide ((s.part (s.tilePart t)).wdog = false ∨ (s.part (s.tilePart t)).step = true)) = true := by decide

theorem witness_Invocations_6 : (
    let s : State := hosted { state := 3, job := some { mani0 with flags := 4 }, bins := [bin0, bin0], fmap := List.range 70, run := some { req := { req0 with bin := 1 } } }
    decide (s.mod.cc.up = true) &&
    decide (s.canonical = true) &&
    let p : Nat := 0
    decide (p < 8) &&
    let m := { mani0 with flags := 4 }
    let a := bin0
    let b := bin0
    let q := s.part p
    decide (q.job = some m) &&
    decide (q.binary = some a) &&
    decide (q.bins[1 - q.phase]? = some b) &&
    decide (q.state = 3) &&
    decide (s.quiescent p = true) &&
    decide (q.busy = false) &&
    decide (s.swapDue p = true)) = true := by decide

theorem witness_Invocations_8 : (
    let s : State := hosted { state := 2, job := some mani0, bins := [bin0], fmap := List.range 70, run := some { req := req0 } }
    decide (s.mod.cc.up = true) &&
    decide (s.canonical = true) &&
    let p : Nat := 0
    decide (p < 8) &&
    let r := { req := req0 }
    let b := bin0
    let q := s.part p
    decide (q.run = some r) &&
    decide (q.binary = some b) &&
    decide (q.state = 2) &&
    decide (r.over = false) &&
    decide (q.acause ≠ 4 ∨ (s.mod.log.ring.map (·.2)).filter (s.hitStep p) = []) &&
    decide (((b.tiles q.fmap).all fun e => decide ((s.tile e.1).fcause ≠ 3)) = true)) = true := by decide

theorem witness_Invocations_9a : (
    let s : State := { (hosted { state := 2, job := some mani0, bins := [bin0], fmap := List.range 70 }) with fields := [(0, { csr := [(4, 0#32)] })] }
    decide (s.mod.cc.up = true) &&
    decide (s.canonical = true) &&
    let p : Nat := 0
    decide (p < 8) &&
    let f : Nat := 0
    decide (f < 70) &&
    let m := mani0
    let b := bin0
    let q := s.part p
    decide (q.job = some m) &&
    decide (q.binary = some b) &&
    decide (q.state ≠ 4) &&
    decide (q.state ≠ 5) &&
    decide (q.busy = false) &&
    decide (s.quiescent p = true) &&
    decide ((s.lostFields b q.fmap).contains f = true) &&
    decide (m.flags / 2 % 2 ≠ 1 ∨ s.moveFor p f m = none) &&
    decide (q.waiting = false)) = true := by decide

theorem witness_Invocations_10 : (
    let s : State := { (hosted { state := 2, job := some { mani0 with flags := 2 }, bins := [bin0], fmap := List.range 70 }) with fields := [(0, { csr := [(4, 0#32)] }), (69, { power := 2, lock := true, reserve := true })] }
    decide (s.mod.cc.up = true) &&
    decide (s.canonical = true) &&
    let p : Nat := 0
    decide (p < 8) &&
    let f : Nat := 0
    decide (f < 70) &&
    let m := { mani0 with flags := 2 }
    let b := bin0
    let q := s.part p
    decide (q.job = some m) &&
    decide (q.binary = some b) &&
    decide (q.state ≠ 4) &&
    decide (q.state ≠ 5) &&
    decide (q.busy = false) &&
    decide (s.quiescent p = true) &&
    decide ((s.lostFields b q.fmap).contains f = true) &&
    let g := 69
    let m1 := moveManifest 0 { mani0 with flags := 2 } 0 69
    decide (m.flags / 2 % 2 = 1) &&
    decide (s.moveFor p f m = some (g, m1))) = true := by decide +kernel

theorem witness_PowerSensing_0a : (
    let s : State := { State.reset with fields := [(69, { power := 2 })], mod := { cc := { up := true }, csr := [], powered := true } }
    decide (s.canonical = true) &&
    let k : Nat := 1
    decide (k < 2) &&
    let v := 5600
    decide (s.mod.powered = true) &&
    decide (s.mod.holdUp = none) &&
    decide (s.ezInj 1 k = none) &&
    decide (4600 ≤ v) &&
    decide (v ≤ 5600) &&
    decide (Map.get (fun _ => 0) s.mod.pow.good k < 900)) = true := by decide

theorem witness_PowerSensing_1a : (
    let s : State := { State.reset with fields := [(69, { power := 2 })], mod := { cc := { up := true }, csr := [], powered := true } }
    decide (s.canonical = true) &&
    let tin := 35
    let tout := 255
    let flow := 40
    decide (((List.range 3).all fun i => decide (s.ezInj 6 i = none)) = true) &&
    decide (tin < 256) &&
    decide (tout < 256) &&
    decide (flow < 256) &&
    let raw := coolRaw tin flow (if flow < 10 then s.mod.pow.flowLow + 1 else 0)
    decide (raw = s.coolst ∨ (s.coolst < raw ∧ raw < 3))) = true := by decide

theorem witness_PowerSensing_2 : (
    let s : State := { State.reset with fields := [(69, { power := 2 })], mod := { cc := { up := true }, csr := [], powered := true } }
    decide (s.canonical = true) &&
    let f : Nat := 69
    decide (f < 70) &&
    let l : List Nat := (List.replicate 15 20) ++ [94]
    decide (l.length = 16) &&
    decide ((s.field f).marked = []) &&
    decide (s.ezInj 2 f = none) &&
    decide (s.ezInj 3 f = none) &&
    let t := l.foldl max 0
    decide (t < 95)) = true := by decide

theorem witness_PowerSensing_3a : (
    let s : State := { State.reset with fields := [(69, { power := 2 })], mod := { cc := { up := true }, csr := [], powered := true } }
    decide (s.canonical = true) &&
    let f : Nat := 69
    decide (f < 70) &&
    let l : List Nat := (List.replicate 15 20) ++ [95]
    decide (l.length = 16) &&
    decide ((s.field f).marked = []) &&
    decide (s.ezInj 2 f = none) &&
    decide (s.ezInj 3 f = none) &&
    let t := l.foldl max 0
    decide (95 ≤ t) &&
    decide (t < 110) &&
    decide ((s.field f).power = 2) &&
    decide ((s.field f).hot = false)) = true := by decide

theorem witness_PowerSensing_4 : (
    let s : State := { State.reset with fields := [(69, { power := 2 })], mod := { cc := { up := true }, csr := [], powered := true } }
    decide (s.canonical = true) &&
    let f : Nat := 69
    decide (f < 70) &&
    let l : List Nat := (List.replicate 15 20) ++ [110]
    decide (l.length = 16) &&
    decide ((s.field f).marked = []) &&
    decide (s.ezInj 2 f = none) &&
    decide (s.ezInj 3 f = none) &&
    let t := l.foldl max 0
    decide (110 ≤ t) &&
    decide ((s.field f).power = 2)) = true := by decide

theorem witness_PowerSensing_5 : (
    let s : State := { State.reset with fields := [(69, { power := 2, hot := true })], mod := { cc := { up := true }, csr := [(0x18A0, 0x00007038#32)] } }
    decide (s.canonical = true) &&
    let f : Nat := 69
    decide (f < 70) &&
    decide ((s.field f).power = 2) &&
    let w := s.ez (0x1000 + 0x20 * f)
    decide ((s.field f).hot = true) &&
    decide (bits w 14 12 ≠ 0)) = true := by decide

theorem witness_PowerSensing_6a : (
    let s : State := { State.reset with fields := [(69, { power := 2, hot := true })], mod := { cc := { up := true }, csr := [(0x18B0, 0x00002000#32)] } }
    decide (s.canonical = true) &&
    let f : Nat := 69
    decide (f < 70) &&
    decide ((s.field f).power = 2) &&
    let w := s.ez (0x1000 + 0x20 * f)
    decide ((s.field f).hot = true) &&
    decide (bits w 14 12 = 0)) = true := by decide

theorem witness_PowerSensing_7 : (
    let s : State := { State.reset with fields := [(69, { power := 2, cool := true })], mod := { cc := { up := true }, csr := [(0x18A0, 0x00007038#32)] } }
    decide (s.canonical = true) &&
    let f : Nat := 69
    decide (f < 70) &&
    decide ((s.field f).power = 2) &&
    let pace := bits (s.ez (0x1010 + 0x20 * f)) 15 8
    decide ((s.field f).cool = true) &&
    decide (pace = 0)) = true := by decide

theorem witness_PowerSensing_8a : (
    let s : State := { State.reset with fields := [(69, { power := 2, cool := true })], mod := { cc := { up := true }, csr := [(0x18B0, 0x00004000#32)] } }
    decide (s.canonical = true) &&
    let f : Nat := 69
    decide (f < 70) &&
    decide ((s.field f).power = 2) &&
    let pace := bits (s.ez (0x1010 + 0x20 * f)) 15 8
    decide ((s.field f).cool = true) &&
    decide (pace ≠ 0)) = true := by decide

theorem witness_PowerSensing_9 : (
    let s : State := { State.reset with fields := [(69, { power := 2, lock := true })], tiles := [(117599, { credit := some (-5) })], mod := { csr := [(0x18A0, 0x00777E38#32), (0x18B0, 0x00004000#32)] } }
    decide (s.canonical = true) &&
    let f : Nat := 69
    decide (f < 70) &&
    decide ((s.field f).power = 2) &&
    let v := 6
    let g := 255
    decide (v < 8) &&
    decide (g < 256)) = true := by decide

theorem witness_PowerSensing_11 : (
    let s : State := { State.reset with parts := [(7, { ledger := [5] })], mod := {} }
    decide (s.canonical = true) &&
    let a := 1
    let b := 65535
    let m := 42
    let parts := (List.range 8)
    let fields := (List.range 70)
    decide (List.length parts = 8) &&
    decide (List.length fields = 70) &&
    decide (a < 65536) &&
    decide (b < 65536) &&
    decide (m < 65536)) = true := by decide

theorem witness_PowerSensing_12 : (
    let s : State := { State.reset with fields := [(69, { power := 2 })], mod := { cc := { up := true }, csr := [], powered := true } }
    decide (s.canonical = true) &&
    let a := 1
    let b := 65535
    let m := 42
    let parts := (List.range 8)
    let fields := (List.range 70)
    decide (List.length parts = 8) &&
    decide (List.length fields = 70) &&
    decide (a < 65536) &&
    decide (b < 65536) &&
    decide (m < 65536)) = true := by decide

theorem witness_PowerSensing_13 : (
    let s : State := { State.reset with fields := [(69, { power := 2, csr := [(4, 7#32)] })], mod := { csr := [(0x18A0, 0x00007FFF#32), (0x21C0, 0x8000EA66#32)] } }
    decide (s.canonical = true) &&
    let p : Nat := 7
    decide (p < 8) &&
    let e := (List.range 8).map (· + 60000)
    decide (bit (s.ez (0x2000 + 0x40 * p)) 31 = true) &&
    decide (bits (s.ez (0x2000 + 0x40 * p)) 15 0 < nth 0 e p) &&
    decide (((s.fieldsOf p).all fun f => bits (s.ez (0x1000 + 0x20 * f)) 14 12 = 0) = false)) = true := by decide

theorem witness_PowerSensing_14 : (
    let s : State := { State.reset with fields := [(69, { power := 2, lock := true })], tiles := [(117599, { credit := some (-5) })], mod := { csr := [(0x18A0, 0x00777E38#32), (0x18B0, 0x00004000#32)] } }
    decide (s.canonical = true)) = true := by decide

theorem witness_FieldPower_2 : (
    let s : State := { State.reset with fields := [(69, { mapped := true })], tiles := [(1680, { pc := 3 }), (117599, { pc := 5 })], mod := { powered := true, cc := { up := false }, preg := [(476928, 0#32)] } }
    decide (s.canonical = true) &&
    let f : Nat := 69
    decide (f < 70) &&
    let x := s.field f
    decide (s.fieldCmdBad f 1 = none) &&
    decide (s.mod.stage ≠ 5) &&
    decide (s.fused f = false) &&
    decide (bit (s.mapSum f) 6 = false) &&
    let o := 476928
    decide (s.mapBad f = some o) &&
    decide (s.mod.cc.up = false) &&
    decide (x.power = 0)) = true := by decide

theorem witness_FieldPower_3 : (
    let s : State := { State.reset with fields := [(69, { mapped := true })], tiles := [(1680, { pc := 3 }), (117599, { pc := 5 })], mod := { powered := true, cc := { up := true }, preg := [(476928, 0#32)] } }
    decide (s.canonical = true) &&
    let f : Nat := 69
    decide (f < 70) &&
    decide (s.fieldCmdBad f 1 = none) &&
    decide (s.mod.stage ≠ 5) &&
    decide (s.fused f = false) &&
    decide (bit (s.mapSum f) 6 = false) &&
    let o := 476928
    decide (s.mapBad f = some o) &&
    decide (s.mod.cc.up = true) &&
    decide (s.mod.cc.journalOpen = false)) = true := by decide

theorem witness_FieldPower_6 : (
    let s : State := { State.reset with fields := [(69, { power := 2 })], tiles := [(1680, { pc := 3 }), (117599, { pc := 5 })], mod := { powered := true, cc := { up := true } } }
    decide (s.canonical = true) &&
    let f : Nat := 69
    decide (f < 70) &&
    decide (s.fieldCmdBad f 2 = none)) = true := by decide

theorem witness_FieldPower_7 : (
    let s : State := { State.reset with fields := [(69, { power := 4 })], tiles := [(1680, { pc := 3 }), (117599, { pc := 5 })], mod := { powered := true, cc := { up := true } } }
    decide (s.canonical = true) &&
    let f : Nat := 69
    decide (f < 70) &&
    let x := s.field f
    decide (x.power = 4) &&
    decide (x.retested = false)) = true := by decide

theorem witness_FieldPower_8 : (
    let s : State := { State.reset with fields := [(69, { power := 4, retested := true })], tiles := [(1680, { pc := 3 }), (117599, { pc := 5 })], mod := { powered := true, cc := { up := true } } }
    decide (s.canonical = true) &&
    let f : Nat := 69
    decide (f < 70) &&
    let x := s.field f
    decide (x.power = 4) &&
    decide (x.retested = true)) = true := by decide

theorem witness_FieldPower_9a : (
    let s : State := { State.reset with counting := true, fields := [(69, { power := 1 })], tiles := [(1680, { pc := 3 }), (117599, { pc := 5 })], mod := { sec := { running := [(4, (1, 1))] } } }
    decide (s.canonical = true) &&
    let f : Nat := 69
    decide (f < 70) &&
    let x := s.field f
    decide (x.power = 1) &&
    let hasCode : Bool := decide ((Map.get (fun _ => (0, 0)) s.mod.sec.running 4).1 ≠ 0)
    decide (hasCode) &&
    decide (s.mod.sec.recovery = false) &&
    decide (s.counting = true) &&
    decide (s.fused f = false) &&
    decide (s.mod.pow.absent.contains (feedOf f) = false) &&
    decide ((s.setField f { x with nodes := true }).joined.contains f = true)) = true := by decide

theorem witness_FieldPower_12a : (
    let s : State := { State.reset with counting := true, fields := [(69, { power := 1 })], tiles := [(1680, { pc := 3 }), (117599, { pc := 5 })], mod := { sec := { running := [(4, (1, 1))] } } }
    decide (s.canonical = true) &&
    let f : Nat := 69
    decide (f < 70) &&
    let x := s.field f
    decide (x.power = 1) &&
    let hasCode : Bool := decide ((Map.get (fun _ => (0, 0)) s.mod.sec.running 4).1 ≠ 0)
    decide (hasCode) &&
    decide (s.mod.sec.recovery = false)) = true := by decide

theorem witness_FieldPower_13 : (
    let s : State := { State.reset with fields := [(69, { power := 1, mapErr := true })], tiles := [(1680, { pc := 3 }), (117599, { pc := 5 })], mod := { powered := true, cc := { up := true } } }
    decide (s.canonical = true) &&
    let f : Nat := 69
    decide (f < 70) &&
    let x := s.field f
    decide (x.power = 1) &&
    decide (s.mod.sec.recovery = false)) = true := by decide

theorem witness_FieldPower_14a : (
    let s : State := { State.reset with fields := [(69, { power := 3 })], tiles := [(1680, { pc := 3 }), (117599, { pc := 5 })], mod := { powered := true, cc := { up := true } } }
    decide (s.canonical = true) &&
    let f : Nat := 69
    decide (f < 70) &&
    let x := s.field f
    decide (x.power = 3) &&
    decide (x.drainTo = 0)) = true := by decide

theorem witness_FieldPower_18a : (
    let s : State := { State.reset with fields := [(69, { power := 3, drainTo := 5 })], tiles := [(1680, { pc := 3 }), (117599, { pc := 5 })], mod := { powered := true, cc := { up := true } } }
    decide (s.canonical = true) &&
    let f : Nat := 69
    decide (f < 70) &&
    let x := s.field f
    decide (x.power = 3) &&
    decide (x.drainTo = 5)) = true := by decide

theorem witness_FieldPower_19 : (
    let s : State := { State.reset with fields := [(69, { power := 3, drainTo := 5, nodes := true })], tiles := [(1680, { pc := 3 }), (117599, { pc := 5 })], mod := { powered := true, cc := { up := true } } }
    decide (s.canonical = true) &&
    let f : Nat := 69
    decide (f < 70) &&
    let x := s.field f
    decide (x.power = 3) &&
    decide (x.drainTo = 5)) = true := by decide

theorem witness_FieldPower_20a : (
    let s : State := { State.reset with fields := [(69, { power := 1 })], tiles := [(1680, { pc := 3 }), (117599, { pc := 5 })], mod := { powered := true, cc := { up := true } } }
    decide (s.canonical = true) &&
    let f : Nat := 69
    decide (f < 70) &&
    let x := s.field f
    decide (1 ≤ x.power) &&
    decide (x.power ≤ 3)) = true := by decide

theorem witness_FieldPower_21 : (
    let s : State := { State.reset with fields := [(69, { power := 3 })], tiles := [(1680, { pc := 3 }), (117599, { pc := 5 })], mod := { powered := true, cc := { up := true } } }
    decide (s.canonical = true) &&
    let f : Nat := 69
    decide (f < 70) &&
    let x := s.field f
    decide (1 ≤ x.power) &&
    decide (x.power ≤ 3)) = true := by decide

theorem witness_FieldPower_22a : (
    let s : State := { State.reset with fields := [(69, { mapped := true })], tiles := [(1680, { pc := 3 }), (117599, { pc := 5 })], mod := { powered := true, cc := { up := true } } }
    decide (s.canonical = true) &&
    let f : Nat := 69
    decide (f < 70) &&
    let perr := 10
    decide (s.ezInj 5 f = none) &&
    decide (perr ≤ 10)) = true := by decide

theorem witness_FieldPower_23a : (
    let s : State := { State.reset with now := 5#64, fields := [(69, { phases := [(3#64, 99)] })] }
    decide (s.canonical = true) &&
    let f : Nat := 69
    decide (f < 70) &&
    let perr := 11
    decide (s.ezInj 5 f = none) &&
    decide (10 < perr) &&
    decide (perr < 256)) = true := by decide

theorem witness_FieldPower_24 : (
    let s : State := { State.reset with fields := [(0, { fieldOn with nodes := true })], parts := [(0, { state := 3 })], mod := { csr := [(0x1004, 0x100#32)] } }
    decide (s.canonical = true) &&
    let f : Nat := 0
    decide (f < 70) &&
    let x := s.field f
    decide (x.lock = true) &&
    decide (x.power = 2) &&
    decide (s.fieldOwner f < 8) &&
    decide ((bits (s.ez (0x1004 + 0x20 * f)) 15 8).testBit (s.fieldOwner f) = true) &&
    decide ((s.part (s.fieldOwner f)).state = 3)) = true := by decide

theorem witness_FieldPower_25a : (
    let s : State := { State.reset with fields := [(69, { power := 2, nodes := true })], tiles := [(1680, { pc := 3 }), (117599, { pc := 5 })], mod := { powered := true, stage := 4, cc := { up := true } } }
    decide (s.canonical = true) &&
    decide (s.mod.firstLock = false) &&
    decide (4 ≤ s.mod.stage) &&
    decide (s.mod.stage ≠ 7)) = true := by decide

theorem witness_FieldPower_26a : (
    let s : State := { State.reset with fields := [(69, { power := 2, nodes := true })], tiles := [(1680, { pc := 3 }), (117599, { pc := 5 })], mod := { powered := true, cc := { up := true }, firstLock := true, stage := 6 } }
    decide (s.canonical = true) &&
    decide (s.mod.firstLock = true ∨ s.mod.stage < 4 ∨ s.mod.stage = 7)) = true := by decide

theorem witness_HaloPorts_0 : (
    let s : State := ported { csr := [(0, 0#32)], state := 5 }
    decide (s.canonical = true) &&
    let q : Nat := 11
    decide (q < 12) &&
    let o := s.port q
    decide (s.portRefused q 0 (ctlWord o 1) = none)) = true := by decide

theorem witness_HaloPorts_1 : (
    let s : State := ported { csr := [(0, 0#32)], state := 2 }
    decide (s.canonical = true) &&
    let q : Nat := 11
    decide (q < 12) &&
    let o := s.port q
    decide (s.portRefused q 0 (ctlWord o 2) = none)) = true := by decide

theorem witness_HaloPorts_2 : (
    let s : State := ported { csr := [(0, 0#32)], state := 2 }
    decide (s.canonical = true) &&
    let q : Nat := 11
    decide (q < 12) &&
    let o := s.port q
    decide (s.portRefused q 0 (ctlWord o 3) = none)) = true := by decide

theorem witness_HaloPorts_3 : (
    let s : State := ported { csr := [(0, 0#32)], state := 1 }
    decide (s.canonical = true) &&
    let q : Nat := 11
    decide (q < 12) &&
    let o := s.port q
    let rtt : Nat := 250
    decide (rtt ≤ 250) &&
    decide (o.state = 1) &&
    decide (o.rxBuf = []) &&
    decide (o.txq = []) &&
    decide (o.xfers = [])) = true := by decide

theorem witness_HaloPorts_5a : (
    let s : State := ported { csr := [(0, 0#32)], state := 1 }
    decide (s.canonical = true) &&
    let q : Nat := 11
    decide (q < 12) &&
    let o := s.port q
    decide (o.state = 1 ∨ o.state = 3) &&
    decide (o.trainFails < 2)) = true := by decide

theorem witness_HaloPorts_6 : (
    let s : State := ported { csr := [(0, 0#32)], state := 3, trainFails := 2 }
    decide (s.canonical = true) &&
    let q : Nat := 11
    decide (q < 12) &&
    let o := s.port q
    decide (o.state = 1 ∨ o.state = 3) &&
    decide (2 ≤ o.trainFails)) = true := by decide

theorem witness_HaloPorts_7 : (
    let s : State := ported { csr := [(0, 0#32)], state := 2, sent := [{ seq := 7, typ := 5, tag := 0, off := 0, data := [] }, { seq := 8, typ := 5, tag := 0, off := 0, data := [] }] }
    decide (s.canonical = true) &&
    let q : Nat := 11
    decide (q < 12) &&
    let o := s.port q
    let x : HFlit := { flitOf 0 [] with ack := 7, crc := haloCrc (haloHeader 0 0 7 false 3 5 0) [] }
    let f : HSent := { seq := 7, typ := 5, tag := 0, off := 0, data := [] }
    let l : List HSent := [{ seq := 8, typ := 5, tag := 0, off := 0, data := [] }]
    decide (o.state = 2) &&
    decide (o.ether = false) &&
    decide (o.rxBuf = []) &&
    decide (o.txq = []) &&
    decide (o.xfers = []) &&
    decide (o.held = []) &&
    decide (haloGood 0 x = true) &&
    decide (x.codewords = []) &&
    decide (x.nak = false) &&
    decide (o.sent = f :: l) &&
    decide (x.ack = f.seq)) = true := by decide +kernel

theorem witness_HaloPorts_8a : (
    let s : State := ported { csr := [(0, 0#32), (0x100, 0x00#32), (0x104, 0x10#32), (0x108, 0x20#32), (0x10C, 0x30#32), (0x110, 0x40#32), (0x114, 0x50#32), (0x118, 0x60#32), (0x11C, 0x70#32), (0x120, 0x80#32)], state := 2, credits := 1, txSeq := 4095 }
    decide (s.canonical = true) &&
    let q : Nat := 11
    decide (q < 12) &&
    let o := s.port q
    let lane : Nat := 7
    decide (lane < 8) &&
    decide (o.state = 2) &&
    decide (o.ether = false) &&
    decide (lane ∉ o.bad) &&
    decide (o.role lane < 8) &&
    decide (o.role 8 = 8) &&
    decide (o.turn = [])) = true := by decide

theorem witness_HaloPorts_9a : (
    let s : State := ported { csr := [(0, 0#32), (0x100, 0x00#32), (0x104, 0x10#32), (0x108, 0x20#32), (0x10C, 0x30#32), (0x110, 0x40#32), (0x114, 0x50#32), (0x118, 0x60#32), (0x11C, 0x70#32), (0x120, 0x80#32)], state := 2, txSeq := 4095 }
    decide (s.canonical = true) &&
    let q : Nat := 11
    decide (q < 12) &&
    let o := s.port q
    let lane : Nat := 7
    decide (lane < 8) &&
    decide (o.state = 2) &&
    decide (o.ether = false) &&
    decide (lane ∉ o.bad) &&
    decide (o.role lane < 8) &&
    decide (o.role 8 = 8) &&
    decide (o.turn = [])) = true := by decide

theorem witness_HaloPorts_10a : (
    let s : State := ported { csr := [(0, 0#32), (0x100, 0x00#32), (0x104, 0x10#32), (0x108, 0x20#32), (0x10C, 0x30#32), (0x110, 0x40#32), (0x114, 0x50#32), (0x118, 0x60#32), (0x11C, 0x70#32), (0x120, 0x80#32)], state := 2, credits := 4096 }
    decide (s.canonical = true) &&
    let q : Nat := 11
    decide (q < 12) &&
    let o := s.port q
    let lane : Nat := 7
    decide (lane < 8) &&
    decide (o.state = 2) &&
    decide (o.ether = false) &&
    decide (lane ∉ o.bad) &&
    decide (o.role lane < 8) &&
    decide (o.role 8 = 8) &&
    decide (o.turn = [])) = true := by decide

theorem witness_HaloPorts_11a : (
    let s : State := ported { csr := [(0, 0#32)], state := 2 }
    decide (s.canonical = true) &&
    let q : Nat := 11
    decide (q < 12) &&
    let off := 0x13F8
    let v := 0xFFFFFFFF#32
    decide (0x1000 ≤ off) &&
    decide (off < 0x1400) &&
    decide (off % 4 = 0) &&
    decide (s.portRefused q off v = none)) = true := by decide

theorem witness_HaloPorts_12a : (
    let s : State := ported { csr := [(0, 0#32)], state := 2 }
    decide (s.canonical = true) &&
    let q : Nat := 11
    decide (q < 12) &&
    let off := 0x13FC
    let v := 0xFFFFFFFF#32
    decide (0x1000 ≤ off) &&
    decide (off < 0x1400) &&
    decide (off % 4 = 0) &&
    decide (s.portRefused q off v = none)) = true := by decide

theorem witness_HaloPorts_13 : (
    let s : State := ported { csr := [(0, 1#32)], state := 2 }
    decide (s.canonical = true) &&
    let q : Nat := 11
    decide (q < 12) &&
    decide (s.roceUp q 0 = true)) = true := by decide

theorem witness_HaloPorts_14 : (
    let s : State := { (ported {}) with ports := [] }
    decide (s.canonical = true) &&
    let link : Nat := 47
    decide (link < 48) &&
    decide (link ∉ s.mod.ring) &&
    decide (((List.range 12).all fun q => decide ((s.port q).xfers = [])) = true) &&
    decide (((List.range 8).all fun p => decide ((s.part p).step = false)) = true)) = true := by decide

theorem witness_HaloTransfers_0a : (
    let q : Nat := 11
    let x : HFlit := flitOf 1 ([0] ++ leBytes 3 4 ++ leBytes 1 4)
    let s : State := ported { csr := [(0, 0#32), (0x1008, 4#32), (0x100C, 0x00010003#32)], state := 2 }
    decide (q < 12) &&
    decide (s.canonical = true) &&
    let o := s.port q
    let win := (nth 0#8 x.data 0).toNat
    let unit := ofLeBytes ((x.data.drop 1).take 4)
    let n := ofLeBytes ((x.data.drop 5).take 4)
    decide (o.state = 2) &&
    decide (o.ether = false) &&
    decide (o.rxBuf = []) &&
    decide (o.txq = []) &&
    decide (o.sent = []) &&
    decide (o.change = []) &&
    decide (o.held = []) &&
    decide (x.codewords = []) &&
    decide (x.nak = false) &&
    decide (bits (o.csrWord 0x20) 30 28 ≠ 1) &&
    decide (x.seq = o.rxSeq) &&
    decide (o.xfers = []) &&
    decide (s.haloStatus q win unit n false = 0) &&
    decide (haloGood 1 x = true)) = true := by decide +kernel

theorem witness_HaloTransfers_1a : (
    let q : Nat := 11
    let x : HFlit := flitOf 1 ([0] ++ leBytes 3 4 ++ leBytes 2 4)
    let s : State := ported { csr := [(0, 0#32), (0x1008, 4#32), (0x100C, 0x00010003#32)], state := 2 }
    decide (q < 12) &&
    decide (s.canonical = true) &&
    let o := s.port q
    let win := (nth 0#8 x.data 0).toNat
    let unit := ofLeBytes ((x.data.drop 1).take 4)
    let n := ofLeBytes ((x.data.drop 5).take 4)
    decide (o.state = 2) &&
    decide (o.ether = false) &&
    decide (o.rxBuf = []) &&
    decide (o.txq = []) &&
    decide (o.sent = []) &&
    decide (o.change = []) &&
    decide (o.held = []) &&
    decide (x.codewords = []) &&
    decide (x.nak = false) &&
    decide (bits (o.csrWord 0x20) 30 28 ≠ 1) &&
    decide (x.seq = o.rxSeq) &&
    decide (o.xfers = []) &&
    decide (s.haloStatus q win unit n false ≠ 0) &&
    decide (bit (o.csrWord 0x14) 31 = false) &&
    decide (haloGood 1 x = true)) = true := by decide +kernel

theorem witness_HaloTransfers_2 : (
    let q : Nat := 11
    let x : HFlit := flitOf 3 ([0] ++ leBytes 3 4 ++ leBytes 1 4)
    let s : State := ported { csr := [(0, 0#32), (0x1008, 4#32), (0x100C, 0x00010003#32)], state := 2 }
    decide (q < 12) &&
    decide (s.canonical = true) &&
    let o := s.port q
    let win := (nth 0#8 x.data 0).toNat
    let unit := ofLeBytes ((x.data.drop 1).take 4)
    let n := ofLeBytes ((x.data.drop 5).take 4)
    decide (o.state = 2) &&
    decide (o.ether = false) &&
    decide (o.rxBuf = []) &&
    decide (o.txq = []) &&
    decide (o.sent = []) &&
    decide (o.change = []) &&
    decide (o.held = []) &&
    decide (x.codewords = []) &&
    decide (x.nak = false) &&
    decide (bits (o.csrWord 0x20) 30 28 ≠ 1) &&
    decide (x.seq = o.rxSeq) &&
    let y := haloXfer o x.tag false true win unit n
    let z := s.site y.site
    decide (o.xfers = []) &&
    decide (s.haloStatus q win unit n true = 0) &&
    decide (n = 1) &&
    decide (y.site < 48) &&
    decide (z.state = 2) &&
    decide (z.owner = s.portOwner q) &&
    decide (z.owner < 8) &&
    decide (y.base < 0xC00000000) &&
    decide (z.m.queue.length < 2047) &&
    decide (z.m.parked.length < 4095) &&
    decide (haloGood 3 x = true)) = true := by decide +kernel

theorem witness_HaloTransfers_3 : (
    let q : Nat := 11
    let x : HFlit := flitOf 2 (List.replicate 255 7#8 ++ [9])
    let s : State := ported { csr := [(0, 0#32), (0x1008, 4#32), (0x100C, 0x00010003#32)], state := 2, xfers := [{ tag := 5, mod := false, read := false, win := 0, unit := 0, n := 1, site := 0, base := 0 }] }
    decide (q < 12) &&
    decide (s.canonical = true) &&
    let o := s.port q
    let win := (nth 0#8 x.data 0).toNat
    let unit := ofLeBytes ((x.data.drop 1).take 4)
    let n := ofLeBytes ((x.data.drop 5).take 4)
    decide (o.state = 2) &&
    decide (o.ether = false) &&
    decide (o.rxBuf = []) &&
    decide (o.txq = []) &&
    decide (o.sent = []) &&
    decide (o.change = []) &&
    decide (o.held = []) &&
    decide (x.codewords = []) &&
    decide (x.nak = false) &&
    decide (bits (o.csrWord 0x20) 30 28 ≠ 1) &&
    decide (x.seq = o.rxSeq) &&
    let y : HXfer := { tag := 5, mod := false, read := false, win := 0, unit := 0, n := 1, site := 0, base := 0 }
    decide (o.xfers = [y]) &&
    decide (y.tag = x.tag) &&
    decide (y.n = 1) &&
    decide (x.off = 0) &&
    decide (x.data.length = 256) &&
    decide (y.next = 0) &&
    decide (y.data = []) &&
    let z := s.site y.site
    decide (y.site < 48) &&
    decide (z.state = 2) &&
    decide (z.owner = s.portOwner q) &&
    decide (z.owner < 8) &&
    decide (y.base < 0xC00000000) &&
    decide (z.m.queue.length < 2047) &&
    decide (z.m.parked.length < 4095) &&
    decide (y.mod = false) &&
    decide (y.read = false) &&
    decide (haloGood 2 x = true)) = true := by decide +kernel

theorem witness_HaloTransfers_4 : (
    let q : Nat := 11
    let x : HFlit := flitOf 4 (List.replicate 255 7#8 ++ [9])
    let s : State := ported { csr := [(0, 0#32), (0x1008, 4#32), (0x100C, 0x00010003#32)], state := 2, xfers := [{ tag := 5, mod := true, read := true, win := 0, unit := 0, n := 1, site := 0, base := 0 }] }
    decide (q < 12) &&
    decide (s.canonical = true) &&
    let o := s.port q
    let win := (nth 0#8 x.data 0).toNat
    let unit := ofLeBytes ((x.data.drop 1).take 4)
    let n := ofLeBytes ((x.data.drop 5).take 4)
    decide (o.state = 2) &&
    decide (o.ether = false) &&
    decide (o.rxBuf = []) &&
    decide (o.txq = []) &&
    decide (o.sent = []) &&
    decide (o.change = []) &&
    decide (o.held = []) &&
    decide (x.codewords = []) &&
    decide (x.nak = false) &&
    decide (bits (o.csrWord 0x20) 30 28 ≠ 1) &&
    decide (x.seq = o.rxSeq) &&
    let y : HXfer := { tag := 5, mod := true, read := true, win := 0, unit := 0, n := 1, site := 0, base := 0 }
    decide (o.xfers = [y]) &&
    decide (y.tag = x.tag) &&
    decide (y.n = 1) &&
    decide (x.off = 0) &&
    decide (x.data.length = 256) &&
    decide (y.next = 0) &&
    decide (y.data = []) &&
    let z := s.site y.site
    decide (y.site < 48) &&
    decide (z.state = 2) &&
    decide (z.owner = s.portOwner q) &&
    decide (z.owner < 8) &&
    decide (y.base < 0xC00000000) &&
    decide (z.m.queue.length < 2047) &&
    decide (z.m.parked.length < 4095) &&
    decide (y.mod = true) &&
    decide (y.read = true) &&
    decide (haloGood 4 x = true)) = true := by decide +kernel

theorem witness_HaloTransfers_5 : (
    let q : Nat := 11
    let x : HFlit := flitOf 5 [1, 2]
    let s : State := ported { csr := [(0, 0#32), (0x1008, 4#32), (0x100C, 0x00010003#32)], state := 2, xfers := [{ tag := 5, mod := true, read := false, win := 0, unit := 0, n := 1, site := 0, base := 0 }] }
    decide (q < 12) &&
    decide (s.canonical = true) &&
    let o := s.port q
    let win := (nth 0#8 x.data 0).toNat
    let unit := ofLeBytes ((x.data.drop 1).take 4)
    let n := ofLeBytes ((x.data.drop 5).take 4)
    decide (o.state = 2) &&
    decide (o.ether = false) &&
    decide (o.rxBuf = []) &&
    decide (o.txq = []) &&
    decide (o.sent = []) &&
    decide (o.change = []) &&
    decide (o.held = []) &&
    decide (x.codewords = []) &&
    decide (x.nak = false) &&
    decide (bits (o.csrWord 0x20) 30 28 ≠ 1) &&
    decide (x.seq = o.rxSeq) &&
    let y : HXfer := { tag := 5, mod := true, read := false, win := 0, unit := 0, n := 1, site := 0, base := 0 }
    decide (o.xfers = [y]) &&
    decide (y.tag = x.tag) &&
    decide (y.mod = true) &&
    decide (haloGood 5 x = true)) = true := by decide +kernel

theorem witness_HaloTransfers_6 : (
    let q : Nat := 11
    let x : HFlit := flitOf 6 [3, 0, 1, 0]
    let s : State := ported { csr := [(0, 0#32), (0x1008, 4#32), (0x100C, 0x00010003#32)], state := 2 }
    decide (q < 12) &&
    decide (s.canonical = true) &&
    let o := s.port q
    decide (o.state = 2) &&
    decide (o.ether = false) &&
    decide (o.rxBuf = []) &&
    decide (o.txq = []) &&
    decide (o.sent = []) &&
    decide (o.change = []) &&
    decide (o.held = []) &&
    decide (x.codewords = []) &&
    decide (x.nak = false) &&
    decide (bits (o.csrWord 0x20) 30 28 ≠ 1) &&
    decide (x.seq = o.rxSeq) &&
    decide (o.xfers = []) &&
    decide (nth 0#8 x.data 0 = 3#8) &&
    decide (ofLeBytes ((x.data.drop 2).take 2) % 4096 = (x.seq + 1) % 4096) &&
    decide (haloGood 6 x = true)) = true := by decide +kernel

theorem witness_HaloTransfers_7 : (
    let q : Nat := 11
    let x : HFlit := flitOf 6 ([1, 7] ++ leBytes 1 2)
    let s : State := ported { csr := [(0, 0#32), (0x100, 0x00#32), (0x104, 0x10#32), (0x108, 0x20#32), (0x10C, 0x30#32), (0x110, 0x40#32), (0x114, 0x50#32), (0x118, 0x60#32), (0x11C, 0x70#32), (0x120, 0x80#32)], state := 2 }
    decide (q < 12) &&
    decide (s.canonical = true) &&
    let o := s.port q
    decide (o.state = 2) &&
    decide (o.ether = false) &&
    decide (o.rxBuf = []) &&
    decide (o.txq = []) &&
    decide (o.sent = []) &&
    decide (o.change = []) &&
    decide (o.held = []) &&
    decide (x.codewords = []) &&
    decide (x.nak = false) &&
    decide (bits (o.csrWord 0x20) 30 28 ≠ 1) &&
    decide (x.seq = o.rxSeq) &&
    let lane : Nat := 7
    decide (lane < 8) &&
    decide (o.xfers = []) &&
    decide (nth 0#8 x.data 0 = 1#8) &&
    decide (nth 0#8 x.data 1 = BitVec.ofNat 8 lane) &&
    decide (ofLeBytes ((x.data.drop 2).take 2) % 4096 = (x.seq + 1) % 4096) &&
    decide (o.role 8 = 8) &&
    decide (haloGood 6 x = true)) = true := by decide +kernel

theorem witness_HaloTransfers_8 : (
    let q : Nat := 11
    let x : HFlit := flitOf 1 ([0] ++ leBytes 3 4 ++ leBytes 1 4)
    let s : State := ported { csr := [(0, 0#32)], state := 2, credits := 1, xfers := [{ tag := 5, mod := false, read := false, win := 0, unit := 0, n := 1, site := 0, base := 0, got := [0] }] }
    decide (q < 12) &&
    decide (s.canonical = true) &&
    let o := s.port q
    let win := (nth 0#8 x.data 0).toNat
    let unit := ofLeBytes ((x.data.drop 1).take 4)
    let n := ofLeBytes ((x.data.drop 5).take 4)
    let y : HXfer := { tag := 5, mod := false, read := false, win := 0, unit := 0, n := 1, site := 0, base := 0, got := [0] }
    decide ((o.xfers.find? fun z => z.tag = x.tag && !z.mod && !z.read) = some y) &&
    decide (((List.range y.n).all fun k => decide (k ∈ y.got)) = true) &&
    decide (y.imm = none)) = true := by decide

theorem witness_HaloTransfers_9 : (
    let q : Nat := 11
    let s : State := ported { csr := [(0, 0#32), (0x1008, 4#32), (0x100C, 0x00010003#32)], state := 2 }
    decide (q < 12) &&
    decide (s.canonical = true) &&
    let o := s.port q
    let read : Bool := true
    let w : Nat := 0
    let u : Nat := 3
    let m : Nat := 1
    decide (o.state = 2) &&
    decide (s.mod.cc.up = true) &&
    decide (o.xfers = []) &&
    decide (s.haloStatus q w u m (!read) = 0)) = true := by decide

theorem witness_RoceTraffic_0a : (
    let q : Nat := 11
    let s : State := ported { csr := [(0, 1#32), (0x1008, 4#32), (0x100C, 0x00010003#32)], state := 2, paused := [7, 3] }
    decide (q < 12) &&
    decide (s.canonical = true) &&
    let o := s.port q
    let qp : Nat := 1023
    let key : Nat := 0x00010B00
    let off : Nat := 255
    let len : Nat := 2
    decide (s.roceUp q qp = true) &&
    decide (o.xfers = []) &&
    decide (0 < len) &&
    decide (key % 256 < 64) &&
    decide (key = haloKey o q (key % 256)) &&
    let w := key % 256
    let unit := off / 256
    let n := (off + len - 1) / 256 - unit + 1
    decide (s.haloStatus q w unit n true = 0)) = true := by decide

theorem witness_RoceTraffic_1 : (
    let q : Nat := 11
    let s : State := ported { csr := [(0, 1#32), (0x1008, 4#32), (0x100C, 0x00010003#32)], state := 2, paused := [7, 3] }
    decide (q < 12) &&
    decide (s.canonical = true) &&
    let o := s.port q
    let qp : Nat := 1023
    let key : Nat := 0x00010B00
    let off : Nat := 255
    let len : Nat := 2
    decide (s.roceUp q qp = true) &&
    decide (o.xfers = []) &&
    decide (0 < len) &&
    decide (key % 256 < 64) &&
    decide (key = haloKey o q (key % 256)) &&
    let w := key % 256
    let unit := off / 256
    let n := (off + len - 1) / 256 - unit + 1
    let data : List Byte := [5, 6]
    decide (data.length = len) &&
    decide (s.haloStatus q w unit n false = 0)) = true := by decide

theorem witness_RoceTraffic_3a : (
    let q : Nat := 11
    let s : State := ported { csr := [(0, 1#32), (0x1008, 4#32), (0x100C, 0x00010003#32)], state := 2, posted := [(1023, [(0, 2, 1), (5, 0, 3)])], paused := [7, 3] }
    decide (q < 12) &&
    decide (s.canonical = true) &&
    let o := s.port q
    let qp : Nat := 1023
    let w : Nat := 0
    let unit : Nat := 2
    let n : Nat := 1
    let l : List (Nat × Nat × Nat) := [(5, 0, 3)]
    let data : List Byte := (List.replicate 257 7#8)
    decide (s.roceUp q qp = true) &&
    decide (qp ≠ 1) &&
    decide (Map.get (fun _ => []) o.posted qp = (w, unit, n) :: l) &&
    decide (w < 64) &&
    decide (256 * n < data.length)) = true := by decide

theorem witness_RoceTraffic_4a : (
    let q : Nat := 11
    let s : State := ported { csr := [(0, 1#32), (0x1008, 4#32), (0x100C, 0x00010003#32)], state := 2, posted := [(1023, [(0, 2, 1), (5, 0, 3)])], paused := [7, 3] }
    decide (q < 12) &&
    decide (s.canonical = true) &&
    let o := s.port q
    let qp : Nat := 1023
    let w : Nat := 0
    let unit : Nat := 2
    let n : Nat := 1
    let l : List (Nat × Nat × Nat) := [(5, 0, 3)]
    let data : List Byte := (List.replicate 256 7#8)
    decide (s.roceUp q qp = true) &&
    decide (qp ≠ 1) &&
    decide (Map.get (fun _ => []) o.posted qp = (w, unit, n) :: l) &&
    decide (w < 64) &&
    let p : Port := { o with posted := Map.set (fun _ => []) o.posted qp l }
    let u := s.setPort q p
    decide (0 < data.length) &&
    decide (data.length ≤ 256 * n) &&
    decide (o.xfers = []) &&
    decide (u.haloStatus q w unit ((data.length + 255) / 256) false = 0)) = true := by decide

theorem witness_RoceTraffic_5 : (
    let q : Nat := 11
    let s : State := ported { csr := [(0, 1#32), (0x1008, 4#32), (0x100C, 0x00010003#32)], state := 2, posted := [(1023, [(0, 2, 1), (5, 0, 3)])], paused := [7, 3] }
    decide (q < 12) &&
    decide (s.canonical = true) &&
    let o := s.port q
    let qp : Nat := 1023
    let w : Nat := 0
    let unit : Nat := 2
    let n : Nat := 1
    let l : List (Nat × Nat × Nat) := [(5, 0, 3)]
    decide (s.roceUp q qp = true) &&
    decide (qp ≠ 1) &&
    decide (Map.get (fun _ => []) o.posted qp = (w, unit, n) :: l) &&
    decide (w < 64)) = true := by decide

theorem witness_RoceTraffic_6 : (
    let q : Nat := 11
    let s : State := ported { csr := [(0, 1#32), (0x1008, 4#32), (0x100C, 0x00010003#32)], state := 2, posted := [(1023, [(0, 2, 1), (5, 0, 3)])], paused := [7, 3] }
    decide (q < 12) &&
    decide (s.canonical = true) &&
    let o := s.port q
    let qp : Nat := 1022
    decide (s.roceUp q qp = true) &&
    decide (qp ≠ 1) &&
    decide (Map.get (fun _ => []) o.posted qp = [])) = true := by decide

theorem witness_RoceTraffic_7a : (
    let q : Nat := 11
    let s : State := ported { csr := [(0, 1#32), (0x1008, 4#32), (0x100C, 0x00010003#32)], state := 2, paused := [7, 3] }
    decide (q < 12) &&
    decide (s.canonical = true) &&
    let typ : Nat := 0
    let p : Nat := 255
    let tag : Nat := 5
    let body : List Byte := [1, 2, 3]
    decide (s.roceUp q 1 = true) &&
    decide (s.mod.cc.up = true) &&
    decide (s.portOwner q < 8) &&
    decide (typ < 11) &&
    decide (p < 256) &&
    decide (tag < 2 ^ 32) &&
    decide (body.length ≤ (if typ = 10 then 2 ^ 20 else 65536)) &&
    decide (s.portOwner q ≠ p)) = true := by decide

theorem witness_RoceTraffic_8a : (
    let q : Nat := 11
    let s : State := ported { csr := [(0, 1#32), (0x1008, 4#32), (0x100C, 0x00010003#32)], state := 2, paused := [7, 3] }
    decide (q < 12) &&
    decide (s.canonical = true) &&
    let typ : Nat := 7
    let p : Nat := 0
    let tag : Nat := 5
    let body : List Byte := []
    decide (s.roceUp q 1 = true) &&
    decide (s.mod.cc.up = true) &&
    decide (s.portOwner q < 8) &&
    decide (typ < 11) &&
    decide (p < 256) &&
    decide (tag < 2 ^ 32) &&
    decide (body.length ≤ (if typ = 10 then 2 ^ 20 else 65536)) &&
    decide (s.portOwner q = p)) = true := by decide

theorem witness_RoceTraffic_9a : (
    let q : Nat := 11
    let s : State := ported { csr := [(0, 1#32), (0x1008, 4#32), (0x100C, 0x00010003#32)], state := 2, paused := [7, 3] }
    decide (q < 12) &&
    decide (s.canonical = true) &&
    let typ : Nat := 10
    let p : Nat := 0
    let tag : Nat := 5
    let body : List Byte := [1, 2, 3]
    decide (s.roceUp q 1 = true) &&
    decide (s.mod.cc.up = true) &&
    decide (s.portOwner q < 8) &&
    decide (typ < 11) &&
    decide (p < 256) &&
    decide (tag < 2 ^ 32) &&
    decide (body.length ≤ (if typ = 10 then 2 ^ 20 else 65536))) = true := by decide

theorem witness_RoceTraffic_12 : (
    let q : Nat := 11
    let s : State := ported { csr := [(0, 1#32), (0x1008, 4#32), (0x100C, 0x00010003#32)], state := 2, paused := [7, 3] }
    decide (q < 12) &&
    decide (s.canonical = true) &&
    let qp : Nat := 1023
    decide (s.roceUp q qp = true)) = true := by decide

theorem witness_RoceTraffic_13 : (
    let q : Nat := 11
    let s : State := ported { csr := [(0, 1#32), (0x1008, 4#32), (0x100C, 0x00010003#32)], state := 2, paused := [7, 3] }
    decide (q < 12) &&
    decide (s.canonical = true) &&
    let o := s.port q
    decide (s.roceUp q 0 = true) &&
    decide (s.mod.cc.up = true) &&
    let a : Nat := 5
    decide (a ∉ o.addrs)) = true := by decide

theorem witness_RoceTraffic_14 : (
    let q : Nat := 11
    let s : State := ported { csr := [(0, 1#32), (0x1008, 4#32), (0x100C, 0x00010003#32)], state := 2, addrs := [4, 5], paused := [7, 3] }
    decide (q < 12) &&
    decide (s.canonical = true) &&
    let o := s.port q
    decide (s.roceUp q 0 = true) &&
    decide (s.mod.cc.up = true) &&
    let a : Nat := 5
    let data : List Byte := [5, 6]
    decide (a ∈ o.addrs) &&
    decide (data.length ≤ 9150)) = true := by decide

theorem witness_RoceTraffic_15 : (
    let q : Nat := 11
    let s : State := ported { csr := [(0, 1#32), (0x1008, 4#32), (0x100C, 0x00010003#32)], state := 2, paused := [7, 3] }
    decide (q < 12) &&
    decide (s.canonical = true) &&
    let o := s.port q
    decide (s.roceUp q 0 = true) &&
    let prio : Nat := 3
    decide (prio < 8) &&
    decide ((o.paused.filter (· ≠ prio)).length < 2)) = true := by decide

theorem witness_RoceTraffic_16a : (
    let q : Nat := 11
    let s : State := ported { csr := [(0, 1#32), (0x1008, 4#32), (0x100C, 0x00010003#32)], state := 2, paused := [7, 3] }
    decide (q < 12) &&
    decide (s.canonical = true) &&
    decide (s.roceUp q 0 = true) &&
    let prio : Nat := 3
    decide (prio < 8)) = true := by decide

theorem witness_RoceTraffic_17 : (
    let q : Nat := 11
    let s : State := ported { csr := [(0, 1#32)], state := 2, xfers := [{ tag := 5, mod := true, read := true, win := 0, unit := 0, n := 1, site := 0, base := 0 }], sent := [{ seq := 0, typ := 1, tag := 5, off := 0, data := [3] }] }
    decide (q < 12) &&
    decide (s.canonical = true) &&
    let o := s.port q
    decide (s.roceUp q 0 = true) &&
    let tag : Nat := 5
    let x : HXfer := { tag := 5, mod := true, read := true, win := 0, unit := 0, n := 1, site := 0, base := 0 }
    decide ((o.xfers.find? fun y => y.tag = tag && y.mod) = some x)) = true := by decide

theorem witness_RoceTraffic_18 : (
    let q : Nat := 11
    let s : State := ported { csr := [(0, 1#32)], state := 2, xfers := [{ tag := 5, mod := true, read := true, win := 0, unit := 0, n := 1, site := 0, base := 0 }], sent := [{ seq := 0, typ := 1, tag := 5, off := 0, data := [3] }] }
    decide (q < 12) &&
    decide (s.canonical = true) &&
    let o := s.port q
    decide (s.roceUp q 0 = true) &&
    let tag := 5
    let f := { seq := 0, typ := 1, tag := 5, off := 0, data := [3] }
    decide ((o.sent.filter fun f => f.tag = tag) = [f])) = true := by decide

theorem witness_RoceTraffic_19 : (
    let q : Nat := 11
    let s : State := ported { csr := [(0, 1#32), (0x1008, 4#32), (0x100C, 0x00010003#32)], state := 2, paused := [7, 3] }
    decide (q < 12) &&
    decide (s.canonical = true) &&
    decide (s.roceUp q 0 = true)) = true := by decide

theorem witness_Aborts_0a : (
    let s : State := { quietState with parts := [(0, { state := 1 })] }
    decide (s.canonical = true) &&
    let p : Nat := 0
    decide (p < 8) &&
    let q := s.part p
    decide (q.state = 1 ∨ q.state = 2 ∨ q.state = 3 ∨ q.state = 6)) = true := by decide

theorem witness_Aborts_1a : (
    let s : State := { quietState with parts := [(0, { state := 1, job := some mani0, bins := [bin0] })] }
    decide (s.canonical = true) &&
    let p : Nat := 0
    decide (p < 8) &&
    let q := s.part p
    decide (q.state = 1 ∨ q.state = 2 ∨ q.state = 3 ∨ q.state = 6) &&
    decide (q.state ≠ 6)) = true := by decide

theorem witness_Aborts_2a : (
    let s : State := { quietState with parts := [(0, { state := 1 })] }
    decide (s.canonical = true) &&
    let p : Nat := 0
    decide (p < 8) &&
    let q := s.part p
    decide (q.state ≠ 0) &&
    decide (q.state ≠ 4)) = true := by decide

theorem witness_Aborts_3 : (
    let s : State := { quietState with parts := [(0, { state := 6, job := some mani0, bins := [bin0] })] }
    decide (s.canonical = true) &&
    let p : Nat := 0
    decide (p < 8) &&
    let q := s.part p
    decide (q.state = 6)) = true := by decide

theorem witness_Aborts_4 : (
    let s : State := { quietState with parts := [(0, { state := 2 })] }
    decide (s.canonical = true) &&
    let p : Nat := 0
    decide (p < 8) &&
    let q := s.part p
    decide (q.state ≠ 6)) = true := by decide

theorem witness_Aborts_5 : (
    let s : State := { quietState with now := 5000000#64, parts := [(0, { state := 3, wdog := true })], mod := { csr := [(0x4008, 3#32)] } }
    decide (s.canonical = true) &&
    let p : Nat := 0
    decide (p < 8) &&
    decide (s.stepStart p = none) &&
    decide (0 < (s.ez (0x4008 + 0x40 * p)).toNat)) = true := by decide

theorem witness_Aborts_6 : (
    let s : State := { quietState with now := 5000000#64, tiles := [(0, { tileOn with firstIssue := some 2000000#64 }), (1, { tileOn with firstIssue := some 3000000#64 })], parts := [(0, { state := 3, wdog := true })], mod := { csr := [(0x4008, 3#32)] } }
    decide (s.canonical = true) &&
    let p : Nat := 0
    decide (p < 8) &&
    let q := s.part p
    let k := 2000000
    decide (s.stepStart p = some k) &&
    decide (q.state = 3) &&
    decide (q.wdog = true) &&
    decide ((s.ez (0x4008 + 0x40 * p)).toNat ≤ (s.now.toNat - k) / 1000000)) = true := by decide

theorem witness_Aborts_7a : (
    let s : State := { quietState with parts := [(0, { state := 4, acause := 3, wdog := true })], tiles := [(0, ({ tileOn with regions := [(3, { size := 8 })], spd := [(5, 7#32)], sregs := [(3, 9#64)], istore := [(1, 5#32)] } : Tile))], mod := { cc := { up := true } } }
    decide (s.canonical = true) &&
    let p : Nat := 0
    decide (p < 8) &&
    let q := s.part p
    decide (q.state = 4) &&
    decide (pavState (s.site (s.dsite p)) ≠ 4) &&
    decide (q.reset = false) &&
    decide (q.after = 2) &&
    decide (q.release = false) &&
    decide (s.mod.abortBusy = false) &&
    decide (s.coolst ≠ 3)) = true := by decide

theorem witness_Aborts_8 : (
    let s : State := { quietState with parts := [(0, { state := 4, acause := 3, wdog := true })], tiles := [(0, ({ tileOn with regions := [(3, { size := 8 })], spd := [(5, 7#32)], sregs := [(3, 9#64)], istore := [(1, 5#32)] } : Tile))] }
    decide (s.canonical = true) &&
    let p : Nat := 0
    decide (p < 8) &&
    let q := s.part p
    decide (q.state = 4) &&
    decide (pavState (s.site (s.dsite p)) ≠ 4) &&
    decide (q.reset = false) &&
    decide (q.after = 2) &&
    decide (q.release = false) &&
    decide (s.mod.abortBusy = false) &&
    decide (s.coolst ≠ 3)) = true := by decide

theorem witness_Aborts_10 : (
    let s : State := { quietState with now := 10000005#64, tiles := [(0, { tileOn with waiting := true, lastIssue := 5#64 }), (1, { tileOn with waiting := true })], parts := [(0, { state := 3 })], mod := { cc := { up := true } } }
    decide (s.canonical = true) &&
    let p : Nat := 0
    decide (p < 8) &&
    let q := s.part p
    let t : Nat := 0
    let l : List Nat := [1]
    decide (q.state = 3) &&
    decide ((∀ k ∈ t :: l, isTile k = true ∧ s.tilePart k = p ∧ (s.tile k).waiting = true ∧
             runBit (s.tile k) = true ∧ (s.tile k).lastIssue.toNat + 10000000 ≤ s.now.toNat)) &&
    decide (bit (s.ez (0x4010 + 0x40 * p)) 31 = false) &&
    decide (q.advised = none) &&
    decide (s.mod.cc.up = true) &&
    decide ((t :: l).Nodup)) = true := by decide

theorem witness_Aborts_11 : (
    let s : State := { quietState with now := 10000005#64, tiles := [(0, { tileOn with waiting := true, lastIssue := 5#64 }), (1, { tileOn with waiting := true })], parts := [(0, { state := 3 })], mod := { cc := { up := true } } }
    decide (s.canonical = true) &&
    let p : Nat := 0
    decide (p < 8) &&
    let q := s.part p
    let t : Nat := 0
    let l : List Nat := [1]
    decide (q.state = 3) &&
    decide ((∀ k ∈ t :: l, isTile k = true ∧ s.tilePart k = p ∧ (s.tile k).waiting = true ∧
             runBit (s.tile k) = true ∧ (s.tile k).lastIssue.toNat + 10000000 ≤ s.now.toNat)) &&
    decide (bit (s.ez (0x4010 + 0x40 * p)) 31 = false) &&
    decide (q.advised = none) &&
    decide (s.mod.cc.up = true)) = true := by decide

theorem witness_Aborts_12a : (
    let s : State := { quietState with parts := [(0, { state := 1 })] }
    decide (s.canonical = true)) = true := by decide

theorem witness_Capacity_0 : (
    let s : State := { State.reset with mod := { powered := true, stage := 3, cc := { mail := [(0, [{ tile := 3, code := 1 }])] } } }
    decide (s.canonical = true) &&
    decide (s.ccExists = true) &&
    decide (s.mod.cc.up = false)) = true := by decide

theorem witness_Capacity_1 : (
    let s : State := { State.reset with mod := { powered := true, stage := 6, cc := { up := true, sessions := [sess0] } } }
    decide (s.canonical = true) &&
    decide (s.ccExists = true)) = true := by decide

theorem witness_Capacity_2 : (
    let s : State := { State.reset with parts := [(7, { state := 2, ledger := [5, 6], kgen := 3, inv := 2, key := 9 })], ports := [(11, { csr := [(0, 0x00700000#32)] })], sites := [(47, { csr := [(4, 7#32)] })], mod := { cc := { up := true, changes := [(.port, 11, 15)], sessions := [sess0, { id := 3, part := 7, port := none }] } } }
    decide (s.canonical = true) &&
    decide (s.mod.cc.up = true) &&
    let k := .port
    let i := 11
    let new := 7
    decide ((Instr.capacityChange k i new).wf = true) &&
    decide (s.ownerOf k i = new) &&
    let c := (.port, 11, 15)
    decide ((s.mod.cc.changes.find? fun c => c.1 = k && c.2.1 = i) = some c) &&
    decide ((k = .site → (s.site i).state ≠ 3))) = true := by decide

theorem witness_Capacity_3a : (
    let s : State := { State.reset with parts := [(7, { state := 2, ledger := [5, 6], kgen := 3, inv := 2, key := 9 })], ports := [(11, { csr := [(0, 0x00700000#32)] })], sites := [(47, { csr := [(4, 7#32)] })], mod := { cc := { up := true, sessions := [sess0, { id := 3, part := 7, port := none }] } } }
    decide (s.canonical = true) &&
    decide (s.mod.cc.up = true) &&
    let k := .port
    let i := 11
    let new := 7
    decide ((Instr.capacityChange k i new).wf = true) &&
    decide (s.ownerOf k i = new) &&
    decide ((s.mod.cc.changes.find? fun c => c.1 = k && c.2.1 = i) = none) &&
    decide ((k = .site → (s.site i).state ≠ 3))) = true := by decide

theorem witness_Capacity_4 : (
    let s : State := { State.reset with parts := [(7, { state := 2, ledger := [5, 6], kgen := 3, inv := 2, key := 9 })], ports := [(11, { csr := [(0, 0x00700000#32)] })], sites := [(47, { state := 3, csr := [(4, 7#32)] })], mod := { cc := { up := true, sessions := [sess0, { id := 3, part := 7, port := none }] } } }
    decide (s.canonical = true) &&
    decide (s.mod.cc.up = true) &&
    let k := .site
    let i := 47
    let new := 7
    decide ((Instr.capacityChange k i new).wf = true) &&
    decide (s.ownerOf k i = new) &&
    decide ((s.mod.cc.changes.find? fun c => c.1 = k && c.2.1 = i) = none) &&
    decide (k = .site) &&
    decide ((s.site i).state = 3)) = true := by decide

theorem witness_Capacity_5a : (
    let s : State := { State.reset with parts := [(7, { state := 2, ledger := [5, 6], kgen := 3, inv := 2, key := 9 })], ports := [(11, { csr := [(0, 0x00700000#32)] })], sites := [(47, { csr := [(4, 7#32)] })], mod := { cc := { up := true, sessions := [sess0, { id := 3, part := 7, port := none }] } } }
    decide (s.canonical = true) &&
    decide (s.mod.cc.up = true) &&
    let k := .field
    let i := 69
    let new := 6
    decide ((Instr.capacityChange k i new).wf = true) &&
    decide (s.ownerOf k i ≠ new) &&
    let n := 4
    decide (n ≠ 2) &&
    decide (s.capacityBad k i (s.ownerOf k i) new = some n)) = true := by decide

theorem witness_Capacity_6 : (
    let s : State := { State.reset with parts := [(7, { state := 2, ledger := [5, 6], kgen := 3, inv := 2, key := 9 })], ports := [(11, { xfers := [{ tag := 1, mod := false, read := false, win := 0, unit := 0, n := 1, site := 0, base := 0 }], csr := [(0, 0x00700000#32)] })], sites := [(47, { csr := [(4, 7#32)] })], mod := { cc := { up := true, sessions := [sess0, { id := 3, part := 7, port := none }] } } }
    decide (s.canonical = true) &&
    decide (s.mod.cc.up = true) &&
    let k := .port
    let i := 11
    let new := 15
    decide ((Instr.capacityChange k i new).wf = true) &&
    decide (s.ownerOf k i ≠ new) &&
    decide (s.capacityBad k i (s.ownerOf k i) new = some 2)) = true := by decide

theorem witness_Capacity_7a : (
    let s : State := { State.reset with parts := [(7, { state := 2, ledger := [5, 6], kgen := 3, inv := 2, key := 9 })], ports := [(11, { csr := [(0, 0x00700000#32)] })], sites := [(47, { csr := [(4, 7#32)] })], mod := { cc := { up := true, sessions := [sess0, { id := 3, part := 7, port := none }] } } }
    decide (s.canonical = true) &&
    decide (s.mod.cc.up = true) &&
    let k := .port
    let i := 11
    let new := 15
    decide ((Instr.capacityChange k i new).wf = true) &&
    decide (s.ownerOf k i ≠ new) &&
    decide (s.capacityBad k i (s.ownerOf k i) new = none)) = true := by decide

theorem witness_Capacity_8a : (
    let s : State := { State.reset with parts := [(7, { state := 2, ledger := [5, 6], kgen := 3, inv := 2, key := 9 })], ports := [(11, { csr := [(0, 0x00700000#32)] })], sites := [(47, { csr := [(4, 7#32)] })], mod := { cc := { up := true, sessions := [sess0, { id := 3, part := 7, port := none }] } } }
    decide (s.canonical = true) &&
    decide (s.mod.cc.up = true) &&
    let q : Nat := 11
    decide (q < 12) &&
    let new := 0
    decide (new < 16)) = true := by decide

theorem witness_Capacity_9 : (
    let s : State := { State.reset with parts := [(7, { state := 2, ledger := [5, 6], kgen := 3, inv := 2, key := 9 })], ports := [(11, { csr := [(0, 0x00700000#32)] })], sites := [(47, { csr := [(4, 7#32)] })], mod := { cc := { up := true, sessions := [sess0, { id := 3, part := 7, port := none }] } } }
    decide (s.canonical = true) &&
    decide (s.mod.cc.up = true) &&
    let p : Nat := 6
    decide (p < 8) &&
    let limit := 65535
    decide (limit < 65536) &&
    decide ((s.part p).state = 0) &&
    decide (s.mod.sec.rngFail = false)) = true := by decide

theorem witness_Capacity_10 : (
    let s : State := { State.reset with parts := [(7, { state := 2, ledger := [5, 6], kgen := 3, inv := 2, key := 9 })], ports := [(11, { csr := [(0, 0x00700000#32)] })], sites := [(47, { csr := [(4, 7#32)] })], mod := { cc := { up := true, sessions := [sess0, { id := 3, part := 7, port := none }] } } }
    decide (s.canonical = true) &&
    decide (s.mod.cc.up = true) &&
    let p : Nat := 7
    decide (p < 8) &&
    decide ((s.part p).state = 1 ∨ (s.part p).state = 2) &&
    decide ((s.part p).job = none) &&
    decide (s.quiescent p = true)) = true := by decide

theorem witness_Capacity_12 : (
    let s : State := { State.reset with sites := [(47, { state := 2, dirty := true, m := { mem := [(3, 5#8)] } })], parts := [(7, { state := 1, key := 9 })], mod := { cc := { up := true, conf := [(7, { sites := [3, 47] })] } } }
    decide (s.canonical = true) &&
    decide (s.mod.cc.up = true) &&
    let n : Nat := 47
    decide (n < 48) &&
    let p : Nat := 7
    decide (p < 8) &&
    decide ((s.site n).dirty = true) &&
    decide ((s.site n).owner = 15) &&
    decide ((s.site n).wiping = false) &&
    decide ((s.part p).key ≠ 0) &&
    decide ((s.part p).state ≠ 0)) = true := by decide

theorem witness_Capacity_13 : (
    let s : State := { State.reset with sites := [(47, { state := 2, dirty := true, wiping := true, wipeFor := 7, keys := [(7, 9)], m := { mem := [(3, 5#8)] } })], parts := [(7, { state := 1, key := 9 })], mod := { cc := { up := true, conf := [(7, { sites := [3, 47] })] } } }
    decide (s.canonical = true) &&
    decide (s.mod.cc.up = true) &&
    let n : Nat := 47
    decide (n < 48) &&
    let x := s.site n
    decide (x.wiping = true) &&
    decide (x.wipeStr = false) &&
    decide (x.wipeFor < 8) &&
    decide ((s.part x.wipeFor).key ≠ 0) &&
    decide (Map.get (fun _ => 0) x.keys x.wipeFor = (s.part x.wipeFor).key) &&
    decide (bits (x.csrWord 0x30) 30 28 ≠ 1) &&
    decide (s.quiescent x.wipeFor = true)) = true := by decide

theorem witness_Capacity_14a : (
    let s : State := { State.reset with parts := [(7, { state := 2, ledger := [5, 6], kgen := 3, inv := 2, key := 9 })], ports := [(11, { csr := [(0, 0x00700000#32)] })], sites := [(47, { csr := [(4, 7#32)] })], mod := { cc := { up := true, sessions := [sess0, { id := 3, part := 7, port := none }] } } }
    decide (s.canonical = true) &&
    decide (s.mod.cc.up = true) &&
    let count := 2
    let named := [69, 68]
    decide (count ≤ 2) &&
    decide (((named).all fun f => decide (f < 70)) = true)) = true := by decide

theorem witness_Capacity_15 : (
    let s : State := { State.reset with parts := [(7, { state := 2, ledger := [5, 6], kgen := 3, inv := 2, key := 9 })], ports := [(11, { csr := [(0, 0x00700000#32)] })], sites := [(47, { csr := [(4, 7#32)] })], mod := { cc := { up := true, sessions := [sess0, { id := 3, part := 7, port := none }] } } }
    decide (s.canonical = true) &&
    decide (s.mod.cc.up = true) &&
    let p : Nat := 7
    decide (p < 8) &&
    decide ((s.part p).state ≠ 1)) = true := by decide

theorem witness_Capacity_16 : (
    let s : State := { State.reset with parts := [(7, { state := 1, ledger := [5, 6], kgen := 3, inv := 2, key := 9 })], ports := [(11, { csr := [(0, 0x00700000#32)] })], sites := [(47, { csr := [(4, 7#32)] })], mod := { cc := { up := true, sessions := [sess0, { id := 3, part := 7, port := none }] } } }
    decide (s.canonical = true) &&
    decide (s.mod.cc.up = true) &&
    let p : Nat := 7
    decide (p < 8) &&
    decide ((s.part p).state = 1) &&
    decide (s.quiescent p = true)) = true := by decide

theorem witness_Capacity_17a : (
    let s : State := { State.reset with parts := [(7, { state := 2, ledger := [5, 6], kgen := 3, inv := 2, key := 9 })], ports := [(11, { csr := [(0, 0x00700000#32)] })], sites := [(47, { csr := [(4, 7#32)] })], mod := { cc := { up := true, sessions := [sess0, { id := 3, part := 7, port := none }] } } }
    decide (s.canonical = true) &&
    decide (s.mod.cc.up = true) &&
    let p : Nat := 7
    decide (p < 8)) = true := by decide

theorem witness_Capacity_18 : (
    let s : State := { State.reset with parts := [(7, { state := 2, ledger := [5, 6], kgen := 3, inv := 2, key := 9 })], ports := [(11, { csr := [(0, 0x00700000#32)] })], sites := [(47, { csr := [(4, 7#32)] })], mod := { cc := { up := true, sessions := [sess0, { id := 3, part := 7, port := none }] } } }
    decide (s.canonical = true) &&
    decide (s.mod.cc.up = true) &&
    let p : Nat := 7
    decide (p < 8) &&
    let slot : Nat := 3
    decide (slot < 4) &&
    let rights := 3
    decide ((s.part p).state ≠ 0) &&
    decide (rights < 4)) = true := by decide

theorem witness_Coordinates_0 : (
    let fx : Nat := 9
    let fy : Nat := 6
    let tx : Nat := 34
    let ty : Nat := 47
    decide (fx < 10) &&
    decide (fy < 7) &&
    decide (tx < 35) &&
    decide (ty < 48) &&
    let t := fieldTile (fy * 10 + fx) tx ty
    let gx : Nat := 9
    let gy : Nat := 6
    let ux : Nat := 34
    let uy : Nat := 47
    decide (gx < 10) &&
    decide (gy < 7) &&
    decide (ux < 35) &&
    decide (uy < 48) &&
    decide (fieldTile (gy * 10 + gx) ux uy = t)) = true := by decide

theorem witness_Coordinates_1a : (
    let fx : Nat := 9
    let fy : Nat := 6
    let tx : Nat := 34
    let ty : Nat := 47
    decide (fx < 10) &&
    decide (fy < 7) &&
    decide (tx < 35) &&
    decide (ty < 48)) = true := by decide

theorem witness_FirmwareAndKeys_0 : (
    let s : State := { State.reset with mod := { powered := true, stage := 6, cc := { up := true }, preg := [(0x90008, 5#32)] } }
    decide (s.canonical = true) &&
    let i : Image := { factoryImage 2 with svn := 4, version := 7 }
    decide (i.cls < 7) &&
    decide (s.mod.cc.up = true) &&
    decide (s.mod.sec.recovery = false) &&
    decide (i.cls < 6) &&
    decide (i.svn < (s.arb i.cls).toNat)) = true := by decide

theorem witness_FirmwareAndKeys_1 : (
    let s : State := { State.reset with mod := { powered := true, stage := 6, cc := { up := true }, sec := { running := [(2, (3, 9))] } } }
    decide (s.canonical = true) &&
    let i : Image := { factoryImage 3 with svn := 4, version := 7 }
    decide (i.cls < 7) &&
    decide (s.mod.cc.up = true) &&
    decide (s.mod.sec.recovery = false) &&
    let a := Map.get (fun _ => 0) s.mod.sec.active i.cls
    decide (i.cls = 6 ∨ (s.arb i.cls).toNat ≤ i.svn) &&
    decide (a ≤ 1) &&
    decide (i.cls ≠ 4 ∨ (s.running 4).1 ≠ 0)) = true := by decide

theorem witness_FirmwareAndKeys_3 : (
    let s : State := { State.reset with mod := { powered := true, stage := 7, sec := { recovery := true, failClass := 2 } } }
    decide (s.canonical = true) &&
    let i : Image := { factoryImage 2 with version := 9 }
    decide (i.cls < 7) &&
    decide (s.mod.sec.recovery = true) &&
    decide ((i.cls = 1 ∨ i.cls = 2)) &&
    decide (i.cls = s.mod.sec.failClass) &&
    decide (s.verifies i.cls i = true)) = true := by decide

theorem witness_FirmwareAndKeys_4a : (
    let s : State := { State.reset with mod := { powered := true, stage := 7, sec := { recovery := true, failClass := 1 } } }
    decide (s.canonical = true) &&
    let i : Image := factoryImage 2
    decide (i.cls < 7) &&
    decide (s.mod.sec.recovery = true) &&
    decide (i.cls ≠ s.mod.sec.failClass ∨ s.verifies i.cls i = false)) = true := by decide

theorem witness_FirmwareAndKeys_5 : (
    let s : State := { State.reset with mod := { powered := true, stage := 6, cc := { up := true }, sec := { running := [(2, (3, 9))] } } }
    decide (s.canonical = true) &&
    let c : Nat := 2
    decide (c < 6) &&
    decide (s.mod.cc.up = true) &&
    decide ((s.running c).2 < 2 ^ 32)) = true := by decide

theorem witness_FirmwareAndKeys_6 : (
    let s : State := { State.reset with parts := [(3, { state := 4, key := 9, ledger := [4] })], sites := [(2, { csr := [(4, 0#32)] })], mod := { powered := true, stage := 6, sec := { nonce := some (5, 7#64) } } }
    decide (s.canonical = true) &&
    decide (s.rootUp = true) &&
    let serial : Nat := s.mod.serial
    let nonce : Nat := 5
    let t : DWord := 7#64
    decide (s.mod.sec.nonce = some (nonce, t)) &&
    decide (s.now.toNat < t.toNat + 600000000000) &&
    decide (serial = s.mod.serial) &&
    decide (s.clearing = true)) = true := by decide

theorem witness_FirmwareAndKeys_7 : (
    let s : State := { State.reset with parts := [(3, { state := 3, key := 9, ledger := [4] })], sites := [(2, { csr := [(4, 0#32)] })], mod := { powered := true, stage := 6, sec := { nonce := some (5, 7#64) } } }
    decide (s.canonical = true) &&
    decide (s.rootUp = true) &&
    let serial : Nat := s.mod.serial
    let nonce : Nat := 5
    let t : DWord := 7#64
    decide (s.mod.sec.nonce = some (nonce, t)) &&
    decide (s.now.toNat < t.toNat + 600000000000) &&
    decide (serial = s.mod.serial) &&
    decide (s.clearing = false)) = true := by decide

theorem witness_FirmwareAndKeys_8 : (
    let s : State := { State.reset with sites := [(2, { csr := [(4, 0#32)] })], mod := { powered := true, stage := 6, sec := { nonce := some (5, 7#64), modDbg := false } } }
    decide (s.canonical = true) &&
    decide (s.rootUp = true) &&
    let serial : Nat := s.mod.serial
    let nonce : Nat := 5
    let t : DWord := 7#64
    decide (s.mod.sec.nonce = some (nonce, t)) &&
    decide (s.now.toNat < t.toNat + 600000000000) &&
    decide (serial = s.mod.serial) &&
    decide (s.clearing = false)) = true := by decide

theorem witness_FirmwareAndKeys_11 : (
    let s : State := { State.reset with parts := [(3, { state := 2, key := 9, ledger := [4] })], sites := [(2, { csr := [(4, 0#32)] })], mod := { powered := true, stage := 6, sec := { nonce := some (5, 7#64) } } }
    decide (s.canonical = true) &&
    decide (s.rootUp = true) &&
    let serial : Nat := s.mod.serial
    let nonce : Nat := 5
    let t : DWord := 7#64
    decide (s.mod.sec.nonce = some (nonce, t)) &&
    decide (s.now.toNat < t.toNat + 600000000000) &&
    decide (serial = s.mod.serial) &&
    decide (s.clearing = false)) = true := by decide

theorem witness_FirmwareAndKeys_12 : (
    let s : State := { State.reset with parts := [(3, { state := 2, key := 9, ledger := [4] })], sites := [(2, { csr := [(4, 0#32)] })], mod := { powered := true, stage := 6, sec := { unlock := 2 } } }
    decide (s.canonical = true) &&
    decide (s.rootUp = true) &&
    decide (s.mod.sec.unlock = 2) &&
    decide (((List.range 8).all fun p => decide ((s.part p).state ≠ 4)) = true) &&
    let p : Nat := 3
    decide (p < 8)) = true := by decide

theorem witness_FirmwareAndKeys_13 : (
    let s : State := { State.reset with parts := [(3, { state := 2, key := 9, ledger := [4] })], sites := [(2, { csr := [(4, 0#32)] })], mod := { powered := true, stage := 6, sec := { unlock := 2 } } }
    decide (s.canonical = true) &&
    decide (s.rootUp = true) &&
    decide (s.mod.sec.unlock = 2) &&
    decide (((List.range 8).all fun p => decide ((s.part p).state ≠ 4)) = true) &&
    let n : Nat := 2
    decide (n < 48)) = true := by decide

theorem witness_FirmwareAndKeys_14 : (
    let s : State := { State.reset with parts := [(3, { state := 2, key := 9, ledger := [4] })], sites := [(2, { csr := [(4, 0#32)] })], mod := { powered := true, stage := 6, sec := { unlock := 2 } } }
    decide (s.canonical = true) &&
    decide (s.rootUp = true) &&
    decide (s.mod.sec.unlock = 2) &&
    decide (((List.range 8).all fun p => decide ((s.part p).state ≠ 4)) = true)) = true := by decide

theorem witness_FirmwareAndKeys_15 : (
    let s : State := { State.reset with parts := [(3, { state := 2, key := 9, ledger := [4] })], sites := [(2, { csr := [(4, 0#32)] })], mod := { powered := true, stage := 6, sec := { nonce := some (5, 7#64) } } }
    decide (s.canonical = true) &&
    decide (s.rootUp = true) &&
    decide (s.mod.sec.rngFail = false)) = true := by decide

theorem witness_FirmwareAndKeys_16 : (
    let s : State := { State.reset with mod := { powered := true, stage := 6, cc := { up := true }, sec := { running := [(2, (3, 9))] } } }
    decide (s.canonical = true)) = true := by decide

theorem witness_Attestation_0a : (
    let c : Nat := 3
    let s : State := { State.reset with mod := { powered := true, stage := 6, sec := { certIssued := true, meas := [8, 1, 2, 3, 4, 5], conns := [(1, { level := 3 }), (2, { level := 3, log := [7] })], running := [(0, (8, 1))], aliasKey := 99 } } }
    decide (c < 8) &&
    decide (s.rootUp = true) &&
    decide (Map.wf (fun _ => ({} : Conn)) s.mod.sec.conns = true) &&
    let now := (s.conn c).level
    decide (now = 0)) = true := by decide

theorem witness_Attestation_1 : (
    let c : Nat := 2
    let s : State := { State.reset with mod := { powered := true, stage := 6, sec := { certIssued := true, meas := [8, 1, 2, 3, 4, 5], conns := [(1, { level := 3 }), (2, { level := 1, log := [7] })], running := [(0, (8, 1))], aliasKey := 99 } } }
    decide (c < 8) &&
    decide (s.rootUp = true) &&
    decide (Map.wf (fun _ => ({} : Conn)) s.mod.sec.conns = true) &&
    let now := (s.conn c).level
    decide (now ≠ 0)) = true := by decide

theorem witness_Attestation_2 : (
    let c : Nat := 2
    let s : State := { State.reset with mod := { powered := true, stage := 6, sec := { certIssued := true, meas := [8, 1, 2, 3, 4, 5], conns := [(1, { level := 3 }), (2, { level := 2, log := [7] })], running := [(0, (8, 1))], aliasKey := 99 } } }
    decide (c < 8) &&
    decide (s.rootUp = true) &&
    decide (Map.wf (fun _ => ({} : Conn)) s.mod.sec.conns = true) &&
    let sec := s.mod.sec
    let now := (s.conn c).level
    decide (sec.certIssued = true) &&
    decide (now = 2)) = true := by decide

theorem witness_Attestation_4 : (
    let c : Nat := 2
    let s : State := { State.reset with mod := { powered := true, stage := 6, sec := { certIssued := true, meas := [8, 1, 2, 3, 4, 5], conns := [(1, { level := 3 }), (2, { level := 3, log := [7] })], running := [(0, (8, 1))], aliasKey := 99 } } }
    decide (c < 8) &&
    decide (s.rootUp = true) &&
    decide (Map.wf (fun _ => ({} : Conn)) s.mod.sec.conns = true) &&
    let d := 1
    decide (d ≠ c)) = true := by decide

theorem witness_Attestation_5 : (
    let c : Nat := 2
    let s : State := { State.reset with mod := { powered := true, stage := 6, sec := { certIssued := true, meas := [8, 1, 2, 3, 4, 5], conns := [(1, { level := 3 }), (2, { level := 3, log := [7] })], running := [(0, (8, 1))], aliasKey := 99 } } }
    decide (c < 8) &&
    decide (s.rootUp = true) &&
    decide (Map.wf (fun _ => ({} : Conn)) s.mod.sec.conns = true)) = true := by decide

theorem witness_Attestation_6a : (
    let c : Nat := 2
    let s : State := { State.reset with mod := { powered := true, stage := 6, sec := { certIssued := true, meas := [8, 1, 2, 3, 4, 5], conns := [(1, { level := 3 }), (2, { level := 3, log := [7] })], running := [(0, (8, 1))], aliasKey := 99 } } }
    decide (c < 8) &&
    decide (s.rootUp = true) &&
    decide (Map.wf (fun _ => ({} : Conn)) s.mod.sec.conns = true) &&
    let sec := s.mod.sec
    let now := (s.conn c).level
    decide (sec.certIssued = true) &&
    decide (now = 3) &&
    let i := 1
    let l := [8]
    decide (0 < i) &&
    decide (i < 255) &&
    decide (s.measure i = some l)) = true := by decide

theorem witness_Attestation_7 : (
    let c : Nat := 2
    let s : State := { State.reset with mod := { powered := true, stage := 6, sec := { certIssued := true, meas := [8, 1, 2, 3, 4, 5], conns := [(1, { level := 3 }), (2, { level := 3, log := [7] })], running := [(0, (8, 1))], aliasKey := 99 } } }
    decide (c < 8) &&
    decide (s.rootUp = true) &&
    decide (Map.wf (fun _ => ({} : Conn)) s.mod.sec.conns = true) &&
    let sec := s.mod.sec
    let now := (s.conn c).level
    decide (sec.certIssued = true) &&
    decide (now = 3)) = true := by decide

theorem witness_Attestation_8 : (
    let c : Nat := 2
    let s : State := { State.reset with mod := { powered := true, stage := 6, sec := { certIssued := true, meas := [8, 1, 2, 3, 4, 5], conns := [(1, { level := 3 }), (2, { level := 3, log := [7] })], running := [(0, (8, 1))], aliasKey := 99 } } }
    decide (c < 8) &&
    decide (s.rootUp = true) &&
    decide (Map.wf (fun _ => ({} : Conn)) s.mod.sec.conns = true) &&
    let sec := s.mod.sec
    let now := (s.conn c).level
    decide (sec.certIssued = true) &&
    decide (now = 3) &&
    let slot := 2
    decide (slot ≠ 0)) = true := by decide

theorem witness_Attestation_10 : (
    let c : Nat := 2
    let s : State := { State.reset with mod := { powered := true, stage := 6, sec := { certIssued := true, meas := [8, 1, 2, 3, 4, 5], conns := [(1, { level := 3 }), (2, { level := 2, log := [7] })], running := [(0, (8, 1))], aliasKey := 99 } } }
    decide (c < 8) &&
    decide (s.rootUp = true) &&
    decide (Map.wf (fun _ => ({} : Conn)) s.mod.sec.conns = true) &&
    let sec := s.mod.sec
    let now := (s.conn c).level
    decide (sec.certIssued = true) &&
    decide (now ≠ 3)) = true := by decide

theorem witness_Attestation_11 : (
    let c : Nat := 2
    let s : State := { State.reset with mod := { powered := true, stage := 6, sec := { certIssued := false, meas := [8, 1, 2, 3, 4, 5], conns := [(1, { level := 3 }), (2, { level := 3, log := [7] })], running := [(0, (8, 1))], aliasKey := 99 } } }
    decide (c < 8) &&
    decide (s.rootUp = true) &&
    decide (Map.wf (fun _ => ({} : Conn)) s.mod.sec.conns = true) &&
    let sec := s.mod.sec
    decide (sec.certIssued = false)) = true := by decide

theorem witness_PowerOnAndReset_0a : (
    let s : State := State.reset
    decide (s.canonical = true) &&
    let a : Bool := true
    let b : Bool := true
    decide (s.mod.powered = false) &&
    decide (s.mod.holdUp = none) &&
    decide (a = true ∨ b = true)) = true := by decide

theorem witness_PowerOnAndReset_1 : (
    let s : State := { State.reset with mod := { powered := true, stage := 0 } }
    decide (s.canonical = true) &&
    decide (s.mod.powered = true) &&
    decide (s.mod.stage = 0) &&
    decide ((s.goodCopy 0).isSome = true) &&
    decide (s.mod.sec.rngFail = false)) = true := by decide

theorem witness_PowerOnAndReset_2a : (
    let s : State := { State.reset with mod := { powered := true, stage := 1 } }
    decide (s.canonical = true) &&
    decide (s.mod.powered = true) &&
    decide (s.mod.stage = 1) &&
    decide (s.mod.sec.recovery = false) &&
    decide ((s.goodCopy 3).isSome = true)) = true := by decide

theorem witness_PowerOnAndReset_4 : (
    let s : State := { State.reset with mod := { powered := true, stage := 2, sec := { aliasKey := 9 } } }
    decide (s.canonical = true) &&
    decide (s.mod.powered = true) &&
    decide (s.mod.stage = 2) &&
    decide (s.mod.cc.up = false) &&
    decide ((s.goodCopy 1).isSome = true) &&
    decide ((s.goodCopy 2).isSome = true)) = true := by decide

theorem witness_PowerOnAndReset_6a : (
    let s : State := { State.reset with mod := { powered := true, stage := 2, sec := { images := [(2, { factoryImage 1 with sigOk := false }), (3, { factoryImage 1 with sigOk := false })] } } }
    decide (s.canonical = true) &&
    decide (s.mod.powered = true) &&
    decide (s.mod.stage = 2) &&
    decide (s.mod.cc.up = false) &&
    decide (s.goodCopy 1 = none ∨ s.goodCopy 2 = none)) = true := by decide

theorem witness_PowerOnAndReset_7a : (
    let s : State := { State.reset with sites := (List.range 48).map fun n => (n, if n = 7 then { state := 3 } else { state := 1 }), mod := { powered := true, stage := 2, cc := { up := true } } }
    decide (s.canonical = true) &&
    decide (s.mod.powered = true) &&
    decide (s.mod.stage = 2) &&
    decide (s.mod.cc.up = true)) = true := by decide

theorem witness_PowerOnAndReset_9 : (
    let s : State := { State.reset with sites := (List.range 48).map fun n => (n, if n = 7 then { state := 3 } else { state := 2, marched := true }), mod := { powered := true, stage := 3 } }
    decide (s.canonical = true) &&
    decide (s.mod.powered = true) &&
    decide (s.mod.stage = 3) &&
    decide (((List.range 48).all fun n => decide ((s.site n).state ≠ 2 ∨ (s.site n).marched = true)) = true)) = true := by decide

theorem witness_PowerOnAndReset_10 : (
    let s : State := { State.reset with sites := (List.range 48).map fun n => (n, if n = 7 then { state := 3 } else { state := 2, marched := decide (n ≠ 47) }), mod := { powered := true, stage := 3 } }
    decide (s.canonical = true) &&
    decide (s.mod.powered = true) &&
    decide (s.mod.stage = 3) &&
    decide ((∃ n ∈ List.range 48, (s.site n).state = 2 ∧ (s.site n).marched = false))) = true := by decide

theorem witness_PowerOnAndReset_11 : (
    let s : State := { State.reset with mod := { powered := true, stage := 4, firstLock := true } }
    decide (s.canonical = true) &&
    decide (s.mod.powered = true) &&
    decide (s.mod.stage = 4) &&
    decide (s.mod.firstLock = true)) = true := by decide

theorem witness_PowerOnAndReset_12 : (
    let s : State := { State.reset with mod := { powered := true, stage := 4 } }
    decide (s.canonical = true) &&
    decide (s.mod.powered = true) &&
    decide (s.mod.stage = 4) &&
    decide (s.mod.firstLock = false)) = true := by decide

theorem witness_PowerOnAndReset_13 : (
    let s : State := { State.reset with fields := (List.range 70).map fun k => (k, { power := 2, lock := true, sensed := true, tested := true }), mod := { powered := true, stage := 5 } }
    decide (s.canonical = true) &&
    decide (s.mod.powered = true) &&
    decide (s.mod.stage = 5) &&
    decide (s.fieldsDone = true)) = true := by decide

theorem witness_PowerOnAndReset_14 : (
    let s : State := { State.reset with mod := { powered := true, stage := 5 } }
    decide (s.canonical = true) &&
    decide (s.mod.powered = true) &&
    decide (s.mod.stage = 5) &&
    decide (s.fieldsDone = false)) = true := by decide

theorem witness_PowerOnAndReset_15a : (
    let s : State := { State.reset with mod := { powered := true, stage := 6 } }
    decide (s.canonical = true) &&
    decide (s.mod.powered = true) &&
    decide (6 ≤ s.mod.stage)) = true := by decide

theorem witness_PowerOnAndReset_16 : (
    let s : State := { State.reset with tiles := [(5, { credit := some 3, pc := 9 })], sites := [(2, { csr := [(4, 7#32)] })], parts := [(0, { state := 1, key := 9 }), (1, { state := 3 }), (2, { state := 2 })], mod := { powered := true, stage := 6, cc := { up := true, conf := [(4, { known := true, keys := [] })] } } }
    decide (s.canonical = true) &&
    decide (s.mod.stage = 6) &&
    decide (s.mod.cc.up = true) &&
    decide (s.mod.ready = false)) = true := by decide

theorem witness_PowerOnAndReset_19a : (
    let s : State := { State.reset with tiles := [(5, { credit := some 3, pc := 9 })], sites := [(2, { csr := [(4, 7#32)] })], parts := [(0, { state := 1, key := 9 }), (1, { state := 3 }), (2, { state := 2 })], mod := { powered := true, stage := 6, cc := { up := true, conf := [(4, { known := true, keys := [] })] } } }
    decide (s.canonical = true) &&
    decide (s.mod.stage ≠ 8)) = true := by decide

theorem witness_PowerOnAndReset_21 : (
    let s : State := { State.reset with mod := { powered := true, stage := 8 } }
    decide (s.canonical = true) &&
    decide (s.mod.stage = 8)) = true := by decide

theorem witness_ErrorLogRecords_0a : (
    let s : State := { State.reset with now := 5000#64, counting := true, mod := { log := { last := [(5, 9, 4000#64)] }, csr := [] } }
    let r : Rec := { source := 5, cls := 3, loc := 9, code := 2 }
    decide (Map.wf (regReset modRegs) s.mod.csr = true) &&
    let limited : Bool := decide (2 ≤ r.cls ∧ r.cls ≤ 4 ∧
      ∃ x ∈ s.mod.log.last, x.1 = r.source ∧ x.2.1 = r.loc ∧ s.now.toNat < x.2.2.toNat + 1000000)
    decide (limited)) = true := by decide

theorem witness_ErrorLogRecords_1 : (
    let s : State := { State.reset with now := 5000#64, counting := true, mod := { log := { last := [(5, 8, 4000#64)], lost := true }, csr := [(0x6000, 16383#32), (0x6004, 5#32), (0x600C, 77#32)] } }
    let r : Rec := { source := 5, cls := 3, loc := 9, code := 2 }
    decide (Map.wf (regReset modRegs) s.mod.csr = true) &&
    let head := bits (s.ez 0x6000) 13 0
    let tail := bits (s.ez 0x6004) 13 0
    let limited : Bool := decide (2 ≤ r.cls ∧ r.cls ≤ 4 ∧
      ∃ x ∈ s.mod.log.last, x.1 = r.source ∧ x.2.1 = r.loc ∧ s.now.toNat < x.2.2.toNat + 1000000)
    decide (¬ limited) &&
    decide ((head + 1) % 16384 ≠ tail)) = true := by decide

theorem witness_ErrorLogRecords_2 : (
    let s : State := { State.reset with now := 5000#64, counting := true, mod := { log := { last := [(5, 8, 4000#64)], lost := true }, csr := [(0x6000, 16383#32), (0x6004, 5#32), (0x600C, 77#32)] } }
    let r : Rec := { source := 5, cls := 3, loc := 9, code := 2 }
    decide (Map.wf (regReset modRegs) s.mod.csr = true) &&
    let head := bits (s.ez 0x6000) 13 0
    let tail := bits (s.ez 0x6004) 13 0
    let limited : Bool := decide (2 ≤ r.cls ∧ r.cls ≤ 4 ∧
      ∃ x ∈ s.mod.log.last, x.1 = r.source ∧ x.2.1 = r.loc ∧ s.now.toNat < x.2.2.toNat + 1000000)
    decide (¬ limited) &&
    decide ((head + 1) % 16384 ≠ tail) &&
    decide (2 ≤ r.cls) &&
    decide (r.cls ≤ 4) &&
    let v : Rec := { source := 5, cls := 2, loc := 9 }
    decide (v.source = r.source) &&
    decide (v.loc = r.loc) &&
    decide (2 ≤ v.cls) &&
    decide (v.cls ≤ 4)) = true := by decide

theorem witness_ErrorLogRecords_4 : (
    let s : State := { State.reset with now := 5000#64, counting := true, mod := { log := { last := [] }, csr := [(0x6000, 16383#32), (0x6008, 4294967295#32), (0x600C, 77#32)] } }
    let r : Rec := { source := 5, cls := 3, loc := 9, code := 2 }
    decide (Map.wf (regReset modRegs) s.mod.csr = true) &&
    let head := bits (s.ez 0x6000) 13 0
    let tail := bits (s.ez 0x6004) 13 0
    let limited : Bool := decide (2 ≤ r.cls ∧ r.cls ≤ 4 ∧
      ∃ x ∈ s.mod.log.last, x.1 = r.source ∧ x.2.1 = r.loc ∧ s.now.toNat < x.2.2.toNat + 1000000)
    decide (¬ limited) &&
    decide ((head + 1) % 16384 = tail)) = true := by decide

theorem witness_WellFormedCompletes_0 : (
    let c : Instr := .ccRestart
    decide (c.wf = true)) = true := by decide

theorem witness_WellFormedCompletes_1 : (
    let c : Instr := .beqz nTiles { sa := 0, sb := 0, tgt := 0 }
    decide (c.wf = false)) = true := by decide

theorem witness_EncodeDecode_0 : (
    let c : Instr := .ctlEnd 5 { sa := 0, sb := 0, tgt := 0 }
    let w : DWord := 0x0420000000000000#64
    decide (encodeWord c = some w)) = true := by decide

theorem witness_EncodeDecode_1 : (
    let t : Nat := 5
    let w : DWord := 0x0420000000000000#64
    let c : Instr := .ctlEnd 5 { sa := 0, sb := 0, tgt := 0 }
    decide (decodeWord t w = some c)) = true := by decide

/-- A block none of whose rows is enabled waits to be updated at site 0, and one waits to be folded. -/
def blockState : State := { quietState with
  sites := [(0, { state := 2, dirty := false, strDirty := false, csr := [(4, 0#32), (0x608, 1#32), (0x624, 1#32), (0xA000, 0x20780000#32)],
                  upd := { next := 1, queue := [1],
                           bt := [(1, { bind := 1125899906842625, idx := 0, res := 1, fired := false,
                                        got := some { bucket := 9, block := 1, vals := [0x3F800000#32], nf := false, mask := 0#32 } })] } })]
  mod := { cc := { up := true } } }
@[inherit_doc blockState] def foldState : State := { quietState with
  sites := [(0, { state := 2, csr := [(4, 0#32), (0x624, 3#32), (0x648, 0x3F000000#32), (0xA000, 0x20780000#32)],
                  upd := { fired := [{ bind := 1125899906842625, idx := 0, bucket := 9, mask := 0#32 }] } })]
  mod := { cc := { up := true } } }

theorem witness_EngineBlocks_4 :
    let s := blockState
    let x := s.site 0
    ∃ k l en blk, x.upd.queue = k :: l ∧ btGet x k = some en ∧ en.got = some blk ∧ tainted x = false ∧ en.res ≠ 2 ∧
      x.upd.stopped = false ∧ en.parked = false ∧
      let g := bindGroup en.bind
      let lu := liveUnit x en
      trains x g = true ∧ grpClip x g = 0 ∧ grpOpt x g ≠ 4 ∧
      readState (s.siteEnv 0) g lu { s := x, free := s.free } = ({ s := x, free := s.free }, false) ∧
      let live := readParts x g lu
      let new := List.zipWith (fun v old => (optElem (grpOpt x g) (optConst x g) v old).map toF32)
        (blk.vals.map (gradElem x)) (byElem live)
      ∃ y, writeHalf (!leanMode x) x en.bind blk.mask lu (List.range live.length) new = (y, false) ∧ grpClip y g = 0 := by
  refine ⟨1, [], _, _, rfl, rfl, rfl, by decide, by decide, by decide, by decide, by decide +kernel, by decide +kernel, by decide +kernel,
    by decide +kernel, ?_⟩
  obtain ⟨y, hy, hc⟩ := writeHalf_noRows (blockState.site 0) 1125899906842625 _ _ _ (by decide)
  refine ⟨y, hy, ?_⟩
  simp only [grpClip, grpWord, Site.csrWord, hc]
  decide +kernel

theorem witness_PavaneStates_4 :
    let s := foldState
    let z := s.site 0
    pavState z = 3 ∧ bits (z.csrWord 0x10) 2 0 ≠ 4 ∧ z.upd.folded = false ∧ ∃ f, z.upd.fired = [f] ∧
      let g := bindGroup f.bind
      let lu := halfUnit z f.bind (liveHalf z)
      let wu := halfUnit z f.bind (workHalf z)
      readState (s.siteEnv 0) g lu { s := z, free := s.free } = ({ s := z, free := s.free }, false) ∧
      readUnits (s.siteEnv 0) (wu + copyUnits (grpCopy z g) + 16) (16 * slotsOf z g) { s := z, free := s.free } =
        ({ s := z, free := s.free }, false) ∧
      let sh := readParts z g wu
      let new := List.zipWith (fun l h => (foldElem (grpOpt z g) (optConst z g) (f32 (z.csrWord 0x648)) l h).map toF32)
        (byElem (readParts z g lu)) (byElem sh)
      ∃ v, writeHalf false z f.bind f.mask wu (List.range sh.length) new = (v, false) := by
  refine ⟨by decide, by decide, by decide, _, rfl, by decide +kernel, by decide +kernel, ?_⟩
  obtain ⟨v, hv, -⟩ := writeHalf_noRows (foldState.site 0) 1125899906842625 _ _ _ (by decide)
  exact ⟨v, hv⟩

/-- Field 69 off, its map as the factory stored it. -/
def offState : State := { State.reset with fields := [(69, { mapped := true })], mod := { powered := true, cc := { up := true } } }

theorem witness_FieldPower_0 : offState.canonical = true ∧ 69 < 70 ∧
    offState.fieldCmdBad 69 1 = none ∧ offState.mod.stage ≠ 5 ∧ offState.fused 69 = false ∧ bit (offState.mapSum 69) 6 = false ∧
    offState.mapBad 69 = none :=
  ⟨by decide, by decide, by decide, by decide, by decide, by decide, mapBad_factory _ rfl⟩

/-- Field 69 at rest after a Squall, and with a change of its map that was cut short. -/
def restState : State := { State.reset with
  now := 0x1000000000000#64, fields := [(69, { power := 5, squalled := true, coolSince := some 5#64 })] }
@[inherit_doc restState] def cutState : State := { offState with
  mod := { powered := true, preg := [(476928, 0#32)]
           cc := { up := true, journalField := some 69, journalOpen := true, journal := [{ idx := 0, val := factoryWord 476928 }] } } }

theorem witness_FieldPower_1 : restState.canonical = true ∧ restState.fieldCmdBad 69 1 = none ∧ restState.mod.stage ≠ 5 ∧
    restState.fused 69 = false ∧ bit (restState.mapSum 69) 6 = false ∧ restState.mapBad 69 = none ∧ (restState.field 69).power = 5 :=
  ⟨by decide, by decide, by decide, by decide, by decide, mapBad_factory _ rfl, by decide⟩

theorem witness_FieldPower_5 : cutState.canonical = true ∧ cutState.fieldCmdBad 69 1 = none ∧ cutState.mod.stage ≠ 5 ∧
    cutState.fused 69 = false ∧ bit (cutState.mapSum 69) 6 = false ∧ cutState.mapBad 69 = some 476928 ∧ cutState.mod.cc.up = true ∧
    cutState.mod.cc.journalOpen = true ∧ cutState.mod.cc.journalField = some 69 ∧ cutState.closeJournal.fused 69 = false ∧
    bit (cutState.closeJournal.mapSum 69) 6 = false ∧ cutState.closeJournal.mapBad 69 = none :=
  ⟨by decide, by decide, by decide, by decide, by decide, by decide +kernel, by decide, by decide, by decide, by decide, by decide,
   mapBad_factory _ (by decide)⟩

/-- Field 0 alone is on. -/
def oneOn : State := { State.reset with fields := [(0, { power := 2, lock := true })], mod := { cc := { up := true } } }

theorem oneOn_kept : oneOn.routeSet.1 = [0] := by decide +kernel
theorem oneOn_noCycle : oneOn.swapCycles [0] oneOn.routeSet.2 = false := by decide +kernel

theorem witness_Routes_5 : oneOn.mod.cc.up = true ∧ oneOn.mod.cc.swap = false ∧ oneOn.anyOld = false ∧ oneOn.canonical = true ∧
    (∀ f ∈ List.range 70, (oneOn.field f).power ≠ 2 ∨ f ∈ mainGroup oneOn.routeSet.1 ∨ (oneOn.field f).unreach = true) ∧
    oneOn.swapCycles oneOn.routeSet.1 oneOn.routeSet.2 = false := by
  rw [oneOn_kept]
  exact ⟨by decide, by decide, by decide, by decide, by decide +kernel, oneOn_noCycle⟩

/-- Site 0 holds the binary, and the manifest its digest. -/
def submitState : State :=
  let m : Module := { (hosted {}).mod with ready := true }
  { hosted { state := 1 } with sites := [(0, { csr := [(4, 0#32)], m := { mem := binMem } })], mod := m }
@[inherit_doc submitState] def submitManifest : Manifest := { mani0 with bins := [{ digest := Config.shake256 binBytes, addr := 0, len := 304 }] }

theorem submit_bytes : submitState.memBytes 0 304 = binBytes := by decide +kernel

theorem submit_accepted : submitState.manifestBad 0 submitManifest = none := by
  have digest : submitManifest.bins.any (submitState.digestBad 0) = false := by
    have holds : submitState.holds 0 0 304 = true := by decide
    simp [submitManifest, mani0, State.digestBad, holds, submit_bytes]
  unfold State.manifestBad
  simp only [digest]
  decide +kernel

theorem witness_HostRuns_3 : submitState.mod.cc.up = true ∧ submitState.canonical = true ∧
    (submitState.mod.cc.sessions.find? fun y => y.id = 1) = some sess0 ∧ sess0.part = 0 ∧ submitState.mod.ready = true ∧
    submitState.manifestBad 0 submitManifest = none ∧
    ((submitState.readBins 0 submitManifest).filterMap id).any (tunedElse submitState.mod.b0) = false :=
  ⟨by decide, by decide, by decide, by decide, by decide, submit_accepted, by decide +kernel⟩

theorem witness_QueueKept_0 : ∃ u, exec .ccRestart { State.reset with pending := [.moduleReady] } = .next u := ⟨_, rfl⟩

theorem witness_CanonicalKept_0 : { quietState with pending := [.ccRestart] }.canonical = true ∧
    ∃ u, step { quietState with pending := [.ccRestart] } = .next u := ⟨by decide, _, rfl⟩

/-- Port 11 in Ethernet mode, its RoCEv2 priority paused. -/
def pausedState : State := ported { csr := [(0, 1#32), (0x1008, 4#32), (0x100C, 0x00010003#32)], state := 2, paused := [Config.rocePriority 11] }

theorem witness_RoceTraffic_10 : pausedState.canonical = true ∧ pausedState.roceUp 11 0 = true ∧
    Config.rocePriority 11 ∈ (pausedState.port 11).paused := ⟨by decide, by decide, List.mem_singleton.mpr rfl⟩

end Sys2Proof.Tests
end

section
/-!
The coordinates of tiles: what `tileX`, `tileY`, `fieldOf` and `isTile` read of a tile that `tileAt` or `fieldTile` names, and the
bijection of R10 between tiles and pairs of a field and an in-field position.
-/

namespace Sys2Proof.Machine

theorem fieldX_lt (f : Nat) : fieldX f < 10 := Nat.mod_lt f (by decide)

theorem fieldY_lt {f : Nat} (hf : f < 70) : fieldY f < 7 := Nat.div_lt_of_lt_mul hf

/-- Fields count in rows of ten. -/
theorem fieldY_mul_add_fieldX (f : Nat) : fieldY f * 10 + fieldX f = f := Nat.div_add_mod' f 10

theorem fieldX_index {fx : Nat} (fy : Nat) (hx : fx < 10) : fieldX (fy * 10 + fx) = fx :=
  Nat.mul_add_mod_of_lt hx

theorem fieldY_index {fx : Nat} (fy : Nat) (hx : fx < 10) : fieldY (fy * 10 + fx) = fy := by
  unfold fieldY; omega

theorem tileX_tileAt {x : Nat} (y : Nat) (hx : x < 350) : tileX (tileAt x y) = x := by
  unfold tileX tileAt; omega

theorem tileY_tileAt {x : Nat} (y : Nat) (hx : x < 350) : tileY (tileAt x y) = y := by
  unfold tileY tileAt; omega

theorem isTile_tileAt {x y : Nat} (hx : x < 350) (hy : y < 336) : isTile (tileAt x y) = true :=
  decide_eq_true (by unfold tileAt; omega)

section FieldTile
variable {tx ty : Nat}

/-- A column of a field is a column of the wafer. -/
theorem fieldTile_column_lt (f : Nat) (hx : tx < 35) : fieldX f * 35 + tx < 350 := by
  have := fieldX_lt f; omega

theorem tileX_fieldTile (f ty : Nat) (hx : tx < 35) : tileX (fieldTile f tx ty) = fieldX f * 35 + tx :=
  tileX_tileAt _ (fieldTile_column_lt f hx)

theorem tileY_fieldTile (f ty : Nat) (hx : tx < 35) : tileY (fieldTile f tx ty) = fieldY f * 48 + ty :=
  tileY_tileAt _ (fieldTile_column_lt f hx)

theorem fieldOf_fieldTile (f : Nat) (hx : tx < 35) (hy : ty < 48) : fieldOf (fieldTile f tx ty) = f := by
  have hrow : (fieldY f * 48 + ty) / 48 = fieldY f := by omega
  have hcol : (fieldX f * 35 + tx) / 35 = fieldX f := by omega
  rw [fieldOf, tileX_fieldTile f ty hx, tileY_fieldTile f ty hx, hrow, hcol, fieldY_mul_add_fieldX]

theorem isTile_fieldTile {f : Nat} (hf : f < 70) (hx : tx < 35) (hy : ty < 48) : isTile (fieldTile f tx ty) = true := by
  have hrow := fieldY_lt hf
  exact isTile_tileAt (fieldTile_column_lt f hx) (by omega)

/-- The tile determines its field by `fieldOf`, and then its in-field position by `tileX` and `tileY`. -/
theorem fieldTile_inj {f g ux uy : Nat} (hx : tx < 35) (hy : ty < 48) (hux : ux < 35) (huy : uy < 48)
    (h : fieldTile g ux uy = fieldTile f tx ty) : g = f ∧ ux = tx ∧ uy = ty := by
  have hfield : g = f := by
    simpa only [fieldOf_fieldTile _ hux huy, fieldOf_fieldTile _ hx hy] using congrArg fieldOf h
  subst hfield
  have hcol := congrArg tileX h
  have hrow := congrArg tileY h
  rw [tileX_fieldTile _ _ hux, tileX_fieldTile _ _ hx] at hcol
  rw [tileY_fieldTile _ _ hux, tileY_fieldTile _ _ hx] at hrow
  exact ⟨rfl, Nat.add_left_cancel hcol, Nat.add_left_cancel hrow⟩

end FieldTile

end Sys2Proof.Machine

namespace Sys2Proof
open Machine

/-- Settles O50: the reads of a tile of a field, at the field's index `fy * 10 + fx`, and the injectivity of `fieldTile`. -/
theorem coordinates : Obligations.Coordinates := by
  intro fx fy tx ty hfx hfy htx hty
  have hf : fy * 10 + fx < 70 := by omega
  refine ⟨?_, ?_, fieldOf_fieldTile _ htx hty, isTile_fieldTile hf htx hty, ?_⟩
  · rw [tileX_fieldTile _ _ htx, fieldX_index fy hfx]
  · rw [tileY_fieldTile _ _ htx, fieldY_index fy hfx]
  · intro gx gy ux uy hgx _ hux huy htile
    obtain ⟨hindex, hcol, hrow⟩ := fieldTile_inj htx hty hux huy htile
    exact ⟨by omega, by omega, hcol, hrow⟩

end Sys2Proof
end

section
/-!
Accesses without the module management privilege (R27, R475): every register block answers them with ECODE 0x40.
-/

namespace Sys2Proof.Machine

@[simp] theorem State.privileged_true (s : State) (a loc : Nat) (k : State) : s.privileged true a loc k = k := rfl
@[simp] theorem State.privileged_false (s : State) (a loc : Nat) (k : State) :
    s.privileged false a loc k = s.refuse a 0x40 loc := rfl

@[simp] theorem State.tileAccess_false (s : State) (t off : Nat) (k : State) :
    s.tileAccess false t off k = s.refuse (tileAddr t off) 0x40 t := rfl

theorem State.fpWrite_false (s : State) (t off : Nat) (v : Word) :
    s.fpWrite false t off v = s.refuse (tileAddr t (0xC0000 + off)) 0x40 t := rfl

theorem State.tileInject_false (s : State) (t : Nat) (v : Word) : s.tileInject false t v = s.refuse (tileAddr t 0xC0B00) 0x40 t := rfl

theorem State.tileReset_false (s : State) (t : Nat) : s.tileReset false t = s.refuse (tileAddr t 0xC0C00) 0x40 t := rfl

theorem State.tileInj_false (s : State) (t k port arg b : Nat) :
    s.tileInj false t k port arg b = s.refuse (tileAddr t 0xC0B00) 0x40 t := rfl

/-- Each of the four blocks of a tile's register page refuses. -/
theorem State.csrWrite_false (s : State) (t off : Nat) (v : Word) :
    s.csrWrite false t off v = s.refuse (tileAddr t (0xC0000 + off)) 0x40 t := by
  unfold State.csrWrite
  split
  · exact s.fpWrite_false t off v
  · split
    next _ hinj => rw [hinj, s.tileInject_false]
    next =>
      split
      next hrst =>
        obtain ⟨hoff, -⟩ : off = 0xC00 ∧ bit v 0 = true := by simpa using hrst
        rw [hoff, s.tileReset_false]
      next => rw [s.tileAccess_false]

theorem State.windowWrite_false (s : State) (t off : Nat) (v : Word) :
    s.windowWrite false t off v = s.refuse (tileAddr t off) 0x40 t := by
  simp only [State.windowWrite]
  split
  next hcsr => rw [s.csrWrite_false, Nat.add_sub_cancel' hcsr]
  next => rw [s.tileAccess_false]

theorem State.windowRead_false (s : State) (t off : Nat) : s.windowRead false t off = s.refuse (tileAddr t off) 0x40 t := rfl

theorem State.siteWrite_false (s : State) (n o : Nat) (v : Word) :
    s.siteWrite false n o v = s.refuse (siteAddr n o) 0x40 (siteLoc n) := rfl

theorem State.siteInj_false (s : State) (n k unit count temp : Nat) :
    s.siteInj false n k unit count temp = s.refuse (siteAddr n 0x30) 0x40 (siteLoc n) := rfl

theorem State.portWrite_false (s : State) (q a : Nat) (v : Word) :
    s.portWrite false q a v = s.refuse (portAddr q a) 0x40 (portLoc q 0) := rfl

theorem State.startTest_false (s : State) (f k : Nat) :
    s.startTest false f k = s.refuse (fieldAddr f 0x20) 0x40 (fieldLoc f) := rfl

/-- A command of PWR_FLD_STATE is refused by its register. -/
theorem State.fieldCmdWrite_false (s : State) (f cmd : Nat) :
    s.fieldCmdWrite false f cmd = s.refuse (ezAddr (0x1004 + 0x20 * f)) 0x40 (fieldLoc f) := by
  rw [State.fieldCmdWrite, State.privileged_false, show pwr f 4 = 0x1004 + 0x20 * f by unfold pwr; omega]

theorem State.ezArm_false (s : State) (k target sensor value dur : Nat) :
    s.ezArm false k target sensor value dur = s.refuse (ezAddr 0x7000) 0x40 (feedLoc 2) := rfl

theorem State.pregWrite_false (s : State) (o : Nat) (v back : Word) :
    s.pregWrite false o v back = s.refuse (0x7801000000 + o) 0x40 (feedLoc 2) := rfl

/-- A command whose operands name what exists answers the state that it makes. -/
theorem State.checked_of (s : State) {k u : State} {ok : Bool} (hok : ok = true) (hk : k = u) : s.checked ok k = .next u :=
  State.checked_next.mpr ⟨hok, hk.symm⟩

theorem State.onTileOk_of (s : State) {k u : State} {t : Nat} (ht : isTile t = true) (hk : k = u) : s.onTileOk t k = .next u :=
  s.checked_of ht hk

theorem State.fieldDo_of (s : State) {k u : State} {f : Nat} (hf : f < 70) (hk : k = u) : s.fieldDo f k = .next u.reportGuar :=
  s.checked_of (decide_eq_true hf) (congrArg _ hk)

end Sys2Proof.Machine

namespace Sys2Proof
open Machine

/-- Settles O33: every command is carried out by one of the accesses above, each of which refuses, where its operands name what exists. -/
theorem privilegeNeeded : Obligations.PrivilegeNeeded := by
  intro s v
  refine ⟨?tiles, ?windows, ?fields, ?sites, ?ports, ?power, ?partitions, ?ezper, ?store⟩
  case tiles =>
    intro t ht off d port arg b hlo hhi hreg hd
    have inj (k p a b : Nat) : s.onTileOk t (s.tileInj false t k p a b) = .next _ := s.onTileOk_of ht (s.tileInj_false t k p a b)
    simp only [List.forall_mem_cons, List.not_mem_nil, false_imp_iff, implies_true, and_true]
    refine ⟨s.onTileOk_of ht (s.csrWrite_false t _ v), s.checked_of ?_ (s.csrWrite_false t off v),
      s.onTileOk_of ht (s.csrWrite_false t _ v), s.checked_of ?_ (s.csrWrite_false t _ v), inj 1 0 arg b, inj 2 0 arg b,
      inj 3 0 0 b, inj 4 0 arg 0, inj 5 port arg b, inj 6 0 arg b, inj 7 0 arg b, inj 8 0 arg 0,
      s.onTileOk_of ht (s.fpWrite_false t _ _), s.onTileOk_of ht (s.fpWrite_false t _ _),
      s.checked_of ht (s.tileReset_false t)⟩
    · simp [of_decide_eq_true (p := t < nTiles) ht, hlo, hhi, hreg]
    · simp [of_decide_eq_true (p := t < nTiles) ht, hd]
  case windows =>
    intro a t off ha
    have read : s.addrRead false true a = s.refuse (tileAddr t off) 0x40 t := by simp only [State.addrRead, ha, s.windowRead_false]
    have write : s.addrWrite false true a v = s.refuse (tileAddr t off) 0x40 t := by simp only [State.addrWrite, ha, s.windowWrite_false]
    simp only [List.forall_mem_cons, List.not_mem_nil, false_imp_iff, implies_true, and_true]
    exact ⟨congrArg _ read, congrArg _ write, congrArg _ write⟩
  case fields =>
    intro f hf bank hbank d hd
    simp only [List.forall_mem_cons, List.not_mem_nil, false_imp_iff, implies_true, and_true]
    refine ⟨⟨s.checked_of ?_ (s.privileged_false _ _ _), s.checked_of (decide_eq_true hf) (s.privileged_false _ _ _)⟩,
      s.fieldDo_of hf (s.startTest_false f 1), s.fieldDo_of hf (s.startTest_false f 2), s.fieldDo_of hf (s.startTest_false f 3),
      s.fieldDo_of hf (s.startTest_false f 4), s.fieldDo_of hf (s.privileged_false _ _ _)⟩
    simp [nFields, hf, hbank, hd]
  case sites =>
    intro n hn w hw _ unit count temp
    have reg (o : Nat) (v : Word) : s.siteReg false n o v = .next _ := s.checked_of (decide_eq_true hn) (s.siteWrite_false n o v)
    have inj (k u c x : Nat) : s.checked (decide (n < nSites)) (s.siteInj false n k u c x) = .next _ :=
      s.checked_of (decide_eq_true hn) (s.siteInj_false n k u c x)
    have win (cmd : Nat) : s.checked (decide (n < nSites) && decide (w < 8))
        (s.siteWrite false n (0x108 + 16 * w) (winWord (s.site n) w cmd)) = .next _ :=
      s.checked_of (by simp [nSites, hn, hw]) (s.siteWrite_false n _ _)
    simp only [List.forall_mem_cons, List.not_mem_nil, false_imp_iff, implies_true, and_true]
    exact ⟨reg _ _, win 1, win 2, win 3, reg _ _, reg _ _, s.checked_of (decide_eq_true hn) (s.privileged_false _ _ _), reg _ _, reg _ _,
      reg _ _, reg _ _, reg _ _, reg _ _, inj 1 _ _ _, inj 2 _ _ _, inj 3 _ _ _, inj 4 _ _ _⟩
  case ports =>
    intro q hq off lane count hlo hhi hoff
    have reg (a : Nat) (v : Word) : s.portDo q (s.portWrite false q a v) = .next _ :=
      s.checked_of (decide_eq_true hq) (s.portWrite_false q a v)
    simp only [List.forall_mem_cons, List.not_mem_nil, false_imp_iff, implies_true, and_true]
    refine ⟨reg _ _, reg _ _, reg _ _, s.checked_of ?_ (s.portWrite_false q off v), reg _ _, reg _ _, reg _ _⟩
    simp [nPorts, hq, hlo, hhi, hoff]
  case power =>
    intro f hf
    simp only [List.forall_mem_cons, List.not_mem_nil, false_imp_iff, implies_true, and_true]
    have cmd (k : Nat) : s.fieldDo f (s.fieldCmdWrite false f k) = .next _ := s.fieldDo_of hf (s.fieldCmdWrite_false f k)
    exact ⟨cmd 1, cmd 2, cmd 3⟩
  case partitions =>
    intro p hp
    have ctl (cmd : Nat) : s.checked (decide (p < nParts)) (s.partCtl false p cmd) = .next _ :=
      s.checked_of (decide_eq_true hp) (s.privileged_false _ _ _)
    simp only [List.forall_mem_cons, List.not_mem_nil, false_imp_iff, implies_true, and_true]
    exact ⟨ctl 1, ctl 2, ctl 3, ctl 4⟩
  case ezper =>
    intro w feed value dur f sensor target hfeed hf hsensor htarget
    simp only [List.forall_mem_cons, List.not_mem_nil, false_imp_iff, implies_true, and_true]
    refine ⟨⟨rfl, rfl, rfl, s.checked_of (decide_eq_true hfeed) (s.ezArm_false 1 _ _ _ _), s.checked_of ?_ (s.ezArm_false 2 _ _ _ _),
      s.checked_of ?_ (s.ezArm_false 3 _ _ _ _), s.checked_of (decide_eq_true htarget) (s.ezArm_false 6 _ _ _ _)⟩,
      s.fieldDo_of hf (s.ezArm_false 4 _ _ _ _), s.fieldDo_of hf (s.ezArm_false 5 _ _ _ _)⟩ <;>
    simp [nFields, hf, hsensor]
  case store =>
    intro a w hlo hhi
    refine s.checked_of (by simp [hlo, hhi]) ?_
    rw [s.pregWrite_false, Nat.add_sub_cancel' hlo]

end Sys2Proof
end

section
/-!
Accesses to a tile that the wafer bridge reaches both ways (R27, R227), and what each block of its register page does with them.
-/

namespace Sys2Proof.Machine

/-- An access to a tile that is reached both ways has its effect and its answer. -/
theorem State.tileAccess_reached {s : State} {t : Nat} (hgo : s.ctlCode t = none) (hback : s.ctlReturns t = true) (off : Nat) (k : State) :
    s.tileAccess true t off k = k := by
  simp [State.tileAccess, hgo, hback, State.privileged_true]

section Reached
variable {s : State} {t : Nat} (hgo : s.ctlCode t = none) (hback : s.ctlReturns t = true)
include hgo hback

/-- The region descriptors stand apart from the sweep, injection and reset registers (R136). -/
theorem State.csrWrite_region {off : Nat} (v : Word) (hlo : 0x100 ≤ off) (hhi : off < 0x240) (hreg : (regAt tileRegs off).isSome = true) :
    s.csrWrite true t off v = s.rgWrite t off v := by
  have hsweep : ¬ 0xB10 ≤ off := by omega
  have hinj : off ≠ 0xB00 := by omega
  have hrst : off ≠ 0xC00 := by omega
  simp [State.csrWrite, State.tileAccess_reached hgo hback, hsweep, hinj, hrst, hlo, hhi, hreg]

theorem State.csrWrite_hazard (v : Word) : s.csrWrite true t 0x700 v = s.hzdWrite t v := by
  simp [State.csrWrite, State.tileAccess_reached hgo hback]

/-- A register with no rule of its own (R99, R281). -/
theorem State.csrWrite_plain {off : Nat} (v : Word) (hregion : ¬ (0x100 ≤ off ∧ off < 0x240)) (hhazard : off ≠ 0x700)
    (hsweep : ¬ (0xB10 ≤ off ∧ off < 0xB24)) (hinj : off ≠ 0xB00) (hrst : off ≠ 0xC00) :
    s.csrWrite true t off v = s.plainTileWrite t off v := by
  have hregion' : (decide (0x100 ≤ off) && decide (off < 0x240)) = false := by simpa using hregion
  have hsweep' : (decide (0xB10 ≤ off) && decide (off < 0xB24)) = false := by simpa using hsweep
  simp [State.csrWrite, State.tileAccess_reached hgo hback, hregion', hhazard, hsweep', hinj, hrst]

theorem State.tileReset_reached (hquiet : s.quiescent (s.tilePart t) = true) (hsweep : bit (csrWord (s.tile t) 0xB18) 2 = false) :
    s.tileReset true t = s.setTile t (tileResetDo (s.tile t)) := by
  simp [State.tileReset, State.tileAccess_reached hgo hback, hquiet, hsweep]

/-- A window write below 0x6_0000 stores a scratchpad word with its parity (R122). -/
theorem State.windowWrite_word {off : Nat} (v : Word) (hoff : off % 4 = 0) (hhi : off < 0x60000) :
    s.windowWrite true t off v = s.setTile t (writePhys (s.tile t) (off / 4) v) := by
  have hcsr : ¬ 0xC0000 ≤ off := by omega
  simp [State.windowWrite, State.tileAccess_reached hgo hback, hcsr, hoff, hhi]

/-- A window write to the instruction store writes half of an instruction with its parity (R148). -/
theorem State.windowWrite_instr {off : Nat} (v : Word) (hoff : off % 4 = 0) (hlo : 0x80000 ≤ off) (hhi : off < 0x88000) :
    s.windowWrite true t off v = s.setTile t { s.tile t with
      istore := Map.set (fun _ => 0#32) (s.tile t).istore ((off - 0x80000) / 4) v
      ipar := Map.set (fun _ => 0) (s.tile t).ipar ((off - 0x80000) / 4) 0 } := by
  have hcsr : ¬ 0xC0000 ≤ off := by omega
  have hword : ¬ off < 0x60000 := by omega
  simp [State.windowWrite, State.tileAccess_reached hgo hback, hcsr, hword, hoff, hlo, hhi]

theorem State.windowRead_word {off : Nat} (hoff : off % 4 = 0) (hhi : off < 0x60000) : s.windowRead true t off = s.windowWord t off := by
  simp [State.windowRead, State.tileAccess_reached hgo hback, hoff, hhi]

theorem State.windowRead_instr {off : Nat} (hoff : off % 4 = 0) (hlo : 0x80000 ≤ off) (hhi : off < 0x88000) :
    s.windowRead true t off = s.say (.readData (tileAddr t off)
      (Map.get (fun _ => 0#32) (s.tile t).istore ((off - 0x80000) / 4))) := by
  have hword : ¬ off < 0x60000 := by omega
  simp [State.windowRead, State.tileAccess_reached hgo hback, hword, hoff, hlo, hhi]

theorem State.windowRead_csr {off : Nat} (hoff : off % 4 = 0) (hlo : 0xC0000 ≤ off) (hreg : (regAt tileRegs (off - 0xC0000)).isSome = true) :
    s.windowRead true t off = s.say (.readData (tileAddr t off) (csrRead (s.tileEnv t) (s.tile t) (off - 0xC0000))) := by
  have hword : ¬ off < 0x60000 := by omega
  have hinstr : (decide (0x80000 ≤ off) && decide (off < 0x88000)) = false := by simp; omega
  simp [State.windowRead, State.tileAccess_reached hgo hback, hword, hinstr, hoff, hlo, hreg]

end Reached

/-- A good word with no injection armed reads as it is stored, and the tile stays as it is (R122, R438). -/
theorem readPhys_good {x : Tile} {port i : Nat} {via : Option Nat} (id free : Nat) (hgood : goodWord x port via i = true)
    (hinj : injKind x ≠ 1) :
    readPhys id { t := x, free := free } port i via = ({ t := x, free := free }, Map.get (fun _ => 0#32) x.spd i, 0, false) := by
  simp only [goodWord, Bool.and_eq_true, decide_eq_true_eq, Bool.not_eq_true', List.all_eq_true, Bool.or_eq_true] at hgood
  obtain ⟨⟨hpar, hdrain⟩, hloose⟩ := hgood
  have hnone : (x.loose.find? fun l => decide (l.idx = i) && l.openTo port via &&
      decide (l.new = Map.get (fun _ => 0#32) x.spd i)) = none := by
    rw [List.find?_eq_none]
    intro l hl
    rcases hloose l hl with h | h <;> simp [h]
  have hhit : (decide (injKind x = 1) && decide (injArg x = i)) = false := by simp [hinj]
  simp only [readPhys, hhit, Bool.false_eq_true, if_false, hpar, if_true, hdrain, eitherWord, hnone]

theorem State.windowWord_good {s : State} {t off : Nat} (hgood : goodWord (s.tile t) 6 none (off / 4) = true) (hinj : injKind (s.tile t) ≠ 1) :
    s.windowWord t off = (s.setTile t (s.tile t)).say (.readData (tileAddr t off) (Map.get (fun _ => 0#32) (s.tile t).spd (off / 4))) := by
  simp only [State.windowWord, readPhys_good t s.free hgood hinj, if_true]

/-- A register stands below the end of its row. -/
theorem Reg.lt_of_covers {r : Reg} {o : Nat} (h : r.covers o = true) : o < r.off + (r.stride * r.count + 1) := by
  unfold Reg.covers at h
  split at h
  · have := of_decide_eq_true h
    omega
  · rename_i hstride
    simp only [Bool.and_eq_true, decide_eq_true_eq] at h
    have := (Nat.div_lt_iff_lt_mul (Nat.pos_of_ne_zero hstride)).mp h.2
    rw [Nat.mul_comm] at this
    omega

/-- RTR_RDESC takes every bit but the low six (Table 10.4). -/
theorem regAt_rdesc {d : Nat} (hd : d < 256) : regAt tileRegs (0x1000 + 4 * d) = some ⟨0x1000, 4, 256, 0x0, 0xFFFFFFC0, 0x0, 0x0, true⟩ := by
  have below : ∀ r ∈ tileRegs.dropLast, r.off + (r.stride * r.count + 1) ≤ 0x1000 := by decide
  refine List.find?_eq_some_iff_append.mpr ⟨?_, tileRegs.dropLast, [], rfl, fun r hr => ?_⟩
  · simp [Reg.covers, hd]
  · have := below r hr
    have above : ¬ r.covers (0x1000 + 4 * d) = true := fun hcov => by have := Reg.lt_of_covers hcov; omega
    simpa using above

/-- A write of a register replaces the bits that it admits. -/
theorem regWrite_and_rw (r : Reg) (old v : Word) (hw1c : r.w1c = 0) :
    regWrite r old v &&& BitVec.ofNat 32 r.rw = v &&& BitVec.ofNat 32 r.rw := by
  ext i hi
  simp only [regWrite, hw1c, BitVec.getElem_and, BitVec.getElem_or, BitVec.getElem_not]
  cases (BitVec.ofNat 32 r.rw)[i] <;> simp

/-- A write of a plain register that admits the value and the partition's state (R99, R281). -/
theorem State.plainTileWrite_rdesc {s : State} {t d : Nat} {v : Word} (hd : d < 256) (hquiet : s.quiescent (s.tilePart t) = true)
    (hok : rdescBad v = false) :
    s.plainTileWrite t (0x1000 + 4 * d) v = s.setTile t (csrPut (s.tile t) (0x1000 + 4 * d)
      (regWrite ⟨0x1000, 4, 256, 0x0, 0xFFFFFFC0, 0x0, 0x0, true⟩ (csrWord (s.tile t) (0x1000 + 4 * d)) v)) := by
  have hvalue : tileValueBad (0x1000 + 4 * d) v = false := by
    rw [tileValueBad, if_neg (by omega), if_pos (by omega), hok]
  have hdebug : ¬ 0x1000 + 4 * d < 0x714 := by omega
  simp only [State.plainTileWrite, regAt_rdesc hd, hquiet, hvalue]
  simp [hdebug, show 0x1000 + 4 * d ≠ 0x504 by omega, show 0x1000 + 4 * d ≠ 0x508 by omega]

theorem State.plainTileWrite_step {s : State} {t : Nat} (v : Word) (hquiet : s.quiescent (s.tilePart t) = true) :
    s.plainTileWrite t 0x504 v = s.setTile t (putStep (s.tile t) v) := by
  have hreg : regAt tileRegs 0x504 = some ⟨0x504, 0, 1, 0x0, 0xFFFFFFFF, 0x0, 0x0, true⟩ := by decide
  simp [State.plainTileWrite, hreg, hquiet, tileValueBad]

theorem State.rgWrite_taken {s : State} {t off : Nat} {v : Word} (hquiet : s.quiescent (s.tilePart t) = true)
    (hok : (rgAfter (region (s.tile t) (rgOf off)) off v).ver = 0 ∨
      ((rgAfter (region (s.tile t) (rgOf off)) off v).valid = true ∧ (rgAfter (region (s.tile t) (rgOf off)) off v).prod < 5 ∧
        (rgAfter (region (s.tile t) (rgOf off)) off v).cons < 5)) :
    s.rgWrite t off v =
      s.setTile t (setRegion (s.tile t) (rgOf off) { rgAfter (region (s.tile t) (rgOf off)) off v with cursor := 0 }) := by
  simp only [State.rgWrite, hquiet]
  generalize rgAfter (region (s.tile t) (rgOf off)) off v = r at hok ⊢
  rcases hok with h | ⟨hvalid, hprod, hcons⟩
  · simp [h]
  · simp [hvalid, hprod, hcons]

/-- HZD_CTL takes ACTION and clears FAULT (R210). -/
theorem State.hzdWrite_taken {s : State} {t : Nat} {v : Word} (hp : s.tilePart t < 8) (hdebug : (s.part (s.tilePart t)).debug = true)
    (hquiet : bit v 1 = bit (csrWord (s.tile t) 0x700) 1 ∨ s.quiescent (s.tilePart t) = true) :
    s.hzdWrite t v = s.setTile t (csrPut (s.tile t) 0x700 (regWrite ⟨0x700, 0, 1, 0x0, 0x2, 0x4, 0x0, false⟩ (csrWord (s.tile t) 0x700) v)) := by
  have hwait : (bit v 1 != bit (csrWord (s.tile t) 0x700) 1 && !s.quiescent (s.tilePart t)) = false := by
    rcases hquiet with h | h <;> simp [h]
  simp [State.hzdWrite, hp, hdebug, hwait]

end Sys2Proof.Machine

namespace Sys2Proof
open Machine

/-- Settles O34: each command is one of the accesses above. -/
theorem tileRegisterWrites : Obligations.TileRegisterWrites := by
  intro t s v ht hgo hback x p zero
  refine ⟨?step, ?region, ?hazard, ?rdesc, ?reset, ?window⟩
  case step =>
    intro hquiet
    refine s.onTileOk_of ht ?_
    rw [State.csrWrite_plain hgo hback v (by decide) (by decide) (by decide) (by decide) (by decide)]
    exact State.plainTileWrite_step v hquiet
  case region =>
    intro off hlo hhi hreg hquiet r hok
    refine s.checked_of (by simp [of_decide_eq_true (p := t < nTiles) ht, hlo, hhi, hreg]) ?_
    rw [State.csrWrite_region hgo hback v hlo hhi hreg]
    exact State.rgWrite_taken hquiet hok
  case hazard =>
    intro hp hdebug hquiet
    refine ⟨_, s.onTileOk_of ht ((State.csrWrite_hazard hgo hback v).trans (State.hzdWrite_taken hp hdebug hquiet)), ?_, ?_⟩
    · simp [regWrite, bit]
    · simp [regWrite, bit, x]
  case rdesc =>
    intro d hd hquiet hok
    refine ⟨regWrite ⟨0x1000, 4, 256, 0x0, 0xFFFFFFC0, 0x0, 0x0, true⟩ (csrWord x (0x1000 + 4 * d)) v,
      s.checked_of (by simp [of_decide_eq_true (p := t < nTiles) ht, hd]) ?_, regWrite_and_rw _ _ v rfl⟩
    rw [State.csrWrite_plain hgo hback v (by omega) (by omega) (by omega) (by omega) (by omega)]
    exact State.plainTileWrite_rdesc hd hquiet hok
  case reset =>
    intro hquiet hsweep
    exact s.checked_of ht (State.tileReset_reached hgo hback hquiet hsweep)
  case window =>
    intro a off ha hoff
    have read : s.addrRead true true a = s.windowRead true t off := by simp only [State.addrRead, ha]
    have write : s.addrWrite true true a v = s.windowWrite true t off v := by simp only [State.addrWrite, ha]
    refine ⟨fun hhi => ?_, fun hlo hhi => ?_, fun hlo hreg => ?_⟩
    · have hword := write.trans (State.windowWrite_word hgo hback v hoff hhi)
      refine ⟨congrArg _ hword, congrArg _ hword, fun hgood hinj => ?_⟩
      change Host.Outcome.next (s.addrRead true true a) = _
      rw [read, State.windowRead_word hgo hback hoff hhi, State.windowWord_good hgood hinj]
    · exact ⟨congrArg _ (write.trans (State.windowWrite_instr hgo hback v hoff hlo hhi)),
        congrArg _ (read.trans (State.windowRead_instr hgo hback hoff hlo hhi))⟩
    · exact congrArg _ (read.trans (State.windowRead_csr hgo hback hoff hlo hreg))

end Sys2Proof
end

section
/-!
The judgement of records, the re-spare of a field, and the changes of its tile map in the persistent store (R28, R32, R455, R456, R461).
-/

namespace Sys2Proof.Machine

/-- The judgement of a record that the log holds (R455). -/
theorem State.judgeSeq_found {s : State} {r : LogRec} {n k : Nat} (hup : s.mod.cc.up = true)
    (hfound : (s.mod.log.ring.find? fun x => x.2.seqno = n) = some (k, r)) : s.judgeSeq n = s.judge r := by
  simp [State.judgeSeq, hfound, hup]

/-- A record of a tile of a field that is on is judged as a tile's, for the sources of R455. -/
theorem State.judge_tile {s : State} {r : LogRec} (hloc : r.loc < 2 ^ 28) (hf : r.phys / 1728 < 70)
    (hon : (s.field (r.phys / 1728)).power = 2) (hsource : r.source ≤ 0x07) : s.judge r = s.judgeTile r := by
  have hkind : r.loc / 2 ^ 28 ≤ 1 := by omega
  have hfield : ¬ nFields ≤ r.phys / 1728 := Nat.not_le.mpr hf
  simp only [State.judge, hkind, if_true, hfield, hon, hsource]
  simp

/-- An accumulator comparison that failed as a hard fault convicts its tile (R455, R456). -/
theorem State.judgeTile_accumulator {s : State} {r : LogRec} (hsource : r.source = 0x02) (hcls : r.cls = 1) :
    s.judgeTile r = (s.suspectTile r.phys 0x02 r.time).judgeBad r.phys 2 := by
  simp [State.judgeTile, hsource, hcls]

/-- A tile convicted outside the bypassed column of a field whose spare column is free marks the field (R32). -/
theorem State.judgeBad_marks {s : State} {phys cause : Nat} (hf : phys / 1728 < 70) (hgood : s.good (phys / 1728) = true)
    (hbad : bits (s.mapEntry (phys / 1728) (phys % 1728)) 31 29 ≠ 2) (hnone : (s.field (phys / 1728)).respare = [])
    (hspare : s.spareUsed (phys / 1728) = false) (hcol : phys % 36 ≠ bits (s.mapSum (phys / 1728)) 5 0) :
    s.judgeBad phys cause = s.setField (phys / 1728) { s.field (phys / 1728) with respare := [(phys % 1728, cause)], reserve := false } := by
  have hfield : ¬ nFields ≤ phys / 1728 := Nat.not_le.mpr hf
  have hpos : phys % 1728 % 36 = phys % 36 := Nat.mod_mod_of_dvd _ (by decide)
  simp [State.judgeBad, hfield, hgood, hbad, hnone, hspare, hpos, hcol]

/-- A marked field that is off takes the map with the new bypassed column, and is powered where it can be (R32). -/
theorem State.fieldRespare_off {s : State} {f : Nat} {y : Nat × Nat} {l : List (Nat × Nat)} (hup : s.mod.cc.up = true)
    (hmarks : (s.field f).respare = y :: l) (hoff : (s.field f).power = 0) (hgood : s.good f = true)
    (hquiet : s.quiescent (s.fieldOwner f) = true) (hkeep : (s.field f).retire = false) :
    let u := (s.setField f { s.field f with respare := [], retire := false }).respareTo f (y.1 % 36) (y :: l)
    s.fieldRespare f = if (u.fieldCmdBad f 1).isNone then u.fieldCmd f 1 else u := by
  have hdoomed : (s.field f).doomed = true := by simp [Field.doomed, hmarks]
  simp [State.fieldRespare, hup, hdoomed, hoff, hgood, hquiet, hkeep, hmarks]

/-- Where the journal's words stand (R28). -/
theorem journalAt_entry {i : Nat} (f : Nat) (hi : i < 1728) : journalAt f i = 4 * (1728 * f + i) := if_pos hi
theorem journalAt_sum (f : Nat) : journalAt f 1728 = 0x80000 + 8 * f := rfl
theorem journalAt_crc (f : Nat) : journalAt f 1729 = 0x80004 + 8 * f := by
  show 0x80000 + 8 * f + 4 = 0x80004 + 8 * f
  omega

theorem State.journalWrite_cons (s : State) (f : Nat) (w : MapWord) (l : List MapWord) :
    s.journalWrite f (w :: l) = (s.pregPut (journalAt f w.idx) w.val w.val).journalWrite f l := rfl

/-- The entry of a field at a place once the words of a change are written. -/
def State.entryAfter (s : State) (f : Nat) (words : List MapWord) (i : Nat) : Word :=
  match words.reverse.find? fun w => w.idx = i with
  | some w => w.val
  | none => s.mapEntry f i

/-- What the journal holds of a change of field f's map, made where no other is in progress: its words, the summary and the CRC (R28). -/
def State.changeWords (s : State) (f : Nat) (words0 : List MapWord) (bad byp : Nat) (retired : Bool) : List MapWord :=
  let words := words0.map fun w => { w with val := w.val &&& pregMask (journalAt f w.idx) }
  let old := s.mapSum f
  words ++ [
    { idx := 1728, val := BitVec.ofNat 32 (min 0xFFFF (bits old 31 16 + 1) * 2 ^ 16 + bad % 256 * 2 ^ 8 + bits old 7 7 * 2 ^ 7 +
        nb (bit old 6 || retired) * 2 ^ 6 + byp % 64) },
    { idx := 1729, val := entriesCrc ((List.range 1728).map (s.entryAfter f words)) }]

/-- The state with a change of field f's map journalled and begun (R28). -/
def State.beginChange (s : State) (f : Nat) (all : List MapWord) : State :=
  s.updMod fun m => { m with cc := { m.cc with journal := all, journalField := some f, journalOpen := true } }

/-- A change that nothing cuts short is journalled, written and complete. -/
theorem State.writeMap_whole (s : State) (f : Nat) (words : List MapWord) (bad byp : Nat) (retired : Bool) :
    s.writeMap f words bad byp retired =
      let all := s.closeJournal.changeWords f words bad byp retired
      ((s.closeJournal.beginChange f all).journalWrite f all).setJournal false := rfl

/-- One cut short has written its first words, and stands in the journal. -/
theorem State.writeMap_cut {s : State} {f n : Nat} {words : List MapWord} {bad byp : Nat} {retired : Bool}
    (hn : n < (s.closeJournal.changeWords f words bad byp retired).length) :
    s.writeMap f words bad byp retired (some n) =
      let all := s.closeJournal.changeWords f words bad byp retired
      (s.closeJournal.beginChange f all).journalWrite f (all.take n) := if_pos hn

/-- A change that leaves an entry that is not retired does not retire the field. -/
theorem State.tmapChange_eq {s : State} {f i : Nat} {words : List MapWord} (bad byp : Nat) (cut : Option Nat) (hup : s.mod.cc.up = true)
    (hi : i < 1728) (hlive : bits (s.entryAfter f words i) 31 29 ≠ 5) :
    s.tmapChange f words bad byp cut =
      if cut.isSome then (s.writeMap f words bad byp false cut).powerLost else s.writeMap f words bad byp false cut := by
  have hretired : ((List.range 1728).all fun k => decide (bits (s.entryAfter f words k) 31 29 = 5)) = false :=
    List.all_eq_false.mpr ⟨i, List.mem_range.mpr hi, by simpa using hlive⟩
  have unfolded : s.tmapChange f words bad byp cut = if !s.mod.cc.up then s else
      let s1 := s.writeMap f words bad byp ((List.range 1728).all fun k => decide (bits (s.entryAfter f words k) 31 29 = 5)) cut
      if cut.isSome then s1.powerLost else s1 := rfl
  rw [unfolded, hup, hretired]
  rfl

/-- Of one word written, the entry that it names is changed. -/
theorem State.entryAfter_one (s : State) (f i : Nat) (e : Word) :
    s.entryAfter f [{ idx := i, val := e }] = fun k => if k = i then e else s.mapEntry f k := by
  funext k
  by_cases h : i = k
  · simp [State.entryAfter, h]
  · simp [State.entryAfter, h, Ne.symm h]

/-- The journal of a change of one entry, where the field is neither fused nor retired. -/
theorem State.changeWords_one {s : State} {f i bad byp : Nat} (w : Word) (hi : i < 1728) (hbad : bad < 256) (hbyp : byp < 64)
    (hclean : bits (s.mapSum f) 7 6 = 0) :
    s.changeWords f [{ idx := i, val := w }] bad byp false = [
      { idx := i, val := w &&& pregMask (4 * (1728 * f + i)) },
      { idx := 1728, val := BitVec.ofNat 32 (min 0xFFFF (bits (s.mapSum f) 31 16 + 1) * 2 ^ 16 + bad * 2 ^ 8 + byp) },
      { idx := 1729, val := entriesCrc ((List.range 1728).map fun k =>
          if k = i then w &&& pregMask (4 * (1728 * f + i)) else s.mapEntry f k) }] := by
  have hfused : bits (s.mapSum f) 7 7 = 0 := by
    simp only [bits, Nat.shiftRight_eq_div_pow] at hclean ⊢
    omega
  have hretired : bit (s.mapSum f) 6 = false := by
    rw [bit, BitVec.getLsbD, Nat.testBit_eq_decide_div_mod_eq, decide_eq_false_iff_not]
    simp only [bits, Nat.shiftRight_eq_div_pow] at hclean
    omega
  simp only [State.changeWords, List.map_cons, List.map_nil, journalAt_entry f hi, State.entryAfter_one, hfused, hretired, Nat.mod_eq_of_lt hbad,
    Nat.mod_eq_of_lt hbyp, Bool.or_false, nb, Bool.false_eq_true, if_false, Nat.zero_mul, Nat.add_zero, List.cons_append, List.nil_append]

/-- A word of the store that only its own rules bind takes an accepted value (R461). -/
theorem State.pregWrite_taken {s : State} {o : Nat} (v back : Word) (ho : o < 0x80000) (hexists : pregExists o = true)
    (hworn : s.wear o + 1 ≤ 1000000) : s.pregWrite true o v back = s.pregPut o v back := by
  have hsum : ¬ 0x80400 ≤ o := by omega
  have harb : ¬ 0x90000 ≤ o := by omega
  have hold : ¬ 1000000 < s.wear o + 1 := by omega
  simp [State.pregWrite, State.privileged_true, hexists, hsum, harb, hold]

/-- Below the rating and off the mark of 900,000 writes a write stores the word and counts (R461, R462). -/
theorem State.pregPut_unworn {s : State} {o : Nat} (v back : Word) (hworn : s.wear o + 1 ≤ 1000000) (hmark : s.wear o + 1 ≠ 900000) :
    s.pregPut o v back = s.updMod fun m => { m with
      preg := Map.set factoryWord m.preg o (v &&& pregMask o)
      wear := Map.set (fun _ => 0) m.wear o (Map.get (fun _ => 0) m.wear o + 1) } := by
  have hold : ¬ 1000000 < s.wear o + 1 := by omega
  simp only [State.pregPut, hmark, if_false, hold]

/-- A suspicion lives while one of its hits lies within 24 h (R455). -/
theorem State.recent_nonempty (s : State) (hits : List (Nat × DWord)) :
    (!(s.recent (hits.map (·.2))).isEmpty) = hits.any fun h => decide (s.now.toNat < h.2.toNat + 24 * 3600 * 1000000000) := by
  rw [Bool.eq_iff_iff]
  simp only [State.recent, dayNs, Bool.not_eq_true', List.isEmpty_eq_false_iff_exists_mem, List.mem_filter, List.mem_map,
    List.any_eq_true, decide_eq_true_eq]
  constructor
  · rintro ⟨t, ⟨h, hmem, rfl⟩, hsoon⟩
    exact ⟨h, hmem, of_decide_eq_true hsoon⟩
  · rintro ⟨h, hmem, hsoon⟩
    exact ⟨h.2, ⟨h, hmem, rfl⟩, decide_eq_true hsoon⟩

end Sys2Proof.Machine

namespace Sys2Proof
open Machine

/-- Settles O39: the judgement, the re-spare and the changes of the map by the lemmas above. -/
theorem judgements : Obligations.Judgements := by
  intro s hup
  refine ⟨?record, ?marks, ?respare, ?change, ?store, ?lapse⟩
  case record =>
    intro r n k hfound hloc hsource hcls hf hon
    have judged := (State.judge_tile hloc hf hon (by omega)).trans (State.judgeTile_accumulator hsource hcls)
    exact congrArg _ ((State.judgeSeq_found hup hfound).trans judged)
  case marks =>
    intro phys cause f hf hgood hbad hnone hspare hcol
    exact State.judgeBad_marks hf hgood hbad hnone hspare hcol
  case respare =>
    intro f hf y l hmarks hoff hgood hquiet hkeep
    exact s.fieldDo_of hf (State.fieldRespare_off hup hmarks hoff hgood hquiet hkeep)
  case change =>
    intro f hf i w bad byp hi hlive hbad hbyp s0 hclean sum o e after all begun
    have hwords := State.changeWords_one w hi hbad hbyp hclean
    have hentry : bits (s.entryAfter f [{ idx := i, val := w }] i) 31 29 ≠ 5 := by
      simpa [State.entryAfter_one] using hlive
    have hargs : (decide (f < nFields) && [{ idx := i, val := w : MapWord }].all fun w => decide (w.idx < 1728)) = true := by
      simp [nFields, hf, hi]
    refine ⟨s.checked_of hargs ?_, s.checked_of hargs ?_⟩
    · rw [State.tmapChange_eq bad byp none hup hi hentry, State.writeMap_whole, hwords]
      simp only [State.journalWrite_cons, journalAt_entry f hi, journalAt_sum, journalAt_crc]
      rfl
    · rw [State.tmapChange_eq bad byp (some 1) hup hi hentry, State.writeMap_cut (by rw [hwords]; exact Nat.lt_of_sub_eq_succ rfl), hwords]
      simp only [List.take_succ_cons, List.take_zero, State.journalWrite_cons, journalAt_entry f hi]
      rfl
  case store =>
    intro o v back ho hexists hworn
    refine ⟨s.checked_of ?_ ?_, State.pregPut_unworn v back hworn⟩
    · simp; omega
    · rw [Nat.add_sub_cancel_left]
      exact State.pregWrite_taken v back ho hexists hworn
  case lapse =>
    intro phys
    refine congrArg Host.Outcome.next ?_
    simp only [State.lapse, hup, Bool.not_true, Bool.false_eq_true, if_false, State.recent_nonempty]

end Sys2Proof
end

section
/-!
Bit fields of a word: a field read after it, or another, is written.
-/

namespace Sys2Proof

section BitFields
variable {n hi lo : Nat}

/-- The mask of the bits [hi:lo] (in a word of more than `hi` bits). -/
def fieldMask (hi lo : Nat) : Nat := (2 ^ (hi + 1 - lo) - 1) <<< lo

theorem testBit_fieldMask (hi lo i : Nat) : (fieldMask hi lo).testBit i = (decide (lo ≤ i) && decide (i < hi + 1)) := by
  rw [fieldMask, Nat.testBit_shiftLeft, Nat.testBit_two_pow_sub_one]
  by_cases h : lo ≤ i
  · simp only [h, decide_true, Bool.true_and, decide_eq_decide]
    omega
  · simp [h]

theorem fieldMask_lt (hhi : hi < n) : fieldMask hi lo < 2 ^ n := by
  refine Nat.lt_pow_two_of_testBit _ fun i hi' => ?_
  rw [testBit_fieldMask]
  simp
  omega

/-- A written field takes the low bits of the value; the other bits stand. -/
theorem getLsbD_setBits (w : BitVec n) (hhi : hi < n) (v i : Nat) :
    (setBits w hi lo v).getLsbD i = if lo ≤ i ∧ i < hi + 1 then v.testBit (i - lo) else w.getLsbD i := by
  have hkeep : (2 ^ n - 1 - fieldMask hi lo).testBit i = (decide (i < n) && !(fieldMask hi lo).testBit i) := by
    rw [Nat.sub_sub, Nat.add_comm 1, Nat.testBit_two_pow_sub_succ (fieldMask_lt hhi)]
  have hword : (setBits w hi lo v).getLsbD i = (decide (i < n) &&
      ((w.toNat.testBit i && (2 ^ n - 1 - fieldMask hi lo).testBit i) || ((v <<< lo).testBit i && (fieldMask hi lo).testBit i))) := by
    simp only [setBits, BitVec.getLsbD_ofNat, Nat.testBit_or, Nat.testBit_and]
    rfl
  rw [hword, hkeep, testBit_fieldMask, Nat.testBit_shiftLeft]
  by_cases hin : lo ≤ i ∧ i < hi + 1
  · obtain ⟨hlo, hup⟩ := hin
    have hn : i < n := by omega
    simp [hlo, hup, hn]
  · have hout : (decide (lo ≤ i) && decide (i < hi + 1)) = false := by simpa using hin
    rw [hout, if_neg hin]
    by_cases hn : i < n
    · simp [hn, BitVec.getLsbD]
    · simp [hn, BitVec.getLsbD_of_ge w i (by omega)]

theorem testBit_bits (w : BitVec n) (hi lo i : Nat) : (bits w hi lo).testBit i = (decide (i < hi + 1 - lo) && w.getLsbD (lo + i)) := by
  rw [bits, Nat.testBit_mod_two_pow, Nat.testBit_shiftRight]
  rfl

/-- A field reads what was written to it. -/
theorem bits_setBits_self (w : BitVec n) (hhi : hi < n) {v : Nat} (hv : v < 2 ^ (hi + 1 - lo)) : bits (setBits w hi lo v) hi lo = v := by
  refine Nat.eq_of_testBit_eq fun i => ?_
  rw [testBit_bits, getLsbD_setBits w hhi, Nat.add_sub_cancel_left]
  by_cases h : i < hi + 1 - lo
  · rw [if_pos (by omega)]
    simp [h]
  · rw [Nat.testBit_lt_two_pow (Nat.lt_of_lt_of_le hv (Nat.pow_le_pow_right (by decide) (Nat.le_of_not_lt h)))]
    simp [h]

end BitFields

end Sys2Proof
end

section
/-!
Sparse maps: two writes of a key, writes of many keys, and the entries of a canonical map.
-/

namespace Sys2Proof.Map

variable {α : Type}

/-- Of two writes of a key the second stands. -/
theorem set_set [DecidableEq α] {d : Nat → α} {m : Map α} {k : Nat} (x y : α) (h : wf d m = true) :
    set d (set d m k x) k y = set d m k y := by
  refine ext_wf (wf_set (wf_set h)) (wf_set h) fun l => ?_
  by_cases hl : l = k
  · subst hl
    rw [get_set_self (wf_set h), get_set_self h]
  · rw [get_set_ne (wf_set h) hl, get_set_ne h hl, get_set_ne h hl]

/-- Writing what a key holds changes nothing. -/
theorem set_get [DecidableEq α] {d : Nat → α} {m : Map α} (k : Nat) (h : wf d m = true) : set d m k (get d m k) = m := by
  refine ext_wf (wf_set h) h fun l => ?_
  by_cases hl : l = k
  · subst hl
    rw [get_set_self h]
  · rw [get_set_ne h hl]

/-- What a key holds is listed, or is the default. -/
theorem get_mem_or (d : Nat → α) (m : Map α) (k : Nat) : (k, get d m k) ∈ m ∨ get d m k = d k := by
  induction m with
  | nil => exact .inr rfl
  | cons e m ih =>
    obtain ⟨j, v⟩ := e
    simp only [get]
    split
    next h => exact .inl (by simp [h])
    next =>
      split
      next => exact .inr rfl
      next => exact ih.imp (List.mem_cons_of_mem _) id

/-- A property of every listed value and of the default holds of what any key holds. -/
theorem get_of_all {d : Nat → α} {m : Map α} {p : Nat × α → Bool} (h : m.all p = true) (k : Nat) (hd : p (k, d k) = true) :
    p (k, get d m k) = true := by
  rcases get_mem_or d m k with hmem | hdef
  · exact List.all_eq_true.mp h _ hmem
  · rw [hdef, hd]

/-- A listed value is what its key holds. -/
theorem get_of_mem [DecidableEq α] {d : Nat → α} {m : Map α} {e : Nat × α} (h : wf d m = true) (he : e ∈ m) : get d m e.1 = e.2 := by
  induction m with
  | nil => cases he
  | cons a m ih =>
    simp only [wf, Bool.and_eq_true, above_iff] at h
    obtain ⟨⟨habove, -⟩, hwf⟩ := h
    rcases List.mem_cons.mp he with rfl | hm
    · simp [get]
    · have hlt := habove e hm
      rw [get, if_neg (by omega), if_neg (by omega)]
      exact ih hwf hm

/-- Keys written in turn. -/
def setAll [DecidableEq α] (d : Nat → α) (key : Nat → Nat) (val : Nat → α) (l : List Nat) (m : Map α) : Map α :=
  l.foldl (fun m i => set d m (key i) (val i)) m

section Many
variable [DecidableEq α] {d : Nat → α} (key : Nat → Nat) (val : Nat → α)

/-- Writes of many keys keep the canonical form. -/
theorem wf_setAll (l : List Nat) : ∀ m : Map α, wf d m = true → wf d (setAll d key val l m) = true := by
  induction l with
  | nil => exact fun _ h => h
  | cons i l ih => exact fun m h => ih _ (wf_set h)

/-- A key that is not among those written stands. -/
theorem get_setAll_ne {k : Nat} {l : List Nat} (hk : ∀ i ∈ l, k ≠ key i) :
    ∀ m : Map α, wf d m = true → get d (setAll d key val l m) k = get d m k := by
  induction l with
  | nil => exact fun _ _ => rfl
  | cons i l ih =>
    intro m h
    have hi := hk i (List.mem_cons_self ..)
    exact (ih (fun j hj => hk j (List.mem_cons_of_mem _ hj)) _ (wf_set h)).trans (get_set_ne h hi)

/-- Each key written, all different, reads its value. -/
theorem get_setAll {j : Nat} {l : List Nat} (hinj : ∀ i ∈ l, ∀ k ∈ l, key i = key k → i = k) (hj : j ∈ l) (hnd : l.Nodup) :
    ∀ m : Map α, wf d m = true → get d (setAll d key val l m) (key j) = val j := by
  induction l with
  | nil => cases hj
  | cons i l ih =>
    intro m h
    obtain ⟨hi, hnd⟩ := List.nodup_cons.mp hnd
    rcases List.mem_cons.mp hj with rfl | hjl
    · have hne : ∀ k ∈ l, key j ≠ key k := fun k hk heq =>
        hi (hinj j (List.mem_cons_self ..) k (List.mem_cons_of_mem _ hk) heq ▸ hk)
      exact (get_setAll_ne key val hne _ (wf_set h)).trans (get_set_self h)
    · exact ih (fun a ha b hb => hinj a (List.mem_cons_of_mem _ ha) b (List.mem_cons_of_mem _ hb)) hjl hnd _ (wf_set h)

end Many

end Sys2Proof.Map
end

section
/-!
The canonical form of a state, part by part; the frames of the operations that the fields' commands end with: advisories, XMASK and
the guarantee; and a change made at each of many fields.
-/

namespace Sys2Proof.Machine

/-- The canonical form of a state, its parts named. -/
structure State.Canon (s : State) : Prop where
  tiles : Map.wf (fun _ => ({} : Tile)) s.tiles = true
  fields : Map.wf (fun _ => ({} : Field)) s.fields = true
  sites : Map.wf blankSite s.sites = true
  ports : Map.wf (fun _ => ({} : Port)) s.ports = true
  parts : Map.wf (fun _ => ({} : Part)) s.parts = true
  fieldCsr : ∀ f, Map.wf (regReset fieldRegs) (s.field f).csr = true
  siteCsr : ∀ n, Map.wf (regReset siteRegs) (s.site n).csr = true
  siteKeys : ∀ n, Map.wf (fun _ => 0) (s.site n).keys = true
  portCsr : ∀ q, Map.wf (regReset portRegs) (s.port q).csr = true
  modCsr : Map.wf (regReset modRegs) s.mod.csr = true
  preg : Map.wf factoryWord s.mod.preg = true
  conf : Map.wf (fun _ => ({} : PartConf)) s.mod.cc.conf = true

theorem State.canon {s : State} (h : s.canonical = true) : s.Canon := by
  simp only [State.canonical, Bool.and_eq_true] at h
  obtain ⟨⟨⟨⟨⟨⟨⟨⟨⟨htiles, hfields⟩, hsites⟩, hports⟩, hparts⟩, -⟩, allFields⟩, allSites⟩, allPorts⟩, hmod⟩ := h
  simp only [Module.canonical, Bool.and_eq_true] at hmod
  obtain ⟨⟨⟨⟨⟨⟨hcsr, hpreg⟩, -⟩, -⟩, -⟩, hconf⟩, -⟩ := hmod
  have field (f : Nat) : (s.field f).canonical = true :=
    Map.get_of_all (p := fun e : Nat × Field => e.2.canonical) allFields f rfl
  have site (n : Nat) : (s.site n).canonical = true :=
    Map.get_of_all (p := fun e : Nat × Site => e.2.canonical) allSites n rfl
  simp only [Field.canonical, Site.canonical, Bool.and_eq_true] at field site
  exact ⟨htiles, hfields, hsites, hports, hparts, fun f => (field f).1.1, fun n => (site n).1.1.1, fun n => (site n).1.1.2,
    fun q => Map.get_of_all (p := fun e : Nat × Port => Map.wf (regReset portRegs) e.2.csr) allPorts q rfl,
    hcsr, hpreg, hconf⟩

/-! A message, and a guarantee that has changed, change the parts' own count and what the control complex and the host hold. -/

/-- A notice posted waits in its ring, or leaves, or is lost. -/
theorem State.post_frame (s : State) (r : Nat) (m : Msg) :
    ∃ mail out, s.post r m = { s with mod := { s.mod with cc := { s.mod.cc with mail := mail } }, outbox := out } := by
  unfold State.post
  split
  · exact ⟨s.mod.cc.mail, _, rfl⟩
  · split
    · exact ⟨s.mod.cc.mail, s.outbox, rfl⟩
    · exact ⟨_, s.outbox, rfl⟩

/-- Two states differ in the guarantees of the partitions, the mailboxes and the outbox alone. -/
def SameButGuar (s u : State) : Prop :=
  (∃ parts mail out, u = { s with parts := parts, mod := { s.mod with cc := { s.mod.cc with mail := mail } }, outbox := out }) ∧
    (Map.wf (fun _ => ({} : Part)) s.parts = true → Map.wf (fun _ => ({} : Part)) u.parts = true ∧
      ∀ p, { u.part p with guar := 0 } = { s.part p with guar := 0 })

theorem SameButGuar.refl (s : State) : SameButGuar s s := ⟨⟨s.parts, s.mod.cc.mail, s.outbox, rfl⟩, fun h => ⟨h, fun _ => rfl⟩⟩

theorem SameButGuar.trans {s u v : State} (h : SameButGuar s u) (k : SameButGuar u v) : SameButGuar s v := by
  obtain ⟨⟨_, _, _, rfl⟩, hpart⟩ := h
  obtain ⟨⟨parts, mail, out, rfl⟩, kpart⟩ := k
  refine ⟨⟨parts, mail, out, rfl⟩, fun hwf => ?_⟩
  obtain ⟨hu, hsame⟩ := hpart hwf
  obtain ⟨hv, ksame⟩ := kpart hu
  exact ⟨hv, fun p => (ksame p).trans (hsame p)⟩

/-- A guarantee reported. -/
theorem SameButGuar.report (s : State) (p g r : Nat) (m : Msg) : SameButGuar s ((s.setPart p { s.part p with guar := g }).post r m) := by
  obtain ⟨mail, out, hpost⟩ := (s.setPart p { s.part p with guar := g }).post_frame r m
  rw [hpost]
  refine ⟨⟨_, mail, out, rfl⟩, fun hwf => ⟨Map.wf_set hwf, fun k => ?_⟩⟩
  show ({ (s.setPart p { s.part p with guar := g }).part k with guar := 0 } : Part) = _
  by_cases hk : k = p
  · rw [hk, State.setPart_part_self hwf]
  · rw [State.setPart_part_ne hwf hk]

/-- Reports of guarantees change those guarantees and the messages alone (R367). -/
theorem State.reportGuar_same (s : State) : SameButGuar s s.reportGuar := by
  unfold State.reportGuar
  refine List.foldlRecOn (motive := SameButGuar s) _ _ (SameButGuar.refl s) fun u hu p _ => ?_
  split
  · exact hu
  · dsimp only
    split
    · exact hu
    · exact hu.trans (SameButGuar.report u p _ p _)

/-- Fields of the state that reports leave. -/
theorem State.reportGuar_frame (s : State) : ∃ parts mail out,
    s.reportGuar = { s with parts := parts, mod := { s.mod with cc := { s.mod.cc with mail := mail } }, outbox := out } :=
  s.reportGuar_same.1

@[simp] theorem State.reportGuar_tiles (s : State) : s.reportGuar.tiles = s.tiles := by
  obtain ⟨_, _, _, h⟩ := s.reportGuar_frame; rw [h]
@[simp] theorem State.reportGuar_fields (s : State) : s.reportGuar.fields = s.fields := by
  obtain ⟨_, _, _, h⟩ := s.reportGuar_frame; rw [h]
@[simp] theorem State.reportGuar_sites (s : State) : s.reportGuar.sites = s.sites := by
  obtain ⟨_, _, _, h⟩ := s.reportGuar_frame; rw [h]
@[simp] theorem State.reportGuar_ports (s : State) : s.reportGuar.ports = s.ports := by
  obtain ⟨_, _, _, h⟩ := s.reportGuar_frame; rw [h]
@[simp] theorem State.reportGuar_now (s : State) : s.reportGuar.now = s.now := by
  obtain ⟨_, _, _, h⟩ := s.reportGuar_frame; rw [h]
@[simp] theorem State.reportGuar_tile (s : State) (t : Nat) : s.reportGuar.tile t = s.tile t := by
  rw [State.tile, s.reportGuar_tiles]; rfl
@[simp] theorem State.reportGuar_field (s : State) (f : Nat) : s.reportGuar.field f = s.field f := by
  rw [State.field, s.reportGuar_fields]; rfl
@[simp] theorem State.reportGuar_ez (s : State) (o : Nat) : s.reportGuar.ez o = s.ez o := by
  obtain ⟨_, _, _, h⟩ := s.reportGuar_frame; rw [h]; rfl

/-! XMASK is kept in the registers of the power block alone (R360). -/

/-- Writes of registers of the module change its registers alone. -/
theorem State.foldl_ezField_frame (o hi lo v : State → Nat → Nat) (l : List Nat) : ∀ s : State, ∃ csr,
    l.foldl (fun s f => s.ezField (o s f) (hi s f) (lo s f) (v s f)) s = { s with mod := { s.mod with csr := csr } } := by
  induction l with
  | nil => exact fun s => ⟨s.mod.csr, rfl⟩
  | cons f l ih =>
    intro s
    obtain ⟨csr, h⟩ := ih (s.ezField (o s f) (hi s f) (lo s f) (v s f))
    exact ⟨csr, h⟩

theorem State.putXmask_frame (s : State) : ∃ csr, s.putXmask = { s with mod := { s.mod with csr := csr } } :=
  State.foldl_ezField_frame (fun _ f => pwr f 4) (fun _ _ => 15) (fun _ _ => 8) _ _ s

/-! A change made at each of many fields. -/

/-- What a fold over fields leaves where each step replaces its field by `G`, for the states that `I` describes. -/
theorem State.foldl_setField {step : State → Nat → State} {G : Nat → Field → Field} {I : State → Prop} {l : List Nat} (hnd : l.Nodup)
    (hstep : ∀ u, I u → ∀ f ∈ l, step u f = u.setField f (G f (u.field f)))
    (hI : ∀ u, I u → Map.wf (fun _ => ({} : Field)) u.fields = true → ∀ f ∈ l, I (u.setField f (G f (u.field f)))) :
    ∀ s, I s → Map.wf (fun _ => ({} : Field)) s.fields = true →
      ∃ fields, l.foldl step s = { s with fields := fields } ∧ Map.wf (fun _ => ({} : Field)) fields = true ∧
        ∀ k, (l.foldl step s).field k = if k ∈ l then G k (s.field k) else s.field k := by
  induction l with
  | nil => exact fun s _ hwf => ⟨s.fields, rfl, hwf, fun k => by simp⟩
  | cons f l ih =>
    intro s hs hwf
    obtain ⟨hf, hnd⟩ := List.nodup_cons.mp hnd
    have hmem : ∀ g ∈ l, g ∈ f :: l := fun g hg => List.mem_cons_of_mem _ hg
    obtain ⟨fields, hframe, hwf', hfield⟩ := ih hnd (fun u hu g hg => hstep u hu g (hmem g hg))
      (fun u hu hw g hg => hI u hu hw g (hmem g hg)) _ (hI s hs hwf f (List.mem_cons_self ..)) (Map.wf_set hwf)
    rw [List.foldl_cons, hstep s hs f (List.mem_cons_self ..)]
    refine ⟨fields, hframe, hwf', fun k => ?_⟩
    rw [hfield k]
    by_cases hk : k = f
    · rw [hk, if_neg hf, State.setField_field_self hwf, if_pos (List.mem_cons_self ..)]
    · simp only [State.setField_field_ne hwf hk, List.mem_cons, hk, false_or]

end Sys2Proof.Machine
end

section
/-!
Route tables: what an epoch swap and a recomputation leave in each field (R226 to R229).
-/

namespace Sys2Proof.Machine

/-- The other registers of a field stand after a write of one. -/
theorem Field.csrWord_csrPut_ne {x : Field} {o p : Nat} (v : Word) (h : Map.wf (regReset fieldRegs) x.csr = true) (hp : p ≠ o) :
    (x.csrPut o v).csrWord p = x.csrWord p := Map.get_set_ne h hp

theorem Field.csrWord_csrPut_self {x : Field} {o : Nat} (v : Word) (h : Map.wf (regReset fieldRegs) x.csr = true) :
    (x.csrPut o v).csrWord o = v := Map.get_set_self h

theorem Field.csrPut_of_csr (x : Field) (m : Map Word) (o : Nat) (v : Word) :
    ({ x with csr := m } : Field).csrPut o v = { x with csr := Map.set (regReset fieldRegs) m o v } := rfl

/-- Registers of a field written in turn. -/
theorem Field.foldl_csrPut (key : Nat → Nat) (val : Nat → Word) (l : List Nat) : ∀ x : Field,
    l.foldl (fun x d => x.csrPut (key d) (val d)) x =
      { x with csr := Map.setAll (regReset fieldRegs) key val l x.csr } := by
  induction l with
  | nil => exact fun _ => rfl
  | cons d l ih => exact fun x => ih (x.csrPut (key d) (val d))

/-! The three changes that a recomputation makes of a field. -/

/-- A field told whether it can still be reached (R37). -/
def Field.withReach (main : List Nat) (f : Nat) (x : Field) : Field := { x with unreach := decide (x.power = 2) && !main.contains f }

/-- Where entry d of a bank stands (Table 8.9). -/
def entryAt (bank d : Nat) : Nat := 0x1000 + 0x400 * bank + 4 * d

/-- A field with the entries `e` of a bank, and its CSITE (R228). -/
def Field.withTable (bank site : Nat) (e : Nat → Word) (x : Field) : Field :=
  ((List.range nFields).foldl (fun x d => x.csrPut (entryAt bank d) (e d)) x).csrField 0x14 5 0 site

/-- A field whose new injections take a bank (R229). -/
def Field.activated (bank : Nat) (x : Field) : Field :=
  { x.csrField 0x10 0 0 bank with routed := x.routed || decide (x.power = 2) }

/-- Loading the tables writes registers alone. -/
theorem Field.withTable_eq (x : Field) (bank site : Nat) (e : Nat → Word) : ∃ w, x.withTable bank site e =
    { x with csr := Map.set (regReset fieldRegs) (Map.setAll (regReset fieldRegs) (entryAt bank) e (List.range nFields) x.csr) 0x14 w } := by
  rw [Field.withTable, Field.foldl_csrPut (entryAt bank) e, Field.csrField]
  exact ⟨_, Field.csrPut_of_csr x _ _ _⟩

section WithTable
variable {x : Field} (bank site : Nat) (e : Nat → Word) (h : Map.wf (regReset fieldRegs) x.csr = true)
include h

theorem Field.withTable_wf : Map.wf (regReset fieldRegs) (x.withTable bank site e).csr = true := by
  obtain ⟨w, hw⟩ := x.withTable_eq bank site e
  rw [hw]
  exact Map.wf_set (Map.wf_setAll _ _ _ _ h)

/-- Loading the tables keeps the registers below them but CSITE. -/
theorem Field.withTable_csrWord_low {o : Nat} (ho : o < 0x1000) (hsite : o ≠ 0x14) :
    (x.withTable bank site e).csrWord o = x.csrWord o := by
  obtain ⟨w, hw⟩ := x.withTable_eq bank site e
  rw [hw]
  have hlow (d : Nat) : o ≠ entryAt bank d := by unfold entryAt; omega
  exact (Map.get_set_ne (Map.wf_setAll _ _ _ _ h) hsite).trans (Map.get_setAll_ne _ _ (fun d _ => hlow d) _ h)

theorem Field.withTable_entry {d : Nat} (hd : d < nFields) :
    (x.withTable bank site e).csrWord (entryAt bank d) = e d := by
  obtain ⟨w, hw⟩ := x.withTable_eq bank site e
  have hhigh : entryAt bank d ≠ 0x14 := by unfold entryAt; omega
  have hinj : ∀ i ∈ List.range nFields, ∀ k ∈ List.range nFields, entryAt bank i = entryAt bank k → i = k := by
    unfold entryAt; omega
  rw [hw]
  exact (Map.get_set_ne (Map.wf_setAll _ _ _ _ h) hhigh).trans (Map.get_setAll _ _ hinj (List.mem_range.mpr hd) List.nodup_range _ h)

end WithTable

/-- The rest of a field stands. -/
theorem Field.withTable_rest (x : Field) (bank site : Nat) (e : Nat → Word) :
    (x.withTable bank site e).power = x.power ∧ (x.withTable bank site e).routed = x.routed ∧
      (x.withTable bank site e).unreach = x.unreach := by
  obtain ⟨w, hw⟩ := x.withTable_eq bank site e
  rw [hw]
  exact ⟨rfl, rfl, rfl⟩

theorem Field.activated_bank {x : Field} {bank : Nat} (hbank : bank ≤ 1) (h : Map.wf (regReset fieldRegs) x.csr = true) :
    bits ((x.activated bank).csrWord 0x10) 0 0 = bank := by
  have hput : (x.activated bank).csrWord 0x10 = setBits (x.csrWord 0x10) 0 0 bank := Field.csrWord_csrPut_self _ h
  rw [hput, bits_setBits_self _ (by decide) (Nat.lt_succ_of_le hbank)]

theorem Field.activated_routed {x : Field} (bank : Nat) (hon : x.power = 2) : (x.activated bank).routed = true := by
  simp [Field.activated, hon]
theorem Field.activated_csrWord_ne {x : Field} (bank : Nat) {o : Nat} (ho : o ≠ 0x10) (h : Map.wf (regReset fieldRegs) x.csr = true) :
    (x.activated bank).csrWord o = x.csrWord o := Field.csrWord_csrPut_ne _ h ho

/-! The tables in force depend on the epoch registers and the entries alone. -/

theorem State.epochBank_congr {s u : State} (hbank : ∀ f, u.activeBank f = s.activeBank f)
    (hrouted : ∀ f, (u.field f).routed = (s.field f).routed) : u.epochBank = s.epochBank := by
  unfold State.epochBank
  rw [funext hrouted, funext hbank]

theorem State.swapCycles_congr {s u : State} (hcsr : ∀ f, (u.field f).csr = (s.field f).csr)
    (hrouted : ∀ f, (u.field f).routed = (s.field f).routed) (live : List Nat) (r : RouteSet) :
    u.swapCycles live r = s.swapCycles live r := by
  have hword (f o : Nat) : (u.field f).csrWord o = (s.field f).csrWord o := by rw [Field.csrWord, hcsr, Field.csrWord]
  have hepoch : u.epochBank = s.epochBank := State.epochBank_congr (fun f => congrArg (bits · 0 0) (hword f 0x10)) hrouted
  have hset (bank : Nat) : u.bankSet bank = s.bankSet bank := by simp only [State.bankSet, State.rtEntry, hword]
  simp only [State.swapCycles, hepoch, hset]

theorem State.routeEntry_congr {s u : State} (howner : ∀ f, u.fieldOwner f = s.fieldOwner f) (live : List Nat) (r : RouteSet) (l : List Nat)
    (f d : Nat) : u.routeEntry live r l f d = s.routeEntry live r l f d := by
  simp only [State.routeEntry, howner]

/-! The steps of a recomputation. -/

theorem State.mem_onFields {s : State} {f : Nat} (hf : f < 70) (hon : (s.field f).power = 2) : f ∈ s.onFields :=
  List.mem_filter.mpr ⟨List.mem_range.mpr hf, decide_eq_true hon⟩

theorem State.onFields_nodup (s : State) : s.onFields.Nodup := List.nodup_range.filter _

/-- Where no field is newly lost, reachability is recorded and no partition is aborted (R37). -/
theorem State.foldl_setUnreach {s : State} {main : List Nat} (hwf : Map.wf (fun _ => ({} : Field)) s.fields = true)
    (hlost : ∀ f ∈ List.range 70, (s.field f).power ≠ 2 ∨ f ∈ main ∨ (s.field f).unreach = true) :
    let u := (List.range nFields).foldl (fun s f => s.setUnreach f (decide ((s.field f).power = 2) && !main.contains f)) s
    ∃ fields, u = { s with fields := fields } ∧ Map.wf (fun _ => ({} : Field)) fields = true ∧
      ∀ k, u.field k = if k ∈ List.range nFields then (s.field k).withReach main k else s.field k := by
  refine State.foldl_setField (G := Field.withReach main)
    (I := fun u => ∀ f ∈ List.range 70, (u.field f).power ≠ 2 ∨ f ∈ main ∨ (u.field f).unreach = true) List.nodup_range
    (fun u hu f hf => ?step) (fun u hu hw f hf k hk => ?keeps) s hlost hwf
  case step =>
    have hseen : ((decide ((u.field f).power = 2) && !main.contains f) && !(u.field f).unreach) = false := by
      rcases hu f hf with h | h | h <;> simp [h]
    simp only [State.setUnreach, hseen, Bool.false_eq_true, if_false, Field.withReach]
  case keeps =>
    by_cases hkf : k = f
    · subst hkf
      rw [State.setField_field_self hw]
      by_cases hon : (u.field k).power = 2
      · by_cases hmain : k ∈ main
        · exact .inr (.inl hmain)
        · exact .inr (.inr (by simp [Field.withReach, hon, hmain]))
      · exact .inl hon
    · rw [State.setField_field_ne hw hkf]
      exact hu k hk

/-- The tables loaded in the fields that are on (R228). -/
theorem State.loadTables_fields {s : State} (kept main : List Nat) (r : RouteSet) (hwf : Map.wf (fun _ => ({} : Field)) s.fields = true)
    (hcsr : ∀ f, Map.wf (regReset fieldRegs) (s.field f).csr = true) :
    ∃ fields, s.loadTables kept main r = { s with fields := fields } ∧ Map.wf (fun _ => ({} : Field)) fields = true ∧
      ∀ k, (s.loadTables kept main r).field k = if k ∈ s.onFields then
        (s.field k).withTable (1 - s.epochBank) ((csiteFor main).getD 0) fun d => s.routeEntry kept r (nth [] (allHops kept) d) k d
        else s.field k := by
  refine State.foldl_setField (G := fun k x => x.withTable (1 - s.epochBank) ((csiteFor main).getD 0)
      fun d => s.routeEntry kept r (nth [] (allHops kept) d) k d)
    (I := fun u => (∀ f, u.fieldOwner f = s.fieldOwner f) ∧ ∀ f, Map.wf (regReset fieldRegs) (u.field f).csr = true) s.onFields_nodup
    (fun u hu f _ => ?step) (fun u hu hw f _ => ⟨fun k => ?owner, fun k => ?wf⟩) s ⟨fun _ => rfl, hcsr⟩ hwf
  case step =>
    simp only [Field.withTable, State.routeEntry_congr hu.1, entryAt]
  case owner =>
    rw [← hu.1 k, State.fieldOwner]
    by_cases hkf : k = f
    · subst hkf
      rw [State.setField_field_self hw, Field.withTable_csrWord_low _ _ _ (hu.2 k) (by decide) (by decide), State.fieldOwner]
    · rw [State.setField_field_ne hw hkf, State.fieldOwner]
  case wf =>
    by_cases hkf : k = f
    · subst hkf
      rw [State.setField_field_self hw]
      exact Field.withTable_wf _ _ _ (hu.2 k)
    · rw [State.setField_field_ne hw hkf]
      exact hu.2 k

/-- Held injection let go changes the partitions alone. -/
theorem State.foldl_release_frame (l : List Nat) : ∀ s : State, ∃ parts,
    l.foldl (fun s p => if (s.part p).hold then s.setPart p { s.part p with hold := false } else s) s = { s with parts := parts } := by
  induction l with
  | nil => exact fun s => ⟨s.parts, rfl⟩
  | cons p l ih =>
    intro s
    rw [List.foldl_cons]
    split
    · obtain ⟨parts, h⟩ := ih (s.setPart p { s.part p with hold := false })
      exact ⟨parts, h⟩
    · exact ih s

/-- The bank selected in fields, each once (R229). -/
theorem State.foldl_setActive {s : State} (bank : Nat) {l : List Nat} (hnd : l.Nodup)
    (hwf : Map.wf (fun _ => ({} : Field)) s.fields = true) :
    ∃ fields, l.foldl (fun s f => s.setActive f bank) s = { s with fields := fields } ∧ Map.wf (fun _ => ({} : Field)) fields = true ∧
      ∀ k, (l.foldl (fun s f => s.setActive f bank) s).field k = if k ∈ l then (s.field k).activated bank else s.field k :=
  State.foldl_setField (G := fun _ x => x.activated bank) (I := fun _ => True) hnd (fun _ _ _ _ => rfl) (fun _ _ _ _ _ => trivial) s trivial hwf

/-- A swap finished: the fields that are on take the bank; tiles, sites and ports are as before (R229). -/
theorem State.finishSwap_fields {s : State} {bank : Nat} (hbank : 1 - s.epochBank = bank)
    (hwf : Map.wf (fun _ => ({} : Field)) s.fields = true) :
    (∀ k, s.finishSwap.field k = if k ∈ s.onFields then (s.field k).activated bank else s.field k) ∧
      s.finishSwap.tiles = s.tiles ∧ s.finishSwap.sites = s.sites ∧ s.finishSwap.ports = s.ports ∧ s.finishSwap.now = s.now := by
  obtain ⟨fields, hset, -, hfield⟩ := State.foldl_setActive bank s.onFields_nodup hwf
  obtain ⟨parts, hparts⟩ := State.foldl_release_frame (List.range nParts) (s.onFields.foldl (fun s f => s.setActive f bank) s)
  rw [hset] at hparts hfield
  obtain ⟨csr, hmask⟩ := State.putXmask_frame (({ s with fields := fields, parts := parts } : State).updMod
    fun m => { m with cc := { m.cc with swap := false } })
  have hframe : s.finishSwap = State.reportGuar { s with
      fields := fields, parts := parts, mod := { s.mod with csr := csr, cc := { s.mod.cc with swap := false } } } := by
    simp only [State.finishSwap, hbank, hset, hparts, hmask]
    rfl
  rw [hframe]
  exact ⟨fun k => (State.reportGuar_field _ k).trans (hfield k), State.reportGuar_tiles _, State.reportGuar_sites _,
    State.reportGuar_ports _, State.reportGuar_now _⟩

/-- A field that is on after a recomputation (R228, R229). -/
theorem Field.recomputed {x : Field} {bank : Nat} (main : List Nat) (f site : Nat) (e : Nat → Word) (hbank : bank ≤ 1)
    (h : Map.wf (regReset fieldRegs) x.csr = true) (hon : x.power = 2) :
    let y := ((x.withReach main f).withTable bank site e).activated bank
    bits (y.csrWord 0x10) 0 0 = bank ∧ y.routed = true ∧ y.power = 2 ∧ y.unreach = decide (f ∉ main) ∧
      ∀ d < 70, y.csrWord (entryAt bank d) = e d := by
  have hloaded := Field.withTable_wf (x := x.withReach main f) bank site e h
  obtain ⟨hpower, hrouted, hreach⟩ := (x.withReach main f).withTable_rest bank site e
  have hentries (d : Nat) (hd : d < 70) := Field.withTable_entry (x := x.withReach main f) bank site e h (d := d) hd
  intro y
  have hy : y = ((x.withReach main f).withTable bank site e).activated bank := rfl
  clear_value y
  generalize (x.withReach main f).withTable bank site e = z at *
  have hhigh (d : Nat) : entryAt bank d ≠ 0x10 := by unfold entryAt; omega
  subst hy
  refine ⟨Field.activated_bank hbank hloaded, Field.activated_routed bank (hpower.trans hon), hpower.trans hon, hreach.trans ?_, fun d hd =>
    (Field.activated_csrWord_ne bank (hhigh d) hloaded).trans (hentries d hd)⟩
  simp [Field.withReach, hon]

/-- A recomputation with no flit of the other epoch left, that loses no field and needs no held swap (R228, R229). -/
theorem State.reroute_fields {s : State} {bank : Nat} {kept : List Nat} {r : RouteSet} (hs : s.Canon) (hold : s.anyOld = false)
    (hswap : s.mod.cc.swap = false) (hset : s.routeSet = (kept, r)) (hbank : 1 - s.epochBank = bank)
    (hlost : ∀ f ∈ List.range 70, (s.field f).power ≠ 2 ∨ f ∈ mainGroup kept ∨ (s.field f).unreach = true)
    (hcycles : s.swapCycles kept r = false) :
    s.reroute.tiles = s.tiles ∧ s.reroute.sites = s.sites ∧ s.reroute.ports = s.ports ∧ s.reroute.now = s.now ∧
      ∀ f < 70, (s.field f).power = 2 → s.reroute.field f =
        (((s.field f).withReach (mainGroup kept) f).withTable bank ((csiteFor (mainGroup kept)).getD 0)
          fun d => s.routeEntry kept r (nth [] (allHops kept) d) f d).activated bank := by
  obtain ⟨fields1, hframe1, hwf1, hfield1⟩ := State.foldl_setUnreach hs.fields hlost
  set s1 := (List.range nFields).foldl
    (fun s f => s.setUnreach f (decide ((s.field f).power = 2) && !(mainGroup kept).contains f)) s with hs1
  have hwf1' : Map.wf (fun _ => ({} : Field)) s1.fields = true := by rw [hframe1]; exact hwf1
  have hsame (k : Nat) : (s1.field k).csr = (s.field k).csr ∧ (s1.field k).routed = (s.field k).routed ∧
      (s1.field k).power = (s.field k).power := by
    rw [hfield1 k]
    split <;> exact ⟨rfl, rfl, rfl⟩
  have hword (k o : Nat) : (s1.field k).csrWord o = (s.field k).csrWord o := by rw [Field.csrWord, (hsame k).1, Field.csrWord]
  have hcsr1 (k : Nat) : Map.wf (regReset fieldRegs) (s1.field k).csr = true := by rw [(hsame k).1]; exact hs.fieldCsr k
  have hcycles1 : s1.swapCycles kept r = false :=
    (State.swapCycles_congr (fun k => (hsame k).1) (fun k => (hsame k).2.1) kept r).trans hcycles
  have hepoch1 : s1.epochBank = s.epochBank :=
    State.epochBank_congr (fun k => congrArg (bits · 0 0) (hword k 0x10)) fun k => (hsame k).2.1
  obtain ⟨fields2, hframe2, hwf2, hfield2⟩ := State.loadTables_fields kept (mainGroup kept) r hwf1' hcsr1
  set s2 := s1.loadTables kept (mainGroup kept) r with hs2
  have hwf2' : Map.wf (fun _ => ({} : Field)) s2.fields = true := by rw [hframe2]; exact hwf2
  have hepoch2 : s2.epochBank = s1.epochBank := by
    refine State.epochBank_congr (fun k => ?_) fun k => ?_
    · rw [State.activeBank, State.activeBank, hfield2 k]
      split
      · rw [Field.withTable_csrWord_low _ _ _ (hcsr1 k) (by decide) (by decide)]
      · rfl
    · rw [hfield2 k]
      split
      · exact (Field.withTable_rest _ _ _ _).2.1
      · rfl
  have hreroute : s.reroute = s2.finishSwap := by
    simp only [State.reroute, hold, hswap, Bool.or_self, Bool.false_eq_true, if_false, hset, ← hs1, ← hs2, hcycles1]
  obtain ⟨hfield3, htiles, hsites, hports, hnow⟩ := State.finishSwap_fields (s := s2) (by rw [hepoch2, hepoch1, hbank]) hwf2'
  rw [hreroute, htiles, hsites, hports, hnow, hframe2, hframe1]
  refine ⟨rfl, rfl, rfl, rfl, fun f hf hon => ?_⟩
  have hon1 : f ∈ s1.onFields := State.mem_onFields hf ((hsame f).2.2.trans hon)
  have hentry (d : Nat) : s1.routeEntry kept r (nth [] (allHops kept) d) f d = s.routeEntry kept r (nth [] (allHops kept) d) f d :=
    State.routeEntry_congr (fun k => congrArg (bits · 3 0) (hword k 4)) _ _ _ _ _
  have hloaded : s2.field f = ((s.field f).withReach (mainGroup kept) f).withTable bank ((csiteFor (mainGroup kept)).getD 0)
      fun d => s.routeEntry kept r (nth [] (allHops kept) d) f d := by
    rw [hfield2 f, if_pos hon1, hfield1 f, if_pos (List.mem_range.mpr (show f < nFields from hf)), hepoch1, hbank, funext hentry]
  have hon2 : f ∈ s2.onFields := State.mem_onFields hf (by rw [hloaded, (Field.withTable_rest _ _ _ _).1]; exact hon)
  rw [← hframe1, ← hframe2, hfield3 f, if_pos hon2, hloaded]

end Sys2Proof.Machine

namespace Sys2Proof
open Machine

/-- Settles O36: a recomputation, by what each of its steps leaves in a field; the other commands by their definitions and the frame of
XMASK. -/
theorem routes : Obligations.Routes := by
  intro s
  refine ⟨?entry, ?swap, ?held, ?recompute⟩
  case entry =>
    intro f hf d hd v bank
    have hactive : s.activeBank f < 2 := Nat.mod_lt _ (by decide)
    have hother : bank ≠ s.activeBank f := by omega
    have hargs : (decide (f < nFields) && decide (bank < 2) && decide (d < 256)) = true := by
      simp only [Bool.and_eq_true, decide_eq_true_eq]
      exact ⟨⟨hf, by omega⟩, hd⟩
    refine ⟨fun hhigh => s.checked_of hargs ?_, fun hlow hold h1 h0 => s.checked_of hargs ?_⟩
    · simp only [State.entryWrite, State.privileged_true, hother, if_false, hhigh, if_true]
    · have hnot : ¬ 0x46 ≤ d := Nat.not_le.mpr hlow
      have hok : (!((decide (bits v 19 16 ≤ 4) || decide (bits v 19 16 = 15)) && (decide (bits v 15 12 ≤ 4) || decide (bits v 15 12 = 15)))) =
          false := by
        rcases h1 with h1 | h1 <;> rcases h0 with h0 | h0 <;> simp [h1, h0]
      simp only [State.entryWrite, State.privileged_true, hother, if_false, hnot, hold, Bool.false_eq_true, hok]
  case swap =>
    intro f hf v
    exact s.checked_of (decide_eq_true hf) rfl
  case held =>
    intro hup hswap
    obtain ⟨csr, hmask⟩ := s.putXmask_frame
    have hwaits : s.reroute = s.putXmask.heldSwap := by simp [State.reroute, hswap]
    have hkept : s.putXmask.mod.cc.swap = true := by rw [hmask]; exact hswap
    have hleft : s.putXmask.flitsLeft = s.flitsLeft := by rw [hmask]; rfl
    refine ⟨fun hflits => ?_, fun hflits => ?_⟩ <;> refine congrArg Host.Outcome.next ?_
    · simp only [hup, if_true, hwaits, State.heldSwap, hkept, hleft, hflits, Bool.not_true, Bool.and_false, Bool.false_eq_true, if_false]
    · simp only [hup, if_true, hwaits, State.heldSwap, hkept, hleft, hflits, Bool.not_false, Bool.and_self, if_true]
  case recompute =>
    intro hup hswap hold hcanonical kept r main bank hlost hcycles
    have hbank : bank ≤ 1 := Nat.sub_le 1 _
    obtain ⟨htiles, hsites, hports, hnow, hfields⟩ :=
      State.reroute_fields (s.canon hcanonical) hold hswap (kept := kept) (r := r) rfl (bank := bank) rfl hlost hcycles
    refine ⟨s.reroute, congrArg Host.Outcome.next (if_pos hup), htiles, hsites, hports, hnow, fun f hf hon => ?_⟩
    simp only [State.activeBank, State.rtEntry, hfields f hf hon]
    exact Field.recomputed main f _ _ hbank ((s.canon hcanonical).fieldCsr f) hon

end Sys2Proof
end

section
/-!
What an abort may change (R393, R413): its transfers end at the ports, its sites discard, what they return enters the wafer where a
field is live, and DSITE's outcome is posted.
-/

namespace Sys2Proof.Machine

/-- Two states differ in ports, sites and the outbox alone. -/
def PortWork (s u : State) : Prop := ∃ sites ports out, u = { s with sites := sites, ports := ports, outbox := out }

theorem PortWork.refl (s : State) : PortWork s s := ⟨s.sites, s.ports, s.outbox, rfl⟩

theorem PortWork.trans {s u v : State} (h : PortWork s u) (k : PortWork u v) : PortWork s v := by
  obtain ⟨_, _, _, rfl⟩ := h
  obtain ⟨sites, ports, out, rfl⟩ := k
  exact ⟨sites, ports, out, rfl⟩

theorem State.setPort_portWork (s : State) (q : Nat) (x : Port) : PortWork s (s.setPort q x) := ⟨s.sites, _, s.outbox, rfl⟩
theorem State.setSite_portWork (s : State) (n : Nat) (x : Site) : PortWork s (s.setSite n x) := ⟨_, s.ports, s.outbox, rfl⟩
theorem State.say_portWork (s : State) (m : Msg) : PortWork s (s.say m) := ⟨s.sites, s.ports, _, rfl⟩

/-- Work at ports and sites done in turn. -/
theorem PortWork.foldl {α : Type} {step : State → α → State} (h : ∀ u a, PortWork u (step u a)) (l : List α) (s : State) :
    PortWork s (l.foldl step s) :=
  List.foldlRecOn (motive := PortWork s) l step (PortWork.refl s) fun u hu a _ => hu.trans (h u a)

theorem State.haloFlush_portWork (q k : Nat) : ∀ s : State, PortWork s (s.haloFlush q k) := by
  induction k with
  | zero => exact PortWork.refl
  | succ k ih =>
    intro s
    simp only [State.haloFlush]
    split
    · exact PortWork.refl s
    · split
      · exact PortWork.refl s
      · split
        · split
          · exact PortWork.refl s
          · exact ((s.setPort_portWork q _).trans (State.say_portWork _ _)).trans (ih _)
        · split
          · exact PortWork.refl s
          · exact ((s.setPort_portWork q _).trans (State.say_portWork _ _)).trans (ih _)

theorem State.haloTx_portWork (s : State) (q typ tag off : Nat) (data : List Byte) : PortWork s (s.haloTx q typ tag off data) :=
  (s.setPort_portWork q _).trans (State.haloFlush_portWork _ _ _)

theorem State.roceFlush_portWork (s : State) (q : Nat) : PortWork s (s.roceFlush q) := by
  simp only [State.roceFlush]
  split
  · exact PortWork.refl s
  · exact (s.setPort_portWork q _).trans (PortWork.foldl (fun u _ => u.say_portWork _) _ _)

theorem State.haloCmpl_portWork (s : State) (q tag qp status ecode : Nat) (data : List Byte) :
    PortWork s (s.haloCmpl q tag qp status ecode data) := by
  simp only [State.haloCmpl]
  split
  · split
    · exact (s.setPort_portWork q _).trans (State.roceFlush_portWork _ _)
    · exact PortWork.refl s
  · split
    · exact s.haloTx_portWork _ _ _ _ _
    · exact PortWork.refl s

theorem State.dropReqs_portWork (s : State) (q : Nat) (x : HXfer) : PortWork s (s.dropReqs q x) := by
  simp only [State.dropReqs]
  split
  · exact s.setSite_portWork _ _
  · exact PortWork.refl s

theorem State.endXfer_portWork (s : State) (q : Nat) (x : HXfer) (status ecode : Nat) : PortWork s (s.endXfer q x status ecode) := by
  have ended : PortWork s (if status = 0 then s.setPort q ((s.port q).dropXfer x)
      else (s.setPort q (((s.port q).dropXfer x).noteLast status ecode x.win x.unit)).dropReqs q x) := by
    split
    · exact s.setPort_portWork _ _
    · exact (s.setPort_portWork _ _).trans (State.dropReqs_portWork _ _ _)
  simp only [State.endXfer]
  split
  · exact ended
  · exact ended.trans (State.haloCmpl_portWork _ _ _ _ _ _ _)

theorem State.endAll_portWork (s : State) (q status : Nat) : PortWork s (s.endAll q status) :=
  PortWork.foldl (fun u x => u.endXfer_portWork q x status 0) _ s

theorem State.recallReqs_portWork (s : State) (q : Nat) : PortWork s (s.recallReqs q) := by
  refine PortWork.foldl (fun u n => ?_) _ s
  dsimp only
  split
  · exact u.setSite_portWork _ _
  · exact PortWork.refl u

theorem State.haloData_portWork (s : State) (q : Nat) (x : HXfer) (sq : Nat) (ws : List Word) : PortWork s (s.haloData q x sq ws) := by
  simp only [State.haloData]
  split
  · split
    · exact (s.setPort_portWork _ _).trans (State.haloCmpl_portWork _ _ _ _ _ _ _)
    · exact s.setPort_portWork _ _
  · split
    · exact s.setPort_portWork _ _
    · have sent := fun z l => (s.setPort_portWork q z).trans (State.haloTx_portWork _ q (if x.mod then 2 else 4) x.tag (sq / 16) l)
      split
      · exact (sent _ _).trans (State.endXfer_portWork _ _ _ _ _)
      · exact sent _ _

theorem State.haloReturn_portWork (s : State) (edge : Nat) (f : Flit) : PortWork s (s.haloReturn edge f) := by
  simp only [State.haloReturn]
  split
  · exact PortWork.refl s
  · split
    · exact s.setPort_portWork _ _
    · exact s.endXfer_portWork _ _ _ _
    · exact s.haloData_portWork _ _ _ _
    · exact PortWork.refl s

/-- A change made at every site of a partition is work at sites. -/
theorem State.eachSite_portWork (s : State) (p : Nat) (f : Site → Site) : PortWork s (s.eachSite p f) :=
  PortWork.foldl (fun u n => u.setSite_portWork n _) _ s

/-- What the abort of partition `p` may change besides the first setting of its state: tiles of live fields, sites, ports, the
partition's own run, the registers from 0x6000 on, the log, and what is posted. -/
structure AbortWork (p : Nat) (s u : State) : Prop where
  frame : ∃ tiles sites ports parts csr log mail out, u = { s with
    tiles := tiles, sites := sites, ports := ports, parts := parts, outbox := out
    mod := { s.mod with csr := csr, log := log, cc := { s.mod.cc with mail := mail } } }
  tiles : Map.wf (fun _ => ({} : Tile)) s.tiles = true → Map.wf (fun _ => ({} : Tile)) u.tiles = true ∧
    ∀ t, s.live (fieldOf t) = false → u.tile t = s.tile t
  parts : Map.wf (fun _ => ({} : Part)) s.parts = true → Map.wf (fun _ => ({} : Part)) u.parts = true ∧
    (∀ k, k ≠ p → u.part k = s.part k) ∧
    ((s.part p).state = 4 → (u.part p).state = 4 ∧ (u.part p).acause = (s.part p).acause)
  csr : Map.wf (regReset modRegs) s.mod.csr = true → Map.wf (regReset modRegs) u.mod.csr = true ∧ ∀ o, o < 0x6000 → u.ez o = s.ez o

theorem AbortWork.fields_eq {p : Nat} {s u : State} (h : AbortWork p s u) : u.fields = s.fields := by
  obtain ⟨_, _, _, _, _, _, _, _, hu⟩ := h.frame
  rw [hu]

theorem AbortWork.live_eq {p : Nat} {s u : State} (h : AbortWork p s u) (f : Nat) : u.live f = s.live f := by
  rw [State.live, State.field, h.fields_eq]
  rfl

theorem AbortWork.refl (p : Nat) (s : State) : AbortWork p s s where
  frame := ⟨s.tiles, s.sites, s.ports, s.parts, s.mod.csr, s.mod.log, s.mod.cc.mail, s.outbox, rfl⟩
  tiles := fun h => ⟨h, fun _ _ => rfl⟩
  parts := fun h => ⟨h, fun _ _ => rfl, fun h => ⟨h, rfl⟩⟩
  csr := fun h => ⟨h, fun _ _ => rfl⟩

theorem AbortWork.trans {p : Nat} {s u v : State} (h : AbortWork p s u) (k : AbortWork p u v) : AbortWork p s v where
  frame := by
    obtain ⟨_, _, _, _, _, _, _, _, rfl⟩ := h.frame
    obtain ⟨tiles, sites, ports, parts, csr, log, mail, out, rfl⟩ := k.frame
    exact ⟨tiles, sites, ports, parts, csr, log, mail, out, rfl⟩
  tiles := fun hwf => by
    obtain ⟨hu, hsame⟩ := h.tiles hwf
    obtain ⟨hv, ksame⟩ := k.tiles hu
    exact ⟨hv, fun t ht => (ksame t ((h.live_eq _).trans ht)).trans (hsame t ht)⟩
  parts := fun hwf => by
    obtain ⟨hu, hother, hself⟩ := h.parts hwf
    obtain ⟨hv, kother, kself⟩ := k.parts hu
    refine ⟨hv, fun j hj => (kother j hj).trans (hother j hj), fun h4 => ?_⟩
    obtain ⟨hstate, hcause⟩ := hself h4
    obtain ⟨kstate, kcause⟩ := kself hstate
    exact ⟨kstate, kcause.trans hcause⟩
  csr := fun hwf => by
    obtain ⟨hu, hsame⟩ := h.csr hwf
    obtain ⟨hv, ksame⟩ := k.csr hu
    exact ⟨hv, fun o ho => (ksame o ho).trans (hsame o ho)⟩

theorem AbortWork.foldl {α : Type} {p : Nat} {step : State → α → State} (h : ∀ u a, AbortWork p u (step u a)) (l : List α) (s : State) :
    AbortWork p s (l.foldl step s) :=
  List.foldlRecOn (motive := AbortWork p s) l step (AbortWork.refl p s) fun u hu a _ => hu.trans (h u a)

theorem PortWork.abortWork {s u : State} (p : Nat) (h : PortWork s u) : AbortWork p s u := by
  obtain ⟨sites, ports, out, rfl⟩ := h
  exact {
    frame := ⟨s.tiles, sites, ports, s.parts, s.mod.csr, s.mod.log, s.mod.cc.mail, out, rfl⟩
    tiles := fun h => ⟨h, fun _ _ => rfl⟩
    parts := fun h => ⟨h, fun _ _ => rfl, fun h => ⟨h, rfl⟩⟩
    csr := fun h => ⟨h, fun _ _ => rfl⟩ }

theorem State.post_abortWork (p : Nat) (s : State) (r : Nat) (m : Msg) : AbortWork p s (s.post r m) := by
  obtain ⟨mail, out, h⟩ := s.post_frame r m
  rw [h]
  exact {
    frame := ⟨s.tiles, s.sites, s.ports, s.parts, s.mod.csr, s.mod.log, mail, out, rfl⟩
    tiles := fun h => ⟨h, fun _ _ => rfl⟩
    parts := fun h => ⟨h, fun _ _ => rfl, fun h => ⟨h, rfl⟩⟩
    csr := fun h => ⟨h, fun _ _ => rfl⟩ }

/-- A flit that a site returns enters the wafer in a live field alone. -/
theorem State.setTile_abortWork (p : Nat) (s : State) {t : Nat} (x : Tile) (hlive : s.live (fieldOf t) = true) :
    AbortWork p s (s.setTile t x) where
  frame := ⟨_, s.sites, s.ports, s.parts, s.mod.csr, s.mod.log, s.mod.cc.mail, s.outbox, rfl⟩
  tiles := fun h => ⟨Map.wf_set h, fun k hk => State.setTile_tile_ne h fun heq => by rw [heq, hlive] at hk; cases hk⟩
  parts := fun h => ⟨h, fun _ _ => rfl, fun h => ⟨h, rfl⟩⟩
  csr := fun h => ⟨h, fun _ _ => rfl⟩

/-- A change of the partition itself that keeps STATE and ACAUSE while it aborts. -/
theorem State.setPart_abortWork {p : Nat} {s : State} {x : Part}
    (hx : (s.part p).state = 4 → x.state = 4 ∧ x.acause = (s.part p).acause) : AbortWork p s (s.setPart p x) where
  frame := ⟨s.tiles, s.sites, s.ports, _, s.mod.csr, s.mod.log, s.mod.cc.mail, s.outbox, rfl⟩
  tiles := fun h => ⟨h, fun _ _ => rfl⟩
  parts := fun h => ⟨Map.wf_set h, fun k hk => State.setPart_part_ne h hk, fun h4 => by rw [State.setPart_part_self h]; exact hx h4⟩
  csr := fun h => ⟨h, fun _ _ => rfl⟩

theorem State.ezPut_abortWork (p : Nat) (s : State) {o : Nat} (v : Word) (ho : 0x6000 ≤ o) : AbortWork p s (s.ezPut o v) where
  frame := ⟨s.tiles, s.sites, s.ports, s.parts, _, s.mod.log, s.mod.cc.mail, s.outbox, rfl⟩
  tiles := fun h => ⟨h, fun _ _ => rfl⟩
  parts := fun h => ⟨h, fun _ _ => rfl, fun h => ⟨h, rfl⟩⟩
  csr := fun h => ⟨Map.wf_set h, fun k hk => Map.get_set_ne h (by omega)⟩

theorem State.fromSite_abortWork (p : Nat) (s : State) (n edge : Nat) (f : Flit) : AbortWork p s (s.fromSite n edge f) := by
  simp only [State.fromSite]
  split
  · exact (s.haloReturn_portWork _ _).abortWork p
  · split
    · exact AbortWork.refl p s
    · split
      · exact (s.setSite_portWork _ _).abortWork p
      · exact s.setTile_abortWork p _ (by simpa using ‹¬(!s.live (fieldOf edge)) = true›)

/-- A run that is over ends in STATE 3 alone, and so not while the partition aborts. -/
theorem State.endRun_abortWork (p : Nat) (s : State) : AbortWork p s (s.endRun p) := by
  simp only [State.endRun]
  split
  · split
    next hover => exact State.setPart_abortWork fun h4 => by simp [h4] at hover
    next => exact AbortWork.refl p s
  · exact AbortWork.refl p s

theorem State.outcome_abortWork (p : Nat) (s : State) (outcome : Nat) : AbortWork p s (s.outcome p outcome) := by
  simp only [State.outcome]
  refine (AbortWork.trans ?_ (State.endRun_abortWork p _)).trans (State.post_abortWork p _ _ _)
  refine AbortWork.trans ?_ (State.setPart_abortWork fun h4 => ⟨h4, rfl⟩)
  exact ((s.eachSite_portWork p _).trans (State.setSite_portWork _ _ _)).abortWork p

theorem State.pavAbort_abortWork (p : Nat) (s : State) : AbortWork p s (s.pavAbort p) := by
  simp only [State.pavAbort]
  split
  · exact s.outcome_abortWork p _
  · exact AbortWork.refl p s

theorem State.disarm_abortWork (p : Nat) (s : State) : AbortWork p s (s.disarm p) := by
  have ports := (PortWork.foldl (fun (u : State) q => u.setPort_portWork q ((u.port q).csrField 0x20 30 28 0)) (s.portsOf p) s).abortWork p
  simp only [State.disarm]
  split
  · exact ports.trans (State.ezPut_abortWork p _ _ (by decide))
  · exact ports

/-- The work of an abort after its first setting of the partition's state (R413). -/
def State.abortRest (s : State) (p : Nat) : State :=
  let s2 := s.pavAbort p
  let s3 := (s2.portsOf p).foldl (fun s q => (s.endAll q 5).recallReqs q) s2
  let s4 := (s3.sitesOf p).foldl (fun s n =>
    let r := siteAbort (s.siteEnv n) { s := s.site n, free := s.free } 0x18
    r.ret.foldl (fun s ef => s.fromSite n ef.1 ef.2) (s.setSite n r.s)) s3
  s4.disarm p

theorem State.abortRest_abortWork (p : Nat) (s : State) : AbortWork p s (s.abortRest p) := by
  simp only [State.abortRest]
  refine (((s.pavAbort_abortWork p).trans ?_).trans (AbortWork.foldl (fun u n => ?_) _ _)).trans (State.disarm_abortWork p _)
  · exact (PortWork.foldl (fun u q => (u.endAll_portWork q 5).trans (State.recallReqs_portWork _ q)) _ _).abortWork p
  · exact ((u.setSite_portWork n _).abortWork p).trans (AbortWork.foldl (fun v ef => v.fromSite_abortWork p n _ _) _ _)

/-- The request of an abort of a partition that is defined, not loading and not aborting (R413). -/
theorem State.requestAbort_running {s : State} {p cause : Nat} (hp : p < 8) (h0 : (s.part p).state ≠ 0) (h4 : (s.part p).state ≠ 4)
    (h5 : (s.part p).state ≠ 5) : s.requestAbort p cause = (s.setPart p { s.part p with
      state := 4, acause := cause, wdog := false
      after := if (s.part p).state = 6 then 6 else if (s.part p).job.isSome then 2 else 1 }).abortRest p := by
  have hdefined : ¬ 8 ≤ p := by omega
  simp only [State.requestAbort, hdefined, h0, h4, h5, decide_false, Bool.or_self, Bool.false_eq_true, if_false]
  rfl

/-- A request of an abort, whatever its outcome, is abort work. -/
theorem State.requestAbort_abortWork (p : Nat) (s : State) (cause : Nat) : AbortWork p s (s.requestAbort p cause) := by
  by_cases hnone : 8 ≤ p ∨ (s.part p).state = 0 ∨ (s.part p).state = 4
  · rw [State.requestAbort_none hnone]
    exact AbortWork.refl p s
  · have hdefined : p < 8 := by omega
    have h0 : (s.part p).state ≠ 0 := fun h => hnone (.inr (.inl h))
    have h4 : (s.part p).state ≠ 4 := fun h => hnone (.inr (.inr h))
    by_cases h5 : (s.part p).state = 5
    · have hnot : ¬ 8 ≤ p := by omega
      simp only [State.requestAbort, hnot, h5, decide_false, if_true]
      exact (State.setPart_abortWork fun h => absurd h h4).trans ((State.say_portWork _ _).abortWork p)
    · rw [State.requestAbort_running hdefined h0 h4 h5]
      exact (State.setPart_abortWork fun h => absurd h h4).trans (State.abortRest_abortWork p _)

/-- An abort requested of a partition that is defined and not loading stands, with its cause (R413). -/
theorem State.requestAbort_part {s : State} {p cause : Nat} (hwf : Map.wf (fun _ => ({} : Part)) s.parts = true) (hp : p < 8)
    (h0 : (s.part p).state ≠ 0) (h4 : (s.part p).state ≠ 4) (h5 : (s.part p).state ≠ 5) :
    ((s.requestAbort p cause).part p).state = 4 ∧ ((s.requestAbort p cause).part p).acause = cause := by
  have kept (x : Part) (hx : x.state = 4) : (((s.setPart p x).abortRest p).part p).state = 4 ∧
      (((s.setPart p x).abortRest p).part p).acause = x.acause := by
    obtain ⟨-, -, hself⟩ := (State.abortRest_abortWork p (s.setPart p x)).parts (Map.wf_set hwf)
    rw [State.setPart_part_self hwf] at hself
    exact hself hx
  rw [State.requestAbort_running hp h0 h4 h5]
  exact kept _ rfl

end Sys2Proof.Machine
end

section
/-!
Records, the persistent store and its journal: what each write changes (R28, R443, R461).
-/

namespace Sys2Proof.Machine

/-- A record logged changes the log and the registers from 0x6000 on alone (R443). -/
theorem State.logRec_same (s : State) (r : Rec) : ∃ csr log, s.logRec r = { s with mod := { s.mod with csr := csr, log := log } } ∧
    (Map.wf (regReset modRegs) s.mod.csr = true → Map.wf (regReset modRegs) csr = true ∧
      ∀ o, o < 0x6000 → Map.get (regReset modRegs) csr o = s.ez o) := by
  unfold State.logRec
  dsimp only [State.ezPut, State.updMod]
  split
  · exact ⟨s.mod.csr, s.mod.log, rfl, fun h => ⟨h, fun _ _ => rfl⟩⟩
  · split
    · exact ⟨_, _, rfl, fun h => ⟨Map.wf_set h, fun o ho => Map.get_set_ne h (by omega)⟩⟩
    · refine ⟨_, _, rfl, fun h => ?_⟩
      exact ⟨Map.wf_set (Map.wf_set h), fun o ho =>
        (Map.get_set_ne (Map.wf_set h) (by omega)).trans (Map.get_set_ne h (by omega))⟩

/-- So does a record that is no hard fault. -/
theorem State.raise_same {s : State} {r : Rec} (hr : r.cls ≠ 1) :
    ∃ csr log, s.raise r = { s with mod := { s.mod with csr := csr, log := log } } ∧
    (Map.wf (regReset modRegs) s.mod.csr = true → Map.wf (regReset modRegs) csr = true ∧
      ∀ o, o < 0x6000 → Map.get (regReset modRegs) csr o = s.ez o) := by
  rw [State.raise_soft hr]
  exact s.logRec_same r

theorem State.logRec_abortWork (p : Nat) (s : State) (r : Rec) : AbortWork p s (s.logRec r) := by
  obtain ⟨csr, log, h, hcsr⟩ := s.logRec_same r
  rw [h]
  exact {
    frame := ⟨s.tiles, s.sites, s.ports, s.parts, csr, log, s.mod.cc.mail, s.outbox, rfl⟩
    tiles := fun h => ⟨h, fun _ _ => rfl⟩
    parts := fun h => ⟨h, fun _ _ => rfl, fun h => ⟨h, rfl⟩⟩
    csr := hcsr }

/-- Two states differ in the module's registers from 0x6000 on, its log, its persistent store and whether its journal is open. -/
def StoreWork (s u : State) : Prop := ∃ csr log preg wear opened, u = { s with mod := { s.mod with
    csr := csr, log := log, preg := preg, wear := wear, cc := { s.mod.cc with journalOpen := opened } } } ∧
  (Map.wf (regReset modRegs) s.mod.csr = true → Map.wf (regReset modRegs) csr = true ∧
    ∀ o, o < 0x6000 → Map.get (regReset modRegs) csr o = s.ez o)

theorem StoreWork.refl (s : State) : StoreWork s s :=
  ⟨s.mod.csr, s.mod.log, s.mod.preg, s.mod.wear, s.mod.cc.journalOpen, rfl, fun h => ⟨h, fun _ _ => rfl⟩⟩

theorem StoreWork.trans {s u v : State} (h : StoreWork s u) (k : StoreWork u v) : StoreWork s v := by
  obtain ⟨_, _, _, _, _, rfl, hcsr⟩ := h
  obtain ⟨csr, log, preg, wear, opened, rfl, kcsr⟩ := k
  refine ⟨csr, log, preg, wear, opened, rfl, fun hwf => ?_⟩
  obtain ⟨hu, hsame⟩ := hcsr hwf
  obtain ⟨hv, ksame⟩ := kcsr hu
  exact ⟨hv, fun o ho => (ksame o ho).trans (hsame o ho)⟩

theorem State.raise_storeWork {s : State} {r : Rec} (hr : r.cls ≠ 1) : StoreWork s (s.raise r) := by
  obtain ⟨csr, log, h, hcsr⟩ := State.raise_same (s := s) hr
  exact ⟨csr, log, s.mod.preg, s.mod.wear, s.mod.cc.journalOpen, h, hcsr⟩

theorem State.setJournal_storeWork (s : State) (opened : Bool) : StoreWork s (s.setJournal opened) :=
  ⟨s.mod.csr, s.mod.log, s.mod.preg, s.mod.wear, opened, rfl, fun h => ⟨h, fun _ _ => rfl⟩⟩

theorem State.pregPut_storeWork (s : State) (o : Nat) (v back : Word) : StoreWork s (s.pregPut o v back) := by
  have stored (preg : Map Word) (wear : Map Nat) : StoreWork s (s.updMod fun m => { m with preg := preg, wear := wear }) :=
    ⟨s.mod.csr, s.mod.log, preg, wear, s.mod.cc.journalOpen, rfl, fun h => ⟨h, fun _ _ => rfl⟩⟩
  simp only [State.pregPut]
  split
  · exact (stored _ _).trans (State.raise_storeWork (show (4 : Nat) ≠ 1 by decide))
  · exact stored _ _

theorem State.journalWrite_storeWork (f : Nat) (l : List MapWord) (s : State) : StoreWork s (s.journalWrite f l) :=
  List.foldlRecOn (motive := StoreWork s) l _ (StoreWork.refl s) fun u hu _ _ => hu.trans (u.pregPut_storeWork _ _ _)

theorem State.closeJournal_storeWork (s : State) : StoreWork s s.closeJournal := by
  unfold State.closeJournal
  split
  · split
    · exact (State.journalWrite_storeWork _ _ s).trans (State.setJournal_storeWork _ _)
    · exact StoreWork.refl s
  · exact StoreWork.refl s

/-- What a change of field f's map leaves: it is journalled and complete. -/
theorem State.writeMap_done (s : State) (f : Nat) (words : List MapWord) (bad byp : Nat) (retired : Bool) :
    ∃ csr log preg wear journal, s.writeMap f words bad byp retired = { s with mod := { s.mod with
      csr := csr, log := log, preg := preg, wear := wear,
      cc := { s.mod.cc with journal := journal, journalField := some f, journalOpen := false } } } := by
  rw [State.writeMap_whole]
  dsimp only
  obtain ⟨_, _, _, _, _, hclose, -⟩ := s.closeJournal_storeWork
  generalize s.closeJournal.changeWords f words bad byp retired = all
  rw [hclose, State.beginChange]
  obtain ⟨csr, log, preg, wear, _, hwrite, -⟩ := State.journalWrite_storeWork f all (State.updMod _ _)
  rw [hwrite]
  exact ⟨csr, log, preg, wear, all, rfl⟩

/-! What the store holds after a write depends on the store alone. -/

/-- The stores of two states are the same. -/
def SameStore (s u : State) : Prop := u.mod.preg = s.mod.preg ∧ u.mod.wear = s.mod.wear

theorem State.pregPut_store (s : State) (o : Nat) (v back : Word) :
    (s.pregPut o v back).mod.preg = Map.set factoryWord s.mod.preg o ((if 1000000 < s.wear o + 1 then back else v) &&& pregMask o) ∧
      (s.pregPut o v back).mod.wear = Map.set (fun _ => 0) s.mod.wear o (Map.get (fun _ => 0) s.mod.wear o + 1) := by
  simp only [State.pregPut]
  split
  · obtain ⟨_, _, h, -⟩ := State.raise_same (s := s.updMod fun m => { m with
        preg := Map.set factoryWord m.preg o ((if 1000000 < s.wear o + 1 then back else v) &&& pregMask o)
        wear := Map.set (fun _ => 0) m.wear o (Map.get (fun _ => 0) m.wear o + 1) })
      (r := { source := 0x29, cls := 4, loc := feedLoc 2, addr := 0x7801000000 + o, detail := [BitVec.ofNat 32 (s.wear o + 1)] }) (show (4 : Nat) ≠ 1 by decide)
    rw [h]
    exact ⟨rfl, rfl⟩
  · exact ⟨rfl, rfl⟩

theorem SameStore.pregPut {s u : State} (h : SameStore s u) (o : Nat) (v back : Word) : SameStore (s.pregPut o v back) (u.pregPut o v back) := by
  obtain ⟨hpreg, hwear⟩ := h
  have hcount : u.wear o = s.wear o := by rw [State.wear, hwear, State.wear]
  rw [SameStore, (s.pregPut_store o v back).1, (s.pregPut_store o v back).2, (u.pregPut_store o v back).1, (u.pregPut_store o v back).2,
    hpreg, hwear, hcount]
  exact ⟨rfl, rfl⟩

theorem SameStore.journalWrite (f : Nat) (l : List MapWord) : ∀ {s u : State}, SameStore s u →
    SameStore (s.journalWrite f l) (u.journalWrite f l) := by
  induction l with
  | nil => exact fun h => h
  | cons w l ih => exact fun h => ih (h.pregPut _ _ _)

/-- A journal closed leaves the same store in states that hold the same store and the same open journal. -/
theorem SameStore.closeJournal {s u : State} {f : Nat} (h : SameStore s u) (hfield : s.mod.cc.journalField = some f)
    (hopen : s.mod.cc.journalOpen = true) (hcc : u.mod.cc = s.mod.cc) : SameStore s.closeJournal u.closeJournal := by
  simp only [State.closeJournal, hcc, hfield, hopen, if_true]
  exact h.journalWrite f _

/-- The map of a field is what the store holds. -/
theorem State.fused_congr {s u : State} (h : u.mod.preg = s.mod.preg) (f : Nat) : u.fused f = s.fused f := by
  simp only [State.fused, State.preg, h]
theorem State.mapSum_congr {s u : State} (h : u.mod.preg = s.mod.preg) (f : Nat) : u.mapSum f = s.mapSum f := by
  simp only [State.mapSum, State.preg, h]
theorem State.fieldWords_congr {s u : State} (h : u.mod.preg = s.mod.preg) (f : Nat) : u.fieldWords f = s.fieldWords f := by
  simp only [State.fieldWords, h]
theorem State.mapEntry_congr {s u : State} (h : u.mod.preg = s.mod.preg) (f : Nat) : u.mapEntry f = s.mapEntry f := by
  funext i
  simp only [State.mapEntry, State.preg, h]
theorem State.mapCrc_congr {s u : State} (h : u.mod.preg = s.mod.preg) (f : Nat) : u.mapCrc f = s.mapCrc f := by
  simp only [State.mapCrc, State.preg, h]
theorem State.mapBad_congr {s u : State} (h : u.mod.preg = s.mod.preg) (f : Nat) : u.mapBad f = s.mapBad f := by
  unfold State.mapBad
  rw [State.mapEntry_congr h, State.mapSum_congr h, State.mapCrc_congr h]

end Sys2Proof.Machine
end

section
/-!
SUPPORT. What a key holds in a map that is filtered, or whose every entry is changed.
-/

namespace Sys2Proof.Map

variable {α : Type} [DecidableEq α] {d : Nat → α} {m : Map α}

theorem get_filter (p : Nat × α → Bool) (k : Nat) (h : wf d m = true) :
    get d (m.filter p) k = if p (k, get d m k) then get d m k else d k := by
  rcases get_mem_or d (m.filter p) k with hmem | hdef
  · obtain ⟨hm, hp⟩ := List.mem_filter.mp hmem
    have hk : get d m k = get d (m.filter p) k := get_of_mem h hm
    rw [hk, if_pos hp]
  · rw [hdef]
    split
    next hp =>
      rcases get_mem_or d m k with hm | hm
      · rw [← hdef]
        exact get_of_mem (wf_filter h) (List.mem_filter.mpr ⟨hm, hp⟩)
      · exact hm.symm
    next => rfl

/-- The map with each entry changed by `g`. -/
def changed (d : Nat → α) (g : Nat → α → α) (m : Map α) : Map α :=
  (m.map fun e => (e.1, g e.1 e.2)).filter fun e => decide (e.2 ≠ d e.1)

theorem wf_changed (g : Nat → α → α) (h : wf d m = true) : wf d (changed d g m) = true := by
  induction m with
  | nil => rfl
  | cons e m ih =>
    simp only [wf, Bool.and_eq_true, above_iff] at h
    obtain ⟨⟨habove, -⟩, hwf⟩ := h
    have htail : wf d ((m.map fun e => (e.1, g e.1 e.2)).filter fun e => decide (e.2 ≠ d e.1)) = true := ih hwf
    simp only [changed, List.map_cons, List.filter_cons]
    split
    next hne =>
      simp only [wf, Bool.and_eq_true, above_iff]
      refine ⟨⟨fun x hx => ?_, hne⟩, htail⟩
      obtain ⟨y, hy, rfl⟩ := List.mem_map.mp (List.mem_filter.mp hx).1
      exact habove y hy
    next => exact htail

theorem get_changed {g : Nat → α → α} (hd : ∀ k, g k (d k) = d k) (k : Nat) (h : wf d m = true) :
    get d (changed d g m) k = g k (get d m k) := by
  rcases get_mem_or d (changed d g m) k with hmem | hdef
  · obtain ⟨⟨j, v⟩, hv, heq⟩ := List.mem_map.mp (List.mem_filter.mp hmem).1
    obtain ⟨rfl, hgv⟩ := Prod.mk.inj heq
    have hj : get d m j = v := get_of_mem h hv
    rw [hj]
    exact hgv.symm
  · by_cases hstays : g k (get d m k) = d k
    · rw [hdef, hstays]
    · have hlisted : (k, get d m k) ∈ m :=
        (get_mem_or d m k).resolve_right fun hk => hstays (by rw [hk, hd])
      exact get_of_mem (wf_changed g h) (List.mem_filter.mpr ⟨List.mem_map.mpr ⟨_, hlisted, rfl⟩, decide_eq_true hstays⟩)

end Sys2Proof.Map
end

section
/-!
The nodes of a field that start, and the four levels of its feed (R24, R355, R362).
-/

namespace Sys2Proof.Machine

/-- The Cirrus node of field f starts and locks where the chain reaches it (R24); nothing but nodes and locks changes. -/
theorem State.startNodes_fields {s : State} (f : Nat) (hwf : Map.wf (fun _ => ({} : Field)) s.fields = true) :
    ∃ fields, s.startNodes f = { s with fields := fields } ∧ Map.wf (fun _ => ({} : Field)) fields = true ∧
      (∀ k, ∃ nodes lock, (s.startNodes f).field k = { s.field k with nodes := nodes, lock := lock }) ∧
      (f < 70 → s.fused f = false → s.mod.pow.absent.contains (feedOf f) = false → ((s.startNodes f).field f).nodes = true ∧
        (s.counting = true → ((s.startNodes f).field f).lock = (s.setField f { s.field f with nodes := true }).joined.contains f)) := by
  unfold State.startNodes
  split
  next hno =>
    refine ⟨s.fields, rfl, hwf, fun k => ⟨_, _, rfl⟩, fun _ hfused habsent => ?_⟩
    rw [hfused, habsent] at hno
    exact absurd hno (by decide)
  next =>
    dsimp only
    generalize (s.setField f { s.field f with nodes := true }).joined = j
    have hset (k : Nat) : (s.setField f { s.field f with nodes := true }).field k = if k = f then { s.field f with nodes := true } else s.field k := by
      split
      next hk => rw [hk, State.setField_field_self hwf]
      next hk => rw [State.setField_field_ne hwf hk]
    have hnodes (k : Nat) : ∃ nodes lock, (s.setField f { s.field f with nodes := true }).field k = { s.field k with nodes := nodes, lock := lock } := by
      rw [hset]
      split
      next hk => exact hk ▸ ⟨_, _, rfl⟩
      next => exact ⟨_, _, rfl⟩
    split
    next =>
      obtain ⟨fields, hframe, hwf', hfield⟩ := State.foldl_setField (l := List.range nFields)
        (step := fun s g => if (s.field g).nodes then s.setField g { s.field g with lock := j.contains g } else s)
        (G := fun g x => if x.nodes then { x with lock := j.contains g } else x)
        (I := fun u => Map.wf (fun _ => ({} : Field)) u.fields = true) List.nodup_range
        (fun u hu g _ => by
          dsimp only
          split
          · rfl
          · exact (congrArg (fun fields => { u with fields := fields }) (Map.set_get g hu)).symm)
        (fun u hu _ g _ => Map.wf_set hu) (s.setField f { s.field f with nodes := true }) (Map.wf_set hwf) (Map.wf_set hwf)
      refine ⟨fields, hframe, hwf', fun k => ?_, fun hf _ _ => ?_⟩
      · obtain ⟨nodes, lock, hk⟩ := hnodes k
        rw [hfield k, hk]
        split
        · split
          · exact ⟨_, _, rfl⟩
          · exact ⟨_, _, rfl⟩
        · exact ⟨_, _, rfl⟩
      · rw [hfield f, hset, if_pos rfl, if_pos (show f ∈ List.range nFields from List.mem_range.mpr hf), if_pos rfl]
        exact ⟨rfl, fun _ => rfl⟩
    next hcount =>
      refine ⟨_, rfl, Map.wf_set hwf, hnodes, fun _ _ _ => ?_⟩
      rw [hset, if_pos rfl]
      exact ⟨rfl, fun h => absurd h hcount⟩

/-- What the levels of field f change: the pace its tiles are fed at, and the register that shows the levels. -/
structure LevelWork (f : Nat) (s u : State) : Prop where
  frame : ∃ tiles fields csr, u = { s with tiles := tiles, fields := fields, mod := { s.mod with csr := csr } }
  fields : Map.wf (fun _ => ({} : Field)) s.fields = true → Map.wf (fun _ => ({} : Field)) u.fields = true ∧
    (∀ k, k ≠ f → u.field k = s.field k) ∧ ∃ fresh, u.field f = { s.field f with fresh := fresh }
  tiles : Map.wf (fun _ => ({} : Tile)) s.tiles = true → Map.wf (fun _ => ({} : Tile)) u.tiles = true ∧
    (∀ t, fieldOf t ≠ f → u.tile t = s.tile t) ∧ ∀ t, u.tile t = s.tile t ∨ u.tile t = { s.tile t with credit := none }
  csr : Map.wf (regReset modRegs) s.mod.csr = true → Map.wf (regReset modRegs) u.mod.csr = true ∧
    ∀ o, o ≠ pwr f 0 → u.ez o = s.ez o

theorem State.ezPut_levelWork (f : Nat) (s : State) (v : Word) : LevelWork f s (s.ezPut (pwr f 0) v) where
  frame := ⟨s.tiles, s.fields, _, rfl⟩
  fields := fun h => ⟨h, fun _ _ => rfl, _, rfl⟩
  tiles := fun h => ⟨h, fun _ _ => rfl, fun _ => .inl rfl⟩
  csr := fun h => ⟨Map.wf_set h, fun _ ho => Map.get_set_ne h ho⟩

theorem LevelWork.trans {f : Nat} {s u v : State} (h : LevelWork f s u) (k : LevelWork f u v) : LevelWork f s v where
  frame := by
    obtain ⟨_, _, _, rfl⟩ := h.frame
    obtain ⟨tiles, fields, csr, rfl⟩ := k.frame
    exact ⟨tiles, fields, csr, rfl⟩
  fields := fun hwf => by
    obtain ⟨hu, hother, fresh, hf⟩ := h.fields hwf
    obtain ⟨hv, kother, fresh', kf⟩ := k.fields hu
    exact ⟨hv, fun j hj => (kother j hj).trans (hother j hj), fresh', by rw [kf, hf]⟩
  tiles := fun hwf => by
    obtain ⟨hu, hother, hcredit⟩ := h.tiles hwf
    obtain ⟨hv, kother, kcredit⟩ := k.tiles hu
    refine ⟨hv, fun t ht => (kother t ht).trans (hother t ht), fun t => ?_⟩
    rcases kcredit t with kt | kt
    · exact kt ▸ hcredit t
    · rcases hcredit t with ht | ht
      · exact .inr (by rw [kt, ht])
      · exact .inr (by rw [kt, ht])
  csr := fun hwf => by
    obtain ⟨hu, hsame⟩ := h.csr hwf
    obtain ⟨hv, ksame⟩ := k.csr hu
    exact ⟨hv, fun o ho => (ksame o ho).trans (hsame o ho)⟩

theorem State.setFresh_levelWork (f : Nat) (s : State) (n : Nat) : LevelWork f s (s.setField f { s.field f with fresh := n }) where
  frame := ⟨s.tiles, _, s.mod.csr, rfl⟩
  fields := fun h => ⟨Map.wf_set h, fun _ hk => State.setField_field_ne h hk, n, State.setField_field_self h⟩
  tiles := fun h => ⟨h, fun _ _ => rfl, fun _ => .inl rfl⟩
  csr := fun h => ⟨h, fun _ _ => rfl⟩

/-- The credit of the tiles of field f is dropped. -/
theorem State.dropCredit_levelWork (f : Nat) (s : State) : LevelWork f s { s with tiles :=
    (s.tiles.map fun e => if fieldOf e.1 = f then (e.1, { e.2 with credit := none }) else e).filter fun e => e.2 ≠ {} } where
  frame := ⟨_, s.fields, s.mod.csr, rfl⟩
  fields := fun h => ⟨h, fun _ _ => rfl, _, rfl⟩
  tiles := fun h => by
    have hpair : (fun e : Nat × Tile => if fieldOf e.1 = f then (e.1, { e.2 with credit := none }) else e) =
        fun e => (e.1, if fieldOf e.1 = f then { e.2 with credit := none } else e.2) := by
      funext e
      split <;> rfl
    rw [hpair]
    have hget := fun t => Map.get_changed (d := fun _ => ({} : Tile)) (m := s.tiles)
      (g := fun t x => if fieldOf t = f then { x with credit := none } else x) (fun t => by dsimp only; split <;> rfl) t h
    refine ⟨Map.wf_changed (d := fun _ => ({} : Tile)) (fun t x => if fieldOf t = f then { x with credit := none } else x) h,
      fun t ht => (hget t).trans (if_neg ht), fun t => ?_⟩
    by_cases ht : fieldOf t = f
    · exact .inr ((hget t).trans (if_pos ht))
    · exact .inl ((hget t).trans (if_neg ht))
  csr := fun h => ⟨h, fun _ _ => rfl⟩

theorem State.paceSync_levelWork (s : State) (f : Nat) : LevelWork f s (s.paceSync f) := by
  have same : LevelWork f s s := {
    frame := ⟨s.tiles, s.fields, s.mod.csr, rfl⟩
    fields := fun h => ⟨h, fun _ _ => rfl, _, rfl⟩
    tiles := fun h => ⟨h, fun _ _ => rfl, fun _ => .inl rfl⟩
    csr := fun h => ⟨h, fun _ _ => rfl⟩ }
  unfold State.paceSync
  dsimp only
  split
  · split
    · exact same
    · exact (s.setFresh_levelWork f 0).trans (State.dropCredit_levelWork f _)
  · split
    · exact s.setFresh_levelWork f _
    · exact same

theorem State.levels_levelWork (s : State) (f : Nat) : LevelWork f s (s.levels f) :=
  ((s.paceSync_levelWork f).trans (State.ezPut_levelWork f _ _)).trans (State.ezPut_levelWork f _ _)

end Sys2Proof.Machine
end

section
/-!
A field is powered up (R355, R358, R464): its map is read, and taken or not; the job service restores a map that is not.
-/

namespace Sys2Proof.Machine

/-- A field at its supply, its map not yet read; from STATE 5 its nodes start (R362). -/
def State.supplied (s : State) (f : Nat) : State :=
  let u := s.setField f { s.field f with power := 1 }
  if (s.field f).power = 5 then u.startNodes f else u

/-- A power-up reads the map, and reads it again once the job service has completed or restored it. -/
theorem State.powerUp_eq (s : State) (f : Nat) : s.powerUp f =
    let u := ((s.ezField (pwr f 4) 7 4 0).supplied f).checkMap f
    if s.fused f || bit (s.mapSum f) 6 || (s.mapBad f).isNone || !u.mod.cc.up then u
    else if u.mod.cc.journalOpen && u.mod.cc.journalField = some f then (u.closeJournal.supplied f).checkMap f
    else u.restoreMap f := rfl

theorem State.supplied_dark {s : State} {f : Nat} (hoff : (s.field f).power = 0) :
    s.supplied f = s.setField f { s.field f with power := 1 } :=
  if_neg (show ¬ (s.field f).power = 5 by omega)

theorem State.wf_setField {s : State} (f : Nat) (x : Field) (hwf : Map.wf (fun _ => ({} : Field)) s.fields = true) :
    Map.wf (fun _ => ({} : Field)) (s.setField f x).fields = true := Map.wf_set hwf

/-- A second write of a field replaces the first. -/
theorem State.setField_setField {s : State} {f : Nat} (x y : Field) (hwf : Map.wf (fun _ => ({} : Field)) s.fields = true) :
    (s.setField f x).setField f y = s.setField f y :=
  congrArg (fun fields => { s with fields := fields }) (Map.set_set x y hwf)

theorem State.supplied_fields {s : State} (f : Nat) (hwf : Map.wf (fun _ => ({} : Field)) s.fields = true) :
    ∃ fields, s.supplied f = { s with fields := fields } ∧ Map.wf (fun _ => ({} : Field)) fields = true ∧
      ((s.supplied f).field f).power = 1 ∧
      (f < 70 → (s.field f).power = 5 → s.fused f = false → s.mod.pow.absent.contains (feedOf f) = false →
        ((s.supplied f).field f).nodes = true) := by
  unfold State.supplied
  dsimp only
  split
  next =>
    obtain ⟨fields, hframe, hwf', hsame, hon⟩ :=
      State.startNodes_fields f (State.wf_setField f { s.field f with power := 1 } hwf)
    obtain ⟨nodes, lock, hf⟩ := hsame f
    refine ⟨fields, hframe, hwf', ?_, fun hlt _ hfused habsent => (hon hlt ((State.fused_congr rfl f).trans hfused) habsent).1⟩
    rw [hf, State.setField_field_self hwf]
  next hoff => exact ⟨_, rfl, Map.wf_set hwf, by rw [State.setField_field_self hwf], fun _ h => absurd h hoff⟩

section CheckMap
variable {s : State} {f : Nat}

/-- A map that holds is taken as the field's. -/
theorem State.checkMap_good (hfused : s.fused f = false) (hbit : bit (s.mapSum f) 6 = false) (hmap : s.mapBad f = none) :
    s.checkMap f = s.setField f { s.field f with accepted := s.fieldWords f, mapErr := false } := by
  unfold State.checkMap
  rw [hfused, hbit, hmap]
  rfl

/-- A map that does not leaves the field dark, with the failing word in the log. -/
theorem State.checkMap_bad {o : Nat} (hfused : s.fused f = false) (hbit : bit (s.mapSum f) 6 = false) (hmap : s.mapBad f = some o) :
    s.checkMap f = (s.leaveDark f true).raise { source := 0x22, cls := 4, loc := fieldLoc f, addr := 0x7801000000 + o } := by
  unfold State.checkMap
  rw [hfused, hbit, hmap]
  rfl

end CheckMap

/-- A field left dark. -/
theorem State.leaveDark_fields {s : State} (f : Nat) (err : Bool) (hwf : Map.wf (fun _ => ({} : Field)) s.fields = true) :
    ∃ fields, s.leaveDark f err = { s with fields := fields } ∧ Map.wf (fun _ => ({} : Field)) fields = true ∧
      ((s.leaveDark f err).field f).power = 0 ∧ ((s.leaveDark f err).field f).mapErr = err ∧ ((s.leaveDark f err).field f).reserve = false := by
  obtain ⟨fields, hframe, hwf', hsame, -⟩ := State.startNodes_fields f
    (State.wf_setField f { s.field f with power := 0, mapErr := err, reserve := false, kept := false } hwf)
  obtain ⟨nodes, lock, hf⟩ := hsame f
  rw [State.setField_field_self hwf] at hf
  refine ⟨fields, hframe, hwf', ?_⟩
  rw [State.leaveDark, hf]
  exact ⟨rfl, rfl, rfl⟩

theorem pwr_offcause (f : Nat) : pwr f 4 = 0x1004 + 0x20 * f := by unfold pwr; omega

section PowerUp
variable {s : State} {f : Nat} (hwf : Map.wf (fun _ => ({} : Field)) s.fields = true)
  (hfused : s.fused f = false) (hbit : bit (s.mapSum f) 6 = false)

/-- The command of a field that is admitted, outside the stage that brings fields up in groups. -/
theorem State.execFieldPowerUp_of (hf : f < 70) (hok : s.fieldCmdBad f 1 = none) (hstage : s.mod.stage ≠ 5) :
    exec (.fieldPowerUp true f) s = .next (s.powerUp f).reportGuar := by
  refine s.fieldDo_of hf ?_
  have hgroup : s.groupOpen f = true := by unfold State.groupOpen; simp [hstage]
  have hjoin : s.joinGroup f = s := by rw [State.joinGroup, if_pos hstage]
  unfold State.fieldCmdWrite
  rw [State.privileged_true, hok]
  dsimp only
  rw [hgroup, State.fieldCmdNext, hjoin]
  rfl

include hwf hfused hbit

/-- A field whose map holds takes it. -/
theorem State.powerUp_good (hmap : s.mapBad f = none) :
    s.powerUp f = let u := (s.ezField (pwr f 4) 7 4 0).supplied f
      u.setField f { u.field f with accepted := s.fieldWords f, mapErr := false } := by
  obtain ⟨fields, hframe, -⟩ := State.supplied_fields (s := s.ezField (pwr f 4) 7 4 0) f hwf
  have hpreg : ((s.ezField (pwr f 4) 7 4 0).supplied f).mod.preg = s.mod.preg := by rw [hframe]; rfl
  rw [s.powerUp_eq f, hmap]
  dsimp only
  rw [if_pos (by simp), State.checkMap_good ((State.fused_congr hpreg f).trans hfused)
    ((congrArg (bit · 6) (State.mapSum_congr hpreg f)).trans hbit) ((State.mapBad_congr hpreg f).trans hmap),
    State.fieldWords_congr hpreg f]

theorem State.powerUp_good_dark (hmap : s.mapBad f = none) (hoff : (s.field f).power = 0) :
    s.powerUp f = (s.setField f { s.field f with power := 1, accepted := s.fieldWords f, mapErr := false }).ezField (0x1004 + 0x20 * f) 7 4 0 := by
  rw [State.powerUp_good hwf hfused hbit hmap, State.supplied_dark (s := s.ezField (pwr f 4) 7 4 0) hoff, ← pwr_offcause]
  dsimp only
  rw [State.setField_field_self (s := s.ezField (pwr f 4) 7 4 0) hwf, State.setField_setField (s := s.ezField (pwr f 4) 7 4 0) _ _ hwf]
  rfl

theorem State.powerUp_good_squalled (hf : f < 70) (habsent : s.mod.pow.absent.contains (feedOf f) = false) (hmap : s.mapBad f = none)
    (h5 : (s.field f).power = 5) : ((s.powerUp f).field f).power = 1 ∧ ((s.powerUp f).field f).nodes = true ∧
      ((s.powerUp f).field f).accepted = s.fieldWords f ∧ ((s.powerUp f).field f).mapErr = false ∧ (s.powerUp f).tiles = s.tiles := by
  obtain ⟨fields, hframe, hwf', hpow, hon⟩ := State.supplied_fields (s := s.ezField (pwr f 4) 7 4 0) f hwf
  have hnodes := hon hf h5 ((State.fused_congr rfl f).trans hfused) habsent
  rw [State.powerUp_good hwf hfused hbit hmap]
  dsimp only
  rw [State.setField_field_self (by rw [hframe]; exact hwf')]
  refine ⟨hpow, hnodes, rfl, rfl, ?_⟩
  rw [hframe]
  rfl

/-- A map that fails is read with the field left dark. -/
theorem State.powerUp_bad_read {o : Nat} (hmap : s.mapBad f = some o) :
    ((s.ezField (pwr f 4) 7 4 0).supplied f).checkMap f = (((s.ezField (pwr f 4) 7 4 0).supplied f).leaveDark f true).raise
      { source := 0x22, cls := 4, loc := fieldLoc f, addr := 0x7801000000 + o } := by
  obtain ⟨fields, hframe, -⟩ := State.supplied_fields (s := s.ezField (pwr f 4) 7 4 0) f hwf
  have hpreg : ((s.ezField (pwr f 4) 7 4 0).supplied f).mod.preg = s.mod.preg := by rw [hframe]; rfl
  exact State.checkMap_bad ((State.fused_congr hpreg f).trans hfused)
    ((congrArg (bit · 6) (State.mapSum_congr hpreg f)).trans hbit) ((State.mapBad_congr hpreg f).trans hmap)

/-- What the read of a map that fails leaves. -/
theorem State.powerUp_bad_fields {o : Nat} (hmap : s.mapBad f = some o) :
    let u := ((s.ezField (pwr f 4) 7 4 0).supplied f).checkMap f
    (∃ fields csr log, u = { s with fields := fields, mod := { s.mod with csr := csr, log := log } } ∧
      Map.wf (fun _ => ({} : Field)) fields = true) ∧
      (u.field f).power = 0 ∧ (u.field f).mapErr = true ∧ (u.field f).reserve = false := by
  dsimp only
  rw [State.powerUp_bad_read hwf hfused hbit hmap]
  obtain ⟨_, hsup, hwf', -⟩ := State.supplied_fields (s := s.ezField (pwr f 4) 7 4 0) f hwf
  obtain ⟨fields, hdark, hwf'', hpow, herr, hres⟩ := State.leaveDark_fields (s := (s.ezField (pwr f 4) 7 4 0).supplied f) f true (by rw [hsup]; exact hwf')
  obtain ⟨csr, log, hraise, -⟩ := State.raise_same (s := ((s.ezField (pwr f 4) 7 4 0).supplied f).leaveDark f true)
    (r := { source := 0x22, cls := 4, loc := fieldLoc f, addr := 0x7801000000 + o }) (show (4 : Nat) ≠ 1 by decide)
  rw [hraise]
  refine ⟨⟨fields, csr, log, ?_, hwf''⟩, hpow, herr, hres⟩
  rw [hdark, hsup]
  rfl

/-- Without the job service the field stays dark. -/
theorem State.powerUp_bad_down {o : Nat} (hmap : s.mapBad f = some o) (hdown : s.mod.cc.up = false) (hoff : (s.field f).power = 0) :
    s.powerUp f = (((s.setField f { s.field f with power := 0, mapErr := true, reserve := false, kept := false }).ezField
      (0x1004 + 0x20 * f) 7 4 0).startNodes f).raise { source := 0x22, cls := 4, loc := fieldLoc f, addr := 0x7801000000 + o } := by
  obtain ⟨⟨fields, csr, log, hu, -⟩, -⟩ := State.powerUp_bad_fields hwf hfused hbit hmap
  have hup : (((s.ezField (pwr f 4) 7 4 0).supplied f).checkMap f).mod.cc.up = false := by rw [hu]; exact hdown
  rw [s.powerUp_eq f]
  dsimp only
  rw [hup, if_pos (by simp), State.powerUp_bad_read hwf hfused hbit hmap, State.supplied_dark (s := s.ezField (pwr f 4) 7 4 0) hoff,
    ← pwr_offcause, State.leaveDark, State.setField_field_self (s := s.ezField (pwr f 4) 7 4 0) hwf,
    State.setField_setField (s := s.ezField (pwr f 4) 7 4 0) _ _ hwf]
  rfl

/-- With no change cut short the job service restores the map of the factory. -/
theorem State.powerUp_bad_restored {o : Nat} (hmap : s.mapBad f = some o) (hup : s.mod.cc.up = true) (hopen : s.mod.cc.journalOpen = false) :
    ((s.powerUp f).field f).power = 0 ∧ ((s.powerUp f).field f).mapErr = true ∧ ((s.powerUp f).field f).reserve = false ∧
      ((s.goodCopy 6).isSome = true → (s.powerUp f).mod.cc.journalField = some f ∧ (s.powerUp f).mod.cc.journalOpen = false) := by
  obtain ⟨⟨fields, csr, log, hu, -⟩, hfield⟩ := State.powerUp_bad_fields hwf hfused hbit hmap
  have heq : s.powerUp f = (((s.ezField (pwr f 4) 7 4 0).supplied f).checkMap f).restoreMap f := by
    rw [s.powerUp_eq f, hmap]
    dsimp only
    rw [hu]
    simp [hfused, hbit, hup, hopen]
  rw [heq]
  generalize ((s.ezField (pwr f 4) 7 4 0).supplied f).checkMap f = u at hu hfield
  have hcopy : u.goodCopy 6 = s.goodCopy 6 := by rw [hu]; rfl
  rw [State.restoreMap, hcopy]
  cases hgood : s.goodCopy 6 with
  | none =>
    obtain ⟨csr, log, hraise, -⟩ := State.raise_same (s := u)
      (r := { source := 0x2A, cls := 4, loc := feedLoc 2, code := 0x16 }) (show (4 : Nat) ≠ 1 by decide)
    have hrecord : u.rootRecord 0x16 = _ := hraise
    dsimp only
    rw [hrecord]
    exact ⟨hfield.1, hfield.2.1, hfield.2.2, fun h => absurd h (by decide)⟩
  | some c =>
    dsimp only
    obtain ⟨_, _, _, _, _, hwrite⟩ := u.writeMap_done f _ _ _ false
    rw [hwrite]
    exact ⟨hfield.1, hfield.2.1, hfield.2.2, fun _ => ⟨rfl, rfl⟩⟩

/-- A change that was cut short is completed, and the field powered. -/
theorem State.powerUp_bad_completed {o : Nat} (hmap : s.mapBad f = some o) (hup : s.mod.cc.up = true) (hopen : s.mod.cc.journalOpen = true)
    (hjournal : s.mod.cc.journalField = some f) (vfused : s.closeJournal.fused f = false) (vbit : bit (s.closeJournal.mapSum f) 6 = false)
    (vmap : s.closeJournal.mapBad f = none) :
    ((s.powerUp f).field f).power = 1 ∧ ((s.powerUp f).field f).accepted = s.closeJournal.fieldWords f ∧
      (s.powerUp f).mod.cc.journalOpen = false ∧ (s.powerUp f).tiles = s.tiles := by
  obtain ⟨⟨fields, csr, log, hu, hufields⟩, -⟩ := State.powerUp_bad_fields hwf hfused hbit hmap
  have heq : s.powerUp f = (((((s.ezField (pwr f 4) 7 4 0).supplied f).checkMap f).closeJournal).supplied f).checkMap f := by
    rw [s.powerUp_eq f, hmap]
    dsimp only
    rw [hu]
    simp [hfused, hbit, hup, hopen, hjournal]
  rw [heq]
  generalize ((s.ezField (pwr f 4) 7 4 0).supplied f).checkMap f = u at hu
  have hstore : SameStore s.closeJournal u.closeJournal :=
    SameStore.closeJournal ⟨by rw [hu], by rw [hu]⟩ hjournal hopen (by rw [hu])
  have hclosed : u.closeJournal.mod.cc.journalOpen = false := by
    rw [State.closeJournal, show u.mod.cc = s.mod.cc by rw [hu], hjournal, hopen]
    rfl
  obtain ⟨_, _, _, _, _, hclose, -⟩ := u.closeJournal_storeWork
  have hcwf : Map.wf (fun _ => ({} : Field)) u.closeJournal.fields = true := by rw [hclose, hu]; exact hufields
  have htiles : u.closeJournal.tiles = s.tiles := by rw [hclose, hu]
  generalize u.closeJournal = w at hstore hclosed hcwf htiles
  obtain ⟨fields', hsup, hwf', hpow, -⟩ := State.supplied_fields (s := w) f hcwf
  have hpreg : (w.supplied f).mod.preg = s.closeJournal.mod.preg := by rw [hsup]; exact hstore.1
  rw [State.checkMap_good ((State.fused_congr hpreg f).trans vfused)
    ((congrArg (bit · 6) (State.mapSum_congr hpreg f)).trans vbit) ((State.mapBad_congr hpreg f).trans vmap),
    State.setField_field_self (by rw [hsup]; exact hwf')]
  refine ⟨hpow, State.fieldWords_congr hpreg f, ?_, ?_⟩
  · rw [hsup]; exact hclosed
  · rw [hsup]; exact htiles

end PowerUp

end Sys2Proof.Machine
end

section
/-!
A field goes dark (R355, R359, R361, R366): its nodes stop, what had their lock loses it, and what it held is gone.
-/

namespace Sys2Proof.Machine

/-- What the nodes that stop may change: nodes and locks that end, and what the aborts change that this asks for (R24). -/
structure LossWork (s u : State) : Prop where
  fields : Map.wf (fun _ => ({} : Field)) s.fields = true → Map.wf (fun _ => ({} : Field)) u.fields = true ∧
    ∀ k, ∃ nodes lock, u.field k = { s.field k with nodes := nodes, lock := lock } ∧
      ((s.field k).nodes = false → nodes = false) ∧ ((s.field k).lock = false → lock = false)
  tiles : Map.wf (fun _ => ({} : Field)) s.fields = true → Map.wf (fun _ => ({} : Tile)) s.tiles = true →
    Map.wf (fun _ => ({} : Tile)) u.tiles = true ∧ ∀ t, s.live (fieldOf t) = false → u.tile t = s.tile t
  parts : Map.wf (fun _ => ({} : Part)) s.parts = true → Map.wf (fun _ => ({} : Part)) u.parts = true ∧
    ∀ p, (s.part p).state = 4 → (u.part p).state = 4 ∧ (u.part p).acause = (s.part p).acause
  csr : Map.wf (regReset modRegs) s.mod.csr = true → Map.wf (regReset modRegs) u.mod.csr = true ∧ ∀ o, o < 0x6000 → u.ez o = s.ez o

theorem AbortWork.lossWork {p : Nat} {s u : State} (h : AbortWork p s u) : LossWork s u where
  fields := fun hwf => by
    refine ⟨h.fields_eq ▸ hwf, fun k => ⟨_, _, ?_, id, id⟩⟩
    rw [State.field, h.fields_eq]
    rfl
  tiles := fun _ => h.tiles
  parts := fun hwf => by
    obtain ⟨hu, hother, hself⟩ := h.parts hwf
    refine ⟨hu, fun k h4 => ?_⟩
    by_cases hk : k = p
    · exact hk ▸ hself (hk ▸ h4)
    · rw [hother k hk]
      exact ⟨h4, rfl⟩
  csr := h.csr

theorem LossWork.refl (s : State) : LossWork s s := (AbortWork.refl 0 s).lossWork

theorem LossWork.live_eq {s u : State} (h : LossWork s u) (hwf : Map.wf (fun _ => ({} : Field)) s.fields = true) (f : Nat) :
    u.live f = s.live f := by
  obtain ⟨_, _, hf, -⟩ := (h.fields hwf).2 f
  rw [State.live, hf, State.live]

theorem LossWork.trans {s u v : State} (h : LossWork s u) (k : LossWork u v) : LossWork s v where
  fields := fun hwf => by
    obtain ⟨hu, hfield⟩ := h.fields hwf
    obtain ⟨hv, kfield⟩ := k.fields hu
    refine ⟨hv, fun f => ?_⟩
    obtain ⟨_, _, hf, hnodes, hlock⟩ := hfield f
    obtain ⟨nodes, lock, kf, knodes, klock⟩ := kfield f
    rw [hf] at kf knodes klock
    exact ⟨nodes, lock, kf, fun hn => knodes (hnodes hn), fun hl => klock (hlock hl)⟩
  tiles := fun hwf htiles => by
    obtain ⟨hu, hsame⟩ := h.tiles hwf htiles
    obtain ⟨hv, ksame⟩ := k.tiles (h.fields hwf).1 hu
    exact ⟨hv, fun t ht => (ksame t ((h.live_eq hwf _).trans ht)).trans (hsame t ht)⟩
  parts := fun hwf => by
    obtain ⟨hu, hpart⟩ := h.parts hwf
    obtain ⟨hv, kpart⟩ := k.parts hu
    refine ⟨hv, fun p h4 => ?_⟩
    obtain ⟨hstate, hcause⟩ := hpart p h4
    obtain ⟨kstate, kcause⟩ := kpart p hstate
    exact ⟨kstate, kcause.trans hcause⟩
  csr := fun hwf => by
    obtain ⟨hu, hsame⟩ := h.csr hwf
    obtain ⟨hv, ksame⟩ := k.csr hu
    exact ⟨hv, fun o ho => (ksame o ho).trans (hsame o ho)⟩

theorem LossWork.foldl {α : Type} {step : State → α → State} (h : ∀ u a, LossWork u (step u a)) (l : List α) (s : State) :
    LossWork s (l.foldl step s) :=
  List.foldlRecOn (motive := LossWork s) l step (LossWork.refl s) fun u hu a _ => hu.trans (h u a)

/-- A field whose node or lock ends. -/
theorem State.setField_lossWork {s : State} {f : Nat} {nodes lock : Bool}
    (hnodes : (s.field f).nodes = false → nodes = false) (hlock : (s.field f).lock = false → lock = false) :
    LossWork s (s.setField f { s.field f with nodes := nodes, lock := lock }) where
  fields := fun h => ⟨Map.wf_set h, fun k => by
    by_cases hk : k = f
    · rw [hk, State.setField_field_self h]
      exact ⟨_, _, rfl, hnodes, hlock⟩
    · rw [State.setField_field_ne h hk]
      exact ⟨_, _, rfl, id, id⟩⟩
  tiles := fun _ h => ⟨h, fun _ _ => rfl⟩
  parts := fun h => ⟨h, fun _ h4 => ⟨h4, rfl⟩⟩
  csr := fun h => ⟨h, fun _ _ => rfl⟩

/-- The aborts of the partitions in XMASK. -/
def State.abortMasked (s : State) (m : Nat) (l : List Nat) : State :=
  l.foldl (fun s p => if m.testBit p then s.requestAbort p 3 else s) s

theorem State.abortMasked_lossWork (s : State) (m : Nat) (l : List Nat) : LossWork s (s.abortMasked m l) :=
  LossWork.foldl (fun u p => by
    split
    · exact (u.requestAbort_abortWork p 3).lossWork
    · exact LossWork.refl u) l s

/-- A partition in XMASK that is defined and not loading is aborted with ACAUSE 3 (R413). -/
theorem State.abortMasked_part {m p : Nat} (hp : p < 8) (hm : m.testBit p = true) {l : List Nat} (hl : p ∈ l) : ∀ {s : State},
    Map.wf (fun _ => ({} : Part)) s.parts = true → (s.part p).state = 3 →
      ((s.abortMasked m l).part p).state = 4 ∧ ((s.abortMasked m l).part p).acause = 3 := by
  induction l with
  | nil => cases hl
  | cons q l ih =>
    intro s hwf h3
    by_cases hq : q = p
    · have hfirst := State.requestAbort_part (s := s) (cause := 3) hwf hp (by omega) (by omega) (by omega)
      obtain ⟨-, hkept⟩ := ((s.requestAbort p 3).abortMasked_lossWork m l).parts (((s.requestAbort_abortWork p 3).parts hwf).1)
      obtain ⟨hstate, hcause⟩ := hkept p hfirst.1
      have hstep : s.abortMasked m (q :: l) = (s.requestAbort p 3).abortMasked m l := by
        rw [State.abortMasked, List.foldl_cons, hq, if_pos hm]
        rfl
      rw [hstep]
      exact ⟨hstate, hcause.trans hfirst.2⟩
    · have hrest : p ∈ l := (List.mem_cons.mp hl).resolve_left fun h => hq h.symm
      obtain ⟨hwf', hother, -⟩ := (s.requestAbort_abortWork q 3).parts hwf
      rw [State.abortMasked, List.foldl_cons]
      split
      · exact ih hrest hwf' (by rw [hother p fun h => hq h.symm]; exact h3)
      · exact ih hrest hwf h3

theorem State.xmaskAbort_lossWork (s : State) (f : Nat) : LossWork s (s.xmaskAbort f) := by
  have hmasked := s.abortMasked_lossWork (bits (s.ez (pwr f 4)) 15 8) (List.range nParts)
  simp only [State.xmaskAbort]
  split
  · exact hmasked.trans (State.post_abortWork 0 _ _ _).lossWork
  · exact hmasked

theorem State.xmaskAbort_part {s : State} {f p : Nat} (hwf : Map.wf (fun _ => ({} : Part)) s.parts = true) (hp : p < 8)
    (hm : (bits (s.ez (pwr f 4)) 15 8).testBit p = true) (h3 : (s.part p).state = 3) :
    ((s.xmaskAbort f).part p).state = 4 ∧ ((s.xmaskAbort f).part p).acause = 3 := by
  have hmasked := State.abortMasked_part hp hm (l := List.range nParts) (List.mem_range.mpr hp) hwf h3
  simp only [State.xmaskAbort]
  split
  · obtain ⟨mail, out, hpost⟩ := (s.abortMasked (bits (s.ez (pwr f 4)) 15 8) (List.range nParts)).post_frame (s.fieldOwner f)
      (.hostAdvisory (s.fieldOwner f) 4 [f])
    exact (congrArg (fun u : State => (u.part p).state = 4 ∧ (u.part p).acause = 3) hpost).mpr hmasked
  · exact hmasked

theorem State.loseLock_lossWork (s : State) (f : Nat) : LossWork s (s.loseLock f) := by
  have hset : LossWork s (s.setField f { s.field f with lock := false }) :=
    State.setField_lossWork (nodes := (s.field f).nodes) id fun _ => rfl
  simp only [State.loseLock]
  split
  · split
    · exact hset.trans (State.xmaskAbort_lossWork _ f)
    · exact hset
  · exact LossWork.refl s

/-- A field's lock that is lost is lost. -/
theorem State.loseLock_lock {s : State} {f : Nat} (hwf : Map.wf (fun _ => ({} : Field)) s.fields = true) :
    ((s.loseLock f).field f).lock = false := by
  have hset : ((s.setField f { s.field f with lock := false }).field f).lock = false := by rw [State.setField_field_self hwf]
  simp only [State.loseLock]
  split
  · split
    · obtain ⟨_, _, hf, -, hlock⟩ := ((State.xmaskAbort_lossWork (s.setField f { s.field f with lock := false }) f).fields (Map.wf_set hwf)).2 f
      rw [hf]
      exact hlock hset
    · exact hset
  · simpa using ‹¬(s.field f).lock = true›

/-- After a node stops, the fields it had served lose their locks. -/
theorem State.stopNodes_rest (s : State) (f : Nat) :
    LossWork ((s.setField f { s.field f with nodes := false }).loseLock f) (s.stopNodes f) :=
  LossWork.foldl (fun u g => by
    split
    · exact u.loseLock_lossWork g
    · exact LossWork.refl u) _ _

theorem State.stopNodes_lossWork (s : State) (f : Nat) : LossWork s (s.stopNodes f) :=
  ((State.setField_lossWork (lock := (s.field f).lock) (fun _ => rfl) id).trans (State.loseLock_lossWork _ f)).trans (s.stopNodes_rest f)

theorem State.stopNodes_field {s : State} {f : Nat} (hwf : Map.wf (fun _ => ({} : Field)) s.fields = true) :
    ((s.stopNodes f).field f).nodes = false ∧ ((s.stopNodes f).field f).lock = false := by
  have hset := State.wf_setField f { s.field f with nodes := false } hwf
  have hoff : ((s.setField f { s.field f with nodes := false }).field f).nodes = false := by rw [State.setField_field_self hwf]
  obtain ⟨hlost, hfields⟩ := (State.loseLock_lossWork (s.setField f { s.field f with nodes := false }) f).fields hset
  obtain ⟨_, _, hf, hnodes, -⟩ := hfields f
  obtain ⟨_, _, kf, knodes, klock⟩ := ((s.stopNodes_rest f).fields hlost).2 f
  rw [kf]
  exact ⟨knodes (by rw [hf]; exact hnodes hoff), klock (State.loseLock_lock hset)⟩

/-- A locked field in STATE 2 whose node stops aborts the owner that XMASK names. -/
theorem State.stopNodes_part {s : State} {f p : Nat} (hwf : Map.wf (fun _ => ({} : Field)) s.fields = true)
    (hparts : Map.wf (fun _ => ({} : Part)) s.parts = true) (hlock : (s.field f).lock = true) (hon : (s.field f).power = 2) (hp : p < 8)
    (hm : (bits (s.ez (pwr f 4)) 15 8).testBit p = true) (h3 : (s.part p).state = 3) :
    ((s.stopNodes f).part p).state = 4 ∧ ((s.stopNodes f).part p).acause = 3 := by
  have hlost : (s.setField f { s.field f with nodes := false }).loseLock f =
      ((s.setField f { s.field f with nodes := false }).setField f { s.field f with nodes := false, lock := false }).xmaskAbort f := by
    simp only [State.loseLock, State.setField_field_self hwf, hlock, hon, if_true]
  have hfirst : ((((s.setField f { s.field f with nodes := false }).setField f { s.field f with nodes := false, lock := false }).xmaskAbort f).part p).state = 4 ∧
      ((((s.setField f { s.field f with nodes := false }).setField f { s.field f with nodes := false, lock := false }).xmaskAbort f).part p).acause = 3 :=
    State.xmaskAbort_part hparts hp hm h3
  have hrest := s.stopNodes_rest f
  rw [hlost] at hrest
  have hwf' := ((State.xmaskAbort_lossWork ((s.setField f { s.field f with nodes := false }).setField f
    { s.field f with nodes := false, lock := false }) f).parts hparts).1
  obtain ⟨hstate, hcause⟩ := (hrest.parts hwf').2 p hfirst.1
  exact ⟨hstate, hcause.trans hfirst.2⟩

end Sys2Proof.Machine
end

section
/-!
What a field holds once it is dark, and once it is ready (R24, R355, R359, R361, R464).
-/

namespace Sys2Proof.Machine

theorem State.ez_ezPut_self {s : State} (o : Nat) (v : Word) (hwf : Map.wf (regReset modRegs) s.mod.csr = true) : (s.ezPut o v).ez o = v :=
  Map.get_set_self hwf

theorem State.ez_ezPut_ne {s : State} {o k : Nat} (v : Word) (hwf : Map.wf (regReset modRegs) s.mod.csr = true) (hk : k ≠ o) :
    (s.ezPut o v).ez k = s.ez k := Map.get_set_ne hwf hk

theorem State.ezPut_wf {s : State} (o : Nat) (v : Word) (hwf : Map.wf (regReset modRegs) s.mod.csr = true) :
    Map.wf (regReset modRegs) (s.ezPut o v).mod.csr = true := Map.wf_set hwf

/-- The cause and the levels of field f at the end of a drain or with its fuse open. -/
def State.offRegs (s : State) (f cause : Nat) : State :=
  (((s.ezField (pwr f 4) 7 4 cause).ezField (pwr f 0) 5 3 7).ezField (pwr f 0x10) 15 8 0).ezField (pwr f 8) 0 0 0

/-- What field f, its tiles and the links into it hold no more. -/
def State.emptied (s : State) (f power : Nat) : State :=
  let x := stopTest (s.field f)
  let kept : Map Tile := (s.tiles.filter fun t => decide (fieldOf t.1 ≠ f)).map fun t => (t.1, clearCross f t.1 t.2)
  let sent (n : Site) : Site := { n with out := n.out.filter fun y => decide (2 ^ 20 ≤ y.1) || decide (fieldOf y.1 ≠ f) }
  { s.setField f { x with power := power, routed := false, hot := false, cool := false, reserve := false, sensed := false, tested := false, kept := x.kept || x.reserve } with
    tiles := kept.filter fun t => decide (t.2 ≠ {}), sites := (s.sites.map fun n => (n.1, sent n.2)).filter fun n => decide (n.2 ≠ blankSite n.1) }

/-- Field f at the end of a drain or with its fuse open, before its nodes stop. -/
def State.darkened (s : State) (f power cause : Nat) : State := (s.emptied f power).offRegs f cause

theorem State.stageOff_eq (s : State) (f power cause : Nat) (nodesStop : Bool) : s.stageOff f power cause nodesStop =
    (if nodesStop then (s.darkened f power cause).stopNodes f else s.darkened f power cause).levels f := rfl

theorem stopTest_fuses (x : Field) : (stopTest x).fuses = x.fuses := by
  unfold stopTest
  split <;> rfl

theorem clearCross_default (f t : Nat) : clearCross f t {} = {} := rfl

theorem State.offRegs_rest (s : State) (f cause : Nat) : (s.offRegs f cause).tiles = s.tiles ∧ (s.offRegs f cause).fields = s.fields ∧
    (s.offRegs f cause).parts = s.parts := by
  have put (u : State) (o : Nat) (v : Word) : (u.ezPut o v).tiles = u.tiles ∧ (u.ezPut o v).fields = u.fields ∧ (u.ezPut o v).parts = u.parts :=
    ⟨rfl, rfl, rfl⟩
  unfold State.offRegs State.ezField
  simp only [put, and_self]

theorem State.darkened_parts (s : State) (f power cause : Nat) : (s.darkened f power cause).parts = s.parts :=
  ((s.emptied f power).offRegs_rest f cause).2.2

theorem State.darkened_field {s : State} (f power cause : Nat) (hwf : Map.wf (fun _ => ({} : Field)) s.fields = true) :
    Map.wf (fun _ => ({} : Field)) (s.darkened f power cause).fields = true ∧
      ((s.darkened f power cause).field f).power = power ∧ ((s.darkened f power cause).field f).routed = false ∧
      ((s.darkened f power cause).field f).reserve = false ∧ ((s.darkened f power cause).field f).fuses = (s.field f).fuses := by
  have hfields : (s.darkened f power cause).fields = (s.emptied f power).fields := ((s.emptied f power).offRegs_rest f cause).2.1
  have hfield : (s.emptied f power).field f = { stopTest (s.field f) with
      power := power, routed := false, hot := false, cool := false, reserve := false, sensed := false, tested := false
      kept := (stopTest (s.field f)).kept || (stopTest (s.field f)).reserve } := State.setField_field_self hwf
  rw [State.field, hfields]
  refine ⟨Map.wf_set hwf, ?_⟩
  rw [← State.field, hfield]
  exact ⟨rfl, rfl, rfl, stopTest_fuses _⟩

theorem State.darkened_tile {s : State} (f power cause : Nat) (hwf : Map.wf (fun _ => ({} : Tile)) s.tiles = true) :
    Map.wf (fun _ => ({} : Tile)) (s.darkened f power cause).tiles = true ∧ ∀ t, (s.darkened f power cause).tile t =
      if fieldOf t = f then {} else clearCross f t (s.tile t) := by
  have htiles : (s.darkened f power cause).tiles = (s.emptied f power).tiles := ((s.emptied f power).offRegs_rest f cause).1
  have hkept : Map.wf (fun _ => ({} : Tile)) (s.tiles.filter fun t => decide (fieldOf t.1 ≠ f)) = true := Map.wf_filter hwf
  rw [htiles]
  refine ⟨Map.wf_changed (clearCross f) hkept, fun t => ?_⟩
  rw [State.tile, htiles]
  refine (Map.get_changed (d := fun _ => ({} : Tile)) (g := clearCross f) (clearCross_default f) t hkept).trans ?_
  rw [Map.get_filter _ _ hwf]
  by_cases ht : fieldOf t = f
  · simp only [ht, ne_eq, not_true, decide_false, Bool.false_eq_true, if_false, if_true, clearCross_default]
  · simp only [ht, ne_eq, not_false_iff, decide_true, if_true, if_false]
    rfl

theorem State.offRegs_offcause {s : State} {f cause : Nat} (hwf : Map.wf (regReset modRegs) s.mod.csr = true) (hcause : cause < 16) :
    Map.wf (regReset modRegs) (s.offRegs f cause).mod.csr = true ∧ bits ((s.offRegs f cause).ez (pwr f 4)) 7 4 = cause := by
  have hne : pwr f 4 ≠ pwr f 0 ∧ pwr f 4 ≠ pwr f 0x10 ∧ pwr f 4 ≠ pwr f 8 := by unfold pwr; omega
  have put (v w0 w1 w2 : Word) :
      Map.wf (regReset modRegs) ((((s.ezPut (pwr f 4) v).ezPut (pwr f 0) w0).ezPut (pwr f 0x10) w1).ezPut (pwr f 8) w2).mod.csr = true ∧
        ((((s.ezPut (pwr f 4) v).ezPut (pwr f 0) w0).ezPut (pwr f 0x10) w1).ezPut (pwr f 8) w2).ez (pwr f 4) = v := by
    have h1 := State.ezPut_wf (pwr f 4) v hwf
    have h2 := State.ezPut_wf (pwr f 0) w0 h1
    have h3 := State.ezPut_wf (pwr f 0x10) w1 h2
    refine ⟨State.ezPut_wf _ _ h3, ?_⟩
    rw [State.ez_ezPut_ne _ h3 hne.2.2, State.ez_ezPut_ne _ h2 hne.2.1, State.ez_ezPut_ne _ h1 hne.1, State.ez_ezPut_self _ _ hwf]
  unfold State.offRegs State.ezField
  obtain ⟨hput, hez⟩ := put (setBits (s.ez (pwr f 4)) 7 4 cause) _ _ _
  refine ⟨hput, ?_⟩
  rw [hez, bits_setBits_self _ (by decide) hcause]

section Dark
variable {s : State} (hs : s.Canon) (f power cause : Nat) (hdark : power ≠ 2)
include hs

/-- A drain that leaves the nodes on (R359). -/
theorem State.stageOff_kept : let u := s.stageOff f power cause false
    (u.field f).power = power ∧ (u.field f).routed = false ∧ (u.field f).reserve = false ∧ (∀ t, fieldOf t = f → u.tile t = {}) ∧
      (∀ t, fieldOf t ≠ f → u.tile t = clearCross f t (s.tile t)) ∧ u.parts = s.parts := by
  obtain ⟨hfields, hpow, hrouted, hres, -⟩ := s.darkened_field f power cause hs.fields
  obtain ⟨htiles, htile⟩ := s.darkened_tile f power cause hs.tiles
  have hparts := s.darkened_parts f power cause
  simp only [State.stageOff_eq, Bool.false_eq_true, if_false]
  generalize s.darkened f power cause = d at *
  have hlev := d.levels_levelWork f
  obtain ⟨-, -, fresh, hf⟩ := hlev.fields hfields
  obtain ⟨-, hother, hcredit⟩ := hlev.tiles htiles
  obtain ⟨_, _, _, hframe⟩ := hlev.frame
  refine ⟨by rw [hf]; exact hpow, by rw [hf]; exact hrouted, by rw [hf]; exact hres, fun t ht => ?_, fun t ht => ?_, by rw [hframe]; exact hparts⟩
  · have hempty := (htile t).trans (if_pos ht)
    rcases hcredit t with h | h
    · exact h.trans hempty
    · rw [h, hempty]
  · rw [hother t ht, htile t, if_neg ht]

include hdark

/-- A field whose nodes stop as well (R361, R366). -/
theorem State.stageOff_stopped (hf : f < 70) (hcause : cause < 16) : let u := s.stageOff f power cause true
    Map.wf (fun _ => ({} : Field)) u.fields = true ∧ Map.wf (fun _ => ({} : Tile)) u.tiles = true ∧
      Map.wf (regReset modRegs) u.mod.csr = true ∧
      (u.field f).power = power ∧ (u.field f).nodes = false ∧ (u.field f).fuses = (s.field f).fuses ∧
      bits (u.ez (pwr f 4)) 7 4 = cause ∧ ∀ t, fieldOf t = f → u.tile t = {} := by
  obtain ⟨hfields, hpow, -, -, hfuses⟩ := s.darkened_field f power cause hs.fields
  obtain ⟨htiles, htile⟩ := s.darkened_tile f power cause hs.tiles
  obtain ⟨hcsr, hoff⟩ : Map.wf (regReset modRegs) (s.darkened f power cause).mod.csr = true ∧ bits ((s.darkened f power cause).ez (pwr f 4)) 7 4 = cause :=
    State.offRegs_offcause (s := s.emptied f power) hs.modCsr hcause
  rw [State.stageOff_eq]
  simp only [if_true]
  generalize s.darkened f power cause = d at *
  have hstop := d.stopNodes_lossWork f
  obtain ⟨sfields, hsame⟩ := hstop.fields hfields
  obtain ⟨_, _, sf, -, -⟩ := hsame f
  obtain ⟨stiles, skept⟩ := hstop.tiles hfields htiles
  obtain ⟨scsr, sez⟩ := hstop.csr hcsr
  have hnodes := (State.stopNodes_field (s := d) (f := f) hfields).1
  generalize d.stopNodes f = e at *
  have hlev := e.levels_levelWork f
  obtain ⟨lfields, -, fresh, lf⟩ := hlev.fields sfields
  obtain ⟨ltiles, -, hcredit⟩ := hlev.tiles stiles
  obtain ⟨lcsr, lez⟩ := hlev.csr scsr
  have hoffcause : pwr f 4 < 0x6000 ∧ pwr f 4 ≠ pwr f 0 := by unfold pwr; omega
  refine ⟨lfields, ltiles, lcsr, ?_, ?_, ?_, ?_, fun t ht => ?_⟩
  · rw [lf, sf]; exact hpow
  · rw [lf]; exact hnodes
  · rw [lf, sf]; exact hfuses
  · rw [lez _ hoffcause.2, sez _ hoffcause.1]; exact hoff
  · have hlive : d.live (fieldOf t) = false := by
      rw [ht, State.live, hpow, decide_eq_false hdark]
      rfl
    have hempty : e.tile t = {} := (skept t hlive).trans ((htile t).trans (if_pos ht))
    rcases hcredit t with h | h
    · exact h.trans hempty
    · rw [h, hempty]

end Dark

end Sys2Proof.Machine
end

section
/-!
A field that is powering up is ready, or goes dark (R24, R355, R464).
-/

namespace Sys2Proof.Machine

/-- A field in STATE 2 admits no power-up. -/
theorem State.fieldCmdBad_on {s : State} {f : Nat} (hon : (s.field f).power = 2) : (s.fieldCmdBad f 1).isNone = false := by
  have hoff : (decide ((2 : Nat) = 0) || decide ((2 : Nat) = 5)) = false := rfl
  simp only [State.fieldCmdBad, hon, hoff, Bool.false_and, Bool.false_eq_true, if_false, if_true]
  split <;> rfl

/-- A field that is kept in reserve once it is ready. -/
theorem State.keepReserve_levelWork {s : State} {f : Nat} (hwf : Map.wf (fun _ => ({} : Field)) s.fields = true) (hon : (s.field f).power = 2) :
    LevelWork f (s.setField f { s.field f with reserve := true }) (s.keepReserve f) := by
  have hlev := (State.ezPut_levelWork f (s.setField f { s.field f with reserve := true })
    (setBits (s.ez (pwr f 0)) 2 0 0)).trans (State.levels_levelWork _ f)
  obtain ⟨-, -, fresh, hf⟩ := hlev.fields (State.wf_setField f _ hwf)
  have hstays : ((((s.setField f { s.field f with reserve := true }).ezPut (pwr f 0) (setBits (s.ez (pwr f 0)) 2 0 0)).levels f).field f).power = 2 := by
    rw [hf, State.setField_field_self hwf]
    exact hon
  have hnone := State.fieldCmdBad_on hstays
  have heq : s.keepReserve f = ((s.setField f { s.field f with reserve := true }).ezPut (pwr f 0) (setBits (s.ez (pwr f 0)) 2 0 0)).levels f := by
    refine (if_neg ?_ : s.keepReserve f = _)
    rw [Bool.not_eq_true]
    exact hnone
  rw [heq]
  exact hlev

/-- A field whose column is bypassed, with the registers of the wafer bridge anew (R24, R464). -/
def Field.opened (x : Field) (f : Nat) (reserve : Bool) : Field :=
  { x with
    power := 2, mapped := true, bypass := bits (Map.get factoryWord x.accepted (0x80000 + 8 * f)) 5 0,
    applied := x.accepted, routed := false, hot := false, cool := false, squalled := false, kept := false,
    reserve := reserve
    csr := x.csr.filter fun e => decide (e.1 < 0x1000) && e.1 ≠ 0x10 }

/-- The wafer with the tiles of that field empty, before its levels are set. -/
def State.opened (s : State) (f : Nat) (reserve : Bool) : State :=
  State.setField { s with tiles := s.tiles.filter fun t => fieldOf t.1 ≠ f } f ((s.field f).opened f reserve)

/-- What a field that is ready holds. -/
def ReadyField (f : Nat) (accepted : Map Word) (y : Field) : Prop :=
  y.power = 2 ∧ y.lock = true ∧ y.bypass = bits (Map.get factoryWord accepted (0x80000 + 8 * f)) 5 0 ∧ y.routed = false

/-- What the wafer holds once field f is ready. -/
def ReadyState (f : Nat) (s u : State) : Prop :=
  Map.wf (fun _ => ({} : Field)) u.fields = true ∧ Map.wf (fun _ => ({} : Tile)) u.tiles = true ∧ ReadyField f (s.field f).accepted (u.field f) ∧
    (∀ t, fieldOf t = f → u.tile t = {}) ∧ ∀ t, fieldOf t ≠ f → u.tile t = s.tile t

theorem LevelWork.ready {f : Nat} {s u v : State} (h : LevelWork f u v) (k : ReadyState f s u) : ReadyState f s v := by
  obtain ⟨hfields, htiles, ⟨hpow, hlock, hbyp, hrouted⟩, hempty, hkept⟩ := k
  obtain ⟨vfields, -, fresh, hf⟩ := h.fields hfields
  obtain ⟨vtiles, hother, hcredit⟩ := h.tiles htiles
  refine ⟨vfields, vtiles, ?_, fun t ht => ?_, fun t ht => (hother t ht).trans (hkept t ht)⟩
  · rw [hf]
    exact ⟨hpow, hlock, hbyp, hrouted⟩
  · rcases hcredit t with hc | hc
    · exact hc.trans (hempty t ht)
    · rw [hc, hempty t ht]

theorem State.opened_ready {s : State} {f : Nat} (reserve : Bool) (hfields : Map.wf (fun _ => ({} : Field)) s.fields = true)
    (htiles : Map.wf (fun _ => ({} : Tile)) s.tiles = true) (hlock : (s.field f).lock = true) : ReadyState f s (s.opened f reserve) := by
  have hfield : (s.opened f reserve).field f = (s.field f).opened f reserve := State.setField_field_self hfields
  have htile := fun t => Map.get_filter (d := fun _ => ({} : Tile)) (fun t : Nat × Tile => decide (fieldOf t.1 ≠ f)) t htiles
  refine ⟨State.wf_setField (s := { s with tiles := s.tiles.filter fun t => fieldOf t.1 ≠ f }) f _ hfields, Map.wf_filter htiles, ?_, fun t ht => (htile t).trans (by simp [ht]), fun t ht => (htile t).trans ?_⟩
  · rw [hfield]
    exact ⟨rfl, hlock, rfl, rfl⟩
  · rw [if_pos (decide_eq_true ht)]
    rfl

theorem ReadyState.keep {f : Nat} {s u : State} (k : ReadyState f s u) : ReadyState f s (u.setField f { u.field f with reserve := true }) := by
  obtain ⟨hfields, htiles, hready, hempty, hkept⟩ := k
  refine ⟨State.wf_setField f _ hfields, htiles, ?_, hempty, hkept⟩
  rw [State.setField_field_self hfields]
  exact hready

section Ready
variable {s : State} {f : Nat} (hs : s.Canon) (hpow : (s.field f).power = 1)

include hpow in
theorem State.fieldReady_lit (lock : Bool) (hrec : s.mod.sec.recovery = false) (hcode : (Map.get (fun _ => (0, 0)) s.mod.sec.running 4).1 ≠ 0) :
    s.fieldReady f true lock = let u := s.startNodes f
      if lock && (u.field f).lock then (u.opened f ((u.field f).reserve || ((u.field f).kept && s.fieldOwner f = 15 &&
        !((u.field f).retire || !(u.field f).respare.isEmpty) && s.reserveShort))).levels f
      else u.setField f { u.field f with power := 0, lock := false, reserve := false, kept := false } := by
  unfold State.fieldReady
  simp only [hpow, hrec, hcode, ne_eq, not_true, not_false_iff, decide_true, Bool.and_self, Bool.not_true, Bool.false_eq_true, if_false]
  cases (lock && ((s.startNodes f).field f).lock) <;> rfl

include hs hpow

/-- A lock reached: the field is ready, and may be kept in reserve. -/
theorem State.fieldReadyDo_ready (hrec : s.mod.sec.recovery = false) (hcode : (Map.get (fun _ => (0, 0)) s.mod.sec.running 4).1 ≠ 0)
    (hlock : ((s.startNodes f).field f).lock = true) : ReadyState f s (s.fieldReadyDo f true true) := by
  obtain ⟨fields, hframe, hwf, hsame, -⟩ := State.startNodes_fields (s := s) f hs.fields
  obtain ⟨nodes, lock, hf⟩ := hsame f
  have hopen : ReadyState f s (s.fieldReady f true true) := by
    rw [State.fieldReady_lit hpow true hrec hcode]
    dsimp only
    rw [hlock, Bool.and_self, if_pos rfl]
    refine (State.levels_levelWork _ f).ready ?_
    obtain ⟨hfields, htiles, hready, hempty, hkept⟩ := State.opened_ready (s := s.startNodes f) (f := f)
      (((s.startNodes f).field f).reserve || (((s.startNodes f).field f).kept && s.fieldOwner f = 15 &&
        !(((s.startNodes f).field f).retire || !((s.startNodes f).field f).respare.isEmpty) && s.reserveShort))
      (by rw [hframe]; exact hwf) (by rw [hframe]; exact hs.tiles) hlock
    refine ⟨hfields, htiles, ?_, hempty, fun t ht => (hkept t ht).trans ?_⟩
    · rwa [show ((s.startNodes f).field f).accepted = (s.field f).accepted by rw [hf]] at hready
    · rw [hframe]
      rfl
  simp only [State.fieldReadyDo]
  split
  · unfold State.refill
    split
    · exact (State.keepReserve_levelWork hopen.1 hopen.2.2.1.1).ready hopen.keep
    · exact hopen
  · exact hopen

/-- A lock not reached: the field is dark. -/
theorem State.fieldReadyDo_unlocked (hrec : s.mod.sec.recovery = false) (hcode : (Map.get (fun _ => (0, 0)) s.mod.sec.running 4).1 ≠ 0) :
    let u := s.fieldReadyDo f true false
    (u.field f).power = 0 ∧ (u.field f).lock = false ∧ (u.field f).reserve = false ∧ u.tiles = s.tiles := by
  obtain ⟨fields, hframe, hwf, -⟩ := State.startNodes_fields (s := s) f hs.fields
  have hoff : s.fieldReady f true false = (s.startNodes f).setField f
      { (s.startNodes f).field f with power := 0, lock := false, reserve := false, kept := false } := State.fieldReady_lit hpow false hrec hcode
  have hdark : (s.fieldReady f true false).field f =
      { (s.startNodes f).field f with power := 0, lock := false, reserve := false, kept := false } := by
    rw [hoff, State.setField_field_self (by rw [hframe]; exact hwf)]
  have heq : s.fieldReadyDo f true false = s.fieldReady f true false := by
    simp only [State.fieldReadyDo, hdark, show decide ((0 : Nat) = 2) = false from rfl, Bool.and_false, Bool.false_and, Bool.false_eq_true, if_false]
  rw [heq]
  dsimp only
  rw [hdark]
  refine ⟨rfl, rfl, rfl, ?_⟩
  rw [hoff, hframe]
  rfl

/-- No microcode: the field is dark, with a record. -/
theorem State.fieldReadyDo_uncoded (lock : Bool) (hrec : s.mod.sec.recovery = false) : s.fieldReadyDo f false lock =
    (s.leaveDark f false).raise { source := 0x2A, cls := 4, loc := fieldLoc f, detail := s.powerRegs f } := by
  have hoff : s.fieldReady f false lock = (s.leaveDark f false).raise { source := 0x2A, cls := 4, loc := fieldLoc f, detail := s.powerRegs f } := by
    unfold State.fieldReady
    simp [hpow, hrec]
  obtain ⟨_, -, -, hdark, -⟩ := s.leaveDark_fields f false hs.fields
  obtain ⟨csr, log, hraise, -⟩ := State.raise_same (s := s.leaveDark f false)
    (r := { source := 0x2A, cls := 4, loc := fieldLoc f, detail := s.powerRegs f }) (show (4 : Nat) ≠ 1 by decide)
  have hzero : ((s.fieldReady f false lock).field f).power = 0 := by
    rw [hoff, hraise]
    exact hdark
  simp only [State.fieldReadyDo, hzero, show decide ((0 : Nat) = 2) = false from rfl, Bool.and_false, Bool.false_and, Bool.false_eq_true, if_false]
  exact hoff

end Ready

end Sys2Proof.Machine
end

section
/-!
The fuse, the phase and the stop of a node, the first lock, and the whole of O44 (R24, R355, R361, R376, R377, R465).
-/

namespace Sys2Proof.Machine

/-- A record, hard or soft, is abort work for the partition that its locator names. -/
theorem State.raise_abortWork (s : State) (r : Rec) : AbortWork (s.locPart r.loc) s (s.raise r) := by
  have hlog := s.logRec_abortWork (s.locPart r.loc) r
  simp only [State.raise]
  split
  · exact hlog.trans (State.requestAbort_abortWork _ _ _)
  · exact hlog

/-- A fuse that opens (R361). -/
theorem State.fuseOpen_dark {s : State} {f : Nat} (hs : s.Canon) (hf : f < 70) (hlow : 1 ≤ (s.field f).power) (hhigh : (s.field f).power ≤ 3)
    (inj : Bool) : let u := s.fuseOpen f inj
    (u.field f).power = 4 ∧ (u.field f).fuses = (s.field f).fuses ++ [s.now] ∧ bits (u.ez (pwr f 4)) 7 4 = 4 ∧
      ∀ t, fieldOf t = f → u.tile t = {} := by
  have hopen : ((s.field f).power = 1 || (s.field f).power = 2 || (s.field f).power = 3) = true := by
    simp only [Bool.or_eq_true, decide_eq_true_eq]; omega
  have hoffcause : pwr f 4 < 0x6000 := by unfold pwr; omega
  obtain ⟨hfields, htiles, hcsr, hpow, -, -, hcause, hempty⟩ := State.stageOff_stopped hs f 4 4 (by decide) hf (by decide)
  simp only [State.fuseOpen, State.goDark, hopen, if_true]
  generalize s.stageOff f 4 4 true = d at *
  have dark (t : Nat) (ht : fieldOf t = f) (u : State) (hu : (u.field f).power = 4) : u.live (fieldOf t) = false := by
    rw [ht, State.live, hu]
    rfl
  have hmask := d.xmaskAbort_lossWork f
  obtain ⟨mfields, hsame⟩ := hmask.fields hfields
  obtain ⟨_, _, mf, -, -⟩ := hsame f
  obtain ⟨mtiles, mkept⟩ := hmask.tiles hfields htiles
  obtain ⟨mcsr, mez⟩ := hmask.csr hcsr
  have mpow : ((d.xmaskAbort f).field f).power = 4 := by rw [mf]; exact hpow
  generalize d.xmaskAbort f = e at *
  generalize hv : e.setField f { e.field f with fuses := (s.field f).fuses ++ [s.now], retested := false } = v
  have hset : v.field f = { e.field f with fuses := (s.field f).fuses ++ [s.now], retested := false } := by
    rw [← hv, State.setField_field_self mfields]
  have vtiles : v.tiles = e.tiles := by rw [← hv]; rfl
  have vmod : v.mod = e.mod := by rw [← hv]; rfl
  have vpow : (v.field f).power = 4 := by rw [hset]; exact mpow
  have hraise := v.raise_abortWork { source := 0x0E, cls := if bits (s.ez (pwr f 4)) 15 8 = 0 then 4 else 1, loc := fieldLoc f, code := 4, inj := inj, detail := v.powerRegs f }
  have hfinal := hraise.fields_eq
  obtain ⟨-, rkept⟩ := hraise.tiles (vtiles ▸ mtiles)
  obtain ⟨-, rez⟩ := hraise.csr (vmod ▸ mcsr)
  refine ⟨?_, ?_, ?_, fun t ht => ?_⟩
  · rw [State.field, hfinal]; exact vpow
  · rw [State.field, hfinal, ← State.field, hset]
  · rw [rez _ hoffcause, State.ez, vmod, ← State.ez, mez _ hoffcause, hcause]
  · rw [rkept t (dark t ht v vpow), State.tile, vtiles, ← State.tile, mkept t (dark t ht d hpow), hempty t ht]

/-- The phase error of a field that is remembered is the greatest of the last millisecond. -/
theorem State.perr_append {s u : State} {f perr : Nat} (hnow : u.now = s.now) (hp : (u.field f).phases = s.phasesNow f ++ [(s.now, perr)])
    (hlt : perr < 256) : u.perr f = max (s.perr f) perr := by
  have hphases : u.phasesNow f = s.phasesNow f ++ [(s.now, perr)] := by
    rw [State.phasesNow, hp, hnow, List.filter_append]
    simp only [State.phasesNow, List.filter_filter, Bool.and_self, List.filter_cons, List.filter_nil]
    rw [if_pos (decide_eq_true (by omega))]
  rw [State.perr, hphases, List.map_append, List.foldl_append, State.perr]
  simp only [List.map_cons, List.map_nil, List.foldl_cons, List.foldl_nil]
  omega

/-- A guarantee that is reported leaves STATE and ACAUSE. -/
theorem SameButGuar.part_state {s u : State} (h : SameButGuar s u) (hparts : Map.wf (fun _ => ({} : Part)) s.parts = true) (p : Nat) :
    (u.part p).state = (s.part p).state ∧ (u.part p).acause = (s.part p).acause := by
  have hsame := (h.2 hparts).2 p
  have hstate := congrArg Part.state hsame
  have hcause := congrArg Part.acause hsame
  exact ⟨hstate, hcause⟩

section Events
variable {s : State} (hs : s.Canon) {f : Nat} (hf : f < 70)
include hf

omit hf in
theorem State.fieldCmdBad_present (hok : s.fieldCmdBad f 1 = none) : s.mod.pow.absent.contains (feedOf f) = false := by
  cases habsent : s.mod.pow.absent.contains (feedOf f) with
  | false => rfl
  | true =>
    simp only [State.fieldCmdBad, habsent, Bool.true_or, if_true] at hok
    cases hok

theorem State.execFieldPowerDown_of (hok : s.fieldCmdBad f 2 = none) : exec (.fieldPowerDown true f) s =
    .next ((s.setField f { s.field f with power := 3, drainTo := 0 }).ezField (0x1004 + 0x20 * f) 7 4 1).reportGuar := by
  refine s.fieldDo_of hf ?_
  unfold State.fieldCmdWrite
  rw [State.privileged_true, hok, ← pwr_offcause]
  rfl

theorem State.execFuseRetest_of (h4 : (s.field f).power = 4) (hfresh : (s.field f).retested = false) :
    exec (.fuseRetest true f) s = .next (s.setField f { s.field f with retested := true }).reportGuar := by
  have hok : s.fieldCmdBad f 3 = none := by simp [State.fieldCmdBad, h4, hfresh]
  refine s.fieldDo_of hf ?_
  unfold State.fieldCmdWrite
  rw [State.privileged_true, hok]
  rfl

theorem State.execFuseRetestComplete_of (h4 : (s.field f).power = 4) (hasked : (s.field f).retested = true) :
    exec (.fuseRetestComplete f true) s =
      .next ((((s.setField f { s.field f with power := 0 }).ezField (0x1004 + 0x20 * f) 7 4 0).startNodes f).reportGuar) ∧
    exec (.fuseRetestComplete f false) s = .next (s.raise { source := 0x0E, cls := 4, loc := fieldLoc f, code := 4, detail := s.powerRegs f }).reportGuar := by
  have hdone (reached : Bool) : s.retestDone f reached = if reached then ((s.setField f { s.field f with power := 0 }).ezField (pwr f 4) 7 4 0).startNodes f
      else s.raise { source := 0x0E, cls := 4, loc := fieldLoc f, code := 4, detail := s.powerRegs f } := by
    simp only [State.retestDone, h4, hasked, decide_true, Bool.and_self, if_true]
  refine ⟨s.fieldDo_of hf ?_, s.fieldDo_of hf (hdone false)⟩
  rw [hdone true, ← pwr_offcause]
  rfl

theorem State.execCirrusPhaseLoss_small {perr : Nat} (hinj : s.ezInj 5 f = none) (hsmall : perr ≤ 10) : exec (.cirrusPhaseLoss f perr) s =
    .next (s.setField f { s.field f with phases := s.phasesNow f ++ [(s.now, perr)] }).reportGuar := by
  refine s.fieldDo_of hf ?_
  simp only [State.phaseLoss, hinj, Option.getD_none, hsmall, if_true]

include hs

theorem State.execCirrusPhaseLoss_large {perr : Nat} (hinj : s.ezInj 5 f = none) (hlarge : 10 < perr) (hlt : perr < 256) :
    ∃ u : State, exec (.cirrusPhaseLoss f perr) s = .next (u.raise { source := 0x11, cls := 4, loc := fieldLoc f, code := perr }).reportGuar ∧
      (u.field f).losses = (s.field f).losses ++ [s.now] ∧ u.perr f = max (s.perr f) perr ∧ bit (u.ez (0x3100 + 4 * f)) 1 = true ∧ u.tiles = s.tiles := by
  have hdone : s.phaseLoss f perr = ((s.ezField (0x3100 + 4 * f) 1 1 1).setField f
      { s.field f with phases := s.phasesNow f ++ [(s.now, perr)], losses := (s.field f).losses ++ [s.now] }).raise
        { source := 0x11, cls := 4, loc := fieldLoc f, code := perr } := by
    have hnot : ¬ perr ≤ 10 := by omega
    simp only [State.phaseLoss, hinj, Option.getD_none, hnot, if_false, Nat.min_eq_left (show perr ≤ 255 by omega), Option.isSome_none]
  have hword := State.ez_ezPut_self (0x3100 + 4 * f) (setBits (s.ez (0x3100 + 4 * f)) 1 1 1) hs.modCsr
  have hfield := State.setField_field_self (s := s.ezField (0x3100 + 4 * f) 1 1 1) (i := f)
    (x := { s.field f with phases := s.phasesNow f ++ [(s.now, perr)], losses := (s.field f).losses ++ [s.now] }) hs.fields
  refine ⟨_, s.fieldDo_of hf hdone, congrArg Field.losses hfield, State.perr_append rfl (congrArg Field.phases hfield) hlt, ?_, rfl⟩
  refine (congrArg (bit · 1) hword).trans ?_
  rw [bit, getLsbD_setBits _ (by decide)]
  rfl

theorem State.execCirrusNodeStop_of (hlock : (s.field f).lock = true) (hon : (s.field f).power = 2) (howner : s.fieldOwner f < 8)
    (hmask : (bits (s.ez (0x1004 + 0x20 * f)) 15 8).testBit (s.fieldOwner f) = true) (h3 : (s.part (s.fieldOwner f)).state = 3) :
    ∃ u : State, exec (.cirrusNodeStop f) s = .next u ∧ (u.field f).nodes = false ∧ (u.field f).lock = false ∧
      (u.part (s.fieldOwner f)).state = 4 ∧ (u.part (s.fieldOwner f)).acause = 3 := by
  rw [← pwr_offcause] at hmask
  have hfield := State.stopNodes_field (s := s) (f := f) hs.fields
  have hpart := State.stopNodes_part hs.fields hs.parts hlock hon howner hmask h3
  obtain ⟨hparts, -⟩ := (s.stopNodes_lossWork f).parts hs.parts
  refine ⟨_, s.fieldDo_of hf rfl, ?_⟩
  obtain ⟨hstate, hcause⟩ := (s.stopNodes f).reportGuar_same.part_state hparts (s.fieldOwner f)
  rw [State.reportGuar_field, hstate, hcause]
  exact ⟨hfield.1, hfield.2, hpart.1, hpart.2⟩

end Events

/-- A drain that is over ends in the state it was for. -/
theorem State.drained_of (s : State) {f q : Nat} (hpow : (s.field f).power = 3) (hto : (s.field f).drainTo = q) :
    s.drained f q = s.stageOff f q (bits (s.ez (pwr f 4)) 7 4) (decide (q = 5)) := by
  simp only [State.drained, hpow, hto, decide_true, Bool.and_self, if_true]

/-- The first write of CIR_SET starts the count (R377). -/
theorem State.cirSet_first {s : State} (v : DWord) (hfirst : s.mod.firstLock = false) (h4 : 4 ≤ s.mod.stage) (h7 : s.mod.stage ≠ 7) :
    ∃ fields, s.cirSet true v = { s with fields := fields, now := v, counting := true, mod := { s.mod with firstLock := true } } := by
  have hlate : ¬ s.mod.stage < 4 := by omega
  simp only [State.cirSet, State.privileged_true, hfirst, hlate, h7, decide_false, Bool.or_self, Bool.false_eq_true, if_false]
  generalize State.joined _ = j
  refine List.foldlRecOn (motive := fun u : State => ∃ fields, u = { s with
    fields := fields, now := v, counting := true, mod := { s.mod with firstLock := true } }) _ _ ⟨s.fields, rfl⟩ fun u hu f _ => ?_
  obtain ⟨fields, rfl⟩ := hu
  split
  · exact ⟨_, rfl⟩
  · exact ⟨fields, rfl⟩

theorem State.cirSet_refused {s : State} (v : DWord) (h : s.mod.firstLock = true ∨ s.mod.stage < 4 ∨ s.mod.stage = 7) :
    s.cirSet true v = s.refuse (ezAddr 0x3008) 0x4A (feedLoc 2) := by
  have hbad : (s.mod.firstLock || decide (s.mod.stage < 4) || decide (s.mod.stage = 7)) = true := by
    simpa only [Bool.or_eq_true, decide_eq_true_eq, or_assoc] using h
  simp only [State.cirSet, State.privileged_true, hbad, if_true]

end Sys2Proof.Machine

namespace Sys2Proof

open Machine

/-- Settles O44, event by event: the power-up by what its map is, the dark states by what the nodes that stop may change. -/
theorem fieldPower : Obligations.FieldPower := by
  unfold Obligations.FieldPower
  intro s hcanon
  have hs := State.canon hcanon
  refine ⟨fun f hf => ⟨fun hok hstage hfused hbit => ?_, fun hok => State.execFieldPowerDown_of hf hok,
    fun h4 hfresh => State.execFuseRetest_of hf h4 hfresh, fun h4 hasked => State.execFuseRetestComplete_of hf h4 hasked,
    fun hpow => ⟨?_, ?_, ?_⟩, fun hpow hto => ?_, fun hpow hto => ?_, fun hlow hhigh => ?_,
    fun perr hinj hsmall => State.execCirrusPhaseLoss_small hf hinj hsmall,
    fun perr hinj hlarge hlt => State.execCirrusPhaseLoss_large hs hf hinj hlarge hlt,
    fun hlock hon howner hmask h3 => State.execCirrusNodeStop_of hs hf hlock hon howner hmask h3⟩, fun v => ⟨fun hfirst h4 h7 => ?_, fun h => ?_⟩⟩
  · have hexec := State.execFieldPowerUp_of hf hok hstage
    refine ⟨fun hmap hoff => ?_, fun hmap h5 => ?_, fun o hmap hdown hoff => ?_, fun o hmap hup hopen => ?_,
      fun o hmap hup hopen hjournal vfused vbit vmap => ?_⟩
    · rw [hexec, State.powerUp_good_dark hs.fields hfused hbit hmap hoff]
    · refine ⟨_, hexec, ?_⟩
      obtain ⟨hpow, hnodes, hacc, herr, htiles⟩ := State.powerUp_good_squalled hs.fields hfused hbit hf (State.fieldCmdBad_present hok) hmap h5
      rw [State.reportGuar_field, State.reportGuar_tiles]
      exact ⟨hpow, hnodes, hacc, herr, htiles⟩
    · rw [hexec, State.powerUp_bad_down hs.fields hfused hbit hmap hdown hoff]
    · refine ⟨_, hexec, ?_⟩
      obtain ⟨hpow, herr, hres, hcopy⟩ := State.powerUp_bad_restored hs.fields hfused hbit hmap hup hopen
      obtain ⟨_, _, _, hframe⟩ := (s.powerUp f).reportGuar_frame
      rw [hframe]
      exact ⟨hpow, herr, hres, hcopy⟩
    · refine ⟨_, hexec, ?_⟩
      obtain ⟨hpow, hacc, hclosed, htiles⟩ := State.powerUp_bad_completed hs.fields hfused hbit hmap hup hopen hjournal vfused vbit vmap
      obtain ⟨_, _, _, hframe⟩ := (s.powerUp f).reportGuar_frame
      rw [hframe]
      exact ⟨hpow, hacc, hclosed, htiles⟩
  · intro hcode hrec hcount hfused habsent hjoined
    obtain ⟨_, -, -, -, hstarted⟩ := State.startNodes_fields (s := s) f hs.fields
    have hlock := ((hstarted hf hfused habsent).2 hcount).trans hjoined
    obtain ⟨-, -, ⟨hpow', hlock', hbyp, hrouted⟩, hempty, hkept⟩ := State.fieldReadyDo_ready hs hpow hrec hcode hlock
    refine ⟨_, s.fieldDo_of hf rfl, ?_⟩
    simp only [State.reportGuar_field, State.reportGuar_tile]
    exact ⟨hpow', hlock', hbyp, hrouted, hempty, hkept⟩
  · intro hcode hrec
    refine ⟨_, s.fieldDo_of hf rfl, ?_⟩
    simp only [State.reportGuar_field, State.reportGuar_tiles]
    exact State.fieldReadyDo_unlocked hs hpow hrec hcode
  · exact fun lock hrec => s.fieldDo_of hf (State.fieldReadyDo_uncoded hs hpow lock hrec)
  · obtain ⟨hoff, hrouted, hres, hempty, hkept, hparts⟩ := State.stageOff_kept hs f 0 (bits (s.ez (pwr f 4)) 7 4)
    have hpart (p : Nat) : (s.stageOff f 0 (bits (s.ez (pwr f 4)) 7 4) false).part p = s.part p := by rw [State.part, hparts, State.part]
    refine ⟨_, s.fieldDo_of hf (show s.drained f 0 = s.stageOff f 0 (bits (s.ez (pwr f 4)) 7 4) false from s.drained_of hpow hto), ?_⟩
    obtain ⟨-, hguar⟩ := (s.stageOff f 0 (bits (s.ez (pwr f 4)) 7 4) false).reportGuar_same
    simp only [State.reportGuar_field, State.reportGuar_tile]
    refine ⟨hoff, hrouted, hres, hempty, hkept, fun p => ?_⟩
    exact ((hguar (hparts ▸ hs.parts)).2 p).trans (congrArg (fun x : Part => { x with guar := 0 }) (hpart p))
  · obtain ⟨-, -, -, hoff, hnodes, -, -, hempty⟩ := State.stageOff_stopped hs f 5 (bits (s.ez (pwr f 4)) 7 4) (by decide) hf (by
      unfold bits; omega)
    refine ⟨_, s.fieldDo_of hf (show s.drained f 5 = s.stageOff f 5 (bits (s.ez (pwr f 4)) 7 4) true from s.drained_of hpow hto), ?_⟩
    simp only [State.reportGuar_field, State.reportGuar_tile]
    exact ⟨hoff, hnodes, hempty⟩
  · obtain ⟨hoff, hfuses, hcause, hempty⟩ := State.fuseOpen_dark hs hf hlow hhigh false
    refine ⟨_, s.fieldDo_of hf rfl, ?_⟩
    simp only [State.reportGuar_field, State.reportGuar_tile, State.reportGuar_ez]
    exact ⟨hoff, hfuses, pwr_offcause f ▸ hcause, hempty⟩
  · obtain ⟨fields, hset⟩ := State.cirSet_first v hfirst h4 h7
    exact ⟨_, congrArg Host.Outcome.next hset, rfl, rfl, rfl, rfl, rfl, rfl⟩
  · exact congrArg Host.Outcome.next (State.cirSet_refused v h)

end Sys2Proof
end

section
/-!
What the reserve of fields may change (R39, R458): fields, the tiles' credit, registers, the log, the store and its journal.
-/

namespace Sys2Proof.Machine

/-- What fields kept in reserve, powered or given an owner may change. -/
structure ReserveWork (s u : State) : Prop where
  parts : u.parts = s.parts
  sec : u.mod.sec = s.mod.sec
  count : u.mod.cc.reserveCount = s.mod.cc.reserveCount
  named : u.mod.cc.reserveNamed = s.mod.cc.reserveNamed
  tiles : Map.wf (fun _ => ({} : Tile)) s.tiles = true → Map.wf (fun _ => ({} : Tile)) u.tiles = true ∧
    ∀ t, { u.tile t with credit := none } = { s.tile t with credit := none }

theorem ReserveWork.refl (s : State) : ReserveWork s s := ⟨rfl, rfl, rfl, rfl, fun h => ⟨h, fun _ => rfl⟩⟩

theorem ReserveWork.trans {s u v : State} (h : ReserveWork s u) (k : ReserveWork u v) : ReserveWork s v where
  parts := k.parts.trans h.parts
  sec := k.sec.trans h.sec
  count := k.count.trans h.count
  named := k.named.trans h.named
  tiles := fun hwf => by
    obtain ⟨hu, hsame⟩ := h.tiles hwf
    obtain ⟨hv, ksame⟩ := k.tiles hu
    exact ⟨hv, fun t => (ksame t).trans (hsame t)⟩

theorem ReserveWork.foldl {α : Type} {step : State → α → State} (h : ∀ u a, ReserveWork u (step u a)) (l : List α) (s : State) :
    ReserveWork s (l.foldl step s) :=
  List.foldlRecOn (motive := ReserveWork s) l step (ReserveWork.refl s) fun u hu a _ => hu.trans (h u a)

theorem LevelWork.reserveWork {f : Nat} {s u : State} (h : LevelWork f s u) : ReserveWork s u := by
  have htiles := h.tiles
  obtain ⟨tiles, fields, csr, rfl⟩ := h.frame
  refine ⟨rfl, rfl, rfl, rfl, fun hwf => ?_⟩
  obtain ⟨hu, -, hcredit⟩ := htiles hwf
  refine ⟨hu, fun t => ?_⟩
  rcases hcredit t with hc | hc
  · rw [hc]
  · rw [hc]

theorem StoreWork.reserveWork {s u : State} (h : StoreWork s u) : ReserveWork s u := by
  obtain ⟨csr, log, preg, wear, opened, rfl, -⟩ := h
  exact ⟨rfl, rfl, rfl, rfl, fun h => ⟨h, fun _ => rfl⟩⟩

theorem State.setField_reserveWork (s : State) (f : Nat) (x : Field) : ReserveWork s (s.setField f x) :=
  ⟨rfl, rfl, rfl, rfl, fun h => ⟨h, fun _ => rfl⟩⟩
theorem State.setSite_reserveWork (s : State) (n : Nat) (x : Site) : ReserveWork s (s.setSite n x) :=
  ⟨rfl, rfl, rfl, rfl, fun h => ⟨h, fun _ => rfl⟩⟩
theorem State.setPort_reserveWork (s : State) (q : Nat) (x : Port) : ReserveWork s (s.setPort q x) :=
  ⟨rfl, rfl, rfl, rfl, fun h => ⟨h, fun _ => rfl⟩⟩
theorem State.ezField_reserveWork (s : State) (o hi lo v : Nat) : ReserveWork s (s.ezField o hi lo v) :=
  ⟨rfl, rfl, rfl, rfl, fun h => ⟨h, fun _ => rfl⟩⟩

theorem State.putXmask_reserveWork (s : State) : ReserveWork s s.putXmask := by
  obtain ⟨csr, h⟩ := s.putXmask_frame
  rw [h]
  exact ⟨rfl, rfl, rfl, rfl, fun h => ⟨h, fun _ => rfl⟩⟩

theorem State.xmasks_reserveWork (s : State) : ReserveWork s s.xmasks := by
  unfold State.xmasks
  split
  · exact s.putXmask_reserveWork
  · exact ReserveWork.refl s

theorem State.startNodes_reserveWork (s : State) (f : Nat) : ReserveWork s (s.startNodes f) := by
  have hset := s.setField_reserveWork f { s.field f with nodes := true }
  simp only [State.startNodes]
  split
  · exact ReserveWork.refl s
  · split
    · refine hset.trans (ReserveWork.foldl (fun u g => ?_) _ _)
      split
      · exact u.setField_reserveWork _ _
      · exact ReserveWork.refl u
    · exact hset

theorem State.leaveDark_reserveWork (s : State) (f : Nat) (err : Bool) : ReserveWork s (s.leaveDark f err) :=
  (s.setField_reserveWork f _).trans (State.startNodes_reserveWork _ f)

theorem State.checkMap_reserveWork (s : State) (f : Nat) : ReserveWork s (s.checkMap f) := by
  unfold State.checkMap
  split
  · exact s.leaveDark_reserveWork f _
  · split
    · exact s.setField_reserveWork f _
    · exact (s.leaveDark_reserveWork f true).trans (State.raise_storeWork (show (4 : Nat) ≠ 1 by decide)).reserveWork

theorem State.supplied_reserveWork (s : State) (f : Nat) : ReserveWork s (s.supplied f) := by
  have hset := s.setField_reserveWork f { s.field f with power := 1 }
  simp only [State.supplied]
  split
  · exact hset.trans (State.startNodes_reserveWork _ f)
  · exact hset

theorem State.restoreMap_reserveWork (s : State) (f : Nat) : ReserveWork s (s.restoreMap f) := by
  simp only [State.restoreMap]
  split
  · exact (State.raise_storeWork (s := s) (show (4 : Nat) ≠ 1 by decide)).reserveWork
  · obtain ⟨_, _, _, _, _, h⟩ := s.writeMap_done f _ _ _ false
    rw [h]
    exact ⟨rfl, rfl, rfl, rfl, fun h => ⟨h, fun _ => rfl⟩⟩

theorem State.powerUp_reserveWork (s : State) (f : Nat) : ReserveWork s (s.powerUp f) := by
  have hread : ReserveWork s (((s.ezField (pwr f 4) 7 4 0).supplied f).checkMap f) :=
    ((s.ezField_reserveWork _ _ _ _).trans (State.supplied_reserveWork _ f)).trans (State.checkMap_reserveWork _ f)
  rw [State.powerUp_eq]
  dsimp only
  split
  · exact hread
  · split
    · exact hread.trans (((State.closeJournal_storeWork _).reserveWork.trans (State.supplied_reserveWork _ f)).trans (State.checkMap_reserveWork _ f))
    · exact hread.trans (State.restoreMap_reserveWork _ f)

theorem State.keepReserve_reserveWork (s : State) (f : Nat) : ReserveWork s (s.keepReserve f) := by
  have hkept := ((s.setField_reserveWork f { s.field f with reserve := true }).trans (State.ezField_reserveWork _ (pwr f 0) 2 0 0)).trans
    (State.levels_levelWork _ f).reserveWork
  simp only [State.keepReserve]
  split
  · exact hkept.trans (State.powerUp_reserveWork _ f)
  · exact hkept

theorem State.fillReserve_reserveWork (s : State) : ReserveWork s s.fillReserve :=
  ReserveWork.foldl (fun u f => by
    split
    · exact u.keepReserve_reserveWork f
    · exact u.setField_reserveWork f _) _ s

theorem State.refill_reserveWork (s : State) (f : Nat) : ReserveWork s (s.refill f) := by
  unfold State.refill
  split
  · exact s.keepReserve_reserveWork f
  · exact ReserveWork.refl s

theorem State.setFieldOwner_reserveWork (s : State) (f p : Nat) : ReserveWork s (s.setFieldOwner f p) :=
  (((s.setField_reserveWork f _).trans (State.ezField_reserveWork _ _ _ _ _)).trans (State.ezField_reserveWork _ _ _ _ _)).trans
    (State.levels_levelWork _ f).reserveWork

theorem State.restoreChan_reserveWork (s : State) (k p : Nat) : ReserveWork s (s.restoreChan k p) := by
  unfold State.restoreChan
  split
  · exact (s.setSite_reserveWork _ _).trans (State.setSite_reserveWork _ _ _)
  · exact ReserveWork.refl s

theorem State.restoreOwned_reserveWork (s : State) (p : Nat) : ReserveWork s (s.restoreOwned p) := by
  simp only [State.restoreOwned]
  refine ((ReserveWork.foldl (fun u f => ?_) _ s).trans (ReserveWork.foldl (fun u k => u.restoreChan_reserveWork k p) _ _)).trans
    (ReserveWork.foldl (fun u q => ?_) _ _)
  · split
    · exact u.setFieldOwner_reserveWork f p
    · exact ReserveWork.refl u
  · split
    · exact u.setPort_reserveWork q _
    · exact ReserveWork.refl u

end Sys2Proof.Machine
end

section
/-!
The map of partitions keeps its canonical form while units leave their owner (R417, R427).
-/

namespace Sys2Proof.Machine

/-- The map of partitions stays canonical from one state to another. -/
def PartsKept (s u : State) : Prop := Map.wf (fun _ => ({} : Part)) s.parts = true → Map.wf (fun _ => ({} : Part)) u.parts = true

theorem PartsKept.refl (s : State) : PartsKept s s := id
theorem PartsKept.trans {s u v : State} (h : PartsKept s u) (k : PartsKept u v) : PartsKept s v := fun hwf => k (h hwf)
theorem PartsKept.of_eq {s u : State} (h : u.parts = s.parts) : PartsKept s u := fun hwf => h ▸ hwf

theorem PartsKept.foldl {α : Type} {step : State → α → State} (h : ∀ u a, PartsKept u (step u a)) (l : List α) (s : State) :
    PartsKept s (l.foldl step s) :=
  List.foldlRecOn (motive := PartsKept s) l step (PartsKept.refl s) fun u hu a _ => hu.trans (h u a)

theorem ReserveWork.partsKept {s u : State} (h : ReserveWork s u) : PartsKept s u := PartsKept.of_eq h.parts
theorem LossWork.partsKept {s u : State} (h : LossWork s u) : PartsKept s u := fun hwf => (h.parts hwf).1
theorem PortWork.partsKept {s u : State} (h : PortWork s u) : PartsKept s u := (h.abortWork 0).lossWork.partsKept
theorem State.setTile_partsKept (s : State) (t : Nat) (x : Tile) : PartsKept s (s.setTile t x) := id
theorem State.setField_partsKept (s : State) (f : Nat) (x : Field) : PartsKept s (s.setField f x) := id
theorem State.setSite_partsKept (s : State) (n : Nat) (x : Site) : PartsKept s (s.setSite n x) := id
theorem State.setPort_partsKept (s : State) (q : Nat) (x : Port) : PartsKept s (s.setPort q x) := id
theorem State.updMod_partsKept (s : State) (g : Module → Module) : PartsKept s (s.updMod g) := id
theorem State.mapTiles_partsKept (s : State) (g : Nat → Tile → Tile) : PartsKept s (s.mapTiles g) := id
theorem State.setPart_partsKept (s : State) (p : Nat) (x : Part) : PartsKept s (s.setPart p x) := fun hwf => Map.wf_set hwf

theorem State.reportGuar_partsKept (s : State) : PartsKept s s.reportGuar := fun hwf => (s.reportGuar_same.2 hwf).1

theorem State.finishSwap_partsKept (s : State) : PartsKept s s.finishSwap := by
  simp only [State.finishSwap]
  refine ((PartsKept.foldl (fun u f => u.setField_partsKept f _) _ s).trans (PartsKept.foldl (fun u p => ?_) _ _)).trans
    (((State.updMod_partsKept _ _).trans (State.putXmask_reserveWork _).partsKept).trans (State.reportGuar_partsKept _))
  split
  · exact u.setPart_partsKept p _
  · exact PartsKept.refl u

theorem State.heldSwap_partsKept (s : State) : PartsKept s s.heldSwap := by
  unfold State.heldSwap
  split
  · exact s.finishSwap_partsKept
  · exact PartsKept.refl s

theorem State.setUnreach_partsKept (s : State) (f : Nat) (lost : Bool) : PartsKept s (s.setUnreach f lost) := by
  simp only [State.setUnreach]
  split
  · exact (s.setField_partsKept f _).trans (State.xmaskAbort_lossWork _ f).partsKept
  · exact s.setField_partsKept f _

theorem State.loadTables_partsKept (s : State) (kept main : List Nat) (r : RouteSet) : PartsKept s (s.loadTables kept main r) :=
  PartsKept.foldl (fun u f => u.setField_partsKept f _) s.onFields s

theorem State.reroute_partsKept (s : State) : PartsKept s s.reroute := by
  unfold State.reroute
  split
  · exact s.putXmask_reserveWork.partsKept.trans (State.heldSwap_partsKept _)
  · split
    next kept r _ =>
      dsimp only
      have hload := (PartsKept.foldl (fun u f => u.setUnreach_partsKept f (decide ((u.field f).power = 2) && !(mainGroup kept).contains f))
        (List.range nFields) s).trans (State.loadTables_partsKept _ kept (mainGroup kept) r)
      split
      · refine ((hload.trans (PartsKept.foldl (fun u p => ?_) _ _)).trans (State.updMod_partsKept _ _)).trans
          ((State.putXmask_reserveWork _).partsKept.trans (State.heldSwap_partsKept _))
        split
        · exact u.setPart_partsKept p _
        · exact PartsKept.refl u
      · exact hload.trans (State.finishSwap_partsKept _)

theorem State.putTables_partsKept (s : State) (p : Nat) (m : Manifest) : PartsKept s (s.putTables p m) := by
  simp only [State.putTables]
  refine ((((PartsKept.foldl (fun u _ => u.setTile_partsKept _ _) _ s).trans (State.eachSite_portWork _ p _).partsKept).trans
    (PartsKept.foldl (fun u _ => u.setTile_partsKept _ _) _ _)).trans (PartsKept.foldl (fun u _ => u.setSite_partsKept _ _) _ _)).trans
    (State.eachSite_portWork _ p _).partsKept

theorem State.movedField_partsKept (s : State) (p f g : Nat) (m m1 : Manifest) (b : Binary) : PartsKept s (s.movedField p f g m m1 b) := by
  unfold State.movedField
  extract_lets q fmap s1 s2 x s3 s4 c s6 y
  have owned : PartsKept s s1 := (((s.ezField_reserveWork _ _ _ _).trans (State.setFieldOwner_reserveWork _ g p)).trans
    (State.setFieldOwner_reserveWork _ f 15)).partsKept
  have loaded : PartsKept s3 s4 := PartsKept.foldl (fun u _ => u.setTile_partsKept _ _) _ s3
  exact (((owned.trans (s1.putTables_partsKept p _)).trans (s2.setField_partsKept g _)).trans loaded).trans
    ((s4.updMod_partsKept _).trans (s6.setPart_partsKept p _))

theorem State.jobMoves_partsKept (s : State) (p i : Nat) : PartsKept s (s.jobMoves p i) := by
  unfold State.jobMoves
  split
  · split
    · exact (State.movedField_partsKept _ _ _ _ _ _ _).trans (State.reroute_partsKept _)
    · exact PartsKept.refl s
  · exact PartsKept.refl s

theorem State.confMove_partsKept (s : State) (k : ResKind) (i old new : Nat) : PartsKept s (s.confMove k i old new) := by
  simp only [State.confMove]
  split <;> split <;> exact id

theorem State.siteLeaves_partsKept (s : State) (n : Nat) : PartsKept s (s.siteLeaves n) := by
  simp only [State.siteLeaves]
  split
  · exact PartsKept.refl s
  · exact (s.setSite_partsKept n _).trans (PartsKept.foldl (fun u q => u.setPort_partsKept q _) _ _)

theorem State.capacityDo_partsKept (s : State) (k : ResKind) (i old new : Nat) : PartsKept s (s.capacityDo k i old new) := by
  cases k with
  | field =>
    unfold State.capacityDo
    dsimp only
    refine PartsKept.trans (PartsKept.trans ?_ (State.confMove_partsKept _ .field i old new)) (State.reroute_partsKept _)
    have owned := ((s.jobMoves_partsKept old i).trans (State.mapTiles_partsKept _ fun t x => if fieldOf t = i then { x with spd := [], par := [] } else x)).trans
      (State.setFieldOwner_reserveWork _ i new).partsKept
    split
    · exact owned.trans (State.refill_reserveWork _ i).partsKept
    · exact owned
  | site =>
    unfold State.capacityDo
    dsimp only
    refine PartsKept.trans ?_ (State.xmasks_reserveWork _).partsKept
    have left := (s.siteLeaves_partsKept i).trans (State.confMove_partsKept _ .site i old new)
    split
    · exact left.trans (State.setSite_partsKept _ i _)
    · exact left
  | chan => exact ((s.setSite_partsKept _ _).trans (State.setSite_partsKept _ _ _)).trans (State.confMove_partsKept _ _ _ _ _)
  | port => exact (s.setPort_partsKept i _).trans (State.confMove_partsKept _ _ _ _ _)

theorem State.releaseAll_partsKept (s : State) (p : Nat) : PartsKept s (s.releaseAll p) := by
  simp only [State.releaseAll]
  exact (((PartsKept.foldl (fun u f => u.capacityDo_partsKept .field f p 15) _ s).trans
    (PartsKept.foldl (fun u q => u.capacityDo_partsKept .port q p 15) _ _)).trans
    (PartsKept.foldl (fun u c => u.capacityDo_partsKept .chan c p 15) _ _)).trans
    (PartsKept.foldl (fun u n => u.capacityDo_partsKept .site n p 15) _ _)

theorem State.destroyKey_partsKept (s : State) (p : Nat) : PartsKept s (s.destroyKey p) := by
  simp only [State.destroyKey]
  refine (s.setPart_partsKept p _).trans (PartsKept.foldl (fun u n => ?_) _ _)
  split
  · exact PartsKept.refl u
  · exact u.setSite_partsKept n _

end Sys2Proof.Machine
end

section
/-!
The units that change their owner and the partitions that hold them (R401, R402, R417, R424, R427, R428, R429), and the whole of O49.
-/

namespace Sys2Proof.Machine

/-- A restart that is complete sends what had waited; nothing but the rings of the control complex changes. -/
theorem State.ccUp_frame {s : State} (hdown : s.mod.cc.up = false) :
    ∃ mail out, s.ccUp = { s with mod := { s.mod with cc := { s.mod.cc with up := true, mail := mail } }, outbox := out } := by
  unfold State.ccUp
  rw [hdown]
  refine List.foldlRecOn (motive := fun u : State => ∃ mail out, u = { s with
    mod := { s.mod with cc := { s.mod.cc with up := true, mail := mail } }, outbox := out }) _ _ ⟨s.mod.cc.mail, s.outbox, rfl⟩ fun u hu r _ => ?_
  refine List.foldlRecOn (motive := fun u : State => ∃ mail out, u = { s with
    mod := { s.mod with cc := { s.mod.cc with up := true, mail := mail } }, outbox := out }) _ _ ?_ fun v hv m _ => ?_
  · obtain ⟨mail, out, rfl⟩ := hu
    exact ⟨_, out, rfl⟩
  · obtain ⟨mail, out, rfl⟩ := hv
    exact ⟨mail, _, rfl⟩

section Units
variable {s : State} (hup : s.mod.cc.up = true) {k : ResKind} {i new : Nat} (hwf : (Instr.capacityChange k i new).wf = true)
include hwf

theorem State.execCapacityChange_of {u : State} (hu : s.capacity k i new = u) : exec (.capacityChange k i new) s = .next u := by
  have hok : (decide (i < unitCount k) && (decide (new < nParts) || decide (new = 15))) = true := by
    cases k <;> exact hwf
  exact s.checked_of hok hu

include hup

theorem State.capacityChange_same (howner : s.ownerOf k i = new) : exec (.capacityChange k i new) s = .next (s.sameOwner k i new) := by
  refine State.execCapacityChange_of hwf ?_
  simp only [State.capacity, hup, howner, Bool.not_true, Bool.false_eq_true, if_false, if_true]

theorem State.capacityChange_refused {n : Nat} (howner : s.ownerOf k i ≠ new) (hn : n ≠ 2)
    (hbad : s.capacityBad k i (s.ownerOf k i) new = some n) : exec (.capacityChange k i new) s = .next (s.say (.redfish false n)) := by
  refine State.execCapacityChange_of hwf ?_
  simp only [State.capacity, hup, howner, hbad, Bool.not_true, Bool.false_eq_true, if_false]

theorem State.capacityChange_waits (howner : s.ownerOf k i ≠ new) (hbad : s.capacityBad k i (s.ownerOf k i) new = some 2) :
    exec (.capacityChange k i new) s = .next
      ((s.updMod fun m => { m with cc := { m.cc with changes := dropChange k i m.cc.changes ++ [(k, i, new)] } }).say (.redfishTask k i new)) := by
  refine State.execCapacityChange_of hwf ?_
  simp only [State.capacity, hup, howner, hbad, Bool.not_true, Bool.false_eq_true, if_false]

theorem State.capacityChange_done (howner : s.ownerOf k i ≠ new) (hbad : s.capacityBad k i (s.ownerOf k i) new = none) :
    exec (.capacityChange k i new) s = .next ((s.capacityDo k i (s.ownerOf k i) new).say (.redfish true 1)) := by
  refine State.execCapacityChange_of hwf ?_
  simp only [State.capacity, hup, howner, hbad, Bool.not_true, Bool.false_eq_true, if_false]

end Units

theorem State.enableSite_of {s : State} {k : ResKind} {i : Nat} (h : k = .site → (s.site i).state ≠ 3) : s.enableSite k i = s := by
  refine if_neg fun hdis => ?_
  obtain ⟨hk, h3⟩ := Bool.and_eq_true_iff.mp hdis
  exact h (of_decide_eq_true hk) (of_decide_eq_true h3)

theorem State.enableSite_disabled {s : State} {i : Nat} (h3 : (s.site i).state = 3) :
    s.enableSite .site i = s.setSite i { s.site i with state := 2 } := by
  refine if_pos ?_
  rw [h3]
  rfl

theorem Port.clearWindows_wf {o : Port} (h : Map.wf (regReset portRegs) o.csr = true) : Map.wf (regReset portRegs) (clearWindows o).csr = true :=
  List.foldlRecOn (motive := fun o : Port => Map.wf (regReset portRegs) o.csr = true) _ _ h
    fun _ h _ _ => Map.wf_set (Map.wf_set (Map.wf_set (Map.wf_set h)))

/-- A port has the owner it is given (R417). -/
theorem State.capacityDo_port {s : State} (hs : s.Canon) (q old : Nat) {new : Nat} (hnew : new < 16) : (s.capacityDo .port q old new).portOwner q = new := by
  have hports : (s.capacityDo .port q old new).ports = (s.setPort q ((clearWindows (s.port q)).csrField 0x0 23 20 new)).ports := by
    unfold State.capacityDo
    simp only [State.confMove]
    split <;> split <;> rfl
  have hword : ((clearWindows (s.port q)).csrField 0x0 23 20 new).csrWord 0x0 = setBits ((clearWindows (s.port q)).csrWord 0x0) 23 20 new :=
    Map.get_set_self (Port.clearWindows_wf (hs.portCsr q))
  rw [State.portOwner, State.port, hports, ← State.port, State.setPort_port_self hs.ports, hword, bits_setBits_self _ (by decide) hnew]

/-- The halves of a key that is drawn differ (R269). -/
theorem keyDraw_halves (n : Nat) : keyDraw n / 2 ^ 256 ≠ keyDraw n % 2 ^ 256 := by
  unfold keyDraw
  generalize Config.drbg n = v
  dsimp only
  split
  next heq =>
    have hsame : v.toNat / 2 ^ 256 = v.toNat % 2 ^ 256 := heq
    have hone : (1#512).toNat = 1 := BitVec.toNat_one (by decide)
    have hlt : 1 < 2 ^ 256 := Nat.one_lt_two_pow (by decide)
    rw [BitVec.toNat_xor, BitVec.ofNat_eq_ofNat, hone, Nat.xor_div_two_pow, Nat.xor_mod_two_pow, hsame, Nat.div_eq_of_lt hlt, Nat.mod_eq_of_lt hlt]
    exact fun hflip => absurd (Nat.xor_right_injective hflip) (by decide)
  next hne => exact hne

/-- Partition p known, with its certificate and the limit of its power. -/
def State.registered (s : State) (p cert limit : Nat) : State :=
  s.setConf p { s.conf p with known := true, cert := cert, maxCap := limit }

/-- Partition p with a key drawn for it, and STATE 1. -/
def State.keyed (s : State) (p : Nat) : State :=
  let s1 := s.updMod fun m => { m with sec := { m.sec with drawn := m.sec.drawn + 1 } }
  let s2 := s1.setPart p { s1.part p with key := keyDraw s.mod.sec.drawn, kgen := (s1.part p).kgen + 1 }
  s2.setPart p { s2.part p with state := 1 }

theorem State.definePart_of {s : State} (p : Nat) (hrng : s.mod.sec.rngFail = false) :
    s.definePart p = some (((s.keyed p).restoreOwned p).xmasks) := by
  unfold State.definePart State.giveKey State.drawKey
  rw [hrng]
  rfl

theorem State.keyed_part {s : State} (p : Nat) (hwf : Map.wf (fun _ => ({} : Part)) s.parts = true) :
    (s.keyed p).part p = { s.part p with key := keyDraw s.mod.sec.drawn, kgen := (s.part p).kgen + 1, state := 1 } := by
  have hkey := State.setPart_part_self (s := s.updMod fun m => { m with sec := { m.sec with drawn := m.sec.drawn + 1 } }) (i := p)
    (x := { s.part p with key := keyDraw s.mod.sec.drawn, kgen := (s.part p).kgen + 1 }) hwf
  have hkeyed := State.setPart_part_self (i := p) (x := { s.part p with key := keyDraw s.mod.sec.drawn, kgen := (s.part p).kgen + 1, state := 1 })
    (State.setPart_partsKept (s.updMod fun m => { m with sec := { m.sec with drawn := m.sec.drawn + 1 } }) p
      { s.part p with key := keyDraw s.mod.sec.drawn, kgen := (s.part p).kgen + 1 } hwf)
  simp only [State.keyed]
  rw [show (s.updMod fun m => { m with sec := { m.sec with drawn := m.sec.drawn + 1 } }).part p = s.part p from rfl, hkey]
  exact hkeyed

theorem State.keyed_rest (s : State) (p : Nat) : (s.keyed p).tiles = s.tiles ∧ (s.keyed p).mod.sec.drawn = s.mod.sec.drawn + 1 := ⟨rfl, rfl⟩

/-- A partition that is defined (R402). -/
theorem State.execPartitionDefine_of {s : State} (hs : s.Canon) {p : Nat} (hup : s.mod.cc.up = true) (hp : p < 8) (cert : Nat) {limit : Nat}
    (hlimit : limit < 65536) (hnone : (s.part p).state = 0) (hrng : s.mod.sec.rngFail = false) :
    ∃ u : State, exec (.partitionDefine p cert limit) s = .next u ∧ (u.part p).state = 1 ∧ (u.part p).kgen = (s.part p).kgen + 1 ∧
      (u.part p).key / 2 ^ 256 ≠ (u.part p).key % 2 ^ 256 ∧
      (∀ t, { u.tile t with credit := none } = { s.tile t with credit := none }) ∧ u.mod.sec.drawn = s.mod.sec.drawn + 1 := by
  have hdone : s.partitionDefine p cert limit = ((((s.registered p cert limit).keyed p).restoreOwned p).xmasks).say (.redfish true 1) := by
    unfold State.partitionDefine
    simp only [hup, hnone, Bool.not_true, Bool.false_eq_true, if_false, ne_eq, not_true]
    rw [← State.registered, State.definePart_of (s := s.registered p cert limit) p hrng]
  have hpart := State.keyed_part (s := s.registered p cert limit) p hs.parts
  obtain ⟨htiles, hdrawn⟩ := (s.registered p cert limit).keyed_rest p
  have hwork := (((s.registered p cert limit).keyed p).restoreOwned_reserveWork p).trans (State.xmasks_reserveWork _)
  have hok : (decide (p < nParts) && decide (limit < 65536)) = true := by simp [hp, hlimit, nParts]
  refine ⟨_, s.checked_of hok hdone, ?_⟩
  generalize (s.registered p cert limit).keyed p = d at *
  generalize (d.restoreOwned p).xmasks = u at *
  have hsame : (u.say (.redfish true 1)).part p = d.part p := by rw [State.part, State.say_parts, hwork.parts, State.part]
  have hhalves := keyDraw_halves (s.registered p cert limit).mod.sec.drawn
  have hsec : u.mod.sec.drawn = s.mod.sec.drawn + 1 := by rw [hwork.sec, hdrawn]; rfl
  rw [hsame, hpart]
  refine ⟨rfl, rfl, hhalves, fun t => ?_, hsec⟩
  have htile := (hwork.tiles (htiles ▸ hs.tiles)).2 t
  rw [show d.tile t = s.tile t by rw [State.tile, htiles]; rfl] at htile
  exact htile

/-- Of a partition that is freed, the rest of the work leaves the map of partitions. -/
theorem State.freed_parts (e : State) (debug : Bool) (p : Nat) (g : Module → Module) (m : Msg) :
    ((((if debug then e.snapSec else e).setConf p {}).updMod g).say m).parts = e.parts := by
  rw [State.say_parts, State.updMod_parts, State.setConf, State.updMod_parts]
  split
  · rw [State.snapSec, State.updMod_parts]
  · rfl

/-- A partition that is freed (R427). -/
theorem State.execPartitionFree_of {s : State} (hs : s.Canon) {p : Nat} (hup : s.mod.cc.up = true) (hp : p < 8)
    (hstate : (s.part p).state = 1 ∨ (s.part p).state = 2) (hjob : (s.part p).job = none) (hq : s.quiescent p = true) :
    ∃ u : State, exec (.partitionFree p) s = .next u ∧
      u.part p = { ledger := (s.part p).ledger, kgen := (s.part p).kgen, inv := (s.part p).inv } ∧ ∀ x ∈ u.mod.cc.sessions, x.part ≠ p := by
  have hmay : ((decide ((s.part p).state = 0) || (s.part p).job.isSome || decide ((s.part p).state = 4) || decide ((s.part p).state = 5) ||
      !s.quiescent p)) = false := by
    rcases hstate with h | h <;> simp [h, hjob, hq]
  have hkept : PartsKept s (((s.releaseAll p).destroyKey p).setMail p []) :=
    ((s.releaseAll_partsKept p).trans (State.destroyKey_partsKept _ p)).trans (State.updMod_partsKept _ _)
  refine ⟨_, s.checked_of (decide_eq_true hp) rfl, ?_⟩
  unfold State.partitionFree
  simp only [hup, hmay, Bool.not_true, Bool.false_eq_true, if_false]
  have hwf := hkept hs.parts
  generalize ((s.releaseAll p).destroyKey p).setMail p [] = d at *
  have hpart := State.setPart_part_self (s := d) (i := p) (x := { ledger := (s.part p).ledger, kgen := (s.part p).kgen, inv := (s.part p).inv }) hwf
  generalize d.setPart p { ledger := (s.part p).ledger, kgen := (s.part p).kgen, inv := (s.part p).inv } = e at *
  refine ⟨?_, fun x hx => ?_⟩
  · rw [State.part, State.freed_parts]
    exact hpart
  · exact of_decide_eq_true (List.mem_filter.mp hx).2

theorem Site.csrWord_csrPut_self {x : Site} {o : Nat} (v : Word) (h : Map.wf (regReset siteRegs) x.csr = true) : (x.csrPut o v).csrWord o = v :=
  Map.get_set_self h

theorem Site.csrWord_csrPut_ne {x : Site} {o k : Nat} (v : Word) (h : Map.wf (regReset siteRegs) x.csr = true) (hk : k ≠ o) :
    (x.csrPut o v).csrWord k = x.csrWord k := Map.get_set_ne h hk

/-- A key loaded stands in its slot, the site else as it was but for two fields of a register (R267). -/
theorem loadKey_rest (x : Site) (p key : Nat) : ∃ v w, loadKey x p key =
    (({ x with keys := Map.set (fun _ => 0) x.keys p key } : Site).csrPut 0x8 v).csrPut 0x8 w := ⟨_, _, rfl⟩

/-- A wipe that begins (R424). -/
theorem State.execSiteWipe_of {s : State} (hs : s.Canon) {n p : Nat} (hup : s.mod.cc.up = true) (hn : n < 48) (hp : p < 8)
    (hdirty : (s.site n).dirty = true) (howner : (s.site n).owner = 15) (hidle : (s.site n).wiping = false) (hkey : (s.part p).key ≠ 0)
    (hstate : (s.part p).state ≠ 0) :
    ∃ y : Site, exec (.siteWipe n p false) s = .next (s.setSite n y) ∧ y.wiping = true ∧ y.wipeFor = p ∧
      Map.get (fun _ => 0) y.keys p = (s.part p).key ∧ y.owner = 15 ∧ y.m = (s.site n).m := by
  have hexec : exec (.siteWipe n p false) s = .next (s.wipeStart n p false) := by
    refine s.checked_of (by simp [hn, hp, nSites, nParts]) ?_
    simp [State.siteWipe, hup, hdirty, howner, hidle, hkey, hstate]
  have hcsr := hs.siteCsr n
  have hkeys := Map.get_set_self (k := p) (x := (s.part p).key) (hs.siteKeys n)
  obtain ⟨v, w, hload⟩ := loadKey_rest (s.site n) p (s.part p).key
  unfold State.wipeStart at hexec
  rw [hload] at hexec
  generalize s.site n = x at *
  refine ⟨_, hexec, rfl, rfl, hkeys, Eq.trans ?_ howner, rfl⟩
  exact congrArg (bits · 3 0) ((Map.get_set_ne (Map.wf_set hcsr) (by decide)).trans (Map.get_set_ne hcsr (by decide)))

end Sys2Proof.Machine
end

section
/-!
A wipe that is over, the reserve, the policies of a partition, and the whole of O49 (R39, R401, R424, R433, R458).
-/

namespace Sys2Proof.Machine

/-- A wipe whose writes no injection disturbs clears its range and leaves the rest of the site. -/
theorem zeroMemory_plain {x : Site} {kind : Nat} (lo hi : Nat) (hinj : bits (x.csrWord 0x30) 30 28 ≠ kind) :
    ∃ m, zeroMemory lo hi kind x = { x with m := m } ∧ m.mem = Map.clearRange x.m.mem lo hi := by
  unfold zeroMemory
  dsimp only
  rw [decide_eq_false hinj, Bool.false_and, Bool.false_and, if_neg Bool.false_ne_true]
  exact ⟨_, rfl, rfl⟩

theorem State.restoreChan_frame (s : State) (k p : Nat) : ∃ sites, s.restoreChan k p = { s with sites := sites } := by
  unfold State.restoreChan
  split
  · exact ⟨_, rfl⟩
  · exact ⟨s.sites, rfl⟩

/-- A channel given back is two registers of its sites. -/
theorem State.restoreChan_site {s : State} (k p n : Nat) (hwf : Map.wf blankSite s.sites = true) :
    (s.restoreChan k p).site n = s.site n ∨ (s.restoreChan k p).site n = (s.site n).csrField 0x14 3 0 p := by
  unfold State.restoreChan
  split
  · have hwf' : Map.wf blankSite (s.setSite (2 * k) ((s.site (2 * k)).csrField 0x14 3 0 p)).sites = true := Map.wf_set hwf
    by_cases hodd : n = 2 * k + 1
    · right
      rw [hodd, State.setSite_site_self hwf']
    · rw [State.setSite_site_ne hwf' hodd]
      by_cases heven : n = 2 * k
      · right
        rw [heven, State.setSite_site_self hwf]
      · left
        exact State.setSite_site_ne hwf heven
  · exact .inl rfl

theorem State.confMove_free (s : State) (k : ResKind) (i : Nat) {new : Nat} (hnew : new < 8) :
    s.confMove k i 15 new = s.setConf new ((s.conf new).change k (withUnit i)) := by
  have hnone : ¬ 15 < nParts := by decide
  simp only [State.confMove, if_neg hnone, if_pos (show new < nParts from hnew)]

theorem Site.owner_csrField {x : Site} {p : Nat} (hwf : Map.wf (regReset siteRegs) x.csr = true) (hp : p < 16) : (x.csrField 0x4 3 0 p).owner = p := by
  unfold Site.owner Site.csrField
  rw [Site.csrWord_csrPut_self _ hwf, bits_setBits_self _ (by decide) hp]

/-- A wiped site, given to the partition it was wiped for (R424). -/
def Site.wiped (x : Site) : Site :=
  ({ zeroMemory 0 hbmEnd 1 x with dirty := false, wiping := false, wipeStr := false, wipeFor := 15 } : Site).csrField 0x4 3 0 x.wipeFor

theorem Site.wiped_rest {x : Site} (hinj : bits (x.csrWord 0x30) 30 28 ≠ 1) (hp : x.wipeFor < 16) (hwf : Map.wf (regReset siteRegs) x.csr = true) :
    x.wiped.owner = x.wipeFor ∧ x.wiped.dirty = false ∧ x.wiped.wiping = false ∧ x.wiped.m.mem = Map.clearRange x.m.mem 0 0xC00000000 ∧
      Map.wf (regReset siteRegs) x.wiped.csr = true := by
  obtain ⟨m, hzero, hmem⟩ := zeroMemory_plain 0 hbmEnd hinj
  unfold Site.wiped
  rw [hzero]
  refine ⟨?_, rfl, rfl, hmem, Map.wf_set hwf⟩
  exact Site.owner_csrField hwf hp

/-- What the end of a wipe leaves of the site, in whatever way its channel is given back. -/
theorem Site.csrField_chan (x : Site) (p : Nat) (hwf : Map.wf (regReset siteRegs) x.csr = true) : (x.csrField 0x14 3 0 p).owner = x.owner :=
  congrArg (bits · 3 0) (Map.get_set_ne hwf (by decide))

/-- The state in which site n is given to the partition that it was wiped for (R424). -/
def State.givenSite (s : State) (n : Nat) : State :=
  (s.setSite n (s.site n).wiped).setConf (s.site n).wipeFor ((s.conf (s.site n).wipeFor).change .site (withUnit n))

/-- Site n is wiped: it has the owner it was wiped for, reads zeros, and stands among the units of that partition (R424). -/
def WipeOver (n : Nat) (s u : State) : Prop :=
  (u.site n).owner = (s.site n).wipeFor ∧ (u.site n).dirty = false ∧ (u.site n).wiping = false ∧
    (u.site n).m.mem = Map.clearRange (s.site n).m.mem 0 0xC00000000 ∧ u.tiles = s.tiles ∧
    (s.conf (s.site n).wipeFor).sites.filter (· ≠ n) ++ [n] = (u.conf (s.site n).wipeFor).sites

section WipeOver
variable {s : State} (hs : s.Canon) {n : Nat} (hp : (s.site n).wipeFor < 8) (hinj : bits ((s.site n).csrWord 0x30) 30 28 ≠ 1)
include hs hp hinj

theorem State.givenSite_over : WipeOver n s (s.givenSite n) := by
  obtain ⟨howner, hdirty, hwip, hmem, -⟩ := Site.wiped_rest hinj (by omega) (hs.siteCsr n)
  have hsite : (s.givenSite n).site n = (s.site n).wiped := State.setSite_site_self hs.sites
  have hconf : (s.givenSite n).conf (s.site n).wipeFor = (s.conf (s.site n).wipeFor).change .site (withUnit n) := Map.get_set_self hs.conf
  unfold WipeOver
  rw [hsite, hconf]
  exact ⟨howner, hdirty, hwip, hmem, rfl, rfl⟩

/-- The channel given back with the site changes nothing of this. -/
theorem State.givenSite_chan_over (k p : Nat) : WipeOver n s ((s.givenSite n).restoreChan k p) := by
  have hover := State.givenSite_over hs hp hinj
  obtain ⟨-, -, -, -, hcsr⟩ := Site.wiped_rest hinj (by omega) (hs.siteCsr n)
  have hsite : (s.givenSite n).site n = (s.site n).wiped := State.setSite_site_self hs.sites
  have hwf : Map.wf blankSite (s.givenSite n).sites = true := Map.wf_set hs.sites
  rw [← hsite] at hcsr
  generalize s.givenSite n = v at *
  obtain ⟨howner, hdirty, hwip, hmem, htiles, hsites⟩ := hover
  obtain ⟨sites, hframe⟩ := v.restoreChan_frame k p
  have htiles' : (v.restoreChan k p).tiles = s.tiles := by rw [hframe]; exact htiles
  have hconf' : (v.restoreChan k p).conf (s.site n).wipeFor = v.conf (s.site n).wipeFor := by rw [hframe]; rfl
  unfold WipeOver
  rw [hconf', htiles']
  rcases State.restoreChan_site k p n hwf with h | h
  · rw [h]
    exact ⟨howner, hdirty, hwip, hmem, rfl, hsites⟩
  · rw [h]
    exact ⟨((v.site n).csrField_chan p hcsr).trans howner, hdirty, hwip, hmem, rfl, hsites⟩

theorem State.execWipeComplete_of (hn : n < 48) (hwiping : (s.site n).wiping = true)
    (hplain : (s.site n).wipeStr = false) (hkey : (s.part (s.site n).wipeFor).key ≠ 0)
    (hslot : Map.get (fun _ => 0) (s.site n).keys (s.site n).wipeFor = (s.part (s.site n).wipeFor).key)
    (hq : s.quiescent (s.site n).wipeFor = true) : ∃ u : State, exec (.wipeComplete n) s = .next u ∧ WipeOver n s u := by
  have hgiven : (s.setSite n (s.site n).wiped).confMove .site n 15 (s.site n).wipeFor = s.givenSite n := State.confMove_free _ _ _ hp
  have hdone : s.wipeDone n = if ((s.givenSite n).conf (s.site n).wipeFor).chans.contains (n / 2) then
      (s.givenSite n).restoreChan (n / 2) (s.site n).wipeFor else s.givenSite n := by
    rw [← hgiven]
    unfold State.wipeDone
    simp only [hwiping, hplain, hq, hslot, hkey, Bool.not_true, Bool.not_false, Bool.and_false, Bool.or_self, Bool.false_eq_true, if_false,
      ne_eq, not_false_iff, decide_true, Bool.and_self, if_true]
    rfl
  refine ⟨_, s.checked_of (decide_eq_true hn) hdone, ?_⟩
  split
  · exact State.givenSite_chan_over hs hp hinj _ _
  · exact State.givenSite_over hs hp hinj

end WipeOver

/-- The reserve that is asked for (R458). -/
theorem State.execReserveSet_of {s : State} (hs : s.Canon) (hup : s.mod.cc.up = true) {count : Nat} {named : List Nat} (hcount : count ≤ 2)
    (hnamed : ∀ f ∈ named, f < 70) : ∃ u : State, exec (.reserveSet count named) s = .next (u.say (.redfish true 1)) ∧
      u.mod.cc.reserveCount = count ∧ u.mod.cc.reserveNamed = named ∧
      (∀ t, { u.tile t with credit := none } = { s.tile t with credit := none }) ∧ u.parts = s.parts := by
  have hok : (decide (count ≤ 2) && named.all fun f => decide (f < nFields)) = true := by
    rw [decide_eq_true hcount, Bool.true_and, List.all_eq_true]
    exact fun f hf => decide_eq_true (hnamed f hf)
  have hwork := (s.updMod fun m => { m with cc := { m.cc with reserveCount := count, reserveNamed := named } }).fillReserve_reserveWork
  exact ⟨_, s.checked_of hok (if_pos hup), hwork.count, hwork.named, (hwork.tiles hs.tiles).2, hwork.parts⟩

section Policies
variable {s : State} {p : Nat} (hp : p < 8) (hup : s.mod.cc.up = true)
include hp hup

theorem State.execQuietWindowSet_of (on : Bool) : exec (.quietWindowSet p on) s =
    .next ((s.setPart p { s.part p with quiet := on }).say (.redfish true 1)) := s.checked_of (decide_eq_true hp) (if_pos hup)

theorem State.execDebugPolicySet_refused (on : Bool) (hstate : (s.part p).state ≠ 1) :
    exec (.debugPolicySet p on) s = .next (s.say (.redfish false 2)) := by
  refine s.checked_of (decide_eq_true hp) ?_
  unfold State.debugPolicy
  simp [hup, hstate]

/-- A debug policy is set, and the partition is reset (R433). -/
theorem State.execDebugPolicySet_of (hs : s.Canon) (on : Bool) (hstate : (s.part p).state = 1) (hq : s.quiescent p = true) :
    ∃ u : State, exec (.debugPolicySet p on) s = .next (u.say (.redfish true 1)) ∧ bits (u.ez (0x5100 + 4 * p)) 0 0 = nb on ∧
      (u.part p).state = 4 ∧ (u.part p).reset = true := by
  have hpart : (s.ezField (0x5100 + 4 * p) 0 0 (nb on)).part p = s.part p := rfl
  have hstate' : ((s.ezField (0x5100 + 4 * p) 0 0 (nb on)).part p).state = 1 := hstate
  have hbit : bits ((s.ezField (0x5100 + 4 * p) 0 0 (nb on)).ez (0x5100 + 4 * p)) 0 0 = nb on := by
    rw [State.ezField, State.ez_ezPut_self _ _ hs.modCsr, bits_setBits_self _ (by decide) (by cases on <;> decide)]
  have hwf : Map.wf (regReset modRegs) (s.ezField (0x5100 + 4 * p) 0 0 (nb on)).mod.csr = true := State.ezPut_wf _ _ hs.modCsr
  have hparts : Map.wf (fun _ => ({} : Part)) (s.ezField (0x5100 + 4 * p) 0 0 (nb on)).parts = true := hs.parts
  have hdone : s.debugPolicy p on = ((s.ezField (0x5100 + 4 * p) 0 0 (nb on)).partCommand p 2).say (.redfish true 1) := by
    unfold State.debugPolicy
    simp [hup, hstate, hq]
  refine ⟨_, s.checked_of (decide_eq_true hp) hdone, ?_⟩
  generalize s.ezField (0x5100 + 4 * p) 0 0 (nb on) = d at *
  have hreset : d.partCommand p 2 = (d.requestAbort p 7).setPart p { (d.requestAbort p 7).part p with reset := true, after := 1 } := by
    simp only [State.partCommand, hstate', show (1 : Nat) ≠ 5 by decide, show (1 : Nat) ≠ 0 by decide, if_false]
  have hwork := d.requestAbort_abortWork p 7
  have haborted := State.requestAbort_part (s := d) (cause := 7) hparts hp (by omega) (by omega) (by omega)
  obtain ⟨-, hez⟩ := hwork.csr hwf
  have hset := State.setPart_part_self (s := d.requestAbort p 7) (i := p) (x := { (d.requestAbort p 7).part p with reset := true, after := 1 })
    (hwork.parts hparts).1
  rw [hreset, hset]
  exact ⟨(congrArg (bits · 0 0) (hez _ (by omega))).trans hbit, haborted.1, rfl⟩

theorem State.execHostKeyRegister_of {slot rights : Nat} (hslot : slot < 4) (hrights : rights < 4) (key : Option Nat) (hstate : (s.part p).state ≠ 0) :
    exec (.hostKeyRegister p slot key rights) s = .next ((s.setConf p { s.conf p with
      keys := match key with
        | some k => ((s.conf p).keys.filter fun k => k.slot ≠ slot) ++ [{ slot := slot, key := k, rights := rights }]
        | none => (s.conf p).keys.filter fun k => k.slot ≠ slot }).say (.redfish true 1)) := by
  have hok : (decide (p < nParts) && decide (slot < 4)) = true := by simp [hp, hslot, nParts]
  have hmay : ¬ 4 ≤ rights := by omega
  refine s.checked_of hok ?_
  unfold State.hostKey
  cases key <;> simp only [hup, hstate, hmay, Bool.not_true, decide_false, Bool.or_self, Bool.false_eq_true, if_false]

end Policies

end Sys2Proof.Machine

namespace Sys2Proof

open Machine

/-- Settles O49: each command by what it changes; a freed partition by the map of partitions that stays canonical. -/
theorem capacity : Obligations.Capacity := by
  unfold Obligations.Capacity
  intro s hcanon
  have hs := State.canon hcanon
  refine ⟨fun hexists => ⟨congrArg Host.Outcome.next (if_pos hexists), fun hdown => ?_⟩, fun hup => ⟨fun k i new hwf => ⟨fun howner => ⟨?_, ?_⟩,
    fun howner n hn hbad => State.capacityChange_refused hup hwf howner hn hbad, fun howner hbad => State.capacityChange_waits hup hwf howner hbad,
    fun howner hbad => State.capacityChange_done hup hwf howner hbad⟩, fun q _ old new hnew => State.capacityDo_port hs q old hnew,
    fun p hp cert limit hlimit hnone hrng => State.execPartitionDefine_of hs hup hp cert hlimit hnone hrng,
    fun p hp hstate hjob hq => State.execPartitionFree_of hs hup hp hstate hjob hq,
    fun n hn p hp hdirty howner hidle hkey hstate => State.execSiteWipe_of hs hup hn hp hdirty howner hidle hkey hstate,
    fun n hn hwiping hplain hp hkey hslot hinj hq => State.execWipeComplete_of hs hp hinj hn hwiping hplain hkey hslot hq,
    fun count named hcount hnamed => State.execReserveSet_of hs hup hcount hnamed,
    fun p hp on => ⟨State.execQuietWindowSet_of hp hup on, State.execDebugPolicySet_refused hp hup on, State.execDebugPolicySet_of hp hup hs on⟩,
    fun p hp slot hslot key rights hstate hrights => ⟨State.execHostKeyRegister_of hp hup hslot hrights (some key) hstate,
      State.execHostKeyRegister_of hp hup hslot hrights none hstate⟩⟩⟩
  · obtain ⟨mail, out, hframe⟩ := State.ccUp_frame hdown
    exact ⟨_, congrArg Host.Outcome.next ((if_pos hexists).trans hframe), rfl, rfl, rfl, rfl, rfl⟩
  · intro c hfind hsite
    rw [State.capacityChange_same hup hwf howner, State.sameOwner, State.enableSite_of hsite, hfind]
  · intro hfind
    refine ⟨fun hsite => ?_, fun hk h3 => ?_⟩
    · rw [State.capacityChange_same hup hwf howner, State.sameOwner, State.enableSite_of hsite, hfind]
      rfl
    · subst hk
      rw [State.capacityChange_same hup hwf howner, State.sameOwner, State.enableSite_disabled h3, hfind]
      exact ⟨_, rfl⟩

end Sys2Proof
end

section
/-!
The shared laws of the outer-product engine: a command on a tile that is on and raises nothing, and the reads of an accumulator set after
a set is replaced.
-/

namespace Sys2Proof.Machine

section TileOn
variable {s : State} {t : Nat} (hon : s.tileOn t = true)
include hon

/-- A tile that is on is one of the wafer's, and its field is on. -/
theorem State.tileOn_power : t < nTiles ∧ (s.field (fieldOf t)).power = 2 := by
  simpa [State.tileOn, isTile, nTiles] using hon

/-- A command on a tile leaves the tile that it makes, with the records that it raises. -/
theorem State.onTile_of_on {f : Env → TS → TS} {y : Tile} {l : List Rec}
    (hf : f (s.tileEnv t) { t := s.tile t, free := s.free } = { t := y, free := s.free, recs := l }) :
    (if (s.field (fieldOf t)).power = 2 then s.onTile t f else s) = (s.setTile t y).raiseAll l := by
  rw [if_pos (State.tileOn_power hon).2, State.onTile, hf]

theorem State.tileDo_on {f : Env → TS → TS} {y : Tile} (hf : f (s.tileEnv t) { t := s.tile t, free := s.free } = { t := y, free := s.free }) :
    s.tileDo t f = .next (s.setTile t y) :=
  s.checked_of (decide_eq_true (State.tileOn_power hon).1) (State.onTile_of_on hon hf)

section Set
variable {f : Env → TS → TS} {k : Nat} {y : Tile} {l : List Rec} (hk : k < 2)
include hk

theorem State.setDo_raising (hf : f (s.tileEnv t) { t := s.tile t, free := s.free } = { t := y, free := s.free, recs := l }) :
    s.setDo t k f = .next ((s.setTile t y).raiseAll l) :=
  s.checked_of (by simp [State.tileOn_power hon, hk]) (State.onTile_of_on hon hf)

theorem State.setDo_on (hf : f (s.tileEnv t) { t := s.tile t, free := s.free } = { t := y, free := s.free }) :
    s.setDo t k f = .next (s.setTile t y) :=
  State.setDo_raising hon hk hf

end Set

end TileOn

@[simp] theorem accSet_setAcc_self (o : Ope) (k : Nat) (a : AccSet) : accSet (setAcc o k a) k = a := by
  unfold accSet setAcc; split <;> rfl

theorem accSet_setAcc_other (o : Ope) {k : Nat} (a : AccSet) (hk : k < 2) : accSet (setAcc o k a) (1 - k) = accSet o (1 - k) := by
  obtain rfl | rfl : k = 0 ∨ k = 1 := by omega
  all_goals rfl

@[simp] theorem setAcc_accSet (o : Ope) (k : Nat) : setAcc o k (accSet o k) = o := by
  unfold accSet setAcc; split <;> rfl

@[simp] theorem setAcc_zero (o : Ope) (k : Nat) (a : AccSet) : (setAcc o k a).zero = o.zero := by
  unfold setAcc; split <;> rfl

@[simp] theorem setAcc_halted (o : Ope) (k : Nat) (a : AccSet) : (setAcc o k a).halted = o.halted := by
  unfold setAcc; split <;> rfl

@[simp] theorem setAcc_replay (o : Ope) (k : Nat) (a : AccSet) : (setAcc o k a).replay = o.replay := by
  unfold setAcc; split <;> rfl

end Sys2Proof.Machine
end

section
/-!
A feed beat (R197): what it reads where every word is good and no slot is claimed twice, and what it adds to the cells of a set. The
checksum cells (R62) stand apart from the data cells: column 32 of a row of 33, row 32, and the magnitudes from 1089.
-/

namespace Sys2Proof.Machine

/-- The physical word of a read of the product's beat. -/
def FeedRead.index (x : Tile) (p : Product) (r : FeedRead) : Nat := rgPhys (region x r.rg) (startOff p r.src + r.off)

/-- The feed port that reads a source. -/
def FeedRead.port (r : FeedRead) : Nat := match r.src with | .row => 1 | .rowScale => 1 | _ => 0

/-- The words that the product's beat reads of one source. -/
def beatSrc (x : Tile) (p : Product) (k : FeedSrc) : List Word :=
  ((beatReads p).filter fun r => decide (r.src = k)).map fun r => Map.get (fun _ => 0#32) x.spd (r.index x p)

/-- The words of a latch after a beat that reads `ws`: a beat that reads none leaves it. -/
def latched (old ws : List Word) : List Word := if ws.isEmpty then old else ws

/-- The lanes of the column feed in the product's beat. -/
def colLanes (x : Tile) (p : Product) : List (List Val) :=
  lanes p false (beatSrc x p .col) (latched x.ope.latchCS (beatSrc x p .colScale)) x.ope.latchC

/-- The lanes of the row feed in the product's beat. -/
def rowLanes (x : Tile) (p : Product) : List (List Val) :=
  lanes p true (beatSrc x p .row) (latched x.ope.latchRS (beatSrc x p .rowScale)) x.ope.latchR

/-- The OPE after a beat whose words are as stored. -/
def fedOpe (x : Tile) (p : Product) : Ope :=
  { setAcc { x.ope with latchCS := latched x.ope.latchCS (beatSrc x p .colScale), latchRS := latched x.ope.latchRS (beatSrc x p .rowScale) }
      (passSet p) (contribute (accSet x.ope (passSet p)) p (colLanes x p) (rowLanes x p)) with
    feed := if (nextBeat p).fed then none else some (nextBeat p)
    latchC := latched x.ope.latchC (beatSrc x p .col)
    latchR := latched x.ope.latchR (beatSrc x p .row) }

theorem fedOpe_set (x : Tile) (p : Product) :
    accSet (fedOpe x p) (passSet p) = contribute (accSet x.ope (passSet p)) p (colLanes x p) (rowLanes x p) :=
  accSet_setAcc_self _ _ _

/-- Where nothing waits to be released, nothing is. -/
theorem settle_idle {x : Tile} (id : Nat) (hzero : x.ope.zero = []) (h0 : x.ope.set0.phase ≠ .held) (h1 : x.ope.set1.phase ≠ .held) :
    settle id x = x := by
  simp [settle, hzero, h0, h1]

theorem srcWords_map (l : List FeedRead) (f : FeedRead → Word) (k : FeedSrc) :
    srcWords (l.map fun r => (r.src, f r)) k = (l.filter fun r => decide (r.src = k)).map f := by
  induction l with
  | nil => rfl
  | cons r l ih =>
    by_cases hk : r.src = k
    · simpa [srcWords, hk] using ih
    · simpa [srcWords, hk] using ih

section FeedBeat
variable {x : Tile} {p : Product} (hinj : injKind x ≠ 1)
include hinj

/-- Good words in slots of their own are read as stored, and the tile stays as it is (R122, R125, R438). -/
theorem beatWords_good (id free : Nat) {bad : Claim → Bool} : ∀ {l : List FeedRead} {cs : List Claim}, cs.length = l.length →
    (∀ r ∈ l, goodWord x r.port (some r.rg) (r.index x p) = true) → (∀ c ∈ cs, bad c = false) →
    beatWords id p bad { t := x, free := free } l cs =
      ({ t := x, free := free }, l.map fun r => (r.src, Map.get (fun _ => 0#32) x.spd (r.index x p)), none)
  | [], [], _, _, _ => rfl
  | r :: l, c :: cs, hlen, hgood, hslot => by
    have hrest := beatWords_good id free (l := l) (cs := cs) (Nat.succ.inj hlen) (fun q hq => hgood q (List.mem_cons_of_mem _ hq))
      fun d hd => hslot d (List.mem_cons_of_mem _ hd)
    have hread := readPhys_good id free (hgood r List.mem_cons_self) hinj
    have hbad : bad c = false := hslot c List.mem_cons_self
    simp only [beatWords]
    generalize hword : readPhys id _ _ _ _ = word
    obtain rfl := hword.symm.trans hread
    simp only [hbad, Bool.false_eq_true, if_false, hrest, if_true, List.map_cons]

variable {e : Env} (hdebug : e.debug = false) (hpresent : present x p = true)
  (hgood : ∀ r ∈ beatReads p, goodWord x r.port (some r.rg) (r.index x p) = true)
  (hslot : ∀ c ∈ claimsOf x p, slotHit (claimsOf x p) c = false)
include hdebug hpresent hgood hslot

theorem feedBeat_good (free : Nat) :
    feedBeat e { t := x, free := free } p = .ok { t := { x with ope := fedOpe x p }, free := free } := by
  have hwords := beatWords_good hinj e.id free (by simp [claimsOf]) hgood hslot
  simp only [feedBeat, hpresent, hdebug, Bool.not_true, Bool.false_and, Bool.false_eq_true, if_false, readBeat, hwords, srcWords_map]
  rfl

variable (hhalt : x.ope.halted = false) (hzero : x.ope.zero = []) (h0 : x.ope.set0.phase ≠ .held) (h1 : x.ope.set1.phase ≠ .held)
  (hfeed : x.ope.feed = some p) (hdrains : takeDrains 4 x.ope = x.ope)
include hhalt hzero h0 h1 hfeed hdrains

theorem tFeedBeat_good (free : Nat) :
    tFeedBeat e { t := x, free := free } = .ok { t := { x with ope := fedOpe x p }, free := free } := by
  have hnext : nextFeed e { t := x, free := free } = .ok { t := x, free := free } := by
    simp only [nextFeed, TS.upd, hdrains, hfeed]
  have hbeat := feedBeat_good hinj hdebug hpresent hgood hslot free
  simp only [tFeedBeat, hhalt, Bool.false_eq_true, if_false, TS.upd, settle_idle e.id hzero h0 h1, hnext, Res.andThen, hfeed, hbeat, haltOpe]

end FeedBeat

theorem lanes_length {p : Product} (hcube : p.cube = false) (row : Bool) (ws sc latch : List Word) : (lanes p row ws sc latch).length = 32 := by
  simp only [lanes, hcube, Bool.false_eq_true, if_false, apply_ite List.length, List.length_map, List.length_range, ite_self]

/-- The cells of a set are in their canonical form. -/
def AccSet.cellsWf (a : AccSet) : Prop := Map.wf (fun _ => 0#32) a.cells = true

theorem addCell_cellsWf {a : AccSet} (k : Nat) (v : Val) (h : a.cellsWf) : (addCell a k v).cellsWf := Map.wf_set h

theorem cellAt_addCell_self {a : AccSet} (k : Nat) (v : Val) (h : a.cellsWf) : cellAt (addCell a k v) k = accumulate (cellAt a k) v :=
  Map.get_set_self h

theorem cellAt_addCell_ne {a : AccSet} {k j : Nat} (v : Val) (h : a.cellsWf) (hj : j ≠ k) : cellAt (addCell a k v) j = cellAt a j :=
  Map.get_set_ne h hj

/-- Only cells whose key `K` holds of changed. -/
def CellWork (K : Nat → Prop) (a b : AccSet) : Prop := a.cellsWf → b.cellsWf ∧ ∀ j, ¬ K j → cellAt b j = cellAt a j

section CellWork
variable {K : Nat → Prop}

theorem CellWork.refl (a : AccSet) : CellWork K a a := fun h => ⟨h, fun _ _ => rfl⟩

theorem CellWork.trans {a b c : AccSet} (h : CellWork K a b) (k : CellWork K b c) : CellWork K a c := fun hwf =>
  have ⟨hb, hab⟩ := h hwf
  have ⟨hc, hbc⟩ := k hb
  ⟨hc, fun j hj => (hbc j hj).trans (hab j hj)⟩

theorem CellWork.addCell (a : AccSet) {k : Nat} (v : Val) (hk : K k) : CellWork K a (addCell a k v) := fun h =>
  ⟨addCell_cellsWf k v h, fun _ hj => cellAt_addCell_ne v h fun heq => hj (heq ▸ hk)⟩

theorem CellWork.keff {a b : AccSet} (h : CellWork K a b) (n : Nat) : CellWork K a { b with keff := n } := h

theorem CellWork.foldl {step : AccSet → Nat → AccSet} : ∀ {l : List Nat}, (∀ a, ∀ k ∈ l, CellWork K a (step a k)) →
    ∀ a, CellWork K a (l.foldl step a)
  | [], _, a => .refl a
  | k :: _, h, a => (h a k List.mem_cons_self).trans (CellWork.foldl (fun b i hi => h b i (List.mem_cons_of_mem _ hi)) _)

end CellWork

/-- One data cell of the 32 × 32 in the order of their pairs of lanes. -/
def dataStep (p : Product) (A B : List (List Val)) (a : AccSet) (k : Nat) : AccSet :=
  if p.mask.getLsbD (k / 32) && !skipTerm p (nth [] A (k / 32)) (nth [] B (k % 32)) then
    addCell a (33 * (k / 32) + k % 32) (term (nth [] A (k / 32)) (nth [] B (k % 32)))
  else a

/-- A step changes no cell but its own. -/
theorem dataStep_work (p : Product) (A B : List (List Val)) {K : Nat → Prop} {k : Nat} (hk : K (33 * (k / 32) + k % 32)) (a : AccSet) :
    CellWork K a (dataStep p A B a k) := by
  unfold dataStep
  split
  · exact .addCell a _ hk
  · exact .refl a

/-- The key of a cell of the checksum row, of the checksum column or of their magnitudes. -/
def CkKey (k : Nat) : Prop := k % 33 = 32 ∨ 1056 ≤ k

/-- A beat's contributions change checksum cells alone once the data cells are added. -/
theorem contribute_work {p : Product} (hcube : p.cube = false) (s : AccSet) {A : List (List Val)} (B : List (List Val)) (hA : A.length = 32) :
    CellWork CkKey ((List.range 1024).foldl (dataStep p A B) s) (contribute s p A B) := by
  have two (a : AccSet) {k m : Nat} (v w : Val) (hk : CkKey k) (hm : CkKey m) : CellWork CkKey a (addCell (addCell a k v) m w) :=
    (CellWork.addCell a v hk).trans (.addCell _ w hm)
  simp only [contribute, hA, hcube, Bool.false_eq_true, if_false]
  -- Backwards from the last contribution: the corner, the checksum row, the checksum column.
  refine CellWork.keff ?_ _
  refine CellWork.trans ?_ (two _ _ _ (.inr (by omega)) (.inr (by omega)))
  refine CellWork.trans ?_ (CellWork.foldl (fun a j _ => two a _ _ (.inr (by omega)) (.inr (by omega))) _)
  refine CellWork.trans (.refl _) (CellWork.foldl (fun a i _ => ?_) _)
  split
  · exact two a _ _ (.inl (by omega)) (.inr (by omega))
  · exact .refl a

/-- The data cell of row i and column j after the steps of every pair of lanes: its own step alone reaches it. -/
theorem cellAt_dataSteps {i j : Nat} (hi : i < 32) (hj : j < 32) (p : Product) (A B : List (List Val)) {a : AccSet} (hwf : a.cellsWf) :
    cellAt ((List.range 1024).foldl (dataStep p A B) a) (33 * i + j) =
      if p.mask.getLsbD i && !skipTerm p (nth [] A i) (nth [] B j) then accumulate (cellAt a (33 * i + j)) (term (nth [] A i) (nth [] B j))
      else cellAt a (33 * i + j) := by
  obtain ⟨before, after, hsplit⟩ := List.append_of_mem (List.mem_range.mpr (show 32 * i + j < 1024 by omega))
  have hnodup : (before ++ (32 * i + j) :: after).Nodup := hsplit ▸ List.nodup_range
  have hnot : 32 * i + j ∉ before ++ after := (List.nodup_middle.mp hnodup).notMem
  have others {l : List Nat} (hl : 32 * i + j ∉ l) (b : AccSet) : CellWork (· ≠ 33 * i + j) b (l.foldl (dataStep p A B) b) :=
    .foldl (fun c k hk => dataStep_work p A B (fun heq => hl (by rwa [show 32 * i + j = k by omega])) c) b
  have hdiv : (32 * i + j) / 32 = i := by omega
  have hmod : (32 * i + j) % 32 = j := by omega
  obtain ⟨hwf1, hcell1⟩ := others (fun h => hnot (List.mem_append_left _ h)) a hwf
  rw [hsplit, List.foldl_append, List.foldl_cons, ← hcell1 _ (not_not.mpr rfl)]
  obtain ⟨hwf2, -⟩ := dataStep_work p A B (K := fun _ => True) (k := 32 * i + j) trivial (before.foldl (dataStep p A B) a) hwf1
  rw [(others (fun h => hnot (List.mem_append_right _ h)) _ hwf2).2 _ (not_not.mpr rfl)]
  simp only [dataStep, hdiv, hmod]
  split
  · exact cellAt_addCell_self _ _ hwf1
  · rfl

end Sys2Proof.Machine

namespace Sys2Proof
open Machine

/-- Settles O19: the beat reads its words as stored; the data cell of a pair of lanes is reached by its own term alone. -/
theorem opeFeedBeat : Obligations.OpeFeedBeat := by
  unfold Obligations.OpeFeedBeat
  intro t s p hon hdebug x idx words scale A B old hhalt hzero h0 h1 hfeed hcube hdrains hpresent hinj hgood hslot hwf
  have hbeat := tFeedBeat_good (e := s.tileEnv t) hinj hdebug hpresent hgood hslot hhalt hzero h0 h1 hfeed hdrains s.free
  refine ⟨{ x with ope := fedOpe x p }, State.tileDo_on hon (congrArg (Res.out · _) hbeat), rfl, rfl, fun i j hi hj => ?_⟩
  obtain ⟨hdata, -⟩ := CellWork.foldl (K := fun _ => True) (fun a k _ => dataStep_work p A B trivial a) old hwf
  obtain ⟨-, hck⟩ := contribute_work hcube old B (lanes_length hcube false _ _ _) hdata
  have hnot : ¬ CkKey (33 * i + j) := by unfold CkKey; omega
  exact (congrArg (cellAt · _) (fedOpe_set x p)).trans ((hck _ hnot).trans (cellAt_dataSteps hi hj p A B hwf))

end Sys2Proof
end

section
/-!
The sets of the OPE (R51, R52, R61 to R67): when a set becomes ready and drains, what a comparison leaves, and what the release of a set
that stands alone does.
-/

namespace Sys2Proof.Machine

section Set
variable {x : Tile} {k : Nat}

/-- A set of which nothing is at the feed and nothing is to be replayed becomes ready (R51). -/
theorem tSetReady_fed (hphase : (accSet (takeDrains 4 x.ope) k).phase = .accumulating)
    (hfeed : ∀ p, (takeDrains 4 x.ope).feed = some p → p.set ≠ k ∧ p.cpx = false)
    (hreplay : ∀ p ∈ (takeDrains 4 x.ope).replay, p.set ≠ k ∧ p.cpx = false) :
    tSetReady x k = { x with ope := setAcc (takeDrains 4 x.ope) k { accSet (takeDrains 4 x.ope) k with phase := .ready } } := by
  have hagain : ((takeDrains 4 x.ope).replay.any fun p => decide (p.set = k) || p.cpx) = false := by
    simpa [List.any_eq_false] using hreplay
  cases hp : (takeDrains 4 x.ope).feed with
  | none => simp [tSetReady, hphase, hp, hagain]
  | some p =>
    obtain ⟨hset, hcpx⟩ := hfeed p hp
    simp [tSetReady, hphase, hp, hagain, hset, hcpx]

/-- A ready set whose drain is in force, whose turn it is and whose destination has room begins to drain (R51, R52, R177, R274). -/
theorem tDrainStart_ready {d : Drain} {o : Ope} (ho : takeDrains 4 x.ope = o) (hdrn : (accSet o k).drn = some d)
    (hphase : (accSet o k).phase = .ready) (hport : (accSet o (1 - k)).phase ≠ .draining)
    (hmap : d.dst = 1 → bit (csrWord x (0xA00 + 4 * d.drg)) 31 = true) (hcpx : d.cpx = true → k = 1 → (accSet o (1 - k)).phase = .held)
    {blocks : Nat} (hblocks : (if d.cpx = true ∧ d.dst = 1 ∧ k = 0 then 2 else 1) = blocks)
    (hspace : blocks * drainWords d + (keptByOther (accSet o (1 - k)) (accSet o k) d.drg).1 ≤ (region x d.drg).space)
    (hstage : d.dst = 0 ∨ x.rtr.stage.length + blocks + (keptByOther (accSet o (1 - k)) (accSet o k) d.drg).2 ≤ 256) (e : Env) (free : Nat) :
    tDrainStart e { t := x, free := free } k =
      .ok { t := { x with ope := setAcc o k { accSet o k with phase := .draining } }, free := free } := by
  have hmodel : (if (d.cpx && decide (d.dst = 1) && decide (k = 0)) = true then 2 else 1) = blocks := by
    simpa [and_assoc] using hblocks
  have hstaging : (decide (d.dst = 1) && !bit (csrWord x (0xA00 + 4 * d.drg)) 31) = false := by
    by_cases hdst : d.dst = 1
    · simp [hmap hdst]
    · simp [hdst]
  have hroom : (decide (d.dst = 0) ||
      decide (x.rtr.stage.length + blocks + (keptByOther (accSet o (1 - k)) (accSet o k) d.drg).2 ≤ 256)) = true := by
    simpa using hstage
  have hturn : (!(d.cpx && decide (k = 1)) || decide ((accSet o (1 - k)).phase = .held)) = true := by
    by_cases hsecond : d.cpx = true ∧ k = 1
    · simp [hcpx hsecond.1 hsecond.2]
    · rw [Bool.or_eq_true, Bool.not_eq_true', ← Bool.not_eq_true, Bool.and_eq_true, decide_eq_true_eq]
      exact .inl hsecond
  simp only [tDrainStart, ho, hdrn, hmodel, hphase, hstaging, hport, hspace, hroom, hturn, ne_eq, not_false_eq_true, decide_true,
    Bool.true_and, Bool.and_true, Bool.false_eq_true, if_false, if_true]
  rfl

/-- The counters after a comparison (R63, R65): the skipped lines, and a count for every 65,536 comparisons. -/
def checkCounted (x : Tile) (skips : Nat) : Tile :=
  let y := csrCount x 0x408 31 0 skips
  if x.ope.ckFrac + 1 = 65536 then csrCount { y with ope := { y.ope with ckFrac := 0 } } 0x404 15 0 1
  else { y with ope := { y.ope with ckFrac := x.ope.ckFrac + 1 } }

theorem checkCounted_frame (x : Tile) (skips : Nat) :
    ∃ csr frac, checkCounted x skips = { x with csr := csr, ope := { x.ope with ckFrac := frac } } := by
  unfold checkCounted
  dsimp only
  split <;> exact ⟨_, _, rfl⟩

theorem passedSet_eq (x : Tile) (k skips : Nat) : passedSet x k skips = { checkCounted x skips with
    ope := setAcc (checkCounted x skips).ope k { accSet (checkCounted x skips).ope k with phase := .held } } := rfl

section Check
variable (hphase : (accSet x.ope k).phase = .draining) (hhalt : x.ope.halted = false) (hcube : x.ope.cube = false) (hinj : injKind x ≠ 2)
include hphase hhalt hcube hinj

/-- A comparison that passes leaves the set to be released in its turn (R52, R61). -/
theorem tCheck_passed {skips : Nat} (hresult : ckResult (accSet x.ope k) = (none, skips)) (e : Env) (free : Nat) :
    tCheck e { t := x, free := free } k [] = .ok { t := settle e.id (passedSet x k skips), free := free } := by
  simp [tCheck, hphase, hhalt, hcube, hinj, hresult, TS.upd, passedSet]

/-- A comparison that fails is counted, then taken as the failure of its line. -/
theorem tCheck_failed {line : Bool × Nat} {skips : Nat} (hresult : ckResult (accSet x.ope k) = (some line, skips)) (e : Env) (free : Nat) :
    ∃ pc, tCheck e { t := x, free := free } k [] =
      ckFailed e { t := checkCounted x skips, free := free } k (accSet (checkCounted x skips).ope k) pc line.1 line.2 false := by
  simp only [tCheck, hphase, hhalt, hcube, hinj, hresult, TS.upd, List.foldl_nil, setAcc_accSet, ne_eq, not_true_eq_false, decide_false,
    Bool.or_self, Bool.false_and, Bool.false_eq_true, if_false]
  exact ⟨_, rfl⟩

end Check

/-- The OPE once set `k` is emptied and its products wait to be fed again (R67). -/
def replayed (o : Ope) (k : Nat) (a : AccSet) : Ope :=
  { setAcc o k (replaySet a) with replay := (setAcc o k (replaySet a)).replay ++ a.prods.map rewind }

theorem replayed_set (o : Ope) (k : Nat) (a : AccSet) : accSet (replayed o k a) k = replaySet a := accSet_setAcc_self _ _ _

theorem replayed_replay (o : Ope) (k : Nat) (a : AccSet) : (replayed o k a).replay = o.replay ++ a.prods.map rewind := by
  simp only [replayed, setAcc_replay]

/-- A failure before the third attempt of a set that holds no complex product is recorded with SOURCE 0x02 and replayed (R66, R67). -/
theorem ckFailed_replayed (e : Env) (ts : TS) (k : Nat) {a : AccSet} (pc : Nat) (col : Bool) (idx : Nat) (inj : Bool)
    (hattempt : a.attempt < 3) (hcpx : accCpx a = false) :
    ∃ (y : Tile) (r : Rec), ckFailed e ts k a pc col idx inj = .ok (TS.raise { ts with t := y } r) ∧ r.source = 0x02 ∧ r.cls = 2 ∧
      r.loc = e.id ∧ y.ope = replayed ts.t.ope k a := by
  simp only [ckFailed, Nat.not_le.mpr hattempt, if_false, hcpx, Bool.false_eq_true]
  refine ⟨_, _, rfl, rfl, rfl, rfl, ?_⟩
  split <;> rfl

end Set

/-- The block of a set written out, the operands of its products released, and the set emptied (R61, R66). -/
def releasedSet (id : Nat) (t : Tile) (k : Nat) (ps : List Product) : Tile :=
  { ps.foldl releaseOperands (releaseBlock id t k) with ope := setAcc (ps.foldl releaseOperands (releaseBlock id t k)).ope k {} }

theorem storeMasked_ope (r : Region) (m : Nat → Nat) : ∀ (l : List Word) (t : Tile) (o i : Nat), (storeMasked t r m o i l).ope = t.ope
  | [], _, _, _ => rfl
  | _ :: l, t, o, i => storeMasked_ope r m l (writeBytes t _ _ _) (o + 1) (i + 1)

/-- A fold whose steps keep the OPE keeps it. -/
theorem foldl_ope {α : Type} {step : Tile → α → Tile} (h : ∀ t a, (step t a).ope = t.ope) : ∀ (l : List α) (t : Tile),
    (l.foldl step t).ope = t.ope
  | [], _ => rfl
  | a :: l, t => (foldl_ope h l (step t a)).trans (h t a)

theorem releaseOperands_ope (t : Tile) (p : Product) : (releaseOperands t p).ope = t.ope := by
  refine foldl_ope ?_ _ _
  exact fun _ _ => rfl

theorem writeBlock_ope (id : Nat) (t : Tile) (a : AccSet) (d : Drain) : (writeBlock id t a d).ope = t.ope :=
  foldl_ope (fun _ _ => storeMasked_ope _ _ _ _ _ _) _ _

theorem releaseBlock_ope (id : Nat) (t : Tile) (k : Nat) : (releaseBlock id t k).ope = t.ope := by
  simp only [releaseBlock]
  split
  · rfl
  · split <;> exact writeBlock_ope id t _ _

theorem releasedSet_ope (id : Nat) (t : Tile) (k : Nat) (ps : List Product) : (releasedSet id t k ps).ope = setAcc t.ope k {} := by
  simp only [releasedSet, foldl_ope releaseOperands_ope, releaseBlock_ope]

theorem releaseZero_nil {t : Tile} (h : t.ope.zero = []) : releaseZero t = t := by
  simp [releaseZero, h]

theorem releaseSet_notHeld {t : Tile} {k : Nat} (id : Nat) (h : (accSet t.ope k).phase ≠ .held) : releaseSet id t k = t := by
  simp [releaseSet, h]

/-- Where no set waits to be released, nothing is. -/
theorem releaseAll_idle {t : Tile} (id : Nat) (hzero : t.ope.zero = []) (h0 : (accSet t.ope 0).phase ≠ .held)
    (h1 : (accSet t.ope 1).phase ≠ .held) : ∀ n, releaseAll id n t = t
  | 0 => rfl
  | n + 1 => by
    simp only [releaseAll, releaseZero_nil hzero, releaseSet_notHeld id h0, releaseSet_notHeld id h1]
    exact releaseAll_idle id hzero h0 h1 n

section Alone
variable {t : Tile} {k : Nat} {d : Drain} (hk : k < 2) (hheld : (accSet t.ope k).phase = .held) (hdrn : (accSet t.ope k).drn = some d)
  (hcpx : d.cpx = false) (hother : accSet t.ope (1 - k) = {}) (hzero : t.ope.zero = [])
  (hmay : mayAdvance t (accSet t.ope k).prods [d] = true)
include hheld hdrn hcpx hother hzero hmay

/-- A set that has passed its check is released at once where no other product is uncompleted (R52). -/
theorem releaseSet_alone (id : Nat) : releaseSet id t k = releasedSet id t k (accSet t.ope k).prods := by
  have hturn (n : Nat) : inOrder t.ope n false k = true := by simp [inOrder, hzero, hother, setSeq]
  cases hseq : setSeq (accSet t.ope k) <;> simp [releaseSet, hheld, hdrn, hcpx, hmay, hturn, hseq, releasedSet, emptySet]

include hk

/-- One round over the two sets releases it, and leaves both empty. -/
theorem releaseSets_alone (id : Nat) : releaseSet id (releaseSet id t 0) 1 = releasedSet id t k (accSet t.ope k).prods := by
  have halone := releaseSet_alone hheld hdrn hcpx hother hzero hmay id
  obtain rfl | rfl : k = 0 ∨ k = 1 := by omega
  · rw [halone]
    refine releaseSet_notHeld id ?_
    rw [releasedSet_ope, accSet_setAcc_other _ _ hk, hother]
    decide
  · rw [releaseSet_notHeld (k := 0) id (by rw [hother]; decide), halone]

theorem settle_alone (id : Nat) (hseq : t.seq ≠ .stopped) (hhalt : t.ope.halted = false) :
    settle id t = releasedSet id t k (accSet t.ope k).prods := by
  have hdue : t.ope.set0.phase = .held ∨ t.ope.set1.phase = .held := by
    obtain rfl | rfl : k = 0 ∨ k = 1 := by omega
    · exact .inl hheld
    · exact .inr hheld
  have hround := releaseSets_alone hk hheld hdrn hcpx hother hzero hmay id
  have hope := releasedSet_ope id t k (accSet t.ope k).prods
  have hempty : ∀ j < 2, (accSet (releasedSet id t k (accSet t.ope k).prods).ope j).phase ≠ .held := by
    intro j hj
    obtain rfl | rfl : j = k ∨ j = 1 - k := by omega
    · rw [hope, accSet_setAcc_self]
      decide
    · rw [hope, accSet_setAcc_other _ _ hk, hother]
      decide
  have hnone : (releasedSet id t k (accSet t.ope k).prods).ope.zero = [] := by rw [hope, setAcc_zero, hzero]
  calc settle id t = releaseAll id 6 t := if_neg (by simpa [hseq, hhalt] using fun _ h => hdue.resolve_left h)
    _ = releaseAll id 5 (releaseZero (releaseSet id (releaseSet id (releaseZero t) 0) 1)) := rfl
    _ = _ := by rw [releaseZero_nil hzero, hround, releaseZero_nil hnone, releaseAll_idle id hnone (hempty 0 (by decide)) (hempty 1 (by decide))]

end Alone

/-- A set that passes its check alone in the OPE is written out and emptied at once (R52, R61, R66). -/
theorem settle_passedSet {x : Tile} {k : Nat} {d : Drain} (hk : k < 2) (hdrn : (accSet x.ope k).drn = some d) (hcpx : d.cpx = false)
    (hseq : x.seq ≠ .stopped) (hhalt : x.ope.halted = false) (hother : accSet x.ope (1 - k) = {}) (hzero : x.ope.zero = [])
    (hmay : mayAdvance x (accSet x.ope k).prods [d] = true) (id n : Nat) :
    settle id (passedSet x k n) = releasedSet id (passedSet x k n) k (accSet x.ope k).prods := by
  obtain ⟨csr, frac, hframe⟩ := checkCounted_frame x n
  have hpassed : passedSet x k n = { x with csr := csr, ope := setAcc { x.ope with ckFrac := frac } k { accSet x.ope k with phase := .held } } := by
    rw [passedSet_eq, hframe]
    rfl
  have hset : accSet (passedSet x k n).ope k = { accSet x.ope k with phase := .held } := by rw [hpassed, accSet_setAcc_self]
  have hprods : (accSet (passedSet x k n).ope k).prods = (accSet x.ope k).prods := by rw [hset]
  rw [← hprods]
  refine settle_alone hk (by rw [hset]) (by rw [hset]; exact hdrn) hcpx ?_ ?_ ?_ id ?_ ?_
  · rw [hpassed]
    exact (accSet_setAcc_other _ _ hk).trans hother
  · rw [hpassed]
    exact (setAcc_zero _ _ _).trans hzero
  · rw [hprods, hpassed]
    exact hmay
  · rw [hpassed]
    exact hseq
  · rw [hpassed]
    exact (setAcc_halted _ _ _).trans hhalt

/-- An empty vector queue has nothing to go on with. -/
theorem goVq_empty (e : Env) {ts : TS} (hvq : ts.t.vq = []) : goVq e ts = ts := by
  unfold goVq
  split
  · rfl
  · rw [hvq, runVq, TS.upd, ← hvq]

/-- The tile once a free slot of a bank went to its winner, which the bank remembers (R126). -/
def wonSlot (x : Tile) (bank : Nat) (want : List Nat) : Tile :=
  match slotWinner (lastWinner x bank) want with
  | none => x
  | some q => { x with lastWin := Map.set (fun _ => 7) x.lastWin bank q }

theorem tShared_free {x : Tile} (hvq : x.vq = []) (e : Env) (free bank : Nat) (want : List Nat) :
    tShared e { t := x, free := free } bank false want = { t := wonSlot x bank want, free := free } := by
  simp only [tShared, wonSlot, Bool.false_eq_true, if_false]
  cases slotWinner (lastWinner x bank) want with
  | none => rfl
  | some q =>
    dsimp only
    split
    · exact goVq_empty e hvq
    · rfl

end Sys2Proof.Machine

namespace Sys2Proof
open Machine

/-- Settles O20: each command on a set by what it leaves of the tile, the release by one round over the two sets. -/
theorem opeSetsAndPorts : Obligations.OpeSetsAndPorts := by
  unfold Obligations.OpeSetsAndPorts
  intro t s hon x
  refine ⟨fun k hk => ⟨fun hphase hfeed hreplay => ?_, ?_⟩, ?_, fun bank want hbank hwant hvq => ?_⟩
  · exact State.setDo_on hon hk (congrArg (fun y => ({ t := y, free := s.free } : TS)) (tSetReady_fed hphase hfeed hreplay))
  · intro d hdrn hphase hport hmap hcpx blocks kept hspace hstage
    exact State.setDo_on hon hk (congrArg (Res.out · _) (tDrainStart_ready rfl hdrn hphase hport hmap hcpx rfl hspace hstage _ s.free))
  · intro k hk b hphase hhalt hcube hinj
    refine ⟨fun n hresult => ⟨?_, fun d hdrn hcpx hseq hother hzero hmay => ?_⟩, fun c i n hcpx hattempt hresult => ?_⟩
    · exact State.setDo_on hon hk (congrArg (Res.out · _) (tCheck_passed hphase hhalt hcube hinj hresult (s.tileEnv t) s.free))
    · exact settle_passedSet hk hdrn hcpx hseq hhalt hother hzero hmay t n
    · obtain ⟨pc, hfailed⟩ := tCheck_failed hphase hhalt hcube hinj hresult (s.tileEnv t) s.free
      obtain ⟨csr, frac, hframe⟩ := checkCounted_frame x n
      have hset : accSet (checkCounted x n).ope k = b := by rw [hframe]; rfl
      have hreplay : (checkCounted x n).ope.replay = x.ope.replay := by rw [hframe]
      rw [hset] at hfailed
      obtain ⟨y, r, hdo, hsource, hcls, hloc, hope⟩ :=
        ckFailed_replayed (s.tileEnv t) { t := checkCounted x n, free := s.free } k pc c i false hattempt hcpx
      refine ⟨y, r, State.setDo_raising (l := [r]) hon hk (congrArg (Res.out · _) (hfailed.trans hdo)), hsource, hcls, hloc, ?_⟩
      rw [hope, replayed_set, replayed_replay, hreplay]
      exact ⟨rfl, rfl, rfl, rfl⟩
  · have hok : (decide (t < nTiles) && decide (bank < 32) && want.all fun q => decide (2 ≤ q) && decide (q ≤ 7)) = true := by
      simpa [State.tileOn_power hon, hbank] using hwant
    exact ⟨s.checked_of hok (State.onTile_of_on (l := []) hon rfl),
      s.checked_of hok (State.onTile_of_on (l := []) hon (tShared_free hvq _ s.free bank want))⟩

end Sys2Proof
end

section
/-!
Frames of what an invocation, a swap and a relocation do many times over: tiles and sites written one after the other, and the regions
that a tile is given.
-/

namespace Sys2Proof.Machine

/-- Tiles written in turn: nothing but the tiles changes. -/
theorem State.foldl_setTile_frame {α : Type} {step : State → α → State} (h : ∀ u a, ∃ t x, step u a = u.setTile t x) (l : List α) (s : State) :
    ∃ tiles, l.foldl step s = { s with tiles := tiles } := by
  refine List.foldlRecOn (motive := fun u : State => ∃ tiles, u = { s with tiles := tiles }) l step ⟨s.tiles, rfl⟩ fun u hu a _ => ?_
  obtain ⟨tiles, rfl⟩ := hu
  obtain ⟨t, x, hstep⟩ := h { s with tiles := tiles } a
  exact ⟨_, hstep⟩

/-- Sites written in turn: nothing but the sites changes. -/
theorem State.foldl_setSite_frame {α : Type} {step : State → α → State} (h : ∀ u a, ∃ n x, step u a = u.setSite n x) (l : List α) (s : State) :
    ∃ sites, l.foldl step s = { s with sites := sites } := by
  refine List.foldlRecOn (motive := fun u : State => ∃ sites, u = { s with sites := sites }) l step ⟨s.sites, rfl⟩ fun u hu a _ => ?_
  obtain ⟨sites, rfl⟩ := hu
  obtain ⟨n, x, hstep⟩ := h { s with sites := sites } a
  exact ⟨_, hstep⟩

theorem State.eachSite_frame (s : State) (p : Nat) (f : Site → Site) : ∃ sites, s.eachSite p f = { s with sites := sites } :=
  State.foldl_setSite_frame (fun _ _ => ⟨_, _, rfl⟩) _ s

/-- The tables of a manifest stand at tiles and sites alone (R405). -/
theorem State.putTables_frame (s : State) (p : Nat) (m : Manifest) : ∃ tiles sites, s.putTables p m = { s with tiles := tiles, sites := sites } := by
  unfold State.putTables
  extract_lets s1 s2 s3 s4
  obtain ⟨cleared, h1⟩ : ∃ tiles, s1 = { s with tiles := tiles } := State.foldl_setTile_frame (fun _ _ => ⟨_, _, rfl⟩) _ s
  obtain ⟨disarmed, h2⟩ : ∃ sites, s2 = { s1 with sites := sites } := s1.eachSite_frame p _
  obtain ⟨tiles, h3⟩ : ∃ tiles, s3 = { s2 with tiles := tiles } := State.foldl_setTile_frame (fun _ _ => ⟨_, _, rfl⟩) _ s2
  obtain ⟨written, h4⟩ : ∃ sites, s4 = { s3 with sites := sites } := State.foldl_setSite_frame (fun _ _ => ⟨_, _, rfl⟩) _ s3
  obtain ⟨sites, h5⟩ := s4.eachSite_frame p fun x => (x.csrField 0x600 1 1 (m.flags % 2)).csrField 0x600 29 24 m.dsite
  rw [h5, h4, h3, h2, h1]
  exact ⟨tiles, sites, rfl⟩

/-- A descriptor loaded changes the regions of its tile alone (R141). -/
theorem loadRegion_frame (c : ClassRec) (t : Tile) (g : Nat) : ∃ regions, loadRegion c t g = { t with regions := regions } := by
  simp only [loadRegion]
  split
  · exact ⟨t.regions, rfl⟩
  · split <;> exact ⟨_, rfl⟩

theorem foldl_loadRegion_frame (c : ClassRec) (l : List Nat) (t : Tile) : ∃ regions, l.foldl (loadRegion c) t = { t with regions := regions } := by
  refine List.foldlRecOn (motive := fun u : Tile => ∃ regions, u = { t with regions := regions }) l _ ⟨t.regions, rfl⟩ fun u hu g _ => ?_
  obtain ⟨_, rfl⟩ := hu
  exact loadRegion_frame c _ g

/-- While the control complex is up a notice leaves at once. -/
theorem State.post_up {s : State} (hup : s.mod.cc.up = true) (ring : Nat) (m : Msg) : s.post ring m = s.say m := if_pos hup

end Sys2Proof.Machine
end

section
/-!
Invocations (R99, R147, R154, R336, R338, R346, R440): the start of one and of its tiles, the end of a tile, the phase swap, the retry of
a step and the relocation of a field, and the whole of O42.
-/

namespace Sys2Proof.Machine

section Start
variable {s : State} {p : Nat} {m : Manifest} {r : RunCtl} {b : Binary}

/-- Nothing holds back the next invocation of partition p but the condition of its fields and tables (R147, R346, R417). -/
structure State.StartDue (s : State) (p : Nat) (m : Manifest) (r : RunCtl) (b : Binary) : Prop where
  up : s.mod.cc.up = true
  job : (s.part p).job = some m
  run : (s.part p).run = some r
  binary : (s.part p).binary = some b
  state : (s.part p).state = 3
  quiet : (s.part p).quiet = false
  notOver : r.over = false
  may : s.mayInvoke p = true
  swap : s.swapDue p = false
  change : s.changeDue p = false

/-- None of what INVOCATION_START waits for holds. -/
theorem State.StartDue.unheld (h : s.StartDue p m r b) : (decide ((s.part p).state ≠ 3) || !s.mod.cc.up || (s.part p).quiet || r.over ||
    !s.mayInvoke p || s.swapDue p || s.changeDue p) = false := by
  simp [h.state, h.up, h.quiet, h.notOver, h.may, h.swap, h.change]

/-- A field that is lost is waited for, and the host is told (R456). -/
theorem State.StartDue.lost (h : s.StartDue p m r b) (hlost : s.lostFields b (s.part p).fmap ≠ []) (hwait : (s.part p).waiting = false) :
    s.invocationStart p = (s.setPart p { s.part p with waiting := true }).say (.hostAdvisory p 6 (s.lostFields b (s.part p).fmap)) := by
  rw [← State.post_up (s := s.setPart p { s.part p with waiting := true }) h.up p]
  simp only [State.invocationStart, h.job, h.run, h.binary, h.unheld]
  simp [hlost, hwait]

/-- A condition of R336 that fails ends the run. -/
theorem State.StartDue.refused (h : s.StartDue p m r b) (hlost : s.lostFields b (s.part p).fmap = []) {k : Nat}
    (hbad : tableBad (tablesFor m (s.part p).phase) (isRollout m (s.part p) r.req) r.req = some k) :
    s.invocationStart p = (s.setPart p { s.part p with run := none, state := 2 }).say (.invocationRefused p k) := by
  rw [← State.post_up (s := s.setPart p { s.part p with run := none, state := 2 }) h.up p]
  simp only [State.invocationStart, h.job, h.run, h.binary, h.unheld, hlost, hbad]
  simp [State.stopRun, h.job]

theorem State.StartDue.starts (h : s.StartDue p m r b) (hlost : s.lostFields b (s.part p).fmap = [])
    (hgood : tableBad (tablesFor m (s.part p).phase) (isRollout m (s.part p) r.req) r.req = none) :
    s.invocationStart p = s.invoke p m b r := by
  simp only [State.invocationStart, h.job, h.run, h.binary, h.unheld, hlost, hgood]
  simp

end Start

/-- The 32 arguments of an invocation, written to a cleared register file, are what it holds (R99). -/
theorem get_argRegs (vals : List DWord) {i : Nat} (hi : i < 32) :
    Map.get (fun _ => 0#64) ((List.range 32).foldl (fun m i => Map.set (fun _ => 0#64) m i (nth 0#64 vals i)) []) i = nth 0#64 vals i :=
  Map.get_setAll id (nth 0#64 vals) (fun _ _ _ _ h => h) (List.mem_range.mpr hi) List.nodup_range [] rfl

/-- What a tile is given for an invocation, and what it keeps (R99, R147, R410). -/
theorem startTile_given (vals : List DWord) (c : ClassRec) (entry pseed seed : Nat) (step : Word) (now : DWord) (x : Tile) :
    let y := startTile vals c entry pseed seed step now x
    y.seq = .running ∧ y.pc = entry ∧ y.fault = false ∧ y.fcause = 0 ∧ y.waiting = false ∧ y.vregs = [] ∧ y.pregs = [] ∧ y.firstIssue = none ∧
      y.lastIssue = now ∧ (∀ i < 32, sreg y i = nth 0#64 vals i) ∧ y.istore = x.istore ∧ y.spd = x.spd := by
  unfold startTile
  extract_lets cleared loaded given y
  obtain ⟨regions, hloaded⟩ : ∃ regions, loaded = { cleared with regions := regions } := foldl_loadRegion_frame c _ cleared
  clear_value loaded
  subst hloaded
  simp only [y, given, putSeed, putStep, csrPut, sreg, cleared, true_and, and_true]
  exact fun i hi => get_argRegs vals hi

/-- A tile whose end is complete shows it (R154). -/
theorem tEndReport_complete {x : Tile} (hseq : x.seq = .ending) (hqueues : queuesEmpty x = true) (hope : pend x.ope = 0)
    (hscalars : pendingScalars x = []) : tEndReport x = { x with seq := .ended, loose := [] } := by
  simp [tEndReport, hseq, hqueues, hope, hscalars]

/-- The end of a tile ends no invocation where none runs, or where it runs a step (R154, R410). -/
theorem State.tileEnded_of {s : State} {p : Nat} (h : (s.part p).wdog = false ∨ (s.part p).step = true) : s.tileEnded p = s := by
  simp only [State.tileEnded]
  rw [if_pos]
  rcases h with h | h <;> simp [h]

theorem State.execTileEndReport_of {s : State} {t : Nat} (hon : s.tileOn t = true) (hseq : (s.tile t).seq = .ending)
    (hqueues : queuesEmpty (s.tile t) = true) (hope : pend (s.tile t).ope = 0) (hscalars : pendingScalars (s.tile t) = [])
    (hpart : (s.part (s.tilePart t)).wdog = false ∨ (s.part (s.tilePart t)).step = true) :
    exec (.tileEndReport t) s = .next (s.setTile t { s.tile t with seq := .ended, loose := [] }) := by
  obtain ⟨hlt, hpower⟩ := State.tileOn_power hon
  refine s.checked_of (decide_eq_true hlt) ?_
  have htile : s.onTile t (fun _ ts => ts.upd tEndReport) = s.setTile t { s.tile t with seq := .ended, loose := [] } :=
    congrArg (s.setTile t) (tEndReport_complete hseq hqueues hope hscalars)
  rw [if_pos hpower, htile]
  exact State.tileEnded_of hpart

/-! The swap of a pair (R346). -/

theorem changedImages_self (l : List RegImage) : changedImages l l = [] :=
  List.filter_eq_nil_iff.mpr fun r hr => by simp [hr]

theorem goneImages_self (site : Bool) (l : List RegImage) : goneImages site l l = [] :=
  List.map_eq_nil_iff.mpr (List.filter_eq_nil_iff.mpr fun r hr => by simp; exact fun _ => ⟨r, hr, rfl, rfl⟩)

/-- A pair with one set of tables has the same tables in both phases (log entry 59). -/
theorem tablesFor_single {m : Manifest} (htile : m.tileRegs1 = []) (hsite : m.siteRegs1 = []) (phase : Nat) : tablesFor m phase = m := by
  simp [tablesFor, htile, hsite]

/-- Tables that differ are written to tiles and sites alone, and to no site where those of the sites are the same. -/
theorem State.swapTables_frame (s : State) (old new : Manifest) :
    ∃ tiles sites, s.swapTables old new = { s with tiles := tiles, sites := sites } ∧ (old.siteRegs = new.siteRegs → sites = s.sites) := by
  unfold State.swapTables
  extract_lets s1
  obtain ⟨tiles, h1⟩ : ∃ tiles, s1 = { s with tiles := tiles } := State.foldl_setTile_frame (fun _ _ => ⟨_, _, rfl⟩) _ s
  by_cases hsame : old.siteRegs = new.siteRegs
  · rw [hsame, goneImages_self, changedImages_self]
    exact ⟨tiles, s.sites, h1, fun _ => rfl⟩
  · obtain ⟨sites, h2⟩ := State.foldl_setSite_frame (step := fun s r => s.setSite r.unit (putSiteImage (s.site r.unit) r))
      (fun _ _ => ⟨_, _, rfl⟩) (goneImages true old.siteRegs new.siteRegs ++ changedImages old.siteRegs new.siteRegs) s1
    rw [h2, h1]
    exact ⟨tiles, sites, rfl, fun h => absurd h hsame⟩

/-- A swap that is due writes tiles and sites and exchanges the phase of its partition (R346, R372). -/
theorem State.phaseSwap_due {s : State} {p : Nat} {m : Manifest} {a b : Binary} (hup : s.mod.cc.up = true) (hjob : (s.part p).job = some m)
    (hbinary : (s.part p).binary = some a) (hother : (s.part p).bins[1 - (s.part p).phase]? = some b) (hstate : (s.part p).state = 3)
    (hquiet : s.quiescent p = true) (hbusy : (s.part p).busy = false) (hdue : s.swapDue p = true) :
    ∃ tiles sites, s.phaseSwap p = ({ s with tiles := tiles, sites := sites } : State).setPart p { s.part p with
        phase := 1 - (s.part p).phase, rollouts := 0, run := (s.part p).run.map fun r => { r with learned := false } } ∧
      (m.tileRegs1 = [] → m.siteRegs1 = [] → sites = s.sites) := by
  unfold State.phaseSwap
  extract_lets q
  split
  next m' a' b' hm ha hb =>
    obtain rfl : m = m' := Option.some.inj (hjob.symm.trans hm)
    obtain rfl : b = b' := Option.some.inj (hother.symm.trans hb)
    split
    next hheld => simp [q, hup, hstate, hquiet, hbusy, hdue] at hheld
    next =>
      extract_lets l s1 s2 x
      obtain ⟨programs, h1⟩ : ∃ tiles, s1 = { s with tiles := tiles } := State.foldl_setTile_frame (fun _ _ => ⟨_, _, rfl⟩) _ s
      obtain ⟨tiles, sites, h2, hsites⟩ := s1.swapTables_frame (tablesFor m (s.part p).phase) (tablesFor m (1 - (s.part p).phase))
      have hs2 : s2 = { s with tiles := tiles, sites := sites } := by rw [show s2 = _ from h2, h1]
      have hx : x = s.part p := by rw [show x = s2.part p from rfl, hs2]; rfl
      rw [hs2, hx]
      refine ⟨tiles, sites, rfl, fun htile hsite => ?_⟩
      rw [hsites (by rw [tablesFor_single htile hsite, tablesFor_single htile hsite]), h1]
  next hnone => exact (hnone m a b hjob hbinary hother).elim

/-! The retry of a step (R440) and the move of a field (R338). -/

/-- No program is written again where no tile of the job stopped for instruction parity (R439). -/
theorem State.reloadStopped_none {s : State} {b : Binary} {fmap : List Nat} (h : ∀ e ∈ b.tiles fmap, (s.tile e.1).fcause ≠ 3) :
    s.reloadStopped b fmap = s := by
  unfold State.reloadStopped
  refine List.foldlRecOn (motive := (· = s)) _ _ rfl fun u hu e he => ?_
  rw [hu]
  exact if_neg (h e he)

/-- With nothing to judge and nothing to write the run goes on (R440). -/
theorem State.stepRetry_of {s : State} {p : Nat} {r : RunCtl} {b : Binary} (hup : s.mod.cc.up = true) (hrun : (s.part p).run = some r)
    (hbinary : (s.part p).binary = some b) (hstate : (s.part p).state = 2) (hover : r.over = false)
    (hjudge : (s.part p).acause ≠ 4 ∨ (s.mod.log.ring.map (·.2)).filter (s.hitStep p) = [])
    (hparity : ∀ e ∈ b.tiles (s.part p).fmap, (s.tile e.1).fcause ≠ 3) : s.stepRetry p = s.setPart p { s.part p with state := 3 } := by
  have hjudged : (if (s.part p).acause = 4 then ((s.mod.log.ring.map (·.2)).filter (s.hitStep p)).foldl State.judge s else s) = s := by
    rcases hjudge with h | h
    · exact if_neg h
    · rw [h]
      exact ite_self s
  simp only [State.stepRetry, hrun, hbinary, hstate, hup, hover]
  rw [hjudged, State.reloadStopped_none hparity, if_neg (by simp), hrun]

section Relocate
variable {s : State} {p f : Nat} {m : Manifest} {b : Binary}

/-- Nothing holds back the relocation of field f, lost to partition p (R338, R456). -/
structure State.MoveDue (s : State) (p f : Nat) (m : Manifest) (b : Binary) : Prop where
  up : s.mod.cc.up = true
  job : (s.part p).job = some m
  binary : (s.part p).binary = some b
  notAborting : (s.part p).state ≠ 4
  notAborted : (s.part p).state ≠ 5
  notBusy : (s.part p).busy = false
  quiet : s.quiescent p = true
  lost : f ∈ s.lostFields b (s.part p).fmap

/-- With RELOC clear or no reserve field that keeps every sum, the partition waits and the host is told. -/
theorem State.MoveDue.waits (h : s.MoveDue p f m b) (hnone : m.flags / 2 % 2 ≠ 1 ∨ s.moveFor p f m = none) (hwait : (s.part p).waiting = false) :
    s.relocate p f = (s.setPart p { s.part p with waiting := true }).say (.hostAdvisory p 6 [f]) := by
  have hwaits : s.waitField p f = (s.setPart p { s.part p with waiting := true }).say (.hostAdvisory p 6 [f]) := by
    rw [← State.post_up (s := s.setPart p { s.part p with waiting := true }) h.up p]
    simp [State.waitField, hwait]
  rw [← hwaits]
  simp only [State.relocate, h.job, h.binary]
  rw [if_neg (by simp [h.up, h.notAborting, h.notAborted, h.notBusy, h.quiet, h.lost])]
  split
  · rfl
  next hreloc =>
    rw [hnone.resolve_left hreloc]

theorem State.MoveDue.moves (h : s.MoveDue p f m b) (hreloc : m.flags / 2 % 2 = 1) {g : Nat} {m1 : Manifest}
    (hmove : s.moveFor p f m = some (g, m1)) : s.relocate p f = (s.movedField p f g m m1 b).reroute := by
  simp only [State.relocate, h.job, h.binary]
  rw [if_neg (by simp [h.up, h.notAborting, h.notAborted, h.notBusy, h.quiet, h.lost]), if_neg (by simp [hreloc]), hmove]
  rfl

end Relocate

/-- The partition of a field that moved has the new field and manifest, waits no more, and is as before else (R338). -/
theorem State.movedField_part {s : State} (p f g : Nat) (m m1 : Manifest) (b : Binary) (hwf : Map.wf (fun _ => ({} : Part)) s.parts = true) :
    (s.movedField p f g m m1 b).part p =
      { s.part p with fmap := (s.part p).fmap.map fun x => if x = f then g else x, job := some m1, waiting := false } := by
  unfold State.movedField
  extract_lets q fmap s1 s2 x s3 s4 c s6 y
  have howned : s1.parts = s.parts := (((s.ezField_reserveWork _ _ _ _).trans (State.setFieldOwner_reserveWork _ g p)).trans
    (State.setFieldOwner_reserveWork _ f 15)).parts
  obtain ⟨tiles, sites, hput⟩ : ∃ tiles sites, s2 = { s1 with tiles := tiles, sites := sites } := s1.putTables_frame p _
  obtain ⟨loaded, hload⟩ : ∃ tiles, s4 = { s3 with tiles := tiles } := State.foldl_setTile_frame (fun _ _ => ⟨_, _, rfl⟩) _ s3
  have hparts : s6.parts = s.parts := by
    calc s6.parts = s4.parts := rfl
      _ = s3.parts := by rw [hload]
      _ = s2.parts := rfl
      _ = s1.parts := by rw [hput]
      _ = s.parts := howned
  rw [State.setPart_part_self (hparts ▸ hwf)]
  have hpart : s6.part p = s.part p := by rw [State.part, hparts, State.part]
  simp only [y, hpart]
  rfl

end Sys2Proof.Machine

namespace Sys2Proof
open Machine

/-- Settles O42: each command by what it does where nothing holds it back; what a swap or a move keeps of the state by the frames of the
tables and programs that it writes. -/
theorem invocations : Obligations.Invocations := by
  unfold Obligations.Invocations
  intro s hup hcanon
  have hparts := (State.canon hcanon).parts
  refine ⟨fun p hp m r b hjob hrun hbinary hstate hquiet hover hmay hswap hchange => ?_, startTile_given,
    fun t hon => State.execTileEndReport_of hon, fun p hp m a b hjob hbinary hother hstate hquiet hbusy hdue => ?_,
    fun p hp r b hrun hbinary hstate hover hjudge hparity => ?_, fun p hp f hf m b hjob hbinary h4 h5 hbusy hquiet hlost => ?_⟩
  · have hstart : s.StartDue p m r b := ⟨hup, hjob, hrun, hbinary, hstate, hquiet, hover, hmay, hswap, hchange⟩
    have hok := decide_eq_true hp
    exact ⟨fun hlost hwait => s.checked_of hok (hstart.lost hlost hwait), fun hlost =>
      ⟨fun k hbad => s.checked_of hok (hstart.refused hlost hbad), fun hgood => s.checked_of hok (hstart.starts hlost hgood)⟩⟩
  · obtain ⟨tiles, sites, heq, hsites⟩ := State.phaseSwap_due hup hjob hbinary hother hstate hquiet hbusy hdue
    exact ⟨_, s.checked_of (decide_eq_true hp) heq, hsites, rfl, rfl, State.setPart_part_self hparts⟩
  · exact s.checked_of (decide_eq_true hp) (State.stepRetry_of hup hrun hbinary hstate hover hjudge hparity)
  · have hmove : s.MoveDue p f m b := ⟨hup, hjob, hbinary, h4, h5, hbusy, hquiet, List.contains_iff_mem.mp hlost⟩
    have hok : (decide (p < nParts) && decide (f < nFields)) = true := by simp [nParts, nFields, hp, hf]
    refine ⟨fun hnone hwait => s.checked_of hok (hmove.waits hnone hwait), fun g m1 hreloc hfound => ?_⟩
    refine ⟨s.checked_of hok (hmove.moves hreloc hfound), ?_⟩
    simp only [State.movedField_part p f g m m1 b hparts, and_self]

end Sys2Proof
end

section
/-!
Issue of an instruction (R148, R149): the state after one that takes effect at once, and after one that stops its tile.
-/

namespace Sys2Proof.Machine

/-- A stop of a tile that is not stopped yet (R155). -/
theorem stopWith_going {x : Tile} (hseq : x.seq ≠ .stopped) (e : Env) (free : Nat) (recs : List Rec) (fcause pc src code addr : Nat)
    (regs : List Nat) (inj : Bool) :
    stopWith e { t := x, free := free, recs := recs } fcause pc src code addr regs inj =
      let y := { x with seq := .stopped, fault := true, fcause := fcause, pc := pc, waiting := false }
      .halt { t := y, free := free, recs := recs ++ [{ source := src, cls := 1, loc := e.id, offset := pc, code := code, addr := addr,
                                                       detail := csrWords e y regs, inj := inj }] } := by
  simp only [stopWith, hseq, if_false]

section CanIssue
variable {s : State} {t : Nat} (hissue : s.canIssue t = true)
include hissue

/-- What it takes that the instruction at the PC issues. -/
theorem State.canIssue_parts : t < nTiles ∧ s.mayIssue t = true ∧ (s.tile t).seq = .running ∧ (s.tile t).pc < progLen (s.tile t) ∧
    badInstr (s.tile t) (s.tile t).pc = false := by
  simp only [State.canIssue, isTile, Bool.and_eq_true, decide_eq_true_eq, Bool.not_eq_true'] at hissue
  obtain ⟨⟨⟨⟨⟨ht, hon⟩, hpart⟩, hrun⟩, hlen⟩, hgood⟩ := hissue
  exact ⟨ht, by simp [State.mayIssue, hon, hpart], hrun, hlen, hgood⟩

section Outcome
variable {f : Env → TS → Issue} {y : Tile}

/-- An instruction that takes effect without a free value or a record, and transfers no control, leaves its tile at the next index. -/
theorem State.issue_retires (hf : f (s.tileEnv t) { t := s.tile t, free := s.free } = .next { t := y, free := s.free }) :
    s.issue t f = .next (s.retire t y) := by
  obtain ⟨ht, hmay, hrun, hlen, hgood⟩ := State.canIssue_parts hissue
  refine State.issue_next.mpr ⟨ht, ?_⟩
  rw [if_pos hmay, State.onTile]
  simp only [issueTile, hrun, Nat.not_le.mpr hlen, hgood, hf, ne_eq, not_true_eq_false, if_false, Bool.false_eq_true]
  rfl

/-- An instruction that stops its tile leaves the stopped tile, and its record raised. -/
theorem State.issue_stops {r : Rec}
    (hf : f (s.tileEnv t) { t := s.tile t, free := s.free } = .halt { t := y, free := s.free, recs := [r] }) :
    s.issue t f = .next ((s.setTile t y).raise r) := by
  obtain ⟨ht, hmay, hrun, hlen, hgood⟩ := State.canIssue_parts hissue
  refine State.issue_next.mpr ⟨ht, ?_⟩
  rw [if_pos hmay, State.onTile]
  simp only [issueTile, hrun, Nat.not_le.mpr hlen, hgood, hf, ne_eq, not_true_eq_false, if_false, Bool.false_eq_true]
  rfl

/-- A region fault at issue leaves the state of a region stop (R137). -/
theorem State.issue_regionStop {cause g : Nat}
    (hf : f (s.tileEnv t) { t := s.tile t, free := s.free } =
      (stopRegion (s.tileEnv t) { t := s.tile t, free := s.free } cause g (s.tile t).pc).issue { t := s.tile t, free := s.free }) :
    s.issue t f = .next (s.regionStop t cause g) := by
  obtain ⟨-, -, hrun, -, -⟩ := State.canIssue_parts hissue
  have hseq : (spdFault (s.tile t) cause g).seq ≠ .stopped := by
    show (s.tile t).seq ≠ _
    rw [hrun]
    decide
  unfold State.regionStop State.stopped
  refine State.issue_stops hissue (hf.trans ?_)
  exact congrArg (Res.issue · _) (stopWith_going hseq _ _ _ _ _ _ _ _ _ _)

end Outcome

end CanIssue

end Sys2Proof.Machine
end

section
/-!
A vector instruction that issues into an empty vector queue executes in the same command (R111, R149, R150).
-/

namespace Sys2Proof.Machine

/-- The scalar that a vector instruction reads at issue, 0 where it reads none (R150). -/
def vopValue (x : Tile) (op : VOp) : DWord := match vopScalar op with | some n => sreg x n | none => 0

/-- The scalars that it reads. -/
def vopReads (op : VOp) : List Nat := match vopScalar op with | some n => [n] | none => []

/-- An operation that names no region passes the region checks. -/
theorem vopRegionCheck_pass {op : VOp} (h : vopRegions op = []) (e : Env) (ts : TS) (v : DWord) (k : Res) :
    vopRegionCheck e ts op v k = k := by
  cases op with
  | vld f => cases h
  | vst f => cases h
  | vstCvt f => cases h
  | vstMx f => cases h
  | vqPop f => cases h
  | vqPush f => cases h
  | _ => rfl

section Ready
variable {s : State} {t : Nat} {op : VOp} (hready : s.vecReady t op = true)
include hready

/-- What it takes that a vector instruction issues and executes at once. -/
theorem State.vecReady_parts : s.canIssue t = true ∧ vopLegal op = true ∧ (s.tile t).vq = [] ∧ injKind (s.tile t) ≠ 3 ∧
    (s.tile t).laneBad = 0 ∧ scalarBusy (s.tile t) (vopReads op) = false := by
  simp only [State.vecReady, Bool.and_eq_true, decide_eq_true_eq, Bool.not_eq_true', List.isEmpty_iff] at hready
  obtain ⟨⟨⟨⟨⟨hissue, hlegal⟩, hvq⟩, hinj⟩, hlane⟩, hbusy⟩ := hready
  exact ⟨hissue, hlegal, hvq, hinj, hlane, hbusy⟩

/-- Where the region checks pass and the operation does not wait, the tile is as the operation makes it. -/
theorem State.vec_retires {y : Tile}
    (hregion : ∀ k, vopRegionCheck (s.tileEnv t) { t := s.tile t, free := s.free } op (vopValue (s.tile t) op) k = k)
    (hexec : vexec (s.tileEnv t) { t := s.tile t, free := s.free } { op := op, scal := vopValue (s.tile t) op, pc := (s.tile t).pc } =
      .ok { t := y, free := s.free }) :
    s.issue t (fun e ts => tVec e ts op) = .next (s.retire t y) := by
  obtain ⟨hissue, hlegal, hvq, -, -, hbusy⟩ := State.vecReady_parts hready
  refine State.issue_retires hissue ?_
  calc tVec (s.tileEnv t) { t := s.tile t, free := s.free } op
    _ = _ := if_pos hlegal
    _ = _ := if_neg (Bool.eq_false_iff.mp hbusy)
    _ = _ := if_neg (by rw [hvq]; decide)
    _ = _ := congrArg (Res.issue · _) (hregion _)
    _ = _ := congrArg (Res.issue · _) (if_pos (List.isEmpty_iff.mpr hvq))
    _ = .next { t := y, free := s.free } := by
      split
      next hwait => exact nomatch hexec.symm.trans hwait
      next => exact congrArg (Res.issue · _) hexec

/-- The same of an operation that names no region. -/
theorem State.vecPlain_retires {y : Tile} (hnone : vopRegions op = [])
    (hexec : vexec (s.tileEnv t) { t := s.tile t, free := s.free } { op := op, scal := vopValue (s.tile t) op, pc := (s.tile t).pc } =
      .ok { t := y, free := s.free }) :
    s.issue t (fun e ts => tVec e ts op) = .next (s.retire t y) :=
  State.vec_retires hready (vopRegionCheck_pass hnone _ _ _) hexec

end Ready

/-- The count of a checked instruction changes its ordinal, its samples and the counters. -/
theorem countedTile_frame (x : Tile) : ∃ ord frac csr, countedTile x = { x with lpcOrd := ord, lpcFrac := frac, csr := csr } := by
  unfold countedTile
  dsimp only
  split
  · split
    · exact ⟨_, _, _, rfl⟩
    · exact ⟨_, _, _, rfl⟩
  · exact ⟨_, _, _, rfl⟩

/-- On a lane pair without a failure ahead a checked instruction goes on to write its result (R116, R117). -/
theorem checked_good {x : Tile} (hinj : injKind x ≠ 3) (hlane : x.laneBad = 0) (e : Env) (free pc : Nat) (k : TS → Res) :
    checked e { t := x, free := free } pc k = k { t := countedTile x, free := free } := by
  have hsame (frac : Nat) : ({ x with lpcOrd := x.lpcOrd + 1, laneBad := 0, lpcFrac := frac } : Tile) =
      { x with lpcOrd := x.lpcOrd + 1, lpcFrac := frac } := by rw [← hlane]
  unfold checked countedTile
  simp only [TS.upd, hinj, hlane, hsame, decide_false, Bool.false_eq_true, if_false, nb, Nat.max_self, lanePair, Res.andThen]
  split
  next hsample =>
    split
    next hfull => rfl
    next hfull => rfl
  next hskip => rfl

end Sys2Proof.Machine
end

section
/-!
Vector arithmetic, compares, predicate logic and conversions (R103, R107, R116, R166).
-/

namespace Sys2Proof.Machine

section Ready
variable {s : State} {t : Nat} {op : VOp} (hready : s.vecReady t op = true)
include hready

/-- A checked instruction counts itself, then writes its result (R116). -/
theorem State.vecChecked_retires {result : Tile → DWord → Tile} (hnone : vopRegions op = [])
    (hexec : ∀ e ts v pc, vexec e ts { op := op, scal := v, pc := pc } = Machine.checked e ts pc fun u => .ok (u.upd (result · v))) :
    s.issue t (fun e ts => tVec e ts op) = .next (s.retire t (result (countedTile (s.tile t)) (vopValue (s.tile t) op))) := by
  obtain ⟨-, -, -, hinj, hlane, -⟩ := State.vecReady_parts hready
  exact State.vecPlain_retires hready hnone ((hexec _ _ _ _).trans (checked_good hinj hlane _ _ _ _))

end Ready

/-- The broadcast scalar of an instruction (R102, R150). -/
theorem vopValue_broadcast {x : Tile} {op : VOp} {b : BitVec 1} {n : Nat} (h : vopScalar op = if b = 1 then some n else none) :
    vopValue x op = if b = 1 then sreg x n else 0 := by
  rw [vopValue, h]
  by_cases hb : b = 1
  · simp only [hb, if_true]
  · simp only [hb, if_false]

/-- The arithmetic commands issue as the operations of the vector engine. -/
theorem exec_arithCmd (fn : VFn) (t : Nat) (f : LVA) (s : State) : exec (arithCmd fn t f) s = s.issue t fun e ts => tVec e ts (.arith fn f) := by
  cases fn <;> rfl

theorem exec_fcmpCmd (r : VRel) (t : Nat) (f : LVA) (s : State) : exec (fcmpCmd r t f) s = s.issue t fun e ts => tVec e ts (.fcmp r f) := by
  cases r <;> rfl

theorem exec_icmpCmd (r : VRel) (t : Nat) (f : LVA) (s : State) : exec (icmpCmd r t f) s = s.issue t fun e ts => tVec e ts (.icmp r f) := by
  cases r <;> rfl

section Counted
variable (x : Tile) (f : LVA) (v : DWord)

/-- What a checked instruction computes does not depend on the counts. -/
theorem arithWords_counted (fn : VFn) : arithWords (countedTile x) fn f v = arithWords x fn f v := by
  obtain ⟨ord, frac, csr, hframe⟩ := countedTile_frame x
  rw [hframe]
  rfl

theorem cmpPred_counted (w16 : Bool) (c : Nat → Nat → Bool) : cmpPred (countedTile x) f v w16 c = cmpPred x f v w16 c := by
  obtain ⟨ord, frac, csr, hframe⟩ := countedTile_frame x
  rw [hframe]
  rfl

theorem cvtWords_counted : cvtWords (countedTile x) f = cvtWords x f := by
  obtain ⟨ord, frac, csr, hframe⟩ := countedTile_frame x
  rw [hframe]
  rfl

theorem cvtN2Words_counted : cvtN2Words (countedTile x) f = cvtN2Words x f := by
  obtain ⟨ord, frac, csr, hframe⟩ := countedTile_frame x
  rw [hframe]
  rfl

end Counted

theorem sum_map_nb {α : Type} (p : α → Bool) (l : List α) : (l.map fun a => nb (p a)).sum = l.countP p := by
  induction l with
  | nil => rfl
  | cons a l ih => rw [List.map_cons, List.sum_cons, ih, List.countP_cons, Nat.add_comm, nb]

theorem popcount_eq_countP (p : DWord) : popcount p = (List.range 64).countP fun i => p.getLsbD i := sum_map_nb _ _

end Sys2Proof.Machine

namespace Sys2Proof
open Machine

/-- Settles O12: a checked instruction counts itself and writes its result, which does not depend on the counts. -/
theorem vectorArithmetic : Obligations.VectorArithmetic := by
  unfold Obligations.VectorArithmetic
  intro fn t f s hready x
  have hdone := State.vecChecked_retires hready (result := fun y v => setVreg y f.vd.toNat (arithWords y fn f v)) rfl fun _ _ _ _ => rfl
  rw [exec_arithCmd, hdone, arithWords_counted, vopValue_broadcast rfl]

/-- Settles O14: compares and conversions are checked instructions; predicate logic and PPOP take effect as they stand. -/
theorem vectorPredicates : Obligations.VectorPredicates := by
  unfold Obligations.VectorPredicates
  intro t f s x b d pa pb is
  refine ⟨fun r hready => ?_, fun r hready => ?_, fun hready => State.vecPlain_retires hready rfl rfl,
    fun hready => State.vecPlain_retires hready rfl rfl, fun hready => State.vecPlain_retires hready rfl rfl,
    fun hready => State.vecPlain_retires hready rfl rfl, fun hready => ?_, fun hready => ?_, fun hready => ?_⟩
  · have hdone := State.vecChecked_retires hready (result := fun y v => setPreg y (f.vd.toNat % 8)
      (cmpPred y f v (is16 f.fmt.toNat) (fcmp (vfmt f.fmt.toNat) r))) rfl fun _ _ _ _ => rfl
    rw [exec_fcmpCmd, hdone, cmpPred_counted, vopValue_broadcast rfl]
  · have hdone := State.vecChecked_retires hready (result := fun y v => setPreg y (f.vd.toNat % 8)
      (cmpPred y f v false fun a b => icmp r (BitVec.ofNat 32 a) (BitVec.ofNat 32 b))) rfl fun _ _ _ _ => rfl
    rw [exec_icmpCmd, hdone, cmpPred_counted, vopValue_broadcast rfl]
  · rw [← popcount_eq_countP]
    exact State.vecPlain_retires hready rfl rfl
  · have hdone := State.vecChecked_retires hready (result := fun y _ => setVreg y f.vd.toNat (cvtWords y f)) rfl fun _ _ _ _ => rfl
    rw [cvtWords_counted] at hdone
    exact hdone
  · have hdone := State.vecChecked_retires hready (result := fun y _ => setVreg y f.vd.toNat (cvtN2Words y f)) rfl fun _ _ _ _ => rfl
    rw [cvtN2Words_counted] at hdone
    exact hdone

end Sys2Proof
end

section
/-!
Moves between the register files and the four summaries (R113, R114, R162).
-/

namespace Sys2Proof.Machine

section Argmax
variable {x : Tile} {f : LVS} (hacc : f.acc = 0)
include hacc

/-- SUM.ARGMAX that does not accumulate writes the position and the value that it found, or the empty result (Table 4.4). -/
theorem sumEffect_argmax_some {i : Nat} {v : Val} (hbest : argmaxFrom 0 none (sumElems x f) = some (i, v)) :
    sumEffect x .argmax f 0 = setSreg (setSreg x f.sd.toNat (BitVec.ofNat 64 i)) (f.sd.toNat + 1) ((toF32 v).setWidth 64) := by
  simp [sumEffect, hbest, hacc]

theorem sumEffect_argmax_none (hnone : argmaxFrom 0 none (sumElems x f) = none) :
    sumEffect x .argmax f 0 = setSreg (setSreg x f.sd.toNat argmaxEmpty.1) (f.sd.toNat + 1) argmaxEmpty.2 := by
  simp [sumEffect, hnone, hacc]

end Argmax

/-- A count added to the old value where it accumulates. -/
theorem accumulated_eq (acc : BitVec 1) (old c : DWord) : (if acc = 1 then old + c else c) = (if acc = 1 then old else 0) + c := by
  split
  · rfl
  · exact (BitVec.zero_add c).symm

end Sys2Proof.Machine

namespace Sys2Proof
open Machine

/-- Settles O15: each operation takes effect at once, on the scalar read at issue. -/
theorem vectorMovesAndSummaries : Obligations.VectorMovesAndSummaries := by
  unfold Obligations.VectorMovesAndSummaries
  refine ⟨?moves, ?summaries⟩
  case moves =>
    intro t f s x is
    refine ⟨fun hready => State.vecPlain_retires hready rfl rfl, fun hready => State.vecPlain_retires hready rfl rfl, fun hready => ?_,
      fun hready => State.vecPlain_retires hready rfl rfl, fun hready => State.vecPlain_retires hready rfl rfl⟩
    obtain ⟨-, hlegal, -⟩ := State.vecReady_parts hready
    simp only [vopLegal, Bool.and_eq_true, decide_eq_true_eq] at hlegal
    rw [← Nat.mod_eq_of_lt hlegal.2]
    exact State.vecPlain_retires hready rfl rfl
  case summaries =>
    intro t f s x is old el n m a
    refine ⟨fun hready => ?_, fun hready => State.vecPlain_retires hready rfl rfl, fun hready => State.vecPlain_retires hready rfl rfl,
      fun hready => ?_, fun hacc => ⟨fun i v => sumEffect_argmax_some hacc, sumEffect_argmax_none hacc⟩⟩
    · rw [← accumulated_eq]
      exact State.vecPlain_retires hready rfl rfl
    · rw [← vopValue_broadcast (op := .sum .argmax f) rfl]
      exact State.vecPlain_retires hready rfl rfl

end Sys2Proof
end

section
/-!
The vector engine's loads, stores and region instructions (R133, R134, R137, R169 to R171).
-/
namespace Sys2Proof.Machine

/-- Good words with no injection armed read as they are stored, and the tile stays as it is (R122, R438). -/
theorem readEach_good {x : Tile} {port : Nat} {via : Option Nat} (id free : Nat) (hinj : injKind x ≠ 1) : ∀ {l : List Nat},
    (∀ i ∈ l, goodWord x port via i = true) →
    readEach id port via { t := x, free := free } l = ({ t := x, free := free }, l.map fun i => Map.get (fun _ => 0#32) x.spd i, none)
  | [], _ => rfl
  | i :: l, hgood => by
    have hread := readPhys_good id free (hgood i List.mem_cons_self) hinj
    have hrest := readEach_good id free hinj fun j hj => hgood j (List.mem_cons_of_mem _ hj)
    simp only [readEach, hread, hrest, if_true, List.map_cons]

theorem readWords_good {x : Tile} {port : Nat} {via : Option Nat} {l : List Nat} (hinj : injKind x ≠ 1)
    (hgood : ∀ i ∈ l, goodWord x port via i = true) (e : Env) (free pc : Nat) (k : TS → List Word → Res) :
    readWords e { t := x, free := free } port via pc l k = k { t := x, free := free } (l.map fun i => Map.get (fun _ => 0#32) x.spd i) := by
  simp only [readWords, readEach_good e.id free hinj hgood]

/-- The offset of a load or store, with the scalar read at issue (R169). -/
theorem vmOff_vopValue {x : Tile} {op : VOp} {f : LVM} (h : vopScalar op = if f.so = 1 then some f.soff.toNat else none) :
    vmOff f (vopValue x op) = f.off.toNat + (if f.so = 1 then sreg x f.soff.toNat else 0).toNat := by
  rw [vopValue_broadcast h, vmOff]
  by_cases hso : f.so = 1
  · simp only [hso, if_true]
  · simp only [hso, if_false]
    rfl

/-- A valid region holds no more than its size, and has a word. -/
theorem Region.valid_occ {r : Region} (h : r.valid = true) : r.occ ≤ r.size ∧ 0 < r.size := by
  simp only [Region.valid, Bool.and_eq_true, decide_eq_true_eq] at h
  omega

section Use
variable {x : Tile} {g u : Nat} {out : Bool} (e : Env) (free pc : Nat) (k : Region → Res)

/-- The checks of R134: a region that a unit may use serves it. -/
theorem useRegion_usable (h : usable x g u out = true) : useRegion e { t := x, free := free } g u pc out k = k (region x g) := by
  simp only [usable, Bool.and_eq_true, decide_eq_true_eq] at h
  simp only [useRegion, h, Bool.not_true, Bool.false_eq_true, if_false, ne_eq, not_true_eq_false]

theorem useRegion_invalid (h : (region x g).valid = false) :
    useRegion e { t := x, free := free } g u pc out k = stopRegion e { t := x, free := free } 2 g pc := by
  simp only [useRegion, h, Bool.not_false, if_true]

theorem useRegion_otherUnit (hvalid : (region x g).valid = true) (hunit : (if out then (region x g).prod else (region x g).cons) ≠ u) :
    useRegion e { t := x, free := free } g u pc out k = stopRegion e { t := x, free := free } 3 g pc := by
  simp only [useRegion, hvalid, Bool.not_true, Bool.false_eq_true, if_false, if_pos hunit]

end Use

theorem usable_valid {x : Tile} {g u : Nat} {out : Bool} (h : usable x g u out = true) : (region x g).valid = true := by
  simp only [usable, Bool.and_eq_true] at h
  exact h.1

/-- A vector instruction whose region check stops the tile at issue (R137). -/
theorem State.vec_regionStops {s : State} {t : Nat} {op : VOp} {cause g : Nat} (hissue : s.canIssue t = true) (hlegal : vopLegal op = true)
    (hroom : (s.tile t).vq.length < 32) (hbusy : scalarBusy (s.tile t) (vopReads op) = false)
    (hstop : ∀ k, vopRegionCheck (s.tileEnv t) { t := s.tile t, free := s.free } op (vopValue (s.tile t) op) k =
      stopRegion (s.tileEnv t) { t := s.tile t, free := s.free } cause g (s.tile t).pc) :
    s.issue t (fun e ts => tVec e ts op) = .next (s.regionStop t cause g) := by
  refine State.issue_regionStop hissue ?_
  calc tVec (s.tileEnv t) { t := s.tile t, free := s.free } op
    _ = _ := if_pos hlegal
    _ = _ := if_neg (Bool.eq_false_iff.mp hbusy)
    _ = _ := if_neg (Nat.not_le.mpr hroom)
    _ = _ := congrArg (Res.issue · _) (hstop _)

/-! The region checks of an access of 32 words from an offset, and of a pop or a push (R134, R137). -/
section Checks
variable {x : Tile} {f : LVM} (e : Env) (free : Nat) (v : DWord) (k : Res)

theorem vopRegionCheck_vld (husable : usable x f.rg.toNat 2 false = true) (hfit : vmOff f v + 32 ≤ (region x f.rg.toNat).size) :
    vopRegionCheck e { t := x, free := free } (.vld f) v k = k := by
  simp only [vopRegionCheck, useRegion_usable _ _ _ _ husable, Nat.not_lt.mpr hfit, if_false]

theorem vopRegionCheck_vst (husable : usable x f.rg.toNat 2 true = true) (hfit : vmOff f v + 32 ≤ (region x f.rg.toNat).size) :
    vopRegionCheck e { t := x, free := free } (.vst f) v k = k := by
  simp only [vopRegionCheck, useRegion_usable _ _ _ _ husable, Nat.not_lt.mpr hfit, if_false]

theorem vopRegionCheck_vstCvt (husable : usable x f.rg.toNat 2 true = true) (hfit : vmOff f v + 32 ≤ (region x f.rg.toNat).size) :
    vopRegionCheck e { t := x, free := free } (.vstCvt f) v k = k :=
  vopRegionCheck_vst e free v k husable hfit

theorem vopRegionCheck_vstMx (husable : usable x f.rg.toNat 2 true = true) (hscale : usable x f.srg.toNat 2 true = true)
    (hfit : mxBase f + mxWords f * v.toNat + mxWords f ≤ (region x f.rg.toNat).size) (hsfit : 8 * v.toNat + 8 ≤ (region x f.srg.toNat).size) :
    vopRegionCheck e { t := x, free := free } (.vstMx f) v k = k := by
  simp only [vopRegionCheck, useRegion_usable _ _ _ _ husable, useRegion_usable _ _ _ _ hscale, Nat.not_lt.mpr hfit,
    Nat.not_lt.mpr hsfit, if_false]

theorem vopRegionCheck_vqPop (husable : usable x f.rg.toNat 2 false = true) (hfit : f.off.toNat ≤ (region x f.rg.toNat).size) :
    vopRegionCheck e { t := x, free := free } (.vqPop f) v k = k := by
  simp only [vopRegionCheck, useRegion_usable _ _ _ _ husable, Nat.not_lt.mpr hfit, if_false]

theorem vopRegionCheck_vqPush (husable : usable x f.rg.toNat 2 true = true) (hfit : f.off.toNat ≤ (region x f.rg.toNat).size) :
    vopRegionCheck e { t := x, free := free } (.vqPush f) v k = k := by
  simp only [vopRegionCheck, useRegion_usable _ _ _ _ husable, Nat.not_lt.mpr hfit, if_false]

end Checks

/-! What stops the tile at issue (R137): a descriptor that is not valid, another unit's region, the words past the end of a region. -/
section Faults
variable {x : Tile} {f : LVM} (e : Env) (free : Nat) (v : DWord) (k : Res)

theorem vopRegionCheck_invalid (hinvalid : (region x f.rg.toNat).valid = false) {op : VOp} (hop : op ∈ [.vld f, .vst f, .vqPop f, .vqPush f]) :
    vopRegionCheck e { t := x, free := free } op v k = stopRegion e { t := x, free := free } 2 f.rg.toNat x.pc := by
  simp only [List.mem_cons, List.not_mem_nil, or_false] at hop
  rcases hop with rfl | rfl | rfl | rfl
  all_goals simp only [vopRegionCheck, useRegion_invalid _ _ _ _ hinvalid]

theorem vopRegionCheck_otherConsumer (hvalid : (region x f.rg.toNat).valid = true) (hcons : (region x f.rg.toNat).cons ≠ 2) {op : VOp}
    (hop : op ∈ [.vld f, .vqPop f]) :
    vopRegionCheck e { t := x, free := free } op v k = stopRegion e { t := x, free := free } 3 f.rg.toNat x.pc := by
  simp only [List.mem_cons, List.not_mem_nil, or_false] at hop
  rcases hop with rfl | rfl
  all_goals simp only [vopRegionCheck, useRegion_otherUnit (out := false) _ _ _ _ hvalid hcons]

theorem vopRegionCheck_otherProducer (hvalid : (region x f.rg.toNat).valid = true) (hprod : (region x f.rg.toNat).prod ≠ 2) {op : VOp}
    (hop : op ∈ [.vst f, .vqPush f]) :
    vopRegionCheck e { t := x, free := free } op v k = stopRegion e { t := x, free := free } 3 f.rg.toNat x.pc := by
  simp only [List.mem_cons, List.not_mem_nil, or_false] at hop
  rcases hop with rfl | rfl
  all_goals simp only [vopRegionCheck, useRegion_otherUnit (out := true) _ _ _ _ hvalid hprod]

theorem vopRegionCheck_vld_beyond (husable : usable x f.rg.toNat 2 false = true) (hbeyond : (region x f.rg.toNat).size < vmOff f v + 32) :
    vopRegionCheck e { t := x, free := free } (.vld f) v k = stopRegion e { t := x, free := free } 4 f.rg.toNat x.pc := by
  simp only [vopRegionCheck, useRegion_usable _ _ _ _ husable, hbeyond, if_true]

theorem vopRegionCheck_vst_beyond (husable : usable x f.rg.toNat 2 true = true) (hbeyond : (region x f.rg.toNat).size < vmOff f v + 32) :
    vopRegionCheck e { t := x, free := free } (.vst f) v k = stopRegion e { t := x, free := free } 4 f.rg.toNat x.pc := by
  simp only [vopRegionCheck, useRegion_usable _ _ _ _ husable, hbeyond, if_true]

theorem vopRegionCheck_vqPop_beyond (husable : usable x f.rg.toNat 2 false = true) (hbeyond : (region x f.rg.toNat).size < f.off.toNat) :
    vopRegionCheck e { t := x, free := free } (.vqPop f) v k = stopRegion e { t := x, free := free } 4 f.rg.toNat x.pc := by
  simp only [vopRegionCheck, useRegion_usable _ _ _ _ husable, hbeyond, if_true]

theorem vopRegionCheck_vqPush_beyond (husable : usable x f.rg.toNat 2 true = true) (hbeyond : (region x f.rg.toNat).size < f.off.toNat) :
    vopRegionCheck e { t := x, free := free } (.vqPush f) v k = stopRegion e { t := x, free := free } 4 f.rg.toNat x.pc := by
  simp only [vopRegionCheck, useRegion_usable _ _ _ _ husable, hbeyond, if_true]

end Faults

/-! The operations where what they wait for is there (R133). -/
section Execute
variable {x : Tile} {f : LVM} (e : Env) (free pc : Nat) (v : DWord)

theorem vexec_vld {r : Region} (hr : region x f.rg.toNat = r) (hpos : 0 < r.size) (hwords : vmOff f v + 32 ≤ r.occ) (hinj : injKind x ≠ 1)
    (hgood : ∀ i ∈ rgSpan r (r.head + vmOff f v) 32, goodWord x 3 (some f.rg.toNat) i = true) :
    vexec e { t := x, free := free } { op := .vld f, scal := v, pc := pc } =
      let y := setVreg x f.vr.toNat (mergeWords (predOf x f.pe f.pr) (vreg x f.vr.toNat) (regionWords x r (r.head + vmOff f v) 32))
      .ok { t := if f.adv = 1 then setRegion y f.rg.toNat { r with occ := r.occ - 32, head := (r.head + 32) % r.size } else y, free := free } := by
  subst hr
  have hpop : (region x f.rg.toNat).pop 32 = { region x f.rg.toNat with
      occ := (region x f.rg.toNat).occ - 32, head := ((region x f.rg.toNat).head + 32) % (region x f.rg.toNat).size } := by
    rw [Region.pop, if_neg (Nat.ne_of_gt hpos)]
  simp only [vexec, Nat.not_lt.mpr hwords, if_false, vldEffect, readWords_good hinj hgood, TS.upd, ← hpop]
  rfl

theorem vexec_vst (hspace : vmOff f v + 32 ≤ (region x f.rg.toNat).space) :
    vexec e { t := x, free := free } { op := .vst f, scal := v, pc := pc } = .ok { t := vstEffect x f (vmOff f v), free := free } := by
  simp only [vexec, Nat.not_lt.mpr hspace, if_false, TS.upd]

theorem vexec_vstCvt (hspace : vmOff f v + 32 ≤ (region x f.rg.toNat).space) :
    vexec e { t := x, free := free } { op := .vstCvt f, scal := v, pc := pc } =
      .ok { t := vstCvtEffect e.id x f (vmOff f v), free := free } := by
  simp only [vexec, Nat.not_lt.mpr hspace, if_false, TS.upd]

theorem vexec_vstMx (hspace : (mxNeed f v.toNat).1 ≤ (region x f.rg.toNat).space) (hsspace : (mxNeed f v.toNat).2 ≤ (region x f.srg.toNat).space) :
    vexec e { t := x, free := free } { op := .vstMx f, scal := v, pc := pc } = .ok { t := vstMxEffect x f v.toNat, free := free } := by
  simp only [vexec, Nat.not_lt.mpr hspace, Nat.not_lt.mpr hsspace, decide_false, Bool.or_self, Bool.false_eq_true, if_false, TS.upd]

theorem vexec_vqPop {r : Region} (hr : region x f.rg.toNat = r) (hpos : 0 < r.size) (hwords : f.off.toNat ≤ r.occ) :
    vexec e { t := x, free := free } { op := .vqPop f, scal := v, pc := pc } =
      .ok { t := setRegion x f.rg.toNat { r with occ := r.occ - f.off.toNat, head := (r.head + f.off.toNat) % r.size }, free := free } := by
  subst hr
  simp only [vexec, Nat.not_lt.mpr hwords, if_false, TS.upd, Region.pop, Nat.ne_of_gt hpos]

theorem vexec_vqPush (hspace : f.off.toNat ≤ (region x f.rg.toNat).space) :
    vexec e { t := x, free := free } { op := .vqPush f, scal := v, pc := pc } =
      .ok { t := setRegion x f.rg.toNat ((region x f.rg.toNat).push f.off.toNat), free := free } := by
  simp only [vexec, Nat.not_lt.mpr hspace, if_false, TS.upd]

end Execute

end Sys2Proof.Machine

namespace Sys2Proof
open Machine

/-- Settles O16: each operation by its region checks and by what it does where nothing holds it back; the faults by the checks that fail. -/
theorem vectorMemory : Obligations.VectorMemory := by
  unfold Obligations.VectorMemory
  intro t f s x g r b o p is
  have hoff {op : VOp} (h : vopScalar op = if f.so = 1 then some f.soff.toNat else none) : vmOff f (vopValue x op) = o := vmOff_vopValue h
  refine ⟨fun husable hwords hinj hgood hready => ?vld, fun husable hspace => ⟨fun hready => ?vst, fun hready => ?vstCvt⟩,
    fun husable hscale hsize hssize hspace hsspace hready => ?vstMx, fun husable hwords hready => ?vqPop,
    fun husable hspace hready => ?vqPush, fun hissue hroom hbusy => ?stops⟩
  case vld =>
    obtain ⟨hocc, hpos⟩ := Region.valid_occ (usable_valid husable)
    have hvmOff := hoff (op := .vld f) rfl
    refine State.vec_retires hready (fun k => vopRegionCheck_vld _ _ _ k husable ?_) ((vexec_vld _ _ _ _ rfl hpos ?_ hinj ?_).trans ?_)
    · rw [hvmOff]; exact hwords.trans hocc
    · rw [hvmOff]; exact hwords
    · rw [hvmOff]; exact hgood
    · rw [hvmOff]
  case vst =>
    have hvmOff := hoff (op := .vst f) rfl
    refine State.vec_retires hready (fun k => vopRegionCheck_vst _ _ _ k husable ?_) ((vexec_vst _ _ _ _ ?_).trans ?_)
    · rw [hvmOff]; exact hspace.trans (Nat.sub_le _ _)
    · rw [hvmOff]; exact hspace
    · rw [hvmOff]; rfl
  case vstCvt =>
    have hvmOff := hoff (op := .vstCvt f) rfl
    refine State.vec_retires hready (fun k => vopRegionCheck_vstCvt _ _ _ k husable ?_) ((vexec_vstCvt _ _ _ _ ?_).trans ?_)
    · rw [hvmOff]; exact hspace.trans (Nat.sub_le _ _)
    · rw [hvmOff]; exact hspace
    · rw [hvmOff]; rfl
  case vstMx =>
    exact State.vec_retires hready (fun k => vopRegionCheck_vstMx _ _ _ k husable hscale hsize hssize) (vexec_vstMx _ _ _ _ hspace hsspace)
  case vqPop =>
    obtain ⟨hocc, hpos⟩ := Region.valid_occ (usable_valid husable)
    exact State.vec_retires hready (fun k => vopRegionCheck_vqPop _ _ _ k husable (hwords.trans hocc)) (vexec_vqPop _ _ _ _ rfl hpos hwords)
  case vqPush =>
    exact State.vec_retires hready (fun k => vopRegionCheck_vqPush _ _ _ k husable (hspace.trans (Nat.sub_le _ _))) (vexec_vqPush _ _ _ _ hspace)
  case stops =>
    intro stop
    have hread {op : VOp} (h : vopScalar op = if f.so = 1 then some f.soff.toNat else none) : scalarBusy x (vopReads op) = false := by
      rw [vopReads, h, ← hbusy]
      by_cases hso : f.so = 1
      · simp only [hso, if_true]
      · simp only [hso, if_false]
    have load {cause : Nat} := State.vec_regionStops (op := .vld f) (cause := cause) (g := g) hissue rfl hroom (hread rfl)
    have store {cause : Nat} := State.vec_regionStops (op := .vst f) (cause := cause) (g := g) hissue rfl hroom (hread rfl)
    have pop {cause : Nat} := State.vec_regionStops (op := .vqPop f) (cause := cause) (g := g) hissue rfl hroom rfl
    have push {cause : Nat} := State.vec_regionStops (op := .vqPush f) (cause := cause) (g := g) hissue rfl hroom rfl
    refine ⟨fun hinvalid => ⟨?_, ?_, ?_, ?_⟩, fun hvalid hcons => ⟨?_, ?_⟩, fun hvalid hprod => ⟨?_, ?_⟩,
      fun husable => ⟨fun hbeyond => ?_, fun hbeyond => ?_⟩, fun husable => ⟨fun hbeyond => ?_, fun hbeyond => ?_⟩⟩
    · exact load fun k => vopRegionCheck_invalid _ _ _ k hinvalid (by simp)
    · exact store fun k => vopRegionCheck_invalid _ _ _ k hinvalid (by simp)
    · exact pop fun k => vopRegionCheck_invalid _ _ _ k hinvalid (by simp)
    · exact push fun k => vopRegionCheck_invalid _ _ _ k hinvalid (by simp)
    · exact load fun k => vopRegionCheck_otherConsumer _ _ _ k hvalid hcons (by simp)
    · exact pop fun k => vopRegionCheck_otherConsumer _ _ _ k hvalid hcons (by simp)
    · exact store fun k => vopRegionCheck_otherProducer _ _ _ k hvalid hprod (by simp)
    · exact push fun k => vopRegionCheck_otherProducer _ _ _ k hvalid hprod (by simp)
    · exact load fun k => vopRegionCheck_vld_beyond _ _ _ k husable (by rw [hoff rfl]; exact hbeyond)
    · exact pop fun k => vopRegionCheck_vqPop_beyond _ _ _ k husable hbeyond
    · exact store fun k => vopRegionCheck_vst_beyond _ _ _ k husable (by rw [hoff rfl]; exact hbeyond)
    · exact push fun k => vopRegionCheck_vqPush_beyond _ _ _ k husable hbeyond

end Sys2Proof
end

section
/-!
The element positions of a vector register (R101 to R103): what the elements of register words, a masked merge and an elementwise
application hold at each position.
-/

namespace Sys2Proof

/-- An element of a mapped list, where the function keeps the value beyond the end. -/
theorem nth_map {α β : Type} {d : α} {c : β} {f : α → β} (hd : f d = c) (l : List α) (i : Nat) : nth c (l.map f) i = f (nth d l i) := by
  rw [nth, nth, List.getElem?_map, ← hd, Option.getD_map]

theorem nth_replicate {α : Type} {n i : Nat} (d v : α) (hi : i < n) : nth d (List.replicate n v) i = v := by
  rw [nth, List.getElem?_replicate, if_pos hi, Option.getD_some]

end Sys2Proof

namespace Sys2Proof.Machine

/-- Bits of an element: a 16-bit operation has two elements to a word. -/
def elemWidth (w16 : Bool) : Nat := if w16 then 16 else 32

/-- Elements of a register. -/
def elemCount (w16 : Bool) : Nat := if w16 then 64 else 32

theorem vreg_length (x : Tile) (n : Nat) : (vreg x n).length = 32 := rfl

theorem elems_vreg_length (w16 : Bool) (x : Tile) (n : Nat) : (elems w16 (vreg x n)).length = elemCount w16 := by
  cases w16 <;> rfl

theorem elems_unelems_halves : ∀ l : List Nat, l.length % 2 = 0 → elems true (unelems true l) = l.map (· % 65536)
  | [], _ => rfl
  | [a], h => by cases h
  | a :: b :: l, h => by
    have hrest := elems_unelems_halves l (by simp only [List.length_cons] at h; omega)
    have hlow : (BitVec.ofNat 32 (a % 65536 + b * 65536)).toNat % 65536 = a % 65536 := by
      rw [BitVec.toNat_ofNat]; omega
    have hhigh : (BitVec.ofNat 32 (a % 65536 + b * 65536)).toNat / 65536 = b % 65536 := by
      rw [BitVec.toNat_ofNat]; omega
    simp only [elems, if_true] at hrest
    simp only [unelems, elems, if_true, List.flatMap_cons, hlow, hhigh, hrest, List.map_cons, List.cons_append, List.nil_append]

theorem elems_unelems_words : ∀ l : List Nat, elems false (unelems false l) = l.map (· % 2 ^ 32)
  | [] => rfl
  | [_] => rfl
  | a :: b :: l => congrArg ((a % 2 ^ 32) :: ·) (elems_unelems_words (b :: l))

/-- The elements of words made of element codes are the codes, cut to their width. -/
theorem elems_unelems {w16 : Bool} {l : List Nat} (hl : l.length = elemCount w16) :
    elems w16 (unelems w16 l) = l.map (· % 2 ^ elemWidth w16) := by
  cases w16 with
  | true => exact elems_unelems_halves l (by rw [hl]; rfl)
  | false => exact elems_unelems_words l

theorem broadcast_length (w16 : Bool) (s : DWord) : (broadcast w16 s).length = elemCount w16 := by
  cases w16 <;> rfl

theorem nth_broadcast {w16 : Bool} {e : Nat} (s : DWord) (he : e < elemCount w16) : nth 0 (broadcast w16 s) e = s.toNat % 2 ^ elemWidth w16 := by
  cases w16 with
  | true => exact nth_replicate 0 _ he
  | false => exact nth_replicate 0 _ he

theorem mergeFrom_length (p : DWord) : ∀ (i : Nat) (old new : List Nat), (mergeFrom p i old new).length = new.length
  | _, [], _ => by simp [mergeFrom]
  | _, _ :: _, [] => by simp [mergeFrom]
  | i, _ :: old, _ :: new => congrArg (· + 1) (mergeFrom_length p (i + 1) old new)

/-- A masked merge takes the new element where the predicate bit of its position is set (R103). -/
theorem nth_mergeFrom (p : DWord) : ∀ (i : Nat) {old new : List Nat}, old.length = new.length → ∀ e,
    nth 0 (mergeFrom p i old new) e = if p.getLsbD (i + e) then nth 0 new e else nth 0 old e
  | _, [], [], _, _ => (ite_self _).symm
  | i, o :: old, n :: new, hlen, 0 => rfl
  | i, o :: old, n :: new, hlen, e + 1 => by
    have hrest := nth_mergeFrom p (i + 1) (Nat.succ.inj hlen) e
    rw [Nat.add_right_comm] at hrest
    exact hrest

theorem zip3_length (f : Nat → Nat → Nat → Nat) : ∀ {as bs cs : List Nat}, bs.length = as.length → cs.length = as.length →
    (zip3 f as bs cs).length = as.length
  | [], [], [], _, _ => rfl
  | _ :: _, _ :: _, _ :: _, hb, hc => congrArg (· + 1) (zip3_length f (Nat.succ.inj hb) (Nat.succ.inj hc))

theorem nth_zip3 (f : Nat → Nat → Nat → Nat) : ∀ {as bs cs : List Nat}, bs.length = as.length → cs.length = as.length →
    ∀ {e : Nat}, e < as.length → nth 0 (zip3 f as bs cs) e = f (nth 0 as e) (nth 0 bs e) (nth 0 cs e)
  | _ :: _, _ :: _, _ :: _, _, _, 0, _ => rfl
  | _ :: _, _ :: _, _ :: _, hb, hc, _ + 1, he => nth_zip3 f (Nat.succ.inj hb) (Nat.succ.inj hc) (Nat.lt_of_succ_lt_succ he)

/-- The operation of an arithmetic instruction on the codes of its sources at one position. -/
def elemResult (fn : VFn) (fmt : Nat) (a b c : Nat) : Nat :=
  if isInt fn then (ielem fn (BitVec.ofNat 32 a) (BitVec.ofNat 32 b)).toNat else felem (vfmt fmt) fn a b c

theorem arithWords_eq (x : Tile) (fn : VFn) (f : LVA) (s : DWord) :
    let w16 := is16 f.fmt.toNat && !isInt fn
    arithWords x fn f s = unelems w16 (mergeFrom (predOf x f.pe f.pr) 0 (elems w16 (vreg x f.vd.toNat))
      (zip3 (elemResult fn f.fmt.toNat) (elems w16 (vreg x f.va.toNat))
        (if f.bs = 1 then broadcast w16 s else elems w16 (vreg x f.vb.toNat)) (elems w16 (vreg x f.vc.toNat)))) := by
  have hop : elemResult fn f.fmt.toNat = if isInt fn then fun a b _ => (ielem fn (BitVec.ofNat 32 a) (BitVec.ofNat 32 b)).toNat
      else felem (vfmt f.fmt.toNat) fn := by
    funext a b c
    unfold elemResult
    split <;> rfl
  rw [hop]
  rfl

/-- The second source at a position: the broadcast scalar or the register (R102). -/
theorem nth_secondSource {w16 : Bool} {e : Nat} (x : Tile) (f : LVA) (s : DWord) (he : e < elemCount w16) :
    nth 0 (if f.bs = 1 then broadcast w16 s else elems w16 (vreg x f.vb.toNat)) e =
      if f.bs = 1 then s.toNat % 2 ^ elemWidth w16 else nth 0 (elems w16 (vreg x f.vb.toNat)) e := by
  split
  · exact nth_broadcast s he
  · rfl

theorem secondSource_length (w16 : Bool) (x : Tile) (f : LVA) (s : DWord) :
    (if f.bs = 1 then broadcast w16 s else elems w16 (vreg x f.vb.toNat)).length = elemCount w16 := by
  split
  · exact broadcast_length w16 s
  · exact elems_vreg_length w16 x _

/-- The new destination register at a position (R103 to R105). -/
theorem nth_arithWords {x : Tile} {fn : VFn} {f : LVA} {w16 : Bool} (hw : (is16 f.fmt.toNat && !isInt fn) = w16) (s : DWord) {e : Nat}
    (he : e < elemCount w16) :
    let old (n : BitVec 4) : Nat := nth 0 (elems w16 (vreg x n.toNat)) e
    nth 0 (elems w16 (arithWords x fn f s)) e = (if (predOf x f.pe f.pr).getLsbD e then
      elemResult fn f.fmt.toNat (old f.va) (if f.bs = 1 then s.toNat % 2 ^ elemWidth w16 else old f.vb) (old f.vc) else old f.vd) %
        2 ^ elemWidth w16 := by
  intro old
  have hlen (n : BitVec 4) := elems_vreg_length w16 x n.toNat
  have hb := (secondSource_length w16 x f s).trans (hlen f.va).symm
  have hc := (hlen f.vc).trans (hlen f.va).symm
  have hzip := (zip3_length (elemResult fn f.fmt.toNat) hb hc).trans (hlen f.va)
  rw [arithWords_eq, hw, elems_unelems ((mergeFrom_length _ _ _ _).trans hzip), nth_map (f := (· % 2 ^ elemWidth w16)) (Nat.zero_mod _),
    nth_mergeFrom _ _ ((hlen f.vd).trans hzip.symm), nth_zip3 _ hb hc (by rw [hlen]; exact he), nth_secondSource x f s he, Nat.zero_add]

end Sys2Proof.Machine

namespace Sys2Proof
open Machine

/-- Settles O13: the elements of the written words are the codes of the masked merge, position by position. -/
theorem vectorElements : Obligations.VectorElements := by
  unfold Obligations.VectorElements
  refine ⟨?elements, fun a b => ⟨rfl, rfl, rfl, rfl, rfl, rfl, rfl, rfl, rfl, ?imin, ?imax⟩⟩
  case elements =>
    intro x fn f b e w16 w old vb res he
    exact nth_arithWords rfl b he
  case imin => simp only [ielem, BitVec.slt, decide_eq_true_eq]
  case imax => simp only [ielem, BitVec.slt, decide_eq_true_eq]

end Sys2Proof
end

section
/-!
The words of a region in the scratchpad (R120, R130): the consecutive offsets of a valid region are different physical words.
-/

namespace Sys2Proof.Machine

/-- A bank is one of 32. -/
theorem bankOf_lt (swz : Bool) (a : Nat) : bankOf swz a < 32 := by
  have hlow : a % 32 < 2 ^ 5 := Nat.mod_lt a (by decide)
  have hrow : a / 32 % 32 < 2 ^ 5 := Nat.mod_lt _ (by decide)
  unfold bankOf
  split
  · exact Nat.xor_lt_two_pow hlow hrow
  · exact hlow

/-- The mapping of word addresses to physical words is one to one. -/
theorem physIdx_inj {swz : Bool} {a b : Nat} (h : physIdx swz a = physIdx swz b) : a = b := by
  have ha := bankOf_lt swz a
  have hb := bankOf_lt swz b
  unfold physIdx at h
  have hrow : a / 32 = b / 32 := by omega
  have hbank : bankOf swz a = bankOf swz b := by omega
  have hlow : a % 32 = b % 32 := by
    unfold bankOf at hbank
    rw [hrow] at hbank
    split at hbank
    · exact Nat.xor_left_injective hbank
    · exact hbank
  omega

/-- Offsets of a region that differ by less than its size are different physical words. -/
theorem rgPhys_inj {r : Region} {o i k : Nat} (hi : i < r.size) (hk : k < r.size) (h : rgPhys r (o + i) = rgPhys r (o + k)) : i = k := by
  have hsize : r.size ≠ 0 := by omega
  have haddr : rgAddr r (o + i) = rgAddr r (o + k) := physIdx_inj h
  simp only [rgAddr, hsize, if_false, Nat.add_left_cancel_iff] at haddr
  have hmod : i % r.size = k % r.size := Nat.ModEq.add_left_cancel' o haddr
  rwa [Nat.mod_eq_of_lt hi, Nat.mod_eq_of_lt hk] at hmod

theorem rgSpan_succ (r : Region) (o n : Nat) : rgSpan r o (n + 1) = rgPhys r o :: rgSpan r (o + 1) n := by
  simp only [rgSpan, List.range_succ_eq_map, List.map_cons, List.map_map, Nat.add_zero]
  congr 1
  refine List.map_congr_left fun i _ => ?_
  simp only [Function.comp_apply]
  congr 1
  omega

theorem mem_rgSpan {r : Region} {o n i : Nat} (hi : i < n) : rgPhys r (o + i) ∈ rgSpan r o n :=
  List.mem_map.mpr ⟨i, List.mem_range.mpr hi, rfl⟩

/-- The first word of a run that the region holds is none of the others. -/
theorem rgPhys_notMem_rgSpan {r : Region} {o n : Nat} (hn : n + 1 ≤ r.size) : rgPhys r o ∉ rgSpan r (o + 1) n := by
  intro hmem
  obtain ⟨i, hi, heq⟩ := List.mem_map.mp hmem
  have hlt := List.mem_range.mp hi
  have hzero : 1 + i = 0 := rgPhys_inj (r := r) (o := o) (i := 1 + i) (k := 0) (by omega) (by omega) (by rw [← Nat.add_assoc]; exact heq)
  omega

end Sys2Proof.Machine
end

section
/-!
Stores to the scratchpad (R108, R109, R120, R161): the words that one changes, and what those hold afterwards.
-/

namespace Sys2Proof.Machine

/-- A physical word of the scratchpad. -/
def spdWord (x : Tile) (i : Nat) : Word := Map.get (fun _ => 0#32) x.spd i

/-- The scratchpad is in its canonical form. -/
def SpdWf (x : Tile) : Prop := Map.wf (fun _ => 0#32) x.spd = true

theorem spdWf_writePhys {x : Tile} (h : SpdWf x) (i : Nat) (v : Word) : SpdWf (writePhys x i v) := Map.wf_set h

theorem spdWord_writePhys {x : Tile} (h : SpdWf x) (i j : Nat) (v : Word) :
    spdWord (writePhys x i v) j = if j = i then v else spdWord x j := by
  split
  next hj => rw [hj]; exact Map.get_set_self h
  next hj => exact Map.get_set_ne h hj

/-- The bits of the bytes that a mask names. -/
def byteBits (m : Nat) : Word := BitVec.ofNat 32 ((List.range 4).foldl (fun a b => if m.testBit b then a + 0xFF <<< (8 * b) else a) 0)

/-- A word with the bytes that a mask names taken from another. -/
def mergeBytes (m : Nat) (old new : Word) : Word := (old &&& ~~~byteBits m) ||| (new &&& byteBits m)

theorem spdWf_writeBytes {x : Tile} (h : SpdWf x) (i m : Nat) (v : Word) : SpdWf (writeBytes x i m v) := Map.wf_set h

theorem spdWord_writeBytes {x : Tile} (h : SpdWf x) (i m j : Nat) (v : Word) :
    spdWord (writeBytes x i m v) j = if j = i then mergeBytes m (spdWord x j) v else spdWord x j := by
  split
  next hj => rw [hj]; exact Map.get_set_self h
  next hj => exact Map.get_set_ne h hj

/-- Byte b of a word. -/
def byteAt (b : Nat) (v : Word) : Nat := bits v (8 * b + 7) (8 * b)

theorem testBit_byteAt (b : Nat) (v : Word) (i : Nat) : (byteAt b v).testBit i = (decide (i < 8) && v.getLsbD (8 * b + i)) := by
  rw [byteAt, testBit_bits, show 8 * b + 7 + 1 - 8 * b = 8 by omega]

/-- Each bit of a byte is named where its byte is. -/
theorem getLsbD_byteBits (m : Nat) {b i : Nat} (hb : b < 4) (hi : i < 8) : (byteBits m).getLsbD (8 * b + i) = m.testBit b := by
  have hall : ∀ t0 t1 t2 t3 : Bool, ∀ b < 4, ∀ i < 8,
      (BitVec.ofNat 32 ((List.range 4).foldl (fun a b => if nth false [t0, t1, t2, t3] b then a + 0xFF <<< (8 * b) else a) 0)).getLsbD
        (8 * b + i) = nth false [t0, t1, t2, t3] b := by decide
  have hone := hall (m.testBit 0) (m.testBit 1) (m.testBit 2) (m.testBit 3) b hb i hi
  have hbit : nth false [m.testBit 0, m.testBit 1, m.testBit 2, m.testBit 3] b = m.testBit b := by
    obtain rfl | rfl | rfl | rfl : b = 0 ∨ b = 1 ∨ b = 2 ∨ b = 3 := by omega
    all_goals rfl
  rw [← hbit, ← hone]
  rfl

/-- A merged word has the new byte where the mask names it, and the old one elsewhere. -/
theorem byteAt_mergeBytes (m : Nat) (old new : Word) {b : Nat} (hb : b < 4) :
    byteAt b (mergeBytes m old new) = if m.testBit b then byteAt b new else byteAt b old := by
  refine Nat.eq_of_testBit_eq fun i => ?_
  rw [testBit_byteAt, apply_ite (Nat.testBit · i), testBit_byteAt, testBit_byteAt]
  by_cases hi : i < 8
  · have hrange : 8 * b + i < 32 := by omega
    simp only [mergeBytes, BitVec.getLsbD_or, BitVec.getLsbD_and, BitVec.getLsbD_not, getLsbD_byteBits m hb hi, hrange]
    cases m.testBit b
    · simp
    · simp
  · simp [hi]

/-- A byte at its place in a word. -/
theorem byteAt_placed {q : Nat} (hq : q < 4) (v : Nat) : byteAt q (BitVec.ofNat 32 ((v % 256) <<< (8 * q))) = v % 256 := by
  obtain rfl | rfl | rfl | rfl : q = 0 ∨ q = 1 ∨ q = 2 ∨ q = 3 := by omega
  all_goals
    simp only [byteAt, bits, BitVec.toNat_ofNat, Nat.shiftLeft_eq, Nat.shiftRight_eq_div_pow]
    omega

/-- From x to z the n words at the region offsets from o are changed, the k-th by `g k`, and no other word is. -/
structure Stores (r : Region) (o n : Nat) (g : Nat → Word → Word) (x z : Tile) : Prop where
  wf : SpdWf z
  other : ∀ j, j ∉ rgSpan r o n → spdWord z j = spdWord x j
  stored : n ≤ r.size → ∀ k < n, spdWord z (rgPhys r (o + k)) = g k (spdWord x (rgPhys r (o + k)))

theorem Stores.nil {x : Tile} (h : SpdWf x) (r : Region) (o : Nat) (g : Nat → Word → Word) : Stores r o 0 g x x where
  wf := h
  other _ _ := rfl
  stored _ k hk := absurd hk (Nat.not_lt_zero k)

/-- A word changed at the first offset, and then those of the following offsets. -/
theorem Stores.cons {r : Region} {o n : Nat} {g : Nat → Word → Word} {x y z : Tile}
    (hfirst : ∀ j, spdWord y j = if j = rgPhys r o then g 0 (spdWord x j) else spdWord x j)
    (hrest : Stores r (o + 1) n (fun k => g (k + 1)) y z) : Stores r o (n + 1) g x z where
  wf := hrest.wf
  other j hj := by
    rw [rgSpan_succ, List.mem_cons, not_or] at hj
    rw [hrest.other j hj.2, hfirst, if_neg hj.1]
  stored hn k hk := by
    have hapart := rgPhys_notMem_rgSpan (o := o) hn
    cases k with
    | zero => rw [Nat.add_zero, hrest.other _ hapart, hfirst, if_pos rfl]
    | succ k =>
      have hne : rgPhys r (o + 1 + k) ≠ rgPhys r o := fun heq => hapart (heq ▸ mem_rgSpan (Nat.lt_of_succ_lt_succ hk))
      have hword := hrest.stored (Nat.le_of_succ_le hn) k (Nat.lt_of_succ_lt_succ hk)
      rw [hfirst, if_neg hne] at hword
      rwa [Nat.add_right_comm] at hword

/-- Words stored where the predicate enables their lanes. -/
theorem storeWords_stores (r : Region) (p : DWord) : ∀ (l : List Word) (o i : Nat) {x : Tile}, SpdWf x →
    Stores r o l.length (fun k old => if p.getLsbD (i + k) then nth 0 l k else old) x (storeWords x r p o i l)
  | [], _, _, _, h => .nil h _ _ _
  | v :: l, o, i, x, h => by
    have hwf : SpdWf (if p.getLsbD i then writePhys x (rgPhys r o) v else x) := by
      split
      · exact spdWf_writePhys h _ _
      · exact h
    refine .cons (y := if p.getLsbD i then writePhys x (rgPhys r o) v else x) (fun j => ?_) ?_
    · by_cases hp : p.getLsbD i = true
      · simp only [hp, if_true, spdWord_writePhys h, Nat.add_zero]
        rfl
      · simp only [hp, Nat.add_zero, Bool.false_eq_true, if_false, ite_self]
    · have hrest := storeWords_stores r p l (o + 1) (i + 1) hwf
      simp only [Nat.add_assoc, Nat.add_comm 1] at hrest
      exact hrest

theorem writeRegion_stores (r : Region) : ∀ (l : List Word) (o : Nat) {x : Tile}, SpdWf x →
    Stores r o l.length (fun k _ => nth 0 l k) x (writeRegion x r o l)
  | [], _, _, h => .nil h _ _ _
  | _ :: l, o, _, h => .cons (spdWord_writePhys h _ · _) (writeRegion_stores r l (o + 1) (spdWf_writePhys h _ _))

theorem storeMasked_stores (r : Region) (m : Nat → Nat) : ∀ (l : List Word) (o i : Nat) {x : Tile}, SpdWf x →
    Stores r o l.length (fun k old => mergeBytes (m (i + k)) old (nth 0 l k)) x (storeMasked x r m o i l)
  | [], _, _, _, h => .nil h _ _ _
  | v :: l, o, i, _, h => by
    have hrest := storeMasked_stores r m l (o + 1) (i + 1) (spdWf_writeBytes h (rgPhys r o) (m i) v)
    simp only [Nat.add_assoc, Nat.add_comm 1] at hrest
    exact .cons (spdWord_writeBytes h _ _ · _) hrest

/-- A byte run changes words of its span alone (R109). -/
theorem writeByteRun_other {r : Region} {o j : Nat} : ∀ (l : List Nat) (b : Nat) {x : Tile}, SpdWf x →
    j ∉ rgSpan r o ((b + l.length + 3) / 4) → spdWord (writeByteRun x r o b l) j = spdWord x j
  | [], _, _, _, _ => rfl
  | a :: l, b, x, h, hj => by
    rw [List.length_cons] at hj
    have hne : j ≠ rgPhys r (o + b / 4) := fun heq => hj (heq ▸ mem_rgSpan (by omega))
    have hlater : j ∉ rgSpan r o ((b + 1 + l.length + 3) / 4) := by rwa [show b + 1 + l.length = b + (l.length + 1) by omega]
    rw [writeByteRun, writeByteRun_other l (b + 1) (spdWf_writeBytes h _ _ _) hlater, spdWord_writeBytes h, if_neg hne]

/-- Byte n of a region, counted from offset o. -/
def regionByte (x : Tile) (r : Region) (o n : Nat) : Nat := byteAt (n % 4) (spdWord x (rgPhys r (o + n / 4)))

/-- One byte written in a region leaves the others. -/
theorem regionByte_writeBytes {x : Tile} (h : SpdWf x) {r : Region} (o : Nat) {b n : Nat} (v : Nat) (hb : b / 4 < r.size) (hn : n / 4 < r.size) :
    regionByte (writeBytes x (rgPhys r (o + b / 4)) (2 ^ (b % 4)) (BitVec.ofNat 32 ((v % 256) <<< (8 * (b % 4))))) r o n =
      if n = b then v % 256 else regionByte x r o n := by
  have hq : n % 4 < 4 := Nat.mod_lt n (by decide)
  rw [regionByte, spdWord_writeBytes h]
  by_cases hword : n / 4 = b / 4
  · rw [hword, if_pos rfl, byteAt_mergeBytes _ _ _ hq, Nat.testBit_two_pow]
    by_cases hbyte : n = b
    · simp only [hbyte, decide_true, if_true]
      exact byteAt_placed (Nat.mod_lt b (by decide)) v
    · have hother : ¬ b % 4 = n % 4 := by omega
      simp only [hother, hbyte, decide_false, Bool.false_eq_true, if_false, regionByte, hword]
  · have hother : n ≠ b := fun heq => hword (by rw [heq])
    rw [if_neg fun heq => hword (rgPhys_inj hn hb heq), if_neg hother, regionByte]

/-- The bytes of a run as written, those before it as before (R109). -/
theorem regionByte_writeByteRun {r : Region} {o n : Nat} : ∀ (l : List Nat) (b : Nat) {x : Tile}, SpdWf x →
    (b + l.length + 3) / 4 ≤ r.size → n < b + l.length →
    regionByte (writeByteRun x r o b l) r o n = if b ≤ n then nth 0 l (n - b) % 256 else regionByte x r o n
  | [], b, x, _, _, hn => by
    rw [if_neg (by simpa using hn)]
    rfl
  | a :: l, b, x, h, hfit, hn => by
    rw [List.length_cons] at hfit hn
    have hrest := regionByte_writeByteRun (r := r) (o := o) (n := n) l (b + 1) (spdWf_writeBytes h (rgPhys r (o + b / 4)) (2 ^ (b % 4))
      (BitVec.ofNat 32 ((a % 256) <<< (8 * (b % 4))))) (by omega) (by omega)
    rw [writeByteRun, hrest, regionByte_writeBytes h o a (by omega) (by omega)]
    by_cases hlater : b + 1 ≤ n
    · obtain ⟨k, rfl⟩ := Nat.exists_eq_add_of_le hlater
      rw [if_pos hlater, if_pos (by omega), show b + 1 + k - (b + 1) = k by omega, show b + 1 + k - b = k + 1 by omega]
      rfl
    · rw [if_neg hlater]
      by_cases hhere : n = b
      · rw [if_pos hhere, if_pos (by omega), hhere, Nat.sub_self]
        rfl
      · rw [if_neg hhere, if_neg (by omega)]

/-- Cleared words read as +0, the others as before (R139). -/
theorem spdWord_clearWords {x : Tile} (h : SpdWf x) (a n j : Nat) :
    spdWord (clearWords x a n) j = if a ≤ j ∧ j < a + n then 0#32 else spdWord x j := by
  have hget : spdWord (clearWords x a n) j = if decide (j < a) || decide (a + n ≤ j) then spdWord x j else 0#32 := Map.get_filter _ j h
  rw [hget]
  by_cases hin : a ≤ j ∧ j < a + n
  · rw [if_pos hin, if_neg (by simp; omega)]
  · rw [if_neg hin, if_pos (by simp; omega)]

end Sys2Proof.Machine

namespace Sys2Proof
open Machine

/-- Settles O17: each store by the words that it changes; the bytes of a run by their places in the region. -/
theorem storeFrames : Obligations.StoreFrames := by
  unfold Obligations.StoreFrames
  intro x hwf w
  refine ⟨spdWord_writePhys hwf, fun r p o i l j => (storeWords_stores r p l o i hwf).other j,
    fun r m o i l j => (storeMasked_stores r m l o i hwf).other j, fun r o l j => (writeRegion_stores r l o hwf).other j,
    fun r o b l j => writeByteRun_other l b hwf, fun a n j hj => ?_, fun a n j hlo hhi => ?_,
    fun r p o i k l _ hfit hk => (storeWords_stores r p l o i hwf).stored hfit k hk,
    fun r o k l _ hfit hk => (writeRegion_stores r l o hwf).stored hfit k hk, ?masked, ?run⟩
  · exact (spdWord_clearWords hwf a n j).trans (if_neg (by omega))
  · exact (spdWord_clearWords hwf a n j).trans (if_pos ⟨hlo, hhi⟩)
  case masked =>
    intro r m o i k b l _ hfit hk hb byte
    have hword := (storeMasked_stores r m l o i hwf).stored hfit k hk
    exact (congrArg (byteAt b) hword).trans (byteAt_mergeBytes _ _ _ hb)
  case run =>
    intro r o b k l _ hfit hk q
    have hbyte := regionByte_writeByteRun (n := b + k) (o := o) l b hwf hfit (by omega)
    rw [if_pos (by omega), Nat.add_sub_cancel_left] at hbyte
    exact hbyte

end Sys2Proof
end

section
/-!
The queue and the time base: what the work of the module leaves as it is. Only the reference moves Cirrus (R374), and only the loss of
both feeds holds the common bus up or ends that (R351).
-/

namespace Sys2Proof.Machine

/-- The queue, Cirrus with whether it counts, and the moment from which the common bus is held up. -/
def State.clock (s : State) : List Instr × BitVec 64 × Bool × Option (BitVec 64) := (s.pending, s.now, s.counting, s.mod.holdUp)

/-- Work done in turn, none of which moves the time base. -/
theorem State.clock_foldl {α : Type} {step : State → α → State} (h : ∀ u a, (step u a).clock = u.clock) (l : List α) (s : State) :
    (l.foldl step s).clock = s.clock :=
  List.foldlRecOn (motive := fun u => u.clock = s.clock) l step rfl fun u hu a _ => (h u a).trans hu

@[simp] theorem State.clock_ite (c : Prop) [Decidable c] (a b : State) : (if c then a else b).clock = if c then a.clock else b.clock :=
  apply_ite State.clock c a b

/-! The setters. -/

@[simp] theorem State.clock_setTile (s : State) (t : Nat) (x : Tile) : (s.setTile t x).clock = s.clock := rfl
@[simp] theorem State.clock_setField (s : State) (f : Nat) (x : Field) : (s.setField f x).clock = s.clock := rfl
@[simp] theorem State.clock_setSite (s : State) (n : Nat) (x : Site) : (s.setSite n x).clock = s.clock := rfl
@[simp] theorem State.clock_setPort (s : State) (q : Nat) (x : Port) : (s.setPort q x).clock = s.clock := rfl
@[simp] theorem State.clock_setPart (s : State) (p : Nat) (x : Part) : (s.setPart p x).clock = s.clock := rfl
@[simp] theorem State.clock_say (s : State) (m : Msg) : (s.say m).clock = s.clock := rfl
@[simp] theorem State.clock_ezPut (s : State) (o : Nat) (v : Word) : (s.ezPut o v).clock = s.clock := rfl
@[simp] theorem State.clock_ezField (s : State) (o hi lo v : Nat) : (s.ezField o hi lo v).clock = s.clock := rfl
@[simp] theorem State.clock_setFree (s : State) (n : Nat) : ({ s with free := n } : State).clock = s.clock := rfl

/-- A change of the module that leaves the hold-up of the common bus. -/
theorem State.clock_updMod {g : Module → Module} (hg : ∀ m, (g m).holdUp = m.holdUp) (s : State) : (s.updMod g).clock = s.clock := by
  simp only [State.clock, State.updMod, hg]

@[simp] theorem State.clock_updCc (s : State) (g : Module → CC) : (s.updMod fun m => { m with cc := g m }).clock = s.clock := rfl
@[simp] theorem State.clock_updSec (s : State) (g : Module → Sec) : (s.updMod fun m => { m with sec := g m }).clock = s.clock := rfl

/-! Work whose extent is known. -/

theorem AbortWork.clock_eq {p : Nat} {s u : State} (h : AbortWork p s u) : u.clock = s.clock := by
  obtain ⟨_, _, _, _, _, _, _, _, rfl⟩ := h.frame
  rfl

theorem PortWork.clock_eq {s u : State} (h : PortWork s u) : u.clock = s.clock := by
  obtain ⟨_, _, _, rfl⟩ := h
  rfl

theorem StoreWork.clock_eq {s u : State} (h : StoreWork s u) : u.clock = s.clock := by
  obtain ⟨_, _, _, _, _, rfl, -⟩ := h
  rfl

@[simp] theorem State.clock_post (s : State) (r : Nat) (m : Msg) : (s.post r m).clock = s.clock := (s.post_abortWork 0 r m).clock_eq
@[simp] theorem State.clock_raise (s : State) (r : Rec) : (s.raise r).clock = s.clock := (s.raise_abortWork r).clock_eq
@[simp] theorem State.clock_raiseAll (s : State) (l : List Rec) : (s.raiseAll l).clock = s.clock := State.clock_foldl State.clock_raise l s
@[simp] theorem State.clock_requestAbort (s : State) (p cause : Nat) : (s.requestAbort p cause).clock = s.clock :=
  (s.requestAbort_abortWork p cause).clock_eq
@[simp] theorem State.clock_fromSite (s : State) (n edge : Nat) (f : Flit) : (s.fromSite n edge f).clock = s.clock :=
  (s.fromSite_abortWork 0 n edge f).clock_eq
@[simp] theorem State.clock_reportGuar (s : State) : s.reportGuar.clock = s.clock := by
  obtain ⟨_, _, _, h⟩ := s.reportGuar_frame
  rw [h]
  rfl

/-! Tiles and sites in a pass of time. -/

@[simp] theorem State.clock_upset (s : State) : s.upset.clock = s.clock := by
  unfold State.upset
  split
  · rfl
  · dsimp only
    split
    · rfl
    · split <;> simp

@[simp] theorem State.clock_onTile (s : State) (t : Nat) (f : Env → TS → TS) : (s.onTile t f).clock = s.clock := by
  simp [State.onTile]

@[simp] theorem State.clock_idleTile (s : State) (t : Nat) : (s.idleTile t).clock = s.clock := by
  simp [State.idleTile]

@[simp] theorem State.clock_crcFailedAt (s : State) (t port k n q : Nat) (counts inj : Bool) :
    (s.crcFailedAt t port k n q counts inj).clock = s.clock := by
  simp [State.crcFailedAt]

@[simp] theorem State.clock_edgeCrc (s : State) (edge port : Nat) : (s.edgeCrc edge port).clock = s.clock := by
  simp [State.edgeCrc]

@[simp] theorem State.clock_portRefill (edge port n fuel : Nat) : ∀ s : State, (State.portRefill edge port n fuel s).clock = s.clock := by
  induction fuel with
  | zero => exact fun _ => rfl
  | succ fuel ih =>
    intro s
    simp only [State.portRefill]
    split
    · rfl
    · split
      · rfl
      · simp [ih]

@[simp] theorem State.clock_siteRefill (s : State) (edge : Nat) : (s.siteRefill edge).clock = s.clock := by
  refine State.clock_foldl (fun u port => ?_) _ s
  split
  · rfl
  · exact State.clock_portRefill _ _ _ _ _

@[simp] theorem State.clock_onSite (s : State) (n : Nat) (f : SEnv → SS → SS) : (s.onSite n f).clock = s.clock := by
  simp only [State.onSite, State.clock_raiseAll]
  exact State.clock_foldl (fun u (ef : Nat × Flit) => u.clock_fromSite n ef.1 ef.2) _ _

@[simp] theorem State.clock_idleSite (s : State) (n : Nat) : (s.idleSite n).clock = s.clock := by
  simp only [State.idleSite, State.clock_setSite, State.clock_onSite]
  exact State.clock_foldl State.clock_siteRefill _ s

end Sys2Proof.Machine
end

section
/-!
The Halo ports in a pass of time leave the queue and the time base (R385, R393).
-/

namespace Sys2Proof.Machine

@[simp] theorem State.clock_haloFlush (s : State) (q k : Nat) : (s.haloFlush q k).clock = s.clock := (State.haloFlush_portWork q k s).clock_eq
@[simp] theorem State.clock_roceFlush (s : State) (q : Nat) : (s.roceFlush q).clock = s.clock := (s.roceFlush_portWork q).clock_eq
@[simp] theorem State.clock_haloCmpl (s : State) (q tag qp status ecode : Nat) (data : List Byte) :
    (s.haloCmpl q tag qp status ecode data).clock = s.clock := (s.haloCmpl_portWork q tag qp status ecode data).clock_eq
@[simp] theorem State.clock_endXfer (s : State) (q : Nat) (x : HXfer) (status ecode : Nat) :
    (s.endXfer q x status ecode).clock = s.clock := (s.endXfer_portWork q x status ecode).clock_eq

/-- A request that a site takes. -/
theorem State.clock_siteTake {s u : State} {q : Nat} {x : HXfer} {r : SiteReq} (h : s.siteTake q x r = some u) : u.clock = s.clock := by
  unfold State.siteTake at h
  split at h
  · rw [← Option.some.inj h, State.clock_endXfer]
  · split at h
    · cases h
    · rw [← Option.some.inj h, State.clock_raiseAll]
      exact State.clock_foldl (fun u (ef : Nat × Flit) => u.clock_fromSite x.site ef.1 ef.2) _ _

theorem State.clock_haloPut {s u : State} {q k : Nat} {x : HXfer} {b : List Byte} (h : s.haloPut q x k b = some u) : u.clock = s.clock :=
  State.clock_siteTake h

theorem State.clock_rocePut {s u : State} {q k : Nat} {x : HXfer} (h : s.rocePut q x k = some u) : u.clock = s.clock := by
  simp only [State.rocePut] at h
  split at h
  · exact State.clock_haloPut h
  · exact State.clock_siteTake h

@[simp] theorem State.clock_haloAsk (q tag : Nat) (mod : Bool) (k : Nat) : ∀ s : State, (s.haloAsk q tag mod k).clock = s.clock := by
  induction k with
  | zero => exact fun _ => rfl
  | succ k ih =>
    intro s
    simp only [State.haloAsk]
    split
    · rfl
    · split
      · rfl
      · split
        · rfl
        next u hput =>
          rw [ih u]
          split at hput
          · exact (State.clock_siteTake hput).trans (s.clock_setPort q _)
          · exact (State.clock_rocePut hput).trans (s.clock_setPort q _)

@[simp] theorem State.clock_haloTurnAway (s : State) (q tag qp win unit status : Nat) :
    (s.haloTurnAway q tag qp win unit status).clock = s.clock := by
  simp [State.haloTurnAway]

@[simp] theorem State.clock_haloRequest (s : State) (q tag : Nat) (read : Bool) (data : List Byte) :
    (s.haloRequest q tag read data).clock = s.clock := by
  simp only [State.haloRequest]
  split
  · rfl
  · split
    · simp
    · simp

/-- The units of a write or of data read that a site takes, one or two. -/
theorem State.clock_haloUnits {s u : State} {q tag off : Nat} {mod : Bool} {data : List Byte}
    (h : s.haloUnits q tag off mod data = some u) : u.clock = s.clock := by
  simp only [State.haloUnits] at h
  split at h
  · rw [← Option.some.inj h]
  next x _ =>
    split at h
    · cases h
    · have taken {v w : State} {k : Nat} {b : List Byte} (hv : (if k < x.n then v.haloPut q x k b else some v) = some w) : w.clock = v.clock := by
        split at hv
        · exact State.clock_haloPut hv
        · rw [← Option.some.inj hv]
      simp only [List.foldl_cons, List.foldl_nil] at h
      split at h
      · cases h
      next v hv => exact (taken h).trans (taken hv)

theorem State.clock_haloHandle {s u : State} {q typ : Nat} {x : HFlit} (h : s.haloHandle q typ x = some u) : u.clock = s.clock := by
  unfold State.haloHandle at h
  split at h
  · rw [← Option.some.inj h, State.clock_haloRequest]
  · exact State.clock_haloUnits h
  · rw [← Option.some.inj h, State.clock_haloRequest]
  · exact State.clock_haloUnits h
  · split at h
    · rw [← Option.some.inj h]
    · rw [← Option.some.inj h, State.clock_endXfer]
  · rw [← Option.some.inj h]

@[simp] theorem State.clock_haloDrain (q k : Nat) : ∀ s : State, (s.haloDrain q k).clock = s.clock := by
  induction k with
  | zero => exact fun _ => rfl
  | succ k ih =>
    intro s
    simp only [State.haloDrain]
    split
    · rfl
    · split
      · rfl
      next u hu => rw [ih, State.clock_setPort, State.clock_haloHandle hu]

@[simp] theorem State.clock_haloPump (s : State) (q : Nat) : (s.haloPump q).clock = s.clock :=
  State.clock_foldl (fun u (x : HXfer) => State.clock_haloAsk q x.tag x.mod 2048 u) _ s

@[simp] theorem State.clock_haloTick (s : State) (q : Nat) : (s.haloTick q).clock = s.clock := by
  simp [State.haloTick]

@[simp] theorem State.clock_postArea (s : State) (q : Nat) : (s.postArea q).clock = s.clock := rfl

@[simp] theorem State.clock_idlePort (s : State) (q : Nat) : (s.idlePort q).clock = s.clock := by
  simp [State.idlePort]

end Sys2Proof.Machine
end

section
/-!
Fields, route tables and changes of owner leave the queue and the time base (R226 to R229, R358, R417).
-/

namespace Sys2Proof.Machine

@[simp] theorem State.clock_levels (s : State) (f : Nat) : (s.levels f).clock = s.clock := by
  obtain ⟨_, _, _, h⟩ := (s.levels_levelWork f).frame
  rw [h]
  rfl

@[simp] theorem State.clock_setFieldOwner (s : State) (f p : Nat) : (s.setFieldOwner f p).clock = s.clock := by
  simp [State.setFieldOwner]

/-! A field that powers up (R358). -/

@[simp] theorem State.clock_startNodes (s : State) (f : Nat) : (s.startNodes f).clock = s.clock := by
  unfold State.startNodes
  split
  · rfl
  · dsimp only
    split
    · exact (State.clock_foldl (fun u g => by simp) _ _).trans (s.clock_setField f _)
    · rfl

@[simp] theorem State.clock_leaveDark (s : State) (f : Nat) (err : Bool) : (s.leaveDark f err).clock = s.clock := by
  simp [State.leaveDark]

@[simp] theorem State.clock_checkMap (s : State) (f : Nat) : (s.checkMap f).clock = s.clock := by
  unfold State.checkMap
  split
  · simp
  · split <;> simp

@[simp] theorem State.clock_supplied (s : State) (f : Nat) : (s.supplied f).clock = s.clock := by
  simp [State.supplied]

@[simp] theorem State.clock_restoreMap (s : State) (f : Nat) : (s.restoreMap f).clock = s.clock := by
  unfold State.restoreMap
  split
  · exact s.clock_raise _
  · dsimp only
    obtain ⟨_, _, _, _, _, h⟩ := s.writeMap_done f _ _ _ false
    rw [h]
    rfl

@[simp] theorem State.clock_closeJournal (s : State) : s.closeJournal.clock = s.clock := s.closeJournal_storeWork.clock_eq

@[simp] theorem State.clock_powerUp (s : State) (f : Nat) : (s.powerUp f).clock = s.clock := by
  simp [State.powerUp_eq]

@[simp] theorem State.clock_fieldCmd (s : State) (f cmd : Nat) : (s.fieldCmd f cmd).clock = s.clock := by
  unfold State.fieldCmd
  dsimp only
  split <;> simp

@[simp] theorem State.clock_refill (s : State) (f : Nat) : (s.refill f).clock = s.clock := by
  simp [State.refill, State.keepReserve]

/-! Route tables (R226 to R229). -/

@[simp] theorem State.clock_putXmask (s : State) : s.putXmask.clock = s.clock := by
  obtain ⟨_, h⟩ := s.putXmask_frame
  rw [h]
  rfl

@[simp] theorem State.clock_xmasks (s : State) : s.xmasks.clock = s.clock := by
  simp [State.xmasks]

@[simp] theorem State.clock_xmaskAbort (s : State) (f : Nat) : (s.xmaskAbort f).clock = s.clock := by
  have hmasked : ((List.range nParts).foldl (fun u p => if (bits (s.ez (pwr f 4)) 15 8).testBit p then u.requestAbort p 3 else u) s).clock =
      s.clock := State.clock_foldl (fun u p => by simp) _ s
  simpa [State.xmaskAbort] using hmasked

@[simp] theorem State.clock_setUnreach (s : State) (f : Nat) (lost : Bool) : (s.setUnreach f lost).clock = s.clock := by
  simp [State.setUnreach]

@[simp] theorem State.clock_loadTables (s : State) (kept main : List Nat) (r : RouteSet) : (s.loadTables kept main r).clock = s.clock :=
  State.clock_foldl (fun u f => u.clock_setField f _) s.onFields s

theorem State.clock_setPart_if (s : State) (p : Nat) {x : Part} {c : Prop} [Decidable c] : (if c then s.setPart p x else s).clock = s.clock := by
  simp

@[simp] theorem State.clock_finishSwap (s : State) : s.finishSwap.clock = s.clock := by
  simp only [State.finishSwap, State.clock_reportGuar, State.clock_putXmask, State.clock_updCc]
  rw [State.clock_foldl fun u p => u.clock_setPart_if p]
  exact State.clock_foldl (fun u f => u.clock_setField f _) _ s

@[simp] theorem State.clock_heldSwap (s : State) : s.heldSwap.clock = s.clock := by
  simp [State.heldSwap]

@[simp] theorem State.clock_reroute (s : State) : s.reroute.clock = s.clock := by
  unfold State.reroute
  split
  · simp
  · split
    next kept r _ =>
      dsimp only
      have hload := (State.clock_loadTables _ kept (mainGroup kept) r).trans (State.clock_foldl
        (fun u f => u.clock_setUnreach f (decide ((u.field f).power = 2) && !(mainGroup kept).contains f)) (List.range nFields) s)
      split
      · rw [State.clock_heldSwap, State.clock_putXmask, State.clock_updCc, State.clock_foldl fun u p => u.clock_setPart_if p]
        exact hload
      · rw [State.clock_finishSwap, hload]

/-! Changes of owner (R417). -/

@[simp] theorem State.clock_setConf (s : State) (p : Nat) (c : PartConf) : (s.setConf p c).clock = s.clock := rfl
@[simp] theorem State.clock_mapTiles (s : State) (g : Nat → Tile → Tile) : (s.mapTiles g).clock = s.clock := rfl

@[simp] theorem State.clock_eachSite (s : State) (p : Nat) (g : Site → Site) : (s.eachSite p g).clock = s.clock :=
  (s.eachSite_portWork p g).clock_eq

@[simp] theorem State.clock_putTables (s : State) (p : Nat) (m : Manifest) : (s.putTables p m).clock = s.clock := by
  obtain ⟨_, _, h⟩ := s.putTables_frame p m
  rw [h]
  rfl

@[simp] theorem State.clock_movedField (s : State) (p f g : Nat) (m m1 : Manifest) (b : Binary) :
    (s.movedField p f g m m1 b).clock = s.clock := by
  unfold State.movedField
  extract_lets q fmap s1 s2 x s3 s4 c s6 y
  have owned : s1.clock = s.clock := by simp [s1]
  have loaded : s4.clock = s3.clock := State.clock_foldl (fun u _ => u.clock_setTile _ _) _ s3
  rw [State.clock_setPart, State.clock_setConf, loaded, State.clock_setField, State.clock_putTables, owned]

@[simp] theorem State.clock_jobMoves (s : State) (p i : Nat) : (s.jobMoves p i).clock = s.clock := by
  unfold State.jobMoves
  split
  · split
    · simp [State.moveField]
    · rfl
  · rfl

@[simp] theorem State.clock_confMove (s : State) (k : ResKind) (i old new : Nat) : (s.confMove k i old new).clock = s.clock := by
  simp [State.confMove]

@[simp] theorem State.clock_siteLeaves (s : State) (n : Nat) : (s.siteLeaves n).clock = s.clock := by
  simp only [State.siteLeaves]
  split
  · rfl
  · exact State.clock_foldl (fun u q => u.clock_setPort q _) _ _

@[simp] theorem State.clock_capacityDo (s : State) (k : ResKind) (i old new : Nat) : (s.capacityDo k i old new).clock = s.clock := by
  cases k with
  | field => simp [State.capacityDo]
  | site => simp [State.capacityDo, State.wipeStart]
  | chan => simp [State.capacityDo]
  | port => simp [State.capacityDo]

@[simp] theorem State.clock_sameOwner (s : State) (k : ResKind) (i p : Nat) : (s.sameOwner k i p).clock = s.clock := by
  simp only [State.sameOwner]
  split <;> simp [State.enableSite]

@[simp] theorem State.clock_capacity (s : State) (k : ResKind) (i new : Nat) : (s.capacity k i new).clock = s.clock := by
  simp only [State.capacity]
  split
  · rfl
  · split
    · simp
    · split
      · rfl
      · rfl
      · simp

@[simp] theorem State.clock_changeGo (s : State) (c : ResKind × Nat × Nat) : (s.changeGo c).clock = s.clock := by
  unfold State.changeGo
  split
  · simp
  · rfl

@[simp] theorem State.clock_releaseNow (s : State) (p : Nat) : (s.releaseNow p).clock = s.clock := by
  simp [State.releaseNow, State.unload]

@[simp] theorem State.clock_idleRoutes (s : State) : s.idleRoutes.clock = s.clock := by
  simp [State.idleRoutes]

end Sys2Proof.Machine
end

section
/-!
Resets of the module and unlocks leave the queue and the time base (R434, R470).
-/

namespace Sys2Proof.Machine

@[simp] theorem State.clock_snapSec (s : State) : s.snapSec.clock = s.clock := by
  simp [State.snapSec]

@[simp] theorem State.clock_rootRecord (s : State) (code : Nat) : (s.rootRecord code).clock = s.clock := s.clock_raise _

@[simp] theorem State.clock_destroyKey (s : State) (p : Nat) : (s.destroyKey p).clock = s.clock := by
  refine (State.clock_foldl (fun u n => ?_) _ _).trans (s.clock_setPart p _)
  split <;> rfl

@[simp] theorem State.clock_destroyAll (s : State) : s.destroyAll.clock = s.clock := by
  unfold State.destroyAll
  extract_lets seen s1 s2 s3 s4 s5
  have keys : s1.clock = s.clock := State.clock_foldl State.clock_destroyKey _ s
  have sites : s2.clock = s1.clock := State.clock_foldl (fun u n => u.clock_setSite n _) _ s1
  have fields : s3.clock = s2.clock := State.clock_foldl (fun u f => u.clock_setFieldOwner f 15) _ s2
  have ports : s4.clock = s3.clock := State.clock_foldl (fun u q => u.clock_setPort q _) _ s3
  have parts : s5.clock = s4.clock := State.clock_foldl (fun u p => u.clock_setPart p _) _ s4
  simp [parts, ports, fields, sites, keys]

@[simp] theorem State.clock_haloRetrain (s : State) (q : Nat) : (s.haloRetrain q).clock = s.clock := rfl

@[simp] theorem State.clock_vreqWrite (s : State) (f v : Nat) : (s.vreqWrite f v).clock = s.clock := by
  simp [State.vreqWrite]

@[simp] theorem State.clock_restart (s : State) : s.restart.clock = s.clock := by
  unfold State.restart
  extract_lets s1 s2 s3
  have sites : s1.clock = s.clock := State.clock_foldl (fun u n => u.clock_setSite n _) _ s
  have ports : s2.clock = s1.clock := State.clock_foldl (fun u q => by simp) _ s1
  have fields : s3.clock = s2.clock := State.clock_foldl (fun u f => by simp) _ s2
  have started : s3.clock = s.clock := (fields.trans ports).trans sites
  clear_value s3
  exact started

@[simp] theorem State.clock_stageOff (s : State) (f power cause : Nat) : (s.stageOff f power cause false).clock = s.clock := by
  rw [State.stageOff_eq, State.clock_levels, if_neg Bool.false_ne_true, State.darkened, State.offRegs]
  simp only [State.clock_ezField]
  rfl

@[simp] theorem State.clock_resetGo (s : State) : s.resetGo.clock = s.clock := by
  unfold State.resetGo
  split
  · rfl
  · dsimp only
    split
    · simp
    · rw [State.clock_foldl fun u f => by simp, State.clock_foldl fun u f => u.clock_fieldCmd f 2, State.clock_destroyAll]

/-- The abort of the whole module (R414). -/
@[simp] theorem State.clock_modAbort (s : State) : s.modAbort.clock = s.clock := by
  unfold State.modAbort
  extract_lets s1 s2
  have aborted : s1.clock = s.clock := State.clock_foldl (fun u p => u.clock_requestAbort p 6) _ s
  clear_value s1
  exact (State.clock_foldl (fun u f => u.clock_setField f _) _ s2).trans aborted

@[simp] theorem State.clock_unlockEnd (s : State) : s.unlockEnd.clock = s.clock := by
  unfold State.unlockEnd
  split
  · rfl
  · simp

@[simp] theorem State.clock_unlockGo (s : State) : s.unlockGo.clock = s.clock := by
  simp [State.unlockGo, State.unlockNow]

end Sys2Proof.Machine
end

section
/-!
A step on an empty queue (log entry 5).
-/

namespace Sys2Proof.Machine

/-- The pass of time after the reference has counted and before the hold-up of the common bus can end. -/
def State.passed (s : State) : State :=
  let a := (s.tiles.map (·.1)).foldl State.idleTile s.idleTime.upset
  let b := (s.sites.map (·.1)).foldl State.idleSite a
  let c := (List.range nParts).foldl State.releaseNow ((s.ports.map (·.1)).foldl State.idlePort b)
  (c.mod.cc.changes.foldl State.changeGo c).idleRoutes.resetGo.unlockGo

theorem State.idle_eq (s : State) : s.idle = s.passed.holdUpOver := rfl

/-- The pass itself leaves the queue and the time base as the reference left them. -/
theorem State.clock_passed (s : State) : s.passed.clock = s.idleTime.clock := by
  unfold State.passed
  extract_lets a b c
  have tiles : a.clock = s.idleTime.clock := (State.clock_foldl State.clock_idleTile _ _).trans s.idleTime.clock_upset
  have sites : b.clock = a.clock := State.clock_foldl State.clock_idleSite _ a
  have parts : c.clock = b.clock := (State.clock_foldl State.clock_releaseNow _ _).trans (State.clock_foldl State.clock_idlePort _ b)
  rw [State.clock_unlockGo, State.clock_resetGo, State.clock_idleRoutes, State.clock_foldl State.clock_changeGo, parts, sites, tiles]

/-- The reference moves Cirrus forward while it counts, and nothing else of the time base (R374). -/
theorem State.idleTime_clock (s : State) : s.idleTime.pending = s.pending ∧ s.idleTime.mod.holdUp = s.mod.holdUp ∧
    s.idleTime.counting = s.counting ∧ (s.counting = false → s.idleTime.now = s.now) ∧ s.now.toNat ≤ s.idleTime.now.toNat := by
  unfold State.idleTime
  split
  next hcounts =>
    refine ⟨rfl, rfl, rfl, fun hstill => absurd (hcounts.symm.trans hstill) (by decide), ?_⟩
    rw [BitVec.toNat_ofNat]
    have := s.now.isLt
    omega
  next => exact ⟨rfl, rfl, rfl, fun _ => rfl, le_rfl⟩

/-- What a pass of time does to the queue and to Cirrus, while the common bus holds and where nothing counts (R351, R374). -/
theorem State.idle_clock (s : State) : s.idle.pending = s.pending ∧
    (s.mod.holdUp = none → s.idle.counting = s.counting ∧ (s.counting = false → s.idle.now = s.now) ∧ s.now.toNat ≤ s.idle.now.toNat) ∧
    (∀ k, s.mod.holdUp = some k → s.counting = false → s.idle.now = 0 ∧ s.idle.tiles = []) := by
  obtain ⟨hpending, hhold, hcounting, hstands, hforward⟩ := s.idleTime_clock
  have hclock := s.clock_passed
  simp only [State.clock, Prod.mk.injEq, hpending, hhold, hcounting] at hclock
  obtain ⟨hpending', hnow, hcounting', hhold'⟩ := hclock
  rw [State.idle_eq]
  generalize s.passed = u at hpending' hnow hcounting' hhold'
  rw [← hnow] at hstands hforward
  unfold State.holdUpOver
  cases hbus : s.mod.holdUp with
  | none =>
    rw [hbus] at hhold'
    rw [hhold']
    exact ⟨hpending', fun _ => ⟨hcounting', hstands, hforward⟩, fun k hk => by cases hk⟩
  | some k =>
    rw [hbus] at hhold'
    rw [hhold']
    dsimp only
    refine ⟨?_, fun h => absurd h (by simp), fun _ _ hstill => ?_⟩
    · split
      · exact hpending'
      · exact hpending'
    · rw [if_pos (by simp [hcounting', hstill])]
      exact ⟨rfl, rfl⟩

theorem step_idle {s : State} (hempty : s.pending = []) : step s = .next s.idle := by
  rw [step, hempty]

/-- A site without flits that wait to enter the wafer lets reads land, and writes the next entry of what it exports. -/
theorem State.idleSite_quiet {s : State} {n : Nat} (hout : (s.site n).out = []) : s.idleSite n =
    (let a := s.onSite n landSlots
    let x := a.site n
    a.setSite n (if x.exp.busy = true ∧ x.exp.next < bits (x.csrWord 0x664) 19 0 then exportEntry x else x)) := by
  simp [State.idleSite, hout]

theorem State.changeGo_ready {s : State} {k : ResKind} {i p : Nat} (hup : s.mod.cc.up = true)
    (hready : s.changeReady k i (s.ownerOf k i) p = true) :
    s.changeGo (k, i, p) = (s.updMod fun m => { m with cc := { m.cc with changes := dropChange k i m.cc.changes } }).capacity k i p :=
  if_pos (by rw [hup, hready]; rfl)

theorem State.changeGo_held {s : State} {k : ResKind} {i p : Nat} (hready : s.changeReady k i (s.ownerOf k i) p = false) :
    s.changeGo (k, i, p) = s :=
  if_neg (by simp [hready])

theorem State.releaseNow_held {s : State} {p : Nat} (h : (s.part p).release = false ∨ s.quiescent p = false) : s.releaseNow p = s := by
  rcases h with h | h <;> simp [State.releaseNow, h]

theorem State.releaseNow_quiet {s : State} {p : Nat} (hrelease : (s.part p).release = true) (hstate : (s.part p).state ∉ [3, 4, 5])
    (hquiet : s.quiescent p = true) : s.releaseNow p = s.unload p := by
  simp only [List.mem_cons, List.not_mem_nil, or_false, not_or] at hstate
  simp [State.releaseNow, hrelease, hstate, hquiet]

theorem step_reset : step State.reset = .next State.reset :=
  congrArg Host.Outcome.next rfl

/-- Settles O2: the pass leaves the queue and the time base but for the reference and the end of the hold-up; the rest is the
definition of the pass, part by part. -/
theorem idleKeepsRunning : Obligations.IdleKeepsRunning := by
  unfold Obligations.IdleKeepsRunning
  refine ⟨fun s hempty => ⟨s.idle, step_idle hempty, ?_⟩, fun s hempty => step_idle hempty, fun s t => ?_, fun s p => State.releaseNow_held,
    fun s p => State.releaseNow_quiet, fun s n => State.idleSite_quiet, fun s q => ?_, fun s => ?_, fun s k i p => State.changeGo_ready,
    fun s k i p => State.changeGo_held, step_reset⟩
  · have hclock := s.idle_clock
    rwa [hempty] at hclock
  · simp [State.idleTile]
  · simp [State.idlePort]
  · simp [State.idleRoutes]

end Sys2Proof.Machine
end

section
/-!
Region instructions of the sequencer (R131 to R137, R163, R164): what Q.WAIT, Q.SPACE, Q.POP and Q.PUSH have in common, said once of
`tQueue`, and RG.SET, RG.GET and SPD.CLR where nothing holds or stops them.
-/

namespace Sys2Proof.Machine

/-- An instruction that waits leaves its tile held (R149). -/
theorem State.issue_holds {s : State} {t : Nat} {f : Env → TS → Issue} {y : Tile} (hissue : s.canIssue t = true)
    (hf : f (s.tileEnv t) { t := s.tile t, free := s.free } = .hold { t := y, free := s.free }) :
    s.issue t f = .next (s.heldAt t y) := by
  obtain ⟨ht, hmay, hrun, hlen, hgood⟩ := State.canIssue_parts hissue
  refine State.issue_next.mpr ⟨ht, ?_⟩
  rw [if_pos hmay, State.onTile]
  simp only [issueTile, hrun, Nat.not_le.mpr hlen, hgood, hf, ne_eq, not_true_eq_false, if_false, Bool.false_eq_true]
  rfl

/-- The five conditions of R131. -/
theorem Region.valid_iff {r : Region} :
    r.valid = true ↔ r.ver = 1 ∧ 1 ≤ r.size ∧ r.base + r.size ≤ 98304 ∧ r.occ ≤ r.size ∧ r.head < r.size := by
  simp only [Region.valid, Bool.and_eq_true, decide_eq_true_eq, and_assoc]

/-- The head of a region that has a word wraps at SIZE (R132). -/
theorem Region.pop_wraps {r : Region} (hvalid : r.valid = true) (n : Nat) :
    r.pop n = { r with occ := r.occ - n, head := (r.head + n) % r.size } := by
  obtain ⟨-, hpos⟩ := Region.valid_occ hvalid
  rw [Region.pop, if_neg (Nat.ne_of_gt hpos)]

section Queue
variable {s : State} {t : Nat} {f : LQ} {unit : Region → Bool} {can : Region → Nat → Bool} {upd : Region → Nat → Region}
  {ord : Region → Nat → Tile → Tile} (hissue : s.canIssue t = true) (hrsv : f.rsv = 0) (hns : f.ns = 0)

include hrsv hns in
/-- With the count in the instruction no scalar is read and the count has 17 bits: the checks of R137 are left, and the wait of R133. -/
theorem tQueue_immediate (e : Env) (ts : TS) : tQueue e ts f unit can upd ord =
    let g := f.rg.toNat
    let r := region ts.t g
    let n := f.n.toNat
    if r.valid = false then (stopRegion e ts 2 g ts.t.pc).issue ts
    else if unit r = false then (stopRegion e ts 3 g ts.t.pc).issue ts
    else if r.size < n then (stopRegion e ts 4 g ts.t.pc).issue ts
    else if can r n then .next (ts.upd fun x => ord r n (setRegion x g (upd r n)))
    else .hold ts := by
  have hscalar : ¬f.ns = 1 := by rw [hns]; decide
  have hcount : ¬2 ^ 17 ≤ f.n.toNat := Nat.not_le.mpr f.n.isLt
  simp only [tQueue, legally, hrsv, decide_true, if_true, scalarBusy, qCount, hscalar, if_false, List.any_nil, Bool.false_eq_true,
    hcount, Bool.not_eq_true']

section Checked
variable {r : Region} (hr : region (s.tile t) f.rg.toNat = r)
include hissue hrsv hns hr

/-- A wait or an advance that passes the checks completes where its condition holds, and is held where it does not (R133, R149). -/
theorem State.queue_issues {p : Prop} [Decidable p] {r' : Region} (hvalid : r.valid = true) (hunit : unit r = true)
    (hfit : f.n.toNat ≤ r.size) (hcan : can r f.n.toNat = decide p) (hupd : upd r f.n.toNat = r') :
    s.issue t (fun e ts => tQueue e ts f unit can upd ord) =
      .next (if p then s.retire t (ord r f.n.toNat (setRegion (s.tile t) f.rg.toNat r')) else s.heldAt t (s.tile t)) := by
  have hchecks := tQueue_immediate (unit := unit) (can := can) (upd := upd) (ord := ord) hrsv hns (s.tileEnv t)
    { t := s.tile t, free := s.free }
  simp only [hr, hvalid, hunit, Nat.not_lt.mpr hfit, hcan, hupd, decide_eq_true_eq, Bool.true_eq_false, if_false] at hchecks
  by_cases hp : p
  · rw [if_pos hp] at hchecks ⊢
    exact State.issue_retires hissue hchecks
  · rw [if_neg hp] at hchecks ⊢
    exact State.issue_holds hissue hchecks

/-- FCAUSE 0x2 of R137. -/
theorem State.queue_invalid (hinvalid : r.valid = false) :
    s.issue t (fun e ts => tQueue e ts f unit can upd ord) = .next (s.regionStop t 2 f.rg.toNat) := by
  subst hr
  exact State.issue_regionStop hissue ((tQueue_immediate hrsv hns _ _).trans (if_pos hinvalid))

/-- FCAUSE 0x3 of R137. -/
theorem State.queue_otherUnit (hvalid : r.valid = true) (hunit : unit r = false) :
    s.issue t (fun e ts => tQueue e ts f unit can upd ord) = .next (s.regionStop t 3 f.rg.toNat) := by
  refine State.issue_regionStop hissue ((tQueue_immediate hrsv hns _ _).trans ?_)
  simp only [hr, hvalid, hunit, Bool.true_eq_false, if_false, if_true]

/-- FCAUSE 0x4 of R137. -/
theorem State.queue_beyond (hvalid : r.valid = true) (hunit : unit r = true) (hbeyond : r.size < f.n.toNat) :
    s.issue t (fun e ts => tQueue e ts f unit can upd ord) = .next (s.regionStop t 4 f.rg.toNat) := by
  refine State.issue_regionStop hissue ((tQueue_immediate hrsv hns _ _).trans ?_)
  simp only [hr, hvalid, hunit, hbeyond, Bool.true_eq_false, if_false, if_true]

end Checked

end Queue

/-! The other region instructions where no scalar is pending and no instruction that uses a region is unfinished. -/
section Descriptor
variable {s : State} {t : Nat} {f : LQ} {x : Tile} {a b : DWord} (hissue : s.canIssue t = true) (hrsv : f.rsv = 0) (hns : f.ns = 0)
  (hn : f.n = 0) (hx : s.tile t = x)
include hissue hrsv hns hn hx

/-- An image without a reserved bit, and valid, becomes the descriptor (R135, R164). -/
theorem State.rgSet_retires (ha : sreg x f.sa.toNat = a) (hb : sreg x f.sb.toNat = b)
    (hbusy : scalarBusy x [f.sa.toNat, f.sb.toNat] = false) (hregions : busyRegions x = []) (hreserved : rgReserved a b = false)
    (hvalid : (rgFromScalars a b).valid = true) :
    s.issue t (fun e ts => tRgSet e ts f) = .next (s.retire t (setRegion x f.rg.toNat (rgFromScalars a b))) := by
  refine State.issue_retires hissue ?_
  simp only [tRgSet, legally, hrsv, hns, hn, hx, ha, hb, hbusy, hregions, hreserved, hvalid, decide_true, Bool.and_self, if_true,
    List.contains_nil, Bool.false_eq_true, if_false, Bool.not_true, Bool.and_false, TS.upd]

theorem State.rgGet_retires {r : Region} (hr : region x f.rg.toNat = r) (hsb : f.sb = 0) (hbusy : scalarBusy x [f.sa.toNat] = false)
    (hvalid : r.valid = true) :
    s.issue t (fun e ts => tRgGet e ts f) = .next (s.retire t (setSreg x f.sa.toNat (BitVec.ofNat 64 (r.occ * 2 ^ 32 + r.head)))) := by
  refine State.issue_retires hissue ?_
  simp only [tRgGet, legally, hrsv, hns, hn, hx, hr, hsb, hbusy, hvalid, decide_true, Bool.and_self, if_true, Bool.false_eq_true, if_false,
    Bool.not_true, TS.upd, Nat.shiftLeft_eq]

/-- Words below the end of the scratchpad are cleared with their parity (R139, R140). -/
theorem State.spdClr_retires (ha : sreg x f.sa.toNat = a) (hb : sreg x f.sb.toNat = b) (hrg : f.rg = 0)
    (hbusy : scalarBusy x [f.sa.toNat, f.sb.toNat] = false) (hregions : busyRegions x = []) (hfit : a.toNat + b.toNat ≤ 98304) :
    s.issue t (fun e ts => tSpdClr e ts f) = .next (s.retire t (clearWords x a.toNat b.toNat)) := by
  refine State.issue_retires hissue ?_
  simp only [tSpdClr, legally, hrsv, hns, hn, hx, ha, hb, hrg, hbusy, hregions, Nat.not_lt.mpr hfit, decide_true, decide_false,
    Bool.and_self, Bool.and_false, if_true, List.any_nil, Bool.false_eq_true, if_false, TS.upd]

end Descriptor

/-- Where none of several scalars is pending, the first is not. -/
theorem scalarBusy_head {x : Tile} {n : Nat} {l : List Nat} (h : scalarBusy x (n :: l) = false) : scalarBusy x [n] = false := by
  simp only [scalarBusy, List.any_cons, List.any_nil, Bool.or_eq_false_iff, and_true] at h ⊢
  exact h.1

end Sys2Proof.Machine

namespace Sys2Proof
open Machine

/-- Settles O51: the conditions of R131 are those that the model's check decides. -/
theorem regionValidity : Obligations.RegionValidity := by
  unfold Obligations.RegionValidity
  exact fun _ => Region.valid_iff

/-- Settles O10: the four queue instructions by what they have in common, their checks and their waits; RG.SET, RG.GET and SPD.CLR as
they stand. -/
theorem regions : Obligations.Regions := by
  unfold Obligations.Regions
  refine ⟨?issues, ?stops, ?descriptor⟩
  case issues =>
    intro t f s hissue hrsv hns x g r n hvalid hfit
    refine ⟨?_, ?_, fun hcons => ?_, fun hprod => ?_⟩
    · exact State.queue_issues hissue hrsv hns rfl hvalid rfl hfit rfl rfl
    · exact State.queue_issues hissue hrsv hns rfl hvalid rfl hfit rfl rfl
    · exact State.queue_issues hissue hrsv hns rfl hvalid (decide_eq_true hcons) hfit rfl (Region.pop_wraps hvalid n)
    · exact State.queue_issues hissue hrsv hns rfl hvalid (decide_eq_true hprod) hfit rfl rfl
  case stops =>
    intro t f s hissue hrsv hns g r stop
    refine ⟨fun hinvalid => ⟨?_, ?_, ?_, ?_⟩, fun hvalid => ⟨fun hcons => ?_, fun hprod => ?_⟩,
      fun hvalid hbeyond => ⟨?_, ?_, fun hcons => ?_, fun hprod => ?_⟩⟩
    · exact State.queue_invalid hissue hrsv hns rfl hinvalid
    · exact State.queue_invalid hissue hrsv hns rfl hinvalid
    · exact State.queue_invalid hissue hrsv hns rfl hinvalid
    · exact State.queue_invalid hissue hrsv hns rfl hinvalid
    · exact State.queue_otherUnit hissue hrsv hns rfl hvalid (decide_eq_false hcons)
    · exact State.queue_otherUnit hissue hrsv hns rfl hvalid (decide_eq_false hprod)
    · exact State.queue_beyond hissue hrsv hns rfl hvalid rfl hbeyond
    · exact State.queue_beyond hissue hrsv hns rfl hvalid rfl hbeyond
    · exact State.queue_beyond hissue hrsv hns rfl hvalid (decide_eq_true hcons) hbeyond
    · exact State.queue_beyond hissue hrsv hns rfl hvalid (decide_eq_true hprod) hbeyond
  case descriptor =>
    intro t f s hissue hrsv hns hn hbusy x a b
    exact ⟨State.rgSet_retires hissue hrsv hns hn rfl rfl rfl hbusy,
      fun hsb => State.rgGet_retires hissue hrsv hns hn rfl rfl hsb (scalarBusy_head hbusy),
      fun hrg => State.spdClr_retires hissue hrsv hns hn rfl rfl rfl hrg hbusy⟩

end Sys2Proof
end

section
/-!
The instruction words of Greset (R144 to R146, Tables 6.1 to 6.8): the fields of a layout read from a word are its bits, and the bits of a
layout hold its fields; the decoder and the encoder are then inverse, MAJOR by MAJOR.
-/

namespace Sys2Proof

/-- Bit strings joined at the same place are equal where their parts are. -/
theorem bits_append_inj {m n : Nat} {a b : BitVec m} {c d : BitVec n} : a ++ c = b ++ d ↔ a = b ∧ c = d := by
  refine ⟨fun h => ⟨?_, ?_⟩, fun ⟨hab, hcd⟩ => by rw [hab, hcd]⟩
  · simpa only [BitVec.extractLsb'_append_eq_left] using congrArg (BitVec.extractLsb' n m) h
  · simpa only [BitVec.extractLsb'_append_eq_right] using congrArg (BitVec.extractLsb' 0 n) h

/-! The layouts: each reads adjacent fields (`toBits_ofWord`), and its bits determine its fields (`toBits_inj`), so that it reads its own
bits back from behind any other bits (`ofWord_append`). -/

theorem LB.toBits_ofWord (w : DWord) : (LB.ofWord w).toBits = w.extractLsb' 0 50 := by
  unfold LB.toBits LB.ofWord
  repeat rw [BitVec.extractLsb'_append_extractLsb'_eq_extractLsb' (by rfl)]

theorem LB.toBits_inj {f g : LB} (h : f.toBits = g.toBits) : f = g := by
  change @Eq (BitVec (5 + 5 + 24 + 16)) _ _ at h
  simpa only [LB.toBits, bits_append_inj, and_assoc, ← LB.mk.injEq] using h

theorem LB.ofWord_append (c : BitVec 14) (f : LB) : LB.ofWord (c ++ f.toBits) = f :=
  LB.toBits_inj ((LB.toBits_ofWord _).trans BitVec.extractLsb'_append_eq_right)

theorem LSI.toBits_ofWord (w : DWord) : (LSI.ofWord w).toBits = w.extractLsb' 0 50 := by
  unfold LSI.toBits LSI.ofWord
  repeat rw [BitVec.extractLsb'_append_extractLsb'_eq_extractLsb' (by rfl)]

theorem LSI.toBits_inj {f g : LSI} (h : f.toBits = g.toBits) : f = g := by
  change @Eq (BitVec (5 + 5 + 8 + 32)) _ _ at h
  simpa only [LSI.toBits, bits_append_inj, and_assoc, ← LSI.mk.injEq] using h

theorem LSI.ofWord_append (c : BitVec 14) (f : LSI) : LSI.ofWord (c ++ f.toBits) = f :=
  LSI.toBits_inj ((LSI.toBits_ofWord _).trans BitVec.extractLsb'_append_eq_right)

theorem LSR.toBits_ofWord (w : DWord) : (LSR.ofWord w).toBits = w.extractLsb' 0 50 := by
  unfold LSR.toBits LSR.ofWord
  repeat rw [BitVec.extractLsb'_append_extractLsb'_eq_extractLsb' (by rfl)]

theorem LSR.toBits_inj {f g : LSR} (h : f.toBits = g.toBits) : f = g := by
  change @Eq (BitVec (5 + 5 + 5 + 35)) _ _ at h
  simpa only [LSR.toBits, bits_append_inj, and_assoc, ← LSR.mk.injEq] using h

theorem LSR.ofWord_append (c : BitVec 14) (f : LSR) : LSR.ofWord (c ++ f.toBits) = f :=
  LSR.toBits_inj ((LSR.toBits_ofWord _).trans BitVec.extractLsb'_append_eq_right)

theorem LSM.toBits_ofWord (w : DWord) : (LSM.ofWord w).toBits = w.extractLsb' 0 50 := by
  unfold LSM.toBits LSM.ofWord
  repeat rw [BitVec.extractLsb'_append_extractLsb'_eq_extractLsb' (by rfl)]

theorem LSM.toBits_inj {f g : LSM} (h : f.toBits = g.toBits) : f = g := by
  change @Eq (BitVec (5 + 5 + 22 + 18)) _ _ at h
  simpa only [LSM.toBits, bits_append_inj, and_assoc, ← LSM.mk.injEq] using h

theorem LSM.ofWord_append (c : BitVec 14) (f : LSM) : LSM.ofWord (c ++ f.toBits) = f :=
  LSM.toBits_inj ((LSM.toBits_ofWord _).trans BitVec.extractLsb'_append_eq_right)

theorem LMV.toBits_ofWord (w : DWord) : (LMV.ofWord w).toBits = w.extractLsb' 0 50 := by
  unfold LMV.toBits LMV.ofWord
  repeat rw [BitVec.extractLsb'_append_extractLsb'_eq_extractLsb' (by rfl)]

theorem LMV.toBits_inj {f g : LMV} (h : f.toBits = g.toBits) : f = g := by
  change @Eq (BitVec (5 + 4 + 3 + 33 + 5)) _ _ at h
  simpa only [LMV.toBits, bits_append_inj, and_assoc, ← LMV.mk.injEq] using h

theorem LMV.ofWord_append (c : BitVec 14) (f : LMV) : LMV.ofWord (c ++ f.toBits) = f :=
  LMV.toBits_inj ((LMV.toBits_ofWord _).trans BitVec.extractLsb'_append_eq_right)

theorem LQ.toBits_ofWord (w : DWord) : (LQ.ofWord w).toBits = w.extractLsb' 0 50 := by
  unfold LQ.toBits LQ.ofWord
  repeat rw [BitVec.extractLsb'_append_extractLsb'_eq_extractLsb' (by rfl)]

theorem LQ.toBits_inj {f g : LQ} (h : f.toBits = g.toBits) : f = g := by
  change @Eq (BitVec (4 + 5 + 5 + 1 + 18 + 17)) _ _ at h
  simpa only [LQ.toBits, bits_append_inj, and_assoc, ← LQ.mk.injEq] using h

theorem LQ.ofWord_append (c : BitVec 14) (f : LQ) : LQ.ofWord (c ++ f.toBits) = f :=
  LQ.toBits_inj ((LQ.toBits_ofWord _).trans BitVec.extractLsb'_append_eq_right)

theorem LVA.toBits_ofWord (w : DWord) : (LVA.ofWord w).toBits = w.extractLsb' 0 50 := by
  unfold LVA.toBits LVA.ofWord
  repeat rw [BitVec.extractLsb'_append_extractLsb'_eq_extractLsb' (by rfl)]

theorem LVA.toBits_inj {f g : LVA} (h : f.toBits = g.toBits) : f = g := by
  change @Eq (BitVec (4 + 4 + 4 + 4 + 1 + 3 + 4 + 1 + 5 + 20)) _ _ at h
  simpa only [LVA.toBits, bits_append_inj, and_assoc, ← LVA.mk.injEq] using h

theorem LVA.ofWord_append (c : BitVec 14) (f : LVA) : LVA.ofWord (c ++ f.toBits) = f :=
  LVA.toBits_inj ((LVA.toBits_ofWord _).trans BitVec.extractLsb'_append_eq_right)

theorem LVS.toBits_ofWord (w : DWord) : (LVS.ofWord w).toBits = w.extractLsb' 0 50 := by
  unfold LVS.toBits LVS.ofWord
  repeat rw [BitVec.extractLsb'_append_extractLsb'_eq_extractLsb' (by rfl)]

theorem LVS.toBits_inj {f g : LVS} (h : f.toBits = g.toBits) : f = g := by
  change @Eq (BitVec (5 + 4 + 1 + 3 + 4 + 1 + 5 + 27)) _ _ at h
  simpa only [LVS.toBits, bits_append_inj, and_assoc, ← LVS.mk.injEq] using h

theorem LVS.ofWord_append (c : BitVec 14) (f : LVS) : LVS.ofWord (c ++ f.toBits) = f :=
  LVS.toBits_inj ((LVS.toBits_ofWord _).trans BitVec.extractLsb'_append_eq_right)

theorem LVM.toBits_ofWord (w : DWord) : (LVM.ofWord w).toBits = w.extractLsb' 0 50 := by
  unfold LVM.toBits LVM.ofWord
  repeat rw [BitVec.extractLsb'_append_extractLsb'_eq_extractLsb' (by rfl)]

theorem LVM.toBits_inj {f g : LVM} (h : f.toBits = g.toBits) : f = g := by
  change @Eq (BitVec (4 + 4 + 1 + 1 + 5 + 1 + 3 + 4 + 4 + 1 + 1 + 4 + 17)) _ _ at h
  simpa only [LVM.toBits, bits_append_inj, and_assoc, ← LVM.mk.injEq] using h

theorem LVM.ofWord_append (c : BitVec 14) (f : LVM) : LVM.ofWord (c ++ f.toBits) = f :=
  LVM.toBits_inj ((LVM.toBits_ofWord _).trans BitVec.extractLsb'_append_eq_right)

theorem LN.toBits_ofWord (w : DWord) : (LN.ofWord w).toBits = w.extractLsb' 0 50 := by
  unfold LN.toBits LN.ofWord
  repeat rw [BitVec.extractLsb'_append_extractLsb'_eq_extractLsb' (by rfl)]

theorem LN.toBits_inj {f g : LN} (h : f.toBits = g.toBits) : f = g := by
  change @Eq (BitVec (4 + 5 + 5 + 4 + 32)) _ _ at h
  simpa only [LN.toBits, bits_append_inj, and_assoc, ← LN.mk.injEq] using h

theorem LN.ofWord_append (c : BitVec 14) (f : LN) : LN.ofWord (c ++ f.toBits) = f :=
  LN.toBits_inj ((LN.toBits_ofWord _).trans BitVec.extractLsb'_append_eq_right)

theorem LOM.toBits_ofWord (w : DWord) : (LOM.ofWord w).toBits = w.extractLsb' 0 56 := by
  unfold LOM.toBits LOM.ofWord
  repeat rw [BitVec.extractLsb'_append_extractLsb'_eq_extractLsb' (by rfl)]

theorem LOM.toBits_inj {f g : LOM} (hset : f.set = g.set) (h : f.toBits = g.toBits) : f = g := by
  change @Eq (BitVec (14 + 4 + 4 + 4 + 4 + 4 + 4 + 1 + 1 + 1 + 5 + 1 + 9)) _ _ at h
  simp only [LOM.toBits, bits_append_inj, and_assoc] at h
  simpa only [← LOM.mk.injEq] using And.intro hset h

theorem LOM.ofWord_append (m : BitVec 6) (f : LOM) : LOM.ofWord (m ++ f.set ++ 0#1 ++ f.toBits) = f := by
  refine LOM.toBits_inj ?_ ((LOM.toBits_ofWord _).trans BitVec.extractLsb'_append_eq_right)
  calc (m ++ f.set ++ 0#1 ++ f.toBits).extractLsb' 57 1
    _ = (m ++ f.set ++ 0#1).extractLsb' 1 1 := BitVec.extractLsb'_append_eq_of_le (by decide)
    _ = (m ++ f.set).extractLsb' 0 1 := BitVec.extractLsb'_append_eq_of_le (by decide)
    _ = f.set := BitVec.extractLsb'_append_eq_right

theorem LOD.toBits_ofWord (w : DWord) : (LOD.ofWord w).toBits = w.extractLsb' 0 56 := by
  unfold LOD.toBits LOD.ofWord
  repeat rw [BitVec.extractLsb'_append_extractLsb'_eq_extractLsb' (by rfl)]

theorem LOD.toBits_inj {f g : LOD} (hset : f.set = g.set) (h : f.toBits = g.toBits) : f = g := by
  change @Eq (BitVec (1 + 4 + 1 + 1 + 4 + 5 + 40)) _ _ at h
  simp only [LOD.toBits, bits_append_inj, and_assoc] at h
  simpa only [← LOD.mk.injEq] using And.intro hset h

theorem LOD.ofWord_append (m : BitVec 6) (f : LOD) : LOD.ofWord (m ++ f.set ++ 0#1 ++ f.toBits) = f := by
  refine LOD.toBits_inj ?_ ((LOD.toBits_ofWord _).trans BitVec.extractLsb'_append_eq_right)
  calc (m ++ f.set ++ 0#1 ++ f.toBits).extractLsb' 57 1
    _ = (m ++ f.set ++ 0#1).extractLsb' 1 1 := BitVec.extractLsb'_append_eq_of_le (by decide)
    _ = (m ++ f.set).extractLsb' 0 1 := BitVec.extractLsb'_append_eq_of_le (by decide)
    _ = f.set := BitVec.extractLsb'_append_eq_right

theorem LOC.toBits_ofWord (w : DWord) : (LOC.ofWord w).toBits = w.extractLsb' 0 56 := by
  unfold LOC.toBits LOC.ofWord
  repeat rw [BitVec.extractLsb'_append_extractLsb'_eq_extractLsb' (by rfl)]

theorem LOC.toBits_inj {f g : LOC} (h : f.toBits = g.toBits) : f = g := by
  change @Eq (BitVec (1 + 1 + 4 + 4 + 4 + 42)) _ _ at h
  simpa only [LOC.toBits, bits_append_inj, and_assoc, ← LOC.mk.injEq] using h

theorem LOC.ofWord_append (c : BitVec 8) (f : LOC) : LOC.ofWord (c ++ f.toBits) = f :=
  LOC.toBits_inj ((LOC.toBits_ofWord _).trans BitVec.extractLsb'_append_eq_right)


/-! MAJOR, X and MINOR of the words of Table 6.1. -/

theorem xOf_opBits (M m : Nat) (b : BitVec 50) : xOf (opBits M m ++ b) = 0 := by
  calc (opBits M m ++ b).extractLsb' 56 1
    _ = (BitVec.ofNat 7 M ++ 0#1 ++ BitVec.ofNat 6 m).extractLsb' 6 1 := BitVec.extractLsb'_append_eq_of_le (by decide)
    _ = (BitVec.ofNat 7 M ++ 0#1).extractLsb' 0 1 := BitVec.extractLsb'_append_eq_of_le (by decide)
    _ = 0 := BitVec.extractLsb'_append_eq_right

theorem majorOf_opBits {M : Nat} (hM : M < 128) (m : Nat) (b : BitVec 50) : majorOf (opBits M m ++ b) = M := by
  have hbits : (opBits M m ++ b).extractLsb' 57 7 = BitVec.ofNat 7 M := by
    calc (opBits M m ++ b).extractLsb' 57 7
      _ = (BitVec.ofNat 7 M ++ 0#1 ++ BitVec.ofNat 6 m).extractLsb' 7 7 := BitVec.extractLsb'_append_eq_of_le (by decide)
      _ = (BitVec.ofNat 7 M ++ 0#1).extractLsb' 1 7 := BitVec.extractLsb'_append_eq_of_le (by decide)
      _ = BitVec.ofNat 7 M := BitVec.extractLsb'_append_eq_left
  rw [majorOf, hbits, BitVec.toNat_ofNat, Nat.mod_eq_of_lt hM]

theorem minorOf_opBits (M : Nat) {m : Nat} (hm : m < 64) (b : BitVec 50) : minorOf (opBits M m ++ b) = m := by
  have hbits : (opBits M m ++ b).extractLsb' 50 6 = BitVec.ofNat 6 m := by
    calc (opBits M m ++ b).extractLsb' 50 6
      _ = (opBits M m).extractLsb' 0 6 := BitVec.extractLsb'_append_eq_of_le (by decide)
      _ = BitVec.ofNat 6 m := BitVec.extractLsb'_append_eq_right
  rw [minorOf, hbits, BitVec.toNat_ofNat, Nat.mod_eq_of_lt hm]

/-- A word is its MAJOR, X and MINOR before its operand fields. -/
theorem opBits_append_fields {w : DWord} {M m : Nat} (hx : xOf w = 0) (hM : majorOf w = M) (hm : minorOf w = m) {b : BitVec 50}
    (hb : b = w.extractLsb' 0 50) : opBits M m ++ b = w := by
  subst hM hm hb
  rw [opBits, majorOf, minorOf, BitVec.ofNat_toNat, BitVec.setWidth_eq, BitVec.ofNat_toNat, BitVec.setWidth_eq, ← show _ = 0#1 from hx,
    xOf]
  repeat rw [BitVec.extractLsb'_append_extractLsb'_eq_extractLsb' (by rfl)]
  exact BitVec.extractLsb'_eq_self

/-! The words of the OPE, which have no MINOR; those of OPE.MUL and OPE.DRN name their set in MAJOR[0]. -/

theorem xOf_opeWord (M : BitVec 7) (b : BitVec 56) : xOf (M ++ 0#1 ++ b) = 0 := by
  calc (M ++ 0#1 ++ b).extractLsb' 56 1
    _ = (M ++ 0#1).extractLsb' 0 1 := BitVec.extractLsb'_append_eq_of_le (by decide)
    _ = 0 := BitVec.extractLsb'_append_eq_right

theorem majorOf_opeWord (M : BitVec 7) (b : BitVec 56) : majorOf (M ++ 0#1 ++ b) = M.toNat := by
  refine congrArg BitVec.toNat ?_
  calc (M ++ 0#1 ++ b).extractLsb' 57 7
    _ = (M ++ 0#1).extractLsb' 1 7 := BitVec.extractLsb'_append_eq_of_le (by decide)
    _ = M := BitVec.extractLsb'_append_eq_left

theorem opeWord_append_fields {w : DWord} {M : BitVec 7} (hx : xOf w = 0) (hM : majorOf w = M.toNat) {b : BitVec 56}
    (hb : b = w.extractLsb' 0 56) : M ++ 0#1 ++ b = w := by
  rw [← show _ = M from BitVec.eq_of_toNat_eq hM, hb, ← show _ = 0#1 from hx, xOf]
  repeat rw [BitVec.extractLsb'_append_extractLsb'_eq_extractLsb' (by rfl)]
  exact BitVec.extractLsb'_eq_self

theorem toNat_append_set (m : BitVec 6) (set : BitVec 1) : (m ++ set).toNat = 2 * m.toNat + set.toNat := by
  rw [BitVec.toNat_append, ← Nat.shiftLeft_add_eq_or_of_lt set.isLt, Nat.shiftLeft_eq, Nat.mul_comm]

/-- MAJOR of a word whose set is in MAJOR[0]: two codes, one for each set. -/
theorem toNat_append_set_cases (m : BitVec 6) (set : BitVec 1) :
    (m ++ set).toNat = 2 * m.toNat ∨ (m ++ set).toNat = 2 * m.toNat + 1 := by
  have hset := set.isLt
  rw [toNat_append_set]
  omega

theorem majorOf_eq_append_set {w : DWord} {m : BitVec 6} (hM : majorOf w / 2 = m.toNat) :
    majorOf w = (m ++ w.extractLsb' 57 1).toNat := by
  rw [toNat_append_set, ← hM]
  simp only [majorOf, BitVec.extractLsb'_toNat, Nat.shiftRight_eq_div_pow]
  omega

/-! Every instruction's word decodes to it: the codes of Table 6.1, one MAJOR after the other. -/

theorem decodeWord_opeMulClr (t : Nat) (f : LOM) :
    decodeWord t (0b010000#6 ++ f.set ++ 0#1 ++ f.toBits) = some (.opeMulClr t f) := by
  have hx := xOf_opeWord (0b010000#6 ++ f.set) f.toBits
  have hM := majorOf_opeWord (0b010000#6 ++ f.set) f.toBits
  rcases toNat_append_set_cases 0b010000#6 f.set with hset | hset <;>
    simp [decodeWord, hx, hM.trans hset, LOM.ofWord_append]

theorem decodeWord_opeMulCont (t : Nat) (f : LOM) :
    decodeWord t (0b010001#6 ++ f.set ++ 0#1 ++ f.toBits) = some (.opeMulCont t f) := by
  have hx := xOf_opeWord (0b010001#6 ++ f.set) f.toBits
  have hM := majorOf_opeWord (0b010001#6 ++ f.set) f.toBits
  rcases toNat_append_set_cases 0b010001#6 f.set with hset | hset <;>
    simp [decodeWord, hx, hM.trans hset, LOM.ofWord_append]

theorem decodeWord_opeDrn (t : Nat) (f : LOD) :
    decodeWord t (0b010010#6 ++ f.set ++ 0#1 ++ f.toBits) = some (.opeDrn t f) := by
  have hx := xOf_opeWord (0b010010#6 ++ f.set) f.toBits
  have hM := majorOf_opeWord (0b010010#6 ++ f.set) f.toBits
  rcases toNat_append_set_cases 0b010010#6 f.set with hset | hset <;>
    simp [decodeWord, hx, hM.trans hset, LOD.ofWord_append]

theorem decodeWord_opeCube (t : Nat) (f : LOC) : decodeWord t (0b0100110#7 ++ 0#1 ++ f.toBits) = some (.opeCube t f) := by
  have hx := xOf_opeWord 0b0100110#7 f.toBits
  have hM := majorOf_opeWord 0b0100110#7 f.toBits
  have hf : LOC.ofWord (0b0100110#7 ++ 0#1 ++ f.toBits) = f := LOC.ofWord_append _ f
  generalize 0b0100110#7 ++ 0#1 ++ f.toBits = w at *
  simp [decodeWord, hx, hM, hf]

theorem decodeWord_of_encodeWord {c : Instr} {w : DWord} (h : encodeWord c = some w) : ∃ t, decodeWord t w = some c := by
  cases c with
  | beqz t f | bnez t f | beq t f | bne t f | blt t f | bge t f | bltu t f | bgeu t f =>
    cases h
    exact ⟨t, by simp [decodeWord, xOf_opBits, majorOf_opBits, minorOf_opBits, decodeMajor01, LB.ofWord_append]⟩
  | jmp t f | jal t f | jr t f | loop t f | ctlEnd t f =>
    cases h
    exact ⟨t, by simp [decodeWord, xOf_opBits, majorOf_opBits, minorOf_opBits, decodeMajor02, LB.ofWord_append]⟩
  | sysNop t f | sysFence t f | sysTime t f | sysEvent t f =>
    cases h
    exact ⟨t, by simp [decodeWord, xOf_opBits, majorOf_opBits, minorOf_opBits, decodeMajor08, LSI.ofWord_append]⟩
  | add t f | sub t f | mul t f | and t f | or t f | xor t f | sll t f | srl t f | sra t f | slt t f | sltu t f | min t f
  | max t f | minu t f | maxu t f | mov t f =>
    cases h
    exact ⟨t, by simp [decodeWord, xOf_opBits, majorOf_opBits, minorOf_opBits, decodeMajor10, LSR.ofWord_append]⟩
  | addi t f | andi t f | ori t f | xori t f | slli t f | srli t f | srai t f | slti t f | sltiu t f | li t f | liu t f | lih t f =>
    cases h
    exact ⟨t, by simp [decodeWord, xOf_opBits, majorOf_opBits, minorOf_opBits, decodeMajor11, LSI.ofWord_append]⟩
  | ldw t f | ldd t f | stw t f | std t f | csrr t f =>
    cases h
    exact ⟨t, by simp [decodeWord, xOf_opBits, majorOf_opBits, minorOf_opBits, decodeMajor12, LSM.ofWord_append]⟩
  | movVs t f | movSv t f | movVv t f | movPs t f | movSp t f =>
    cases h
    exact ⟨t, by simp [decodeWord, xOf_opBits, majorOf_opBits, minorOf_opBits, decodeMajor13, LMV.ofWord_append]⟩
  | qWait t f | qSpace t f | qPop t f | qPush t f | rgSet t f | rgGet t f | spdClr t f =>
    cases h
    exact ⟨t, by simp [decodeWord, xOf_opBits, majorOf_opBits, minorOf_opBits, decodeMajor38, LQ.ofWord_append]⟩
  | vadd t f | vsub t f | vmul t f | vfma t f | vmin t f | vmax t f | vabs t f | vneg t f =>
    cases h
    exact ⟨t, by simp [decodeWord, xOf_opBits, majorOf_opBits, minorOf_opBits, decodeMajor28, LVA.ofWord_append]⟩
  | vdiv t f | vsqrt t f | vrcp t f | vrsqrt t f | vexp2 t f | vlog2 t f | vexp t f | vlog t f | vtanh t f | vsigm t f | verf t f =>
    cases h
    exact ⟨t, by simp [decodeWord, xOf_opBits, majorOf_opBits, minorOf_opBits, decodeMajor29, LVA.ofWord_append]⟩
  | viadd t f | visub t f | vimul t f | vand t f | vor t f | vxor t f | vsll t f | vsrl t f | vsra t f | vimin t f | vimax t f =>
    cases h
    exact ⟨t, by simp [decodeWord, xOf_opBits, majorOf_opBits, minorOf_opBits, decodeMajor2A, LVA.ofWord_append]⟩
  | vcmpEq t f | vcmpNe t f | vcmpLt t f | vcmpLe t f | vcmpGt t f | vcmpGe t f | vicmpEq t f | vicmpNe t f | vicmpLt t f
  | vicmpLe t f | vicmpGt t f | vicmpGe t f | pand t f | por t f | pxor t f | pnot t f | ppop t f =>
    cases h
    exact ⟨t, by simp [decodeWord, xOf_opBits, majorOf_opBits, minorOf_opBits, decodeMajor2B, LVA.ofWord_append]⟩
  | vcvt t f | vcvtN2 t f =>
    cases h
    exact ⟨t, by simp [decodeWord, xOf_opBits, majorOf_opBits, minorOf_opBits, decodeMajor2C, LVA.ofWord_append]⟩
  | sumNf t f | sumAmax t f | sumAdd t f | sumArgmax t f =>
    cases h
    exact ⟨t, by simp [decodeWord, xOf_opBits, majorOf_opBits, minorOf_opBits, decodeMajor2D, LVS.ofWord_append]⟩
  | vld t f | vst t f | vstCvt t f | vstMx t f | vqPop t f | vqPush t f =>
    cases h
    exact ⟨t, by simp [decodeWord, xOf_opBits, majorOf_opBits, minorOf_opBits, decodeMajor2E, LVM.ofWord_append]⟩
  | netPull t f | netPush t f | netSend t f | atomAdd t f | atomMin t f | atomMax t f | atomSwap t f | atomCas t f =>
    cases h
    exact ⟨t, by simp [decodeWord, xOf_opBits, majorOf_opBits, minorOf_opBits, decodeMajor30, LN.ofWord_append]⟩
  | opeMulClr t f =>
    cases h
    exact ⟨t, decodeWord_opeMulClr t f⟩
  | opeMulCont t f =>
    cases h
    exact ⟨t, decodeWord_opeMulCont t f⟩
  | opeDrn t f =>
    cases h
    exact ⟨t, decodeWord_opeDrn t f⟩
  | opeCube t f =>
    cases h
    exact ⟨t, decodeWord_opeCube t f⟩
  | _ => exact nomatch h

end Sys2Proof

namespace Sys2Proof.Machine

theorem legally_legal {ok : Bool} (h : ok = true) (e : Env) (ts : TS) (k : Issue) : legally e ok ts k = k := if_pos h

/-- A reserved encoding takes no effect (R146). -/
theorem legally_reserved {ok : Bool} (h : ok = false) (e : Env) (ts : TS) (k : Issue) :
    legally e ok ts k = (stopSeq e ts 1 ts.t.pc).issue ts := by
  simp only [legally, h, Bool.false_eq_true, if_false]

/-- A word spells an instruction of tile t: it is the instruction's own word, and the sequencer of the tile issues the instruction, which
stops it where the encoding is reserved (R146). -/
structure Spells (t : Nat) (w : DWord) (c : Instr) : Prop where
  word : encodeWord c = some w
  issues : ∃ f : Env → TS → Issue, (∀ s : State, exec c s = s.issue t f) ∧
    (legalInstr c = false → ∀ e ts, f e ts = (stopSeq e ts 1 ts.t.pc).issue ts)

/-! The entries of each MAJOR. -/
section Majors
variable {t : Nat} {w : DWord} {c : Instr} (hx : xOf w = 0)
include hx

theorem spells_of_decodeMajor01 (hM : majorOf w = 0x01) (h : decodeMajor01 t w = some c) : Spells t w c := by
  have hword {m : Nat} (hm : minorOf w = m) := opBits_append_fields hx hM hm (LB.toBits_ofWord w)
  unfold decodeMajor01 at h
  split at h <;> cases h
  case h_1 hm | h_2 hm => exact ⟨congrArg some (hword hm), _, fun _ => rfl, fun hr _ _ => legally_reserved hr _ _ _⟩
  all_goals exact ⟨congrArg some (hword ‹_›), _, fun _ => rfl, fun hr _ _ => legally_reserved ((Bool.and_true _).trans hr) _ _ _⟩

theorem spells_of_decodeMajor02 (hM : majorOf w = 0x02) (h : decodeMajor02 t w = some c) : Spells t w c := by
  have hword {m : Nat} (hm : minorOf w = m) := opBits_append_fields hx hM hm (LB.toBits_ofWord w)
  unfold decodeMajor02 at h
  split at h <;> cases h
  all_goals exact ⟨congrArg some (hword ‹_›), _, fun _ => rfl, fun hr _ _ => legally_reserved hr _ _ _⟩

theorem spells_of_decodeMajor08 (hM : majorOf w = 0x08) (h : decodeMajor08 t w = some c) : Spells t w c := by
  have hword {m : Nat} (hm : minorOf w = m) := opBits_append_fields hx hM hm (LSI.toBits_ofWord w)
  unfold decodeMajor08 at h
  split at h <;> cases h
  all_goals exact ⟨congrArg some (hword ‹_›), _, fun _ => rfl, fun hr _ _ => legally_reserved hr _ _ _⟩

theorem spells_of_decodeMajor10 (hM : majorOf w = 0x10) (h : decodeMajor10 t w = some c) : Spells t w c := by
  have hword {m : Nat} (hm : minorOf w = m) := opBits_append_fields hx hM hm (LSR.toBits_ofWord w)
  unfold decodeMajor10 at h
  split at h <;> cases h
  all_goals exact ⟨congrArg some (hword ‹_›), _, fun _ => rfl, fun hr _ _ => legally_reserved hr _ _ _⟩

theorem spells_of_decodeMajor11 (hM : majorOf w = 0x11) (h : decodeMajor11 t w = some c) : Spells t w c := by
  have hword {m : Nat} (hm : minorOf w = m) := opBits_append_fields hx hM hm (LSI.toBits_ofWord w)
  unfold decodeMajor11 at h
  split at h <;> cases h
  all_goals exact ⟨congrArg some (hword ‹_›), _, fun _ => rfl, fun hr _ _ => legally_reserved hr _ _ _⟩

theorem spells_of_decodeMajor12 (hM : majorOf w = 0x12) (h : decodeMajor12 t w = some c) : Spells t w c := by
  have hword {m : Nat} (hm : minorOf w = m) := opBits_append_fields hx hM hm (LSM.toBits_ofWord w)
  unfold decodeMajor12 at h
  split at h <;> cases h
  all_goals exact ⟨congrArg some (hword ‹_›), _, fun _ => rfl, fun hr _ _ => legally_reserved hr _ _ _⟩

theorem spells_of_decodeMajor13 (hM : majorOf w = 0x13) (h : decodeMajor13 t w = some c) : Spells t w c := by
  have hword {m : Nat} (hm : minorOf w = m) := opBits_append_fields hx hM hm (LMV.toBits_ofWord w)
  unfold decodeMajor13 at h
  split at h <;> cases h
  all_goals exact ⟨congrArg some (hword ‹_›), _, fun _ => rfl, fun hr _ _ => legally_reserved hr _ _ _⟩

theorem spells_of_decodeMajor28 (hM : majorOf w = 0x28) (h : decodeMajor28 t w = some c) : Spells t w c := by
  have hword {m : Nat} (hm : minorOf w = m) := opBits_append_fields hx hM hm (LVA.toBits_ofWord w)
  unfold decodeMajor28 at h
  split at h <;> cases h
  all_goals exact ⟨congrArg some (hword ‹_›), _, fun _ => rfl, fun hr _ _ => legally_reserved hr _ _ _⟩

theorem spells_of_decodeMajor29 (hM : majorOf w = 0x29) (h : decodeMajor29 t w = some c) : Spells t w c := by
  have hword {m : Nat} (hm : minorOf w = m) := opBits_append_fields hx hM hm (LVA.toBits_ofWord w)
  unfold decodeMajor29 at h
  split at h <;> cases h
  all_goals exact ⟨congrArg some (hword ‹_›), _, fun _ => rfl, fun hr _ _ => legally_reserved hr _ _ _⟩

theorem spells_of_decodeMajor2A (hM : majorOf w = 0x2A) (h : decodeMajor2A t w = some c) : Spells t w c := by
  have hword {m : Nat} (hm : minorOf w = m) := opBits_append_fields hx hM hm (LVA.toBits_ofWord w)
  unfold decodeMajor2A at h
  split at h <;> cases h
  all_goals exact ⟨congrArg some (hword ‹_›), _, fun _ => rfl, fun hr _ _ => legally_reserved hr _ _ _⟩

theorem spells_of_decodeMajor2B (hM : majorOf w = 0x2B) (h : decodeMajor2B t w = some c) : Spells t w c := by
  have hword {m : Nat} (hm : minorOf w = m) := opBits_append_fields hx hM hm (LVA.toBits_ofWord w)
  unfold decodeMajor2B at h
  split at h <;> cases h
  all_goals exact ⟨congrArg some (hword ‹_›), _, fun _ => rfl, fun hr _ _ => legally_reserved hr _ _ _⟩

theorem spells_of_decodeMajor2C (hM : majorOf w = 0x2C) (h : decodeMajor2C t w = some c) : Spells t w c := by
  have hword {m : Nat} (hm : minorOf w = m) := opBits_append_fields hx hM hm (LVA.toBits_ofWord w)
  unfold decodeMajor2C at h
  split at h <;> cases h
  all_goals exact ⟨congrArg some (hword ‹_›), _, fun _ => rfl, fun hr _ _ => legally_reserved hr _ _ _⟩

theorem spells_of_decodeMajor2D (hM : majorOf w = 0x2D) (h : decodeMajor2D t w = some c) : Spells t w c := by
  have hword {m : Nat} (hm : minorOf w = m) := opBits_append_fields hx hM hm (LVS.toBits_ofWord w)
  unfold decodeMajor2D at h
  split at h <;> cases h
  all_goals exact ⟨congrArg some (hword ‹_›), _, fun _ => rfl, fun hr _ _ => legally_reserved hr _ _ _⟩

theorem spells_of_decodeMajor2E (hM : majorOf w = 0x2E) (h : decodeMajor2E t w = some c) : Spells t w c := by
  have hword {m : Nat} (hm : minorOf w = m) := opBits_append_fields hx hM hm (LVM.toBits_ofWord w)
  unfold decodeMajor2E at h
  split at h <;> cases h
  all_goals exact ⟨congrArg some (hword ‹_›), _, fun _ => rfl, fun hr _ _ => legally_reserved hr _ _ _⟩

theorem spells_of_decodeMajor30 (hM : majorOf w = 0x30) (h : decodeMajor30 t w = some c) : Spells t w c := by
  have hword {m : Nat} (hm : minorOf w = m) := opBits_append_fields hx hM hm (LN.toBits_ofWord w)
  unfold decodeMajor30 at h
  split at h <;> cases h
  all_goals exact ⟨congrArg some (hword ‹_›), _, fun _ => rfl, fun hr _ _ => legally_reserved hr _ _ _⟩

theorem spells_of_decodeMajor38 (hM : majorOf w = 0x38) (h : decodeMajor38 t w = some c) : Spells t w c := by
  have hword {m : Nat} (hm : minorOf w = m) := opBits_append_fields hx hM hm (LQ.toBits_ofWord w)
  unfold decodeMajor38 at h
  split at h <;> cases h
  all_goals exact ⟨congrArg some (hword ‹_›), _, fun _ => rfl, fun hr _ _ => legally_reserved hr _ _ _⟩

/-! The entries of the OPE, two codes of MAJOR for the two sets. -/

theorem spells_opeMulClr (hM : majorOf w / 2 = 0x10) : Spells t w (.opeMulClr t (.ofWord w)) :=
  ⟨congrArg some (opeWord_append_fields hx (majorOf_eq_append_set (m := 0b010000#6) hM) (LOM.toBits_ofWord w)), _, fun _ => rfl,
    fun hr _ _ => legally_reserved hr _ _ _⟩

theorem spells_opeMulCont (hM : majorOf w / 2 = 0x11) : Spells t w (.opeMulCont t (.ofWord w)) :=
  ⟨congrArg some (opeWord_append_fields hx (majorOf_eq_append_set (m := 0b010001#6) hM) (LOM.toBits_ofWord w)), _, fun _ => rfl,
    fun hr _ _ => legally_reserved hr _ _ _⟩

theorem spells_opeDrn (hM : majorOf w / 2 = 0x12) : Spells t w (.opeDrn t (.ofWord w)) :=
  ⟨congrArg some (opeWord_append_fields hx (majorOf_eq_append_set (m := 0b010010#6) hM) (LOD.toBits_ofWord w)), _, fun _ => rfl,
    fun hr _ _ => legally_reserved hr _ _ _⟩

theorem spells_opeCube (hM : majorOf w = 0x26) : Spells t w (.opeCube t (.ofWord w)) :=
  ⟨congrArg some (opeWord_append_fields (M := 0b0100110#7) hx hM (LOC.toBits_ofWord w)), _, fun _ => rfl,
    fun hr _ _ => legally_reserved hr _ _ _⟩

end Majors

/-- What a word decodes to is what it spells, whichever its MAJOR. -/
theorem spells_of_decodeWord {t : Nat} {w : DWord} {c : Instr} (h : decodeWord t w = some c) : Spells t w c := by
  unfold decodeWord at h
  split at h
  next => cases h
  next hx =>
    replace hx := not_not.mp hx
    split at h
    next hM => exact spells_of_decodeMajor01 hx hM h
    next hM => exact spells_of_decodeMajor02 hx hM h
    next hM => exact spells_of_decodeMajor08 hx hM h
    next hM => exact spells_of_decodeMajor10 hx hM h
    next hM => exact spells_of_decodeMajor11 hx hM h
    next hM => exact spells_of_decodeMajor12 hx hM h
    next hM => exact spells_of_decodeMajor13 hx hM h
    next hM => cases h; exact spells_opeMulClr hx (by rw [hM])
    next hM => cases h; exact spells_opeMulClr hx (by rw [hM])
    next hM => cases h; exact spells_opeMulCont hx (by rw [hM])
    next hM => cases h; exact spells_opeMulCont hx (by rw [hM])
    next hM => cases h; exact spells_opeDrn hx (by rw [hM])
    next hM => cases h; exact spells_opeDrn hx (by rw [hM])
    next hM => cases h; exact spells_opeCube hx hM
    next hM => exact spells_of_decodeMajor28 hx hM h
    next hM => exact spells_of_decodeMajor29 hx hM h
    next hM => exact spells_of_decodeMajor2A hx hM h
    next hM => exact spells_of_decodeMajor2B hx hM h
    next hM => exact spells_of_decodeMajor2C hx hM h
    next hM => exact spells_of_decodeMajor2D hx hM h
    next hM => exact spells_of_decodeMajor2E hx hM h
    next hM => exact spells_of_decodeMajor30 hx hM h
    next hM => exact spells_of_decodeMajor38 hx hM h
    next => cases h

end Sys2Proof.Machine

namespace Sys2Proof
open Machine

/-- Settles O59: every word of an instruction by the table of its MAJOR, read back by its layout. -/
theorem encodeDecode : Obligations.EncodeDecode := by
  unfold Obligations.EncodeDecode
  exact ⟨fun _ _ h => decodeWord_of_encodeWord h, fun _ _ _ h => (spells_of_decodeWord h).word⟩

end Sys2Proof
end

section
/-!
Stops by the sequencer itself (R146, R148, R155).
-/

namespace Sys2Proof.Machine

/-- The sequencer stops a running tile at the instruction at its PC (R155). -/
theorem stopSeq_running {x : Tile} (hrun : x.seq = .running) (e : Env) (free cause : Nat) :
    stopSeq e { t := x, free := free } cause x.pc =
      let y := { x with seq := .stopped, fault := true, fcause := cause, waiting := false }
      .halt { t := y, free := free, recs := [{ source := 0x21, cls := 1, loc := e.id, offset := x.pc, code := cause,
                                                detail := csrWords e y [0x0, 0x4, 0x8, 0xC] }] } :=
  stopWith_going (by rw [hrun]; decide) e free [] cause x.pc 0x21 cause 0 [0x0, 0x4, 0x8, 0xC] false

/-- An instruction that the sequencer stops at issue. -/
theorem State.issue_seqStop {s : State} {t cause : Nat} {f : Env → TS → Issue} (hissue : s.canIssue t = true)
    (hf : f (s.tileEnv t) { t := s.tile t, free := s.free } =
      (stopSeq (s.tileEnv t) { t := s.tile t, free := s.free } cause (s.tile t).pc).issue { t := s.tile t, free := s.free }) :
    s.issue t f = .next (s.stopped t cause 0x21 cause (s.tile t) [0x0, 0x4, 0x8, 0xC]) := by
  obtain ⟨-, -, hrun, -, -⟩ := State.canIssue_parts hissue
  exact State.issue_stops hissue (hf.trans (congrArg (Res.issue · _) (stopSeq_running hrun _ _ _)))

/-- Issue at or beyond LEN stops the tile before any effect, whatever the instruction (R148). -/
theorem State.issue_beyondLen {s : State} {t : Nat} (f : Env → TS → Issue) (hon : s.tileOn t = true)
    (hpart : (s.part (s.tilePart t)).state ≠ 4) (hrun : (s.tile t).seq = .running) (hlen : progLen (s.tile t) ≤ (s.tile t).pc) :
    s.issue t f = .next (s.stopped t 2 0x21 2 (s.tile t) [0x0, 0x4, 0x8, 0xC]) := by
  simp only [State.tileOn, Bool.and_eq_true, decide_eq_true_eq] at hon
  obtain ⟨htile, hpower⟩ := hon
  have hmay : s.mayIssue t = true := by simp only [State.mayIssue, hpower, hpart, ne_eq, not_false_eq_true, decide_true, Bool.and_self]
  refine State.issue_next.mpr ⟨of_decide_eq_true htile, ?_⟩
  rw [if_pos hmay, State.onTile]
  simp only [issueTile, hrun, hlen, ne_eq, not_true_eq_false, if_false, if_true, stopSeq_running hrun]
  rfl

end Sys2Proof.Machine

namespace Sys2Proof
open Machine

/-- Settles O11: what a word spells issues on its tile, and its reserved encodings are refused by the sequencer's own check. -/
theorem reservedEncodingStops : Obligations.ReservedEncodingStops := by
  unfold Obligations.ReservedEncodingStops
  intro t w c s hdecode stop
  obtain ⟨f, hexec, hreserved⟩ := (spells_of_decodeWord hdecode).issues
  rw [hexec s]
  exact ⟨fun hissue hlegal => State.issue_seqStop hissue (hreserved hlegal _ _), State.issue_beyondLen f⟩

end Sys2Proof
end

section
/-!
Scalar instructions that no pending scalar holds (Table 6.3, R160, R161): the result, the words stored and the words loaded.
-/

namespace Sys2Proof.Machine

/-- None of some of the scalars is pending where none of all is. -/
theorem scalarBusy_of_subset {x : Tile} {l m : List Nat} (hl : scalarBusy x l = false) (hsub : m ⊆ l) : scalarBusy x m = false := by
  simp only [scalarBusy, List.any_eq_false] at hl ⊢
  exact fun n hn => hl n (hsub hn)

/-! The operations that compare, with their comparisons written out (R160). -/
section Alu
variable (a b : DWord)

theorem alu_slt : alu .slt a b = if a.toInt < b.toInt then 1 else 0 := by simp [alu, BitVec.slt]
theorem alu_sltu : alu .sltu a b = if a.toNat < b.toNat then 1 else 0 := by simp [alu, BitVec.lt_def]
theorem alu_min : alu .min a b = if a.toInt < b.toInt then a else b := by simp [alu, BitVec.slt]
theorem alu_max : alu .max a b = if a.toInt < b.toInt then b else a := by simp [alu, BitVec.slt]
theorem alu_minu : alu .minu a b = if a.toNat < b.toNat then a else b := by simp [alu, BitVec.lt_def]
theorem alu_maxu : alu .maxu a b = if a.toNat < b.toNat then b else a := by simp [alu, BitVec.lt_def]

end Alu

section Results
variable {s : State} {t : Nat} {v : DWord} (hissue : s.canIssue t = true)
include hissue

theorem State.alu_retires {f : LSR} {fn : AFn} (hrsv : f.rsv = 0)
    (hbusy : scalarBusy (s.tile t) [f.sd.toNat, f.sa.toNat, f.sb.toNat] = false)
    (hv : alu fn (sreg (s.tile t) f.sa.toNat) (sreg (s.tile t) f.sb.toNat) = v) :
    s.issue t (fun e ts => tAlu e ts f fn) = .next (s.retire t (setSreg (s.tile t) f.sd.toNat v)) := by
  refine State.issue_retires hissue ?_
  simp only [tAlu, legally, hrsv, decide_true, if_true, hbusy, Bool.false_eq_true, if_false, TS.upd, hv]

theorem State.mov_retires {f : LSR} (hrsv : f.rsv = 0) (hsb : f.sb = 0) (hbusy : scalarBusy (s.tile t) [f.sd.toNat, f.sa.toNat] = false) :
    s.issue t (fun e ts => tMov e ts f) = .next (s.retire t (setSreg (s.tile t) f.sd.toNat (sreg (s.tile t) f.sa.toNat))) := by
  refine State.issue_retires hissue ?_
  simp only [tMov, legally, hrsv, hsb, decide_true, Bool.and_self, if_true, hbusy, Bool.false_eq_true, if_false, TS.upd]

theorem State.aluImm_retires {f : LSI} {fn : AFn} (hrsv : f.rsv = 0) (hbusy : scalarBusy (s.tile t) [f.sd.toNat, f.sa.toNat] = false)
    (hv : alu fn (sreg (s.tile t) f.sa.toNat) (f.imm.signExtend 64) = v) :
    s.issue t (fun e ts => tAluImm e ts f fn) = .next (s.retire t (setSreg (s.tile t) f.sd.toNat v)) := by
  refine State.issue_retires hissue ?_
  simp only [tAluImm, legally, hrsv, decide_true, if_true, hbusy, Bool.false_eq_true, if_false, TS.upd, hv]

theorem State.loadImm_retires {f : LSI} {new : DWord → Word → DWord} (hrsv : f.rsv = 0) (hsa : f.sa = 0)
    (hbusy : scalarBusy (s.tile t) [f.sd.toNat] = false) :
    s.issue t (fun e ts => tLoadImm e ts f new) =
      .next (s.retire t (setSreg (s.tile t) f.sd.toNat (new (sreg (s.tile t) f.sd.toNat) f.imm))) := by
  refine State.issue_retires hissue ?_
  simp only [tLoadImm, legally, hrsv, hsa, decide_true, Bool.and_self, if_true, hbusy, Bool.false_eq_true, if_false, TS.upd]

theorem State.csrr_retires {f : LSM} (hrsv : f.rsv = 0) (hoff : f.off.toNat < 2 ^ 16) (halign : f.off.toNat % 4 = 0)
    (hbusy : scalarBusy (s.tile t) [f.sd.toNat] = false) :
    s.issue t (fun e ts => tCsrr e ts f) =
      .next (s.retire t (setSreg (s.tile t) f.sd.toNat ((csrRead (s.tileEnv t) (s.tile t) f.off.toNat).setWidth 64))) := by
  refine State.issue_retires hissue ?_
  simp only [tCsrr, legally, hrsv, hoff, halign, decide_true, Bool.and_self, if_true, hbusy, Bool.false_eq_true, if_false, TS.upd]

end Results

/-- An absolute access inside the scratchpad, a pair at an even address, goes on (R161). -/
theorem absolute_inside {ts : TS} {f : LSM} {n : Nat} {busy : List Nat} (hrsv : f.rsv = 0) (hoff : f.off.toNat < 2 ^ 17)
    (hbusy : scalarBusy ts.t busy = false) (heven : n = 2 → absAddr ts.t f % 2 = 0) (hfit : absAddr ts.t f + n ≤ 98304) (e : Env)
    (k : Nat → Issue) : absolute e ts f n busy k = k (absAddr ts.t f) := by
  have hodd : (decide (n = 2) && decide (absAddr ts.t f % 2 = 1)) = false := by
    rw [Bool.and_eq_false_iff, decide_eq_false_iff_not, decide_eq_false_iff_not]
    omega
  simp only [absolute, legally, hrsv, hoff, hbusy, hodd, Nat.not_lt.mpr hfit, decide_true, decide_false, Bool.and_self, Bool.or_self,
    if_true, Bool.false_eq_true, if_false]

section Absolute
variable {s : State} {t : Nat} {f : LSM} (hissue : s.canIssue t = true) (hrsv : f.rsv = 0) (hoff : f.off.toNat < 2 ^ 17)
  (hbusy : scalarBusy (s.tile t) [f.sd.toNat, f.sa.toNat] = false)
include hissue hrsv hoff hbusy

theorem State.stw_retires (hfit : absAddr (s.tile t) f < 98304) :
    s.issue t (fun e ts => tStore e ts f 1) =
      let x := s.tile t
      let i := physIdx false (absAddr x f)
      .next (s.retire t (loosen false none x (writePhys x i ((sreg x f.sd.toNat).setWidth 32)) [i])) := by
  refine State.issue_retires hissue ?_
  rw [tStore, absolute_inside hrsv hoff hbusy (fun h => absurd h (by decide)) hfit]
  rfl

theorem State.std_retires (heven : absAddr (s.tile t) f % 2 = 0) (hfit : absAddr (s.tile t) f + 2 ≤ 98304) :
    s.issue t (fun e ts => tStore e ts f 2) =
      let x := s.tile t
      let v := sreg x f.sd.toNat
      let i := physIdx false (absAddr x f)
      let j := physIdx false (absAddr x f + 1)
      .next (s.retire t
        (loosen false none x (writePhys (writePhys x i (v.setWidth 32)) j ((v >>> 32).setWidth 32)) [i, j])) := by
  refine State.issue_retires hissue ?_
  rw [tStore, absolute_inside hrsv hoff hbusy (fun _ => heven) hfit]
  rfl

end Absolute

end Sys2Proof.Machine

namespace Sys2Proof
open Machine

/-- Settles O3: each operation by what it computes. -/
theorem scalarRegisterResults : Obligations.ScalarRegisterResults := by
  unfold Obligations.ScalarRegisterResults
  intro t f s hissue hrsv hbusy x a b gives
  have result {fn : AFn} {v : DWord} (hv : alu fn a b = v) : s.issue t (fun e ts => tAlu e ts f fn) = gives v :=
    State.alu_retires hissue hrsv hbusy hv
  exact ⟨result rfl, result rfl, result rfl, result rfl, result rfl, result rfl, result rfl, result rfl, result rfl,
    result (alu_slt a b), result (alu_sltu a b), result (alu_min a b), result (alu_max a b), result (alu_minu a b), result (alu_maxu a b),
    fun hsb => State.mov_retires hissue hrsv hsb (scalarBusy_of_subset hbusy (by simp))⟩

/-- Settles O4: the same operations on the sign-extended IMM; LI, LIU and LIH by the value that each makes of it. -/
theorem scalarImmediateResults : Obligations.ScalarImmediateResults := by
  unfold Obligations.ScalarImmediateResults
  intro t f s hissue hrsv hbusy x a i gives
  have result {fn : AFn} {v : DWord} (hv : alu fn a i = v) : s.issue t (fun e ts => tAluImm e ts f fn) = gives v :=
    State.aluImm_retires hissue hrsv hbusy hv
  have load {new : DWord → Word → DWord} (hsa : f.sa = 0) :
      s.issue t (fun e ts => tLoadImm e ts f new) = gives (new (sreg x f.sd.toNat) f.imm) :=
    State.loadImm_retires hissue hrsv hsa (scalarBusy_head hbusy)
  exact ⟨result rfl, result rfl, result rfl, result rfl, result rfl, result rfl, result rfl, result (alu_slt a i), result (alu_sltu a i),
    fun hsa => ⟨load hsa, load hsa, load hsa⟩⟩

/-- Settles O5: a store inside the scratchpad writes its words; CSRR reads its register. -/
theorem scalarStores : Obligations.ScalarStores := by
  unfold Obligations.ScalarStores
  intro t f s hissue hrsv hbusy x a v i j
  exact ⟨fun hoff hfit => State.stw_retires hissue hrsv hoff hbusy hfit,
    fun hoff heven hfit => State.std_retires hissue hrsv hoff hbusy heven hfit,
    fun hoff halign => State.csrr_retires hissue hrsv hoff halign (scalarBusy_head hbusy)⟩

end Sys2Proof
end

section
/-!
Scalar loads (R122, R142, R161, R438): good words are read as they stand; a bad one is recorded and counted, and stops the tile.
-/

namespace Sys2Proof.Machine

/-- The plain mapping leaves a word where its address says (R120). -/
theorem physIdx_plain (a : Nat) : physIdx false a = a := by
  simp only [physIdx, bankOf, Bool.false_eq_true, if_false]
  omega

theorem ofNat_packNat_one (w : Word) : BitVec.ofNat 64 (packNat 32 [w.toNat]) = w.setWidth 64 := by
  refine BitVec.eq_of_toNat_eq ?_
  have hw := w.isLt
  simp only [packNat, BitVec.toNat_ofNat, BitVec.toNat_setWidth]
  omega

/-- The low word comes first (R161). -/
theorem ofNat_packNat_two (lo hi : Word) : BitVec.ofNat 64 (packNat 32 [lo.toNat, hi.toNat]) = hi ++ lo := by
  refine BitVec.eq_of_toNat_eq ?_
  have hlo := lo.isLt
  have hhi := hi.isLt
  rw [BitVec.toNat_append, ← Nat.shiftLeft_add_eq_or_of_lt hlo, Nat.shiftLeft_eq]
  simp only [packNat, BitVec.toNat_ofNat]
  omega

/-- What the drains will write depends on the regions and the OPE alone. -/
theorem drainTargets_congr {x y : Tile} (hregions : y.regions = x.regions) (hope : y.ope = x.ope) : drainTargets y = drainTargets x := by
  have hregion (g : Nat) : region y g = region x g := by rw [region, hregions, region]
  have htargets (l : List Drain) : ∀ done, targetsAfter y done l = targetsAfter x done l := by
    induction l with
    | nil => exact fun _ => rfl
    | cons d l ih => exact fun done => by simp only [targetsAfter, hregion, ih]
  rw [drainTargets, hope, htargets, drainTargets]

/-- A parity failure changes the registers that record and count it. -/
theorem parityRecord_frame (x : Tile) (port bytes idx : Nat) : ∃ csr, parityRecord x port bytes idx = { x with csr := csr } := by
  simp only [parityRecord]
  split
  · exact ⟨_, rfl⟩
  · exact ⟨_, rfl⟩

theorem csrField_of_csr (x : Tile) (csr : Map Word) (o hi lo v : Nat) :
    ∃ csr', csrField { x with csr := csr } o hi lo v = { x with csr := csr' } := ⟨_, rfl⟩

/-- The status of a parity stop of an absolute load is in the registers (R438). -/
theorem parityFault_frame (x : Tile) (port bytes idx : Nat) :
    ∃ csr, csrField (spdFault (parityRecord x port bytes idx) 5 0) 0x300 2 2 1 = { x with csr := csr } := by
  obtain ⟨csr, hrecord⟩ := parityRecord_frame x port bytes idx
  obtain ⟨csr1, hcause⟩ := csrField_of_csr x csr 0x300 19 16 5
  obtain ⟨csr2, hregion⟩ := csrField_of_csr x csr1 0x300 15 12 0
  obtain ⟨csr3, hfault⟩ := csrField_of_csr x csr2 0x300 1 1 1
  rw [hrecord, spdFault, hcause, hregion, hfault]
  exact csrField_of_csr x csr3 0x300 2 2 1

/-- A parity stop of a running tile that an absolute load meets (R438, R155). -/
theorem stopParity_running {x y : Tile} {csr : Map Word} (hrun : x.seq = .running)
    (hframe : csrField (spdFault y 5 0) 0x300 2 2 1 = { x with csr := csr }) (e : Env) (free port bytes idx : Nat) :
    stopParity e { t := y, free := free } 0 x.pc port bytes idx false =
      let z := { x with csr := csr, seq := .stopped, fault := true, fcause := 5, waiting := false }
      .halt { t := z, free := free, recs := [{ source := 0x01, cls := 1, loc := e.id, offset := x.pc, code := port * 16 + bytes, addr := idx,
                                                detail := csrWords e z [0x0, 0x300, 0x304] }] } := by
  have hgoing : ({ x with csr := csr } : Tile).seq ≠ .stopped := by
    show x.seq ≠ .stopped
    rw [hrun]
    decide
  show stopWith e { t := csrField (spdFault y 5 0) 0x300 2 2 1, free := free } 5 x.pc 0x01 (port * 16 + bytes) idx
    [0x0, 0x300, 0x304] false = _
  rw [hframe]
  exact stopWith_going hgoing e free [] 5 x.pc 0x01 (port * 16 + bytes) idx [0x0, 0x300, 0x304] false

/-- A word with bad bytes, but for its parity a good one, is recorded, counted and returned with them (R142). -/
theorem readPhys_bad {x : Tile} {port i bad : Nat} {via : Option Nat} (id free : Nat) (hinj : injKind x ≠ 1)
    (hpar : Map.get (fun _ => 0) x.par i = bad) (hbad : bad ≠ 0) (hgood : goodWord { x with par := [] } port via i = true) :
    readPhys id { t := x, free := free } port i via =
      ({ t := parityRecord x port bad i, free := free }, Map.get (fun _ => 0#32) x.spd i, bad, false) := by
  obtain ⟨csr, hrecord⟩ := parityRecord_frame x port bad i
  simp only [goodWord, Bool.and_eq_true, Bool.not_eq_true', List.all_eq_true, Bool.or_eq_true, decide_eq_true_eq] at hgood
  obtain ⟨⟨-, hdrain⟩, hloose⟩ := hgood
  have htargets : drainTargets { x with csr := csr } = drainTargets { x with par := [] } := drainTargets_congr rfl rfl
  have hnone : (x.loose.find? fun l => decide (l.idx = i) && l.openTo port via &&
      decide (l.new = Map.get (fun _ => 0#32) x.spd i)) = none := by
    rw [List.find?_eq_none]
    intro l hl
    rcases hloose l hl with h | h <;> simp [h]
  have hhit : (decide (injKind x = 1) && decide (injArg x = i)) = false := by simp [hinj]
  simp only [readPhys, hhit, Bool.false_eq_true, if_false, hpar, hbad, hrecord, htargets, hdrain, eitherWord, hnone]

section Loads
variable {s : State} {t : Nat} {f : LSM} (hissue : s.canIssue t = true) (hrsv : f.rsv = 0) (hoff : f.off.toNat < 2 ^ 17)
  (hbusy : scalarBusy (s.tile t) [f.sd.toNat, f.sa.toNat] = false) (hinj : injKind (s.tile t) ≠ 1) {a : Nat} (ha : absAddr (s.tile t) f = a)
include hissue hrsv hoff hbusy hinj ha

/-- A load of good words writes them to its scalar, packed (R161). -/
theorem State.load_retires {n : Nat} (heven : n = 2 → a % 2 = 0) (hfit : a + n ≤ 98304)
    (hgood : ∀ i < n, goodWord (s.tile t) 7 none (a + i) = true) :
    s.issue t (fun e ts => tLoad e ts f n) = .next (s.retire t (setSreg (s.tile t) f.sd.toNat (BitVec.ofNat 64
      (packNat 32 ((List.range n).map fun i => (Map.get (fun _ => 0#32) (s.tile t).spd (a + i)).toNat))))) := by
  subst ha
  have hread : ∀ i ∈ (List.range n).map fun i => physIdx false (absAddr (s.tile t) f + i), goodWord (s.tile t) 7 none i = true := by
    simp only [List.mem_map, List.mem_range, forall_exists_index, and_imp, forall_apply_eq_imp_iff₂, physIdx_plain]
    exact hgood
  refine State.issue_retires hissue ?_
  rw [tLoad, absolute_inside hrsv hoff hbusy heven hfit, readWords_good hinj hread]
  simp only [List.map_map, Function.comp_def, physIdx_plain, TS.upd, Res.issue]

/-- A load of a word whose parity fails stops the tile (R438). -/
theorem State.ldw_stops {bad : Nat} (hfit : a < 98304) (hpar : Map.get (fun _ => 0) (s.tile t).par a = bad) (hbad : bad ≠ 0)
    (hgood : goodWord { s.tile t with par := [] } 7 none a = true) :
    s.issue t (fun e ts => tLoad e ts f 1) = .next (s.stopped t 5 0x01 (7 * 16 + bad)
      (csrField (spdFault (parityRecord (s.tile t) 7 bad a) 5 0) 0x300 2 2 1) [0x0, 0x300, 0x304] a) := by
  subst ha
  obtain ⟨-, -, hrun, -, -⟩ := State.canIssue_parts hissue
  obtain ⟨csr, hframe⟩ := parityFault_frame (s.tile t) 7 bad (absAddr (s.tile t) f)
  have hread := readPhys_bad (port := 7) (via := none) (s.tileEnv t).id s.free hinj hpar hbad hgood
  rw [hframe]
  unfold State.stopped
  refine State.issue_stops hissue ?_
  rw [tLoad, absolute_inside hrsv hoff hbusy (fun h => absurd h (by decide)) hfit]
  simp only [List.range_one, List.map_cons, List.map_nil, physIdx_plain, Nat.add_zero, readWords, readEach, hread, hbad, if_false]
  exact congrArg (Res.issue · _) (stopParity_running hrun hframe _ _ _ _ _)

end Loads

end Sys2Proof.Machine

namespace Sys2Proof
open Machine

/-- Settles O6: the words that a load reads, packed as its scalar holds them; a bad word by its record and its stop. -/
theorem scalarLoads : Obligations.ScalarLoads := by
  unfold Obligations.ScalarLoads
  intro t f s hissue hrsv hoff hbusy hinj x a w
  refine ⟨fun hfit hgood => ?_, fun heven hfit hlo hhi => ?_, fun bad hfit hpar hbad hgood => ?_⟩
  · have hwords : ∀ i < 1, goodWord x 7 none (a + i) = true := by
      intro i hi
      rwa [Nat.lt_one_iff.mp hi]
    rw [← ofNat_packNat_one]
    exact State.load_retires hissue hrsv hoff hbusy hinj rfl (fun h => absurd h (by decide)) hfit hwords
  · have hwords : ∀ i < 2, goodWord x 7 none (a + i) = true := by
      intro i hi
      obtain rfl | rfl : i = 0 ∨ i = 1 := by omega
      · exact hlo
      · exact hhi
    rw [← ofNat_packNat_two]
    exact State.load_retires hissue hrsv hoff hbusy hinj rfl (fun _ => heven) hfit hwords
  · exact State.ldw_stops hissue hrsv hoff hbusy hinj rfl hfit hpar hbad hgood

end Sys2Proof
end

section
/-!
Control and system instructions (Table 6.2, R148, R153, R154, R157): transfers of control inside the program, those past its end, and
the instructions that wait or end.
-/

namespace Sys2Proof.Machine

/-- A fence that names units, of which one has not finished (R153). -/
theorem fenceWaits_iff {x : Tile} {imm : Word} :
    ((bit imm 0 && !opeIdle x.ope) || (bit imm 1 && !x.vq.isEmpty) || (bit imm 2 && !netIdle x)) = true ↔
      ¬((bit imm 0 → opeIdle x.ope) ∧ (bit imm 1 → x.vq = []) ∧ (bit imm 2 → x.net = [])) := by
  simp only [netIdle, Bool.or_eq_true, Bool.and_eq_true, Bool.not_eq_true', List.isEmpty_eq_false_iff]
  rw [← Bool.not_eq_true]
  tauto

section Transfer
variable {s : State} {t : Nat} (hissue : s.canIssue t = true)
include hissue

/-- A transfer of control leaves its tile at its target, or stops it where LEN does not reach that far, the instruction then undone
(R148). -/
theorem State.issue_transfers {f : Env → TS → Issue} {y : Tile} {target : Nat}
    (hf : f (s.tileEnv t) { t := s.tile t, free := s.free } =
      transfer (s.tileEnv t) { t := s.tile t, free := s.free } { t := y, free := s.free } target) :
    s.issue t f = .next (if progLen (s.tile t) ≤ target then s.stopped t 2 0x21 2 (s.tile t) [0x0, 0x4, 0x8, 0xC]
      else s.goTo t y target) := by
  by_cases hpast : progLen (s.tile t) ≤ target
  · rw [if_pos hpast]
    exact State.issue_seqStop hissue (hf.trans (if_pos hpast))
  · obtain ⟨ht, hmay, hrun, hlen, hgood⟩ := State.canIssue_parts hissue
    have hjump := hf.trans (if_neg hpast)
    have htile : issueTile (s.tileEnv t) { t := s.tile t, free := s.free } (f (s.tileEnv t)) =
        { t := y.issued s.now target, free := s.free } := by
      calc issueTile (s.tileEnv t) { t := s.tile t, free := s.free } (f (s.tileEnv t))
        _ = _ := if_neg (not_not.mpr hrun)
        _ = _ := if_neg (Nat.not_le.mpr hlen)
        _ = _ := if_neg (Bool.eq_false_iff.mp hgood)
        _ = { t := y.issued s.now target, free := s.free } := by rw [hjump]; rfl
    rw [if_neg hpast]
    refine State.issue_next.mpr ⟨ht, ?_⟩
    rw [if_pos hmay, State.onTile, htile]
    rfl

section Branch
variable {f : LB} (hrsv : f.rsv = 0) (htgt : f.tgt.toNat < 4096)
include hrsv htgt

/-- A conditional branch by its condition (Table 6.2). -/
theorem State.branch_issues {one taken : Bool} {c : DWord → DWord → Bool} (hone : one = true → f.sb = 0)
    (hbusy : scalarBusy (s.tile t) [f.sa.toNat, f.sb.toNat] = false)
    (hc : c (sreg (s.tile t) f.sa.toNat) (sreg (s.tile t) f.sb.toNat) = taken) :
    s.issue t (fun e ts => branch e ts f one c) =
      .next (if taken && decide (progLen (s.tile t) ≤ f.tgt.toNat) then s.stopped t 2 0x21 2 (s.tile t) [0x0, 0x4, 0x8, 0xC]
        else s.goTo t (s.tile t) (if taken then f.tgt.toNat else (s.tile t).pc + 1)) := by
  have hlegal : (decide (f.rsv = 0) && decide (f.tgt.toNat < 4096) && (!one || decide (f.sb = 0))) = true := by
    cases one
    · simp [hrsv, htgt]
    · simp [hrsv, htgt, hone]
  have hfree : scalarBusy (s.tile t) ([f.sa.toNat] ++ if one then [] else [f.sb.toNat]) = false :=
    scalarBusy_of_subset hbusy (by cases one <;> simp)
  have hbranch : branch (s.tileEnv t) { t := s.tile t, free := s.free } f one c =
      if taken then transfer (s.tileEnv t) { t := s.tile t, free := s.free } { t := s.tile t, free := s.free } f.tgt.toNat
      else .next { t := s.tile t, free := s.free } := by
    simp only [branch, legally, hlegal, if_true, hfree, Bool.false_eq_true, if_false, hc]
  cases taken
  · exact State.issue_retires hissue hbranch
  · simp only [Bool.true_and, decide_eq_true_eq, if_true]
    exact State.issue_transfers hissue hbranch

theorem State.jmp_issues (hsa : f.sa = 0) (hsb : f.sb = 0) :
    s.issue t (fun e ts => tJmp e ts f) =
      .next (if progLen (s.tile t) ≤ f.tgt.toNat then s.stopped t 2 0x21 2 (s.tile t) [0x0, 0x4, 0x8, 0xC]
        else s.goTo t (s.tile t) f.tgt.toNat) := by
  refine State.issue_transfers hissue ?_
  simp only [tJmp, legally, hrsv, htgt, hsa, hsb, decide_true, Bool.and_self, if_true]

variable (hbusy : scalarBusy (s.tile t) [f.sa.toNat] = false)
include hbusy

/-- JAL writes the index of the next instruction where its target lies inside the program. -/
theorem State.jal_issues :
    s.issue t (fun e ts => tJal e ts f) =
      .next (if progLen (s.tile t) ≤ f.tgt.toNat then s.stopped t 2 0x21 2 (s.tile t) [0x0, 0x4, 0x8, 0xC]
        else s.goTo t (setSreg (s.tile t) f.sa.toNat (BitVec.ofNat 64 ((s.tile t).pc + 1))) f.tgt.toNat) := by
  refine State.issue_transfers hissue ?_
  simp only [tJal, legally, hrsv, htgt, decide_true, Bool.and_self, if_true, hbusy, Bool.false_eq_true, if_false, TS.upd]

/-- JR goes to an index of 12 bits inside the program, and stops the tile else. -/
theorem State.jr_issues {a : DWord} (ha : sreg (s.tile t) f.sa.toNat = a) :
    s.issue t (fun e ts => tJr e ts f) =
      .next (if a.toNat < 4096 ∧ a.toNat < progLen (s.tile t) then s.goTo t (s.tile t) a.toNat
        else s.stopped t 2 0x21 2 (s.tile t) [0x0, 0x4, 0x8, 0xC]) := by
  have hjr : tJr (s.tileEnv t) { t := s.tile t, free := s.free } f =
      if 4096 ≤ a.toNat then
        (stopSeq (s.tileEnv t) { t := s.tile t, free := s.free } 2 (s.tile t).pc).issue { t := s.tile t, free := s.free }
      else transfer (s.tileEnv t) { t := s.tile t, free := s.free } { t := s.tile t, free := s.free } a.toNat := by
    simp only [tJr, legally, hrsv, htgt, decide_true, Bool.and_self, if_true, hbusy, Bool.false_eq_true, if_false, ha]
  by_cases hwide : 4096 ≤ a.toNat
  · rw [if_neg (by omega)]
    exact State.issue_seqStop hissue (hjr.trans (if_pos hwide))
  · rw [State.issue_transfers hissue (hjr.trans (if_neg hwide))]
    by_cases hpast : progLen (s.tile t) ≤ a.toNat
    · rw [if_pos hpast, if_neg (by omega)]
    · rw [if_neg hpast, if_pos (by omega)]

/-- LOOP counts down whether or not it branches, but where the branch stops the tile (R157). -/
theorem State.loop_issues {v : DWord} (hv : sreg (s.tile t) f.sa.toNat - 1 = v) :
    s.issue t (fun e ts => tLoop e ts f) =
      .next (if v ≠ 0 ∧ progLen (s.tile t) ≤ f.tgt.toNat then s.stopped t 2 0x21 2 (s.tile t) [0x0, 0x4, 0x8, 0xC]
        else s.goTo t (setSreg (s.tile t) f.sa.toNat v) (if v = 0 then (s.tile t).pc + 1 else f.tgt.toNat)) := by
  have hloop : tLoop (s.tileEnv t) { t := s.tile t, free := s.free } f =
      if v = 0 then .next { t := setSreg (s.tile t) f.sa.toNat v, free := s.free }
      else transfer (s.tileEnv t) { t := s.tile t, free := s.free } { t := setSreg (s.tile t) f.sa.toNat v, free := s.free }
        f.tgt.toNat := by
    simp only [tLoop, legally, hrsv, htgt, decide_true, Bool.and_self, if_true, hbusy, Bool.false_eq_true, if_false, hv, TS.upd]
  by_cases hzero : v = 0
  · simp only [hzero, ne_eq, not_true_eq_false, false_and, if_false, if_true] at hloop ⊢
    exact State.issue_retires hissue hloop
  · simp only [hzero, ne_eq, not_false_eq_true, true_and, if_false] at hloop ⊢
    exact State.issue_transfers hissue hloop

end Branch

theorem State.end_retires :
    s.issue t (fun e ts => tEnd e ts { sa := 0, sb := 0, tgt := 0 }) = .next (s.retire t { s.tile t with seq := .ending }) :=
  State.issue_retires hissue rfl

theorem State.nop_retires {f : LSI} (hrsv : f.rsv = 0) : s.issue t (fun e ts => tNop e ts f) = .next (s.retire t (s.tile t)) :=
  State.issue_retires hissue (if_pos (decide_eq_true hrsv))

theorem State.time_retires {f : LSI} (hrsv : f.rsv = 0) (hbusy : scalarBusy (s.tile t) [f.sd.toNat] = false) :
    s.issue t (fun e ts => tTime e ts f) = .next (s.retire t (setSreg (s.tile t) f.sd.toNat s.now)) := by
  refine State.issue_retires hissue ?_
  simp only [tTime, legally, hrsv, decide_true, if_true, hbusy, Bool.false_eq_true, if_false, TS.upd]
  rfl

/-- SYS.FENCE waits for the units that it names (R153). -/
theorem State.fence_issues {f : LSI} (hrsv : f.rsv = 0) (himm : f.imm.toNat < 8) :
    s.issue t (fun e ts => tFence e ts f) =
      let x := s.tile t
      .next (if (bit f.imm 0 → opeIdle x.ope) ∧ (bit f.imm 1 → x.vq = []) ∧ (bit f.imm 2 → x.net = []) then
          s.retire t (if bit f.imm 1 then orderAll true x else x)
        else s.heldAt t x) := by
  have hlegal : (decide (f.rsv = 0) && decide (f.imm.toNat < 8)) = true := by simp only [hrsv, himm, decide_true, Bool.and_self]
  dsimp only
  split
  next hdone =>
    have hgo := fenceWaits_iff.not.mpr (not_not.mpr hdone)
    refine State.issue_retires hissue ((legally_legal hlegal _ _ _).trans ((if_neg hgo).trans ?_))
    cases bit f.imm 1 <;> rfl
  next hwait => exact State.issue_holds hissue ((legally_legal hlegal _ _ _).trans (if_pos (fenceWaits_iff.mpr hwait)))

end Transfer

end Sys2Proof.Machine

namespace Sys2Proof
open Machine

/-- Settles O7: a branch by its condition, a taken one by its target; JAL, JR and LOOP by what they write. -/
theorem branchTargets : Obligations.BranchTargets := by
  unfold Obligations.BranchTargets
  intro t f s hissue hrsv htgt hbusy x a b past stop goes
  have hfirst : scalarBusy x [f.sa.toNat] = false := scalarBusy_head hbusy
  have two {c : DWord → DWord → Bool} {taken : Bool} (hc : c a b = taken) : s.issue t (fun e ts => branch e ts f false c) = goes taken :=
    State.branch_issues hissue hrsv htgt (fun h => absurd h (by decide)) hbusy hc
  have one {c : DWord → DWord → Bool} {taken : Bool} (hsb : f.sb = 0) (hc : c a b = taken) :
      s.issue t (fun e ts => branch e ts f true c) = goes taken :=
    State.branch_issues hissue hrsv htgt (fun _ => hsb) hbusy hc
  have hge : (!a.slt b) = decide (b.toInt ≤ a.toInt) := (decide_not ..).symm.trans (decide_eq_decide.mpr Int.not_lt)
  have hgeu : (!a.ult b) = decide (b.toNat ≤ a.toNat) := (decide_not ..).symm.trans (decide_eq_decide.mpr Nat.not_lt)
  refine ⟨two rfl, two rfl, two rfl, two hge, two rfl, two hgeu, fun hsb => ⟨one hsb rfl, one hsb rfl⟩, fun hsa hsb => ?_, ?_, ?_, ?_⟩
  · simp only [goes, past, Bool.true_and, decide_eq_true_eq, if_true]
    exact State.jmp_issues hissue hrsv htgt hsa hsb
  · simp only [past, decide_eq_true_eq]
    exact State.jal_issues hissue hrsv htgt hfirst
  · exact State.jr_issues hissue hrsv htgt hfirst rfl
  · simp only [past, decide_eq_true_eq]
    exact State.loop_issues hissue hrsv htgt hfirst rfl

/-- Settles O8: each instruction by its effect, the fence by the units that it names. -/
theorem systemInstructions : Obligations.SystemInstructions := by
  unfold Obligations.SystemInstructions
  intro t s hissue x
  exact ⟨State.end_retires hissue, fun f hrsv => State.nop_retires hissue hrsv, fun f hrsv hbusy => State.time_retires hissue hrsv hbusy,
    fun f hrsv himm => State.fence_issues hissue hrsv himm⟩

end Sys2Proof
end

section
/-!
The path of an event (R36, R158, R400): SYS.EVENT on its tile, the flit's way into a mailbox ring, and the job service's answer.
-/

namespace Sys2Proof.Machine

section SysEvent
variable {s : State} {t : Nat} {f : LSI} (hissue : s.canIssue t = true) (hrsv : f.rsv = 0)
  (hcode : 256 ≤ f.imm.toNat % 65536 ∨ f.imm.toNat % 65536 = 1) (hbusy : scalarBusy (s.tile t) [f.sa.toNat] = false)

include hrsv hcode in
/-- A host code, and the one module code that a tile may post, are legal (R158). -/
theorem eventCode_legal : (decide (f.rsv = 0) && (decide (256 ≤ f.imm.toNat % 65536) || decide (f.imm.toNat % 65536 = 1))) = true := by
  simpa only [hrsv, decide_true, Bool.true_and, Bool.or_eq_true, decide_eq_true_eq] using hcode

include hissue hrsv hcode hbusy

theorem State.event_posts (hnone : (s.tile t).event = none) :
    s.issue t (fun e ts => tEvent e ts f) =
      .next (s.heldAt t { s.tile t with event := some { code := f.imm.toNat % 65536, value := sreg (s.tile t) f.sa.toNat } }) := by
  refine State.issue_holds hissue ((legally_legal (eventCode_legal hrsv hcode) _ _ _).trans
    ((if_neg (Bool.eq_false_iff.mp hbusy)).trans ?_))
  rw [hnone]
  rfl

theorem State.event_completes {ev : Event} (hev : (s.tile t).event = some ev) (haccepted : ev.accepted = true) :
    s.issue t (fun e ts => tEvent e ts f) = .next (s.retire t { s.tile t with event := none }) := by
  refine State.issue_retires hissue ((legally_legal (eventCode_legal hrsv hcode) _ _ _).trans
    ((if_neg (Bool.eq_false_iff.mp hbusy)).trans ?_))
  rw [hev]
  exact if_pos haccepted

theorem State.event_waits {ev : Event} (hev : (s.tile t).event = some ev) (haccepted : ev.accepted = false) :
    s.issue t (fun e ts => tEvent e ts f) = .next (s.heldAt t (s.tile t)) := by
  refine State.issue_holds hissue ((legally_legal (eventCode_legal hrsv hcode) _ _ _).trans
    ((if_neg (Bool.eq_false_iff.mp hbusy)).trans ?_))
  rw [hev]
  exact if_neg (Bool.eq_false_iff.mp haccepted)

end SysEvent

/-- The flit of an event enters the ring of its partition while the ring has room and the control complex is up (R400). -/
theorem State.eventPost_taken {s : State} {t e port : Nat} {f : Flit} (hup : s.mod.cc.up = true)
    (hheld : (s.tiles.findSome? fun z => (heldEvent t z.2).map fun w => (z.1, w)) = some (e, port, f))
    (hroom : (s.mailOf (min 8 (s.tilePart t))).length < 4096) :
    s.eventPost t =
      let y := s.tile e
      let r := min 8 (s.tilePart t)
      let code := bits (nth 0#32 f.data 2) 15 0
      let value := nth 0#32 f.data 1 ++ nth 0#32 f.data 0
      let s1 := s.setTile e (setEdgeFlits y port ((edgeFlits y port).erase f))
      let s2 := s1.setMail r (s.mailOf r ++ [{ tile := t, code := code, value := value }])
      s2.setTile t (postedEvent (s1.tile t) code value true) := by
  have htaken : (s.mod.cc.up && decide ((s.mailOf (min 8 (s.tilePart t))).length < 4096)) = true := by rw [hup, decide_eq_true hroom]; rfl
  rw [State.eventPost, hheld]
  exact if_pos htaken

/-- The job service takes the oldest event of a ring (R400). -/
theorem takeEvent_cons {m : Mail} (hmsg : m.msg = none) (l : List Mail) : takeEvent (m :: l) = some (m, l) :=
  if_pos (by rw [hmsg]; rfl)

/-- A host code goes on to the host, and its tile, which the answer reaches, goes on. -/
theorem State.eventTaken_host {s : State} {ring : Nat} {m : Mail} {l : List Mail} {ev : Event} (hmail : s.mailOf ring = m :: l)
    (hmsg : m.msg = none) (hhost : 256 ≤ m.code) (hev : (s.tile m.tile).event = some ev) (hposted : ev.posted = true)
    (hcode : ev.code = m.code) (hvalue : ev.value = m.value) (hanswer : s.eventAnswered m.tile = true) :
    s.eventTaken ring = ((s.setMail ring l).setTile m.tile { s.tile m.tile with event := some { ev with accepted := true } }).say
      (.hostEvent ring m.tile m.code m.value) := by
  have hhere : (ev.posted && decide (ev.code = m.code) && decide (ev.value = m.value) && s.eventAnswered m.tile) = true := by
    rw [hposted, decide_eq_true hcode, decide_eq_true hvalue, hanswer]
    rfl
  rw [State.eventTaken, hmail, takeEvent_cons hmsg]
  dsimp only
  rw [if_pos hhost, hev, Option.map_some, if_pos hhere]

end Sys2Proof.Machine

namespace Sys2Proof
open Machine

/-- Settles O9: each command by where the event stands. -/
theorem eventPath : Obligations.EventPath := by
  unfold Obligations.EventPath
  refine ⟨?post, ?enters, ?resend, ?acknowledge⟩
  case post =>
    intro t f s hissue hrsv hcode hbusy x
    exact ⟨State.event_posts hissue hrsv hcode hbusy, fun _ => State.event_completes hissue hrsv hcode hbusy,
      fun _ => State.event_waits hissue hrsv hcode hbusy⟩
  case enters =>
    intro t e port s f htile hup hheld y r code value hroom
    exact s.checked_of htile (State.eventPost_taken hup hheld hroom)
  case resend =>
    intro t s ev hon hev hrefused
    simp only [State.tileOn, Bool.and_eq_true, decide_eq_true_eq] at hon
    obtain ⟨htile, hpower⟩ := hon
    refine State.tileDo_next.mpr ⟨of_decide_eq_true htile, ?_⟩
    rw [if_pos hpower, State.onTile_quiet rfl]
    simp only [TS.upd, hev, Option.map_some, hrefused, if_true]
  case acknowledge =>
    intro ring s m l ev hring hup hmail hmsg hhost hev hposted hcode hvalue hanswer
    refine s.checked_of (decide_eq_true hring) ((if_pos hup).trans ?_)
    exact State.eventTaken_host hmail hmsg hhost hev hposted hcode hvalue hanswer

end Sys2Proof
end

section
/-!
Issue into the queue of the OPE (R149, R150, R172, R177, R180): a product whose regions hold it, and a drain whose region can take it.
-/

namespace Sys2Proof.Machine

/-- Every region that a product reads is a feed of the OPE and can hold the product (R134, R137). -/
theorem checkOperands_pass {x : Tile} (e : Env) (free pc : Nat) (k : Res) : ∀ {l : List (Nat × Nat)},
    (∀ g ∈ l, usable x g.1 1 false = true ∧ g.2 ≤ (region x g.1).size) → checkOperands e { t := x, free := free } pc k l = k
  | [], _ => rfl
  | g :: l, hholds => by
    obtain ⟨husable, hfit⟩ := hholds g List.mem_cons_self
    rw [checkOperands, useRegion_usable _ _ _ _ husable, if_neg (Nat.not_lt.mpr hfit)]
    exact checkOperands_pass e free pc k fun h hh => hholds h (List.mem_cons_of_mem _ hh)

/-- A product that the OPE has room and the field has credit for enters the queue (R149, R371). -/
theorem issueProduct_queues {x : Tile} {e : Env} {p : Product}
    (hholds : ∀ g ∈ productWords p, usable x g.1 1 false = true ∧ g.2 ≤ (region x g.1).size) (hqueue : x.ope.queue.length < 4)
    (hpend : pend x.ope < 3) (hcredit : e.pace = 0 ∨ 0 < tileCredit e x) (free cost : Nat) :
    issueProduct e { t := x, free := free } p cost = .next { t := { x with
      credit := if e.pace = 0 then none else some (tileCredit e x - (cost : Int))
      ope := { x.ope with queue := x.ope.queue ++ [.mul p] } }, free := free } := by
  have hroom : (decide (4 ≤ x.ope.queue.length) || decide (3 ≤ pend x.ope)) = false := by
    rw [decide_eq_false (Nat.not_le.mpr hqueue), decide_eq_false (Nat.not_le.mpr hpend)]
    rfl
  have hpaced : (decide (e.pace ≠ 0) && decide (tileCredit e x ≤ 0)) = false := by
    rw [Bool.and_eq_false_iff, decide_eq_false_iff_not, decide_eq_false_iff_not, not_not, not_le]
    exact hcredit
  rw [issueProduct, checkOperands_pass _ _ _ _ hholds]
  exact congrArg (Res.issue · _) ((if_neg (Bool.eq_false_iff.mp hroom)).trans (if_neg (Bool.eq_false_iff.mp hpaced)))

/-- OPE.MUL in either mode, where its mask is not pending (R57, R172). -/
theorem tOpeMul_legal {ts : TS} {f : LOM} (hlegal : omLegal f = true)
    (hbusy : scalarBusy ts.t (if f.mall = 1 then [] else [f.msk.toNat]) = false) (e : Env) (cont : Bool) :
    tOpeMul e ts f cont = issueProduct e ts (productOf ts.t f cont) ((f.lm1.toNat + 1) * passes (productOf ts.t f cont)) :=
  (legally_legal hlegal _ _ _).trans (if_neg (Bool.eq_false_iff.mp hbusy))

/-- OPE.CUBE of BF16 or FP16 (R73, R180). -/
theorem tOpeCube_legal {f : LOC} (hrsv : f.rsv = 0) (hfmt : f.fmt = 1 ∨ f.fmt = 2) (e : Env) (ts : TS) :
    tOpeCube e ts f = issueProduct e ts
      { set := f.set.toNat, cont := f.cont = 1, cube := true, len := 4, cfmt := f.fmt.toNat, rfmt := f.fmt.toNat,
        crg := f.crg.toNat, rrg := f.rrg.toNat, csrg := 0, rsrg := 0, ct := false, rt := false, cpx := false, mask := 15,
        pc := ts.t.pc } 4 := by
  have hlegal : (decide (f.rsv = 0) && (decide (f.fmt = 1) || decide (f.fmt = 2))) = true := by
    simpa only [hrsv, decide_true, Bool.true_and, Bool.or_eq_true, decide_eq_true_eq] using hfmt
  exact legally_legal hlegal _ _ _

/-- The drain that an OPE.DRN puts into the queue, with what it takes at issue (R97, R150, R177). -/
def drainOf (x : Tile) (f : LOD) : Drain :=
  { set := f.set.toNat, dst := f.dst.toNat, fmt := f.fmt.toNat, rnd := f.rnd = 1, sat := f.sat = 1, drg := f.drg.toNat,
    tag := if f.dst = 1 then sreg x f.tag.toNat else 0, pc := x.pc, ord := (csrWord x 0x50C).toNat,
    cpx := (drainKind x.ope f.set.toNat).1, cube := (drainKind x.ope f.set.toNat).2 }

/-- An OPE.DRN whose tag and mode are legal and whose region can take its block enters the queue (R177 to R179). -/
theorem tOpeDrn_queues {x : Tile} {f : LOD} {d : Drain} (hd : drainOf x f = d) (hlegal : odLegal f = true)
    (hbusy : scalarBusy x (if f.dst = 1 then [f.tag.toNat] else []) = false) (hqueue : x.ope.queue.length < 4)
    (htag : d.tag.toNat < 2 ^ 32) (hlast : f.dst = 1 → d.cpx = true → bits d.tag 15 0 ≠ 0xFFFF)
    (hcube : d.cube = true → f.dst = 0 ∧ f.rnd = 0 ∧ f.sat = 0 ∧ f.fmt.toNat ≤ 2)
    (husable : usable x f.drg.toNat 1 true = true) (hcons : f.dst = 1 → (region x f.drg.toNat).cons = 3)
    (hfit : drainWords d * (if d.cpx && f.dst = 0 then 2 else 1) ≤ (region x f.drg.toNat).size) (e : Env) (free : Nat) :
    tOpeDrn e { t := x, free := free } f = .next { t := { csrPut x 0x50C (csrWord x 0x50C + (if d.cpx then 2 else 1)) with
      ope := { x.ope with queue := x.ope.queue ++ [.drn d] } }, free := free } := by
  subst hd
  have htagOk : (decide (2 ^ 32 ≤ (drainOf x f).tag.toNat) ||
      (decide (f.dst = 1) && (drainOf x f).cpx && decide (bits (drainOf x f).tag 15 0 = 0xFFFF))) = false := by
    simp only [Nat.not_le.mpr htag, decide_false, Bool.false_or, Bool.and_eq_false_iff, decide_eq_false_iff_not]
    by_cases hdst : f.dst = 1
    · by_cases hcpx : (drainOf x f).cpx = true
      · exact .inr (hlast hdst hcpx)
      · exact .inl (.inr (Bool.not_eq_true _ ▸ hcpx))
    · exact .inl (.inl hdst)
  have hcubeOk : ((drainOf x f).cube && (decide (f.dst = 1) || decide (f.rnd = 1) || decide (f.sat = 1) || decide (2 < f.fmt.toNat))) =
      false := by
    by_cases hmode : (drainOf x f).cube = true
    · obtain ⟨hdst, hrnd, hsat, hfmt⟩ := hcube hmode
      simp [hdst, hrnd, hsat, hfmt]
    · simp [hmode]
  have hconsOk : (decide (f.dst = 1) && decide ((region x f.drg.toNat).cons ≠ 3)) = false := by
    rw [Bool.and_eq_false_iff, decide_eq_false_iff_not, decide_eq_false_iff_not, not_not]
    exact Decidable.imp_iff_not_or.mp hcons
  calc tOpeDrn e { t := x, free := free } f
    _ = _ := legally_legal hlegal _ _ _
    _ = _ := if_neg (Bool.eq_false_iff.mp hbusy)
    _ = _ := if_neg (Bool.eq_false_iff.mp htagOk)
    _ = _ := if_neg (Bool.eq_false_iff.mp hcubeOk)
    _ = _ := congrArg (Res.issue · _) (useRegion_usable _ _ _ _ husable)
    _ = _ := congrArg (Res.issue · _) (if_neg (Bool.eq_false_iff.mp hconsOk))
    _ = _ := congrArg (Res.issue · _) (if_neg (Nat.not_lt.mpr hfit))
    _ = _ := congrArg (Res.issue · _) (if_neg (Nat.not_le.mpr hqueue))

end Sys2Proof.Machine

namespace Sys2Proof
open Machine

/-- Settles O18: the products by their regions and the OPE's room, the drain by its region. -/
theorem opeIssue : Obligations.OpeIssue := by
  unfold Obligations.OpeIssue
  intro t s hissue x e holds room queued
  refine ⟨?mul, ?cube, ?drain⟩
  case mul =>
    intro f hlegal hbusy ⟨hqueue, hpend, hcredit⟩
    have queues (cont : Bool) (hholds : holds (productOf x f cont)) :
        s.issue t (fun e ts => tOpeMul e ts f cont) = queued (productOf x f cont) ((f.lm1.toNat + 1) * passes (productOf x f cont)) :=
      State.issue_retires hissue ((tOpeMul_legal hlegal hbusy _ _).trans (issueProduct_queues hholds hqueue hpend hcredit _ _))
    exact ⟨queues false, queues true⟩
  case cube =>
    intro f hrsv hfmt ⟨hqueue, hpend, hcredit⟩ p hholds
    exact State.issue_retires hissue ((tOpeCube_legal hrsv hfmt _ _).trans (issueProduct_queues hholds hqueue hpend hcredit _ _))
  case drain =>
    intro f hlegal hbusy hqueue cpx cube tag d htag hlast hcube husable hcons hfit
    exact State.issue_retires hissue (tOpeDrn_queues rfl hlegal hbusy hqueue htag hlast hcube husable hcons hfit _ _)

end Sys2Proof
end

section
/-!
Issue of a NET instruction into a free slot (R149, R181 to R183).
-/

namespace Sys2Proof.Machine

/-- A NET instruction whose scalars are well-formed, whose regions serve the NET unit and hold the transfer, and which no open SEND into its
destination precedes, takes the free slot. -/
theorem tNet_starts {x : Tile} {f : LN} {k : NetKind} {a b : DWord} {tid : Nat} (ha : sreg x f.sa.toNat = a) (hb : sreg x f.sb.toNat = b)
    (hrsv : f.rsv = 0) (hbusy : scalarBusy x [f.sa.toNat, f.sb.toNat] = false) (hscalars : netScalarsOk k a b = true)
    (husable : usable x f.rg.toNat 3 (k = .pull) = true) (hfit : 8 * bits b 15 0 ≤ (region x f.rg.toNat).size)
    (hfree : freeTid x = some tid) (hpull : k = .pull → openInto x f.rg.toNat = false)
    (hatom : ∀ op, k = .atom op → f.rrg = f.rg ∨ (usable x f.rrg.toNat 3 true = true ∧
      (if op = 4 then 8 * bits b 15 0 / 2 else 8 * bits b 15 0) ≤ (region x f.rrg.toNat).size ∧ openInto x f.rrg.toNat = false))
    (e : Env) (free : Nat) :
    tNet e { t := x, free := free } f k = .next { t := { x with net := x.net ++ [transferOf x tid k f a b] }, free := free } := by
  subst ha hb
  have hwell : (!netScalarsOk k (sreg x f.sa.toNat) (sreg x f.sb.toNat)) = false := by rw [hscalars]; rfl
  calc tNet e { t := x, free := free } f k
    _ = _ := legally_legal (decide_eq_true hrsv) _ _ _
    _ = _ := if_neg (Bool.eq_false_iff.mp hbusy)
    _ = _ := if_neg (Bool.eq_false_iff.mp hwell)
    _ = _ := congrArg (Res.issue · _) (useRegion_usable _ _ _ _ husable)
    _ = _ := congrArg (Res.issue · _) (if_neg (Nat.not_lt.mpr hfit))
    _ = _ := ?_
  have hnone : ¬Option.any (openInto x) none = true := Bool.false_ne_true
  have hsome {g : Nat} (hg : openInto x g = false) : ¬(some g).any (openInto x) = true := Bool.eq_false_iff.mp hg
  cases k with
  | pull => dsimp only; rw [if_neg (hsome (hpull rfl)), hfree]; rfl
  | push => dsimp only; rw [if_neg hnone, hfree]; rfl
  | send => dsimp only; rw [if_neg hnone, hfree]; rfl
  | atom op =>
    dsimp only
    by_cases hsame : f.rrg = f.rg
    · rw [if_pos hsame, if_neg hnone, hfree]; rfl
    · obtain ⟨hdest, hold, hopen⟩ := (hatom op rfl).resolve_left hsame
      rw [if_neg hsame, useRegion_usable _ _ _ _ hdest, if_neg (Nat.not_lt.mpr hold), if_neg (hsome hopen), hfree]; rfl

end Sys2Proof.Machine

namespace Sys2Proof
open Machine

/-- Settles O21: each instruction is a NET instruction of its kind. -/
theorem netIssue : Obligations.NetIssue := by
  unfold Obligations.NetIssue
  intro t f s hissue hrsv hbusy x a b n base starts
  refine ⟨?pull, ?push, ?send, ?atomics⟩
  case pull =>
    intro ⟨hscalars, husable, hfit⟩ hopen tid hfree
    exact State.issue_retires hissue (tNet_starts rfl rfl hrsv hbusy hscalars husable hfit hfree (fun _ => hopen) nofun _ _)
  case push =>
    intro ⟨hscalars, husable, hfit⟩ tid hfree
    exact State.issue_retires hissue (tNet_starts rfl rfl hrsv hbusy hscalars husable hfit hfree nofun nofun _ _)
  case send =>
    intro ⟨hscalars, husable, hfit⟩ tid hfree
    exact State.issue_retires hissue (tNet_starts rfl rfl hrsv hbusy hscalars husable hfit hfree nofun nofun _ _)
  case atomics =>
    have atomic {op : Nat} (hbase : base (.atom op)) (hdest : f.rrg = f.rg ∨ (usable x f.rrg.toNat 3 true = true ∧
        (if op = 4 then n / 2 else n) ≤ (region x f.rrg.toNat).size ∧ openInto x f.rrg.toNat = false)) (tid : Nat)
        (hfree : freeTid x = some tid) : s.issue t (fun e ts => tNet e ts f (.atom op)) =
          .next (s.retire t { x with net := x.net ++ [transferOf x tid (.atom op) f a b] }) := by
      obtain ⟨hscalars, husable, hfit⟩ := hbase
      refine State.issue_retires hissue (tNet_starts rfl rfl hrsv hbusy hscalars husable hfit hfree nofun ?_ _ _)
      rintro _ ⟨⟩
      exact hdest
    simp only [List.forall_mem_cons, List.not_mem_nil, false_imp_iff, implies_true, and_true]
    exact ⟨atomic, atomic, atomic, atomic, atomic⟩

end Sys2Proof
end

section
/-!
What arrives at a tile for its NET transfers (R183, R231, R236, R237): copies of a combined return, return data, acknowledgements and
errors, the completion of a transfer and the flits of a SEND.
-/

namespace Sys2Proof.Machine

/-- A command acts on the router of a tile whose field is on or drains (R358). -/
theorem State.routerDo_powered {s u : State} {t : Nat} {ok : Bool} (htile : isTile t = true) (hok : ok = true)
    (hpower : (s.field (fieldOf t)).power = 2 ∨ (s.field (fieldOf t)).power = 3) : s.routerDo t ok u = .next u := by
  refine State.checked_next.mpr ⟨?_, (if_pos ?_).symm⟩
  · rw [hok, Bool.and_true]
    exact htile
  · simpa only [Bool.or_eq_true, decide_eq_true_eq] using hpower

/-- The tile without a flit that had arrived. -/
def withoutArrived (x : Tile) (f : Flit) : Tile := { x with rtr := { x.rtr with arrived := x.rtr.arrived.erase f } }

theorem takeArrived_found {x : Tile} {p : Flit → Bool} {f : Flit} (h : x.rtr.arrived.find? p = some f) :
    takeArrived x p = some (f, withoutArrived x f) := by
  rw [takeArrived, h]
  rfl

theorem slot_of_find {x : Tile} {k : Nat} {c : CmbEntry} (h : (x.rtr.cmb.find? fun e => e.slot = k) = some c) : c.slot = k :=
  by simpa only [decide_eq_true_eq] using List.find?_some h

/-- A return for a combining entry is copied to each of its requesters; the entry stands until all its flits are copied (R236). -/
theorem tCombinedCopy_rdata {x : Tile} {f : Flit} {tid seq k : Nat} {c : CmbEntry} {q : CmbReq} {l : List CmbReq}
    (hfetched : x.rtr.arrived.find? (fun g => returnSlot g ≠ 31) = some f) (hbody : f.body = .rdata tid seq k)
    (hentry : (x.rtr.cmb.find? fun e => e.slot = k) = some c) (hreqs : c.reqs = q :: l) :
    tCombinedCopy x =
      let u := addInject (withoutArrived x f) (c.reqs.map (copyFor q.seq f))
      { u with rtr := { u.rtr with
        cmb := if c.nfl ≤ c.copied + 1 then u.rtr.cmb.filter fun e => e.slot ≠ k
          else u.rtr.cmb.map fun e => if e.slot = k then { e with copied := e.copied + 1 } else e } } := by
  have hslot : returnSlot f = k := by rw [returnSlot, hbody]
  have hcmb : ((withoutArrived x f).rtr.cmb.find? fun e => e.slot = returnSlot f) = some c := by rw [hslot]; exact hentry
  rw [tCombinedCopy, takeArrived_found hfetched]
  dsimp only
  rw [hcmb]
  dsimp only
  rw [hreqs, hbody, slot_of_find hentry]
  simp only [Bool.false_or, decide_eq_true_eq]

section Transfers
variable {x : Tile} {f : Flit} {tid : Nat} {y : Transfer} (hfind : (x.net.find? fun z => z.tid = tid) = some y)
include hfind

/-- Return data of a pull goes to its words of the region (R231). -/
theorem tReturn_pull {seq : Nat} (hkind : y.kind = .pull) (hnew : seq ∉ y.got) (ws : List Word) :
    tReturn x tid seq false ws =
      setTransfer (writeRegion x (region x y.rg) (y.off + 8 * seq) ws) { y with got := y.got ++ [seq] } := by
  have hstep : (if y.kind = .atom 4 then 4 else 8) = 8 := if_neg (by rw [hkind]; nofun)
  rw [tReturn, hfind]
  simp only [hstep, Bool.false_and, Bool.false_eq_true, if_false, List.contains_iff_mem, hnew]

theorem tAck_new {seq : Nat} (hnew : seq ∉ y.acked) : tAck x tid seq = setTransfer x { y with acked := y.acked ++ [seq] } := by
  rw [tAck, hfind]
  simp only [List.contains_iff_mem, hnew, if_false]

theorem tErr_found (seq : Nat) : tErr x tid seq =
    setTransfer x { y with failed := true, erred := if y.erred.contains seq then y.erred else y.erred ++ [seq] } := by
  rw [tErr, hfind]

end Transfers

/-- Return data for the tile itself (R231). -/
def isReturnData (f : Flit) : Bool := match f.body with | .rdata _ _ 31 => true | .adata _ _ 31 => true | _ => false

/-- An acknowledgement or an error for the tile itself, or for its event (R231, R237, R36). -/
def isAnswerFlit (f : Flit) : Bool :=
  !isBktAck f && match f.body with | .ack _ _ _ => true | .err _ _ _ _ c => c = 31 || c = eventAnswer | _ => false

theorem tDataArrive_rdata {x : Tile} {f : Flit} {tid seq : Nat} (hfetched : x.rtr.arrived.find? isReturnData = some f)
    (hbody : f.body = .rdata tid seq 31) : tDataArrive x = tReturn (withoutArrived x f) tid seq false f.data := by
  have htake := takeArrived_found hfetched
  unfold tDataArrive
  split
  next hnone => exact nomatch htake.symm.trans hnone
  next g u hsome =>
    obtain ⟨rfl, rfl⟩ := Prod.mk.inj (Option.some.inj (htake.symm.trans hsome))
    rw [hbody]

section Answers
variable {x : Tile} {f : Flit} {tid seq : Nat} {ex : Bool} (hfetched : x.rtr.arrived.find? isAnswerFlit = some f)
include hfetched

theorem tAckArrive_ack (hbody : f.body = .ack tid seq ex) : tAckArrive x = tAck (withoutArrived x f) tid seq := by
  have htake := takeArrived_found hfetched
  unfold tAckArrive
  split
  next hnone => exact nomatch htake.symm.trans hnone
  next g u hsome =>
    obtain ⟨rfl, rfl⟩ := Prod.mk.inj (Option.some.inj (htake.symm.trans hsome))
    rw [hbody]

theorem tAckArrive_err {c k : Nat} (hbody : f.body = .err tid seq c ex k) :
    tAckArrive x = if k = eventAnswer then eventRefused (withoutArrived x f) else tErr (withoutArrived x f) tid seq := by
  have htake := takeArrived_found hfetched
  unfold tAckArrive
  split
  next hnone => exact nomatch htake.symm.trans hnone
  next g u hsome =>
    obtain ⟨rfl, rfl⟩ := Prod.mk.inj (Option.some.inj (htake.symm.trans hsome))
    rw [hbody]

end Answers

/-- Where no SEND has arrived, freeing a slot only takes its transfer away. -/
theorem freeSlot_noSends {x : Tile} (hsends : x.inSends = []) (tid : Nat) :
    freeSlot x tid = { x with net := x.net.filter fun z => z.tid ≠ tid } := by
  simp only [freeSlot, settleAll, hsends, List.map_nil, List.foldl_nil]

/-- The oldest transfer of a tile that no SEND is arriving at completes once it is done and its regions can honour the advance (R183). -/
theorem tTransferComplete_oldest {x : Tile} {y : Transfer} {l : List Transfer} (hnet : x.net = y :: l) (hsends : x.inSends = [])
    (hdone : netDone y = true) (hadvances : netAdvances x y = true) :
    tTransferComplete x y.tid =
      let r := region x y.rg
      let u := if y.kind = .pull then setRegion x y.rg (r.push (netWords y)) else setRegion x y.rg (r.pop (netWords y))
      let v := if y.kind = .pull ∨ netDest y y.rrg = 0 then u else setRegion u y.rrg ((region u y.rrg).push (netDest y y.rrg))
      { v with net := x.net.filter fun z => z.tid ≠ y.tid } := by
  have hfind : (x.net.find? fun z => z.tid = y.tid) = some y := by
    rw [hnet]
    exact List.find?_cons_of_pos (decide_eq_true rfl)
  have hearlier : earlier x y = [] := by
    rw [earlier, hnet]
    exact List.takeWhile_cons_of_neg (by simp only [ne_eq, not_true_eq_false, decide_false, Bool.false_eq_true, not_false_eq_true])
  rw [tTransferComplete, hfind]
  simp only [hearlier, hsends, hdone, hadvances, List.all_nil, Bool.and_self, if_true, Bool.or_eq_true, decide_eq_true_eq,
    or_comm (a := netDest y y.rrg = 0)]
  by_cases hpull : y.kind = .pull
  · simp only [hpull, if_true, true_or]
    exact freeSlot_noSends (by exact hsends) _
  · by_cases hdest : netDest y y.rrg = 0
    · simp only [hpull, hdest, if_false, if_true, or_true]
      exact freeSlot_noSends (by exact hsends) _
    · simp only [hpull, hdest, if_false, or_self]
      exact freeSlot_noSends (by exact hsends) _

/-- A flit of a SEND into a region of the NET unit lands in its open transfer (R183, R237). -/
theorem tSendArrive_lands {x v : Tile} {f : Flit} {g seq src tid : Nat} {z : InSend} (e : Env) (free : Nat)
    (hfetched : x.rtr.arrived.find? (sendTurn x) = some f) (hbody : f.body = .send g seq src tid) (husable : usable x g 3 true = true)
    (hopen : openSend (withoutArrived x f) g src tid seq = some (v, z)) :
    tSendArrive e { t := x, free := free } = { t := landSend v z f seq src tid, free := free } := by
  have hserves : (!(region (withoutArrived x f) g).valid || decide ((region (withoutArrived x f) g).prod ≠ 3)) = false := by
    simp only [usable, if_true, Bool.and_eq_true, decide_eq_true_eq] at husable
    obtain ⟨hvalid, hprod⟩ := husable
    show (!(region x g).valid || decide ((region x g).prod ≠ 3)) = false
    rw [hvalid, hprod]
    rfl
  rw [tSendArrive, takeArrived_found hfetched]
  dsimp only
  rw [hbody]
  dsimp only
  rw [if_neg (Bool.eq_false_iff.mp hserves), hopen]

end Sys2Proof.Machine

namespace Sys2Proof
open Machine

/-- Settles O23: each arrival by the flit that it takes and what it does with it. -/
theorem netArrivals : Obligations.NetArrivals := by
  unfold Obligations.NetArrivals
  intro t s htile hpower x fetched without isData isAck
  have router {ok : Bool} {y z : Tile} (hok : ok = true) (hy : y = z) : s.routerDo t ok (s.setTile t y) = .next (s.setTile t z) := by
    rw [hy]
    exact State.routerDo_powered htile hok hpower
  refine ⟨?copies, ?data, ?answers, ?event, ?completes, ?send⟩
  case copies =>
    intro f tid seq k c q l hfetched hbody hentry hreqs
    exact router rfl (tCombinedCopy_rdata hfetched hbody hentry hreqs)
  case data =>
    intro f tid seq y hfetched hbody hfind hkind hnew
    exact router rfl ((tDataArrive_rdata hfetched hbody).trans (tReturn_pull (x := without f) hfind hkind hnew _))
  case answers =>
    intro f tid y hfetched hfind
    refine ⟨fun seq ex hbody hnew => ?_, fun seq c ex hbody => ?_⟩
    · exact router rfl ((tAckArrive_ack hfetched hbody).trans (tAck_new (x := without f) hfind hnew))
    · exact router rfl (((tAckArrive_err hfetched hbody).trans (if_neg (by decide))).trans (tErr_found (x := without f) hfind seq))
  case event =>
    intro f tid seq c ex hfetched hbody
    exact router rfl ((tAckArrive_err hfetched hbody).trans (if_pos rfl))
  case completes =>
    intro y l hnet hsends htid hdone hadvances
    exact router (decide_eq_true htid) (tTransferComplete_oldest hnet hsends hdone hadvances)
  case send =>
    intro f g seq src tid v z hfetched hbody husable hopen
    have hlands := tSendArrive_lands (s.tileEnv t) s.free hfetched hbody husable hopen
    refine (State.routerDo_powered htile rfl hpower).trans (congrArg _ ?_)
    rw [State.onTile, hlands]
    rfl

end Sys2Proof
end

section
/-!
The flits of a router, each one place on (R220, R223, R224, R230, R231, R240): a unit of a transfer becomes flits, a flit enters its router,
and the flit that wins the slot of an output leaves it.
-/

namespace Sys2Proof.Machine

/-- A command on a tile that draws no free value leaves the tile that it makes, with the records that it raises. -/
theorem State.onTile_of {s : State} {t : Nat} {f : Env → TS → TS} {y : Tile} {l : List Rec}
    (hf : f (s.tileEnv t) { t := s.tile t, free := s.free } = { t := y, free := s.free, recs := l }) :
    s.onTile t f = (s.setTile t y).raiseAll l := by
  rw [State.onTile, hf]

/-- The words that a unit takes of its region: a pull takes none (R231). -/
def unitWords (y : Transfer) (u : Nat × Nat) : Nat := if y.kind = .pull then 0 else 8 * u.2

/-- The tile once its router holds the flits of a unit (R231). -/
def unitHanded (e : Env) (x : Tile) (y : Transfer) (u : Nat × Nat) (edge : Nat) : Tile :=
  { setTransfer x { y with issued := u.1 + u.2 } with
    rtr := { x.rtr with
      inject := x.rtr.inject ++ unitFlits e y u edge (regionWords x (region x y.rg) (y.off + 8 * u.1) (unitWords y u)) } }

/-- The offsets that a unit reads are those of its words. -/
theorem unitSpan_eq (r : Region) (y : Transfer) (u : Nat × Nat) (o : Nat) :
    (if y.kind = .pull then [] else rgSpan r o (8 * u.2)) = rgSpan r o (unitWords y u) := by
  unfold unitWords
  split
  · rfl
  · rfl

/-- A ready unit, once every transfer before its own has handed over its units, goes to the router (R149, R231). -/
theorem tUnitIssue_ready {x : Tile} {y : Transfer} {tid : Nat} {u : Nat × Nat} (hfind : (x.net.find? fun z => z.tid = tid) = some y)
    (hnext : nextUnit y = some u) (hfailed : y.failed = false) (hturn : netTurn x y = true)
    (hready : unitReady x y u = true) (hinj : injKind x ≠ 1)
    (hgood : ∀ i ∈ rgSpan (region x y.rg) (y.off + 8 * u.1) (unitWords y u), goodWord x 6 (some y.rg) i = true) (e : Env) (free edge : Nat) :
    tUnitIssue e { t := x, free := free } tid edge = .ok { t := unitHanded e x y u edge, free := free } := by
  have hgo : ¬ (y.failed || !netTurn x y || !unitReady x y u) = true := by rw [hfailed, hturn, hready]; decide
  rw [tUnitIssue, hfind]
  dsimp only
  rw [hnext]
  dsimp only
  rw [if_neg hgo, unitSpan_eq, readWords_good hinj hgood]
  rfl

/-- The edge tile of a unit: a SEND needs none, every other transfer takes that of its site (R230). -/
theorem State.unitIssue_edge {s : State} {t tid edge : Nat} {y : Transfer} (hfind : ((s.tile t).net.find? fun z => z.tid = tid) = some y)
    (hedge : (y.kind = .send ∧ edge = 0) ∨ (y.kind ≠ .send ∧ y.addr / 2 ^ 42 < 48 ∧ s.edgeFor t (y.addr / 2 ^ 42) = some edge)) :
    s.unitIssue t tid = s.onTile t fun e ts => (tUnitIssue e ts tid edge).out ts := by
  rw [State.unitIssue, hfind]
  rcases hedge with ⟨hsend, rfl⟩ | ⟨hsend, hsite, hedge⟩
  · exact if_pos hsend
  · have hexists : ¬ nSites ≤ y.addr / 2 ^ 42 := Nat.not_le.mpr hsite
    dsimp only
    rw [if_neg hsend, if_neg hexists, hedge]

/-- The tile once a flit of its local list has entered the router (R218, R224). -/
def State.injected (s : State) (t i : Nat) (f : Flit) : Tile :=
  let w := s.withEvent t
  let st := s.stampOf t f
  acceptFlit t s.mod.b0 { w with rtr := { w.rtr with
      inject := w.rtr.inject.eraseIdx i, packet := Map.set (fun _ => (0, 0)) w.rtr.packet f.vc st } } 0
    (stampFlit f st.1 st.2 (s.now.toNat % 2 ^ 32))

/-- The next flit whose buffer has room enters, unless it is a SEND out of the partition (R224, R225). -/
theorem State.inject_enters {s : State} {t i : Nat} {f : Flit} (hhold : (s.part (s.tilePart t)).hold = false)
    (hnext : nextInject (s.withEvent t) (s.withEvent t).rtr.inject [] = some (i, f))
    (hinside : ∀ d q r tid, f.body = .send d q r tid → s.sendOutside t f.dest = false) :
    s.inject t = s.setTile t (s.injected t i f) := by
  rw [State.inject, hhold]
  simp only [Bool.false_eq_true, if_false, hnext]
  split
  next d q r tid hbody => exact if_neg (Bool.eq_false_iff.mp (hinside d q r tid hbody))
  next => rfl

/-- Where every head routes to a port, the winner of an output takes its slot (R220, R223). -/
theorem State.hop_won {s : State} {t port : Nat} {w : Slot} (hroutes : ∀ e ∈ bufHeads (s.tile t), ∃ q, s.nextPort t e.2 = .port q)
    (hwon : pickSlot (s.tile t) port (s.ready t port) (s.redWants t port) = some w) (crcFail : Bool) :
    s.hop t port crcFail = s.takeSlot t port (s.ready t port) (s.redWants t port) crcFail w := by
  rw [State.hop]
  dsimp only
  split
  next key c f hbad =>
    obtain ⟨e, he, hanswered⟩ := List.exists_of_findSome?_eq_some hbad
    obtain ⟨q, hq⟩ := hroutes e he
    rw [hq] at hanswered
    exact nomatch hanswered
  next => rw [hwon]

theorem injFlit_unarmed {x : Tile} (h : injKind x ≠ 5) (port : Nat) : injFlit x port = false := by
  simp only [injFlit, h, decide_false, Bool.false_and]

/-- The router of a tile once its flit has won the slot of an output (R220). -/
def flitSent (t : Nat) (x : Tile) (port : Nat) (l : List (Nat × Flit)) (ds : List Nat) (key : Nat) (f : Flit) : Tile :=
  closeCmb t (afterSlot (popBuf x key) port l ds (.flit key f)) f

section Slot
variable {s : State} {t : Nat} (l : List (Nat × Flit)) (ds : List Nat) (key : Nat) (f : Flit)

/-- A flit that wins the local output has arrived. -/
theorem State.takeSlot_local : s.takeSlot t 0 l ds false (.flit key f) =
    (let sent := flitSent t (s.tile t) 0 l ds key f
    (s.setTile t { sent with rtr := { sent.rtr with arrived := sent.rtr.arrived ++ [f] } }).refillBufs t) := rfl

variable {port : Nat} (hport : port ≠ 0) (hinj : injKind (s.tile t) ≠ 5)
include hport hinj

/-- Where no injection is armed at a link, a flit that wins an outward output without a neighbour waits for the site die (R241, R447). -/
theorem State.takeSlot_edge (hnone : neighbour t port = none) : s.takeSlot t port l ds false (.flit key f) =
    (let past := crcPassed (flitSent t (s.tile t) port l ds key f) port key
    (s.setTile t (setEdgeFlits past port (edgeFlits past port ++ [f]))).refillBufs t) := by
  simp only [State.takeSlot, hport, injFlit_unarmed hinj, hnone, Bool.false_and, Bool.or_self, Bool.false_eq_true, if_false]
  rfl

/-- Toward a neighbour it passes the link between the two (R240, R241). -/
theorem State.takeSlot_neighbour {n : Nat} (hn : neighbour t port = some n) : s.takeSlot t port l ds false (.flit key f) =
    (let s1 := s.setTile t (crcPassed (flitSent t (s.tile t) port l ds key f) port key)
    (s1.setTile n (linkIn s.mod.b0 t n (facing port) (s1.tile n) f)).refillBufs t) := by
  simp only [State.takeSlot, hport, injFlit_unarmed hinj, hn, Bool.false_and, Bool.or_self, Bool.false_eq_true, if_false]
  rfl

end Slot

end Sys2Proof.Machine

namespace Sys2Proof
open Machine

/-- Settles O22: the unit by its edge tile and its words, the injection by its stamp, the hop by what its output leads to. -/
theorem netFlits : Obligations.NetFlits := by
  unfold Obligations.NetFlits
  intro t s htile hpower x
  have router {ok : Bool} {u v : State} (hok : ok = true) (hu : u = v) : s.routerDo t ok u = .next v := by
    rw [hu]
    exact State.routerDo_powered htile hok hpower
  refine ⟨?issue, ?inject, ?hop⟩
  case issue =>
    intro tid edge y u htid hfind hnext hfailed hturn hready hinj hedge n hgood
    refine router (decide_eq_true htid) ((State.unitIssue_edge hfind hedge).trans (State.onTile_of (l := []) ?_))
    rw [tUnitIssue_ready hfind hnext hfailed hturn hready hinj hgood]
    rfl
  case inject =>
    intro i f hhold w st hnext hinside
    exact router rfl (State.inject_enters hhold hnext hinside)
  case hop =>
    intro port key f hport hroutes hinj l ds hwon sent past
    have hslot := State.hop_won hroutes hwon false
    refine ⟨fun hlocal => ?_, fun hport' hnone => ?_, fun n hport' hn => ?_⟩
    · subst hlocal
      exact router rfl (hslot.trans (State.takeSlot_local l ds key f))
    · exact router (decide_eq_true hport) (hslot.trans (State.takeSlot_edge l ds key f hport' hinj hnone))
    · exact router (decide_eq_true hport) (hslot.trans (State.takeSlot_neighbour l ds key f hport' hinj hn))

end Sys2Proof
end

section
/-!
The reduction in one router (R239, R275, R277, R279, R283): a flit of a staged block enters it, its heads leave it as their sum, and an
acknowledgement goes up toward every input.
-/

namespace Sys2Proof.Machine

theorem State.live_power {s : State} {f : Nat} (hlive : s.live f = true) : (s.field f).power = 2 := by
  simp only [State.live, Bool.and_eq_true, decide_eq_true_eq] at hlive
  exact hlive.1

/-- The next flit of a staged block (R219, R275). -/
def stagedHead (e : Env) (x : Tile) (r : StageRec) (k off : Nat) : RedFlit :=
  let ws := regionWords x (region x r.rg) (r.off + 8 * off) 8
  { bucket := r.bucket, block := r.block, off := off, wide := r.wide, mir := k = 1, mask := flitMask r.wide r.mask off,
    nf := (redVals r.wide ws).any nonFinite, data := ws, ep := e.bank }

/-- The tile once a flit of a staged block stands at the local input of its descriptor (R275). -/
def stagedSent (e : Env) (x : Tile) (d i : Nat) (r : StageRec) (k off : Nat) : Tile :=
  let y := setRedBuf x d 0 [stagedHead e x r k off]
  { y with rtr := { y.rtr with stage := setNth x.rtr.stage i (bumpStream r k) } }

/-- The next flit of a descriptor leaves its region while the local input is empty and the region is not too far ahead (R275, R277). -/
theorem tRedSend_staged {x : Tile} {d i k off : Nat} {r : StageRec} (hempty : redBuf x d 0 = [])
    (hfirst : firstStream x d x.rtr.stage = some (i, r, k, off)) (hahead : aheadOk x r = true) (hinj : injKind x ≠ 1)
    (hgood : ∀ j ∈ rgSpan (region x r.rg) (r.off + 8 * off) 8, goodWord x 6 (some r.rg) j = true) (e : Env) (free : Nat) :
    tRedSend e { t := x, free := free } d = .ok { t := stagedSent e x d i r k off, free := free } := by
  rw [tRedSend]
  simp only [hempty, List.isEmpty_nil, hfirst, hahead, Bool.not_true, Bool.false_eq_true, if_false, stagedFlit, readWords_good hinj hgood]
  rfl

/-- The descriptor whose turn it is on VC1 is one of those that want the output (R283). -/
theorem pickRed_mem {x : Tile} {port d : Nat} {ds : List Nat} (h : pickRed x port ds = some d) : d ∈ ds := by
  simp only [pickRed, Option.orElse_eq_or, Option.or_eq_some_iff] at h
  rcases h with hfind | ⟨-, hhead⟩
  · exact List.mem_of_find?_eq_some hfind
  · exact List.mem_of_head? hhead

/-- A descriptor that wins the slot of an output wants it and has a credit (R220, R283). -/
theorem mem_of_pickSlot_red {x : Tile} {port d : Nat} {l : List (Nat × Flit)} {ds : List Nat} (h : pickSlot x port l ds = some (.red d)) :
    d ∈ ds := by
  obtain ⟨vc, -, hvc⟩ := List.exists_of_findSome?_eq_some h
  unfold pickOf at hvc
  split at hvc
  · obtain ⟨k, hk, hslot⟩ := Option.map_eq_some_iff.mp hvc
    rw [← Slot.red.inj hslot]
    exact pickRed_mem hk
  · obtain ⟨e, -, hslot⟩ := Option.map_eq_some_iff.mp hvc
    exact nomatch hslot

/-- What wants an output has a credit of it (R283). -/
theorem State.credit_of_redWants {s : State} {t port d : Nat} (h : d ∈ s.redWants t port) :
    Map.get (fun _ => 0) (s.tile t).rtr.redUsed d < vc1Slots (bits (rdesc (s.tile t) d) 7 6) := by
  simp only [State.redWants, State.redReady, List.mem_filter, Bool.and_eq_true, decide_eq_true_eq] at h
  obtain ⟨-, -, ⟨-, hcredit⟩, -⟩ := h
  exact hcredit

/-- The tile without the heads of a descriptor, into whose slots enters what waits in the crossing buffers of seams, and with one credit of its
output taken (R239, R240, R283). -/
def headsTaken (x : Tile) (d : Nat) : Tile :=
  let y := (rdInputs (rdesc x d)).foldl (fun y p => redCrossIn p (crossSize + 1) (setRedBuf y d p ((redBuf y d p).drop 1))) x
  { y with rtr := { y.rtr with redUsed := Map.set (fun _ => 0) y.rtr.redUsed d (Map.get (fun _ => 0) y.rtr.redUsed d + 1) } }

/-- Where the adder's injection is not armed, the sum of the heads is what goes out, and each feeder gets a credit back (R239, R283, R447). -/
theorem State.redForward_sum {s : State} {t d : Nat} {w : Tile} {l : List RedFlit} {f : RedFlit} (hw : s.tile t = w)
    (hheads : redHeads w d = some l) (hsum : addFlits l = some f) (hinj : injKind w ≠ 6) :
    s.redForward t d = ((rdInputs (rdesc w d)).foldl (fun u p => if p = 0 then u else u.creditAt t p d)
      (s.setTile t (headsTaken w d))).redDeliver t (rdOut (rdesc w d)) d f := by
  have hplain : injAdder w d f (decide (2 ≤ l.length)) = (w, f) := by
    simp only [injAdder, hinj, decide_false, Bool.and_false, Bool.false_and, Bool.false_eq_true, if_false]
  rw [State.redForward, hw]
  simp only [hheads, hsum, hplain]
  rfl

/-- The marks of a slot's output change neither the heads of a descriptor nor its entry. -/
theorem redHeads_slotMarks (x : Tile) (port k d : Nat) (l : List (Nat × Flit)) (ds : List Nat) (w : Slot) :
    redHeads (crcPassed (afterSlot x port l ds w) port k) d = redHeads x d := rfl

/-- A descriptor that has the slot of its output forwards its sum (R220, R239, R241). -/
theorem State.redCombine_won {s : State} {t d : Nat} (hgoing : d ∉ (s.tile t).rtr.redStopped) (hstops : s.redStops t d = false)
    (hwon : pickSlot (s.tile t) (rdOut (rdesc (s.tile t) d)) (s.ready t (rdOut (rdesc (s.tile t) d)))
      (s.redWants t (rdOut (rdesc (s.tile t) d))) = some (.red d))
    (hinj : injFlit (s.tile t) (rdOut (rdesc (s.tile t) d)) = false) :
    s.redCombine t d =
      let x := s.tile t
      let port := rdOut (rdesc x d)
      (s.setTile t (crcPassed (afterSlot x port (s.ready t port) (s.redWants t port) (.red d)) port (1024 + d))).redForward t d := by
  rw [State.redCombine]
  simp only [List.contains_iff_mem, hgoing, hstops, hwon, State.takeSlot, hinj, Bool.false_or, Bool.false_eq_true, if_false, if_true]

/-- A descriptor stops where the keys of its heads differ (R239, R285). -/
theorem State.redStops_of_keys {s : State} {t d : Nat} {a : RedFlit} {l : List RedFlit} (hheads : redHeads (s.tile t) d = some (a :: l))
    (hkeys : ∃ b ∈ l, sameKey a b = false) : s.redStops t d = true := by
  have hdiffer : l.all (sameKey a) = false := List.all_eq_false.mpr (by simpa only [Bool.not_eq_true] using hkeys)
  simp only [State.redStops, hheads, hdiffer, Bool.not_false, Bool.or_true]

/-- A descriptor whose heads have different keys is stopped with those heads (R239, R285). -/
theorem State.redCombine_stops {s : State} {t d : Nat} {a : RedFlit} {l : List RedFlit} (hgoing : d ∉ (s.tile t).rtr.redStopped)
    (hheads : redHeads (s.tile t) d = some (a :: l)) (hkeys : ∃ b ∈ l, sameKey a b = false) :
    s.redCombine t d = s.onTile t fun e ts => stopDesc e ts d (a :: l) := by
  rw [State.redCombine]
  simp only [List.contains_iff_mem, hgoing, State.redStops_of_keys hheads hkeys, hheads, Option.getD_some, if_false, if_true]

/-- A descriptor that had not stopped stops with one hard-fault record, and the keys of its heads are recorded (R239, R285). -/
theorem stopDesc_going {x : Tile} {d : Nat} (hgoing : d ∉ x.rtr.redStopped) (e : Env) (free : Nat) (heads : List RedFlit) :
    ∃ (y : Tile) (r : Rec), stopDesc e { t := x, free := free } d heads = { t := y, free := free, recs := [r] } ∧
      y.rtr = { x.rtr with
        redStopped := x.rtr.redStopped ++ [d]
        redKeys := if heads.isEmpty then x.rtr.redKeys else x.rtr.redKeys ++ [(d, heads.map redKeyBits)] } ∧
      r.source = 0x25 ∧ r.cls = 1 ∧ r.loc = e.id ∧ r.code = d := by
  simp only [stopDesc, List.contains_iff_mem, hgoing, if_false]
  refine ⟨_, _, rfl, ?_, rfl, rfl, rfl, rfl⟩
  split
  · rfl
  · rfl

/-- The acknowledgement that a router takes next (R279, R285): its descriptor is not stopped, and a leaf's regions can honour the advance. -/
def ackTurn (x : Tile) (f : Flit) : Bool :=
  isBktAck f && !x.rtr.redStopped.contains (bktAckOf f).rdesc &&
    (!(rdInputs (rdesc x (bktAckOf f).rdesc)).contains 0 || ackReady x (bktAckOf f))

theorem going_of_ackTurn {x : Tile} {f : Flit} (h : ackTurn x f = true) : (bktAckOf f).rdesc ∉ x.rtr.redStopped := by
  simp only [ackTurn, Bool.and_eq_true, Bool.not_eq_true', List.contains_eq_mem, decide_eq_false_iff_not] at h
  exact h.1.2

/-- The tile once its router has passed on an acknowledgement: a leaf has applied it, and a copy goes toward each input but the local one
(R278, R279). -/
def ackPassed (t : Tile) (id : Nat) (f : Flit) : Tile :=
  let a := bktAckOf f
  let ins := rdInputs (rdesc t a.rdesc)
  addInject (if 0 ∈ ins then applyAck (withoutArrived t f) a else withoutArrived t f)
    (ins.filterMap fun p => if p = 0 then none else (neighbour id p).map (bktAckFlit a))

/-- An acknowledgement of a loaded entry goes on; one of an entry that is not loaded stops its descriptor (R279, R285). -/
theorem State.ackReceive_found {s : State} {t : Nat} {f : Flit} (hfound : (s.tile t).rtr.arrived.find? (ackTurn (s.tile t)) = some f) :
    s.ackReceive t =
      if bit (rdesc (s.tile t) (bktAckOf f).rdesc) 31 = true then s.setTile t (ackPassed (s.tile t) t f)
      else s.onTile t fun e ts => stopDesc e ts (bktAckOf f).rdesc := by
  unfold State.ackReceive
  dsimp only
  split
  next hnone => exact nomatch hfound.symm.trans hnone
  next g hsome =>
    obtain rfl : g = f := Option.some.inj (hsome.symm.trans hfound)
    cases hloaded : bit (rdesc (s.tile t) (bktAckOf g).rdesc) 31 with
    | false => rfl
    | true =>
      simp only [Bool.not_true, Bool.false_eq_true, if_false, if_true, List.contains_iff_mem]
      rfl

end Sys2Proof.Machine

namespace Sys2Proof
open Machine

/-- Settles O24: the flit sent by the words that it reads, the sum by the slot that its descriptor has won, a stop by its one record, an
acknowledgement by what its entry says. -/
theorem reductionAtTiles : Obligations.ReductionAtTiles := by
  unfold Obligations.ReductionAtTiles
  intro t s htile hlive x
  have router {d : Nat} {u v : State} (hd : d < 256) (hu : u = v) : s.routerDo t (decide (d < 256)) u = .next v := by
    rw [hu]
    exact State.routerDo_powered htile (decide_eq_true hd) (.inl (State.live_power hlive))
  refine ⟨?send, ?sum, ?keys, ?ack⟩
  case send =>
    intro d i k off r hd hempty hfirst hahead hinj hgood ws
    refine s.checked_of (Bool.and_eq_true_iff.mpr ⟨htile, decide_eq_true hd⟩) ((if_pos hlive).trans (State.onTile_of (l := []) ?_))
    rw [tRedSend_staged hempty hfirst hahead hinj hgood]
    rfl
  case sum =>
    intro d a f l hd hcanonical hgoing hstops hheads hinj hsum port heads ds hwon hlink
    refine ⟨State.credit_of_redWants (mem_of_pickSlot_red hwon), router hd ((State.redCombine_won hgoing hstops hwon hlink).trans ?_)⟩
    exact State.redForward_sum (State.setTile_tile_self (State.canon hcanonical).tiles)
      ((redHeads_slotMarks x port _ d heads ds _).trans hheads) hsum hinj
  case keys =>
    intro a l d hd hheads hkeys hgoing
    obtain ⟨y, r, hstop, hrtr, hsource, hcls, hloc, hcode⟩ := stopDesc_going hgoing (s.tileEnv t) s.free (a :: l)
    refine ⟨y, r, router hd ((State.redCombine_stops hgoing hheads hkeys).trans (State.onTile_of (l := [r]) hstop)), ?_, ?_, ?_, hsource,
      hcls, hloc, hcode⟩
    · rw [hrtr]
    · rw [hrtr]; rfl
    · rw [hrtr]
  case ack =>
    intro f hfound a ins y copies
    have received {u : State} (hu : s.ackReceive t = u) : exec (.bucketAckReceive t) s = .next u :=
      s.checked_of htile ((if_pos hlive).trans hu)
    have passed (hloaded : bit (rdesc x a.rdesc) 31 = true) : exec (.bucketAckReceive t) s = .next (s.setTile t (ackPassed x t f)) :=
      received ((State.ackReceive_found hfound).trans (if_pos hloaded))
    refine ⟨fun hloaded hleaf => ?_, fun hloaded hleaf => ?_, fun hloaded => ?_⟩
    · rw [passed hloaded, ackPassed, if_neg hleaf]
      rfl
    · rw [passed hloaded, ackPassed, if_pos hleaf]
      rfl
    · obtain ⟨z, r, hstop, hrtr, hsource, hcls, -, hcode⟩ :=
        stopDesc_going (going_of_ackTurn (List.find?_some hfound)) (s.tileEnv t) s.free []
      have hstops := ((State.ackReceive_found hfound).trans (if_neg (Bool.eq_false_iff.mp hloaded))).trans (State.onTile_of (l := [r]) hstop)
      refine ⟨z, r, received hstops, ?_, ?_, hsource, hcls, hcode⟩
      · rw [hrtr]
      · rw [hrtr]

end Sys2Proof
end

section
/-!
The requests at a site (R231, R234, R247, R256, R259, R264, R265): a packet joins the queue or waits parked, the oldest request is served, and
the copy engine moves a unit.
-/

namespace Sys2Proof.Machine

section Arrive
variable {s : State} {t port n : Nat} {r : SiteReq} {rest : List Flit}

/-- The first packet at the edge links of a tile is the one that its site takes (R256, R265). -/
theorem State.requestArrive_first {y : Site} (hport : port ∈ [1, 2, 3, 4])
    (hpacket : edgePacket t 2 (edgeFlits (s.tile t) port) = some (n, r, rest))
    (hbefore : ∀ q < port, edgePacket t 2 (edgeFlits (s.tile t) q) = none ∧ edgePacket t 5 (edgeFlits (s.tile t) q) = none)
    (htaken : siteArrive (s.siteEnv n) { s := s.site n, free := s.free } r = some { s := y, free := s.free }) :
    s.requestArrive t = (s.setTile t (setEdgeFlits (s.tile t) port rest)).setSite n y := by
  rw [State.requestArrive]
  simp only [List.flatMap_cons, List.flatMap_nil, List.cons_append, List.nil_append, List.append_nil, List.findSome?_cons]
  simp only [List.mem_cons, List.not_mem_nil, or_false] at hport
  rcases hport with rfl | rfl | rfl | rfl
  · simp only [hpacket, htaken]
    rfl
  · simp only [hbefore 1 (by decide), hpacket, htaken]
    rfl
  · simp only [hbefore 1 (by decide), hbefore 2 (by decide), hpacket, htaken]
    rfl
  · simp only [hbefore 1 (by decide), hbefore 2 (by decide), hbefore 3 (by decide), hpacket, htaken]
    rfl

variable {e : SEnv} {x : Site} (hcode : arriveCode e x r = none) (free : Nat)
include hcode

/-- The site with the request numbered and its queues as `m` holds them (R244, R256). -/
def requestTaken (e : SEnv) (x : Site) (r : SiteReq) (m : SiteMem) : Site :=
  touchMem e (decide (hbmEnd ≤ r.off)) { x with m := { m with arrivals := x.m.arrivals + 1 } }

/-- A request that the site serves joins its queue while there is room (R256, R265). -/
theorem siteArrive_queued (hpark : mustPark x r = false) (hroom : x.m.queue.length < 2048) :
    siteArrive e { s := x, free := free } r =
      some { s := requestTaken e x r { x.m with queue := x.m.queue ++ [{ r with arr := x.m.arrivals }] }, free := free } := by
  rw [siteArrive, hcode]
  simp only [hpark, Bool.false_eq_true, if_false, Nat.not_le.mpr hroom]
  rfl

/-- A request that must wait for its window unit is parked while there is room (R234, R264). -/
theorem siteArrive_parked (hpark : mustPark x r = true) (hroom : x.m.parked.length < 4096) :
    siteArrive e { s := x, free := free } r =
      some { s := requestTaken e x r { x.m with parked := x.m.parked ++ [{ r with arr := x.m.arrivals }] }, free := free } := by
  rw [siteArrive, hcode]
  simp only [hpark, if_true, Nat.not_le.mpr hroom, if_false]
  rfl

end Arrive

/-! Reads of a unit that holds no error, and in which none is found. -/

/-- A unit that a read finds without an error: no injection strikes its line, and neither the line nor a burst holds one (R250, R258). -/
structure UnitClean (x : Site) (u : Nat) : Prop where
  quiet : siteInjHit x 3 u = false
  line : Map.get (fun _ => 0) x.m.cacheBad u = 0
  bursts : ∀ b < 4, Map.get (fun _ => []) x.m.bad (4 * u + b) = []

section Clean
variable {x : Site} {u : Nat} (h : UnitClean x u)
include h

theorem readLine_clean : readLine u x = (x, false) := by
  simp only [readLine, h.quiet, Bool.false_eq_true, if_false, h.line]

theorem checkBursts_clean (hbm : Bool) : ∀ n ≤ 4, checkBursts hbm u [] n x = (x, false)
  | 0, _ => rfl
  | n + 1, hn => by
    simp only [checkBursts, checkBursts_clean hbm n (Nat.le_of_succ_le hn), h.bursts n hn, List.filter_nil, List.map_nil,
      List.append_nil]

theorem burstErr_clean : burstErr x u [] = false := by
  have hnone : ∀ b ∈ List.range 4, ¬ decide (Map.get (fun _ => []) x.m.bad (4 * u + b) ≠ []) = true := fun b hb => by
    simp only [h.bursts b (List.mem_range.mp hb), ne_eq, not_true_eq_false, decide_false, Bool.false_eq_true, not_false_eq_true]
  simp only [burstErr, List.any_nil, Bool.false_or]
  exact List.any_eq_false.mpr hnone

end Clean

/-- A clean unit, or one whose line the ATOM part holds, is read without an error (R258, R260). -/
theorem readUnit_clean {x : SS} {u : Nat} (h : UnitClean x.s u ∨ u ∈ x.s.m.atom) (e : SEnv) (cls : Nat) : readUnit e x cls u [] = (x, none) := by
  by_cases hatom : u ∈ x.s.m.atom
  · simp only [readUnit, List.contains_iff_mem, hatom, if_true]
  · have hclean := h.resolve_right hatom
    have hdie (hbm : Bool) : onDieReports hbm [] x.s = x.s := by simp [onDieReports]
    simp only [readUnit, List.contains_iff_mem, hatom, if_false, hdie, readLine_clean hclean, hclean.line, Nat.zero_ne_one,
      checkBursts_clean hclean _ 4 (Nat.le_refl 4), burstErr_clean hclean, Bool.false_eq_true]

/-! What a request that is served sends back, and what it does to the site. -/

/-- Flits sent through one edge link, in order. -/
theorem foldl_send (edge : Nat) (l : List Flit) : ∀ x : SS,
    l.foldl (fun z f => z.send edge f) x = { x with ret := x.ret ++ l.map fun f => (edge, f) } := by
  induction l with
  | nil => exact fun x => by rw [List.foldl_nil, List.map_nil, List.append_nil]
  | cons f l ih =>
    intro x
    rw [List.foldl_cons, ih]
    simp only [SS.send, List.append_assoc, List.map_cons, List.singleton_append]

/-- A command on a site that draws no free value and raises no record: the site that it makes, and the flits that it returns. -/
theorem State.siteDo_returns {s : State} {n edge : Nat} {f : SEnv → SS → SS} {y : Site} {l : List Flit} (hn : n < 48)
    (hf : f (s.siteEnv n) { s := s.site n, free := s.free } = { s := y, free := s.free, ret := l.map fun g => (edge, g) }) :
    s.siteDo n f = .next (l.foldl (fun v g => v.fromSite n edge g) (s.setSite n y)) := by
  refine s.checked_of (decide_eq_true hn) ?_
  rw [State.onSite, hf]
  simp only [List.foldl_map]
  rfl

section Serve
variable {e : SEnv} {x : Site} {r : SiteReq}

/-- The site as its next request is served: it has left the queue, and its memory has left self-refresh (R244, R256). -/
def servedSite (e : SEnv) (x : Site) (r : SiteReq) : Site := touchMem e (decide (hbmEnd ≤ r.off)) (dropReq x r)

/-- The armed windows stand as a request leaves the queue. -/
theorem windowOf_servedSite (u : Nat) : windowOf (servedSite e x r) u = windowOf x u := by
  unfold servedSite touchMem
  split
  · rfl
  · rfl

/-- The next request, in its turn and with nothing to wait for, is served as its kind (R256). -/
theorem siteServe_turn (hnext : nextReq x = some r) (hpark : mustPark x r = false) (hthere : r.off < hbmEnd ∨ e.strav = true)
    {turn : Site → SiteReq → Bool} (hturn : turn x r = true) (free : Nat) (flips : List Nat) :
    siteServe e { s := x, free := free } turn flips =
      if r.op = 1 then serveRead e { s := servedSite e x r, free := free } r flips
      else if r.op = 2 then serveWrite e { s := servedSite e x r, free := free } r flips
      else serveAtom e { s := servedSite e x r, free := free } r flips := by
  have hmemory : (decide (hbmEnd ≤ r.off) && !e.strav) = false := by
    rcases hthere with h | h
    · simp only [Nat.not_le.mpr h, decide_false, Bool.false_and]
    · simp only [h, Bool.not_true, Bool.and_false]
  rw [siteServe]
  simp only [hnext, hturn, hpark, hmemory, Bool.not_true, Bool.false_eq_true, if_false]
  rfl

/-! Whose turn a request is: a window unit's is PWIN_READ's or PWIN_FILL's, every other is SITE_REQUEST_SERVE's (R234, R264). -/

theorem serveTurn_of_noWindow (h : windowOf x (r.off / 256) = none) : (!isWinRead x r && !isWinFill x r) = true := by
  simp only [isWinRead, isWinFill, h, Option.isSome_none, Bool.and_false, Bool.not_false, Bool.and_self]

theorem isWinRead_of_window {w : Nat} (h : windowOf x (r.off / 256) = some w) (hop : r.op = 1) : isWinRead x r = true := by
  simp only [isWinRead, h, hop, Option.isSome_some, decide_true, Bool.and_self]

theorem isWinFill_of_window {w : Nat} (h : windowOf x (r.off / 256) = some w) (hop : r.op = 2) (hwhole : r.nfl = 8) :
    isWinFill x r = true := by
  simp only [isWinFill, h, hop, hwhole, Option.isSome_some, decide_true, Bool.and_self]

variable (free : Nat)

section Read
variable (hclean : UnitClean x (r.off / 256))
include hclean

/-- A clean read outside every window returns its words (R231). -/
theorem serveRead_plain (hwindow : windowOf x (r.off / 256) = none) : serveRead e { s := x, free := free } r [] =
    { s := x, free := free, ret := (dataFlits e.id r (x.words r.off (8 * r.nfl)) 8 r.nfl).map fun f => (r.edge, f) } := by
  rw [serveRead]
  simp only [readUnit_clean (x := { s := x, free := free }) (.inl hclean), foldl_send, hwindow, List.nil_append]

/-- A clean read of a window unit also lowers its count by RCNT (R234). -/
theorem serveRead_window {w : Nat} (hwindow : windowOf x (r.off / 256) = some w) (hreaders : r.rcnt ≤ readers x (r.off / 256)) :
    serveRead e { s := x, free := free } r [] =
      { s := setReaders x (r.off / 256) (readers x (r.off / 256) - r.rcnt), free := free,
        ret := (dataFlits e.id r (x.words r.off (8 * r.nfl)) 8 r.nfl).map fun f => (r.edge, f) } := by
  rw [serveRead]
  simp only [readUnit_clean (x := { s := x, free := free }) (.inl hclean), foldl_send, hwindow, Nat.not_lt.mpr hreaders, if_false,
    SS.upd, List.nil_append]

end Read

section Write
variable (hwhole : r.nfl = 8) (hraw : r.raw = [])
include hwhole hraw

/-- A whole unit outside every window is written, and acknowledged (R231, R247). -/
theorem serveWrite_unit (hwindow : windowOf x (r.off / 256) = none) (flips : List Nat) : serveWrite e { s := x, free := free } r flips =
    { s := storeUnit x r.off (wordsBytes r.data), free := free, ret := [ackFlit e.id r].map fun f => (r.edge, f) } := by
  rw [serveWrite]
  simp only [hwindow, hwhole, hraw, List.isEmpty_nil, if_true]
  rfl

/-- A whole unit of a window is filled: its count becomes RDEF (R264). -/
theorem serveWrite_fill {w : Nat} (hwindow : windowOf x (r.off / 256) = some w) (flips : List Nat) :
    serveWrite e { s := x, free := free } r flips =
      { s := setReaders (storeUnit x r.off (wordsBytes r.data)) (r.off / 256) (winDef x w), free := free,
        ret := [ackFlit e.id r].map fun f => (r.edge, f) } := by
  rw [serveWrite]
  simp only [hwindow, hwhole, hraw, List.isEmpty_nil, ne_eq, not_true_eq_false, if_false, if_true]
  rfl

end Write

/-- An atomic outside every window returns the old words and writes the new ones (R259, R260). -/
theorem serveAtom_line (hop : r.aop < 5) (hwindow : windowOf x (r.off / 256) = none)
    (hclean : UnitClean x (r.off / 256) ∨ r.off / 256 ∈ x.m.atom) : serveAtom e { s := x, free := free } r [] =
      let per := if r.aop = 4 then 4 else 8
      let old := x.words r.off (per * r.nfl)
      { s := (touchAtom x (r.off / 256)).putWords r.off (atomWords (r.atype = 1) r.aop old r.data), free := free,
        ret := (dataFlits e.id r old per r.nfl ++ [ackFlit e.id r]).map fun f => (r.edge, f) } := by
  rw [serveAtom]
  simp only [Nat.not_le.mpr hop, decide_false, hwindow, Option.isSome_none, Bool.or_self, Bool.false_eq_true, if_false,
    readUnit_clean (x := { s := x, free := free }) hclean, foldl_send, List.map_append]
  rfl

end Serve

/-- A unit of the stack, or of a share that is there (R243, R246). -/
def unitThere (e : SEnv) (u : Nat) : Bool := decide (256 * u < hbmEnd) || (inShare e (256 * u) && e.strav)

/-- The site with unit `a` written at unit `b`; a window unit so filled takes its reader count (R243, R264). -/
def unitCopied (x : Site) (a b : Nat) : Site :=
  let y := storeUnit x (256 * b) (x.bytes (256 * a) 256)
  match windowOf y b with
  | some w => setReaders y b (winDef y w)
  | none => y

/-- The copy engine moves a clean unit, unless it waits for the count of a window unit (R243, R264). -/
theorem copyUnit_moves {e : SEnv} {x : Site} {a b : Nat} (hon : x.state = 2) (ha : unitThere e a = true) (hb : unitThere e b = true)
    (hclean : UnitClean x a) (hempty : windowOf x b = none ∨ readers x b = 0) (free : Nat) :
    copyUnit e a b [] { s := x, free := free } = { s := unitCopied x a b, free := free } := by
  have hwaits : ((windowOf x b).isSome && decide (readers x b ≠ 0)) = false := by
    rcases hempty with h | h
    · simp only [h, Option.isSome_none, Bool.false_and]
    · simp only [h, ne_eq, not_true_eq_false, decide_false, Bool.and_false]
  rw [unitThere] at ha hb
  rw [copyUnit]
  simp only [ha, hb, hon, hwaits, ne_eq, not_true_eq_false, decide_false, Bool.not_true, Bool.or_self, Bool.false_eq_true, if_false,
    readUnit_clean (x := { s := x, free := free }) (.inl hclean)]
  rfl

theorem unitCopied_plain {x : Site} {a b : Nat} (h : windowOf (storeUnit x (256 * b) (x.bytes (256 * a) 256)) b = none) :
    unitCopied x a b = storeUnit x (256 * b) (x.bytes (256 * a) 256) := by
  simp only [unitCopied, h]

theorem unitCopied_window {x : Site} {a b w : Nat} (h : windowOf (storeUnit x (256 * b) (x.bytes (256 * a) 256)) b = some w) :
    unitCopied x a b =
      let y := storeUnit x (256 * b) (x.bytes (256 * a) 256)
      setReaders y b (winDef y w) := by
  simp only [unitCopied, h]

end Sys2Proof.Machine

namespace Sys2Proof
open Machine

/-- Settles O26: an arrival by the first packet at the edge links, a request by its kind and its window, a copy by the window of its target. -/
theorem siteRequests : Obligations.SiteRequests := by
  unfold Obligations.SiteRequests
  refine ⟨?arrive, ?serve, ?copy⟩
  case arrive =>
    intro t n port r rest s htile hport hpacket hbefore x q here hcode
    refine ⟨fun hpark hroom => ?_, fun hpark hroom => ?_⟩
    · exact s.checked_of htile
        (State.requestArrive_first hport hpacket hbefore (siteArrive_queued hcode s.free hpark hroom))
    · exact s.checked_of htile
        (State.requestArrive_first hport hpacket hbefore (siteArrive_parked hcode s.free hpark hroom))
  case serve =>
    intro n r s hn hnext hpark hthere x u clean back data
    have hunit (hclean : clean) : UnitClean x u := by
      obtain ⟨hquiet, hline, hbursts⟩ := hclean
      exact ⟨hquiet, hline, hbursts⟩
    have hwin {o : Option Nat} (h : windowOf x u = o) : windowOf (s.site n) (r.off / 256) = o := (windowOf_servedSite u).symm.trans h
    have served {turn : Site → SiteReq → Bool} {l : List Flit} {z : Site} (hturn : turn (s.site n) r = true)
        (hserve : (if r.op = 1 then serveRead (s.siteEnv n) { s := x, free := s.free } r []
          else if r.op = 2 then serveWrite (s.siteEnv n) { s := x, free := s.free } r []
          else serveAtom (s.siteEnv n) { s := x, free := s.free } r []) =
            { s := z, free := s.free, ret := l.map fun g => (r.edge, g) }) :
        (s.siteDo n fun e y => siteServe e y turn []) = .next (back l z) :=
      State.siteDo_returns hn ((siteServe_turn hnext hpark hthere hturn s.free []).trans hserve)
    refine ⟨?read, ?windowRead, ?write, ?fill, ?atomic⟩
    case read =>
      intro hop hclean hwindow
      exact served (serveTurn_of_noWindow (hwin hwindow)) ((if_pos hop).trans (serveRead_plain s.free (hunit hclean) hwindow))
    case windowRead =>
      intro hop hclean w hwindow hreaders
      exact served (isWinRead_of_window (hwin hwindow) hop) ((if_pos hop).trans (serveRead_window s.free (hunit hclean) hwindow hreaders))
    case write =>
      intro hop hwhole hraw hwindow
      refine served (serveTurn_of_noWindow (hwin hwindow)) ?_
      rw [hop]
      exact serveWrite_unit s.free hwhole hraw hwindow []
    case fill =>
      intro hop hwhole hraw w hwindow
      refine served (isWinFill_of_window (hwin hwindow) hop hwhole) ?_
      rw [hop]
      exact serveWrite_fill s.free hwhole hraw hwindow []
    case atomic =>
      intro hop haop hwindow hclean per old
      refine served (serveTurn_of_noWindow (hwin hwindow)) ?_
      rw [hop]
      exact serveAtom_line s.free haop hwindow (hclean.imp_left hunit)
  case copy =>
    intro n a b s hn hup hon there hfrom hto x hquiet hline hbursts y hsame
    have hthere {u : Nat} (h : there u) : unitThere (s.siteEnv n) u = true := by
      simpa only [unitThere, Bool.or_eq_true, Bool.and_eq_true, decide_eq_true_eq] using h
    have hclean : UnitClean x a := ⟨hquiet, hline, fun k hk =>
      List.isEmpty_iff.mp (List.all_eq_true.mp hbursts k (List.mem_range.mpr hk))⟩
    have moved {z : Site} (hempty : windowOf x b = none ∨ readers x b = 0) (hz : unitCopied x a b = z) :
        exec (.pwinFill { site := n, copy := some (a, b) }) s = .next (s.setSite n z) := by
      refine s.checked_of (decide_eq_true hn) ((if_pos hup).trans ?_)
      rw [State.onSite, copyUnit_moves hon (hthere hfrom) (hthere hto) hclean hempty, hz]
      rfl
    refine ⟨fun hwindow => moved (.inl hwindow) (unitCopied_plain (hsame.symm.trans hwindow)), fun w hwindow hreaders => ?_⟩
    exact moved (.inr hreaders) (unitCopied_window (hsame.symm.trans hwindow))

end Sys2Proof
end

section
/-!
Lists of bytes and words, and runs of consecutive keys of a sparse map.
-/

namespace Sys2Proof.Map

variable {α : Type}

theorem getMany_eq (d : Nat → α) (m : Map α) : ∀ (n k : Nat), getMany d m k n = (List.range n).map fun i => get d m (k + i)
  | 0, _ => rfl
  | n + 1, k => by
    rw [getMany, getMany_eq d m n (k + 1), List.range_succ_eq_map, List.map_cons, List.map_map]
    simp only [Nat.add_zero, Function.comp_def, Nat.succ_eq_add_one, Nat.add_right_comm k 1, Nat.add_assoc]

variable [DecidableEq α]

/-- A run of writes: each of its keys reads its value, every other key as before. -/
theorem get_setMany {d : Nat → α} (e : α) (j : Nat) : ∀ (l : List α) (k : Nat) {m : Map α}, wf d m = true →
    get d (setMany d m k l) j = if k ≤ j ∧ j < k + l.length then nth e l (j - k) else get d m j
  | [], k, m, _ => by
    rw [setMany, if_neg (by simp only [List.length_nil]; omega)]
  | v :: l, k, m, h => by
    rw [setMany, get_setMany e j l (k + 1) (wf_set h), List.length_cons]
    by_cases hlater : k + 1 ≤ j ∧ j < k + 1 + l.length
    · obtain ⟨i, rfl⟩ := Nat.exists_eq_add_of_le hlater.1
      rw [if_pos hlater, if_pos (by omega), Nat.add_sub_cancel_left, show k + 1 + i - k = i + 1 by omega]
      rfl
    · rw [if_neg hlater]
      by_cases hhere : j = k
      · rw [hhere, get_set_self h, if_pos (by omega), Nat.sub_self]
        rfl
      · rw [get_set_ne h hhere, if_neg (by omega)]

end Sys2Proof.Map

namespace Sys2Proof

theorem nth_map_range {α : Type} {d : α} (f : Nat → α) {n i : Nat} (hi : i < n) : nth d ((List.range n).map f) i = f i := by
  simp [nth, hi]

/-- A list is its elements in turn. -/
theorem map_nth_range {α : Type} (d : α) (l : List α) : ((List.range l.length).map fun i => nth d l i) = l := by
  refine List.ext_getElem (by simp) fun i hi hl => ?_
  simp [nth, hl]

theorem length_leBytes : ∀ (k n : Nat), (leBytes n k).length = k
  | 0, _ => rfl
  | k + 1, n => by rw [leBytes, List.length_cons, length_leBytes k]

/-- The number that the bytes of a number hold. -/
theorem ofLeBytes_leBytes : ∀ (k n : Nat), ofLeBytes (leBytes n k) = n % 256 ^ k
  | 0, n => by rw [Nat.pow_zero, Nat.mod_one]; rfl
  | k + 1, n => by
    rw [leBytes, ofLeBytes, ofLeBytes_leBytes k, BitVec.toNat_ofNat, show 256 ^ (k + 1) = 256 * 256 ^ k from Nat.pow_succ']
    exact Nat.mod_mul.symm

end Sys2Proof

namespace Sys2Proof.Machine

theorem length_wordsBytes : ∀ l : List Word, (wordsBytes l).length = 4 * l.length
  | [] => rfl
  | w :: l => by
    have h : (wordsBytes (w :: l)).length = (leBytes w.toNat 4).length + (wordsBytes l).length := List.length_append ..
    rw [h, length_leBytes, length_wordsBytes l, List.length_cons]
    omega

/-- Words are read back from their bytes. -/
theorem bytesWords_wordsBytes : ∀ l : List Word, bytesWords l.length (wordsBytes l) = l
  | [] => rfl
  | w :: l => by
    have h : wordsBytes (w :: l) = leBytes w.toNat 4 ++ wordsBytes l := rfl
    have hlen : (leBytes w.toNat 4).length = 4 := length_leBytes 4 _
    rw [List.length_cons, bytesWords, h, List.take_left' hlen, List.drop_left' hlen, bytesWords_wordsBytes l, ofLeBytes_leBytes,
      Nat.mod_eq_of_lt (show w.toNat < 256 ^ 4 from w.isLt), BitVec.ofNat_toNat, BitVec.setWidth_eq]

end Sys2Proof.Machine
end

section
/-!
The cipher of a site keeps the length of a unit (R266).
-/

namespace Sys2Proof.Machine

theorem length_xorBytes (a b : List Nat) : (xorBytes a b).length = min a.length b.length := List.length_zipWith ..

theorem length_shiftRows (sh : Nat → Nat) (l : List Nat) : (shiftRows sh l).length = 16 := by
  rw [shiftRows, List.length_map, List.length_range]

theorem length_mixColumns (k l : List Nat) : (mixColumns k l).length = 16 := by
  rw [mixColumns, List.length_map, List.length_range]

theorem nth_mem {α : Type} (d : α) {l : List α} {i : Nat} (hi : i < l.length) : nth d l i ∈ l := by
  simp [nth, hi]

/-- Every word of a key schedule has four bytes. -/
theorem expandKey_words : ∀ (n : Nat) {w : List (List Nat)}, 8 ≤ w.length → (∀ x ∈ w, x.length = 4) →
    (expandKey n w).length = w.length + n ∧ ∀ x ∈ expandKey n w, x.length = 4
  | 0, _, _, h => ⟨rfl, h⟩
  | n + 1, w, hlen, h => by
    have hlast := h _ (nth_mem [] (show w.length - 1 < w.length by omega))
    have hold := h _ (nth_mem [] (show w.length - 8 < w.length by omega))
    rw [expandKey]
    generalize hu : (if w.length % 8 = 0 then _ else _ : List Nat) = u
    have hword : u.length = 4 := by
      rw [← hu]
      split
      · simp only [length_xorBytes, List.length_map, List.length_append, List.length_drop, List.length_take, hlast]
        rfl
      · split
        · rw [List.length_map, hlast]
        · exact hlast
    obtain ⟨hlength, hall⟩ := expandKey_words n (w := w ++ [xorBytes (nth [] w (w.length - 8)) u])
      (by rw [List.length_append]; omega) fun x hx => by
        rcases List.mem_append.mp hx with hx | hx
        · exact h x hx
        · rw [List.mem_singleton.mp hx, length_xorBytes, hold, hword]
          rfl
    exact ⟨by rw [hlength, List.length_append, List.length_singleton]; omega, hall⟩

/-- Every round key has 16 bytes. -/
theorem length_roundKey (key : Nat) {r : Nat} (hr : r < 15) : (nth [] (roundKeys key) r).length = 16 := by
  obtain ⟨hlen, hall⟩ := expandKey_words 52 (w := (List.range 8).map fun i => (List.range 4).map fun j => key / 2 ^ (32 * i + 8 * j) % 256)
    (Nat.le_refl 8) fun x hx => by
      obtain ⟨i, -, rfl⟩ := List.mem_map.mp hx
      rfl
  rw [roundKeys, nth_map_range _ hr, List.length_flatMap]
  generalize expandKey 52 _ = w at *
  have hlen : w.length = 60 := hlen
  have four : ∀ c < 4, (nth [] w (4 * r + c)).length = 4 := fun c hc => hall _ (nth_mem [] (by omega))
  simp only [List.range_succ_eq_map, List.range_zero, List.map_cons, List.map_nil, List.sum_cons, List.sum_nil, four 0 (by decide),
    four 1 (by decide), four 2 (by decide), four 3 (by decide)]
  rfl

/-- A block of the cipher has 16 bytes. -/
theorem length_aesEnc (key : Nat) (l : List Nat) : (aesEnc (roundKeys key) l).length = 16 := by
  rw [aesEnc, length_xorBytes, length_shiftRows, length_roundKey key (by decide)]
  rfl

theorem length_aesDec (key : Nat) (l : List Nat) : (aesDec (roundKeys key) l).length = 16 := by
  unfold aesDec
  rw [length_xorBytes, length_roundKey key (by decide)]
  refine (Nat.min_eq_right (Nat.le_of_eq ?_)).trans rfl
  refine List.foldlRecOn (motive := fun m : List Nat => 16 = m.length) _ _ ?_ fun _ _ _ _ => ?_
  · rw [List.length_map, length_shiftRows]
  · rw [List.length_map, length_shiftRows]

/-- Blocks of 16 bytes in turn. -/
theorem length_xtsBlocks {f : List Nat → List Nat} (hf : ∀ l, (f l).length = 16) : ∀ (n : Nat) {t : List Nat} (l : List Nat),
    t.length = 16 → (xtsBlocks f n t l).length = 16 * n
  | 0, _, _, _ => rfl
  | n + 1, t, l, ht => by
    have hnext : (nextTweak t).length = 16 := by rw [nextTweak, List.length_map, List.length_range]
    rw [xtsBlocks, List.length_append, length_xorBytes, hf, ht, length_xtsBlocks hf n _ hnext]
    omega

theorem length_xtsDec (key tweak : Nat) (l : List Nat) : (xtsDec key tweak l).length = 256 :=
  length_xtsBlocks (length_aesDec _) 16 l (length_aesEnc _ _)

end Sys2Proof.Machine
end

section
/-!
The memory of a site as it decrypts it (R247, R266): what storing a unit anew and writing bytes leave of every byte.
-/

namespace Sys2Proof.Machine

/-- The byte at an offset, as the site decrypts it. -/
def Site.plainByte (x : Site) (a : Nat) : Byte := nth 0#8 (x.plainUnit (a / 256)) (a % 256)

/-- The byte that stands at an offset, whatever key its unit was stored under. -/
def Site.storedByte (x : Site) (a : Nat) : Byte := Map.get (fun _ => 0#8) x.m.mem a

/-- The contents of the memory are in their canonical form. -/
structure SiteMem.Wf (m : SiteMem) : Prop where
  mem : Map.wf (fun _ => 0#8) m.mem = true
  sealed : Map.wf (fun _ => 0) m.sealed = true

/-- The unit is stored under the present key, or nothing has written it. -/
def Site.current (x : Site) (u : Nat) : Prop := x.sealOf u = 0 ∨ x.sealOf u = x.key + 1

theorem Site.length_plainUnit (x : Site) (u : Nat) : (x.plainUnit u).length = 256 := by
  have hrun : (Map.getMany (fun _ => 0#8) x.m.mem (256 * u) 256).length = 256 := by rw [Map.getMany_eq, List.length_map, List.length_range]
  rw [Site.plainUnit]
  dsimp only
  split
  · exact hrun
  · split
    · exact hrun
    · rw [List.length_map, length_xtsDec]

/-- A unit is its bytes. -/
theorem Site.plainUnit_eq (x : Site) (u : Nat) : x.plainUnit u = (List.range 256).map fun i => x.plainByte (256 * u + i) := by
  have hbytes := map_nth_range 0#8 (x.plainUnit u)
  rw [x.length_plainUnit] at hbytes
  rw [← hbytes]
  refine List.map_congr_left fun i hi => ?_
  have hlt := List.mem_range.mp hi
  rw [Site.plainByte, show (256 * u + i) / 256 = u by omega, show (256 * u + i) % 256 = i by omega]

/-- A unit under the present key reads as it stands. -/
theorem Site.plainUnit_current {x : Site} {u : Nat} (h : x.current u) :
    x.plainUnit u = Map.getMany (fun _ => 0#8) x.m.mem (256 * u) 256 := by
  rw [Site.plainUnit]
  rcases h with h | h
  · rw [h]
  · rw [h]
    exact if_pos rfl

theorem Site.plainByte_current {x : Site} {a : Nat} (h : x.current (a / 256)) : x.plainByte a = x.storedByte a := by
  have hlow : a % 256 < 256 := Nat.mod_lt a (by decide)
  rw [Site.plainByte, Site.plainUnit_current h, Map.getMany_eq, nth_map_range _ hlow, Nat.div_add_mod]
  rfl

/-- What a unit reads as depends on the site's index and key, the key it was stored under, and its bytes. -/
theorem Site.plainUnit_congr {x y : Site} {u : Nat} (hid : y.id = x.id) (hkey : y.key = x.key) (hseal : y.sealOf u = x.sealOf u)
    (hbytes : ∀ a, a / 256 = u → y.storedByte a = x.storedByte a) : y.plainUnit u = x.plainUnit u := by
  have hrun : Map.getMany (fun _ => 0#8) y.m.mem (256 * u) 256 = Map.getMany (fun _ => 0#8) x.m.mem (256 * u) 256 := by
    rw [Map.getMany_eq, Map.getMany_eq]
    refine List.map_congr_left fun i hi => hbytes _ ?_
    have hlt := List.mem_range.mp hi
    omega
  rw [Site.plainUnit, Site.plainUnit, hid, hkey, hseal, hrun]

/-- Units read alike where the index, the keys, the owner and what is stored are alike. -/
theorem Site.plainUnit_of_mem {x y : Site} (hid : y.id = x.id) (hkeys : y.keys = x.keys) (hown : y.csrWord 0x4 = x.csrWord 0x4)
    (hmem : y.m.mem = x.m.mem) (hsealed : y.m.sealed = x.m.sealed) (hwipe : y.m.wipeKey = x.m.wipeKey) (hstr : y.m.strKey = x.m.strKey)
    (u : Nat) : y.plainUnit u = x.plainUnit u := by
  have hkey : y.key = x.key := by rw [Site.key, Site.key, Site.owner, Site.owner, hkeys, hown]
  refine Site.plainUnit_congr hid hkey ?_ fun a _ => ?_
  · rw [Site.sealOf, Site.sealOf, hsealed, hwipe, hstr]
  · rw [Site.storedByte, Site.storedByte, hmem]

/-- From x to y the units of a list are stored anew under the present key, and every unit reads as before. -/
structure Resealed (l : List Nat) (x y : Site) : Prop where
  frame : ∃ mem sealed, y = { x with m := { x.m with mem := mem, sealed := sealed } }
  wf : y.m.Wf
  sealOf : ∀ u, y.sealOf u = if u ∈ l then x.key + 1 else x.sealOf u
  plain : ∀ u, y.plainUnit u = x.plainUnit u

theorem Site.key_of_frame {x y : Site} (h : ∃ mem sealed, y = { x with m := { x.m with mem := mem, sealed := sealed } }) : y.key = x.key := by
  obtain ⟨mem, sealed, rfl⟩ := h
  rfl

theorem Site.id_of_frame {x y : Site} (h : ∃ mem sealed, y = { x with m := { x.m with mem := mem, sealed := sealed } }) : y.id = x.id := by
  obtain ⟨mem, sealed, rfl⟩ := h
  rfl

theorem Site.sealOf_reseal {x : Site} (h : x.m.Wf) (u v : Nat) : (x.reseal u).sealOf v = if v = u then x.key + 1 else x.sealOf v := by
  have hsealed : (x.reseal u).m.sealed = Map.set (fun _ => 0) x.m.sealed u (x.key + 1) := rfl
  rw [Site.sealOf, hsealed]
  by_cases hv : v = u
  · rw [hv, Map.get_set_self h.sealed, if_pos rfl]
    rfl
  · rw [Map.get_set_ne h.sealed hv, if_neg hv]
    rfl

/-- A unit stored anew holds what it reads as. -/
theorem Site.storedByte_reseal {x : Site} (h : x.m.Wf) (u a : Nat) :
    (x.reseal u).storedByte a = if a / 256 = u then x.plainByte a else x.storedByte a := by
  have hmem : (x.reseal u).m.mem = if x.sealOf u = 0 ∨ x.sealOf u = x.key + 1 then x.m.mem
      else Map.setMany (fun _ => 0#8) x.m.mem (256 * u) (x.plainUnit u) := by
    simp only [Site.reseal, Bool.or_eq_true, decide_eq_true_eq]
  rw [Site.storedByte, hmem]
  by_cases hcurrent : x.sealOf u = 0 ∨ x.sealOf u = x.key + 1
  · rw [if_pos hcurrent]
    split
    next ha => rw [Site.plainByte_current (by rw [ha]; exact hcurrent)]; rfl
    next => rfl
  · rw [if_neg hcurrent, Map.get_setMany 0#8 a _ _ h.mem, x.length_plainUnit]
    by_cases ha : a / 256 = u
    · rw [if_pos ha, if_pos (by omega), Site.plainByte, ha, show a - 256 * u = a % 256 by omega]
    · rw [if_neg ha, if_neg (by omega)]
      rfl

theorem Site.reseal_resealed {x : Site} (h : x.m.Wf) (u : Nat) : Resealed [u] x (x.reseal u) where
  frame := ⟨_, _, rfl⟩
  wf := {
    mem := by
      simp only [Site.reseal]
      split
      · exact h.mem
      · exact Map.wf_setMany h.mem
    sealed := Map.wf_set (k := u) (x := x.key + 1) h.sealed }
  sealOf v := by
    rw [Site.sealOf_reseal h]
    simp only [List.mem_singleton]
  plain v := by
    by_cases hv : v = u
    · have hcurrent : (x.reseal u).current v := .inr (by rw [Site.sealOf_reseal h, if_pos hv]; rfl)
      rw [Site.plainUnit_current hcurrent, Map.getMany_eq, x.plainUnit_eq]
      refine List.map_congr_left fun i hi => ?_
      have hlt := List.mem_range.mp hi
      exact (Site.storedByte_reseal h u _).trans (if_pos (by omega))
    · exact Site.plainUnit_congr rfl rfl (by rw [Site.sealOf_reseal h, if_neg hv]) fun a ha => by
        rw [Site.storedByte_reseal h, if_neg (ha ▸ hv)]

/-- Units stored anew one after another. -/
theorem Site.foldl_reseal_resealed (l : List Nat) : ∀ {x : Site}, x.m.Wf → Resealed l x (l.foldl Site.reseal x) := by
  induction l with
  | nil => exact fun {x} h => ⟨⟨_, _, rfl⟩, h, fun u => (if_neg List.not_mem_nil).symm, fun _ => rfl⟩
  | cons u l ih =>
    intro x h
    have hone := Site.reseal_resealed h u
    have hrest := ih hone.wf
    refine ⟨?_, hrest.wf, fun v => ?_, fun v => (hrest.plain v).trans (hone.plain v)⟩
    · obtain ⟨mem, sealed, hframe⟩ := hrest.frame
      exact ⟨mem, sealed, hframe⟩
    · rw [List.foldl_cons, hrest.sealOf, hone.sealOf, Site.key_of_frame hone.frame]
      by_cases hl : v ∈ l
      · rw [if_pos hl, if_pos (List.mem_cons_of_mem _ hl)]
      · simp only [hl, if_false, List.mem_cons, List.not_mem_nil, or_false]

/-- The units that hold bytes of a write of n bytes at offset o. -/
def writtenUnits (o n : Nat) : List Nat := (List.range ((o + n + 255) / 256 - o / 256)).map (o / 256 + ·)

theorem mem_writtenUnits {o n u : Nat} : u ∈ writtenUnits o n ↔ o / 256 ≤ u ∧ u < (o + n + 255) / 256 := by
  simp only [writtenUnits, List.mem_map, List.mem_range]
  constructor
  · rintro ⟨i, hi, rfl⟩
    omega
  · intro h
    exact ⟨u - o / 256, by omega, by omega⟩

section PutBytes
variable {x : Site} (h : x.m.Wf) (o : Nat) (l : List Byte)
include h

theorem Site.putBytes_resealed : ∃ z, Resealed (writtenUnits o l.length) x z ∧
    x.putBytes o l = { z with m := { z.m with mem := Map.setMany (fun _ => 0#8) z.m.mem o l } } :=
  ⟨_, Site.foldl_reseal_resealed _ h, rfl⟩

theorem Site.putBytes_wf : (x.putBytes o l).m.Wf := by
  obtain ⟨z, hz, hput⟩ := Site.putBytes_resealed h o l
  rw [hput]
  exact ⟨Map.wf_setMany hz.wf.mem, hz.wf.sealed⟩

theorem Site.putBytes_frame : ∃ mem sealed, x.putBytes o l = { x with m := { x.m with mem := mem, sealed := sealed } } := by
  obtain ⟨z, hz, hput⟩ := Site.putBytes_resealed h o l
  obtain ⟨mem, sealed, rfl⟩ := hz.frame
  exact ⟨_, _, hput⟩

/-- A byte inside a write reads as written, every other byte as before (R247, R266). -/
theorem Site.plainByte_putBytes (a : Nat) :
    (x.putBytes o l).plainByte a = if o ≤ a ∧ a < o + l.length then nth 0#8 l (a - o) else x.plainByte a := by
  obtain ⟨z, hz, hput⟩ := Site.putBytes_resealed h o l
  have hbefore : z.plainByte a = x.plainByte a := by rw [Site.plainByte, Site.plainByte, hz.plain]
  have hstored (b : Nat) : (x.putBytes o l).storedByte b = if o ≤ b ∧ b < o + l.length then nth 0#8 l (b - o) else z.storedByte b := by
    rw [hput]
    exact Map.get_setMany 0#8 b l o hz.wf.mem
  have hkey : (x.putBytes o l).key = x.key := Site.key_of_frame (Site.putBytes_frame h o l)
  have hzkey : z.key = x.key := Site.key_of_frame hz.frame
  have hseal (u : Nat) : (x.putBytes o l).sealOf u = z.sealOf u := by rw [hput]; rfl
  by_cases hu : a / 256 ∈ writtenUnits o l.length
  · have hsealed : z.sealOf (a / 256) = x.key + 1 := (hz.sealOf _).trans (if_pos hu)
    rw [Site.plainByte_current (.inr (by rw [hseal, hsealed, hkey])), hstored, ← hbefore,
      Site.plainByte_current (x := z) (.inr (by rw [hsealed, hzkey]))]
  · rw [mem_writtenUnits] at hu
    rw [if_neg (by omega), ← hbefore, Site.plainByte, Site.plainByte,
      Site.plainUnit_congr (by rw [hput]) (hkey.trans hzkey.symm) (hseal _) fun b hb => ?_]
    rw [hstored, if_neg (by omega)]

end PutBytes

/-- The bytes read at an offset. -/
theorem Site.bytes_eq (x : Site) (o n : Nat) : x.bytes o n = (List.range n).map fun i => x.plainByte (o + i) := by
  rw [Site.bytes]
  split
  next hkeys =>
    rw [Bool.and_eq_true] at hkeys
    obtain ⟨hsealed, hwiped⟩ := hkeys
    have hwiped (k : Nat) (hk : k ∈ [x.m.wipeKey, x.m.strKey]) : k = 0 ∨ k = x.key + 1 := by
      have hone := List.all_eq_true.mp hwiped k hk
      rwa [Bool.or_eq_true, decide_eq_true_eq, decide_eq_true_eq] at hone
    have hcurrent (u : Nat) : x.current u := by
      unfold Site.current Site.sealOf
      split
      next hnone =>
        split
        · exact hwiped _ (by simp)
        · exact hwiped _ (by simp)
      next k hsome =>
        rcases Map.get_mem_or (fun _ => 0) x.m.sealed u with hmem | hdef
        · exact .inr (of_decide_eq_true (List.all_eq_true.mp hsealed _ hmem))
        · exact .inl hdef
    rw [Map.getMany_eq]
    exact List.map_congr_left fun i _ => (Site.plainByte_current (hcurrent _)).symm
  next => rfl

theorem Site.nth_bytes (x : Site) (o : Nat) {n i : Nat} (hi : i < n) : nth 0#8 (x.bytes o n) i = x.plainByte (o + i) := by
  rw [x.bytes_eq, nth_map_range _ hi]

theorem Site.length_bytes (x : Site) (o n : Nat) : (x.bytes o n).length = n := by
  rw [x.bytes_eq, List.length_map, List.length_range]

/-- Words written at an offset read back. -/
theorem Site.words_putWords {x : Site} (h : x.m.Wf) (o : Nat) (ws : List Word) : (x.putWords o ws).words o ws.length = ws := by
  have hbytes : (x.putBytes o (wordsBytes ws)).bytes o (4 * ws.length) = wordsBytes ws := by
    rw [← length_wordsBytes, Site.bytes_eq]
    refine Eq.trans (List.map_congr_left fun i hi => ?_) (map_nth_range 0#8 (wordsBytes ws))
    have hlt := List.mem_range.mp hi
    rw [Site.plainByte_putBytes h, if_pos (by omega), Nat.add_sub_cancel_left]
  rw [Site.words, Site.putWords, hbytes, bytesWords_wordsBytes]

/-! A unit write of a request: bytes written, codes formed anew, and an armed injection that strikes. -/

/-- A unit write changes, beside the bytes, what is known of errors, and the register of an injection that strikes (R448). -/
theorem writeUnit_frame (x : Site) (o : Nat) (l : List Byte) : ∃ bad cacheBad ueSeen injUnit csr,
    writeUnit x o l = { x.putBytes o l with
      m := { (x.putBytes o l).m with bad := bad, cacheBad := cacheBad, ueSeen := ueSeen }, injUnit := injUnit, csr := csr } ∧
    (Map.wf (regReset siteRegs) x.csr = true → Map.wf (regReset siteRegs) csr = true ∧
      ∀ k, k ≠ 0x30 → Map.get (regReset siteRegs) csr k = x.csrWord k) := by
  have hcsr : (x.putBytes o l).csr = x.csr := putBytes_csr _ x o l rfl
  rw [writeUnit]
  dsimp only
  generalize x.putBytes o l = y at *
  generalize (if y.m.ueSeen.contains (2 * (o / 256)) then _ else _ : List Nat) = seen
  generalize (if y.injUnit = some (o / 256) then _ else _ : Option Nat) = unit
  generalize (if decide (o < hbmEnd) = true then 1 else 2 : Nat) = kind
  split
  · refine ⟨_, _, _, _, _, rfl, fun hwf => ?_⟩
    rw [← hcsr] at hwf
    refine ⟨Map.wf_set (Map.wf_set hwf), fun k hk => ?_⟩
    rw [show x.csrWord k = y.csrWord k by rw [Site.csrWord, Site.csrWord, hcsr]]
    exact (Map.get_set_ne (Map.wf_set hwf) hk).trans (Map.get_set_ne hwf hk)
  · exact ⟨_, _, _, _, _, rfl, fun hwf => ⟨hcsr ▸ hwf, fun k _ => by rw [Site.csrWord, ← hcsr]⟩⟩

theorem writeUnit_wf {x : Site} (h : x.m.Wf) (o : Nat) (l : List Byte) : (writeUnit x o l).m.Wf := by
  obtain ⟨_, _, _, _, _, hwrite, -⟩ := writeUnit_frame x o l
  obtain ⟨hmem, hsealed⟩ := Site.putBytes_wf h o l
  rw [hwrite]
  exact ⟨hmem, hsealed⟩

theorem plainUnit_writeUnit {x : Site} (hcsr : Map.wf (regReset siteRegs) x.csr = true) (o : Nat) (l : List Byte) (u : Nat) :
    (writeUnit x o l).plainUnit u = (x.putBytes o l).plainUnit u := by
  obtain ⟨bad, cacheBad, ueSeen, injUnit, csr, hwrite, hregs⟩ := writeUnit_frame x o l
  refine Site.plainUnit_of_mem (by rw [hwrite]) (by rw [hwrite]) ?_ (by rw [hwrite]) (by rw [hwrite]) (by rw [hwrite]) (by rw [hwrite]) u
  rw [Site.csrWord, Site.csrWord, hwrite, putBytes_csr _ x o l rfl]
  exact (hregs hcsr).2 0x4 (by decide)

/-- Where the registers of the site are in their canonical form, so that its owner stands, a unit write stores its bytes and no others. -/
theorem plainByte_writeUnit {x : Site} (h : x.m.Wf) (hcsr : Map.wf (regReset siteRegs) x.csr = true) (o : Nat) (l : List Byte) (a : Nat) :
    (writeUnit x o l).plainByte a = if o ≤ a ∧ a < o + l.length then nth 0#8 l (a - o) else x.plainByte a := by
  rw [Site.plainByte, plainUnit_writeUnit hcsr]
  exact Site.plainByte_putBytes h o l a

end Sys2Proof.Machine
end

section
/-!
A site whose registers are not in their canonical form: an injection that strikes at a unit write erases the register that hides an owner,
and the unit is then read under another key than it was stored under (R266, R448).
-/

namespace Sys2Proof.Machine

/-- The first byte of a decrypted unit depends on the first block alone. -/
theorem nth_xtsDec_zero (key tweak : Nat) (l : List Nat) : nth 0 (xtsDec key tweak l) 0 = nth 0 (xtsDec key tweak (l.take 16)) 0 := by
  have hfirst (f : List Nat → List Nat) (hf : ∀ l, (f l).length = 16) {t : List Nat} (ht : t.length = 16) (l : List Nat) :
      nth 0 (xtsBlocks f 16 t l) 0 = nth 0 (xorBytes (f (xorBytes (l.take 16) t)) t) 0 := by
    rw [xtsBlocks, nth, nth, List.getElem?_append_left (by rw [length_xorBytes, hf, ht]; decide)]
  rw [xtsDec, xtsDec, hfirst _ (length_aesDec _) (length_aesEnc _ _), hfirst _ (length_aesDec _) (length_aesEnc _ _), List.take_take]
  rfl

/-- The first block of a unit that holds 1 and zeros, under key 0. -/
theorem xtsEnc_one_block : (xtsEnc 0 0 (1 :: List.replicate 255 0)).take 16 =
    [216, 238, 36, 180, 71, 79, 43, 67, 202, 154, 235, 89, 134, 122, 95, 57] := by decide +kernel

/-- The same unit under key 1 begins with another byte. -/
theorem xtsDec_other_key : nth 0 (xtsDec 1 0 (xtsEnc 0 0 (1 :: List.replicate 255 0))) 0 = 176 := by
  have hblock : nth 0 (xtsDec 1 0 [216, 238, 36, 180, 71, 79, 43, 67, 202, 154, 235, 89, 134, 122, 95, 57]) 0 = 176 := by decide +kernel
  rw [nth_xtsDec_zero, xtsEnc_one_block, hblock]

/-- A site with an injection of kind 1 armed for unit 0, before an entry of SITE_OWN that stands out of its place and so is not read: it has
no owner and the key 0. -/
def hiddenOwner : Site := { csr := [(0x30, 0x10000000#32), (0x4, 0#32)], keys := [(0, 1)] }

/-- The injection strikes, and the site has owner 0 and the key 1. -/
theorem hiddenOwner_written : (writeUnit hiddenOwner 0 [1#8]).plainByte 0 = 176#8 := by
  have hseal : (writeUnit hiddenOwner 0 [1#8]).sealOf 0 = 1 := by decide
  have hkey : (writeUnit hiddenOwner 0 [1#8]).key = 1 := by decide
  have hid : (writeUnit hiddenOwner 0 [1#8]).id = 0 := by decide
  have hrun : (Map.getMany (fun _ => 0#8) (writeUnit hiddenOwner 0 [1#8]).m.mem (256 * 0) 256).map (·.toNat) = 1 :: List.replicate 255 0 := by
    decide +kernel
  have hplain : (writeUnit hiddenOwner 0 [1#8]).plainUnit 0 =
      (xtsDec 1 0 (xtsEnc 0 0 (1 :: List.replicate 255 0))).map (BitVec.ofNat 8) := by
    rw [Site.plainUnit, hseal, hkey, hid, ← hrun]
    rfl
  rw [Site.plainByte, hplain, nth_map (d := 0) rfl, xtsDec_other_key]

end Sys2Proof.Machine

namespace Sys2Proof
open Machine

/-- Refutes O27: its premise leaves out the registers of the site. Where they are not in their canonical form, a unit write at which an
armed injection strikes can change what SITE_OWN reads as, so that the byte just written is decrypted under another key. Where they are,
the clause holds (`plainByte_writeUnit`), and the others do in any case (`Site.plainByte_putBytes`, `Site.words_putWords`,
`Site.nth_bytes`, `Site.putBytes_wf`, `writeUnit_wf`). -/
theorem not_siteMemoryReads : ¬ Obligations.SiteMemoryReads := by
  unfold Obligations.SiteMemoryReads
  intro h
  obtain ⟨-, hwritten, -⟩ := h hiddenOwner 0 [1#8] (by decide) (by decide)
  have hread : (writeUnit hiddenOwner 0 [1#8]).plainByte 0 = 1#8 := (hwritten 0 (by decide)).2
  rw [hiddenOwner_written] at hread
  exact absurd hread (by decide)

end Sys2Proof
end

section
/-!
Registers of a site that its owner's commands write: the key slots, a pull window's control, the owner (R263, R267, R427, R428).
-/

namespace Sys2Proof

/-- A field written leaves the bits outside it. -/
theorem bit_setBits_ne {n : Nat} (w : BitVec n) {hi lo i : Nat} (hhi : hi < n) (v : Nat) (hi' : i < lo ∨ hi < i) :
    bit (setBits w hi lo v) i = bit w i := by
  rw [bit, getLsbD_setBits w hhi, if_neg (by omega)]
  rfl

/-- One bit written. -/
theorem bit_setBits_self {n : Nat} (w : BitVec n) {i : Nat} (hi : i < n) (v : Nat) : bit (setBits w i i v) i = v.testBit 0 := by
  rw [bit, getLsbD_setBits w hi, if_pos (by omega), Nat.sub_self]

/-- A field read after a field that lies apart from it is written. -/
theorem bits_setBits_apart {n : Nat} (w : BitVec n) {hi lo h l : Nat} (hhi : hi < n) (v : Nat) (hapart : h < lo ∨ hi < l) :
    bits (setBits w hi lo v) h l = bits w h l := by
  refine Nat.eq_of_testBit_eq fun i => ?_
  rw [testBit_bits, testBit_bits]
  by_cases hin : i < h + 1 - l
  · rw [show (setBits w hi lo v).getLsbD (l + i) = w.getLsbD (l + i) from bit_setBits_ne w hhi v (by omega)]
  · simp only [hin, decide_false, Bool.false_and]

end Sys2Proof

namespace Sys2Proof.Machine

/-- From x to y the registers stay in their canonical form, and those of which `P` does not hold stand. -/
structure RegsKept (P : Nat → Prop) (x y : Site) : Prop where
  wf : Map.wf (regReset siteRegs) y.csr = true
  word : ∀ o, ¬ P o → y.csrWord o = x.csrWord o

theorem Site.csrPut_regsKept {x : Site} (h : Map.wf (regReset siteRegs) x.csr = true) (o : Nat) (v : Word) : RegsKept (· = o) x (x.csrPut o v) :=
  ⟨Map.wf_set h, fun _ hk => Site.csrWord_csrPut_ne v h hk⟩

/-- A key slot loaded: KVALID shows it, KGEN counts it, and the slots' other bits stand (R267). -/
structure KeyLoaded (p : Nat) (x y : Site) : Prop where
  regs : RegsKept (· = 0x8) x y
  valid : bit (y.csrWord 0x8) p = true
  others : ∀ q < 16, q ≠ p → bit (y.csrWord 0x8) q = bit (x.csrWord 0x8) q
  count : bits (y.csrWord 0x8) 31 16 = min 65535 (bits (x.csrWord 0x8) 31 16 + 1)

theorem loadKey_loaded {x : Site} (h : Map.wf (regReset siteRegs) x.csr = true) {p : Nat} (hp : p < 8) (key : Nat) :
    KeyLoaded p x (loadKey x p key) := by
  have hset (c : Nat) : RegsKept (· = 0x8) x
      ((({ x with keys := Map.set (fun _ => 0) x.keys p key } : Site).csrField 0x8 p p 1).csrField 0x8 31 16 c) :=
    ⟨Map.wf_set (Map.wf_set h), fun o ho => (Map.get_set_ne (Map.wf_set h) ho).trans (Map.get_set_ne h ho)⟩
  have hfirst : (({ x with keys := Map.set (fun _ => 0) x.keys p key } : Site).csrField 0x8 p p 1).csrWord 0x8 =
      setBits (x.csrWord 0x8) p p 1 := Map.get_set_self h
  have hword : (loadKey x p key).csrWord 0x8 = setBits (setBits (x.csrWord 0x8) p p 1) 31 16
      (satAdd (2 ^ 16 - 1) (bits (setBits (x.csrWord 0x8) p p 1) 31 16) 1) := by
    rw [← hfirst]
    exact Map.get_set_self (Map.wf_set h)
  refine ⟨hset _, ?_, fun q hq hne => ?_, ?_⟩
  · rw [hword, bit_setBits_ne _ (by decide) _ (by omega), bit_setBits_self _ (by omega)]
    rfl
  · rw [hword, bit_setBits_ne _ (by decide) _ (by omega), bit_setBits_ne _ (by omega) _ (by omega)]
  · have hsat : satAdd (2 ^ 16 - 1) (bits (setBits (x.csrWord 0x8) p p 1) 31 16) 1 < 2 ^ (31 + 1 - 16) := by
      rw [satAdd]
      omega
    rw [hword, bits_setBits_self _ (by decide) hsat, bits_setBits_apart _ (by omega) _ (by omega), satAdd]
    rfl

/-- A site without the key of a partition shows so (R427). -/
theorem dropKey_regs {x : Site} (h : Map.wf (regReset siteRegs) x.csr = true) {p : Nat} (hp : p < 8) :
    RegsKept (· = 0x8) x (dropKey x p) ∧ bit ((dropKey x p).csrWord 0x8) p = false := by
  refine ⟨⟨Map.wf_set h, fun o ho => Map.get_set_ne h ho⟩, ?_⟩
  have hword : (dropKey x p).csrWord 0x8 = setBits (x.csrWord 0x8) p p 0 := Map.get_set_self h
  rw [hword, bit_setBits_self _ (by omega)]
  rfl

/-- The registers of a site whose owner changes: the key slots of the old and of the new owner alone (R267, R427). -/
theorem ownSite_regs {x : Site} (h : Map.wf (regReset siteRegs) x.csr = true) {q key : Nat} (hq : q ≠ x.owner) (hkey : key ≠ 0 → q < 8) :
    RegsKept (· = 0x8) x (ownSite x q key) ∧ (x.owner < 8 → bit ((ownSite x q key).csrWord 0x8) x.owner = false) ∧
      (key ≠ 0 → bit ((ownSite x q key).csrWord 0x8) q = true) := by
  unfold ownSite
  dsimp only
  generalize hz : (if x.owner < nParts then _ else _ : Site) = z
  have hleft : RegsKept (· = 0x8) x z ∧ (x.owner < 8 → bit (z.csrWord 0x8) x.owner = false) := by
    rw [← hz]
    split
    next hp =>
      obtain ⟨⟨hwf, hword⟩, hbit⟩ := dropKey_regs (x := { discardPlain x with wiping := false, wipeStr := false, wipeFor := 15 }) h hp
      exact ⟨⟨hwf, hword⟩, fun _ => hbit⟩
    next hp => exact ⟨⟨h, fun _ _ => rfl⟩, fun hlt => absurd hlt hp⟩
  obtain ⟨⟨hwf, hword⟩, hbit⟩ := hleft
  split
  next hnone => exact ⟨⟨hwf, hword⟩, hbit, fun hsome => absurd hnone hsome⟩
  next hsome =>
    obtain ⟨⟨kwf, kword⟩, kvalid, kothers, -⟩ := loadKey_loaded hwf (hkey hsome) key
    exact ⟨⟨kwf, fun o ho => (kword o ho).trans (hword o ho)⟩,
      fun hlt => (kothers _ (by omega) (Ne.symm hq)).trans (hbit hlt), fun _ => kvalid⟩

/-- The rest of a site whose owner changes: no plaintext of the old owner, its key gone and the new one's loaded, a wipe ended, and the site
dirty where a partition owned it (R267, R427, R428). -/
theorem ownSite_rest (x : Site) (q key : Nat) :
    ownSite x q key = { x with
      csr := (ownSite x q key).csr
      m := { x.m with queue := [], parked := [], armed := [], count := [], atom := [], accum := [], cacheBad := [] }
      keys := (let k := if decide (x.owner < 8) then Map.set (fun _ => 0) x.keys x.owner 0 else x.keys
        if key = 0 then k else Map.set (fun _ => 0) k q key)
      wiping := false, wipeStr := false, wipeFor := 15, lastOwn := if decide (x.owner < 8) then x.owner else x.lastOwn
      dirty := decide (x.owner < 8) || x.dirty, strDirty := decide (x.owner < 8) || x.strDirty } := by
  unfold ownSite
  by_cases hleft : x.owner < 8
  · have hpart : x.owner < nParts := hleft
    by_cases hkey : key = 0
    · simp only [hpart, hleft, hkey, if_true, decide_true, Bool.true_or]
      rfl
    · simp only [hpart, hleft, hkey, if_true, if_false, decide_true, Bool.true_or]
      rfl
  · have hpart : ¬ x.owner < nParts := hleft
    by_cases hkey : key = 0
    · simp only [hpart, hleft, hkey, if_true, if_false, decide_false, Bool.false_or, Bool.false_eq_true]
      rfl
    · simp only [hpart, hleft, hkey, if_false, decide_false, Bool.false_or, Bool.false_eq_true]
      rfl

/-! Accepted writes of SITE_SC_ALLOC, SITE_OWN and SITE_PWIN_CTL (R271, R475). -/

theorem State.siteWrite_accepted {s : State} {n o : Nat} {v : Word} (h : s.siteRefused n o v = none) :
    s.siteWrite true n o v = s.siteAccepted n o v := by
  rw [State.siteWrite, State.privileged_true, h]

/-- A command that writes a register of a site, accepted. -/
theorem State.siteReg_accepted {s : State} {n o : Nat} {v : Word} (hn : n < 48) (h : s.siteRefused n o v = none) :
    s.siteReg true n o v = .next (s.siteAccepted n o v) :=
  s.checked_of (decide_eq_true hn) (State.siteWrite_accepted h)

theorem State.siteAccepted_alloc (s : State) (n : Nat) (v : Word) : s.siteAccepted n 0x40 v = s.setSite n ((s.site n).csrPut 0x40 v) := by
  have hreg : regAt siteRegs 0x40 = some ⟨0x40, 0, 1, 0x4100410, 0xFFFFFFFF, 0x0, 0x0, false⟩ := by decide
  have hnew : regWrite ⟨0x40, 0, 1, 0x4100410, 0xFFFFFFFF, 0x0, 0x0, false⟩ ((s.site n).csrWord 0x40) v = v := by
    have hones : BitVec.ofNat 32 0xFFFFFFFF = BitVec.allOnes 32 := rfl
    simp only [regWrite, hones, BitVec.not_allOnes, BitVec.and_zero, BitVec.zero_or, BitVec.and_allOnes, BitVec.not_zero]
  have hengine : disablesEngine (s.site n) 0x40 v = false := rfl
  unfold State.siteAccepted
  simp only [hreg, hnew, hengine]
  rfl

/-- The word of SITE_OWN after a write of `v`. -/
def ownWord (x : Site) (v : Word) : Word := regWrite ⟨0x4, 0, 1, 0xF, 0xF, 0x0, 0x0, false⟩ (x.csrWord 0x4) v

theorem bits_ownWord (x : Site) (v : Word) : bits (ownWord x v) 3 0 = bits v 3 0 := by
  refine Nat.eq_of_testBit_eq fun i => ?_
  rw [testBit_bits, testBit_bits, Nat.zero_add]
  by_cases hi : i < 3 + 1 - 0
  · obtain rfl | rfl | rfl | rfl : i = 0 ∨ i = 1 ∨ i = 2 ∨ i = 3 := by omega
    all_goals simp [ownWord, regWrite]
  · simp only [hi, decide_false, Bool.false_and]

theorem State.siteAccepted_own (s : State) (n : Nat) (v : Word) : s.siteAccepted n 0x4 v = s.setSite n
    ((if bits v 3 0 = (s.site n).owner then s.site n
      else ownSite (s.site n) (bits v 3 0) (if bits v 3 0 < 8 then (s.part (bits v 3 0)).key else 0)).csrPut 0x4 (ownWord (s.site n) v)) := rfl

/-- The word of SITE_PWIN_CTL of a window after a write of `v`. -/
def winCtlWord (x : Site) (w : Nat) (v : Word) : Word :=
  regWrite ⟨0x108, 16, 8, 0x10000, 0xFFFF0000, 0x8, 0x3, false⟩ (x.csrWord (0x108 + 16 * w)) v

theorem State.siteAccepted_winCtl (s : State) (n : Nat) {w : Nat} (hw : w < 8) (v : Word) : s.siteAccepted n (0x108 + 16 * w) v = s.setSite n
    (let y := (s.site n).csrPut (0x108 + 16 * w) (winCtlWord (s.site n) w v)
    (if bits v 1 0 = 0 then none else winCmd y w (bits v 1 0)).getD y) := by
  obtain rfl | rfl | rfl | rfl | rfl | rfl | rfl | rfl : w = 0 ∨ w = 1 ∨ w = 2 ∨ w = 3 ∨ w = 4 ∨ w = 5 ∨ w = 6 ∨ w = 7 := by omega
  all_goals rfl

section WinCtl
variable (x : Site) (w : Nat) {c : Nat} (hc : c < 4)
include hc

theorem bits_winWord_cmd : bits (winWord x w c) 1 0 = c := by
  simp only [bits, winWord, BitVec.toNat_ofNat, Nat.shiftRight_zero]
  omega

theorem bits_winWord_def : bits (winWord x w c) 31 16 = winDef x w := by
  have hdef : winDef x w < 65536 := Nat.mod_lt _ (by decide)
  simp only [bits, winWord, BitVec.toNat_ofNat, Nat.shiftRight_eq_div_pow]
  omega

/-- A command to a window keeps RDEF (R263). -/
theorem bits_winCtlWord_winWord : bits (winCtlWord x w (winWord x w c)) 31 16 = winDef x w := by
  rw [← bits_winWord_def x w hc]
  refine Nat.eq_of_testBit_eq fun i => ?_
  rw [testBit_bits, testBit_bits]
  by_cases hi : i < 31 + 1 - 16
  · have hmask : (BitVec.ofNat 32 0xFFFF0000).getLsbD (16 + i) = true := by
      have hall : ∀ i < 16, (BitVec.ofNat 32 0xFFFF0000).getLsbD (16 + i) = true := by decide
      exact hall i (by omega)
    have hclear : (BitVec.ofNat 32 0x8).getLsbD (16 + i) = false := by
      have hall : ∀ i < 16, (BitVec.ofNat 32 0x8).getLsbD (16 + i) = false := by decide
      exact hall i (by omega)
    have hin : 16 + i < 32 := by omega
    simp only [winCtlWord, regWrite, BitVec.getLsbD_and, BitVec.getLsbD_or, BitVec.getLsbD_not, hmask, hclear, hin, decide_true,
      Bool.not_true, Bool.and_false, Bool.false_or, Bool.and_true, Bool.not_false]
  · simp only [hi, decide_false, Bool.false_and]

end WinCtl

/-- What a window's command depends on: the windows' bounds, the cache division, the armed windows and their counts. -/
structure SameWindows (x y : Site) (w : Nat) : Prop where
  m : y.m = x.m
  base : ∀ k, winBase y k = winBase x k
  size : ∀ k, winSize y k = winSize x k
  rdef : winDef y w = winDef x w
  alloc : y.csrWord 0x40 = x.csrWord 0x40

theorem Site.winCtl_sameWindows {x : Site} (h : Map.wf (regReset siteRegs) x.csr = true) {w c : Nat} (hc : c < 4) :
    SameWindows x (x.csrPut (0x108 + 16 * w) (winCtlWord x w (winWord x w c))) w where
  m := rfl
  base k := by rw [winBase, Site.csrWord_csrPut_ne _ h (by omega)]; rfl
  size k := by rw [winSize, Site.csrWord_csrPut_ne _ h (by omega)]; rfl
  rdef := by rw [winDef, Site.csrWord_csrPut_self _ h, bits_winCtlWord_winWord x w hc]
  alloc := Site.csrWord_csrPut_ne _ h (by omega)

section Windows
variable {x y : Site} {w : Nat} (h : SameWindows x y w)
include h

theorem armable_sameWindows : armable y w = armable x w := by
  have hused : pwinUsed y w = pwinUsed x w := by simp only [pwinUsed, h.m, h.size]
  simp only [armable, hused, h.m, h.base, h.size, h.alloc]

/-- ARM FILLED and ARM EMPTY: every unit of the window counts RDEF or 0 readers (R263). -/
theorem winCmd_arms (harm : armable x w = true) {c : Nat} (hc : c ≠ 3) :
    winCmd y w c = some { y with m := { x.m with
      armed := if w ∈ x.m.armed then x.m.armed else x.m.armed ++ [w]
      count := Map.setMany (fun _ => 0) x.m.count (winBase x w) (List.replicate (winSize x w) (if c = 1 then winDef x w else 0)) } } := by
  rw [winCmd, if_neg hc, armable_sameWindows h, harm]
  simp only [Bool.not_true, Bool.false_eq_true, if_false, h.m, h.base, h.size, h.rdef, List.contains_iff_mem]

/-- DISARM: the counts of the window's units go (R263). -/
theorem winCmd_disarms (harmed : w ∈ x.m.armed) :
    winCmd y w 3 = some { y with m := { x.m with
      armed := x.m.armed.filter (· ≠ w)
      count := Map.clearRange x.m.count (winBase x w) (winBase x w + winSize x w) } } := by
  rw [winCmd, if_pos rfl]
  simp only [h.m, h.base, h.size, List.contains_iff_mem, harmed, if_true]

end Windows

/-- A command to a pull window, accepted: what its CMD makes of the site whose SITE_PWIN_CTL is written. -/
theorem State.winCtl_accepted {s : State} {n w c : Nat} (hn : n < 48) (hw : w < 8) (hc : c < 4) (hcmd : c ≠ 0)
    (haccept : s.siteRefused n (0x108 + 16 * w) (winWord (s.site n) w c) = none) {y : Site}
    (hy : winCmd ((s.site n).csrPut (0x108 + 16 * w) (winCtlWord (s.site n) w (winWord (s.site n) w c))) w c = some y) :
    s.checked (decide (n < nSites) && decide (w < 8)) (s.siteWrite true n (0x108 + 16 * w) (winWord (s.site n) w c)) =
      .next (s.setSite n y) := by
  refine s.checked_of (by simp only [nSites, hn, hw, decide_true, Bool.and_self]) ?_
  rw [State.siteWrite_accepted haccept, State.siteAccepted_winCtl s n hw]
  dsimp only
  rw [bits_winWord_cmd _ _ hc, if_neg hcmd, hy]
  rfl

end Sys2Proof.Machine
end

section
/-!
A disabled site (R270, R333): the lines of its ATOM part are written back, and its partition's work there ends.
-/

namespace Sys2Proof.Machine

/-- From x to y bytes are written that every unit reads as before, and the codes of what was written are formed anew. -/
structure WrittenBack (x y : Site) : Prop where
  frame : ∃ mem bad sealed cacheBad ueSeen injUnit csr, y = { x with
    m := { x.m with mem := mem, bad := bad, sealed := sealed, cacheBad := cacheBad, ueSeen := ueSeen }, injUnit := injUnit, csr := csr }
  wf : y.m.Wf
  regs : RegsKept (· = 0x30) x y
  plain : ∀ u, y.plainUnit u = x.plainUnit u

theorem WrittenBack.refl {x : Site} (h : x.m.Wf) (hcsr : Map.wf (regReset siteRegs) x.csr = true) : WrittenBack x x :=
  ⟨⟨_, _, _, _, _, _, _, rfl⟩, h, ⟨hcsr, fun _ _ => rfl⟩, fun _ => rfl⟩

theorem WrittenBack.trans {x y z : Site} (h : WrittenBack x y) (k : WrittenBack y z) : WrittenBack x z := by
  refine ⟨?_, k.wf, ⟨k.regs.wf, fun o ho => (k.regs.word o ho).trans (h.regs.word o ho)⟩, fun u => (k.plain u).trans (h.plain u)⟩
  obtain ⟨_, _, _, _, _, _, _, rfl⟩ := h.frame
  obtain ⟨mem, bad, sealed, cacheBad, ueSeen, injUnit, csr, rfl⟩ := k.frame
  exact ⟨mem, bad, sealed, cacheBad, ueSeen, injUnit, csr, rfl⟩

/-- A line written back holds what its unit reads as (R260, R270). -/
theorem writeBack_writtenBack {x : Site} (h : x.m.Wf) (hcsr : Map.wf (regReset siteRegs) x.csr = true) (u : Nat) :
    WrittenBack x (writeBack x u) := by
  have hbyte (a : Nat) : (x.putBytes (256 * u) (x.bytes (256 * u) 256)).plainByte a = x.plainByte a := by
    rw [Site.plainByte_putBytes h]
    split
    next hin =>
      rw [x.length_bytes] at hin
      rw [Site.nth_bytes _ _ (by omega), Nat.add_sub_cancel' hin.1]
    next => rfl
  refine ⟨?_, writeUnit_wf h _ _, ?_, fun v => ?_⟩
  · obtain ⟨bad, cacheBad, ueSeen, injUnit, csr, hwrite, -⟩ := writeUnit_frame x (256 * u) (x.bytes (256 * u) 256)
    obtain ⟨mem, sealed, hput⟩ := Site.putBytes_frame h (256 * u) (x.bytes (256 * u) 256)
    rw [writeBack, hwrite, hput]
    exact ⟨mem, bad, sealed, cacheBad, ueSeen, injUnit, csr, rfl⟩
  · obtain ⟨bad, cacheBad, ueSeen, injUnit, csr, hwrite, hregs⟩ := writeUnit_frame x (256 * u) (x.bytes (256 * u) 256)
    rw [writeBack, hwrite]
    exact ⟨(hregs hcsr).1, (hregs hcsr).2⟩
  · rw [writeBack, plainUnit_writeUnit hcsr, Site.plainUnit_eq, x.plainUnit_eq]
    exact List.map_congr_left fun i _ => hbyte _

theorem foldl_writeBack (l : List Nat) : ∀ {x : Site}, x.m.Wf → Map.wf (regReset siteRegs) x.csr = true →
    WrittenBack x (l.foldl writeBack x) := by
  induction l with
  | nil => exact fun h hcsr => .refl h hcsr
  | cons u l ih =>
    intro x h hcsr
    have hone := writeBack_writtenBack h hcsr u
    exact hone.trans (ih hone.wf hone.regs.wf)

/-- The site with what its partition has in flight there discarded (R270, R297, R321). -/
def dropWork (x : Site) : Site := { x with
  tempSub := none
  m := { x.m with queue := [], parked := [], armed := [], count := [], atom := [], accum := [] }
  red := { x.red with vc1 := [], stopped := [], started := false, bkts := [], held := x.red.held || x.red.started }
  upd := { x.upd with bt := [], queue := [], slots := 0, waitSlot := false, fired := [], taints := [], finished := false, partials := [] } }

/-- The site with its injection disarmed (R446). -/
def disarmed (x : Site) : Site := if 1 ≤ bits (x.csrWord 0x30) 30 28 then x.csrField 0x30 30 28 0 else x

/-- A site that holds no request answers none as its partition's work ends (R270). -/
theorem siteAbort_idle {x : Site} (hqueue : x.m.queue = []) (hparked : x.m.parked = []) (hmem : x.m.Wf)
    (hcsr : Map.wf (regReset siteRegs) x.csr = true) (e : SEnv) (free code : Nat) :
    ∃ y, WrittenBack x y ∧ siteAbort e { s := x, free := free } code = { s := dropWork y, free := free } := by
  have hback := foldl_writeBack x.m.atom hmem hcsr
  have habort : siteAbort e { s := x, free := free } code = { s := dropWork (disarmed (x.m.atom.foldl writeBack x)), free := free } := by
    simp only [siteAbort, hqueue, hparked, List.append_nil, List.foldl_nil]
    rfl
  refine ⟨_, hback.trans ?_, habort⟩
  generalize x.m.atom.foldl writeBack x = z at *
  unfold disarmed
  split
  · refine ⟨⟨_, _, _, _, _, _, _, rfl⟩, hback.wf, Site.csrPut_regsKept hback.regs.wf _ _, fun u => ?_⟩
    exact Site.plainUnit_of_mem (x := z) (y := z.csrField 0x30 30 28 0) rfl rfl (Site.csrWord_csrPut_ne _ hback.regs.wf (by decide)) rfl rfl rfl rfl u
  · exact .refl hback.wf hback.regs.wf

/-- Exports of a site stopped: FAULT shows one that ran (R333). -/
theorem stopExport_stops (x : Site) : ∃ csr, stopExport x = { x with csr := csr, exp := { x.exp with busy := false } } ∧
    (Map.wf (regReset siteRegs) x.csr = true → RegsKept (· = 0x614) x (stopExport x)) := by
  unfold stopExport
  by_cases hbusy : x.exp.busy = true
  · rw [if_pos hbusy]
    exact ⟨_, rfl, fun h => ⟨Map.wf_set h, fun o ho => Map.get_set_ne h ho⟩⟩
  · have hidle : { x.exp with busy := false } = x.exp := by rw [← Bool.eq_false_iff.mpr hbusy]
    rw [if_neg hbusy, hidle]
    exact ⟨_, rfl, fun h => ⟨h, fun _ _ => rfl⟩⟩

/-- A part of a command on a site that raises no record and returns no flit. -/
theorem State.onSite_of {s : State} {n : Nat} {f : SEnv → SS → SS} {y : Site}
    (hf : f (s.siteEnv n) { s := s.site n, free := s.free } = { s := y, free := s.free }) : s.onSite n f = s.setSite n y := by
  rw [State.onSite, hf]
  rfl

/-- A disabled site that holds no request, of a partition that runs no step (R270, R333). -/
theorem State.siteDisable_idle {s : State} {n : Nat} (hqueue : (s.site n).m.queue = []) (hparked : (s.site n).m.parked = [])
    (hstep : (s.part (s.site n).owner).step = false) (hmem : (s.site n).m.Wf) (hcsr : Map.wf (regReset siteRegs) (s.site n).csr = true) :
    ∃ y, WrittenBack (s.site n) y ∧ s.siteDisable n = s.setSite n { stopExport (dropWork y) with state := 3 } := by
  obtain ⟨y, hback, habort⟩ := siteAbort_idle hqueue hparked hmem hcsr (s.siteEnv n) s.free 0x18
  refine ⟨y, hback, ?_⟩
  rw [State.siteDisable]
  simp only [hstep, Bool.false_eq_true, if_false]
  exact State.onSite_of (by rw [habort]; rfl)

end Sys2Proof.Machine

namespace Sys2Proof
open Machine

/-- Settles O28: each command by the accepted write that it is; a disabled site by what its abort writes back and drops. -/
theorem siteWindowsAndOwner : Obligations.SiteWindowsAndOwner := by
  unfold Obligations.SiteWindowsAndOwner
  intro n s hn x hcsr
  refine ⟨?arm, ?disarm, ?alloc, ?own, ?disable, ?key⟩
  case arm =>
    intro w hw c hc haccept harm
    have arms {k : Nat} (hk : k < 3) (hcmd : k ≠ 0) (haccept : s.siteRefused n (0x108 + 16 * w) (winWord x w k) = none) :=
      State.winCtl_accepted hn hw (by omega) hcmd haccept
        (winCmd_arms (Site.winCtl_sameWindows hcsr (w := w) (c := k) (by omega)) harm (by omega))
    have hrdef (k : Nat) (hk : k < 4) := (Site.winCtl_sameWindows hcsr (w := w) hk).rdef
    rcases List.mem_pair.mp hc with rfl | rfl
    · exact ⟨_, arms (by decide) (by decide) haccept, hrdef 1 (by decide), rfl, rfl⟩
    · exact ⟨_, arms (by decide) (by decide) haccept, hrdef 2 (by decide), rfl, rfl⟩
  case disarm =>
    intro w hw haccept harmed
    exact ⟨_, State.winCtl_accepted hn hw (by decide) (by decide) haccept
      (winCmd_disarms (Site.winCtl_sameWindows hcsr (by decide)) harmed), rfl, rfl⟩
  case alloc =>
    intro v haccept
    exact (State.siteReg_accepted hn haccept).trans (congrArg _ (s.siteAccepted_alloc n v))
  case own =>
    intro v haccept
    have hexec := (State.siteReg_accepted hn haccept).trans (congrArg _ (s.siteAccepted_own n v))
    have howner {z : Site} (hz : Map.wf (regReset siteRegs) z.csr = true) : (z.csrPut 0x4 (ownWord x v)).owner = bits v 3 0 := by
      rw [Site.owner, Site.csrWord_csrPut_self _ hz, bits_ownWord]
    by_cases hsame : bits v 3 0 = x.owner
    · rw [if_pos hsame] at hexec
      refine ⟨_, hexec, howner hcsr, fun _ => ⟨rfl, fun o ho => Site.csrWord_csrPut_ne _ hcsr ho⟩, fun hne => ?_⟩
      exact absurd ((howner hcsr).trans hsame) hne
    · rw [if_neg hsame] at hexec
      generalize hkey : (if bits v 3 0 < 8 then (s.part (bits v 3 0)).key else 0) = key at hexec
      have hloaded : key ≠ 0 → bits v 3 0 < 8 := fun hsome => by
        by_contra hnot
        rw [if_neg hnot] at hkey
        exact hsome hkey.symm
      obtain ⟨⟨hwf, hword⟩, hleft, hcome⟩ := ownSite_regs hcsr hsame hloaded
      have hrest := ownSite_rest x (bits v 3 0) key
      have hput {o : Nat} (ho : o ≠ 0x4) := Site.csrWord_csrPut_ne (x := ownSite x (bits v 3 0) key) (ownWord x v) hwf ho
      refine ⟨_, hexec, howner hwf, fun heq => absurd ((howner hwf).symm.trans heq) hsame, fun _ => ?_⟩
      rw [howner hwf, hkey]
      refine ⟨?_, ?_, fun hpart => ?_, fun hsome => ?_, ?_, fun o hown hslots => ?_⟩
      · rw [hrest]; rfl
      · rw [hrest]; rfl
      · rw [hput (by decide)]
        exact hleft (of_decide_eq_true hpart)
      · rw [hput (by decide)]
        exact hcome hsome
      · rw [hrest]; rfl
      · exact (hput hown).trans (hword o hslots)
  case disable =>
    intro hqueue hparked hstep hmem hsealed
    obtain ⟨y, hback, hdisable⟩ := State.siteDisable_idle hqueue hparked hstep ⟨hmem, hsealed⟩ hcsr
    obtain ⟨csr, hstop, hregs⟩ := stopExport_stops (dropWork y)
    obtain ⟨-, hword⟩ := hregs hback.regs.wf
    have hkept (o : Nat) (hinj : o ≠ 0x30) (hexp : o ≠ 0x614) : (stopExport (dropWork y)).csrWord o = x.csrWord o :=
      (hword o hexp).trans (hback.regs.word o hinj)
    have hplain (u : Nat) : (stopExport (dropWork y)).plainUnit u = x.plainUnit u := by
      refine (Site.plainUnit_of_mem ?_ ?_ ?_ ?_ ?_ ?_ ?_ u).trans (hback.plain u)
      case refine_3 => exact hword 0x4 (by decide)
      all_goals rw [hstop]; rfl
    obtain ⟨mem, bad, sealed, cacheBad, ueSeen, injUnit, regs, hframe⟩ := hback.frame
    refine ⟨_, s.checked_of (decide_eq_true hn) hdisable, rfl, hplain, ?_, ?_, ?_, ?_, ?_, ?_, hkept⟩
    all_goals rw [hstop, hframe]; rfl
  case key =>
    intro p hp hkey
    obtain ⟨⟨-, hword⟩, hvalid, -, hcount⟩ := loadKey_loaded hcsr hp (s.part p).key
    exact ⟨_, s.checked_of (by simp only [nSites, nParts, hn, hp, decide_true, Bool.and_self]) (if_neg hkey), rfl, hvalid, hcount, rfl, hword⟩

end Sys2Proof
end

section
/-!
A reading of a stack sensor that enters or leaves level 4 (R269, R364), and the module's registers that its record writes (R443).
-/

namespace Sys2Proof.Machine

theorem thermLevel_le (l t : Nat) : thermLevel l t ≤ 4 := by
  unfold thermLevel
  dsimp only
  split_ifs <;> omega

/-- The register of the heat after a reading (R269). -/
def heatWord (x : Site) (temp : Nat) : Word :=
  BitVec.ofNat 32 (temp * 2 ^ 16 + max temp (bits (x.csrWord 0x10) 15 8) * 2 ^ 8 + thermLevel (bits (x.csrWord 0x10) 2 0) temp)

section Reading
variable {x : Site} {temp : Nat} (htemp : temp < 256) (hsub : x.tempSub = none)
include htemp hsub

theorem stackReading_eq : stackReading x temp = x.csrPut 0x10 (heatWord x temp) := by
  rw [stackReading, hsub, Option.getD_none, Nat.mod_eq_of_lt htemp, heatWord]

/-- LEVEL after a reading is that of Table 9.4. -/
theorem level_stackReading (hcsr : Map.wf (regReset siteRegs) x.csr = true) :
    bits ((stackReading x temp).csrWord 0x10) 2 0 = thermLevel (bits (x.csrWord 0x10) 2 0) temp := by
  have hlevel := thermLevel_le (bits (x.csrWord 0x10) 2 0) temp
  rw [stackReading_eq htemp hsub, Site.csrWord_csrPut_self _ hcsr, heatWord, bits, BitVec.toNat_ofNat, Nat.shiftRight_zero]
  omega

end Reading

theorem exec_stackThermalReading (s : State) {n temp : Nat} (hn : n < 48) (htemp : temp < 256) :
    exec (.stackThermalReading n temp) s = .next (s.stackTemp n temp) :=
  s.checked_of (by simp only [nSites, hn, htemp, decide_true, Bool.and_self]) rfl

/-- The record of a site whose stack has entered or left level 4, with the level that it has now (R364). -/
def thermRec (n m : Nat) (y : Site) : Rec := { source := 0x10, cls := 4, loc := siteLoc n, code := m, detail := [y.csrWord 0x10] }

/-- Entering or leaving level 4 is recorded and advised; level 4 while COOLST stands at 0 is reported (R269, R364). -/
theorem State.stackTemp_crosses {s : State} {n temp : Nat} (htemp : temp < 256) (hsub : (s.site n).tempSub = none)
    (hcsr : Map.wf (regReset siteRegs) (s.site n).csr = true) {l m : Nat} (hl : bits ((s.site n).csrWord 0x10) 2 0 = l)
    (hm : thermLevel l temp = m) (hcross : (l = 4) ≠ (m = 4)) :
    let y := (s.site n).csrPut 0x10 (heatWord (s.site n) temp)
    let u := ((s.setSite n y).raise (thermRec n m y)).post (min 8 (s.site n).owner) (.hostAdvisory (s.site n).owner 2 [n, m])
    s.stackTemp n temp = (if m = 4 ∧ bits (s.ez 0x30) 1 0 = 0 then u.post 8 (.notice 8 n) else u).reportGuar := by
  have hlevel := level_stackReading htemp hsub hcsr
  rw [hl, hm] at hlevel
  have hne : l ≠ m := fun heq => hcross (by rw [heq])
  have hadvised (a b : State) : (if 3 ≤ m then a else if l = 4 then a else b) = a := by
    by_cases hthree : 3 ≤ m
    · rw [if_pos hthree]
    · have hleft : l = 4 := by
        by_contra hnot
        exact hcross (by simp only [hnot, show ¬ m = 4 by omega])
      rw [if_neg hthree, if_pos hleft]
  intro y u
  rw [State.stackTemp]
  simp only [hl, hlevel, if_neg hne, if_neg hcross, hadvised, Bool.and_eq_true, decide_eq_true_eq]
  simp only [stackReading_eq htemp hsub, hsub]
  rfl

theorem State.post_ez (s : State) (ring : Nat) (m : Msg) (o : Nat) : (s.post ring m).ez o = s.ez o := by
  obtain ⟨mail, out, hpost⟩ := s.post_frame ring m
  rw [hpost]
  rfl

/-- Where the module's registers are in their canonical form, the record leaves COOLST as it stood. -/
theorem State.stackTemp_crosses_canonical {s : State} {n temp : Nat} (htemp : temp < 256) (hsub : (s.site n).tempSub = none)
    (hcsr : Map.wf (regReset siteRegs) (s.site n).csr = true) (hmod : Map.wf (regReset modRegs) s.mod.csr = true) {l m : Nat}
    (hl : bits ((s.site n).csrWord 0x10) 2 0 = l) (hm : thermLevel l temp = m) (hcross : (l = 4) ≠ (m = 4)) :
    let y := (s.site n).csrPut 0x10 (heatWord (s.site n) temp)
    let u := ((s.setSite n y).raise (thermRec n m y)).post (min 8 (s.site n).owner) (.hostAdvisory (s.site n).owner 2 [n, m])
    s.stackTemp n temp = (if m = 4 ∧ bits (u.ez 0x30) 1 0 = 0 then u.post 8 (.notice 8 n) else u).reportGuar := by
  intro y u
  have hcool : u.ez 0x30 = s.ez 0x30 := by
    obtain ⟨csr, log, hraise, hregs⟩ := State.raise_same (s := s.setSite n y) (r := thermRec n m y) (show (4 : Nat) ≠ 1 by decide)
    have hpost : u.ez 0x30 = ((s.setSite n y).raise (thermRec n m y)).ez 0x30 := State.post_ez _ _ _ _
    rw [hpost, hraise]
    exact (hregs hmod).2 0x30 (by decide)
  rw [hcool]
  exact State.stackTemp_crosses htemp hsub hcsr hl hm hcross

/-- No guarantee is reported where no partition has a job. -/
theorem State.reportGuar_noJobs {s : State} (h : ∀ p, (s.part p).job = none) : s.reportGuar = s := by
  unfold State.reportGuar
  refine List.foldlRecOn (motive := (· = s)) _ _ rfl fun u hu p _ => ?_
  rw [hu, h p]
  rfl

/-- A record that finds room in the log, which no other precedes, moves HEAD and SEQNO on (R443, R445). -/
theorem State.logRec_ez {s : State} (r : Rec) (hfirst : s.mod.log.last = [])
    (hroom : (bits (s.ez 0x6000) 13 0 + 1) % 16384 ≠ bits (s.ez 0x6004) 13 0) (o : Nat) :
    (s.logRec r).ez o =
      ((s.ezPut 0x6000 (BitVec.ofNat 32 ((bits (s.ez 0x6000) 13 0 + 1) % 16384))).ezPut 0x600C (s.ez 0x600C + 1)).ez o := by
  unfold State.logRec
  simp only [hfirst, List.any_nil, Bool.and_false, Bool.false_eq_true, if_false, if_neg hroom]
  rfl

/-- A message that the control complex sends, with no partition's guarantee to report behind it. -/
theorem State.post_reportGuar {s : State} (hup : s.mod.cc.up = true) (hparts : s.parts = []) (ring : Nat) (m : Msg) :
    (s.post ring m).reportGuar.outbox = s.outbox ++ [m] := by
  rw [State.post_up hup, State.reportGuar_noJobs fun p => by rw [State.part, State.say_parts, hparts]; rfl]
  rfl

theorem State.post_post_reportGuar {s : State} (hup : s.mod.cc.up = true) (hparts : s.parts = []) (ring next : Nat) (m k : Msg) :
    ((s.post ring m).post next k).reportGuar.outbox = s.outbox ++ [m, k] := by
  rw [State.post_up hup, State.post_reportGuar (s := s.say m) hup hparts, State.say_outbox, List.append_assoc]
  rfl

/-- A module whose COOLST stands out of its place, behind a HEAD that the next record sets to 0, and so reads 0 until then. -/
def hiddenCooling : State :=
  { State.reset with mod := { csr := [(0x6000, 16383#32), (0x30, 1#32), (0x6004, 1#32)], cc := { up := true } } }

section HiddenCooling
variable (n : Nat) (y : Site) {r : Rec} (hr : r.cls ≠ 1)
include hr

/-- The record leaves the control complex up, no partition and no message. -/
theorem hiddenCooling_raise : ((hiddenCooling.setSite n y).raise r).mod.cc.up = true ∧ ((hiddenCooling.setSite n y).raise r).parts = [] ∧
    ((hiddenCooling.setSite n y).raise r).outbox = [] := by
  obtain ⟨csr, log, hraise, -⟩ := State.raise_same (s := hiddenCooling.setSite n y) hr
  rw [hraise]
  exact ⟨rfl, rfl, rfl⟩

/-- The record uncovers COOLST. -/
theorem hiddenCooling_ez : ((hiddenCooling.setSite n y).raise r).ez 0x30 = 1#32 := by
  have hroom : (bits (hiddenCooling.ez 0x6000) 13 0 + 1) % 16384 ≠ bits (hiddenCooling.ez 0x6004) 13 0 := by decide
  have huncovered : ((hiddenCooling.ezPut 0x6000 (BitVec.ofNat 32 ((bits (hiddenCooling.ez 0x6000) 13 0 + 1) % 16384))).ezPut 0x600C
      (hiddenCooling.ez 0x600C + 1)).ez 0x30 = 1#32 := by decide
  rw [State.raise_soft hr]
  exact (State.logRec_ez (s := hiddenCooling.setSite n y) r rfl hroom 0x30).trans huncovered

/-- With COOLST read from behind the record no cooling fault is reported. -/
theorem hiddenCooling_advised (level ring : Nat) (m : Msg) :
    let u := ((hiddenCooling.setSite n y).raise r).post ring m
    (if level = 4 ∧ bits (u.ez 0x30) 1 0 = 0 then u.post 8 (.notice 8 n) else u).reportGuar.outbox = [m] := by
  obtain ⟨hup, hparts, hout⟩ := hiddenCooling_raise n y hr
  have hcool : (((hiddenCooling.setSite n y).raise r).post ring m).ez 0x30 = 1#32 := (State.post_ez ..).trans (hiddenCooling_ez n y hr)
  dsimp only
  rw [hcool, if_neg fun hreported => absurd hreported.2 (by decide), State.post_reportGuar hup hparts, hout, List.nil_append]

end HiddenCooling

/-- The model reads COOLST before the record, and reports the cooling fault. -/
theorem hiddenCooling_reported : (hiddenCooling.stackTemp 0 105).outbox = [.hostAdvisory 15 2 [0, 4], .notice 8 0] := by
  have hcrossed := State.stackTemp_crosses (s := hiddenCooling) (n := 0) (temp := 105) (l := 0) (m := 4) (by decide) rfl rfl (by decide)
    (by decide) (by decide)
  dsimp only at hcrossed
  obtain ⟨hup, hparts, hout⟩ := hiddenCooling_raise 0 ((hiddenCooling.site 0).csrPut 0x10 (heatWord (hiddenCooling.site 0) 105))
    (r := thermRec 0 4 ((hiddenCooling.site 0).csrPut 0x10 (heatWord (hiddenCooling.site 0) 105))) (show (4 : Nat) ≠ 1 by decide)
  rw [hcrossed, if_pos ⟨rfl, by decide⟩, State.post_post_reportGuar hup hparts, hout]
  rfl

end Sys2Proof.Machine

namespace Sys2Proof
open Machine

/-- Refutes O29: its premise leaves out the registers of the module. Where they are not in their canonical form, the record of the crossing can
change what COOLST reads as; the statement takes it from behind the record, the model from before it. Where they are, the clause
holds (`State.stackTemp_crosses_canonical`). -/
theorem not_siteCare : ¬ Obligations.SiteCare := by
  unfold Obligations.SiteCare
  intro h
  obtain ⟨-, -, -, hheat, -⟩ := h 0 hiddenCooling (by decide)
  obtain ⟨-, -, -, hcross⟩ := hheat 105 (by decide) rfl rfl
  obtain ⟨r, -, hcls, -, -, hstated⟩ := hcross (by decide) (by decide)
  have hmodel := exec_stackThermalReading hiddenCooling (n := 0) (temp := 105) (by decide) (by decide)
  have houtbox := congrArg State.outbox (Host.Outcome.next.inj (hmodel.symm.trans hstated))
  have hsoft : r.cls ≠ 1 := by rw [hcls]; decide
  rw [hiddenCooling_reported] at houtbox
  have hadvised := houtbox.trans (hiddenCooling_advised 0 _ hsoft _ _ _)
  exact absurd (congrArg List.length hadvised) (by decide)

end Sys2Proof
end

section
/-!
The update engine of a site (R305, R306, R309, R310, R321): a record bound, a carry copied, a block updated, its writes complete.
-/

namespace Sys2Proof.Machine

/-- A command on a site that draws no free value, raises no record and returns no flit. -/
theorem State.siteDo_of {s : State} {n : Nat} (hn : n < 48) {f : SEnv → SS → SS} {y : Site}
    (hf : f (s.siteEnv n) { s := s.site n, free := s.free } = { s := y, free := s.free }) : s.siteDo n f = .next (s.setSite n y) :=
  s.checked_of (decide_eq_true hn) (State.onSite_of hf)

/-- The engine's state with the next record of the list taken (R310). -/
def nextBound (x : Site) (b : Nat) : SiteUpd :=
  { x.upd with next := x.upd.next + 1, slots := x.upd.slots + bindTier b, waitSlot := false }

/-- The entry of the next record of the list, with its landing slot where it is of Stratus (R310, R312). -/
def boundEntry (x : Site) (b : Nat) : BtEntry where
  bind := b
  idx := x.upd.next
  res := if bindTier b = 0 then 1 else 2
  fired := false
  slot := if bindTier b = 0 then 0 else freeLanding x

section Bind
variable {x : Site} (hmay : mayBind x = true) (e : SEnv) (free : Nat)
include hmay

/-- A record that is no carry takes its entry (R310). -/
theorem bindRecord_binds {b : Nat} (hb : bindRec x x.upd.next = b) (hcarry : bindCarry b = false) : bindRecord e { s := x, free := free } =
    { s := btSet { x with upd := nextBound x b } (bindBlock b % 16384) (boundEntry x b), free := free } := by
  unfold bindRecord
  simp only [hmay, hb, hcarry, Bool.not_true, Bool.false_eq_true, if_false]
  rfl

/-- In lean mode a carry has nothing to copy (R309). -/
theorem bindRecord_leanCarry {b : Nat} (hb : bindRec x x.upd.next = b) (hcarry : bindCarry b = true) (hlean : leanMode x = true) :
    bindRecord e { s := x, free := free } =
      { s := { x with upd := { nextBound x b with proc := x.upd.proc + 1, slots := x.upd.slots } }, free := free } := by
  unfold bindRecord
  simp only [hmay, hb, hcarry, hlean, Bool.not_true, Bool.false_eq_true, if_false, if_true]
  rfl

/-- A carry of HBM does its work at once (R309, R310). -/
theorem bindRecord_carries {b : Nat} (hb : bindRec x x.upd.next = b) (hcarry : bindCarry b = true) (hlean : leanMode x = false)
    (htier : bindTier b = 0) :
    let en : BtEntry := { bind := b, idx := x.upd.next, res := 1, fired := true }
    bindRecord e { s := x, free := free } = carry e { s := btSet { x with upd := nextBound x b } (bindBlock b % 16384) en, free := free } en := by
  unfold bindRecord
  simp only [hmay, hb, hcarry, hlean, htier, Bool.not_true, Bool.false_eq_true, if_false, if_true, Nat.zero_ne_one, decide_false,
    Bool.false_and]
  simp only [nextBound, htier]

end Bind

/-- The site with the live half of a record copied to its shadow half (R309). -/
def carried (x : Site) (b : Nat) : Site :=
  writeUnits x (256 * halfUnit x b (workHalf x)) (x.bytes (256 * halfUnit x b (liveHalf x)) (256 * recu x (bindGroup b)))

/-- The live half copied to the shadow half, where its units are read without an error (R309). -/
theorem carry_copies {e : SEnv} {x : Site} {en : BtEntry} {free : Nat} (hlean : leanMode x = false) (htier : bindTier en.bind = 0)
    (hread : readHalf e (bindGroup en.bind) (halfUnit x en.bind (liveHalf x)) { s := x, free := free } = ({ s := x, free := free }, false)) :
    carry e { s := x, free := free } en = { s := carried x en.bind, free := free } := by
  have hlive : liveUnit x en = halfUnit x en.bind (liveHalf x) := by rw [liveUnit, htier]; rfl
  unfold carry
  simp only [hlean, hlive, hread, Bool.false_eq_true, if_false, SS.upd]
  rfl

/-- The site whose entry k has fired, with the blocks `l` still waiting (R310). -/
def firedSite (y : Site) (k : Nat) (en : BtEntry) (l : List Nat) : Site :=
  let z := btSet y k { en with fired := true }
  { z with upd := { z.upd with queue := l } }

section Update
variable {x : Site} {k : Nat} {l : List Nat} {en : BtEntry} {blk : EngBlk} (hqueue : x.upd.queue = k :: l) (hentry : btGet x k = some en)
  (hgot : en.got = some blk) (e : SEnv) (free : Nat)
include hqueue hentry hgot

/-- In a tainted step the block is freed (R321). -/
theorem blockUpdate_tainted (htaint : tainted x = true) : blockUpdate e { s := x, free := free } =
    { s := { btFree x k with upd := { (btFree x k).upd with queue := l } }, free := free } := by
  unfold blockUpdate
  simp only [hqueue, hentry, hgot, htaint, if_true]
  rfl

/-- The first block that waits fires once its update is computed, of a group whose blocks the fold does not rewrite (R310, R324). -/
theorem blockUpdate_fires (htaint : tainted x = false) (hres : en.res ≠ 2) (hgoing : x.upd.stopped = false) {y : Site}
    (hupdate : updateBlock e { s := x, free := free } en blk = { s := y, free := free }) (hclip : grpClip y (bindGroup en.bind) = 0) :
    blockUpdate e { s := x, free := free } = { s := firedSite y k en l, free := free } := by
  unfold blockUpdate
  simp only [hqueue, hentry, hgot, htaint, hres, hgoing, hupdate, hclip, SS.upd, Bool.false_eq_true, if_false, decide_false, Bool.or_self,
    Nat.zero_ne_one, Bool.and_false]
  rw [← hgot]
  rfl

end Update

/-- The update of a block of a training group by a built-in optimizer, without clipping, of a live state that is read without an error, and
whose new state is finite (R305 to R307). -/
theorem updateBlock_optimizes {e : SEnv} {x y : Site} {en : BtEntry} {blk : EngBlk} {free : Nat} (hunparked : en.parked = false)
    (htrains : trains x (bindGroup en.bind) = true) (hclip : grpClip x (bindGroup en.bind) = 0) (hopt : grpOpt x (bindGroup en.bind) ≠ 4)
    (hread : readState e (bindGroup en.bind) (liveUnit x en) { s := x, free := free } = ({ s := x, free := free }, false))
    (hwrite : writeHalf (!leanMode x) x en.bind blk.mask (liveUnit x en) (List.range (readParts x (bindGroup en.bind) (liveUnit x en)).length)
      (List.zipWith (fun v old => (optElem (grpOpt x (bindGroup en.bind)) (optConst x (bindGroup en.bind)) v old).map toF32)
        (blk.vals.map (gradElem x)) (byElem (readParts x (bindGroup en.bind) (liveUnit x en)))) = (y, false)) :
    updateBlock e { s := x, free := free } en blk = { s := { y with upd := { y.upd with updated := true } }, free := free } := by
  have hvals : blockVals x en blk = blk.vals := by rw [blockVals, hunparked]; rfl
  unfold updateBlock
  simp only [htrains, hread, hunparked, hclip, hopt, hvals, hwrite, Bool.not_true, Bool.false_eq_true, if_false, if_true,
    show ¬ (0 : Nat) = 3 by decide]

/-- The writes of the only update that has fired are complete (R310). -/
theorem updateComplete_one {x : Site} {k : Nat} {en : BtEntry} (hfired : x.upd.bt.filter (fun e => e.2.fired) = [(k, en)]) :
    updateComplete x = { btFree x k with upd := { (btFree x k).upd with
      proc := x.upd.proc + 1, slots := x.upd.slots - bindTier en.bind } } := by
  unfold updateComplete
  simp only [hfired, List.foldl_nil]
  rfl

end Sys2Proof.Machine
end

section
/-!
What a site tells DSITE (R319, R320, R321): that it has finished, and the taints that it found.
-/

namespace Sys2Proof.Machine

/-- A site that has finished, with no taint to pass on, sends its sum of squares to DSITE (R319). -/
theorem State.siteFinish_sends {s : State} {n d : Nat} (hd : s.dsite (s.site n).owner = d) (howner : (s.site n).owner < 8) (hlt : d < 48)
    (htaints : (s.site n).upd.taints = []) (hrun : pavState (s.site n) = 1) (hfirst : (s.site n).upd.finished = false)
    (hfinished : siteFinished (s.site n) = true) :
    let s1 := s.setSite n { s.site n with upd := { (s.site n).upd with finished := true } }
    let s2 := s1.setSite d { s1.site d with upd := { (s1.site d).upd with
      partials := Map.set (fun _ => 0#64) (s1.site d).upd.partials n (ssq (s.site n)) } }
    s.siteFinish n = if s2.allFinished (s.site n).owner then s2.eachSite (s.site n).owner fun z => z.csrField 0x624 3 0 2 else s2 := by
  have howned : ¬ 8 ≤ (s.site n).owner := Nat.not_le.mpr howner
  have hthere : ¬ nSites ≤ d := Nat.not_le.mpr hlt
  rw [State.siteFinish]
  simp only [htaints, List.isEmpty_nil, if_true, hd, howned, hthere, hrun, hfirst, hfinished, ne_eq, not_true_eq_false, decide_false,
    Bool.not_true, Bool.or_self, Bool.false_eq_true, if_false]

/-- DSITE with a taint noted: the first sets TAINT and CAUSE (R320). -/
def notedTaint (y : Site) (causes : List Nat) : Site :=
  let z := if tainted y then y else (y.csrField 0x624 23 20 (causes.headD 0)).csrField 0x624 16 16 1
  { z with upd := { z.upd with halving := z.upd.halving || causes.any fun c => c ≤ 4 || c = 7 } }

/-- The first taint of a step at DSITE: its word. -/
theorem csrWord_notedTaint {y : Site} (hcsr : Map.wf (regReset siteRegs) y.csr = true) (huntainted : tainted y = false) (c : Nat) (l : List Nat) :
    (notedTaint y (c :: l)).csrWord 0x624 = setBits (setBits (y.csrWord 0x624) 23 20 c) 16 16 1 := by
  have hput : (notedTaint y (c :: l)).csrWord 0x624 = ((y.csrField 0x624 23 20 c).csrField 0x624 16 16 1).csrWord 0x624 := by
    simp only [notedTaint, huntainted, Bool.false_eq_true, if_false]
    rfl
  rw [hput, Site.csrField, Site.csrWord_csrPut_self _ (Map.wf_set hcsr), Site.csrField, Site.csrWord_csrPut_self _ hcsr]

theorem notedTaint_fields {y : Site} (hcsr : Map.wf (regReset siteRegs) y.csr = true) (huntainted : tainted y = false) {c : Nat} (hc : c < 16)
    (l : List Nat) : tainted (notedTaint y (c :: l)) = true ∧ bits ((notedTaint y (c :: l)).csrWord 0x624) 23 20 = c ∧
      pavState (notedTaint y (c :: l)) = pavState y := by
  rw [tainted, pavState, csrWord_notedTaint hcsr huntainted]
  refine ⟨?_, ?_, ?_⟩
  · rw [bit_setBits_self _ (by decide)]
    rfl
  · rw [bits_setBits_apart _ (by decide) _ (by decide), bits_setBits_self _ (by decide) hc]
  · rw [bits_setBits_apart _ (by decide) _ (by decide), bits_setBits_apart _ (by decide) _ (by decide)]
    rfl

/-- Outside FOLD, DSITE notes what it is told and no outcome follows yet (R320). -/
theorem State.taintAt_notes {s : State} {p d : Nat} (hd : s.dsite p = d) (hlo : 1 ≤ pavState (s.site d)) (hhi : pavState (s.site d) ≤ 2)
    {causes : List Nat} (hsome : causes ≠ []) : s.taintAt p causes = s.setSite d (notedTaint (s.site d) causes) := by
  have hempty : causes.isEmpty = false := by simpa using hsome
  have hthree : pavState (s.site d) ≤ 3 := by omega
  have hfold : ¬ pavState (s.site d) = 3 := by omega
  rw [State.taintAt]
  simp only [hd, hempty, hlo, hthree, hfold, decide_true, Bool.and_self, Bool.not_true, Bool.or_self, Bool.false_eq_true, if_false]
  rfl

/-- A site whose registers stand keeps DSITE where it is (R328). -/
theorem State.dsite_setSite {s : State} (hs : s.Canon) {n : Nat} {x : Site} (hcsr : x.csr = (s.site n).csr) (p : Nat) :
    (s.setSite n x).dsite p = s.dsite p := by
  have hword (k o : Nat) : ((s.setSite n x).site k).csrWord o = (s.site k).csrWord o := by
    by_cases hk : k = n
    · rw [hk, State.setSite_site_self hs.sites, Site.csrWord, hcsr]
      rfl
    · rw [State.setSite_site_ne hs.sites hk]
  have hsites : (s.setSite n x).sitesOf p = s.sitesOf p :=
    List.filter_congr fun k _ => by rw [Site.owner, Site.owner, hword]
  rw [State.dsite, State.dsite, hsites]
  split
  · rfl
  · rw [hword]

/-- The site with its taints passed on. -/
def passedOn (x : Site) : Site := { x with upd := { x.upd with taints := [] } }

/-- What another site found reaches DSITE, and the taint reaches that site (R320, R321). -/
theorem State.taintPropagate_reaches {s : State} (hs : s.Canon) {n d : Nat} (hd : s.dsite (s.site n).owner = d) (howner : (s.site n).owner < 8)
    (hlt : d < 48) (hne : d ≠ n) (hlo : 1 ≤ pavState (s.site d)) (hhi : pavState (s.site d) ≤ 2) (huntainted : tainted (s.site d) = false)
    {c : Nat} {l : List Nat} (htaints : (s.site n).upd.taints = c :: l) (hc : c < 16) :
    s.taintPropagate n = ((s.setSite n (passedOn (s.site n))).setSite d (notedTaint (s.site d) (c :: l))).setSite n
      (taintSite (passedOn (s.site n))) := by
  have howned : ¬ 8 ≤ (s.site n).owner := Nat.not_le.mpr howner
  have hthere : ¬ nSites ≤ d := Nat.not_le.mpr hlt
  have hthree : pavState (s.site d) ≤ 3 := by omega
  obtain ⟨htainted, -, hstate⟩ := notedTaint_fields (hs.siteCsr d) huntainted hc l
  have hsame : (s.setSite n (passedOn (s.site n))).dsite (s.site n).owner = d := (State.dsite_setSite hs (x := passedOn (s.site n)) rfl _).trans hd
  have hself : (s.setSite n (passedOn (s.site n))).site n = passedOn (s.site n) := State.setSite_site_self hs.sites
  have hkept : (s.setSite n (passedOn (s.site n))).site d = s.site d := State.setSite_site_ne hs.sites hne
  have hwf : Map.wf blankSite (s.setSite n (passedOn (s.site n))).sites = true := Map.wf_set hs.sites
  have hunfold : s.taintPropagate n = (let s1 := (s.setSite n (passedOn (s.site n))).taintAt (s.site n).owner (c :: l)
      if tainted (s1.site d) && 1 ≤ pavState (s1.site d) && decide (pavState (s1.site d) ≤ 3) then s1.setSite n (taintSite (s1.site n))
      else s1) := by
    rw [State.taintPropagate]
    simp only [hd, howned, hthere, decide_false, Bool.or_self, Bool.false_eq_true, if_false, htaints]
    rfl
  rw [hunfold]
  generalize s.setSite n (passedOn (s.site n)) = v at *
  rw [← hkept] at hlo hhi
  rw [State.taintAt_notes hsame hlo hhi (List.cons_ne_nil c l), hkept]
  dsimp only
  rw [State.setSite_site_self hwf, State.setSite_site_ne hwf (Ne.symm hne), hself, htainted, hstate, ← hkept]
  rw [← hkept] at hthree
  simp only [hlo, hthree, decide_true, Bool.and_self, if_true]

end Sys2Proof.Machine

namespace Sys2Proof
open Machine

/-- Settles O30: each command by what it does where nothing holds it back; what a taint leaves of the two sites by the writes of each. -/
theorem engineBlocks : Obligations.EngineBlocks := by
  unfold Obligations.EngineBlocks
  intro n s hn x b d u
  refine ⟨?bind, ?lean, ?carry, ?update, ?complete, ?finished, ?taint⟩
  case bind => exact fun hmay hcarry => State.siteDo_of hn (bindRecord_binds hmay _ _ rfl hcarry)
  case lean => exact fun hmay hcarry hlean => State.siteDo_of hn (bindRecord_leanCarry hmay _ _ rfl hcarry hlean)
  case carry =>
    intro hmay hcarry hlean htier y live hread
    exact State.siteDo_of hn ((bindRecord_carries hmay _ _ rfl hcarry hlean htier).trans (carry_copies (x := y) hlean htier hread))
  case update =>
    intro k l en blk hqueue hentry hgot
    refine ⟨fun htaint => State.siteDo_of hn (blockUpdate_tainted hqueue hentry hgot _ _ htaint), ?_⟩
    intro htaint hres hgoing hunparked g lu htrains hclip hopt hread live new y hwrite hclip'
    exact State.siteDo_of hn (blockUpdate_fires hqueue hentry hgot _ _ htaint hres hgoing
      (updateBlock_optimizes hunparked htrains hclip hopt hread hwrite) hclip')
  case complete =>
    intro k en hfired
    exact State.siteDo_of hn (congrArg (fun z : Site => ({ s := z, free := s.free } : SS)) (updateComplete_one hfired))
  case finished =>
    intro howner hd htaints hrun hfirst hfinished s1 y s2
    exact s.checked_of (decide_eq_true hn) (State.siteFinish_sends rfl howner hd htaints hrun hfirst hfinished)
  case taint =>
    intro howner hd hne hcanonical y hcsr hlo hhi c l htaints hc huntainted
    have hs := State.canon hcanonical
    have hreach := State.taintPropagate_reaches hs rfl howner hd hne hlo hhi huntainted htaints hc
    obtain ⟨htainted, hcause, hstate⟩ := notedTaint_fields hcsr huntainted hc l
    refine ⟨_, s.checked_of (decide_eq_true hn) hreach, ?_⟩
    rw [State.setSite_site_ne (Map.wf_set (Map.wf_set hs.sites)) hne, State.setSite_site_self (Map.wf_set hs.sites),
      State.setSite_site_self (Map.wf_set (Map.wf_set hs.sites))]
    exact ⟨htainted, hcause, hstate, rfl, rfl, rfl, rfl⟩

end Sys2Proof
end

section
/-!
The reduction at a site (R282, R289 to R291, R294, R295): root flits taken and relayed, the retry decided, the window opened.
-/

namespace Sys2Proof.Machine

/-- A part of a command on a site that draws no free value, returns no flit and raises one record. -/
theorem State.onSite_raises {s : State} {n : Nat} {f : SEnv → SS → SS} {y : Site} {r : Rec}
    (hf : f (s.siteEnv n) { s := s.site n, free := s.free } = { s := y, free := s.free, recs := [r] }) :
    s.onSite n f = (s.setSite n y).raise r := by
  rw [State.onSite, hf]
  rfl

/-- The flit `f` at the front of link j for descriptor d, whose valid entry names that link as its input (R282). -/
structure AtRoot (x : Site) (d j : Nat) (f : RedFlit) : Prop where
  front : redFront x d = some (j, f)
  going : d ∉ x.red.stopped
  loaded : bit (siteRdesc x d) 31 = true
  input : rdIn (siteRdesc x d) = j

section Root
variable {x : Site} {d j : Nat} {f : RedFlit} (h : AtRoot x d j f) {vp : Nat → Nat} (howner : vp j = x.owner) (e : SEnv) (free : Nat)
include h howner

/-- A flit of a root whose record lies in the window, and which repeats nothing, is taken into its block (R289). -/
theorem redRoot_takes {i k : Nat} (hroot : bit (siteRdesc x d) 30 = false) (hrecord : bktFind x f.bucket = some i)
    (hstarted : x.red.started = true) (hlow : x.red.head ≤ i) (hhigh : i < x.red.head + 64) (hstream : streamFor x i d f = some k)
    (hnew : rootRepeats x i k f = false) :
    redRoot e { s := x, free := free } d vp = { x := { s := takeRoot (popVc1 x j d) i k f, free := free }, freed := some j } := by
  rw [redRoot]
  simp only [h.front, List.contains_iff_mem, h.going, howner, h.loaded, h.input, hroot, hrecord, hstarted, Nat.not_le.mpr hhigh,
    Nat.not_lt.mpr hlow, hstream, hnew, ne_eq, not_true_eq_false, decide_false, Bool.not_true, Bool.or_self, Bool.false_eq_true, if_false]
  rfl

/-- A flit of a relaying entry is handed to its output link (R282). -/
theorem redRoot_relays (hrelay : bit (siteRdesc x d) 30 = true) :
    redRoot e { s := x, free := free } d vp =
      { x := { s := popVc1 x j d, free := free }, freed := some j, relay := some (rdRelay (siteRdesc x d), f) } := by
  rw [redRoot]
  simp only [h.front, List.contains_iff_mem, h.going, howner, h.loaded, h.input, hrelay, ne_eq, not_true_eq_false, decide_false,
    Bool.not_true, Bool.or_self, Bool.false_eq_true, if_false, if_true]
  rfl

end Root

section RootFlit
variable {s : State} {n d j : Nat} {f : RedFlit} (hn : n < 48) (hd : d < 256) (h : AtRoot (s.site n) d j f)
  (howner : s.fieldOwner (fieldOf (linkTile n j).1) = (s.site n).owner)
include hn hd h howner

/-- A root flit is taken into its block, and its slot is free again (R283, R289). -/
theorem exec_redRootFlit_takes {i k : Nat} (hroot : bit (siteRdesc (s.site n) d) 30 = false)
    (hrecord : bktFind (s.site n) f.bucket = some i) (hstarted : (s.site n).red.started = true) (hlow : (s.site n).red.head ≤ i)
    (hhigh : i < (s.site n).red.head + 64) (hstream : streamFor (s.site n) i d f = some k) (hnew : rootRepeats (s.site n) i k f = false) :
    exec (.redRootFlit n d) s = .next ((s.setSite n (takeRoot (popVc1 (s.site n) j d) i k f)).setTile (linkTile n j).1
      (creditBack (s.tile (linkTile n j).1) d)) := by
  have hroom : s.relayRoom n d = true := by rw [State.relayRoom, hroot]; rfl
  refine s.checked_of (Bool.and_eq_true_iff.mpr ⟨decide_eq_true hn, decide_eq_true hd⟩) ?_
  rw [State.redRootFlit, redRoot_takes h howner _ _ hroot hrecord hstarted hlow hhigh hstream hnew, hroom]
  rfl

/-- A relayed flit leaves through its output link, with the epoch of that field, while a slot is free there and the link is whole
(R241, R282, R283). -/
theorem exec_redRootFlit_relays (hrelay : bit (siteRdesc (s.site n) d) 30 = true) {out : Nat × Nat}
    (hout : linkTile n (rdRelay (siteRdesc (s.site n) d)) = out)
    (hslot : (redBuf (s.tile out.1) d out.2).length < vc1Slots (bits (siteRdesc (s.site n) d) 27 26))
    (hlive : s.live (fieldOf out.1) = true) (hwhole : out.2 ∉ (s.tile out.1).rtr.linkFail)
    (hcrc : Map.get (fun _ => 0) (s.tile out.1).rtr.edgeBad out.2 = 0) :
    let u := (s.setSite n (popVc1 (s.site n) j d)).setTile (linkTile n j).1 (creditBack (s.tile (linkTile n j).1) d)
    exec (.redRootFlit n d) s = .next (u.setTile out.1 (setRedBuf (u.tile out.1) d out.2
      (redBuf (u.tile out.1) d out.2 ++ [{ f with ep := s.activeBank (fieldOf out.1) }]))) := by
  intro u
  have hroom : s.relayRoom n d = true := by
    simp only [State.relayRoom, hout, List.contains_eq_mem, hwhole, hslot, decide_true, decide_false, Bool.not_false, Bool.and_self,
      Bool.or_true]
  have hsent : u.relayOut n d (some (rdRelay (siteRdesc (s.site n) d), f)) = u.setTile out.1 (setRedBuf (u.tile out.1) d out.2
      (redBuf (u.tile out.1) d out.2 ++ [{ f with ep := s.activeBank (fieldOf out.1) }])) := by
    rw [State.relayOut, hout]
    exact if_pos hlive
  refine s.checked_of (Bool.and_eq_true_iff.mpr ⟨decide_eq_true hn, decide_eq_true hd⟩) ?_
  rw [State.redRootFlit, redRoot_relays h howner _ _ hrelay, hroom]
  simp only [hout, hcrc, Nat.lt_irrefl, Bool.not_true, Bool.false_eq_true, if_false]
  exact hsent

end RootFlit

/-- The complete blocks of the retry of record i. -/
def retrySums (x : Site) (i : Nat) : List RedBlk := (bktGet x i).blocks.filter fun r => r.stream = 2 && blkDone x i r

/-- A block of the retry equals the sum of stream k (R295). -/
def retryEquals (x : Site) (i k : Nat) (r : RedBlk) : Bool :=
  match redBlk (bktGet x i) k r.block with
  | some p => blkEq (bktFlits x i) p r
  | none => false

/-- The outcome of Table 10.9: the retry equals the primary sums, or the mirror sums of the chosen blocks, or neither. -/
def retryOutcome (x : Site) (i : Nat) : Nat :=
  if (retrySums x i).all (retryEquals x i 0) then 1
  else if (retrySums x i).all fun r => !siteChosen x i r.block || retryEquals x i 1 r then 2
  else 3

/-- The site with that outcome in the state of the bucket (R295). -/
def retryDecided (x : Site) (i : Nat) : Site :=
  bktSet x i { bktGet x i with
    decided := decide (retryOutcome x i ≠ 3)
    useRetry := decide (retryOutcome x i = 2)
    unresolved := decide (retryOutcome x i = 3) }

/-- A complete retry is decided, and the decision recorded (R295, R296). -/
theorem retryDecision_decides {x : Site} (hresent : (bktGet x x.red.head).resent = true) (hopen : (bktGet x x.red.head).decided = false)
    (hresolved : (bktGet x x.red.head).unresolved = false) (hretry : bktBlocks x x.red.head ≤ (retrySums x x.red.head).length)
    (e : SEnv) (free : Nat) :
    ∃ (y : Site) (r : Rec), retryDecision e { s := x, free := free } = { s := y, free := free, recs := [r] } ∧
      r.source = 0x06 ∧ r.loc = siteLoc e.id ∧ r.cls = (if retryOutcome x x.red.head = 3 then 1 else 2) ∧
      y.red = (retryDecided x x.red.head).red := by
  have hdecides : (!(bktGet x x.red.head).resent || (bktGet x x.red.head).decided || (bktGet x x.red.head).unresolved ||
      decide ((retrySums x x.red.head).length < bktBlocks x x.red.head)) = false := by
    simp only [hresent, hopen, hresolved, Nat.not_lt.mpr hretry, Bool.not_true, Bool.or_self, decide_false]
  unfold retrySums at hdecides
  unfold retryDecision
  dsimp only
  rw [hdecides, if_neg Bool.false_ne_true]
  have hmismatch (c : Bool) (z : Site) (v : Nat) : (if c then z.csrField 0x78 30 29 v else z).red = z.red := by
    cases c with
    | false => rfl
    | true => rfl
  exact ⟨_, _, rfl, rfl, rfl, rfl, hmismatch _ _ _⟩

/-- The command decides the retry of its site (R295). -/
theorem exec_retryDecision_decides {s : State} {n : Nat} (hn : n < 48) {x : Site} (hx : s.site n = x)
    (hresent : (bktGet x x.red.head).resent = true) (hopen : (bktGet x x.red.head).decided = false)
    (hresolved : (bktGet x x.red.head).unresolved = false) (hretry : bktBlocks x x.red.head ≤ (retrySums x x.red.head).length) :
    ∃ (y : Site) (r : Rec), exec (.retryDecision n) s = .next ((s.setSite n y).raise r) ∧
      r.source = 0x06 ∧ r.loc = siteLoc n ∧ r.cls = (if retryOutcome x x.red.head = 3 then 1 else 2) ∧
      y.red = (retryDecided x x.red.head).red := by
  subst hx
  obtain ⟨y, r, hdecides, hrest⟩ := retryDecision_decides hresent hopen hresolved hretry (s.siteEnv n) s.free
  exact ⟨y, r, s.checked_of (decide_eq_true hn) (State.onSite_raises hdecides), hrest⟩

/-- A write of SITE_RED_STEP opens the window at the first record (R291). -/
theorem State.siteAccepted_redStep (s : State) (n : Nat) (v : Word) : s.siteAccepted n 0x64 v = s.setSite n (redStepWrite (s.site n) v) := rfl

/-- The accepted command leaves the site so. -/
theorem exec_siteRedStepWrite_opens {s : State} {n : Nat} (hn : n < 48) {v : Word} (h : s.siteRefused n 0x64 v = none) :
    exec (.siteRedStepWrite true n v) s = .next (s.setSite n (redStepWrite (s.site n) v)) :=
  (State.siteReg_accepted hn h).trans (congrArg _ (s.siteAccepted_redStep n v))

end Sys2Proof.Machine
end

section
/-!
The commit of the bucket at the head of the window (R279, R290, R294).
-/

namespace Sys2Proof.Machine

/-- The complete bucket at the head may commit: the window is open, no retry has failed and the engine has not stopped (R290, R295, R311). -/
structure CommitReady (x : Site) : Prop where
  started : x.red.started = true
  undone : redDone x = false
  complete : bktComplete x x.red.head = true
  resolved : (bktGet x x.red.head).unresolved = false
  going : x.upd.stopped = false

/-- The site whose head has moved past record i (R290). -/
def headPassed (x : Site) (i : Nat) : Site := { x with red := { x.red with head := i + 1, bkts := Map.erase x.red.bkts i } }

section Commit
variable {x : Site} (h : CommitReady x) (e : SEnv) (free : Nat)
include h

/-- A marked bucket gets the resend verdict first (R294). -/
theorem bucketCommit_resends (hmarked : (bktGet x x.red.head).marked = true) (hopen : (bktGet x x.red.head).decided = false)
    (hfirst : (bktGet x x.red.head).resent = false) :
    bucketCommit e { s := x, free := free } =
      { x := { s := bktSet x x.red.head { bktGet x x.red.head with resent := true }, free := free }
        acks := [bktAckOut x x.red.head true] } := by
  rw [bucketCommit]
  simp only [h.started, h.undone, h.complete, h.resolved, h.going, hmarked, hopen, hfirst, Bool.not_true, Bool.not_false, Bool.or_self,
    Bool.and_self, Bool.false_eq_true, if_false, if_true]

/-- A bucket that is not marked, and whose last block passes on, is acknowledged as the site stood before it (R279, R290). -/
theorem bucketCommit_commits (hmarked : (bktGet x x.red.head).marked = false) {y : SS} {m : Nat}
    (hpassed : passAll e x.red.head ((commitBlocks (bktGet x x.red.head)).drop (bktGet x x.red.head).passed) { s := x, free := free } = (y, m))
    (hall : (commitBlocks (bktGet x x.red.head)).length ≤ (bktGet x x.red.head).passed + m) :
    bucketCommit e { s := x, free := free } =
      { x := { y with s := headPassed y.s x.red.head }, acks := [bktAckOut x x.red.head false] } := by
  rw [bucketCommit]
  simp only [h.started, h.undone, h.complete, h.resolved, h.going, hmarked, hpassed, Nat.not_lt.mpr hall, Bool.not_true, Bool.or_self,
    Bool.false_and, Bool.false_eq_true, if_false]
  rfl

end Commit

/-- What a commit leaves: the site, the acknowledgements that it sends, the records that it raises. -/
theorem exec_bucketCommit {s : State} {n : Nat} (hn : n < 48) {y : SS} {l : List (Nat × BktAck)}
    (h : bucketCommit (s.siteEnv n) { s := s.site n, free := s.free } = { x := y, acks := l }) :
    exec (.bucketCommit n) s = .next (((({ s with free := y.free }).setSite n y.s).sendAcks n l).raiseAll y.recs) :=
  s.checked_of (decide_eq_true hn) (by rw [h]; rfl)

/-- The resend verdict of a marked bucket, sent down its primary tree (R294). -/
theorem exec_bucketCommit_resends {s : State} {n : Nat} (hn : n < 48) (h : CommitReady (s.site n)) {b : RedBkt}
    (hb : bktGet (s.site n) (s.site n).red.head = b) (hmarked : b.marked = true) (hopen : b.decided = false) (hfirst : b.resent = false) :
    exec (.bucketCommit n) s = .next ((s.setSite n (bktSet (s.site n) (s.site n).red.head { b with resent := true })).sendAcks n
      [bktAckOut (s.site n) (s.site n).red.head true]) := by
  subst hb
  exact exec_bucketCommit hn (bucketCommit_resends h _ _ hmarked hopen hfirst)

/-! The registers that the blocks passed on can change: SITE_INJ, SITE_UPD_STATUS and the first taint (R311, R320, R448). -/

/-- A register that a block passed to the engine or to a factor window can change. -/
abbrev PassReg (o : Nat) : Prop := o ∈ [0x30, 0x614, 0x654, 0x658]

theorem PassReg.range {o : Nat} (h : PassReg o) : o = 0x30 ∨ 0x614 ≤ o ∧ o ≤ 0x658 := by
  simp only [PassReg, List.mem_cons, List.not_mem_nil, or_false] at h
  omega

section PassRegs
variable {x y z : Site}

theorem RegsKept.trans {P : Nat → Prop} (hxy : RegsKept P x y) (hyz : RegsKept P y z) : RegsKept P x z :=
  ⟨hyz.wf, fun o ho => (hyz.word o ho).trans (hxy.word o ho)⟩

theorem RegsKept.of_csr {P : Nat → Prop} (hxy : RegsKept P x y) (hcsr : z.csr = y.csr) : RegsKept P x z :=
  ⟨hcsr ▸ hxy.wf, fun o ho => by rw [Site.csrWord, hcsr]; exact hxy.word o ho⟩

theorem RegsKept.csrPut {P : Nat → Prop} (hxy : RegsKept P x y) {o : Nat} (ho : P o) (v : Word) : RegsKept P x (y.csrPut o v) :=
  ⟨Map.wf_set hxy.wf, fun k hk => (Site.csrWord_csrPut_ne v hxy.wf fun heq => hk (by rwa [heq])).trans (hxy.word k hk)⟩

theorem RegsKept.writeUnit (hxy : RegsKept PassReg x y) (o : Nat) (l : List Byte) : RegsKept PassReg x (writeUnit y o l) := by
  obtain ⟨bad, cacheBad, ueSeen, injUnit, csr, hwrite, hregs⟩ := writeUnit_frame y o l
  obtain ⟨hwf, hword⟩ := hregs hxy.wf
  rw [hwrite]
  exact hxy.trans ⟨hwf, fun k hk => hword k fun heq => hk (by rw [heq]; decide)⟩

theorem RegsKept.writeUnits (hxy : RegsKept PassReg x y) (o : Nat) (l : List Byte) : RegsKept PassReg x (writeUnits y o l) :=
  List.foldlRecOn (motive := RegsKept PassReg x) _ _ hxy fun _ hz _ _ => hz.writeUnit _ _

/-- A block goes to its factor window: its units are written and their readers counted anew (R298). -/
theorem RegsKept.factorCommit (hxy : RegsKept PassReg x y) {i : Nat} {r : RedBlk} (h : factorCommit y i r = some z) : RegsKept PassReg x z := by
  unfold Machine.factorCommit at h
  generalize (if bktWide y i then 16 else 8 : Nat) = n at h
  dsimp only at h
  split at h
  · exact nomatch h
  · obtain rfl := Option.some.inj h
    refine List.foldlRecOn (motive := RegsKept PassReg x) _ _ (hxy.writeUnits _ _) fun u hu _ _ => ?_
    split
    · exact hu.of_csr rfl
    · exact hu

end PassRegs

/-- The site as the engine leaves it. -/
def Pass.after : Pass → SS
  | .taken z => z
  | .wait z => z
  | .fault z => z

/-- A contribution to a tied block changes no register (R262). -/
theorem tieIn_csr {z : Site} {b : EngBlk} {u : Site} {a : AccBuf} (htie : tieIn z b = some (u, a)) : u.csr = z.csr := by
  unfold tieIn at htie
  split at htie
  · split at htie
    · exact nomatch htie
    · obtain ⟨rfl, -⟩ := Prod.mk.inj (Option.some.inj htie)
      rfl
  · obtain ⟨rfl, -⟩ := Prod.mk.inj (Option.some.inj htie)
    rfl

section PassBlocks
variable {x : Site} {y : SS} (h : RegsKept PassReg x y.s) (e : SEnv)
include h

theorem RegsKept.detectTaint (cause bucket block grp : Nat) : RegsKept PassReg x (detectTaint e y cause bucket block grp).s := by
  unfold Machine.detectTaint
  dsimp only [SS.raise]
  split
  · exact h.of_csr rfl
  · exact ((h.csrPut (o := 0x654) (by decide) _).csrPut (o := 0x658) (by decide) _).of_csr rfl

theorem RegsKept.engineTake (k : Nat) (en : BtEntry) (b : EngBlk) : RegsKept PassReg x (engineTake e y k en b).s := by
  have hparked : RegsKept PassReg x
      (if en.res = 2 then Machine.writeUnits y.s (256 * parkUnit y.s en.slot) (wordsBytes b.vals) else y.s) := by
    split
    · exact h.writeUnits _ _
    · exact h
  unfold Machine.engineTake
  split
  · refine RegsKept.detectTaint ?_ e _ _ _ _
    exact hparked.of_csr rfl
  · exact hparked.of_csr rfl

theorem RegsKept.passBlock (b : EngBlk) : RegsKept PassReg x (passBlock e y b).after.s := by
  unfold Machine.passBlock
  split
  next =>
    simp only [Pass.after]
    split
    · exact h.detectTaint e _ _ _ _
    · exact h
  next =>
    dsimp only
    split
    next => exact h.of_csr rfl
    next en _ =>
      split
      next =>
        split
        next => exact h.engineTake e _ _ _
        next =>
          split
          next => exact h
          next u a htie =>
            have hadded : RegsKept PassReg x u := h.of_csr (tieIn_csr htie)
            split
            next => exact hadded
            next =>
              refine RegsKept.engineTake ?_ e _ _ _
              exact hadded.of_csr rfl
      next =>
        split
        next => exact h
        next => exact (h.csrPut (o := 0x614) (by decide) _).of_csr rfl

end PassBlocks

/-- The blocks of a commit that pass on leave every other register as it stood (R290). -/
theorem passAll_regsKept {x : Site} (e : SEnv) (i : Nat) (l : List RedBlk) :
    ∀ {y : SS}, RegsKept PassReg x y.s → RegsKept PassReg x (passAll e i l y).1.s := by
  induction l with
  | nil => exact id
  | cons r l ih =>
    intro y h
    unfold passAll
    split
    next =>
      split
      next => exact h
      next z hfactor => exact ih (y := { y with s := z }) (h.factorCommit hfactor)
    next =>
      have hpassed := h.passBlock e { bucket := bktNum y.s i, block := r.block, vals := blkVals y.s i r,
                                      nf := r.flits.any (fun f => f.nf), mask := blkMask r }
      split
      next z htaken => exact ih (by rwa [htaken] at hpassed)
      next z hwait => rwa [hwait] at hpassed
      next z hfault => rwa [hfault] at hpassed

/-- The link and the words of an acknowledgement are of the registers that a commit leaves (R279). -/
theorem bktAckOut_of_regsKept {x y : Site} (h : RegsKept PassReg x y) (i : Nat) (resend : Bool) : bktAckOut y i resend = bktAckOut x i resend := by
  have hrecord : bktHi y i = bktHi x i := h.word _ fun hreg => by have := hreg.range; omega
  have hentry : siteRdesc y (bktPr x i) = siteRdesc x (bktPr x i) := by
    have hpr : bktPr x i < 256 := Nat.mod_lt _ (by decide)
    exact h.word _ fun hreg => by have := hreg.range; omega
  have hpr : bktPr y i = bktPr x i := by rw [bktPr, hrecord]; rfl
  have hnum : bktNum y i = bktNum x i := by rw [bktNum, hrecord]; rfl
  rw [bktAckOut, hpr, hnum, hentry]
  rfl

/-- Where the registers of the site are in their canonical form, the acknowledgement of a bucket that commits is the one that the site would
give once its blocks have passed on. -/
theorem exec_bucketCommit_canonical {s : State} {n : Nat} (hn : n < 48) (hcsr : Map.wf (regReset siteRegs) (s.site n).csr = true)
    (h : CommitReady (s.site n)) {i : Nat} (hi : (s.site n).red.head = i) (hmarked : (bktGet (s.site n) i).marked = false) {y : SS} {m : Nat}
    (hpassed : passAll (s.siteEnv n) i ((commitBlocks (bktGet (s.site n) i)).drop (bktGet (s.site n) i).passed)
      { s := s.site n, free := s.free } = (y, m))
    (hall : (commitBlocks (bktGet (s.site n) i)).length ≤ (bktGet (s.site n) i).passed + m) :
    exec (.bucketCommit n) s =
      .next (((({ s with free := y.free }).setSite n (headPassed y.s i)).sendAcks n [bktAckOut y.s i false]).raiseAll y.recs) := by
  subst hi
  have hregs : RegsKept PassReg (s.site n) y.s := by
    have hkept := passAll_regsKept (s.siteEnv n) (s.site n).red.head
      ((commitBlocks (bktGet (s.site n) (s.site n).red.head)).drop (bktGet (s.site n) (s.site n).red.head).passed)
      (y := { s := s.site n, free := s.free }) ⟨hcsr, fun _ _ => rfl⟩
    rwa [hpassed] at hkept
  rw [bktAckOut_of_regsKept hregs]
  exact exec_bucketCommit hn (bucketCommit_commits h _ _ hmarked hpassed hall)

end Sys2Proof.Machine
end

section
/-!
A site whose registers are not in their canonical form: the taint that a block shows erases the register that hides an entry of SITE_RDESC, and
the acknowledgement would go to another link (R279, R320).
-/

namespace Sys2Proof.Machine

/-- A soft record changes no tile. -/
theorem State.raise_soft_tiles {s : State} {r : Rec} (h : r.cls ≠ 1) : (s.raise r).tiles = s.tiles := by
  obtain ⟨m, hlog⟩ := s.logRec_frame r
  rw [State.raise_soft h, hlog]

/-- A flit of the bucket that commits. -/
def strayFlit : RedFlit := { bucket := 9, block := 0, off := 0, wide := false, mir := false, mask := 1, nf := false, data := [] }

/-- A site with one complete bucket, of a block tied to another, whose buffer holds a non-finite sum under a number that no bucket record can
hold: with it the log word of the taint wraps to 0. The entry of SITE_RDESC stands out of its place, behind that word, and so reads as link 0. -/
def hiddenLink : Site :=
  { csr := [(0x654, 1#32), (0x200, 0x600000#32), (0x1000, 0x88000#32), (0x1004, 0x90000#32)]
    red := { started := true, bkts := [(0, { blocks := [{ block := 0, stream := 0, flits := List.replicate 8 strayFlit }] })] }
    upd := { bt := [(0, { bind := 2 * 2 ^ 40, idx := 0, res := 1 })] }
    m := { accum := [{ block := 0, bucket := 2 ^ 31 - 2 ^ 27, vals := [], nf := true, mask := 0, uses := 1 }] } }

/-- That site, with field 0 alone powered: link 0 leads there, link 3 does not. -/
def hiddenLinkState : State := { State.reset with fields := [(0, { power := 2 })], sites := [(0, hiddenLink)] }

theorem hiddenLink_ready : CommitReady hiddenLink := ⟨rfl, by decide, by decide, rfl, rfl⟩

/-- The site and its records as its one block has passed to the engine. -/
def uncoveredLink : SS :=
  (passAll (hiddenLinkState.siteEnv 0) 0 (commitBlocks (bktGet hiddenLink 0)) { s := hiddenLink, free := 0 }).1

/-- The block passes on. -/
theorem hiddenLink_passed :
    passAll (hiddenLinkState.siteEnv 0) 0 (commitBlocks (bktGet hiddenLink 0)) { s := hiddenLink, free := 0 } = (uncoveredLink, 1) :=
  Prod.ext rfl (by decide)

/-- What the commit leaves, with an acknowledgement sent. -/
def uncoveredSent (a : Nat × BktAck) : State :=
  ((({ hiddenLinkState with free := uncoveredLink.free }).setSite 0 (headPassed uncoveredLink.s 0)).sendAcks 0 [a]).raiseAll uncoveredLink.recs

/-- The one record of the commit is that of a taint. -/
theorem uncoveredSent_tiles (a : Nat × BktAck) : (uncoveredSent a).tiles =
    ((({ hiddenLinkState with free := uncoveredLink.free }).setSite 0 (headPassed uncoveredLink.s 0)).sendAcks 0 [a]).tiles := by
  have hsoft : ∃ r, uncoveredLink.recs = [r] ∧ r.cls = 2 := ⟨_, rfl, rfl⟩
  obtain ⟨r, hrecs, hcls⟩ := hsoft
  rw [uncoveredSent, hrecs]
  exact State.raise_soft_tiles (by rw [hcls]; decide)

/-- As the site stood, link 0 takes the acknowledgement to tile 0. -/
theorem uncoveredSent_before : (uncoveredSent (bktAckOut hiddenLink 0 false)).tiles ≠ [] := by
  rw [uncoveredSent_tiles]
  decide

/-- By the entry uncovered, link 3 leads to a field that is off, and the acknowledgement is lost. -/
theorem uncoveredSent_after : (uncoveredSent (bktAckOut uncoveredLink.s 0 false)).tiles = [] := by
  rw [uncoveredSent_tiles]
  decide

end Sys2Proof.Machine

namespace Sys2Proof
open Machine

/-- Refutes O25: its premise leaves out the registers of the site. Where they are not in their canonical form, the taint that a passed block
shows can change what SITE_RDESC reads as; the statement takes the link of the acknowledgement from behind the commit, the model from before it.
Where they are, the clause holds (`exec_bucketCommit_canonical`), and the others do in any case (`exec_redRootFlit_takes`,
`exec_redRootFlit_relays`, `exec_bucketCommit_resends`, `exec_retryDecision_decides`, `exec_siteRedStepWrite_opens`). -/
theorem not_reductionAtSites : ¬ Obligations.ReductionAtSites := by
  unfold Obligations.ReductionAtSites
  intro h
  obtain ⟨-, -, hcommit, -⟩ := h 0 hiddenLinkState (by decide)
  obtain ⟨-, hcommits⟩ := hcommit rfl hiddenLink_ready.undone hiddenLink_ready.complete rfl rfl
  have hstated : exec (.bucketCommit 0) hiddenLinkState = .next (uncoveredSent (bktAckOut uncoveredLink.s 0 false)) :=
    hcommits rfl uncoveredLink 1 hiddenLink_passed (by decide)
  have hmodel : exec (.bucketCommit 0) hiddenLinkState = .next (uncoveredSent (bktAckOut hiddenLink 0 false)) :=
    exec_bucketCommit (by decide) (bucketCommit_commits hiddenLink_ready _ _ rfl hiddenLink_passed (by decide))
  have hsame := Host.Outcome.next.inj (hmodel.symm.trans hstated)
  exact uncoveredSent_before ((congrArg State.tiles hsame).trans uncoveredSent_after)

end Sys2Proof
end

section
/-!
The Pavane state machine (R319, R320, R322 to R324, R328, R329): the decision on the norm, the fold of one block, the end of a fold and of a
flip, the commands to SITE_PAV_CTL and a new DSITE, and the whole of O31.
-/

namespace Sys2Proof.Machine

theorem State.siteAccepted_pav (s : State) (n : Nat) (v : Word) : s.siteAccepted n 0x620 v = s.pavCommand n (bits v 2 0) := rfl

/-- The state with N² of the step noted at DSITE (R319). -/
def State.normNoted (s : State) (p : Nat) : State :=
  s.setSite (s.dsite p) (((s.site (s.dsite p)).csrPut 0x640 ((toF64 (s.normSq p)).setWidth 32)).csrPut 0x644
    ((toF64 (s.normSq p) >>> 32).setWidth 32))

/-- What DSITE, site d, decides once N² is noted as `code` (R319): withhold, flip or fold. -/
def State.decided (s : State) (p d : Nat) (code : DWord) : State :=
  if tainted (s.site d) then s.outcome p (if leanMode (s.site d) then 7 else 6)
  else if leanMode (s.site d) || !((s.sitesOf p).any fun n => (s.site n).upd.clip1) || withinTau (s.site d) code then
    s.eachSite p fun z => z.csrField 0x624 3 0 4
  else s.eachSite p fun z => (z.csrField 0x624 3 0 3).csrPut 0x648 (tauOver (s.site d) code)

section Decided
variable {s : State} {p d : Nat} {code : DWord}

theorem State.decided_withholds (htaint : tainted (s.site d) = true) :
    s.decided p d code = s.outcome p (if leanMode (s.site d) then 7 else 6) := if_pos htaint

theorem State.decided_flips (hclean : tainted (s.site d) = false)
    (hflip : leanMode (s.site d) = true ∨ ((s.sitesOf p).all fun n => !(s.site n).upd.clip1) = true ∨ withinTau (s.site d) code = true) :
    s.decided p d code = s.eachSite p fun z => z.csrField 0x624 3 0 4 := by
  have hnone : (leanMode (s.site d) || !((s.sitesOf p).any fun n => (s.site n).upd.clip1) || withinTau (s.site d) code) = true := by
    rw [List.not_any_eq_all_not, Bool.or_eq_true, Bool.or_eq_true]
    exact or_assoc.mpr hflip
  rw [State.decided, if_neg (by rw [hclean]; decide), if_pos hnone]

theorem State.decided_folds (hclean : tainted (s.site d) = false) (hfull : leanMode (s.site d) = false)
    (hfired : ((s.sitesOf p).any fun n => (s.site n).upd.clip1) = true) (hbeyond : withinTau (s.site d) code = false) :
    s.decided p d code = s.eachSite p fun z => (z.csrField 0x624 3 0 3).csrPut 0x648 (tauOver (s.site d) code) := by
  rw [State.decided, hclean, hfull, hfired, hbeyond]
  rfl

end Decided

/-- DSITE in DECIDE notes a norm that is finite and decides on it (R319). -/
theorem State.exec_pavaneDecide {s : State} {p : Nat} (hp : p < 8) (hd : s.dsite p < 48) (hstate : pavState (s.site (s.dsite p)) = 2)
    (hfinite : nonFinite (s.normSq p) = false) {u : State}
    (hu : (s.normNoted p).decided p (s.dsite p) (toF64 (s.normSq p)) = u) : exec (.pavaneDecide p) s = .next u := by
  have hthere : ¬ nSites ≤ s.dsite p := Nat.not_le.mpr hd
  refine s.checked_of (decide_eq_true hp) (Eq.trans ?_ hu)
  rw [State.pavaneDecide]
  simp only [hstate, hfinite, hthere, decide_false, ne_eq, not_true_eq_false, Bool.or_self,
    Bool.false_eq_true, if_false]
  rfl

/-! The fold at a site (R324). -/

section Fold
variable {x : Site} (e : SEnv) (free : Nat)

/-- The site with its fold done. -/
def foldDone (x : Site) : Site := { x with upd := { x.upd with folded := true } }

/-- The words of a block as its fold leaves them: live w and slots against what the shadow half has. -/
def foldedWords (x : Site) (f : Fired) : List (List Word) :=
  List.zipWith (fun l h => (foldElem (grpOpt x (bindGroup f.bind)) (optConst x (bindGroup f.bind)) (f32 (x.csrWord 0x648)) l h).map toF32)
    (byElem (readParts x (bindGroup f.bind) (halfUnit x f.bind (liveHalf x))))
    (byElem (readParts x (bindGroup f.bind) (halfUnit x f.bind (workHalf x))))

/-- A block whose units can all be read is written with the words of its fold. -/
theorem foldBlock_writes {f : Fired} {v : Site}
    (hlive : readState e (bindGroup f.bind) (halfUnit x f.bind (liveHalf x)) { s := x, free := free } = ({ s := x, free := free }, false))
    (hshadow : readUnits e (halfUnit x f.bind (workHalf x) + copyUnits (grpCopy x (bindGroup f.bind)) + 16)
      (16 * slotsOf x (bindGroup f.bind)) { s := x, free := free } = ({ s := x, free := free }, false))
    (hwrite : writeHalf false x f.bind f.mask (halfUnit x f.bind (workHalf x))
      (List.range (readParts x (bindGroup f.bind) (halfUnit x f.bind (workHalf x))).length) (foldedWords x f) = (v, false)) :
    foldBlock e { s := x, free := free } f = { s := v, free := free } := by
  rw [foldedWords] at hwrite
  simp only [foldBlock, hlive, hshadow, hwrite]
  rfl

variable (hlevel : bits (x.csrWord 0x10) 2 0 ≠ 4) (hopen : x.upd.folded = false)
include hlevel hopen

/-- A site that no thermal level holds folds its fired blocks in list order. -/
theorem foldSite_folds {v : Site}
    (hblocks : (sortBy (fun a b => decide (a.idx ≤ b.idx)) x.upd.fired).foldl (foldBlock e) { s := x, free := free } =
      { s := v, free := free }) : foldSite e { s := x, free := free } = { s := foldDone v, free := free } := by
  rw [foldSite]
  simp only [hlevel, hopen, decide_false, Bool.or_self, Bool.false_eq_true, if_false]
  rw [hblocks]
  rfl

theorem foldSite_none (hfired : x.upd.fired = []) : foldSite e { s := x, free := free } = { s := foldDone x, free := free } :=
  foldSite_folds e free hlevel hopen (by rw [hfired]; rfl)

theorem foldSite_one {f : Fired} {v : Site} (hfired : x.upd.fired = [f])
    (hblock : foldBlock e { s := x, free := free } f = { s := v, free := free }) :
    foldSite e { s := x, free := free } = { s := foldDone v, free := free } :=
  foldSite_folds e free hlevel hopen (by rw [hfired]; exact hblock)

end Fold

theorem State.exec_fold {s : State} {n : Nat} (hn : n < 48) (hstate : pavState (s.site n) = 3) {y : Site}
    (hfold : foldSite (s.siteEnv n) { s := s.site n, free := s.free } = { s := y, free := s.free }) :
    exec (.fold n) s = .next (s.setSite n y) :=
  State.siteDo_of hn ((if_pos hstate).trans hfold)

section Phases
variable {s : State} {p : Nat} (hp : p < 8) (hd : s.dsite p < 48)
include hp hd

/-- Every site folded and none tainted: the halves flip (R322). -/
theorem State.exec_foldComplete (hstate : pavState (s.site (s.dsite p)) = 3) (hclean : tainted (s.site (s.dsite p)) = false)
    (hall : ((s.sitesOf p).all fun n => (s.site n).upd.folded && (s.site n).upd.taints.isEmpty) = true) :
    exec (.foldComplete p) s = .next (s.eachSite p fun z => z.csrField 0x624 3 0 4) := by
  have hthere : ¬ nSites ≤ s.dsite p := Nat.not_le.mpr hd
  refine s.checked_of (decide_eq_true hp) ?_
  rw [State.foldComplete]
  simp only [hstate, hclean, hall, hthere, decide_false, ne_eq, not_true_eq_false, Bool.or_self,
    Bool.false_eq_true, if_false, if_true]

/-- The flip counts the step, gives c_lag and changes the live half, where there are two (R323). -/
theorem State.exec_flipComplete (hstate : pavState (s.site (s.dsite p)) = 4) :
    exec (.flipComplete p) s = .next ((s.eachSite p fun z =>
      let z1 := (z.csrPut 0x628 ((s.site (s.dsite p)).csrWord 0x628 + 1)).csrPut 0x64C (s.newLag p)
      if leanMode z then z1 else z1.csrField 0x624 8 8 (1 - pavEpoch z)).outcome p 5) := by
  have hthere : ¬ nSites ≤ s.dsite p := Nat.not_le.mpr hd
  refine s.checked_of (decide_eq_true hp) ?_
  rw [State.flipComplete]
  simp only [hstate, hthere, decide_false, ne_eq, not_true_eq_false, Bool.or_self,
    Bool.false_eq_true, if_false]

end Phases

/-! Commands to SITE_PAV_CTL (R320, R322, R329). -/

theorem State.eachSite_part (s : State) (p : Nat) (f : Site → Site) (q : Nat) : (s.eachSite p f).part q = s.part q := by
  obtain ⟨_, hframe⟩ := s.eachSite_frame p f
  rw [hframe]
  rfl

theorem State.pavCommand_arm {s : State} {n : Nat} (hopen : s.armBlocked (s.site n).owner = none) :
    s.pavCommand n 1 = (s.eachSite (s.site n).owner (armSite (s.site (s.dsite (s.site n).owner)))).setPart (s.site n).owner
      { s.part (s.site n).owner with step := true } := by
  rw [State.pavCommand, if_pos rfl, hopen, ← State.eachSite_part s]
  rfl

theorem State.pavCommand_clear (s : State) (n : Nat) :
    s.pavCommand n 4 = s.eachSite (s.site n).owner fun z => z.csrField 0x624 3 0 0 := rfl

theorem Site.csrPut_m (x : Site) (o : Nat) (v : Word) : (x.csrPut o v).m = x.m := rfl

theorem detectTaint_m (e : SEnv) (x : SS) (cause bucket block grp : Nat) : (detectTaint e x cause bucket block grp).s.m = x.s.m := by
  unfold detectTaint
  dsimp only [SS.raise]
  split
  · rfl
  · rw [Site.csrPut_m, Site.csrPut_m]

/-- A taint that is passed on at once leaves its record, and no taint of the site waits (R320). -/
theorem detectTaint_passedOn (e : SEnv) (x : Site) (free cause bucket block grp : Nat) : ∃ z r,
    (detectTaint e { s := x, free := free } cause bucket block grp).upd passedOn = { s := z, free := free, recs := [r] } ∧
      z.m = x.m ∧ z.upd.taints = [] ∧ r.source = 0x27 ∧ r.cls = 2 ∧ r.code = cause ∧ r.loc = siteLoc e.id :=
  ⟨passedOn (detectTaint e { s := x, free := free } cause bucket block grp).s, _, rfl,
    detectTaint_m e { s := x, free := free } cause bucket block grp, rfl, rfl, rfl, rfl, rfl⟩

/-- TAINT, with halving or without, is cause 4 or 5 of DSITE's own (R320). -/
theorem State.pavCommand_taint (s : State) (n : Nat) {cmd : Nat} (hcmd : cmd = 2 ∨ cmd = 3) : ∃ (z : Site) (r : Rec),
    s.pavCommand n cmd = ((s.setSite n z).raise r).taintAt (s.site n).owner [cmd + 2] ∧ z.m = (s.site n).m ∧ z.upd.taints = [] ∧
      r.source = 0x27 ∧ r.cls = 2 ∧ r.code = cmd + 2 ∧ r.loc = siteLoc n := by
  obtain ⟨z, r, htaint, hkept⟩ := detectTaint_passedOn (s.siteEnv n) (s.site n) s.free (cmd + 2) 0 0 0
  refine ⟨z, r, ?_, hkept⟩
  rw [← State.onSite_raises (f := fun e x => (detectTaint e x (cmd + 2) 0 0 0).upd passedOn) htaint]
  rcases hcmd with rfl | rfl <;> rfl

/-- The first site of the partition that is enabled takes over from a DSITE that is not, with its last step record (R328). -/
theorem State.exec_dsiteReassign {s : State} {p n : Nat} (hp : p < 8)
    (hfirst : ((s.sitesOf p).find? fun k => (s.site k).state ≠ 3) = some n) (hne : s.dsite p ≠ n) (hoff : (s.site (s.dsite p)).state = 3)
    (hquiet : s.quiescent p = true) (hidle : pavState (s.site (s.dsite p)) = 0 ∨ 5 ≤ pavState (s.site (s.dsite p))) :
    exec (.dsiteReassign p) s = .next
      (let u := s.eachSite p fun z => z.csrField 0x600 29 24 n
      u.setSite n (writeUnit (u.site n) (256 * bits ((u.site n).csrWord 0x650) 27 0)
        ((s.site (s.dsite p)).bytes (256 * bits ((s.site (s.dsite p)).csrWord 0x650) 27 0) 256))) := by
  have hbusy : ¬ (1 ≤ pavState (s.site (s.dsite p)) ∧ pavState (s.site (s.dsite p)) ≤ 4) := by omega
  refine s.checked_of (decide_eq_true hp) ?_
  rw [State.dsiteReassign]
  dsimp only
  rw [hfirst]
  dsimp only
  rw [if_neg (by simp [hne, hoff, hquiet, hbusy])]

end Sys2Proof.Machine

namespace Sys2Proof
open Machine

/-- Settles O31: each move of the machine by the one branch that its conditions leave. -/
theorem pavaneStates : Obligations.PavaneStates := by
  unfold Obligations.PavaneStates
  intro p s hp d x code s1 y
  refine ⟨?decide, ?fold, ?foldComplete, ?flipComplete, ?arm, ?taint, ?clear, ?reassign⟩
  case decide =>
    intro hd hstate hfinite
    have decides {u : State} (hu : s1.decided p d code = u) : exec (.pavaneDecide p) s = .next u :=
      State.exec_pavaneDecide hp hd hstate hfinite hu
    exact ⟨fun htaint => decides (State.decided_withholds htaint), fun hclean hflip => decides (State.decided_flips hclean hflip),
      fun hclean hfull hfired hbeyond => decides (State.decided_folds hclean hfull hfired hbeyond)⟩
  case fold =>
    intro n hn hstate hlevel hopen z
    refine ⟨fun hfired => State.exec_fold hn hstate (foldSite_none _ _ hlevel hopen hfired), ?_⟩
    intro f hfired g lu wu hlive hshadow sh new v hwrite
    exact State.exec_fold hn hstate (foldSite_one _ _ hlevel hopen hfired (foldBlock_writes _ _ hlive hshadow hwrite))
  case foldComplete => exact fun hd => State.exec_foldComplete hp hd
  case flipComplete => exact fun hd => State.exec_flipComplete hp hd
  case arm =>
    intro n hn howner hup haccepted hopen
    subst howner
    exact s.checked_of (decide_eq_true hn) ((State.siteWrite_accepted haccepted).trans (State.pavCommand_arm hopen))
  case taint =>
    intro n hn howner c hc haccepted
    subst howner
    have hcmd : c.1 = 2 ∨ c.1 = 3 := by
      rcases List.mem_pair.mp hc with rfl | rfl
      · exact .inl rfl
      · exact .inr rfl
    obtain ⟨z, r, htaint, hkept⟩ := State.pavCommand_taint s n hcmd
    refine ⟨z, r, ?_, hkept⟩
    rw [← htaint]
    rcases List.mem_pair.mp hc with rfl | rfl
    · exact State.siteReg_accepted hn haccepted
    · exact State.siteReg_accepted hn haccepted
  case clear =>
    intro n hn howner haccepted
    subst howner
    exact State.siteReg_accepted hn haccepted
  case reassign => exact fun n hfirst _ hne hoff hquiet hidle => State.exec_dsiteReassign hp hfirst hne hoff hquiet hidle

end Sys2Proof
end

section
/-!
What a site exports (R331 to R333): its start, its cancel and its completion, and the whole of O32.
-/

namespace Sys2Proof.Machine

theorem State.siteAccepted_export (s : State) (n : Nat) (v : Word) :
    s.siteAccepted n 0x66C v = s.setSite n (exportCommand (s.site n) (bits v 1 0)) := rfl

/-- An accepted command to SITE_UPD_EXPC. -/
theorem State.exportReg_accepted {s : State} {n : Nat} {v : Word} (hn : n < 48) (h : s.siteRefused n 0x66C v = none) :
    s.siteReg true n 0x66C v = .next (s.setSite n (exportCommand (s.site n) (bits v 1 0))) :=
  (State.siteReg_accepted hn h).trans (congrArg _ (s.siteAccepted_export n v))

section ExportComplete
variable {s : State} {n : Nat} (hn : n < 48) {y : Site} (hbusy : (s.site n).exp.busy = true)
  (hrest : exportRest (bits ((s.site n).csrWord 0x664) 19 0 - (s.site n).exp.next) (s.site n) = y)
include hn hbusy hrest

/-- With the entries left written the end is posted (R332). -/
theorem State.exec_exportComplete_ends (hgoing : y.exp.busy = true) : exec (.exportComplete n) s =
    .next ((s.setSite n { y with exp := { y.exp with busy := false } }).post (min 8 (s.site n).owner)
      (.hostExported (s.part (s.site n).owner).expTag (s.site n).owner n (bits (y.csrWord 0x668) 27 0)
        (bits ((s.site n).csrWord 0x664) 19 0))) := by
  refine s.checked_of (decide_eq_true hn) ?_
  rw [State.exportComplete]
  simp only [hbusy, hrest, hgoing, Bool.not_true, Bool.false_eq_true, if_false, if_true]

/-- Where the end of HBM is reached it has stopped, and nothing is posted (R333). -/
theorem State.exec_exportComplete_stopped (hstopped : y.exp.busy = false) : exec (.exportComplete n) s = .next (s.setSite n y) := by
  refine s.checked_of (decide_eq_true hn) ?_
  rw [State.exportComplete]
  simp only [hbusy, hrest, hstopped, Bool.not_true, Bool.false_eq_true, if_false]

end ExportComplete

end Sys2Proof.Machine

namespace Sys2Proof
open Machine

/-- Settles O32: start and cancel by the accepted write that each is, the completion by whether it still runs after the last entry. -/
theorem exports : Obligations.Exports := by
  unfold Obligations.Exports
  intro n s hn x
  refine ⟨fun haccepted => State.exportReg_accepted hn haccepted, fun haccepted => State.exportReg_accepted hn haccepted, ?_⟩
  intro hbusy k y
  refine ⟨fun hend => ?_, State.exec_exportComplete_ends hn hbusy rfl, State.exec_exportComplete_stopped hn hbusy rfl⟩
  have hnone : k - x.exp.next = 0 := by rw [hend, Nat.sub_self]
  exact congrArg (exportRest · x) hnone

end Sys2Proof
end

section
/-!
Messages of a host over an open session (R320, R369, R404 to R407, R413): loading and runs, what a host asks of its partition, sessions and
events, and the whole of O40 and O41.
-/

namespace Sys2Proof.Machine

/-- The session of a message with header h is open at x, and what carries it is up (R406). -/
structure State.Opened (s : State) (h : Hdr) (x : Session) : Prop where
  up : s.mod.cc.up = true
  found : (s.mod.cc.sessions.find? fun y => y.id = h.session) = some x
  carried : ∀ i : Nat, x.port = some i → (s.port i).ether = true ∧ (s.port i).state = 2

section Opened
variable {s : State} {h : Hdr} {x : Session}

theorem State.carries_of (hcarried : ∀ i : Nat, x.port = some i → (s.port i).ether = true ∧ (s.port i).state = 2) : s.carries x = true := by
  unfold State.carries
  split
  · rfl
  next i hport =>
    obtain ⟨hether, hstate⟩ := hcarried i hport
    rw [hether, hstate]
    rfl

theorem State.bound_iff (p : Nat) : s.bound x p = true ↔ x.part = p ∧ ∀ i : Nat, x.port = some i → s.portOwner i = p := by
  rw [State.bound, Bool.and_eq_true, decide_eq_true_iff]
  refine and_congr_right fun _ => ?_
  cases hport : x.port with
  | none => simp
  | some i => simp

/-- A message over an open session meets what it asks for, where it names the partition that the session is bound to (R406). -/
theorem State.Opened.message (hopen : s.Opened h x) (k : State) :
    s.message h k = if s.bound x h.part then k else s.wrongPart h.tag h.part := by
  rw [State.message]
  simp only [hopen.up, hopen.found, State.carries_of hopen.carried, Bool.not_true, Bool.false_eq_true, if_false]
  cases s.bound x h.part <;> rfl

theorem State.Opened.answered (hopen : s.Opened h x) (hbound : s.bound x h.part = true) {k u : State} (hk : k = u) :
    (.next (s.message h k) : Host.Outcome State Fault Refusal) = .next u := by
  rw [hopen.message, if_pos hbound, hk]

theorem State.Opened.refused (hopen : s.Opened h x) (hother : ¬ s.bound x h.part = true) (k : State) :
    s.message h k = s.wrongPart h.tag h.part := by
  rw [hopen.message, if_neg hother]

end Opened

/-! What a partition is asked for: loading, runs and their end (R405, R407, R413). -/

section Runs
variable {s : State} {p tag : Nat}

/-- Everything is written, and the windows of the fields can be reached (R405, R465). -/
theorem State.loaded_of {m : Manifest} {fmap : List Nat} (hup : s.mod.cc.up = true) (hstate : (s.part p).state = 5)
    (hjob : (s.part p).job = some m) (hfmap : (if m.fmap.isEmpty then List.range 70 else m.fmap) = fmap)
    (hreach : ((s.part p).bins.all fun b => (mappedFields b fmap).all fun f => s.live f && s.reachable f) = true) :
    s.loaded p = (let u := s.loadManifest p m (s.part p).bins
      (u.setPart p { u.part p with
        state := 2, fmap := fmap, run := none, phase := 0, rollouts := 0, exportDue := false, defers := 0, srateUp := 0, fails := 0,
        waiting := false, release := false }).say (.hostLoaded (s.part p).loadTag p (m.bins.map (·.digest)) fmap (u.guarantee p))) := by
  have hwindows : ((s.part p).bins.all fun b => (mappedFields b fmap).all s.windowsUp) = true := hreach
  subst hfmap
  rw [State.loaded]
  simp only [hjob, hstate, hup]
  exact if_neg (by rw [show nFields = 70 from rfl, hwindows]; decide)

theorem State.submit_refused {m : Manifest} (hready : s.mod.ready = true) {r c k i : Nat} (hbad : s.manifestBad p m = some (r, c, k, i)) :
    s.submit p tag m = s.say (.hostRefused tag p r c k i) := by
  simp only [State.submit, hready, hbad]
  rfl

/-- A manifest that passes every check: MSEQ is written, high word first, and its partition loads (R405, R426). -/
theorem State.submit_loads {m : Manifest} (hready : s.mod.ready = true) (hgood : s.manifestBad p m = none) :
    s.submit p tag m = (
      let bins := (s.readBins p m).filterMap id
      let hi := BitVec.ofNat 32 (m.mseq / 2 ^ 32)
      let lo := BitVec.ofNat 32 m.mseq
      let u := (s.pregPut (0x90104 + 8 * p) hi hi).pregPut (0x90100 + 8 * p) lo lo
      let v := u.setPart p { u.part p with state := 5, job := some m, bins := bins, run := none, loadTag := tag }
      if bins.any (tunedElse s.mod.b0) = true then v.raise { source := Config.recordSource 0, cls := 4, loc := partLoc p } else v) := by
  simp only [State.submit, hready, hgood]
  rfl

theorem State.runMsg_starts {r : RunReq} (hstate : (s.part p).state = 2) (hjob : (s.part p).job.isSome = true) (hidle : (s.part p).run = none)
    (hbin : r.bin < (s.part p).bins.length) : s.runMsg p tag r =
      (s.setPart p { s.part p with run := some { req := r }, state := 3, fails := 0, waiting := false }).say
        (.hostAccepted tag p ((s.part p).inv + 1)) :=
  if_pos (by simp [hstate, hjob, hidle, hbin])

/-- While a step is in progress the run goes on to its end (R407). -/
theorem State.settleRun_busy (hbusy : (s.part p).busy = true) : s.settleRun p = s := by
  unfold State.settleRun
  dsimp only
  split
  · exact if_neg (by simp [hbusy])
  · rfl

theorem State.settleRun_idle (hidle : (s.part p).run = none) : s.settleRun p = s := by
  unfold State.settleRun
  simp only [hidle]

theorem State.haltRun_running (hs : s.Canon) {r : RunCtl} (hrun : (s.part p).run = some r) (hbusy : (s.part p).busy = true) :
    s.haltRun p = s.setPart p { s.part p with run := some { r with halt := true } } := by
  rw [State.haltRun, hrun]
  exact State.settleRun_busy (by rw [State.setPart_part_self hs.parts]; exact hbusy)

/-- A partition written back as it stands. -/
theorem State.setPart_same (hs : s.Canon) (p : Nat) : s.setPart p (s.part p) = s :=
  congrArg (fun parts => { s with parts := parts }) (Map.set_get p hs.parts)

theorem State.setPart_setPart (hs : s.Canon) (p : Nat) (q r : Part) : (s.setPart p q).setPart p r = s.setPart p r :=
  congrArg (fun parts => { s with parts := parts }) (Map.set_set q r hs.parts)

theorem State.haltRun_idle (hs : s.Canon) (hidle : (s.part p).run = none) : s.haltRun p = s := by
  have hsame : s.setPart p { s.part p with run := (s.part p).run.map fun r => { r with halt := true } } = s := by
    rw [hidle, Option.map_none, ← hidle]
    exact State.setPart_same hs p
  rw [State.haltRun, hsame]
  exact State.settleRun_idle hidle

/-- An abort where there is something to abort: the request, whose end answers the host (R413). -/
theorem State.abortMsg_requests (hload : (s.part p).state ≠ 5) (hbusy : s.quiescent p = false ∨ (s.part p).state = 4) :
    s.abortMsg p tag = (let u := s.requestAbort p 1
      u.setPart p { u.part p with atags := (u.part p).atags ++ [tag] }) := by
  rw [State.abortMsg]
  dsimp only
  rw [if_neg hload, if_neg (by simpa [imp_iff_not_or] using hbusy)]

/-- A load is stopped, and answered at once (R413). -/
theorem State.abortMsg_load (hload : (s.part p).state = 5) :
    s.abortMsg p tag = (let u := s.requestAbort p 1
      u.say (.hostAborted tag p (u.part p).acause (u.part p).state (u.stepRecord p))) := if_pos hload

/-- A quiescent partition is answered as it stands (R413). -/
theorem State.abortMsg_quiescent (hquiet : s.quiescent p = true) (haborting : (s.part p).state ≠ 4) (hload : (s.part p).state ≠ 5) :
    s.abortMsg p tag = s.say (.hostAborted tag p (s.part p).acause (s.part p).state (s.stepRecord p)) := by
  rw [State.abortMsg]
  dsimp only
  rw [if_neg hload, if_pos (by simp [hquiet, haborting])]

theorem State.taintMsg_of (hd : s.dsite p < 48) (halve : Bool) :
    s.taintMsg p halve = s.siteWrite true (s.dsite p) 0x620 (if halve then 2 else 3) := if_neg (Nat.not_le.mpr hd)

end Runs

/-! What else a host asks of its partition (R331, R369, R404, R406). -/

section Requests
variable {s : State} {p tag : Nat}

theorem State.exportMsg_due (hrun : (s.part p).run.isSome = true) :
    s.exportMsg p tag = s.setPart p { s.part p with exportDue := true, expTag := tag } := if_pos hrun

/-- With no run a due EXPORT starts at once, at every site whose list has entries: here at none (R331). -/
theorem State.exportMsg_none (hs : s.Canon) (hidle : (s.part p).run = none) (hnone : s.exporters p = []) :
    s.exportMsg p tag = s.setPart p { s.part p with exportDue := false, defers := 0, expTag := tag } := by
  have hlists : (s.setPart p { s.part p with exportDue := true, expTag := tag }).exporters p = [] := hnone
  rw [State.exportMsg, hidle]
  dsimp only [Option.isSome_none]
  rw [if_neg Bool.false_ne_true, State.exportStart, hlists, List.foldl_nil, State.setPart_part_self hs.parts]
  exact State.setPart_setPart hs p _ _

/-- A job of a quiescent partition is unloaded at once (R406, R415). -/
theorem State.releaseMsg_unloads (hs : s.Canon) (hjob : (s.part p).job.isSome = true) (hidle : (s.part p).run = none)
    (hstate : (s.part p).state = 2 ∨ (s.part p).state = 6) (hquiet : s.quiescent p = true) :
    s.releaseMsg p = s.setPart p { s.part p with
      job := none, bins := [], fmap := [], run := none, state := if (s.part p).state = 6 then 6 else 1, phase := 0, rollouts := 0,
      exportDue := false, defers := 0, srateUp := 0, fails := 0, waiting := false, release := false } := by
  have hasked : (s.setPart p { s.part p with release := true }).part p = { s.part p with release := true } :=
    State.setPart_part_self hs.parts
  have hstill : (s.setPart p { s.part p with release := true }).quiescent p = true := hquiet
  have hstates : (s.part p).state ≠ 3 ∧ (s.part p).state ≠ 4 ∧ (s.part p).state ≠ 5 := by omega
  obtain ⟨h3, h4, h5⟩ := hstates
  rw [State.releaseMsg, State.haltRun_idle hs hidle]
  dsimp only
  rw [if_pos hjob, State.releaseNow, hasked, hstill, if_pos (by simp [h3, h4, h5]), State.unload, hasked]
  exact State.setPart_setPart hs p _ _

theorem State.capMsg_below {cap : Nat} (hlow : s.capFor p cap < s.capFloor p) : s.capMsg p tag cap = s.say (.hostRefused tag p 9 0 0 0) :=
  if_pos hlow

theorem State.capMsg_sets {cap : Nat} (hfits : s.capFloor p ≤ s.capFor p cap) :
    s.capMsg p tag cap = (let u := s.ezField (0x2000 + 0x40 * p) 15 0 (s.capFor p cap)
      u.say (u.statusMsg p tag)) := if_neg (Nat.not_lt.mpr hfits)

variable {a : Nat} {l : List Byte} (hlen : l.length + 8 ≤ 2 ^ 20)
include hlen

theorem State.putMsg_writes (hheld : s.holds p a l.length = true) :
    s.putMsg p tag a l = (let u := s.memPut a l
      u.say (u.statusMsg p tag)) := by
  rw [State.putMsg, if_neg (Nat.not_lt.mpr hlen), hheld]
  rfl

/-- Data for memory that is not the partition's is refused and logged (R404, R412). -/
theorem State.putMsg_elsewhere (hother : s.holds p a l.length = false) :
    s.putMsg p tag a l = (s.say (.hostRefused tag p 3 0 0 0)).raise { source := 0x24, cls := 3, loc := partLoc p, code := 0x10, addr := a } := by
  rw [State.putMsg, if_neg (Nat.not_lt.mpr hlen), hother]
  rfl

end Requests

/-! Sessions (R406, R424) and events (R158, R400). -/

/-- A session opened for partition p, over a Halo port where it came over one. -/
def State.sessionFor (s : State) (p : Nat) (port : Option Nat) : State :=
  (s.updMod fun m => { m with cc := { m.cc with
    sessions := m.cc.sessions ++ [{ id := s.mod.cc.nextSession, part := p, port := port }]
    nextSession := s.mod.cc.nextSession + 1 } }).say (.sessionOpen s.mod.cc.nextSession p)

section Sessions
variable {s : State} (hup : s.mod.cc.up = true) {cert port : Nat}
include hup

/-- Over a management port the session is bound to the partition of the certificate (R424). -/
theorem State.exec_hostSessionOpen_cert {p : Nat} (hport : 12 ≤ port) (hcert : cert ≠ 0)
    (hfound : ((List.range 8).find? fun k => (s.conf k).known && decide ((s.conf k).cert = cert)) = some p) :
    exec (.hostSessionOpen cert port) s = .next (s.sessionFor p none) := by
  have hport' : ¬ port < nPorts := Nat.not_lt.mpr hport
  have hpart : ((List.range nParts).find? fun k => (s.conf k).known && decide (cert ≠ 0) && (s.conf k).cert = cert) = some p := by
    simp only [hcert, ne_eq, not_false_eq_true, decide_true, Bool.and_true]
    exact hfound
  refine congrArg Host.Outcome.next ?_
  simp only [hup, hport', hpart]
  rfl

/-- Over a Halo port in Ethernet mode it is bound to the port's owner (R406). -/
theorem State.exec_hostSessionOpen_port (hport : port < 12) (hether : (s.port port).ether = true) (hstate : (s.port port).state = 2)
    (howner : s.portOwner port < 8) : exec (.hostSessionOpen cert port) s = .next (s.sessionFor (s.portOwner port) (some port)) := by
  have hport' : port < nPorts := hport
  have howner' : s.portOwner port < nParts := howner
  refine congrArg Host.Outcome.next ?_
  simp only [hup, hport', hether, hstate, howner']
  rfl

/-- No certificate, no session (R424). -/
theorem State.exec_hostSessionOpen_none (hport : 12 ≤ port) : exec (.hostSessionOpen 0 port) s = .next (s.say .sessionRefused) := by
  have hport' : ¬ port < nPorts := Nat.not_lt.mpr hport
  have hpart : ((List.range nParts).find? fun k => (s.conf k).known && decide ((0 : Nat) ≠ 0) && (s.conf k).cert = 0) = none :=
    List.find?_eq_none.mpr fun k _ => by simp
  refine congrArg Host.Outcome.next ?_
  simp only [hup, hport', hpart]
  rfl

end Sessions

/-- An event for the host whose answer finds a way lets its tile go on (R158, R400). -/
theorem State.eventTaken_passes {s : State} {ring : Nat} {e : Mail} {l : List Mail} (htaken : takeEvent (s.mailOf ring) = some (e, l))
    (hcode : 0x100 ≤ e.code) (hanswered : s.eventAnswered e.tile = true) : s.eventTaken ring =
      ((s.setMail ring l).setTile e.tile { s.tile e.tile with
        event := (s.tile e.tile).event.map fun v =>
          if v.posted && decide (v.code = e.code) && decide (v.value = e.value) then { v with accepted := true } else v }).say
            (.hostEvent ring e.tile e.code e.value) := by
  simp only [State.eventTaken, htaken, hanswered, Bool.and_true]
  exact if_pos hcode

end Sys2Proof.Machine

namespace Sys2Proof
open Machine

/-- Settles O40: each message by the open session that carries it, then by what its partition's state has it do. -/
theorem hostRuns : Obligations.HostRuns := by
  unfold Obligations.HostRuns
  intro s hup hcanon
  have hs := State.canon hcanon
  refine ⟨fun p hp m hstate hjob => ?_, fun h x hfound hcarried => ?_⟩
  · exact fun hreach => s.checked_of (decide_eq_true hp) (State.loaded_of hup hstate hjob rfl hreach)
  intro p q mine
  have hopen : s.Opened h x := ⟨hup, hfound, hcarried⟩
  refine ⟨fun hother => congrArg Host.Outcome.next (hopen.refused (mt (State.bound_iff p).mp hother) _), fun hmine => ?_⟩
  have answers {k u : State} (hk : k = u) := hopen.answered ((State.bound_iff p).mpr hmine) hk
  refine ⟨fun m hready => ⟨?refused, ?loads⟩, ?run, ?halt, ?abort, ?stopsLoad, ?quiescent, ?taint⟩
  case refused => exact fun r c k i hbad => answers (State.submit_refused hready hbad)
  case loads => exact fun hgood => answers (State.submit_loads hready hgood)
  case run => exact fun r hstate hjob hidle hbin => answers (State.runMsg_starts hstate hjob hidle hbin)
  case halt =>
    intro r hrun hbusy
    refine answers ?_
    rw [State.haltRun_running hs hrun hbusy]
  case abort => exact fun hload hbusy => answers (State.abortMsg_requests hload hbusy)
  case stopsLoad => exact fun hload => answers (State.abortMsg_load hload)
  case quiescent => exact fun hquiet haborting hload => answers (State.abortMsg_quiescent hquiet haborting hload)
  case taint =>
    intro hd halve
    refine answers ?_
    rw [State.taintMsg_of hd]

/-- Settles O41: each request by the open session that carries it; a session by what it comes over, an event by the way of its answer. -/
theorem hostRequests : Obligations.HostRequests := by
  unfold Obligations.HostRequests
  intro s hup hcanon
  have hs := State.canon hcanon
  refine ⟨fun h x hfound hpart hport => ?_, ⟨?_, ?_, ?_⟩, ?_⟩
  · intro p q
    have hopen : s.Opened h x := ⟨hup, hfound, fun i hi => ⟨(hport i hi).1, (hport i hi).2.1⟩⟩
    have hmine : s.bound x p = true := (State.bound_iff p).mpr ⟨hpart, fun i hi => (hport i hi).2.2.trans hpart⟩
    have answers {k u : State} (hk : k = u) := hopen.answered hmine hk
    refine ⟨?due, ?atOnce, answers rfl, ?release, fun cap => ⟨?below, ?sets⟩, fun a l hlen => ⟨?writes, ?elsewhere⟩⟩
    case due => exact fun hrun => answers (State.exportMsg_due hrun)
    case atOnce => exact fun hidle hnone => answers (State.exportMsg_none hs hidle hnone)
    case release => exact fun hjob hidle hstate hquiet => answers (State.releaseMsg_unloads hs hjob hidle hstate hquiet)
    case below => exact fun hlow => answers (State.capMsg_below hlow)
    case sets => exact fun hfits => answers (State.capMsg_sets hfits)
    case writes => exact fun hheld => answers (State.putMsg_writes hlen hheld)
    case elsewhere => exact fun hother => answers (State.putMsg_elsewhere hlen hother)
  · exact fun cert port p hport hcert hfound => State.exec_hostSessionOpen_cert hup hport hcert hfound
  · exact fun cert port hport hether hstate howner => State.exec_hostSessionOpen_port hup hport hether hstate howner
  · exact fun port hport => State.exec_hostSessionOpen_none hup hport
  · intro ring e l hring htaken hcode hanswered
    refine s.checked_of (decide_eq_true hring) ?_
    rw [if_pos hup, State.eventTaken_passes htaken hcode hanswered]

end Sys2Proof
end

section
/-!
A step on a queue, the reset state, the two apertures (R399), and which commands are carried out (R475).
-/

namespace Sys2Proof.Machine

theorem targetOf_wafer (a : Nat) : targetOf true a = waferTarget a := rfl
theorem targetOf_module (a : Nat) : targetOf false a = moduleTarget a := rfl

theorem moduleTarget_ne (a i o : Nat) : moduleTarget a ≠ .tile i o ∧ moduleTarget a ≠ .field i o := by
  unfold moduleTarget
  repeat' split
  all_goals simp

theorem waferTarget_ne (a i o : Nat) :
    waferTarget a ≠ .site i o ∧ waferTarget a ≠ .port i o ∧ waferTarget a ≠ .ezper o ∧ waferTarget a ≠ .preg o := by
  unfold waferTarget
  extract_lets f off
  repeat' split
  all_goals simp

/-- Inside the window of field `f`, the wafer aperture names a tile below the field's own registers. -/
theorem waferTarget_window {f o : Nat} (hf : f < 70) (ho : o < 0x100000000) :
    waferTarget (0x4000000000 + f * 0x100000000 + o) =
      if o < 1680 * 0x100000 then .tile (fieldTile f (o / 0x100000 % 35) (o / 0x100000 / 35)) (o % 0x100000)
      else if 0xC0000000 ≤ o then .field f (o - 0xC0000000) else .none := by
  have inside : (decide (0x4000000000 ≤ 0x4000000000 + f * 0x100000000 + o) &&
      decide (0x4000000000 + f * 0x100000000 + o < 0x4000000000 + 70 * 0x100000000)) = true := by
    simp only [Bool.and_eq_true, decide_eq_true_eq]; omega
  have hfield : (0x4000000000 + f * 0x100000000 + o - 0x4000000000) / 0x100000000 = f := by omega
  have hoff : (0x4000000000 + f * 0x100000000 + o - 0x4000000000) % 0x100000000 = o := by omega
  unfold waferTarget
  rw [if_pos inside, hfield, hoff]

theorem fieldOf_lt {t : Nat} (ht : t < 117600) : fieldOf t < 70 := by unfold fieldOf tileX tileY; omega

/-- A tile is the tile of its own field at its own place there (R15). -/
theorem fieldTile_fieldOf {t : Nat} : fieldTile (fieldOf t) (tileX t % 35) (tileY t % 48) = t := by
  unfold fieldTile tileAt fieldX fieldY fieldOf tileX tileY
  omega

theorem targetOf_tileAddr {t off : Nat} (ht : t < 117600) (hoff : off < 0x100000) : targetOf true (tileAddr t off) = .tile t off := by
  have hplace : tileY t % 48 * 35 + tileX t % 35 < 1680 := by omega
  have hx : (tileY t % 48 * 35 + tileX t % 35) % 35 = tileX t % 35 := by omega
  have hy : (tileY t % 48 * 35 + tileX t % 35) / 35 = tileY t % 48 := by omega
  have split : tileAddr t off = 0x4000000000 + fieldOf t * 0x100000000 + ((tileY t % 48 * 35 + tileX t % 35) * 0x100000 + off) := by
    unfold tileAddr; omega
  have hdiv : ((tileY t % 48 * 35 + tileX t % 35) * 0x100000 + off) / 0x100000 = tileY t % 48 * 35 + tileX t % 35 := by omega
  have hmod : ((tileY t % 48 * 35 + tileX t % 35) * 0x100000 + off) % 0x100000 = off := by omega
  rw [targetOf_wafer, split, waferTarget_window (fieldOf_lt ht) (by omega), if_pos (by omega), hdiv, hmod, hx, hy, fieldTile_fieldOf]

theorem targetOf_fieldAddr {f off : Nat} (hf : f < 70) (hoff : off < 0x40000000) : targetOf true (fieldAddr f off) = .field f off := by
  have split : fieldAddr f off = 0x4000000000 + f * 0x100000000 + (0xC0000000 + off) := by unfold fieldAddr; omega
  rw [targetOf_wafer, split, waferTarget_window hf (by omega), if_neg (by omega), if_pos (by omega), Nat.add_sub_cancel_left]

theorem targetOf_siteAddr {n off : Nat} (hn : n < 48) (hoff : off < 0x10000000) : targetOf false (siteAddr n off) = .site n off := by
  rw [targetOf_module]
  unfold moduleTarget siteAddr
  rw [if_neg (by omega), if_pos (by simp only [Bool.and_eq_true, decide_eq_true_eq]; omega)]
  rw [Target.site.injEq]; omega

theorem targetOf_portAddr {q off : Nat} (hq : q < 12) (hoff : off < 0x1000000) : targetOf false (portAddr q off) = .port q off := by
  rw [targetOf_module]
  unfold moduleTarget portAddr
  simp only [Bool.and_eq_true, decide_eq_true_eq]
  rw [if_neg (by omega), if_neg (by omega), if_pos (by omega)]
  rw [Target.port.injEq]; omega

theorem targetOf_ezAddr {off : Nat} (hoff : off < 0x1000000) : targetOf false (ezAddr off) = .ezper off := by
  rw [targetOf_module]
  unfold moduleTarget ezAddr
  simp only [Bool.and_eq_true, decide_eq_true_eq]
  rw [if_neg (by omega), if_neg (by omega), if_neg (by omega), if_neg (by omega), if_neg (by omega),
    if_pos (by omega), Nat.add_sub_cancel_left]

/-- Among the offsets of Tables 5.4 to 5.8 (R136), exactly the words have registers. -/
theorem regAt_tileRg {off : Nat} (hlow : 0x100 ≤ off) (hhigh : off < 0x240) :
    (regAt tileRegs off).isSome = decide (off % 4 = 0) := by
  have every : ∀ i < 20, ∀ j < 16, (regAt tileRegs (0x100 + 16 * i + j)).isSome = decide ((0x100 + 16 * i + j) % 4 = 0) := by decide
  have place : off = 0x100 + 16 * ((off - 0x100) / 16) + (off - 0x100) % 16 := by omega
  rw [place]
  exact every _ (by omega) _ (by omega)

/-- A command checks its operands' ranges and nothing else before it is carried out (R475). -/
theorem exec_checked (i : Instr) (s : State) : ∃ k, exec i s = s.checked i.wf k := by
  cases i with
  | tileRgWrite priv t off v =>
    refine ⟨s.csrWrite priv t off v, congrArg (s.checked · _) ?_⟩
    simp only [Instr.wf, isTile]
    by_cases hr : 0x100 ≤ off ∧ off < 0x240
    · rw [regAt_tileRg hr.1 hr.2]; rfl
    · rcases not_and_or.mp hr with h | h <;> simp [h]
  | flitInject t => exact ⟨_, congrArg (s.checked · _) (Bool.and_true _)⟩
  | combinedReturnCopy t => exact ⟨_, congrArg (s.checked · _) (Bool.and_true _)⟩
  | rdataArrive t => exact ⟨_, congrArg (s.checked · _) (Bool.and_true _)⟩
  | unitAckArrive t => exact ⟨_, congrArg (s.checked · _) (Bool.and_true _)⟩
  | sendFlitArrive t => exact ⟨_, congrArg (s.checked · _) (Bool.and_true _)⟩
  | pwinFill n =>
    obtain ⟨site, copy, flips⟩ := n
    cases copy with
    | none => exact ⟨_, rfl⟩
    | some ab => exact ⟨_, rfl⟩
  | capacityChange kind u owner => cases kind <;> exact ⟨_, rfl⟩
  | _ => exact ⟨_, rfl⟩

end Sys2Proof.Machine

namespace Sys2Proof
open Machine

/-- Settles O1: a step takes the front of the queue. -/
theorem stepRunsFront : Obligations.StepRunsFront := by
  unfold Obligations.StepRunsFront
  exact fun _ _ _ => rfl

/-- Settles O35: a window address is the base of its unit's window and the offset in it. -/
theorem apertureMap : Obligations.ApertureMap := by
  unfold Obligations.ApertureMap
  refine ⟨fun t off ht hoff => targetOf_tileAddr (of_decide_eq_true ht) hoff, fun f off hf hoff => targetOf_fieldAddr hf hoff,
    fun n off hn hoff => targetOf_siteAddr hn hoff, fun q off hq hoff => targetOf_portAddr hq hoff, fun off hoff => targetOf_ezAddr hoff,
    fun a i o => ?_⟩
  obtain ⟨hsite, hport, hez, hpreg⟩ := waferTarget_ne a i o
  obtain ⟨htile, hfield⟩ := moduleTarget_ne a i o
  exact ⟨htile, hfield, hsite, hport, hez, hpreg⟩

/-- Settles O58: a command is its effect where its operands are in range, the model's own fault elsewhere. -/
theorem wellFormedCompletes : Obligations.WellFormedCompletes := by
  unfold Obligations.WellFormedCompletes
  intro i s
  obtain ⟨k, hk⟩ := exec_checked i s
  rw [hk]
  exact ⟨fun h => ⟨k, State.checked_next.mpr ⟨h, rfl⟩⟩, fun h => State.checked_fault.mpr ⟨h, rfl⟩⟩

/-- Settles O55: the reset state lists nothing, so that every part of it is blank and every register reads its reset value. -/
theorem resetState : Obligations.ResetState := by
  unfold Obligations.ResetState
  refine ⟨rfl, rfl, rfl, rfl, rfl, rfl, rfl, fun t => ⟨rfl, ?_⟩, fun f => ⟨rfl, rfl⟩, fun n => ⟨rfl, rfl, rfl, rfl⟩, fun q => ⟨rfl, ?_⟩,
    fun p => ⟨rfl, rfl⟩, fun o => rfl, fun o => rfl, ?_, ?_, ?_⟩
  · exact (by decide : runBit {} = false)
  · exact (by decide : bits (regReset portRegs 0x0) 23 20 = 15)
  · decide
  · decide
  · decide

end Sys2Proof
end

section
/-!
What every command keeps: the queue of waiting commands, and the canonical form of the parts. `c` is the condition under which the canonical
form holds to begin with, so that one proof serves both states in canonical form and all others.
-/

namespace Sys2Proof.Map

variable {α : Type} {p : Nat × α → Bool}

theorem all_insert {m : Map α} {k : Nat} {x : α} (h : m.all p = true) (hx : p (k, x) = true) : (insert m k x).all p = true := by
  induction m with
  | nil => simpa [insert] using hx
  | cons e m ih =>
    obtain ⟨j, v⟩ := e
    simp only [List.all_cons, Bool.and_eq_true] at h
    simp only [insert]
    split
    · simp [hx, h.2]
    · split
      · simp [hx, h.1, h.2]
      · simp [h.1, ih h.2]

theorem all_erase {m : Map α} {k : Nat} (h : m.all p = true) : (erase m k).all p = true := by
  induction m with
  | nil => rfl
  | cons e m ih =>
    obtain ⟨j, v⟩ := e
    simp only [List.all_cons, Bool.and_eq_true] at h
    simp only [erase]
    split
    · exact h.2
    · split
      · simp [h.1, h.2]
      · simp [h.1, ih h.2]

/-- A write of a value that has a property keeps the property of every listed value. -/
theorem all_set [DecidableEq α] {d : Nat → α} {m : Map α} {k : Nat} {x : α} (h : m.all p = true) (hx : p (k, x) = true) :
    (set d m k x).all p = true := by
  unfold set
  split
  · exact all_erase h
  · exact all_insert h hx

end Sys2Proof.Map

namespace Sys2Proof.Machine

variable {c : Prop}

/-- Where `c` holds, the tile is in canonical form. -/
def Tile.Kept (c : Prop) (x : Tile) : Prop := c → x.canonical = true
@[inherit_doc Tile.Kept] def Field.Kept (c : Prop) (x : Field) : Prop := c → x.canonical = true
@[inherit_doc Tile.Kept] def Site.Kept (c : Prop) (x : Site) : Prop := c → x.canonical = true
@[inherit_doc Tile.Kept] def Port.Kept (c : Prop) (x : Port) : Prop := c → Map.wf (regReset portRegs) x.csr = true
@[inherit_doc Tile.Kept] def Module.Kept (c : Prop) (m : Module) : Prop := c → m.canonical = true

/-- The queue is `l`, and where `c` holds the state is in canonical form. -/
def State.Kept (l : List Instr) (c : Prop) (s : State) : Prop := s.pending = l ∧ (c → s.canonical = true)

/-! Tiles. -/

theorem Tile.kept_iff {x : Tile} : x.Kept c ↔ (c → Map.wf (regReset tileRegs) x.csr = true ∧ Map.wf (fun _ => 0#32) x.spd = true ∧
    Map.wf (fun _ => 0) x.par = true ∧ Map.wf (fun _ => 0#32) x.istore = true ∧ Map.wf (fun _ => 0) x.ipar = true ∧
    Map.wf (fun _ => 0#64) x.sregs = true ∧ Map.wf (fun _ => 0#32) x.vregs = true ∧ Map.wf (fun _ => 0#64) x.pregs = true ∧
    Map.wf (fun _ => ({} : Region)) x.regions = true) := by
  simp only [Tile.Kept, Tile.canonical, Bool.and_eq_true, and_assoc]

theorem Tile.Kept.blank : Tile.Kept c {} := fun _ => rfl

namespace Tile.Kept
variable {x : Tile} (h : x.Kept c)
include h

theorem csrWf (hc : c) : Map.wf (regReset tileRegs) x.csr = true := (kept_iff.mp h hc).1
theorem spdWf (hc : c) : Map.wf (fun _ => 0#32) x.spd = true := (kept_iff.mp h hc).2.1
theorem parWf (hc : c) : Map.wf (fun _ => 0) x.par = true := (kept_iff.mp h hc).2.2.1
theorem istoreWf (hc : c) : Map.wf (fun _ => 0#32) x.istore = true := (kept_iff.mp h hc).2.2.2.1
theorem iparWf (hc : c) : Map.wf (fun _ => 0) x.ipar = true := (kept_iff.mp h hc).2.2.2.2.1
theorem sregsWf (hc : c) : Map.wf (fun _ => 0#64) x.sregs = true := (kept_iff.mp h hc).2.2.2.2.2.1
theorem vregsWf (hc : c) : Map.wf (fun _ => 0#32) x.vregs = true := (kept_iff.mp h hc).2.2.2.2.2.2.1
theorem pregsWf (hc : c) : Map.wf (fun _ => 0#64) x.pregs = true := (kept_iff.mp h hc).2.2.2.2.2.2.2.1
theorem regionsWf (hc : c) : Map.wf (fun _ => ({} : Region)) x.regions = true := (kept_iff.mp h hc).2.2.2.2.2.2.2.2

/-! A map of the tile replaced by one in canonical form. -/

theorem withCsr {m : Map Word} (hm : c → Map.wf (regReset tileRegs) m = true) : Tile.Kept c { x with csr := m } :=
  kept_iff.mpr fun hc => ⟨hm hc, (kept_iff.mp h hc).2⟩
theorem withSpd {m : Map Word} (hm : c → Map.wf (fun _ => 0#32) m = true) : Tile.Kept c { x with spd := m } :=
  kept_iff.mpr fun hc => ⟨h.csrWf hc, hm hc, (kept_iff.mp h hc).2.2⟩
theorem withPar {m : Map Nat} (hm : c → Map.wf (fun _ => 0) m = true) : Tile.Kept c { x with par := m } :=
  kept_iff.mpr fun hc => ⟨h.csrWf hc, h.spdWf hc, hm hc, (kept_iff.mp h hc).2.2.2⟩
theorem withIstore {m : Map Word} (hm : c → Map.wf (fun _ => 0#32) m = true) : Tile.Kept c { x with istore := m } :=
  kept_iff.mpr fun hc => ⟨h.csrWf hc, h.spdWf hc, h.parWf hc, hm hc, (kept_iff.mp h hc).2.2.2.2⟩
theorem withIpar {m : Map Nat} (hm : c → Map.wf (fun _ => 0) m = true) : Tile.Kept c { x with ipar := m } :=
  kept_iff.mpr fun hc => ⟨h.csrWf hc, h.spdWf hc, h.parWf hc, h.istoreWf hc, hm hc, (kept_iff.mp h hc).2.2.2.2.2⟩
theorem withSregs {m : Map DWord} (hm : c → Map.wf (fun _ => 0#64) m = true) : Tile.Kept c { x with sregs := m } :=
  kept_iff.mpr fun hc => ⟨h.csrWf hc, h.spdWf hc, h.parWf hc, h.istoreWf hc, h.iparWf hc, hm hc, h.vregsWf hc, h.pregsWf hc, h.regionsWf hc⟩
theorem withVregs {m : Map Word} (hm : c → Map.wf (fun _ => 0#32) m = true) : Tile.Kept c { x with vregs := m } :=
  kept_iff.mpr fun hc => ⟨h.csrWf hc, h.spdWf hc, h.parWf hc, h.istoreWf hc, h.iparWf hc, h.sregsWf hc, hm hc, h.pregsWf hc, h.regionsWf hc⟩
theorem withPregs {m : Map DWord} (hm : c → Map.wf (fun _ => 0#64) m = true) : Tile.Kept c { x with pregs := m } :=
  kept_iff.mpr fun hc => ⟨h.csrWf hc, h.spdWf hc, h.parWf hc, h.istoreWf hc, h.iparWf hc, h.sregsWf hc, h.vregsWf hc, hm hc, h.regionsWf hc⟩
theorem withRegions {m : Map Region} (hm : c → Map.wf (fun _ => ({} : Region)) m = true) : Tile.Kept c { x with regions := m } :=
  kept_iff.mpr fun hc => ⟨h.csrWf hc, h.spdWf hc, h.parWf hc, h.istoreWf hc, h.iparWf hc, h.sregsWf hc, h.vregsWf hc, h.pregsWf hc, hm hc⟩

end Tile.Kept

/-! Fields, sites and ports. -/

theorem Field.kept_iff {x : Field} : x.Kept c ↔ (c → Map.wf (regReset fieldRegs) x.csr = true ∧ Map.wf factoryWord x.accepted = true ∧
    Map.wf factoryWord x.applied = true) := by
  simp only [Field.Kept, Field.canonical, Bool.and_eq_true, and_assoc]

theorem Field.Kept.blank : Field.Kept c {} := fun _ => rfl

namespace Field.Kept
variable {x : Field} (h : x.Kept c)
include h

theorem csrWf (hc : c) : Map.wf (regReset fieldRegs) x.csr = true := (kept_iff.mp h hc).1
theorem acceptedWf (hc : c) : Map.wf factoryWord x.accepted = true := (kept_iff.mp h hc).2.1
theorem appliedWf (hc : c) : Map.wf factoryWord x.applied = true := (kept_iff.mp h hc).2.2

theorem withCsr {m : Map Word} (hm : c → Map.wf (regReset fieldRegs) m = true) : Field.Kept c { x with csr := m } :=
  kept_iff.mpr fun hc => ⟨hm hc, (kept_iff.mp h hc).2⟩
theorem withAccepted {m : Map Word} (hm : c → Map.wf factoryWord m = true) : Field.Kept c { x with accepted := m } :=
  kept_iff.mpr fun hc => ⟨h.csrWf hc, hm hc, h.appliedWf hc⟩
theorem withApplied {m : Map Word} (hm : c → Map.wf factoryWord m = true) : Field.Kept c { x with applied := m } :=
  kept_iff.mpr fun hc => ⟨h.csrWf hc, h.acceptedWf hc, hm hc⟩

theorem csrPut {o : Nat} {v : Word} : (x.csrPut o v).Kept c := h.withCsr fun hc => Map.wf_set (h.csrWf hc)
theorem csrField {o hi lo v : Nat} : (x.csrField o hi lo v).Kept c := h.csrPut

end Field.Kept

theorem Site.kept_iff {x : Site} : x.Kept c ↔ (c → Map.wf (regReset siteRegs) x.csr = true ∧ Map.wf (fun _ => 0) x.keys = true ∧
    Map.wf (fun _ => 0#8) x.m.mem = true ∧ Map.wf (fun _ => 0) x.m.sealed = true) := by
  simp only [Site.Kept, Site.canonical, Bool.and_eq_true, and_assoc]

theorem Site.Kept.blank (n : Nat) : (blankSite n).Kept c := fun _ => rfl

namespace Site.Kept
variable {x : Site} (h : x.Kept c)
include h

theorem csrWf (hc : c) : Map.wf (regReset siteRegs) x.csr = true := (kept_iff.mp h hc).1
theorem keysWf (hc : c) : Map.wf (fun _ => 0) x.keys = true := (kept_iff.mp h hc).2.1
theorem memWf (hc : c) : Map.wf (fun _ => 0#8) x.m.mem = true := (kept_iff.mp h hc).2.2.1
theorem sealedWf (hc : c) : Map.wf (fun _ => 0) x.m.sealed = true := (kept_iff.mp h hc).2.2.2

theorem withCsr {m : Map Word} (hm : c → Map.wf (regReset siteRegs) m = true) : Site.Kept c { x with csr := m } :=
  kept_iff.mpr fun hc => ⟨hm hc, (kept_iff.mp h hc).2⟩
theorem withKeys {m : Map Nat} (hm : c → Map.wf (fun _ => 0) m = true) : Site.Kept c { x with keys := m } :=
  kept_iff.mpr fun hc => ⟨h.csrWf hc, hm hc, (kept_iff.mp h hc).2.2⟩
/-- The memory replaced by one whose contents and keys are in canonical form. -/
theorem withM {m : SiteMem} (hmem : c → Map.wf (fun _ => 0#8) m.mem = true) (hsealed : c → Map.wf (fun _ => 0) m.sealed = true) :
    Site.Kept c { x with m := m } :=
  kept_iff.mpr fun hc => ⟨h.csrWf hc, h.keysWf hc, hmem hc, hsealed hc⟩

theorem csrPut {o : Nat} {v : Word} : (x.csrPut o v).Kept c := h.withCsr fun hc => Map.wf_set (h.csrWf hc)
theorem csrField {o hi lo v : Nat} : (x.csrField o hi lo v).Kept c := h.csrPut
theorem csrCount {o hi lo k : Nat} : (x.csrCount o hi lo k).Kept c := h.csrField

end Site.Kept

theorem Port.Kept.blank : Port.Kept c {} := fun _ => rfl

namespace Port.Kept
variable {x : Port} (h : x.Kept c)
include h

theorem csrPut {o : Nat} {v : Word} : (x.csrPut o v).Kept c := fun hc => Map.wf_set (h hc)
theorem csrField {o hi lo v : Nat} : (x.csrField o hi lo v).Kept c := h.csrPut
theorem csrCount {o hi lo k : Nat} : (x.csrCount o hi lo k).Kept c := h.csrField

end Port.Kept

/-! The module. -/

theorem Module.kept_iff {m : Module} : m.Kept c ↔ (c → Map.wf (regReset modRegs) m.csr = true ∧ Map.wf factoryWord m.preg = true ∧
    Map.wf (fun _ => 0) m.wear = true ∧ Map.wf (fun _ => 0) m.sec.active = true ∧ Map.wf (fun _ => 0) m.sec.boot = true ∧
    Map.wf (fun _ => ({} : PartConf)) m.cc.conf = true ∧ Map.wf (Config.dramFill m.dramGen) m.dram = true) := by
  simp only [Module.Kept, Module.canonical, Bool.and_eq_true, and_assoc]

/-! The state. -/

variable {l : List Instr} {s : State}

theorem State.canonical_iff : s.canonical = true ↔ Map.wf (fun _ => ({} : Tile)) s.tiles = true ∧ Map.wf (fun _ => ({} : Field)) s.fields = true ∧
    Map.wf blankSite s.sites = true ∧ Map.wf (fun _ => ({} : Port)) s.ports = true ∧ Map.wf (fun _ => ({} : Part)) s.parts = true ∧
    (s.tiles.all fun e => e.2.canonical) = true ∧ (s.fields.all fun e => e.2.canonical) = true ∧
    (s.sites.all fun e => e.2.canonical) = true ∧ (s.ports.all fun e => Map.wf (regReset portRegs) e.2.csr) = true ∧
    s.mod.canonical = true := by
  simp only [State.canonical, Bool.and_eq_true, and_assoc]

namespace State.Kept
variable (h : s.Kept l c)
include h

theorem tile {t : Nat} : (s.tile t).Kept c := fun hc => by
  obtain ⟨-, -, -, -, -, all, -⟩ := State.canonical_iff.mp (h.2 hc)
  exact Map.get_of_all (p := fun e : Nat × Tile => e.2.canonical) all t rfl
theorem field {f : Nat} : (s.field f).Kept c := fun hc => by
  obtain ⟨-, -, -, -, -, -, all, -⟩ := State.canonical_iff.mp (h.2 hc)
  exact Map.get_of_all (p := fun e : Nat × Field => e.2.canonical) all f rfl
theorem site {n : Nat} : (s.site n).Kept c := fun hc => by
  obtain ⟨-, -, -, -, -, -, -, all, -⟩ := State.canonical_iff.mp (h.2 hc)
  exact Map.get_of_all (p := fun e : Nat × Site => e.2.canonical) all n rfl
theorem port {q : Nat} : (s.port q).Kept c := fun hc => by
  obtain ⟨-, -, -, -, -, -, -, -, all, -⟩ := State.canonical_iff.mp (h.2 hc)
  exact Map.get_of_all (p := fun e : Nat × Port => Map.wf (regReset portRegs) e.2.csr) all q rfl
theorem mod : s.mod.Kept c := fun hc => by
  obtain ⟨-, -, -, -, -, -, -, -, -, hmod⟩ := State.canonical_iff.mp (h.2 hc)
  exact hmod

theorem setTile {t : Nat} {x : Tile} (hx : x.Kept c) : (s.setTile t x).Kept l c :=
  ⟨h.1, fun hc => by
    obtain ⟨wf, hfields, hsites, hports, hparts, all, rest⟩ := State.canonical_iff.mp (h.2 hc)
    exact State.canonical_iff.mpr ⟨Map.wf_set wf, hfields, hsites, hports, hparts, Map.all_set (d := fun _ => ({} : Tile)) all (hx hc), rest⟩⟩
theorem setField {f : Nat} {x : Field} (hx : x.Kept c) : (s.setField f x).Kept l c :=
  ⟨h.1, fun hc => by
    obtain ⟨htiles, wf, hsites, hports, hparts, allTiles, all, rest⟩ := State.canonical_iff.mp (h.2 hc)
    exact State.canonical_iff.mpr ⟨htiles, Map.wf_set wf, hsites, hports, hparts, allTiles, Map.all_set (d := fun _ => ({} : Field)) all (hx hc), rest⟩⟩
theorem setSite {n : Nat} {x : Site} (hx : x.Kept c) : (s.setSite n x).Kept l c :=
  ⟨h.1, fun hc => by
    obtain ⟨htiles, hfields, wf, hports, hparts, allTiles, allFields, all, rest⟩ := State.canonical_iff.mp (h.2 hc)
    exact State.canonical_iff.mpr ⟨htiles, hfields, Map.wf_set wf, hports, hparts, allTiles, allFields, Map.all_set all (hx hc), rest⟩⟩
theorem setPort {q : Nat} {x : Port} (hx : x.Kept c) : (s.setPort q x).Kept l c :=
  ⟨h.1, fun hc => by
    obtain ⟨htiles, hfields, hsites, wf, hparts, allTiles, allFields, allSites, all, hmod⟩ := State.canonical_iff.mp (h.2 hc)
    exact State.canonical_iff.mpr ⟨htiles, hfields, hsites, Map.wf_set wf, hparts, allTiles, allFields, allSites,
      Map.all_set (d := fun _ => ({} : Port)) all (hx hc), hmod⟩⟩
theorem setPart {p : Nat} {x : Part} : (s.setPart p x).Kept l c :=
  ⟨h.1, fun hc => by
    obtain ⟨htiles, hfields, hsites, hports, wf, rest⟩ := State.canonical_iff.mp (h.2 hc)
    exact State.canonical_iff.mpr ⟨htiles, hfields, hsites, hports, Map.wf_set wf, rest⟩⟩
theorem updMod {f : Module → Module} (hm : (f s.mod).Kept c) : (s.updMod f).Kept l c :=
  ⟨h.1, fun hc => by
    obtain ⟨htiles, hfields, hsites, hports, hparts, allTiles, allFields, allSites, allPorts, -⟩ := State.canonical_iff.mp (h.2 hc)
    exact State.canonical_iff.mpr ⟨htiles, hfields, hsites, hports, hparts, allTiles, allFields, allSites, allPorts, hm hc⟩⟩
theorem say {m : Msg} : (s.say m).Kept l c := h
theorem ezPut {o : Nat} {v : Word} : (s.ezPut o v).Kept l c :=
  h.updMod (Module.kept_iff.mpr fun hc => by
    obtain ⟨hcsr, rest⟩ := Module.kept_iff.mp h.mod hc
    exact ⟨Map.wf_set hcsr, rest⟩)
theorem ezField {o hi lo v : Nat} : (s.ezField o hi lo v).Kept l c := h.ezPut

end State.Kept

/-! Either of two parts or states. -/

theorem Tile.Kept.cond {p : Prop} [Decidable p] {a b : Tile} (ha : a.Kept c) (hb : b.Kept c) : (if p then a else b).Kept c := by
  split <;> assumption
theorem Field.Kept.cond {p : Prop} [Decidable p] {a b : Field} (ha : a.Kept c) (hb : b.Kept c) : (if p then a else b).Kept c := by
  split <;> assumption
theorem Site.Kept.cond {p : Prop} [Decidable p] {a b : Site} (ha : a.Kept c) (hb : b.Kept c) : (if p then a else b).Kept c := by
  split <;> assumption
theorem Port.Kept.cond {p : Prop} [Decidable p] {a b : Port} (ha : a.Kept c) (hb : b.Kept c) : (if p then a else b).Kept c := by
  split <;> assumption
theorem State.Kept.cond {p : Prop} [Decidable p] {a b : State} (ha : a.Kept l c) (hb : b.Kept l c) : (if p then a else b).Kept l c := by
  split <;> assumption

/-! Changes made in turn. -/

theorem Tile.Kept.foldl {α : Type} {f : Tile → α → Tile} {x : Tile} {as : List α} (h : x.Kept c)
    (hf : ∀ y a, y.Kept c → (f y a).Kept c) : (as.foldl f x).Kept c :=
  List.foldlRecOn (motive := Tile.Kept c) as f h fun y hy a _ => hf y a hy
theorem Site.Kept.foldl {α : Type} {f : Site → α → Site} {x : Site} {as : List α} (h : x.Kept c)
    (hf : ∀ y a, y.Kept c → (f y a).Kept c) : (as.foldl f x).Kept c :=
  List.foldlRecOn (motive := Site.Kept c) as f h fun y hy a _ => hf y a hy
theorem State.Kept.foldl {α : Type} {f : State → α → State} {as : List α} (h : s.Kept l c)
    (hf : ∀ u a, u.Kept l c → (f u a).Kept l c) : (as.foldl f s).Kept l c :=
  List.foldlRecOn (motive := State.Kept l c) as f h fun u hu a _ => hf u a hu

end Sys2Proof.Machine
end

section
/-!
What the instructions of a tile keep: the canonical form of its registers and memories.
-/

namespace Sys2Proof.Machine

variable {c : Prop}

/-- Where `c` holds, the tile of an instruction in progress is in canonical form. -/
def TS.Kept (c : Prop) (ts : TS) : Prop := ts.t.Kept c

/-- So is the tile that a part of an instruction leaves. -/
inductive Res.Kept (c : Prop) : Res → Prop
  | ok {ts : TS} : ts.Kept c → Res.Kept c (.ok ts)
  | wait : Res.Kept c .wait
  | halt {ts : TS} : ts.Kept c → Res.Kept c (.halt ts)

@[inherit_doc Res.Kept] inductive Issue.Kept (c : Prop) : Issue → Prop
  | next {ts : TS} : ts.Kept c → Issue.Kept c (.next ts)
  | jump {ts : TS} {k : Nat} : ts.Kept c → Issue.Kept c (.jump ts k)
  | hold {ts : TS} : ts.Kept c → Issue.Kept c (.hold ts)
  | halt {ts : TS} : ts.Kept c → Issue.Kept c (.halt ts)

theorem TS.Kept.cond {p : Prop} [Decidable p] {a b : TS} (ha : a.Kept c) (hb : b.Kept c) : (if p then a else b).Kept c := by
  split <;> assumption
theorem Res.Kept.cond {p : Prop} [Decidable p] {a b : Res} (ha : a.Kept c) (hb : b.Kept c) : (if p then a else b).Kept c := by
  split <;> assumption
theorem Issue.Kept.cond {p : Prop} [Decidable p] {a b : Issue} (ha : a.Kept c) (hb : b.Kept c) : (if p then a else b).Kept c := by
  split <;> assumption

theorem TS.Kept.of {t : Tile} {free : Nat} {recs : List Rec} (h : t.Kept c) : TS.Kept c { t := t, free := free, recs := recs } := h
theorem Res.Kept.of_ok {ts : TS} (h : Res.Kept c (.ok ts)) : ts.Kept c := by
  cases h with | ok h => exact h
theorem Res.Kept.of_halt {ts : TS} (h : Res.Kept c (.halt ts)) : ts.Kept c := by
  cases h with | halt h => exact h
theorem TS.Kept.raise {ts : TS} {r : Rec} (h : ts.Kept c) : (ts.raise r).Kept c := h
theorem TS.Kept.upd {ts : TS} {f : Tile → Tile} (h : (f ts.t).Kept c) : (ts.upd f).Kept c := h

theorem Res.Kept.andThen {r : Res} {f : TS → Res} (h : r.Kept c) (hf : ∀ ts, ts.Kept c → (f ts).Kept c) : (r.andThen f).Kept c := by
  cases h with
  | ok h => exact hf _ h
  | wait => exact .wait
  | halt h => exact .halt h

theorem Issue.Kept.issue {r : Res} {ts : TS} (h : r.Kept c) (hts : ts.Kept c) : (r.issue ts).Kept c := by
  cases h with
  | ok h => exact .next h
  | wait => exact .hold hts
  | halt h => exact .halt h

/-! The registers and memories. -/

namespace Tile.Kept
variable {t : Tile} (h : t.Kept c)
include h

theorem csrPut {o : Nat} {v : Word} : (csrPut t o v).Kept c := h.withCsr fun hc => Map.wf_set (h.csrWf hc)
theorem csrField {o hi lo v : Nat} : (csrField t o hi lo v).Kept c := h.csrPut
theorem csrCount {o hi lo k : Nat} : (csrCount t o hi lo k).Kept c := h.csrField
theorem putSeed {v : Nat} : (putSeed t v).Kept c := h.csrPut
theorem setRegion {n : Nat} {r : Region} : (setRegion t n r).Kept c := h.withRegions fun hc => Map.wf_set (h.regionsWf hc)
theorem setSreg {n : Nat} {v : DWord} : (setSreg t n v).Kept c := h.withSregs fun hc => Map.wf_set (h.sregsWf hc)
theorem setVreg {n : Nat} {ws : List Word} : (setVreg t n ws).Kept c := h.withVregs fun hc => Map.wf_setMany (h.vregsWf hc)
theorem setPreg {n : Nat} {v : DWord} : (setPreg t n v).Kept c := h.withPregs fun hc => Map.wf_set (h.pregsWf hc)
theorem setSpd {i : Nat} {w : Word} : Tile.Kept c { t with spd := Map.set (fun _ => 0#32) t.spd i w } :=
  h.withSpd fun hc => Map.wf_set (h.spdWf hc)
theorem setPar {i k : Nat} : Tile.Kept c { t with par := Map.set (fun _ => 0) t.par i k } := h.withPar fun hc => Map.wf_set (h.parWf hc)
theorem setIpar {i k : Nat} : Tile.Kept c { t with ipar := Map.set (fun _ => 0) t.ipar i k } := h.withIpar fun hc => Map.wf_set (h.iparWf hc)
theorem setIstore {i : Nat} {w : Word} : Tile.Kept c { t with istore := Map.set (fun _ => 0#32) t.istore i w } :=
  h.withIstore fun hc => Map.wf_set (h.istoreWf hc)

theorem injFire : (injFire t).Kept c := h.csrField.csrField

theorem parityRecord {port bytes idx : Nat} : (parityRecord t port bytes idx).Kept c := by
  have counted : (Machine.csrField (Machine.csrCount t 0x308 31 0 1) 0x300 2 2 1).Kept c := h.csrCount.csrField
  exact .cond counted counted.csrPut

theorem writePhys {i : Nat} {w : Word} : (writePhys t i w).Kept c := h.setSpd.setPar
theorem writeBytes {i m : Nat} {w : Word} : (writeBytes t i m w).Kept c := h.setSpd.setPar
theorem loosen {vec : Bool} {rg : Option Nat} {old : Tile} {is : List Nat} : (loosen vec rg old t is).Kept c := h
theorem clearWords {a n : Nat} : (clearWords t a n).Kept c :=
  (h.withSpd fun hc => Map.wf_clearRange (h.spdWf hc)).withPar fun hc => Map.wf_clearRange (h.parWf hc)

end Tile.Kept

theorem Tile.Kept.writeRegion {r : Region} (ws : List Word) : ∀ {t : Tile} {o : Nat}, t.Kept c → (writeRegion t r o ws).Kept c := by
  induction ws with
  | nil => exact id
  | cons w ws ih => exact fun h => ih h.writePhys

theorem Tile.Kept.storeMasked {r : Region} {m : Nat → Nat} (ws : List Word) :
    ∀ {t : Tile} {o i : Nat}, t.Kept c → (storeMasked t r m o i ws).Kept c := by
  induction ws with
  | nil => exact id
  | cons w ws ih => exact fun h => ih h.writeBytes

/-! Stops, reads and regions. -/

namespace TS.Kept
variable {ts : TS} (h : ts.Kept c)
include h

theorem tile : ts.t.Kept c := h

theorem stopWith {e : Env} {fcause pc src code addr : Nat} {regs : List Nat} {inj : Bool} :
    (stopWith e ts fcause pc src code addr regs inj).Kept c := by
  unfold Machine.stopWith
  exact .halt (.of (.cond h h))

theorem stopSeq {e : Env} {fcause pc : Nat} : (stopSeq e ts fcause pc).Kept c := h.stopWith

theorem stopRegion {e : Env} {cause rg pc : Nat} : (stopRegion e ts cause rg pc).Kept c := by
  unfold Machine.stopRegion
  exact TS.Kept.stopWith (.of (.csrField (.csrField (.csrField h.tile))))

theorem stopParity {e : Env} {rg pc port bytes idx : Nat} {inj : Bool} : (stopParity e ts rg pc port bytes idx inj).Kept c := by
  unfold Machine.stopParity
  exact TS.Kept.stopWith (.of (.csrField (.csrField (.csrField (.csrField h.tile)))))

theorem undefWord {id : Nat} : (undefWord id ts).1.Kept c := h

theorem eitherWord {port idx : Nat} {via : Option Nat} {w : Word} : (eitherWord ts port idx via w).1.Kept c := by
  unfold Machine.eitherWord
  split <;> exact h

theorem readPhys {id port idx : Nat} {via : Option Nat} : (readPhys id ts port idx via).1.Kept c := by
  unfold Machine.readPhys
  extract_lets hit flips fired t1 bad t2 ts2 w
  have hstruck : Tile.Kept c { Machine.injFire ts.t with par := Map.set (fun _ => 0) ts.t.par idx flips } :=
    h.tile.injFire.withPar fun hc => Map.wf_set (h.tile.parWf hc)
  have h1 : t1.Kept c := .cond hstruck h.tile
  have h2 : ts2.Kept c := .of (.cond h1 h1.parityRecord)
  clear_value ts2
  split
  · exact h2.undefWord (id := id)
  · exact h2.eitherWord

theorem useRegion {e : Env} {rg u pc : Nat} {out : Bool} {k : Region → Res} (hk : ∀ r, (k r).Kept c) :
    (useRegion e ts rg u pc out k).Kept c := by
  unfold Machine.useRegion
  exact .cond h.stopRegion (.cond h.stopRegion (hk _))

theorem legally {e : Env} {ok : Bool} {k : Issue} (hk : k.Kept c) : (legally e ok ts k).Kept c := by
  unfold Machine.legally
  exact .cond hk (.issue h.stopSeq h)

theorem transfer {e : Env} {u : TS} {target : Nat} (hu : u.Kept c) : (transfer e ts u target).Kept c := by
  unfold Machine.transfer
  exact .cond (.issue h.stopSeq h) (.jump hu)

end TS.Kept

theorem TS.Kept.readEach {id port : Nat} {via : Option Nat} (is : List Nat) :
    ∀ {ts : TS}, ts.Kept c → (Machine.readEach id port via ts is).1.Kept c := by
  induction is with
  | nil => exact fun h => h
  | cons i is ih =>
    intro ts h
    exact ih h.readPhys

theorem TS.Kept.readWords {e : Env} {ts : TS} {port pc : Nat} {via : Option Nat} {is : List Nat} {k : TS → List Word → Res}
    (h : ts.Kept c) (hk : ∀ u ws, u.Kept c → (k u ws).Kept c) : (readWords e ts port via pc is k).Kept c := by
  have hread : (Machine.readEach e.id port via ts is).1.Kept c := h.readEach is
  unfold Machine.readWords
  split
  next heq => rw [heq] at hread; exact hk _ _ hread
  next heq => rw [heq] at hread; exact hread.stopParity

/-! Issue (R148). -/

/-- The tile that a stop leaves. -/
theorem Res.Kept.stopped {r : Res} {ts : TS} (h : r.Kept c) (hts : ts.Kept c) : TS.Kept c (match r with | .halt u => u | _ => ts) := by
  cases h with
  | ok _ => exact hts
  | wait => exact hts
  | halt h => exact h

theorem TS.Kept.issueTile {e : Env} {ts : TS} {f : TS → Issue} (h : ts.Kept c) (hf : (f ts).Kept c) : (issueTile e ts f).Kept c := by
  unfold Machine.issueTile
  refine .cond h (.cond ?_ (.cond ?_ ?_))
  · exact h.stopSeq.stopped h
  · exact (TS.Kept.stopWith (.cond (.upd h.tile.injFire) h)).stopped h
  · generalize f ts = i at hf
    cases hf with
    | next h => exact h
    | jump h => exact h
    | hold h => exact h
    | halt h => exact h

/-! The sequencer's instructions (R156 to R164). -/

namespace TS.Kept
variable {e : Env} {ts : TS} (h : ts.Kept c)
include h

theorem branch {f : LB} {one : Bool} {p : DWord → DWord → Bool} : (branch e ts f one p).Kept c :=
  h.legally (.cond (.hold h) (.cond (h.transfer h) (.next h)))
theorem tJmp {f : LB} : (tJmp e ts f).Kept c := h.legally (h.transfer h)
theorem tJal {f : LB} : (tJal e ts f).Kept c := h.legally (.cond (.hold h) (h.transfer (.upd (.setSreg h.tile))))
theorem tJr {f : LB} : (tJr e ts f).Kept c := h.legally (.cond (.hold h) (.cond (.issue h.stopSeq h) (h.transfer h)))
theorem tLoop {f : LB} : (tLoop e ts f).Kept c :=
  have hdec : (ts.upd fun t => Machine.setSreg t f.sa.toNat (sreg ts.t f.sa.toNat - 1)).Kept c := .upd (.setSreg h.tile)
  h.legally (.cond (.hold h) (.cond (.next hdec) (h.transfer hdec)))
theorem tEnd {f : LB} : (tEnd e ts f).Kept c := h.legally (.next (.upd h.tile))
theorem tNop {f : LSI} : (tNop e ts f).Kept c := h.legally (.next h)
theorem tFence {f : LSI} : (tFence e ts f).Kept c := h.legally (.cond (.hold h) (.next (.cond (.upd h.tile) h)))
theorem tTime {f : LSI} : (tTime e ts f).Kept c := h.legally (.cond (.hold h) (.next (.upd (.setSreg h.tile))))
theorem tEvent {f : LSI} : (tEvent e ts f).Kept c := by
  refine h.legally (.cond (.hold h) ?_)
  split
  · exact .hold (.upd h.tile)
  · exact .cond (.next (.upd h.tile)) (.hold h)
theorem tAlu {f : LSR} {fn : AFn} : (tAlu e ts f fn).Kept c := h.legally (.cond (.hold h) (.next (.upd (.setSreg h.tile))))
theorem tMov {f : LSR} : (tMov e ts f).Kept c := h.legally (.cond (.hold h) (.next (.upd (.setSreg h.tile))))
theorem tAluImm {f : LSI} {fn : AFn} : (tAluImm e ts f fn).Kept c := h.legally (.cond (.hold h) (.next (.upd (.setSreg h.tile))))
theorem tLoadImm {f : LSI} {v : DWord → Word → DWord} : (tLoadImm e ts f v).Kept c :=
  h.legally (.cond (.hold h) (.next (.upd (.setSreg h.tile))))
theorem absolute {f : LSM} {n : Nat} {busy : List Nat} {k : Nat → Issue} (hk : ∀ a, (k a).Kept c) : (absolute e ts f n busy k).Kept c :=
  h.legally (.cond (.hold h) (.cond (.issue h.stopRegion h) (hk _)))
theorem tLoad {f : LSM} {n : Nat} : (tLoad e ts f n).Kept c :=
  h.absolute fun _ => .issue (h.readWords fun _ _ hu => .ok (.upd (.setSreg hu.tile))) h
theorem tStore {f : LSM} {n : Nat} : (tStore e ts f n).Kept c :=
  h.absolute fun _ => .next (.upd (.loosen (.cond (.writePhys (.writePhys h.tile)) (.writePhys h.tile))))
theorem tCsrr {f : LSM} : (tCsrr e ts f).Kept c := h.legally (.cond (.hold h) (.next (.upd (.setSreg h.tile))))
theorem tQueue {f : LQ} {unit : Region → Bool} {can : Region → Nat → Bool} {upd : Region → Nat → Region} {ord : Region → Nat → Tile → Tile}
    (hord : ∀ r n (t : Tile), t.Kept c → (ord r n t).Kept c) : (tQueue e ts f unit can upd ord).Kept c :=
  h.legally (.cond (.hold h) (.cond (.issue h.stopRegion h) (.cond (.issue h.stopRegion h) (.cond (.issue h.stopRegion h)
    (.cond (.issue h.stopRegion h) (.cond (.next (.upd (hord _ _ _ (.setRegion h.tile)))) (.hold h)))))))
theorem tRgSet {f : LQ} : (tRgSet e ts f).Kept c :=
  h.legally (.cond (.hold h) (.cond (.hold h) (.cond (.issue h.stopSeq h) (.cond (.issue h.stopRegion h) (.next (.upd (.setRegion h.tile)))))))
theorem tRgGet {f : LQ} : (tRgGet e ts f).Kept c :=
  h.legally (.cond (.hold h) (.cond (.issue h.stopRegion h) (.next (.upd (.setSreg h.tile)))))
theorem tSpdClr {f : LQ} : (tSpdClr e ts f).Kept c :=
  h.legally (.cond (.hold h) (.cond (.issue h.stopRegion h) (.cond (.hold h) (.next (.upd (.clearWords h.tile))))))

end TS.Kept

end Sys2Proof.Machine
end

section
/-!
What transfers (R181 to R183) and the outer-product engine (R172 to R180) keep of their tile.
-/

namespace Sys2Proof.Machine

variable {c : Prop}

/-! Transfers. -/

theorem TS.Kept.tNet {e : Env} {ts : TS} {f : LN} {k : NetKind} (h : ts.Kept c) : (tNet e ts f k).Kept c := by
  refine h.legally (.cond (.hold h) (.cond (.issue h.stopSeq h) (.issue (h.useRegion fun r => ?_) h)))
  have start (into : Option Nat) (t : Tile) (a b : DWord) : Res.Kept c (if into.any (openInto t) = true then .wait else
      match freeTid t with
      | none => .wait
      | some tid => .ok (ts.upd fun t' => { t' with net := t'.net ++ [transferOf t tid k f a b] })) := by
    refine .cond .wait ?_
    split
    · exact .wait
    · exact .ok (.upd h.tile)
  refine .cond h.stopRegion ?_
  split
  · exact .cond (start _ _ _ _) (h.useRegion fun q => .cond h.stopRegion (start _ _ _ _))
  · exact start _ _ _ _
  · exact start _ _ _ _

theorem TS.Kept.tUnitIssue {e : Env} {ts : TS} {tid edge : Nat} (h : ts.Kept c) : (tUnitIssue e ts tid edge).Kept c := by
  unfold Machine.tUnitIssue
  split
  · exact .ok h
  · split
    · exact .ok h
    · exact .cond .wait (h.readWords fun _ _ hu => .ok (.upd hu.tile))

namespace Tile.Kept
variable {t : Tile} (h : t.Kept c)
include h

theorem setTransfer {x : Transfer} : (setTransfer t x).Kept c := h

theorem settleSend {g : Nat} : (settleSend t g).Kept c := by
  unfold Machine.settleSend
  split
  · exact h
  · exact .cond h.setRegion h

theorem settleAll : (settleAll t).Kept c := .foldl h fun _ _ hy => hy.settleSend

theorem freeSlot {tid : Nat} : (freeSlot t tid).Kept c := Tile.Kept.settleAll h

theorem tTransferComplete {tid : Nat} : (tTransferComplete t tid).Kept c := by
  unfold Machine.tTransferComplete
  split
  · exact h
  · exact .cond (.freeSlot (.cond (.cond h.setRegion h.setRegion) (.setRegion (.cond h.setRegion h.setRegion)))) h

theorem tReturn {tid seq : Nat} {old : Bool} {ws : List Word} : (tReturn t tid seq old ws).Kept c := by
  unfold Machine.tReturn
  split
  · exact h
  · exact .setTransfer (.cond h (h.writeRegion ws))

theorem tAck {tid seq : Nat} : (tAck t tid seq).Kept c := by
  unfold Machine.tAck
  split <;> exact h

theorem tErr {tid seq : Nat} : (tErr t tid seq).Kept c := by
  unfold Machine.tErr
  split <;> exact h

theorem tEndReport : (tEndReport t).Kept c := .cond h h

end Tile.Kept

/-! The outer-product engine: issue. -/

theorem TS.Kept.checkOperands {e : Env} {ts : TS} {pc : Nat} {k : Res} (h : ts.Kept c) (hk : k.Kept c) (gs : List (Nat × Nat)) :
    (checkOperands e ts pc k gs).Kept c := by
  induction gs with
  | nil => exact hk
  | cons g gs ih => exact h.useRegion fun r => .cond h.stopRegion ih

namespace TS.Kept
variable {e : Env} {ts : TS} (h : ts.Kept c)
include h

theorem issueProduct {p : Product} {cost : Nat} : (issueProduct e ts p cost).Kept c :=
  .issue (h.checkOperands (.cond .wait (.cond .wait (.ok (.upd h.tile)))) _) h

theorem tOpeMul {f : LOM} {cont : Bool} : (tOpeMul e ts f cont).Kept c := h.legally (.cond (.hold h) h.issueProduct)
theorem tOpeCube {f : LOC} : (tOpeCube e ts f).Kept c := h.legally h.issueProduct
theorem tOpeDrn {f : LOD} : (tOpeDrn e ts f).Kept c :=
  h.legally (.cond (.hold h) (.cond (.issue h.stopSeq h) (.cond (.issue h.stopSeq h) (.issue (h.useRegion fun _ =>
    .cond h.stopRegion (.cond h.stopRegion (.cond .wait (.ok (.upd h.tile.csrPut))))) h))))

end TS.Kept

/-! Its feeds. -/

namespace Tile.Kept
variable {t : Tile} (h : t.Kept c)
include h

theorem beginProduct {p : Product} : (beginProduct t p).1.Kept c := by
  unfold Machine.beginProduct
  extract_lets off p1 t1
  have h1 : t1.Kept c := .foldl h fun _ _ hy => hy.setRegion
  exact h1

theorem enterFeed {p : Product} : (enterFeed t p).Kept c := h

end Tile.Kept

namespace TS.Kept
variable {e : Env} {ts : TS} (h : ts.Kept c)
include h

theorem hazard {p : Product} {attempt : Nat} {cs : List Claim} {inj : Bool} {k : TS → Product → Res}
    (hk : ∀ u q, u.Kept c → (k u q).Kept c) : (hazard e ts p attempt cs inj k).Kept c := by
  unfold Machine.hazard
  split
  · exact hk _ _ h
  · extract_lets t1 act1
    have h1 : t1.Kept c := h.tile.csrCount
    split
    extract_lets t2 r t3
    have h2 : t2.Kept c := .cond h1 (.csrPut (.csrPut (.csrPut h1)))
    have h3 : t3.Kept c := h2.csrField
    exact .cond (.halt (.of (.cond h3 h3))) (.cond (hk _ _ (.of h2)) (hk _ _ (.of h2)))

end TS.Kept

theorem TS.Kept.beatWords {id : Nat} {p : Product} {bad : Claim → Bool} (rs : List FeedRead) :
    ∀ {ts : TS} {cs : List Claim}, ts.Kept c → (beatWords id p bad ts rs cs).1.Kept c := by
  induction rs with
  | nil => exact fun h => h
  | cons x rs ih =>
    intro ts cs h
    cases cs with
    | nil => exact h
    | cons d cs =>
      unfold Machine.beatWords
      extract_lets i port
      have hread : (Machine.readPhys id ts port i (some x.rg)).1.Kept c := h.readPhys
      generalize Machine.readPhys id ts port i (some x.rg) = r at hread
      obtain ⟨ts1, w, fails, inj⟩ := r
      have hopen : (if bad d = true then Machine.undefWord id ts1 else (ts1, w)).1.Kept c := by
        split
        · exact hread.undefWord (id := id)
        · exact hread
      exact ih hopen

namespace TS.Kept
variable {e : Env} {ts : TS} (h : ts.Kept c)
include h

theorem readBeat {p : Product} {bad : Claim → Bool} {rs : List FeedRead} {cs : List Claim} {k : TS → List (FeedSrc × Word) → Res}
    (hk : ∀ u ws, u.Kept c → (k u ws).Kept c) : (readBeat e ts p bad rs cs k).Kept c := by
  have hread : (Machine.beatWords e.id p bad ts rs cs).1.Kept c := h.beatWords rs
  unfold Machine.readBeat
  split
  next heq => rw [heq] at hread; exact hk _ _ hread
  next heq => rw [heq] at hread; exact hread.stopParity

theorem feedBeat {p : Product} : (feedBeat e ts p).Kept c := by
  unfold Machine.feedBeat
  extract_lets rs attempt inj ts0 cl extra seen go
  have h0 : ts0.Kept c := .cond (.upd h.tile.injFire) h
  have hgo {u : TS} {q : Product} {bad : Claim → Bool} (hu : u.Kept c) : (go u q bad).Kept c :=
    hu.readBeat fun _ _ hv => .ok (.of hv.tile)
  exact .cond .wait (.cond (.cond (h0.hazard fun _ _ hu => hgo hu) (hgo h0)) (hgo h0))

theorem nextFeed : (nextFeed e ts).Kept c := by
  unfold Machine.nextFeed
  extract_lets o u
  have hu : u.Kept c := .upd h.tile
  split
  · exact .ok hu
  · split
    · exact .ok (.upd hu.tile)
    · split
      · split
        · exact hu.stopSeq
        · exact .wait
        · exact .cond .wait (.ok (.of (.enterFeed (.beginProduct hu.tile))))
      · exact .wait

end TS.Kept

/-! Its drains, checks and releases. -/

theorem Res.Kept.haltOpe {r : Res} (h : r.Kept c) : (haltOpe r).Kept c := by
  cases h with
  | ok h => exact .ok h
  | wait => exact .wait
  | halt h => exact .halt h

theorem TS.Kept.tDrainStart {e : Env} {ts : TS} {k : Nat} (h : ts.Kept c) : (tDrainStart e ts k).Kept c := by
  unfold Machine.tDrainStart
  extract_lets t o a b
  split
  · exact .ok (.upd h.tile)
  · exact .cond (.haltOpe h.stopSeq) (.cond (.ok (.upd h.tile)) (.ok (.upd h.tile)))

namespace Tile.Kept
variable {t : Tile} (h : t.Kept c)
include h

theorem tSetReady {k : Nat} : (tSetReady t k).Kept c := .cond h h

theorem writeColumn {id : Nat} {r : Region} {a : AccSet} {d : Drain} {o j : Nat} : (writeColumn id t r a d o j).Kept c := h.storeMasked _

theorem writeBlock {id : Nat} {a : AccSet} {d : Drain} : (writeBlock id t a d).Kept c := .foldl h fun _ _ hy => hy.writeColumn

theorem releaseOperands {p : Product} : (releaseOperands t p).Kept c := .foldl h fun _ _ hy => hy.setRegion

theorem releaseBlock {id k : Nat} : (releaseBlock id t k).Kept c := by
  unfold Machine.releaseBlock
  extract_lets a
  split
  · exact h
  · exact .cond (.setRegion (.writeBlock h)) (.setRegion (.writeBlock h))

theorem releaseSet {id k : Nat} : (releaseSet id t k).Kept c :=
  have both : (List.foldl Machine.releaseOperands (Machine.releaseBlock id (Machine.releaseBlock id t 0) 1) (accSet t.ope k).prods).Kept c :=
    .foldl (.releaseBlock h.releaseBlock) fun _ _ hy => hy.releaseOperands
  have one : (List.foldl Machine.releaseOperands (Machine.releaseBlock id t k) (accSet t.ope k).prods).Kept c :=
    .foldl h.releaseBlock fun _ _ hy => hy.releaseOperands
  .cond (.cond both one) h

theorem releaseZero : (releaseZero t).Kept c := by
  unfold Machine.releaseZero
  split
  · exact h
  · exact .cond h (.releaseOperands h)

end Tile.Kept

theorem Tile.Kept.releaseAll {id : Nat} (n : Nat) : ∀ {t : Tile}, t.Kept c → (releaseAll id n t).Kept c := by
  induction n with
  | zero => exact fun h => h
  | succ n ih => exact fun h => ih (.releaseZero (.releaseSet (.releaseSet (.releaseZero h))))

theorem Tile.Kept.settle {id : Nat} {t : Tile} (h : t.Kept c) : (settle id t).Kept c := .cond h (h.releaseAll 6)

namespace TS.Kept
variable {e : Env} {ts : TS} (h : ts.Kept c)
include h

theorem tFeedBeat : (tFeedBeat e ts).Kept c := by
  unfold Machine.tFeedBeat
  refine .cond (.ok h) ?_
  extract_lets ts0
  have h0 : ts0.Kept c := .upd h.tile.settle
  have hbeat : ((Machine.nextFeed e ts0).andThen fun ts1 => match ts1.t.ope.feed with
      | some p => Machine.feedBeat e ts1 p
      | none => .ok (ts1.upd (Machine.settle e.id))).Kept c := h0.nextFeed.andThen fun u hu => by
    split
    · exact hu.feedBeat
    · exact .ok (.upd hu.tile.settle)
  split
  · exact .ok h0
  · exact .haltOpe hbeat

theorem ckFailed {k : Nat} {a : AccSet} {pc idx : Nat} {col inj : Bool} : (ckFailed e ts k a pc col idx inj).Kept c := by
  unfold Machine.ckFailed
  extract_lets last t1
  have h1 : t1.Kept c := .cond h.tile.csrField h.tile.csrPut
  clear_value t1
  refine .cond (.haltOpe (TS.Kept.stopWith (.of (.csrField ?_)))) (.ok (.raise (.of (.csrCount ?_))))
  · exact h1
  · exact h1

theorem tCheck {k : Nat} {upset : List (Nat × Nat × Nat)} : (tCheck e ts k upset).Kept c := by
  unfold Machine.tCheck
  extract_lets a0 inj ts1 a1 a pc ts2 pass
  have h1 : ts1.Kept c := .cond (.upd h.tile.injFire) h
  have h2 : ts2.Kept c := .upd h1.tile
  have hpass {u : TS} (hu : u.Kept c) : (pass u).Kept c := .ok (.upd (.settle hu.tile))
  refine .cond (.ok h) (.cond (hpass h2) ?_)
  split
  extract_lets ts3
  have h3 : ts3.Kept c := .upd (.cond (.csrCount h2.tile.csrCount) h2.tile.csrCount)
  split
  · exact h3.ckFailed
  · exact hpass h3

/-! The reduction's flits at their leaf (R274 to R277). -/

theorem stagedFlit {s : StageRec} {off : Nat} {mir : Bool} {k : TS → RedFlit → Res} (hk : ∀ u f, u.Kept c → (k u f).Kept c) :
    (stagedFlit e ts s off mir k).Kept c := h.readWords fun _ _ hu => hk _ _ hu

theorem tRedSend {d : Nat} : (tRedSend e ts d).Kept c := by
  unfold Machine.tRedSend
  refine .cond .wait ?_
  split
  · exact .wait
  · exact .cond .wait (h.stagedFlit fun _ _ hu => .ok (.upd hu.tile))

end TS.Kept

theorem Tile.Kept.setRedBuf {t : Tile} {d port : Nat} {fs : List RedFlit} (h : t.Kept c) : (setRedBuf t d port fs).Kept c := h

theorem Tile.Kept.applyAck {t : Tile} {a : BktAck} (h : t.Kept c) : (applyAck t a).Kept c := by
  unfold Machine.applyAck
  extract_lets mine _ t1
  have h1 : t1.Kept c := .foldl h fun _ _ hy => hy.setRegion
  exact .cond h h1

end Sys2Proof.Machine
end

section
/-!
What vector instructions (R162, R165 to R171) and the shared port keep of their tile, and what an instruction, a command on a tile and a command on
its router do.
-/

namespace Sys2Proof.Machine

variable {c : Prop}

theorem TS.Kept.lanePair {e : Env} {pc lane : Nat} (n : Nat) :
    ∀ {ts : TS} {attempt : Nat} {inj : Bool}, ts.Kept c → (lanePair e ts pc lane attempt inj n).Kept c := by
  induction n with
  | zero => exact fun h => .ok h
  | succ n ih =>
    intro ts attempt inj h
    unfold Machine.lanePair
    extract_lets last t1
    have h1 : t1.Kept c := .cond h.tile.csrField h.tile.csrPut
    exact .cond (TS.Kept.stopWith (.of h1.csrField)) (ih (.raise (.of h1.csrCount)))

theorem Tile.Kept.storeWords {r : Region} {p : DWord} (ws : List Word) :
    ∀ {t : Tile} {o i : Nat}, t.Kept c → (storeWords t r p o i ws).Kept c := by
  induction ws with
  | nil => exact fun h => h
  | cons w ws ih => exact fun h => ih (.cond h.writePhys h)

theorem Tile.Kept.writeByteRun {r : Region} {o : Nat} (xs : List Nat) :
    ∀ {t : Tile} {b : Nat}, t.Kept c → (writeByteRun t r o b xs).Kept c := by
  induction xs with
  | nil => exact fun h => h
  | cons x xs ih => exact fun h => ih h.writeBytes

namespace Tile.Kept
variable {t : Tile} (h : t.Kept c)
include h

theorem sumEffect {fn : SFn} {f : LVS} {base : DWord} : (sumEffect t fn f base).Kept c := by
  unfold Machine.sumEffect
  extract_lets
  cases fn with
  | nf => exact h.setSreg
  | amax => exact h.setSreg
  | add => exact h.setSreg
  | argmax =>
    dsimp only
    split
    · exact .cond h (.setSreg h.setSreg)
    · exact .cond (.setSreg h.setSreg) (.cond (.setSreg h.setSreg) (.cond (.setSreg h.setSreg) h))

theorem vmAdvance {f : LVM} : (vmAdvance t f).Kept c := .cond h.setRegion h
theorem bumpVord : (bumpVord t).Kept c := h.csrPut
theorem vstEffect {f : LVM} {o : Nat} : (vstEffect t f o).Kept c := .vmAdvance (.bumpVord (.loosen (h.storeWords _)))
theorem vstCvtEffect {id : Nat} {f : LVM} {o : Nat} : (vstCvtEffect id t f o).Kept c := .vmAdvance (.bumpVord (.loosen (h.storeMasked _)))
theorem vstMxEffect {f : LVM} {g : Nat} : (vstMxEffect t f g).Kept c := by
  unfold Machine.vstMxEffect
  extract_lets re rs all src F
  split
  extract_lets t1 t2
  have h1 : t1.Kept c := .foldl h fun _ _ hy => hy.writeByteRun _
  have h2 : t2.Kept c := h1.loosen
  exact .loosen (h2.writeByteRun _)

end Tile.Kept

namespace TS.Kept
variable {e : Env} {ts : TS} (h : ts.Kept c)
include h

theorem checked {pc : Nat} {k : TS → Res} (hk : ∀ u, u.Kept c → (k u).Kept c) : (checked e ts pc k).Kept c := by
  unfold Machine.checked
  extract_lets ord ts1 inj frac ts2
  have h1 : ts1.Kept c := .upd h.tile
  have h2 : ts2.Kept c := by
    have fired : Tile.Kept c (if inj then Machine.injFire ts1.t else ts1.t) := .cond h1.tile.injFire h1.tile
    refine .upd (.cond (.csrCount ?_) ?_)
    · exact fired
    · exact fired
  exact .cond ((h2.lanePair _).andThen hk) (hk _ h1)

theorem vldEffect {f : LVM} {o pc : Nat} : (vldEffect e ts f o pc).Kept c := by
  unfold Machine.vldEffect
  extract_lets r
  refine h.readWords ?_
  intro u ws hu
  refine .ok (.upd ?_)
  extract_lets t1
  have h1 : t1.Kept c := hu.tile.setVreg
  exact .cond h1.setRegion h1

theorem vexec {v : VEntry} : (vexec e ts v).Kept c := by
  unfold Machine.vexec
  extract_lets t
  cases v.op with
  | arith fn f => exact h.checked fun _ hu => .ok (.upd hu.tile.setVreg)
  | fcmp r f => exact h.checked fun _ hu => .ok (.upd hu.tile.setPreg)
  | icmp r f => exact h.checked fun _ hu => .ok (.upd hu.tile.setPreg)
  | plog p f => exact .ok (.upd h.tile.setPreg)
  | ppop f => exact .ok (.upd h.tile.setSreg)
  | cvt f => exact h.checked fun _ hu => .ok (.upd hu.tile.setVreg)
  | cvtN2 f => exact h.checked fun _ hu => .ok (.upd hu.tile.setVreg)
  | sum fn f => exact .ok (.upd h.tile.sumEffect)
  | vld f =>
    dsimp only
    refine .cond .wait ?_
    exact TS.Kept.vldEffect h
  | vst f =>
    dsimp only
    refine .cond .wait (.ok (.upd ?_))
    exact h.tile.vstEffect
  | vstCvt f =>
    dsimp only
    refine .cond .wait (.ok (.upd ?_))
    exact h.tile.vstCvtEffect
  | vstMx f =>
    dsimp only
    refine .cond .wait (.ok (.upd ?_))
    exact h.tile.vstMxEffect
  | vqPop f => exact .cond .wait (.ok (.upd h.tile.setRegion))
  | vqPush f => exact .cond .wait (.ok (.upd h.tile.setRegion))
  | movVS f => exact .ok (.upd h.tile.setSreg)
  | movSV f => exact .ok (.upd (h.tile.withVregs fun hc => Map.wf_set (h.tile.vregsWf hc)))
  | movVV f => exact .ok (.upd h.tile.setVreg)
  | movPS f => exact .ok (.upd h.tile.setSreg)
  | movSP f => exact .ok (.upd h.tile.setPreg)

end TS.Kept

theorem TS.Kept.runVq {e : Env} (vs : List VEntry) : ∀ {ts : TS}, ts.Kept c → (runVq e ts vs).Kept c := by
  induction vs with
  | nil => exact fun h => .upd h.tile
  | cons v vs ih =>
    intro ts h
    have hexec : (Machine.vexec e (ts.upd fun t => { t with vq := v :: vs }) v).Kept c := (TS.Kept.upd h.tile).vexec
    unfold Machine.runVq
    split
    next heq => rw [heq] at hexec; exact ih hexec.of_ok
    next => exact .upd h.tile
    next heq => rw [heq] at hexec; exact .upd hexec.of_halt.tile

namespace TS.Kept
variable {e : Env} {ts : TS} (h : ts.Kept c)
include h

theorem goVq : (goVq e ts).Kept c := .cond h (h.runVq _)

theorem vopRegionCheck {op : VOp} {s : DWord} {k : Res} (hk : k.Kept c) : (vopRegionCheck e ts op s k).Kept c := by
  have stop {g cause : Nat} : (Machine.stopRegion e ts cause g ts.t.pc).Kept c := h.stopRegion
  cases op with
  | vld f => exact h.useRegion fun _ => .cond stop hk
  | vst f => exact h.useRegion fun _ => .cond stop hk
  | vstCvt f => exact h.useRegion fun _ => .cond stop hk
  | vstMx f => exact h.useRegion fun _ => h.useRegion fun _ => .cond stop (.cond stop hk)
  | vqPop f => exact h.useRegion fun _ => .cond stop hk
  | vqPush f => exact h.useRegion fun _ => .cond stop hk
  | _ => exact hk

theorem tVec {op : VOp} : (tVec e ts op).Kept c := by
  refine h.legally (.cond (.hold h) (.cond (.hold h) (.issue (h.vopRegionCheck (.cond ?_ (.ok (.upd h.tile)))) h)))
  split
  · exact .ok (.upd h.tile)
  · exact h.vexec

theorem tShared {bank : Nat} {feed : Bool} {want : List Nat} : (tShared e ts bank feed want).Kept c := by
  unfold Machine.tShared
  refine .cond h ?_
  split
  · exact h
  · exact .cond (.goVq (.upd h.tile)) (.upd h.tile)

end TS.Kept

end Sys2Proof.Machine
end

section
/-!
What the operations of a site keep: its memory, its windows and requests (chapter 10), its update engine (chapter 11) and the root of its
reductions.
-/

namespace Sys2Proof.Machine

variable {c : Prop}

/-- Where `c` holds, the site of an operation in progress is in canonical form. -/
def SS.Kept (c : Prop) (x : SS) : Prop := x.s.Kept c

theorem SS.Kept.cond {p : Prop} [Decidable p] {a b : SS} (ha : a.Kept c) (hb : b.Kept c) : (if p then a else b).Kept c := by
  split <;> assumption
theorem SS.Kept.of {s : Site} {free : Nat} {recs : List Rec} {ret : List (Nat × Flit)} (h : s.Kept c) :
    SS.Kept c { s := s, free := free, recs := recs, ret := ret } := h

theorem SS.Kept.foldl {α : Type} {f : SS → α → SS} {x : SS} {as : List α} (h : x.Kept c)
    (hf : ∀ y a, y.Kept c → (f y a).Kept c) : (as.foldl f x).Kept c :=
  List.foldlRecOn (motive := SS.Kept c) as f h fun y hy a _ => hf y a hy

namespace SS.Kept
variable {x : SS} (h : x.Kept c)
include h

theorem site : x.s.Kept c := h
theorem raise {r : Rec} : (x.raise r).Kept c := h
theorem send {edge : Nat} {f : Flit} : (x.send edge f).Kept c := h

end SS.Kept

theorem SS.Kept.upd {x : SS} {f : Site → Site} (hf : (f x.s).Kept c) : (x.upd f).Kept c := hf

/-! Memory. -/

namespace Site.Kept
variable {s : Site} (h : s.Kept c)
include h

theorem reseal {u : Nat} : (s.reseal u).Kept c := by
  have hmem (p : Bool) (l : List Byte) (hc : c) :
      Map.wf (fun _ => 0#8) (if p then s.m.mem else Map.setMany (fun _ => 0#8) s.m.mem (256 * u) l) = true := by
    split
    · exact h.memWf hc
    · exact Map.wf_setMany (h.memWf hc)
  refine h.withM (hmem _ _) fun hc => ?_
  dsimp only
  exact Map.wf_set (h.sealedWf hc)

theorem putBytes {o : Nat} {l : List Byte} : (s.putBytes o l).Kept c := by
  unfold Site.putBytes
  extract_lets s1
  have h1 : s1.Kept c := .foldl h fun _ _ hy => hy.reseal
  exact h1.withM (fun hc => Map.wf_setMany (h1.memWf hc)) h1.sealedWf

theorem putWords {o : Nat} {l : List Word} : (s.putWords o l).Kept c := h.putBytes

theorem siteInjFire {u : Nat} : (siteInjFire s u).Kept c := by
  have fired : ((s.csrField 0x30 30 28 0).csrField 0x30 31 31 1).Kept c := .csrField h.csrField
  exact fired

theorem memErr {src : Nat} {ue : Bool} {sym unit : Nat} : (memErr s src ue sym unit).Kept c := by
  unfold Machine.memErr
  extract_lets s1 w
  have h1 : s1.Kept c := .cond (.csrField h.csrCount) h.csrCount
  exact .cond h1 (.csrPut h1.csrPut)

theorem noteUe {hbm : Bool} {u : Nat} : (noteUe hbm s u).Kept c := by
  unfold Machine.noteUe
  extract_lets m s1
  have h1 : s1.Kept c := .cond h h
  exact .cond h1 (.cond h1 (.cond h1 h1))

end Site.Kept

theorem Site.Kept.checkBursts {hbm : Bool} {u : Nat} {flips : List Nat} (n : Nat) :
    ∀ {s : Site}, s.Kept c → (checkBursts hbm u flips n s).1.Kept c := by
  induction n with
  | zero => exact fun h => h
  | succ n ih =>
    intro s h
    have hprev := ih h
    unfold Machine.checkBursts
    generalize Machine.checkBursts hbm u flips n s = p at hprev
    obtain ⟨s1, bad1⟩ := p
    dsimp only
    split
    · exact hprev
    · refine .memErr ?_
      exact hprev
    · refine .memErr ?_
      exact hprev

namespace Site.Kept
variable {s : Site} (h : s.Kept c)
include h

theorem readLine {u : Nat} : (readLine u s).1.Kept c := by
  unfold Machine.readLine
  extract_lets n m s1
  have h1 : s1.Kept c := by
    refine .cond (.siteInjFire ?_) h
    exact h
  clear_value s1
  split
  · exact h1
  · exact h1.memErr
  · refine .memErr ?_
    exact h1

theorem onDieReports {hbm : Bool} {flips : List Nat} : (onDieReports hbm flips s).Kept c := .cond h h.csrCount

theorem writeUnit {o : Nat} {l : List Byte} : (writeUnit s o l).Kept c := by
  unfold Machine.writeUnit
  extract_lets u hbm s1 bad seen m s2 n
  have h1 : s1.Kept c := h.putBytes
  have h2 : s2.Kept c := h1
  clear_value s2
  refine .cond (.siteInjFire ?_) h2
  exact h2

theorem setReaders {u k : Nat} : (setReaders s u k).Kept c := h

theorem touchMem {e : SEnv} {str : Bool} : (touchMem e str s).Kept c := .cond h h
theorem dropReq {r : SiteReq} : (dropReq s r).Kept c := h
theorem writeBack {u : Nat} : (writeBack s u).Kept c := h.writeUnit

theorem touchAtom {u : Nat} : (touchAtom s u).Kept c := by
  unfold Machine.touchAtom
  extract_lets l
  split
  · exact h
  · exact h.writeBack

theorem storeUnit {o : Nat} {l : List Byte} : (storeUnit s o l).Kept c := .cond h.putBytes h.writeUnit

theorem winCmd {n cmd : Nat} {y : Site} (hy : winCmd s n cmd = some y) : y.Kept c := by
  unfold Machine.winCmd at hy
  split at hy
  · obtain rfl := Option.some.inj hy
    exact .cond h h
  · split at hy
    · contradiction
    · obtain rfl := Option.some.inj hy
      exact h

theorem stackReading {t : Nat} : (stackReading s t).Kept c := h.csrPut
theorem discardPlain : (discardPlain s).Kept c := h

theorem writeUnits {o : Nat} {l : List Byte} : (writeUnits s o l).Kept c := .foldl h fun _ _ hy => hy.writeUnit

end Site.Kept

/-! Requests. -/

namespace SS.Kept
variable {e : SEnv} {x : SS} (h : x.Kept c)
include h

theorem raiseUe {src cls code unit : Nat} : (raiseUe e x src cls code unit).Kept c := h

theorem readUnit {cls u : Nat} {flips : List Nat} : (readUnit e x cls u flips).1.Kept c := by
  unfold Machine.readUnit
  extract_lets hbm
  split
  · exact h
  have hline : (Machine.readLine u (Machine.onDieReports hbm flips x.s)).1.Kept c := h.site.onDieReports.readLine
  generalize Machine.readLine u (Machine.onDieReports hbm flips x.s) = p at hline
  obtain ⟨s1, bad⟩ := p
  cases bad with
  | true => exact SS.Kept.raiseUe (SS.Kept.of hline)
  | false =>
    dsimp only
    generalize hx1 : (if Map.get (fun _ => 0) s1.m.cacheBad u = 1 then Machine.raiseUe e { x with s := s1 } 0x0A 2 0 u
      else { x with s := s1 }) = x1
    have h1 : x1.Kept c := by rw [← hx1]; exact .cond (SS.Kept.raiseUe (SS.Kept.of hline)) (SS.Kept.of hline)
    have hbursts : (Machine.checkBursts hbm u flips 4 x1.s).1.Kept c := h1.site.checkBursts 4
    generalize Machine.checkBursts hbm u flips 4 x1.s = q at hbursts
    obtain ⟨s2, bad⟩ := q
    cases bad with
    | true => exact SS.Kept.raiseUe (SS.Kept.of hbursts.noteUe)
    | false => exact SS.Kept.cond (SS.Kept.raiseUe (SS.Kept.of hbursts)) (SS.Kept.of hbursts)

theorem siteErr {r : SiteReq} {code : Nat} : (siteErr e x r code).Kept c := .cond h h

theorem siteArrive {r : SiteReq} {y : SS} (hy : siteArrive e x r = some y) : y.Kept c := by
  unfold Machine.siteArrive at hy
  split at hy
  · obtain rfl := Option.some.inj hy
    exact h.siteErr
  · extract_lets park at hy
    obtain ⟨-, hy⟩ := Option.ite_none_left_eq_some.mp hy
    obtain rfl := Option.some.inj hy
    refine .upd (.touchMem ?_)
    exact h

theorem overrun {n u : Nat} : (overrun e x n u).Kept c := .raise (.upd (.csrField (.csrField h.site)))

theorem sendAll {as : List Flit} {edge : Nat} : (as.foldl (fun z f => z.send edge f) x).Kept c := .foldl h fun _ _ hy => hy

theorem serveRead {r : SiteReq} {flips : List Nat} : (serveRead e x r flips).Kept c := by
  have hread : (Machine.readUnit e x 1 (r.off / 256) flips).1.Kept c := h.readUnit
  unfold Machine.serveRead
  extract_lets u
  split
  next heq => rw [heq] at hread; exact hread.siteErr
  next heq =>
    rw [heq] at hread
    extract_lets ws z
    have hz : z.Kept c := hread.sendAll
    clear_value z
    split
    · exact hz
    · exact .upd (.setReaders (SS.Kept.site (.cond hz.overrun hz)))

theorem serveWrite {r : SiteReq} {flips : List Nat} : (serveWrite e x r flips).Kept c := by
  unfold Machine.serveWrite
  extract_lets u l
  split
  · exact .cond h.siteErr (.send (.upd (.setReaders h.site.storeUnit)))
  · have hread : (if r.nfl = 8 then (x, none) else Machine.readUnit e x 1 u flips).1.Kept c := by
      split
      · exact h
      · exact h.readUnit
    split
    next heq => rw [heq] at hread; exact hread.siteErr
    next heq => rw [heq] at hread; exact .send (.upd hread.site.storeUnit)

theorem serveAtom {r : SiteReq} {flips : List Nat} : (serveAtom e x r flips).Kept c := by
  have hread : (Machine.readUnit e x 1 (r.off / 256) flips).1.Kept c := h.readUnit
  unfold Machine.serveAtom
  extract_lets u
  refine .cond h.siteErr ?_
  split
  next heq => rw [heq] at hread; exact hread.siteErr
  next heq => rw [heq] at hread; exact .send (SS.Kept.sendAll (.upd hread.site.touchAtom.putWords))

theorem siteServe {turn : Site → SiteReq → Bool} {flips : List Nat} : (siteServe e x turn flips).Kept c := by
  unfold Machine.siteServe
  split
  · exact h
  next r heq =>
    have hy : (x.upd fun s => Machine.touchMem e (decide (hbmEnd ≤ r.off)) (Machine.dropReq s r)).Kept c := .upd h.site.dropReq.touchMem
    exact .cond h (.cond h (.cond hy.siteErr (.cond hy.serveRead (.cond hy.serveWrite hy.serveAtom))))

theorem copyUnit {a b : Nat} {flips : List Nat} : (copyUnit e a b flips x).Kept c := by
  have hread : (Machine.readUnit e x 4 a flips).1.Kept c := h.readUnit
  unfold Machine.copyUnit
  extract_lets there
  refine .cond h ?_
  split
  next heq => rw [heq] at hread; exact hread
  next heq =>
    rw [heq] at hread
    refine .upd ?_
    extract_lets t
    have ht : t.Kept c := hread.site.storeUnit
    split
    · exact ht
    · exact ht

theorem patrolRead {str : Bool} {flips : List Nat} : (patrolRead e x str flips).Kept c := by
  unfold Machine.patrolRead
  split
  · exact h
  extract_lets n at_ u next step
  have hstep {s : Site} (hs : s.Kept c) : (step s).Kept c := .cond hs hs
  clear_value step
  refine .cond h ?_
  have hbursts : (Machine.checkBursts (!str) u flips 4 (Machine.onDieReports (!str) flips x.s)).1.Kept c :=
    h.site.onDieReports.checkBursts 4
  split
  next heq =>
    rw [heq] at hbursts
    exact .cond (SS.Kept.raiseUe (SS.Kept.of (hstep hbursts))) (SS.Kept.of (hstep hbursts))
  next heq => rw [heq] at hbursts; exact SS.Kept.raiseUe (SS.Kept.of (hstep hbursts.noteUe))

theorem siteAbort {code : Nat} : (siteAbort e x code).Kept c := by
  unfold Machine.siteAbort
  extract_lets y
  have hy : y.Kept c := .foldl h fun _ _ hz => hz
  refine .upd ?_
  extract_lets s0 s1
  have h0 : s0.Kept c := .foldl hy.site fun _ _ hs => hs.writeBack
  have h1 : s1.Kept c := .cond h0.csrField h0
  exact h1

end SS.Kept

/-! The update engine. -/

theorem SS.Kept.readUnits {e : SEnv} {u n : Nat} {x : SS} (h : x.Kept c) : (readUnits e u n x).1.Kept c :=
  List.foldlRecOn (motive := fun p : SS × Bool => p.1.Kept c) _ _ h fun p hp i _ => by
    obtain ⟨y, bad⟩ := p
    cases bad with
    | true => exact hp
    | false =>
      have hread : (Machine.readUnit e y 4 (u + i) []).1.Kept c := SS.Kept.readUnit hp
      dsimp only
      split
      next heq => rw [heq] at hread; exact hread
      next heq => rw [heq] at hread; exact hread

namespace Site.Kept
variable {s : Site} (h : s.Kept c)
include h

theorem btSet {k : Nat} {x : BtEntry} : (btSet s k x).Kept c := h
theorem btFree {k : Nat} : (btFree s k).Kept c := h
theorem setSsq {v : DWord} : (setSsq s v).Kept c := h.csrPut.csrPut
theorem bktSet {i : Nat} {b : RedBkt} : (bktSet s i b).Kept c := h
theorem popVc1 {j d : Nat} : (popVc1 s j d).Kept c := h

theorem tieIn {b : EngBlk} {y : Site} {a : AccBuf} (hy : tieIn s b = some (y, a)) : y.Kept c := by
  unfold Machine.tieIn at hy
  split at hy
  · split at hy
    · contradiction
    · obtain ⟨rfl, -⟩ := Prod.mk.inj (Option.some.inj hy)
      exact h
  · obtain ⟨rfl, -⟩ := Prod.mk.inj (Option.some.inj hy)
    exact h

theorem writeHalf {anew : Bool} {b : Nat} {mask : Word} {old : Nat} {made : List Nat} {new : List (List Word)} :
    (writeHalf anew s b mask old made new).1.Kept c := by
  unfold Machine.writeHalf
  extract_lets g f n was copyWas parts codes finite u s1 s2
  have h1 : s1.Kept c := .cond h h.writeUnits
  exact .foldl h1 fun _ _ ht => ht.writeUnits

theorem updateComplete : (updateComplete s).Kept c := by
  unfold Machine.updateComplete
  extract_lets l
  clear_value l
  split
  · exact h
  · exact h

theorem taintSite : (taintSite s).Kept c := h.csrField

theorem exportRecord {n p : Nat} : (exportRecord n s p).Kept c := by
  unfold Machine.exportRecord
  split
  · exact h
  extract_lets l o t
  have ht : t.Kept c := h.writeUnits
  clear_value t
  refine .cond ?_ ht
  exact ht.csrField

theorem exportEntry : (exportEntry s).Kept c := by
  unfold Machine.exportEntry
  split
  · exact h
  extract_lets n t
  have ht : t.Kept c := .foldl h fun _ _ hs => hs.exportRecord
  exact .cond ht ht

end Site.Kept

theorem Site.Kept.exportRest (n : Nat) : ∀ {s : Site}, s.Kept c → (exportRest n s).Kept c := by
  induction n with
  | zero => exact fun h => h
  | succ n ih => exact fun h => .cond (ih h.exportEntry) h

namespace SS.Kept
variable {e : SEnv} {x : SS} (h : x.Kept c)
include h

theorem readHalf {g u : Nat} : (readHalf e g u x).1.Kept c := h.readUnits
theorem readState {g u : Nat} : (readState e g u x).1.Kept c := h.readUnits

theorem detectTaint {cause bucket block grp : Nat} : (detectTaint e x cause bucket block grp).Kept c := by
  unfold Machine.detectTaint
  extract_lets s s1
  have h1 : s1.Kept c := .cond h.site (.csrPut h.site.csrPut)
  refine .raise (SS.Kept.of ?_)
  exact h1

theorem carry {en : BtEntry} : (carry e x en).Kept c := by
  have hread : (Machine.readHalf e (bindGroup en.bind) (liveUnit x.s en) x).1.Kept c := h.readHalf
  unfold Machine.carry
  extract_lets b
  refine .cond h ?_
  split
  next heq => rw [heq] at hread; exact hread.detectTaint
  next heq => rw [heq] at hread; exact .upd hread.site.writeUnits

theorem landSlot {k : Nat} {en : BtEntry} : (landSlot e x k en).Kept c := by
  have hread : (Machine.readHalf e (bindGroup en.bind) (halfUnit x.s en.bind (liveHalf x.s)) x).1.Kept c := h.readHalf
  unfold Machine.landSlot
  extract_lets b
  split
  next heq => rw [heq] at hread; exact hread.detectTaint
  next heq => rw [heq] at hread; exact .upd (.btSet hread.site.writeUnits)

theorem bindRecord : (bindRecord e x).Kept c := by
  unfold Machine.bindRecord
  split
  · exact h
  extract_lets s b k u s1 en u1 y z
  have h1 : s1.Kept c := h.site
  have hy : y.Kept c := .of h1.btSet
  have hz : z.Kept c := .cond hy hy.landSlot
  clear_value s1 y z
  refine .cond (.cond (.of ?_) (.cond hz hz.carry)) (.of h1.btSet)
  exact h1

theorem landSlots : (landSlots e x).Kept c := .cond (.upd h.site) (.foldl h fun _ _ hz => hz.landSlot)

theorem engineTake {k : Nat} {en : BtEntry} {b : EngBlk} : (engineTake e x k en b).Kept c := by
  unfold Machine.engineTake
  extract_lets park y
  have hy : y.Kept c := by
    refine .upd ?_
    extract_lets s0 s1 u1
    have h0 : s0.Kept c := .cond h.site.writeUnits h.site
    exact h0
  exact .cond hy.detectTaint hy

theorem updateBlock {en : BtEntry} {blk : EngBlk} : (updateBlock e x en blk).Kept c := by
  unfold Machine.updateBlock
  extract_lets b g lu
  refine .cond h.carry ?_
  have hstate : (Machine.readState e g lu x).1.Kept c := h.readState
  generalize Machine.readState e g lu x = p at hstate
  obtain ⟨y, bad⟩ := p
  cases bad with
  | true => exact SS.Kept.detectTaint hstate
  | false =>
    have hread : (if en.parked then Machine.readUnits e (parkUnit x.s en.slot) 16 y else (y, false)).1.Kept c := by
      split
      · exact SS.Kept.readUnits hstate
      · exact hstate
    dsimp -zeta only
    generalize (if en.parked then Machine.readUnits e (parkUnit x.s en.slot) 16 y else (y, false)) = q at hread
    obtain ⟨y, bad⟩ := q
    cases bad with
    | true => exact SS.Kept.detectTaint hread
    | false =>
      dsimp -zeta only
      extract_lets s clip g0 t u s1 gs live new u2 z
      have ht : t.Kept c := SS.Kept.site hread |>.setSsq
      have h1 : s1.Kept c := by
        refine .cond hread ?_
        exact ht
      have hz : z.Kept c := by
        refine .of ?_
        exact h1.writeHalf
      exact .cond hz.detectTaint hz

theorem blockUpdate : (blockUpdate e x).Kept c := by
  unfold Machine.blockUpdate
  split
  · exact h
  split
  · exact .upd h.site
  split
  · exact .upd h.site
  · exact .cond (.upd h.site) (.cond h (.upd (SS.Kept.site h.updateBlock)))

theorem foldBlock {f : Fired} : (foldBlock e x f).Kept c := by
  unfold Machine.foldBlock
  extract_lets b g lu wu
  have hstate : (Machine.readState e g lu x).1.Kept c := h.readState
  generalize Machine.readState e g lu x = p at hstate
  obtain ⟨y, bad⟩ := p
  cases bad with
  | true => exact SS.Kept.detectTaint hstate
  | false =>
    have hread : (Machine.readUnits e (wu + copyUnits (grpCopy y.s g) + 16) (16 * slotsOf y.s g) y).1.Kept c := SS.Kept.readUnits hstate
    dsimp -zeta only
    generalize Machine.readUnits e (wu + copyUnits (grpCopy y.s g) + 16) (16 * slotsOf y.s g) y = q at hread
    obtain ⟨y, bad⟩ := q
    cases bad with
    | true => exact SS.Kept.detectTaint hread
    | false =>
      dsimp -zeta only
      extract_lets s k sh new
      have hw : (Machine.writeHalf false s b f.mask wu (List.range sh.length) new).1.Kept c := hread.site.writeHalf
      exact .cond (SS.Kept.detectTaint (.of hw)) (.of hw)

theorem foldSite : (foldSite e x).Kept c :=
  .cond h (.upd (SS.Kept.site (.foldl h fun _ _ hz => hz.foldBlock)))

end SS.Kept

/-! The root of a reduction. -/

namespace Site.Kept
variable {s : Site} (h : s.Kept c)
include h

theorem noteNf {f : RedFlit} : (noteNf s f).Kept c := by
  unfold Machine.noteNf
  split
  · exact h
  exact .cond h.csrField h.csrField.csrPut.csrPut

theorem sampleCheck {i block : Nat} : (sampleCheck s i block).Kept c := by
  unfold Machine.sampleCheck
  extract_lets b n s0 r s1 s2
  have h0 : s0.Kept c := h.csrCount
  have h1 : s1.Kept c := .cond h0 h
  have h2 : s2.Kept c := .csrField h1.csrCount
  split
  · split
    · refine .cond h1 ?_
      extract_lets s3
      have h3 : s3.Kept c := .cond h2 (.csrPut h2.csrPut)
      exact h3.bktSet
    · exact h
  · exact h

theorem takeRoot {i stream : Nat} {f : RedFlit} : (takeRoot s i stream f).Kept c := by
  unfold Machine.takeRoot
  extract_lets b b1 s1
  have h1 : s1.Kept c := h.bktSet.noteNf
  exact .cond h1.sampleCheck h1

theorem factorCommit {i : Nat} {r : RedBlk} {y : Site} (hy : factorCommit s i r = some y) : y.Kept c := by
  unfold Machine.factorCommit at hy
  extract_lets n u ok at hy
  split at hy
  · contradiction
  · obtain rfl := Option.some.inj hy
    refine .foldl h.writeUnits fun t k ht => ?_
    split
    · exact ht
    · exact ht

theorem redStepWrite {v : Word} : (redStepWrite s v).Kept c := h.csrPut

end Site.Kept

/-- Where `c` holds, the site that the passing of a block leaves is in canonical form. -/
inductive Pass.Kept (c : Prop) : Pass → Prop
  | taken {x : SS} : x.Kept c → Pass.Kept c (.taken x)
  | wait {x : SS} : x.Kept c → Pass.Kept c (.wait x)
  | fault {x : SS} : x.Kept c → Pass.Kept c (.fault x)

namespace SS.Kept
variable {e : SEnv} {x : SS} (h : x.Kept c)
include h

theorem stopAtSite {d : Nat} {f : RedFlit} : (stopAtSite e x d f).Kept c := by
  refine .raise (.of ?_)
  exact h.site.csrField

theorem passBlock {b : EngBlk} : (passBlock e x b).Kept c := by
  unfold Machine.passBlock
  split
  · exact .taken (.cond h.detectTaint h)
  extract_lets k
  split
  · exact .wait (.upd h.site)
  extract_lets open_
  split
  · split
    · exact .taken h.engineTake
    split
    · exact .wait h
    next heq =>
      have h1 := h.site.tieIn heq
      split
      · exact .taken (.of h1)
      · refine .taken (SS.Kept.engineTake (.of ?_))
        exact h1
  split
  · exact .wait h
  · refine .fault (.raise (.of ?_))
    exact h.site.csrField

theorem retryDecision : (retryDecision e x).Kept c := by
  unfold Machine.retryDecision
  extract_lets s i b n retr same eqP eqM out s1 w s2
  have h1 : s1.Kept c := h.site.bktSet
  have h2 : s2.Kept c := .cond h1.csrField h1
  refine .cond h (.raise (.of ?_))
  exact h2

end SS.Kept

theorem SS.Kept.passAll {e : SEnv} {i : Nat} (rs : List RedBlk) : ∀ {x : SS}, x.Kept c → (passAll e i rs x).1.Kept c := by
  induction rs with
  | nil => exact fun h => h
  | cons r rs ih =>
    intro x h
    unfold Machine.passAll
    split
    · split
      · exact h
      next heq => exact ih (SS.Kept.of (h.site.factorCommit heq))
    · have hpass {b : EngBlk} : (Machine.passBlock e x b).Kept c := h.passBlock
      split
      next heq => have hpass := heq ▸ hpass; cases hpass with | taken hy => exact ih hy
      next heq => have hpass := heq ▸ hpass; cases hpass with | wait hy => exact hy
      next heq => have hpass := heq ▸ hpass; cases hpass with | fault hy => exact hy

end Sys2Proof.Machine
end

section
/-!
What the transfers of Halo ports, the error log, an abort request, and the routers keep.
-/

namespace Sys2Proof.Machine

variable {c : Prop} {l : List Instr}

/-! Ports. -/

theorem Port.Kept.foldl {α : Type} {f : Port → α → Port} {x : Port} {as : List α} (h : x.Kept c)
    (hf : ∀ y a, y.Kept c → (f y a).Kept c) : (as.foldl f x).Kept c :=
  List.foldlRecOn (motive := Port.Kept c) as f h fun y hy a _ => hf y a hy

namespace Port.Kept
variable {o : Port} (h : o.Kept c)
include h

theorem setRole {k r : Nat} : (o.setRole k r).Kept c := h.csrField
theorem setLane {k st : Nat} : (o.setLane k st).Kept c := h.csrField
theorem swapSpare {k : Nat} : (o.swapSpare k).Kept c := .csrField (.setRole h.setRole)
theorem narrow : o.narrow.Kept c := by
  unfold Port.narrow
  extract_lets g o1
  have h1 : o1.Kept c := .foldl h fun _ _ hy => hy.setRole
  exact .csrField h1.csrField
theorem changeLanes {kind lane : Nat} : (o.changeLanes kind lane).Kept c := .cond (.cond h.swapSpare h) (.cond h.narrow h)
theorem turnLanes : o.turnLanes.Kept c := .foldl h fun _ _ hy => hy.changeLanes
theorem noteLast {status ecode win unit : Nat} : (o.noteLast status ecode win unit).Kept c := .cond h (.csrPut h.csrPut)
theorem dropXfer {x : HXfer} : (o.dropXfer x).Kept c := h
theorem putXfer {x : HXfer} : (o.putXfer x).Kept c := h

end Port.Kept

/-! Halo transfers (chapter 15). -/

theorem State.Kept.haloFlush {q : Nat} (n : Nat) : ∀ {s : State}, s.Kept l c → (s.haloFlush q n).Kept l c := by
  induction n with
  | zero => exact fun h => h
  | succ n ih =>
    intro s h
    unfold State.haloFlush
    extract_lets o
    have ho : o.Kept c := h.port
    split
    · exact h
    · refine .cond h (.cond (.cond h (ih (.say (h.setPort ?_)))) (.cond h ?_))
      · exact ho
      · extract_lets g
        refine ih (.say (h.setPort (.turnLanes ?_)))
        exact ho

namespace State.Kept
variable {s : State} (h : s.Kept l c)
include h

theorem haloTx {q typ tag off : Nat} {data : List Byte} : (s.haloTx q typ tag off data).Kept l c := by
  refine State.Kept.haloFlush _ (h.setPort ?_)
  exact h.port

theorem haloIdle {q : Nat} {nak : Bool} : (s.haloIdle q nak).Kept l c := by
  refine .cond (.say (h.setPort ?_)) h
  exact h.port

theorem roceFlush {q : Nat} : (s.roceFlush q).Kept l c := by
  refine .cond h (.foldl (h.setPort ?_) fun _ _ hu => hu.say)
  exact h.port

theorem haloCmpl {q tag qp status ecode : Nat} {data : List Byte} : (s.haloCmpl q tag qp status ecode data).Kept l c := by
  refine .cond (.cond (.roceFlush (h.setPort ?_)) h) (.cond h.haloTx h)
  exact h.port

theorem dropReqs {q : Nat} {x : HXfer} : (s.dropReqs q x).Kept l c := by
  refine .cond (h.setSite ?_) h
  exact h.site

theorem endXfer {q : Nat} {x : HXfer} {status ecode : Nat} : (s.endXfer q x status ecode).Kept l c := by
  unfold State.endXfer
  extract_lets o s1
  have ho : o.Kept c := h.port.dropXfer
  have h1 : s1.Kept l c := .cond (h.setPort ho) (.dropReqs (h.setPort ho.noteLast))
  exact .cond h1 h1.haloCmpl

theorem endAll {q status : Nat} : (s.endAll q status).Kept l c := .foldl h fun _ _ hu => hu.endXfer

theorem recallReqs {q : Nat} : (s.recallReqs q).Kept l c := by
  refine .foldl h fun u n hu => .cond (hu.setSite ?_) hu
  exact hu.site

theorem haloData {q : Nat} {x : HXfer} {sq : Nat} {ws : List Word} : (s.haloData q x sq ws).Kept l c := by
  unfold State.haloData
  extract_lets j y o z
  have ho : o.Kept c := h.port
  refine .cond (.cond (.haloCmpl (h.setPort ho.dropXfer)) (h.setPort ho.putXfer)) ?_
  split
  · exact h.setPort ho.putXfer
  · extract_lets s1
    have h1 : s1.Kept l c := .haloTx (h.setPort ho.putXfer)
    exact .cond h1.endXfer h1

theorem haloReturn {edge : Nat} {f : Flit} : (s.haloReturn edge f).Kept l c := by
  unfold State.haloReturn
  extract_lets k q
  split
  · exact h
  · split
    · exact h.setPort h.port.putXfer
    · exact h.endXfer
    · exact h.haloData
    · exact h

/-! Messages, records and aborts. -/

theorem setMail {ring : Nat} {ms : List Mail} : (s.setMail ring ms).Kept l c := by
  refine h.updMod ?_
  exact h.mod

theorem post {ring : Nat} {m : Msg} : (s.post ring m).Kept l c := .cond h.say (.cond h h.setMail)

theorem eachSite {p : Nat} {f : Site → Site} (hf : ∀ x, x.Kept c → (f x).Kept c) : (s.eachSite p f).Kept l c :=
  .foldl h fun _ _ hu => hu.setSite (hf _ hu.site)

theorem endRun {p : Nat} : (s.endRun p).Kept l c := by
  unfold State.endRun
  extract_lets q
  split
  · exact .cond h.setPart h
  · exact h

theorem outcome {p k : Nat} : (s.outcome p k).Kept l c := by
  unfold State.outcome
  extract_lets d x sc s1 r s2 q s3
  have h1 : s1.Kept l c := h.eachSite fun y hy => .csrField (.csrField (.csrField hy.csrField))
  have h2 : s2.Kept l c := h1.setSite h1.site.writeUnit
  exact .post (.endRun h2.setPart)

theorem pavAbort {p : Nat} : (s.pavAbort p).Kept l c := .cond h.outcome h

end State.Kept

theorem Tile.Kept.setRouterBuf {t : Tile} {port vc cls : Nat} {fs : List Flit} (h : t.Kept c) : (setRouterBuf t port vc cls fs).Kept c := h

namespace State.Kept
variable {s : State} (h : s.Kept l c)
include h

theorem fromSite {n edge : Nat} {f : Flit} : (s.fromSite n edge f).Kept l c := by
  unfold State.fromSite
  refine .cond h.haloReturn (.cond h ?_)
  extract_lets port t g x
  refine .cond (h.setSite ?_) (h.setTile h.tile.setRouterBuf)
  exact h.site

/-- What a site sends is on its way. -/
theorem fromSiteAll {n : Nat} {fs : List (Nat × Flit)} : (fs.foldl (fun s ef => s.fromSite n ef.1 ef.2) s).Kept l c :=
  .foldl h fun _ _ hu => hu.fromSite

theorem disarm {p : Nat} : (s.disarm p).Kept l c := by
  unfold State.disarm
  extract_lets s1 w
  have h1 : s1.Kept l c := .foldl h fun _ _ hu => hu.setPort hu.port.csrField
  exact .cond h1.ezField h1

theorem requestAbort {p cause : Nat} : (s.requestAbort p cause).Kept l c := by
  unfold State.requestAbort
  extract_lets x s1 s2 s3 s4
  refine .cond h (.cond (.say h.setPart) ?_)
  have h1 : s1.Kept l c := h.setPart
  have h3 : s3.Kept l c := .foldl h1.pavAbort fun _ _ hu => hu.endAll.recallReqs
  have h4 : s4.Kept l c := .foldl h3 fun u n hu =>
    have hr : (Machine.siteAbort (u.siteEnv n) { s := u.site n, free := u.free } 0x18).Kept c := SS.Kept.siteAbort (.of hu.site)
    (hu.setSite hr.site).fromSiteAll
  exact h4.disarm

theorem logRec {r : Rec} : (s.logRec r).Kept l c := by
  unfold State.logRec
  extract_lets k head tail soon part
  refine .cond h (.cond (h.ezPut.updMod ?_) (State.Kept.updMod (.ezPut h.ezPut) ?_))
  · exact h.ezPut.mod
  · exact h.ezPut.ezPut.mod

theorem raise {r : Rec} : (s.raise r).Kept l c := .cond h.logRec.requestAbort h.logRec
theorem raiseAll {rs : List Rec} : (s.raiseAll rs).Kept l c := .foldl h fun _ _ hu => hu.raise
theorem refuse {addr ecode loc : Nat} : (s.refuse addr ecode loc).Kept l c := .raise h.say
theorem privileged {priv : Bool} {addr loc : Nat} {k : State} (hk : k.Kept l c) : (s.privileged priv addr loc k).Kept l c := .cond hk h.refuse
theorem withFree {n : Nat} : State.Kept l c { s with free := n } := h

theorem onTile {t : Nat} {f : Env → TS → TS} (hf : ∀ e ts, ts.Kept c → (f e ts).Kept c) : (s.onTile t f).Kept l c :=
  .raiseAll (h.withFree.setTile (hf _ _ (.of h.tile)))

theorem onSite {n : Nat} {f : SEnv → SS → SS} (hf : ∀ e x, x.Kept c → (f e x).Kept c) : (s.onSite n f).Kept l c :=
  .raiseAll (h.withFree.setSite (hf _ _ (.of h.site))).fromSiteAll

end State.Kept

end Sys2Proof.Machine
end

section
/-!
What the routers, the flits that arrive and the roots of reductions keep.
-/

namespace Sys2Proof.Machine

variable {c : Prop} {l : List Instr}

/-! Reductions at routers. -/

namespace Tile.Kept
variable {t : Tile} (h : t.Kept c)
include h

theorem creditBack {d : Nat} : (creditBack t d).Kept c := h
theorem crcPassed {port k : Nat} : (crcPassed t port k).Kept c := h

theorem injAdder {d : Nat} {f : RedFlit} {adds : Bool} : (injAdder t d f adds).1.Kept c := by
  unfold Machine.injAdder
  split
  · extract_lets b
    split
    · exact h.injFire
    · exact h.injFire
  · exact h

theorem popBuf {key : Nat} : (popBuf t key).Kept c := h
theorem addInject {fs : List Flit} : (addInject t fs).Kept c := h

theorem closeCmb {id : Nat} {f : Flit} : (closeCmb id t f).Kept c := by
  unfold Machine.closeCmb
  split
  · exact .cond h h
  · exact h

theorem routeError {id edge key code : Nat} {f : Flit} : (routeError id edge t key code f).Kept c := by
  unfold Machine.routeError
  extract_lets t1
  have h1 : t1.Kept c := h.popBuf.closeCmb
  clear_value t1
  split
  · exact h1
  · exact .cond h1 h1
  · exact h1
  · exact h1

theorem acceptFlit {id : Nat} {b0 : Bool} {port : Nat} {f : Flit} : (acceptFlit id b0 t port f).Kept c := by
  unfold Machine.acceptFlit
  extract_lets put
  have hput {t : Tile} (ht : t.Kept c) (f : Flit) : (put t f).Kept c := ht.setRouterBuf
  clear_value put
  split
  · refine .cond (hput h _) ?_
    extract_lets me
    split
    · exact h.csrCount
    · split
      · exact hput h _
      · refine hput (.csrCount ?_) _
        exact h
  · exact hput h _

theorem setEdgeFlits {port : Nat} {fs : List Flit} : (setEdgeFlits t port fs).Kept c := h
theorem afterSlot {port : Nat} {fs : List (Nat × Flit)} {ds : List Nat} {won : Slot} : (afterSlot t port fs ds won).Kept c := h
theorem eventRefused : (eventRefused t).Kept c := h

theorem takeArrived {p : Flit → Bool} {f : Flit} {u : Tile} (hu : takeArrived t p = some (f, u)) : u.Kept c := by
  unfold Machine.takeArrived at hu
  split at hu
  · contradiction
  · obtain ⟨-, rfl⟩ := Prod.mk.inj (Option.some.inj hu)
    exact h

theorem tCombinedCopy : (tCombinedCopy t).Kept c := by
  unfold Machine.tCombinedCopy
  split
  · exact h
  next heq =>
    have hu := h.takeArrived heq
    split
    · exact hu
    · exact hu

theorem tDataArrive : (tDataArrive t).Kept c := by
  unfold Machine.tDataArrive
  split
  · exact h
  next heq =>
    have hu := h.takeArrived heq
    split
    · exact hu.tReturn
    · exact hu.tReturn
    · exact hu

theorem tAckArrive : (tAckArrive t).Kept c := by
  unfold Machine.tAckArrive
  split
  · exact h
  next heq =>
    have hu := h.takeArrived heq
    split
    · exact hu.tAck
    · exact .cond hu.eventRefused hu.tErr
    · exact hu

theorem openSend {g src tid seq : Nat} {u : Tile} {x : InSend} (hu : openSend t g src tid seq = some (u, x)) : u.Kept c := by
  unfold Machine.openSend at hu
  extract_lets r mine others room at hu
  split at hu
  · split at hu
    · obtain ⟨rfl, -⟩ := Prod.mk.inj (Option.some.inj hu)
      exact h
    · contradiction
  · obtain ⟨-, hu⟩ := Option.ite_none_left_eq_some.mp hu
    obtain ⟨rfl, -⟩ := Prod.mk.inj (Option.some.inj hu)
    exact h

theorem landSend {x : InSend} {f : Flit} {seq src tid : Nat} : (landSend t x f seq src tid).Kept c := by
  unfold Machine.landSend
  extract_lets t1 y t2 t3 g
  have h1 : t1.Kept c := h.writeRegion _
  have h2 : t2.Kept c := h1
  have h3 : t3.Kept c := h2.settleSend
  exact .cond h3.addInject h3

end Tile.Kept

theorem Tile.Kept.redCrossIn {port : Nat} (n : Nat) : ∀ {t : Tile}, t.Kept c → (redCrossIn port n t).Kept c := by
  induction n with
  | zero => exact fun h => h
  | succ n ih =>
    intro t h
    unfold Machine.redCrossIn
    split
    · exact h
    · refine .cond (ih (.setRedBuf ?_)) h
      exact h

theorem Tile.Kept.crossIn {id : Nat} {b0 : Bool} {key : Nat} (n : Nat) : ∀ {t : Tile}, t.Kept c → (crossIn id b0 key n t).Kept c := by
  induction n with
  | zero => exact fun h => h
  | succ n ih =>
    intro t h
    unfold Machine.crossIn
    split
    · exact h
    · refine .cond (ih (.acceptFlit ?_)) h
      exact h

theorem Tile.Kept.linkIn {b0 : Bool} {t n port : Nat} {x : Tile} {f : Flit} (h : x.Kept c) : (linkIn b0 t n port x f).Kept c := by
  refine .cond (.crossIn _ ?_) h.acceptFlit
  exact h

namespace TS.Kept
variable {e : Env} {ts : TS} (h : ts.Kept c)
include h

theorem stopDesc {d : Nat} {heads : List RedFlit} : (stopDesc e ts d heads).Kept c := by
  unfold Machine.stopDesc
  extract_lets t1 r t2
  have h1 : t1.Kept c := .cond h (.csrField h.tile.csrField)
  have h2 : t2.Kept c := h1
  refine .cond h (.raise ?_)
  exact h2

theorem tSendArrive : (tSendArrive e ts).Kept c := by
  unfold Machine.tSendArrive
  split
  · exact .upd h.tile.settleAll
  next heq =>
    have hu := h.tile.takeArrived heq
    split
    · extract_lets r
      refine .cond (.raise ?_) ?_
      · exact hu.addInject
      · split
        · exact h
        next heq => exact TS.Kept.of (hu.openSend heq).landSend
    · exact h

theorem out {r : Res} (hr : r.Kept c) : (r.out ts).Kept c := by
  cases hr with
  | ok hr => exact hr
  | wait => exact h
  | halt hr => exact hr

end TS.Kept

namespace State.Kept
variable {s : State} (h : s.Kept l c)
include h

theorem crcFailedAt {t port k n q : Nat} {counts inj : Bool} : (s.crcFailedAt t port k n q counts inj).Kept l c := by
  unfold State.crcFailedAt
  extract_lets k1 x r s1 y y1 r2 y2 s2 regs s3
  have h1 : s1.Kept l c := by
    refine h.setTile ?_
    exact h.tile
  have hy1 : y1.Kept c := .cond (.csrCount h1.tile.csrCount) h1.tile
  have hy2 : y2.Kept c := by
    refine .cond ?_ hy1
    exact hy1
  have h3 : s3.Kept l c := .raise (h1.setTile hy2)
  exact .cond h3.raise h3

theorem edgeCrc {edge port : Nat} : (s.edgeCrc edge port).Kept l c := by
  refine .crcFailedAt (h.setTile ?_)
  exact h.tile

theorem creditAt {t port d : Nat} : (s.creditAt t port d).Kept l c := by
  unfold State.creditAt
  split
  · exact h.setTile h.tile.creditBack
  · exact h

theorem redDeliver {t out d : Nat} {f : RedFlit} : (s.redDeliver t out d f).Kept l c := by
  unfold State.redDeliver
  split
  · extract_lets x q r
    refine .cond (h.setTile (.redCrossIn _ ?_)) (h.setTile h.tile.setRedBuf)
    exact h.tile
  · split
    · exact h
    · extract_lets x k r
      refine h.setSite ?_
      exact h.site

theorem redForward {t d : Nat} : (s.redForward t d).Kept l c := by
  unfold State.redForward
  extract_lets x w
  split
  · exact h
  next fs _ =>
  split
  · exact h
  next f0 _ =>
    have h1 : (Machine.injAdder x d f0 (decide (2 ≤ fs.length))).1.Kept c := Tile.Kept.injAdder h.tile
    split
    next heq =>
      rw [heq] at h1
      extract_lets x2 r x3 s1
      have h2 : x2.Kept c := .foldl h1 fun _ _ hy => .redCrossIn _ hy.setRedBuf
      have h3 : x3.Kept c := h2
      have hs : s1.Kept l c := .foldl (h.setTile h3) fun _ _ hu => .cond hu hu.creditAt
      exact hs.redDeliver

theorem withEvent {t : Nat} : (s.withEvent t).Kept c := by
  unfold State.withEvent
  extract_lets x
  have hx : x.Kept c := h.tile
  split
  · exact hx
  · refine .cond hx (.addInject ?_)
    exact hx

theorem inject {t : Nat} : (s.inject t).Kept l c := by
  unfold State.inject
  extract_lets x
  have hx : x.Kept c := h.withEvent
  split
  · exact h
  · extract_lets st y go
    have hy : y.Kept c := hx
    have hgo : go.Kept l c := h.setTile hy.acceptFlit
    split
    · exact .cond (.raise (h.setTile hy.tErr)) hgo
    · exact hgo

theorem crcFailed {t port k : Nat} {inj : Bool} : (s.crcFailed t port k inj).Kept l c := by
  unfold State.crcFailed
  split
  · exact h.crcFailedAt
  · exact h.crcFailedAt

end State.Kept

theorem State.Kept.portRefill {edge port n : Nat} (fuel : Nat) : ∀ {s : State}, s.Kept l c → (State.portRefill edge port n fuel s).Kept l c := by
  induction fuel with
  | zero => exact fun h => h
  | succ fuel ih =>
    intro s h
    unfold State.portRefill
    extract_lets x
    have hx : x.Kept c := h.tile
    refine .cond h ?_
    split
    · exact h
    · refine .cond (ih h.edgeCrc) (ih ((h.setTile hx.crcPassed.setRouterBuf).setSite ?_))
      exact h.site

namespace State.Kept
variable {s : State} (h : s.Kept l c)
include h

theorem siteRefill {edge : Nat} : (s.siteRefill edge).Kept l c := by
  refine .foldl h fun u port hu => ?_
  split
  · exact hu
  · exact hu.portRefill _

theorem refillBufs {t : Nat} : (s.refillBufs t).Kept l c :=
  .siteRefill (h.setTile (.foldl h.tile fun _ _ hx => hx.crossIn _))

theorem takeSlot {t port : Nat} {fs : List (Nat × Flit)} {ds : List Nat} {fail : Bool} {w : Slot} :
    (s.takeSlot t port fs ds fail w).Kept l c := by
  unfold State.takeSlot
  extract_lets x
  have hx : x.Kept c := h.tile
  have hit (inj : Bool) : (if inj then Machine.injFire x else x).Kept c := .cond hx.injFire hx
  split
  · exact .cond (.crcFailed (h.setTile (hit _))) (.redForward (h.setTile hx.afterSlot.crcPassed))
  · refine .cond ?_ (.cond (.crcFailed (h.setTile (hit _))) ?_)
    · extract_lets sent
      refine .refillBufs (h.setTile ?_)
      exact hx.popBuf.afterSlot.closeCmb
    · extract_lets sent
      have hsent : sent.Kept c := hx.popBuf.afterSlot.closeCmb.crcPassed
      clear_value sent
      split
      · exact .refillBufs (h.setTile hsent.setEdgeFlits)
      · have h1 := h.setTile (t := t) hsent
        exact .refillBufs (h1.setTile h1.tile.linkIn)

theorem hop {t port : Nat} {fail : Bool} : (s.hop t port fail).Kept l c := by
  unfold State.hop
  extract_lets x bad fs ds
  clear_value bad
  split
  · exact .refillBufs (h.setTile h.tile.routeError)
  · split
    · exact h
    · exact h.takeSlot

theorem redCombine {t d : Nat} : (s.redCombine t d).Kept l c :=
  .cond h (.cond (h.onTile fun _ _ hts => hts.stopDesc) (.cond h.takeSlot h))

theorem unitIssue {t tid : Nat} : (s.unitIssue t tid).Kept l c := by
  unfold State.unitIssue
  split
  · exact h
  · extract_lets site s1 fail
    have hfail (k : Nat) : (fail k).Kept l c :=
      .cond h (.cond (h.setTile h.tile.tErr) (.raise (h.setTile h.tile.tErr)))
    have hunit (edge : Nat) : (s.onTile t fun e ts => (Machine.tUnitIssue e ts tid edge).out ts).Kept l c :=
      h.onTile fun _ _ hts => hts.out hts.tUnitIssue
    clear_value fail
    refine .cond (hunit _) (.cond (hfail _) ?_)
    split
    · exact hfail _
    · exact hunit _

theorem reportGuar : s.reportGuar.Kept l c := .foldl h fun _ _ hu => .cond hu (.cond hu (.post hu.setPart))

theorem sendAcks {n : Nat} {as : List (Nat × BktAck)} : (s.sendAcks n as).Kept l c := .foldl h fun _ _ hu => hu.fromSite

theorem relayOut {n d : Nat} {r : Option (Nat × RedFlit)} : (s.relayOut n d r).Kept l c := by
  unfold State.relayOut
  split
  · exact h
  · exact .cond (h.setTile h.tile.setRedBuf) h

end State.Kept

/-! Roots. -/

theorem SS.Kept.redRoot {e : SEnv} {x : SS} {d : Nat} {vp : Nat → Nat} (h : x.Kept c) : (redRoot e x d vp).x.Kept c := by
  unfold Machine.redRoot
  split
  · exact h
  extract_lets w
  split
  · exact h
  split
  · exact h.stopAtSite
  split
  · exact .upd h.site.popVc1
  split
  · exact h.stopAtSite
  split
  · exact h
  split
  · exact h.stopAtSite
  split
  · exact h.stopAtSite
  split
  · exact h.stopAtSite
  · exact .upd h.site.popVc1.takeRoot

theorem SS.Kept.bucketCommit {e : SEnv} {x : SS} (h : x.Kept c) : (bucketCommit e x).x.Kept c := by
  unfold Machine.bucketCommit
  extract_lets s i b
  split
  · exact h
  split
  · split
    · exact h
    · exact h.site.bktSet
  have hall : (Machine.passAll e i ((commitBlocks b).drop b.passed) x).1.Kept c := h.passAll _
  generalize Machine.passAll e i ((commitBlocks b).drop b.passed) x = p at hall
  obtain ⟨y, n⟩ := p
  dsimp only
  split
  · exact .upd hall.site.bktSet
  · exact hall

namespace State.Kept
variable {s : State} (h : s.Kept l c)
include h

theorem redOut {n d : Nat} {r : RedOut} (hr : r.x.Kept c) : (s.redOut n d r).Kept l c := by
  unfold State.redOut
  extract_lets s1 s2
  have h1 : s1.Kept l c := h.withFree.setSite hr.site
  have h2 : s2.Kept l c := by
    subst s2
    split
    · exact h1
    · exact h1.setTile h1.tile.creditBack
  exact h2.sendAcks.relayOut.raiseAll

theorem redRootFlit {n d : Nat} : (s.redRootFlit n d).Kept l c := by
  unfold State.redRootFlit
  extract_lets r
  have hr : r.x.Kept c := SS.Kept.redRoot (.of h.site)
  clear_value r
  refine .cond h ?_
  split
  · exact .cond h.edgeCrc (h.redOut hr)
  · exact h.redOut hr

theorem ackReceive {t : Nat} : (s.ackReceive t).Kept l c := by
  unfold State.ackReceive
  extract_lets x
  have hx : x.Kept c := h.tile
  split
  · exact h
  · extract_lets a w x1 x2 copies
    have h1 : x1.Kept c := hx
    have h2 : x2.Kept c := .cond h1.applyAck h1
    refine .cond (h.onTile fun _ _ hts => hts.stopDesc) (h.setTile ?_)
    exact h2

end State.Kept

end Sys2Proof.Machine
end

section
/-!
What the commands of a site, of its update engine and of the Halo ports keep.
-/

namespace Sys2Proof.Machine

variable {c : Prop} {l : List Instr}

/-! Sites. -/

namespace Site.Kept
variable {x : Site} (h : x.Kept c)
include h

theorem stopExport : (stopExport x).Kept c := by
  have stopped : (x.csrField 0x614 1 1 1).Kept c := h.csrField
  refine .cond ?_ h
  exact stopped

theorem armSite {d : Site} : (armSite d x).Kept c := by
  unfold Machine.armSite
  extract_lets x1 x2 y
  have h2 : x2.Kept c := .csrPut (.csrField (.csrPut h.csrPut))
  have hy : y.Kept c := h2.setSsq
  clear_value y
  exact hy

theorem exportCommand {cmd : Nat} : (exportCommand x cmd).Kept c := .cond h (.cond h h)
theorem setKey {p key : Nat} : Site.Kept c { x with keys := Map.set (fun _ => 0) x.keys p key } := h.withKeys fun hc => Map.wf_set (h.keysWf hc)
theorem loadKey {p key : Nat} : (loadKey x p key).Kept c := .csrCount (.csrField h.setKey)
theorem dropKey {p : Nat} : (dropKey x p).Kept c := .csrField h.setKey

theorem ownSite {q key : Nat} : (ownSite x q key).Kept c := by
  unfold Machine.ownSite
  extract_lets p d y k z
  have hy : y.Kept c := h
  have hk : k.Kept c := hy.dropKey
  have hz : z.Kept c := by
    refine .cond ?_ hy
    exact hk
  exact .cond hz hz.loadKey

theorem soilShare : (soilShare x).Kept c := .cond h h
theorem selfRefresh {now : DWord} {str : Bool} : (selfRefresh now x str).Kept c := .cond h (.cond h h)

end Site.Kept

namespace State.Kept
variable {s : State} (h : s.Kept l c)
include h

theorem requestArrive {t : Nat} : (s.requestArrive t).Kept l c := by
  unfold State.requestArrive
  extract_lets x take
  have htake {port vc : Nat} {u : State} (hu : take port vc = some u) : u.Kept l c := by
    simp only [take] at hu
    split at hu
    · contradiction
    · split at hu
      · contradiction
      next heq =>
        have hy : SS.Kept c _ := SS.Kept.siteArrive (SS.Kept.of h.site) heq
        obtain rfl := Option.some.inj hu
        have hx : x.Kept c := h.tile
        exact .raiseAll (.fromSiteAll (.setSite (.setTile h.withFree hx.setEdgeFlits) hy.site))
  clear_value take
  generalize hf : List.findSome? _ _ = r
  cases r with
  | none => exact h
  | some u =>
    obtain ⟨a, -, hu⟩ := List.exists_of_findSome?_eq_some hf
    exact htake hu

theorem siteDisable {n : Nat} : (s.siteDisable n).Kept l c := by
  unfold State.siteDisable
  extract_lets p s1
  have h1 : s1.Kept l c := h.onSite fun e x hx => .upd (by
    have hy : (Machine.stopExport (Machine.siteAbort e x 0x18).s).Kept c := hx.siteAbort.site.stopExport
    exact hy)
  exact .cond h1.requestAbort h1

theorem taintAt {p : Nat} {causes : List Nat} : (s.taintAt p causes).Kept l c := by
  unfold State.taintAt
  extract_lets d x x1 halves u x2 s1
  have hx : x.Kept c := h.site
  have hx1 : x1.Kept c := .cond hx (.csrField hx.csrField)
  have hx2 : x2.Kept c := hx1
  have h1 : s1.Kept l c := h.setSite hx2
  exact .cond h (.cond h1.outcome h1)

theorem taintPropagate {n : Nat} : (s.taintPropagate n).Kept l c := by
  unfold State.taintPropagate
  extract_lets x p d u s1
  have h1 : s1.Kept l c := by
    refine .taintAt (h.setSite ?_)
    exact h.site
  exact .cond h (.cond (h1.setSite h1.site.taintSite) h1)

theorem arm {p : Nat} : (s.arm p).Kept l c := .setPart (h.eachSite fun _ hx => hx.armSite)

theorem pavCommand {n cmd : Nat} : (s.pavCommand n cmd).Kept l c := by
  unfold State.pavCommand
  extract_lets p
  split
  · split
    · exact h.raise
    · exact h.arm
  · refine .cond (h.eachSite fun _ hx => hx.csrField) (.cond h ?_)
    refine .taintAt (h.onSite fun e x hx => .upd ?_)
    have hx1 : (Machine.detectTaint e x (cmd + 2) 0 0 0).s.Kept c := hx.detectTaint
    exact hx1

theorem siteAccepted {n o : Nat} {v : Word} : (s.siteAccepted n o v).Kept l c := by
  unfold State.siteAccepted
  extract_lets x old new p q was s0 s1 w y s2
  have hx : x.Kept c := h.site
  have h0 : s0.Kept l c := .cond h (.foldl h fun _ _ hu => hu.setSite hu.site.soilShare)
  clear_value new s0
  refine .cond (h.setSite (.csrPut (.cond hx hx.ownSite))) (.cond ?_ (.cond (h.setSite (.cond ?_ hx.csrPut))
    (.cond (h.setSite hx.redStepWrite) (.cond (h.setSite ?_) (.cond h.pavCommand (.cond (h.setSite hx.exportCommand)
      (.cond ?_ (h.setSite hx.csrPut))))))))
  · have h1 : s1.Kept l c := h0.setSite h0.site.csrPut
    exact .cond h1.requestAbort h1
  · exact hx.csrPut
  · have hy : y.Kept c := hx.csrPut
    generalize hw : (if bits v 1 0 = 0 then none else winCmd y ((o - 0x100) / 16) (bits v 1 0)) = w
    cases w with
    | none => exact hy
    | some z =>
      obtain ⟨-, hw⟩ := Option.ite_none_left_eq_some.mp hw
      exact hy.winCmd hw
  · have h1 := h.setSite (n := n) (hx.csrPut (o := o) (v := new)).stopExport
    exact .cond h1.requestAbort h1

theorem siteWrite {priv : Bool} {n o : Nat} {v : Word} : (s.siteWrite priv n o v).Kept l c := by
  refine h.privileged ?_
  split
  · exact h.refuse
  · exact h.siteAccepted

theorem stackTemp {n temp : Nat} : (s.stackTemp n temp).Kept l c := by
  unfold State.stackTemp
  extract_lets x y was now s1 s2 s3
  have h1 : s1.Kept l c := h.setSite h.site.stackReading
  have h2 : s2.Kept l c := .cond h1 h1.raise
  have h3 : s3.Kept l c := .cond h2.post (.cond h2.post h2)
  exact .cond h1 (.reportGuar (.cond h3.post h3))

/-! Halo ports. -/

/-- A port replaced by one with the same registers. -/
theorem setPortLike {q : Nat} {o : Port} (ho : o.csr = (s.port q).csr) : (s.setPort q o).Kept l c :=
  h.setPort fun hc => ho ▸ h.port hc

theorem siteTake {q : Nat} {x : HXfer} {r : SiteReq} {u : State} (hu : s.siteTake q x r = some u) : u.Kept l c := by
  unfold State.siteTake at hu
  split at hu
  · obtain rfl := Option.some.inj hu
    exact h.endXfer
  · split at hu
    · contradiction
    next heq =>
      have hy : SS.Kept c _ := SS.Kept.siteArrive (SS.Kept.of h.site) heq
      obtain rfl := Option.some.inj hu
      exact .raiseAll (.fromSiteAll (h.withFree.setSite hy.site))

theorem haloPut {q : Nat} {x : HXfer} {k : Nat} {b : List Byte} {u : State} (hu : s.haloPut q x k b = some u) : u.Kept l c := h.siteTake hu

theorem rocePut {q : Nat} {x : HXfer} {k : Nat} {u : State} (hu : s.rocePut q x k = some u) : u.Kept l c := by
  unfold State.rocePut at hu
  extract_lets lo hi b at hu
  split at hu
  · exact h.haloPut hu
  · exact h.siteTake hu

end State.Kept

theorem State.Kept.haloAsk {q tag : Nat} {mod : Bool} (n : Nat) : ∀ {s : State}, s.Kept l c → (s.haloAsk q tag mod n).Kept l c := by
  induction n with
  | zero => exact fun h => h
  | succ n ih =>
    intro s h
    unfold State.haloAsk
    split
    · exact h
    next x _ =>
      refine .cond h ?_
      extract_lets s1
      have h1 : s1.Kept l c := h.setPort h.port.putXfer
      split
      · exact h
      next s2 heq =>
        split at heq
        · exact ih (h1.siteTake heq)
        · exact ih (h1.rocePut heq)

namespace State.Kept
variable {s : State} (h : s.Kept l c)
include h

theorem haloPump {q : Nat} : (s.haloPump q).Kept l c := .foldl h fun _ _ hu => hu.haloAsk _

theorem haloTurnAway {q tag qp win unit status : Nat} : (s.haloTurnAway q tag qp win unit status).Kept l c := by
  unfold State.haloTurnAway
  extract_lets o s1
  have h1 : s1.Kept l c := .haloCmpl (h.setPort h.port.noteLast)
  exact .cond h1.raise h1

theorem haloRequest {q tag : Nat} {read : Bool} {data : List Byte} : (s.haloRequest q tag read data).Kept l c := by
  unfold State.haloRequest
  extract_lets win unit n o
  refine .cond h ?_
  split
  · exact .haloAsk _ (h.setPortLike rfl)
  · exact h.haloTurnAway

theorem haloUnits {q tag off : Nat} {mod : Bool} {data : List Byte} {u : State} (hu : s.haloUnits q tag off mod data = some u) :
    u.Kept l c := by
  unfold State.haloUnits at hu
  split at hu
  · obtain rfl := Option.some.inj hu
    exact h
  next x _ =>
    extract_lets m at hu
    obtain ⟨-, hu⟩ := Option.ite_none_left_eq_some.mp hu
    refine List.foldlRecOn (motive := fun a : Option State => ∀ u, a = some u → u.Kept l c) _ _
      (fun u hu => by obtain rfl := Option.some.inj hu; exact h) (fun a ha k _ u hu => ?_) u hu
    cases a with
    | none => contradiction
    | some s1 =>
      have h1 := ha s1 rfl
      dsimp only at hu
      split at hu
      · exact h1.haloPut hu
      · obtain rfl := Option.some.inj hu
        exact h1

theorem haloRetrain {q : Nat} : (s.haloRetrain q).Kept l c := by
  refine h.setPort (.foldl ?_ fun _ _ ho => ho.setLane)
  exact h.port

theorem haloChange {q : Nat} : (s.haloChange q).Kept l c := by
  unfold State.haloChange
  extract_lets o due
  refine .foldl (h.setPortLike rfl) fun u k hu => ?_
  extract_lets y z
  have hz : z.Kept c := .cond hu.port hu.port
  exact .cond hu.haloRetrain (.cond (hu.setPort hz.changeLanes) hu)

theorem haloHandle {q typ : Nat} {x : HFlit} {u : State} (hu : s.haloHandle q typ x = some u) : u.Kept l c := by
  unfold State.haloHandle at hu
  split at hu
  · obtain rfl := Option.some.inj hu
    exact h.haloRequest
  · exact h.haloUnits hu
  · obtain rfl := Option.some.inj hu
    exact h.haloRequest
  · exact h.haloUnits hu
  · split at hu
    · obtain rfl := Option.some.inj hu
      exact h
    · obtain rfl := Option.some.inj hu
      exact h.endXfer
  · obtain rfl := Option.some.inj hu
    exact h

end State.Kept

theorem State.Kept.haloDrain {q : Nat} (n : Nat) : ∀ {s : State}, s.Kept l c → (s.haloDrain q n).Kept l c := by
  induction n with
  | zero => exact fun h => h
  | succ n ih =>
    intro s h
    unfold State.haloDrain
    split
    · exact h
    · split
      · exact h
      next heq => exact ih ((h.haloHandle heq).setPortLike rfl)

namespace Port.Kept
variable {o : Port} (h : o.Kept c)
include h

theorem injFire : o.injFire.Kept c := .csrField h.csrField

theorem countLane {k : Nat × Nat × Nat} : (o.countLane k).Kept c := by
  unfold Port.countLane
  extract_lets n a
  refine .cond h (.csrCount (.csrCount ?_))
  exact h

end Port.Kept

namespace State.Kept
variable {s : State} (h : s.Kept l c)
include h

theorem sayAll {α : Type} {as : List α} {m : α → Msg} : (as.foldl (fun s a => s.say (m a)) s).Kept l c := .foldl h fun _ _ hu => hu.say

theorem haloTick {q : Nat} : (s.haloTick q).Kept l c := by
  unfold State.haloTick
  extract_lets s1 s2 o
  have h1 : s1.Kept l c := (h.haloDrain _).haloPump
  have h2 : s2.Kept l c := (h1.haloFlush _).roceFlush
  refine .cond (h2.setPort (.foldl (.csrPut ?_) fun _ _ ho => ho.setLane.setRole)) h2
  exact h2.port

theorem haloAck {q : Nat} {x : HFlit} : (s.haloAck q x).Kept l c := by
  unfold State.haloAck
  extract_lets o rest o1 s1
  have ho1 : o1.Kept c := h.port
  have h1 : s1.Kept l c := by
    refine h.setPort (.csrCount ?_)
    exact ho1
  exact .cond (.cond (h.setPort ho1).haloRetrain h1.sayAll) (h.setPort ho1)

theorem laneBad {q lane : Nat} {inj : Bool} : (s.laneBad q lane inj).Kept l c := by
  unfold State.laneBad
  extract_lets o o1 s1 sq y ctrl
  have ho1 : o1.Kept c := by
    refine .setLane (.csrField ?_)
    exact h.port
  have h1 : s1.Kept l c := (h.setPort ho1).raise
  have hctrl (kind : Nat) : (ctrl kind).Kept l c := by
    refine .haloTx (h1.setPort (.cond h1.port ?_))
    exact h1.port
  clear_value ctrl
  exact .cond h (.cond (.cond h1 h1.haloRetrain) (.cond h1 (.cond (h1.setPort ho1.setRole) (.cond (hctrl 1) (.cond (hctrl 2)
    (hctrl 3).haloRetrain)))))

theorem uncorrectable {q lane k : Nat} {inj : Bool} : (s.uncorrectable q lane k inj).Kept l c := by
  unfold State.uncorrectable
  extract_lets o us n s1
  have h1 : s1.Kept l c := h.setPortLike rfl
  exact .cond h (.cond h1.laneBad h1)

theorem haloRx {q typ : Nat} {x : HFlit} : (s.haloRx q typ x).Kept l c := by
  unfold State.haloRx
  extract_lets s0 o inj o' o1 s1 t1 u1 ch u2 t2
  have h0 : s0.Kept l c := .cond h (.foldl (h.setPort (.foldl h.port fun _ _ ho => ho.countLane)) fun _ _ hu => hu.uncorrectable)
  have ho : o.Kept c := h0.port
  have ho1 : o1.Kept c := by
    have fired : o'.Kept c := .cond ho.injFire ho
    exact fired
  have h1 : s1.Kept l c := h0.setPort ho1.csrCount
  have ht1 : t1.Kept l c := h0.haloAck
  have hu2 : u2.Kept c := ht1.port
  have ht2 : t2.Kept l c := ht1.setPort (by
    refine .cond ?_ ?_
    · exact hu2
    · exact hu2)
  refine .cond h (.cond h1.raise.haloIdle (.cond ht1.haloTick (.cond ht2.haloChange.haloTick.haloIdle (.cond ht1.haloTick
    (.haloIdle (ht1.setPort ?_))))))
  exact ht1.port

theorem haloTrained {q : Nat} {ok : Bool} {rtt : Nat} : (s.haloTrained q ok rtt).Kept l c := by
  unfold State.haloTrained
  extract_lets o o1 s1 s2
  have ho1 : o1.Kept c := by
    refine .foldl (.csrPut ?_) fun _ _ ho => ho.setLane.setRole
    exact h.port
  have h1 : s1.Kept l c := .cond (h.setPort ho1).sayAll (h.setPort ho1)
  have h2 : s2.Kept l c := by
    refine h.setPort (.foldl ?_ fun _ _ ho => ho.setLane)
    exact h.port
  exact .cond h (.cond (.foldl h1.haloTick fun _ _ hu => .cond hu hu.haloIdle) (.cond h2.endAll.recallReqs (h.setPortLike rfl)))

theorem portCommand {q cmd : Nat} : (s.portCommand q cmd).Kept l c := by
  unfold State.portCommand
  extract_lets o
  have ho : o.Kept c := h.port
  split
  · refine h.setPort (.foldl ?_ fun _ _ ho => ho.setLane)
    exact ho
  · refine .recallReqs (.endAll (h.setPortLike ?_))
    rfl
  · exact h.haloRetrain
  · exact h

theorem portInject {q : Nat} {v : Word} : (s.portInject q v).Kept l c := by
  unfold State.portInject
  extract_lets lane k s1 s2
  have h2 : s2.Kept l c := .uncorrectable (h.setPort h.port.injFire.csrCount)
  exact .cond (.cond h2 h2.raise) (.cond (.laneBad (h.setPort h.port.injFire)) h)

theorem portAccepted {q a : Nat} {v : Word} : (s.portAccepted q a v).Kept l c := by
  unfold State.portAccepted
  extract_lets o new s1 k y
  have h1 : s1.Kept l c := h.setPort h.port.csrPut
  exact .cond h1.portCommand (.cond h1.portInject (.cond (h1.setPort h1.port.csrField) h1))

theorem portWrite {priv : Bool} {q a : Nat} {v : Word} : (s.portWrite priv q a v).Kept l c := by
  refine h.privileged ?_
  split
  · exact h.refuse
  · exact h.portAccepted

theorem ringBreak {link : Nat} : (s.ringBreak link).Kept l c := by
  unfold State.ringBreak
  extract_lets old s1 now hit s2
  have h1 : s1.Kept l c := by
    refine .raiseAll (h.updMod ?_)
    exact h.mod
  have hhit {u : State} (hu : u.Kept l c) (ls : List Nat) : (hit u ls).2.Kept l c := hu
  have h2 : s2.Kept l c := .foldl h1 fun u q hu => .foldl hu fun v x hv => by
    have hvs := hhit hv (portPath old q x.site)
    exact .cond hvs.endXfer hvs
  refine .cond h (.foldl h2 fun u p hu => ?_)
  extract_lets d
  have hus := hhit hu ((u.sitesOf p).flatMap fun n => ringPath old d n)
  exact .cond hu (.cond hus.requestAbort hus)

theorem moduleTransfer {q win unit n : Nat} {read : Bool} : (s.moduleTransfer q win unit n read).Kept l c := by
  unfold State.moduleTransfer
  extract_lets o tag st s1
  have h1 : s1.Kept l c := h.setPortLike rfl
  exact .cond h (.cond (h.setPort h.port.noteLast) (h1.haloTx.haloAsk _))

theorem roce {q qp key off len : Nat} {read : Bool} {data : List Byte} {imm : Option Word} :
    (s.roce q qp key off len read data imm).Kept l c := by
  unfold State.roce
  extract_lets o w unit n tag st st1 y x
  exact .cond h (.cond h.haloTurnAway (.haloAsk _ (h.setPortLike rfl)))

theorem roceLand {q qp : Nat} {data : List Byte} : (s.roceLand q qp data).Kept l c := by
  unfold State.roceLand
  extract_lets o
  split
  · exact h
  · extract_lets s1
    have h1 : s1.Kept l c := h.setPortLike rfl
    exact .cond h (.cond h1.haloTurnAway h1.roce)

theorem haloWritten {q tag : Nat} : (s.haloWritten q tag).Kept l c := by
  unfold State.haloWritten
  split
  · exact h
  · split
    · extract_lets s1
      have h1 : s1.Kept l c := h.endXfer
      split
      · exact h1.post
      · exact h1
    · exact h

theorem roceResend {q tag : Nat} : (s.roceResend q tag).Kept l c := h.sayAll

end State.Kept

end Sys2Proof.Machine
end

section
/-!
What the loading of a job, fingerprint sweeps, and the power of fields keep.
-/

namespace Sys2Proof.Machine

variable {c : Prop} {l : List Instr}

/-! Tables and programs. -/

namespace Tile.Kept
variable {t : Tile} (h : t.Kept c)
include h

theorem clearTileTables : (clearTileTables t).Kept c := h.withCsr fun hc => Map.wf_clearRange (Map.wf_clearRange (h.csrWf hc))
theorem putTileImage {r : RegImage} : (putTileImage t r).Kept c := h.csrPut

theorem loadProgram {b0 : Bool} {pr : Program} : (loadProgram b0 pr t).Kept c := by
  unfold Machine.loadProgram
  extract_lets ws t1
  have h1 : t1.Kept c := (h.withIstore fun hc => Map.wf_setMany (h.istoreWf hc)).withIpar fun _ => rfl
  exact .csrPut h1.csrPut

theorem fpImage {m : Manifest} {k : Nat} : (fpImage m k t).Kept c := .csrPut h.csrPut

theorem withFp {n : Nat} : Tile.Kept c { t with fpFrac := n } := h
theorem withLeft {n : Nat} : Tile.Kept c { t with fpLeft := n } := h
theorem withInj {w : Option (Nat × Word)} : Tile.Kept c { t with injWord := w } := h

theorem fpCounted : (fpCounted t).Kept c := .cond h h.withFp.csrCount
theorem fpNote {g : FpGroup} {persist : Bool} : (fpNote g persist t).Kept c := .cond h h.csrPut
theorem fpStart : (fpStart t).Kept c := .cond h h.withLeft.csrField
theorem fpStop : (fpStop t).Kept c := h.withLeft.csrField

end Tile.Kept

namespace Site.Kept
variable {x : Site} (h : x.Kept c)
include h

theorem clearSiteTables : (clearSiteTables x).Kept c :=
  h.withCsr fun hc => Map.wf_clearRange (Map.wf_clearRange (Map.wf_clearRange (h.csrWf hc)))

theorem disarmAll : (disarmAll x).Kept c := h

theorem putSiteImage {r : RegImage} : (putSiteImage x r).Kept c := by
  unfold Machine.putSiteImage
  extract_lets old new y
  have hy : y.Kept c := h.csrPut
  refine .cond hy.csrPut (.cond ?_ hy)
  generalize hw : Machine.winCmd y ((r.off - 0x100) / 16) (bits (imgLo r) 1 0) = w
  cases w with
  | none => exact hy
  | some z => exact Site.Kept.winCmd hy hw

end Site.Kept

namespace State.Kept
variable {s : State} (h : s.Kept l c)
include h

theorem setConf {p : Nat} {k : PartConf} : (s.setConf p k).Kept l c := by
  refine h.updMod (Module.kept_iff.mpr fun hc => ?_)
  obtain ⟨hcsr, hpreg, hwear, hactive, hboot, hconf, hdram⟩ := Module.kept_iff.mp h.mod hc
  exact ⟨hcsr, hpreg, hwear, hactive, hboot, Map.wf_set hconf, hdram⟩

theorem memPut {a : Nat} {bs : List Byte} : (s.memPut a bs).Kept l c := by
  unfold State.memPut
  extract_lets o k x
  have hx : x.Kept c := h.site
  exact .cond h (h.setSite hx.writeUnit.writeUnits)

theorem putTileImages {rs : List RegImage} : (rs.foldl (fun s r => s.setTile r.unit (Machine.putTileImage (s.tile r.unit) r)) s).Kept l c :=
  .foldl h fun _ _ hu => hu.setTile hu.tile.putTileImage
theorem putSiteImages {rs : List RegImage} : (rs.foldl (fun s r => s.setSite r.unit (Machine.putSiteImage (s.site r.unit) r)) s).Kept l c :=
  .foldl h fun _ _ hu => hu.setSite hu.site.putSiteImage

/-- A busy tile is one of the module's. -/
theorem busyTile {p : Nat} {x : Nat × Tile} (hx : x ∈ s.busyTiles p) : x.2.Kept c := fun hc => by
  obtain ⟨-, -, -, -, -, all, -⟩ := State.canonical_iff.mp (h.2 hc)
  exact List.all_eq_true.mp all x (List.mem_filter.mp hx).1

theorem putTables {p : Nat} {m : Manifest} : (s.putTables p m).Kept l c := by
  unfold State.putTables
  extract_lets s1 s2 s3 s4
  have h1 : s1.Kept l c := List.foldlRecOn (motive := State.Kept l c) _ _ h fun u hu x hx => hu.setTile (h.busyTile hx).clearTileTables
  have h2 : s2.Kept l c := h1.eachSite fun _ hx => hx.clearSiteTables.disarmAll
  have h4 : s4.Kept l c := h2.putTileImages.putSiteImages
  exact h4.eachSite fun _ hx => .csrField hx.csrField

theorem swapTables {old new : Manifest} : (s.swapTables old new).Kept l c := h.putTileImages.putSiteImages

theorem loadBinary {m : Manifest} {fmap : List Nat} {b : Binary} : (s.loadBinary m fmap b).Kept l c :=
  .foldl h fun _ _ hu => hu.setTile hu.tile.loadProgram.fpImage

theorem putHeader {p : Nat} {m : Manifest} : (s.putHeader p m).Kept l c := by
  unfold State.putHeader
  extract_lets s1 s2
  have h1 : s1.Kept l c := h.eachSite fun x hx => .csrPut (.csrPut (.csrField hx.csrPut))
  exact h1.ezPut.ezPut

theorem putWindow {w : HaloImage} : (s.putWindow w).Kept l c := by
  unfold State.putWindow
  extract_lets o a o1 k
  have h1 : o1.Kept c := .csrPut (.csrPut h.port.csrPut)
  exact .cond h.refuse (h.setPort h1.csrPut)

theorem putSrate {p srate : Nat} {tiles : List Nat} : (s.putSrate p srate tiles).Kept l c :=
  .eachSite (.foldl h fun _ _ hu => hu.setTile hu.tile.csrField) fun _ hx => hx.csrField

theorem freshRegions {tiles : List Nat} : (s.freshRegions tiles).Kept l c :=
  .foldl h fun _ _ hu => hu.setTile (hu.tile.withRegions fun _ => rfl)

theorem loadManifest {p : Nat} {m : Manifest} {bins : List Binary} : (s.loadManifest p m bins).Kept l c := by
  unfold State.loadManifest
  extract_lets s1 s2 tiles
  have h1 : s1.Kept l c := h.putTables.putHeader
  have h2 : s2.Kept l c := by
    subst s2
    split
    · exact h1
    · exact h1.loadBinary
  exact .foldl h2.freshRegions.putSrate fun _ _ hu => hu.putWindow

end State.Kept

/-! Fingerprints. -/

/-- The words of a group written as they were pulled from the image. -/
def fpWritten (g : FpGroup) (ws : List Byte) (t : Tile) : Tile :=
  (List.zip g.words (bytesWords g.words.length ws)).foldl (fun x w => writePhys x w.1 w.2) t

/-- An injection struck a word of the group. -/
def fpMine (g : FpGroup) (t : Tile) : Bool :=
  match t.injWord with
  | some w => g.words.contains w.1 && Map.get (fun _ => 0#32) t.spd w.1 = w.2
  | none => false

/-- A group that did not match, with the words of the image, counted and noted. -/
def fpMended (g : FpGroup) (ws : List Byte) (t : Tile) : Tile :=
  fpNote g false (csrCount { fpWritten g ws t with injWord := if fpMine g t then none else (fpWritten g ws t).injWord } 0xB20 31 16 1)

/-- A group that a second check found good, or not. -/
def fpAgain (g : FpGroup) (ok : Bool) (t : Tile) : Tile := fpCounted (if ok then t else fpNote g true t)

/-- The record of a group that did not match. -/
def fpRec (t : Nat) (g : FpGroup) (ok inj : Bool) (y : Tile) : Rec :=
  { source := 0x07, cls := if ok then 2 else 1, loc := t, code := g.rg, addr := nth 0 g.words 0,
    detail := [csrWord y 0xB10, csrWord y 0xB14, csrWord y 0xB18, csrWord y 0xB1C, csrWord y 0xB20], inj := inj }

/-- What the check of a group can do (R453). The function is unfolded as a whole, never applied: its applications are compared by running
them, which would count up to the size of a site. -/
theorem State.fpCheck_cases {P : State × Bool → Prop} {s : State} {t : Nat} {g : FpGroup}
    (noSum : ∀ s1, s.fpPull t g.sumAt 8 = (s1, none) → P (s1, false))
    (good : ∀ s1 b s2 hit, s.fpPull t g.sumAt 8 = (s1, some b) → s1.fpMatches t g (ofLeBytes b) = (s2, true, hit) →
      P (s2.setTile t (fpCounted (s2.tile t)), true))
    (noWords : ∀ s1 b s2 hit s3, s.fpPull t g.sumAt 8 = (s1, some b) → s1.fpMatches t g (ofLeBytes b) = (s2, false, hit) →
      s2.fpPull t g.wordsAt (4 * g.words.length) = (s3, none) → P (s3, false))
    (mended : ∀ s1 b s2 hit s3 ws s5 ok again, s.fpPull t g.sumAt 8 = (s1, some b) → s1.fpMatches t g (ofLeBytes b) = (s2, false, hit) →
      s2.fpPull t g.wordsAt (4 * g.words.length) = (s3, some ws) →
      (s3.setTile t (fpMended g ws (s3.tile t))).fpMatches t g (ofLeBytes b) = (s5, ok, again) →
      P ((s5.setTile t (fpAgain g ok (s5.tile t))).raise
        (fpRec t g ok (fpMine g (s3.tile t) || hit || again) (fpAgain g ok (s5.tile t))), true)) :
    P (s.fpCheck t g) := by
  suffices key : ∀ f pull, f = State.fpCheck → State.fpPull = pull → P (f s t g) from key _ _ rfl rfl
  intro f pull hf hq
  have pulled (u : State) (o n : Nat) : u.fpPull t o n = pull u t o n := by rw [hq]
  delta State.fpCheck at hf
  rw [hq] at hf
  subst hf
  beta_reduce
  generalize hpull : pull s t g.sumAt 8 = p
  obtain ⟨s1, sum⟩ := p
  cases sum with
  | none => exact noSum s1 ((pulled ..).trans hpull)
  | some b =>
    dsimp -zeta only
    generalize hmatch : s1.fpMatches t g (ofLeBytes b) = p
    obtain ⟨s2, same, hit⟩ := p
    cases same with
    | true => exact good s1 b s2 hit ((pulled ..).trans hpull) hmatch
    | false =>
      dsimp -zeta only
      generalize hwords : pull s2 t g.wordsAt (4 * g.words.length) = p
      obtain ⟨s3, words⟩ := p
      cases words with
      | none => exact noWords s1 b s2 hit s3 ((pulled ..).trans hpull) hmatch ((pulled ..).trans hwords)
      | some ws =>
        dsimp -zeta only
        extract_lets x0 mine x s4 y
        have hs4 : s4 = s3.setTile t (fpMended g ws (s3.tile t)) := rfl
        have hy : y = fpAgain g (s4.fpMatches t g (ofLeBytes b)).2.1 ((s4.fpMatches t g (ofLeBytes b)).1.tile t) := rfl
        have hmine : mine = fpMine g (s3.tile t) := rfl
        clear_value s4 y mine
        subst hs4 hy hmine
        generalize hagain : (s3.setTile t (fpMended g ws (s3.tile t))).fpMatches t g (ofLeBytes b) = p
        obtain ⟨s5, ok, again⟩ := p
        exact mended s1 b s2 hit s3 ws s5 ok again ((pulled ..).trans hpull) hmatch ((pulled ..).trans hwords) hagain

/-- CURSOR on the next group of the tile `t` that a sweep found, with one group less to check. -/
def fpMoved (t y : Tile) : Tile :=
  csrField { y with fpLeft := y.fpLeft - 1 } 0xB18 23 8 ((bits (csrWord t 0xB18) 23 8 % (fpGroups t).length + 1) % (fpGroups t).length)

/-- What a step of a running sweep can do (R453). -/
theorem State.fpStep_cases {P : State → Prop} {s : State} {t : Nat} (still : (!bit (csrWord (s.tile t) 0xB18) 2 || runBit (s.tile t)) = true → P s)
    (ends : (!bit (csrWord (s.tile t) 0xB18) 2 || runBit (s.tile t)) = false →
      (fpGroups (s.tile t))[bits (csrWord (s.tile t) 0xB18) 23 8 % (fpGroups (s.tile t)).length]? = none → P (s.setTile t (fpStop (s.tile t))))
    (waits : ∀ g s1, (!bit (csrWord (s.tile t) 0xB18) 2 || runBit (s.tile t)) = false →
      (fpGroups (s.tile t))[bits (csrWord (s.tile t) 0xB18) 23 8 % (fpGroups (s.tile t)).length]? = some g → s.fpCheck t g = (s1, false) → P s1)
    (moves : ∀ g s1, (!bit (csrWord (s.tile t) 0xB18) 2 || runBit (s.tile t)) = false →
      (fpGroups (s.tile t))[bits (csrWord (s.tile t) 0xB18) 23 8 % (fpGroups (s.tile t)).length]? = some g → s.fpCheck t g = (s1, true) →
      P (s1.setTile t (if (fpMoved (s.tile t) (s1.tile t)).fpLeft = 0 then fpStop (fpMoved (s.tile t) (s1.tile t)) else fpMoved (s.tile t) (s1.tile t)))) :
    P (s.fpStep t) := by
  suffices key : ∀ f check, f = State.fpStep → State.fpCheck = check → P (f s t) from key _ _ rfl rfl
  intro f check hf hq
  have checked (g : FpGroup) : s.fpCheck t g = check s t g := by rw [hq]
  delta State.fpStep at hf
  rw [hq] at hf
  subst hf
  beta_reduce
  extract_lets x gs k
  split
  next hstill => exact still hstill
  next hgo =>
    have hgo := Bool.eq_false_of_not_eq_true hgo
    generalize hfound : gs[k]? = found
    cases found with
    | none => exact ends hgo hfound
    | some g =>
      dsimp -zeta only
      generalize hcheck : check s t g = p
      obtain ⟨s1, done⟩ := p
      cases done with
      | false => exact waits g s1 hgo hfound ((checked g).trans hcheck)
      | true => exact moves g s1 hgo hfound ((checked g).trans hcheck)

namespace State.Kept
variable {s : State} (h : s.Kept l c)
include h

theorem fpPull {t o n : Nat} {p : State × Option (List Byte)} (hp : s.fpPull t o n = p) : p.1.Kept l c := by
  unfold State.fpPull at hp
  extract_lets x a m b units r s1 at hp
  have hr : r.1.Kept c := by
    clear_value units
    refine List.foldlRecOn (motive := fun p : SS × Bool => p.1.Kept c) _ _ (SS.Kept.of h.site) fun p hp u _ => ?_
    have hu : (readUnit (s.siteEnv m) p.1 1 u []).1.Kept c := SS.Kept.readUnit hp
    exact hu
  have h1 : s1.Kept l c := .raiseAll (h.withFree.setSite hr.site)
  split at hp
  · obtain rfl := hp
    exact h
  · obtain rfl := hp
    exact h1

end State.Kept

theorem TS.Kept.fpRead {id : Nat} (is : List Nat) : ∀ {ts : TS}, ts.Kept c → (fpRead id ts is).1.Kept c := by
  induction is with
  | nil => exact fun h => h
  | cons i is ih =>
    intro ts h
    exact ih h.readPhys

namespace State.Kept
variable {s : State} (h : s.Kept l c)
include h

theorem fpMatches {t : Nat} {g : FpGroup} {sum : Nat} {p : State × Bool × Bool} (hp : s.fpMatches t g sum = p) : p.1.Kept l c := by
  have hread : (Machine.fpRead t { t := s.tile t, free := s.free } g.words).1.Kept c := TS.Kept.fpRead _ (.of h.tile)
  obtain rfl := hp
  exact h.withFree.setTile hread.tile

theorem fpCheck {t : Nat} {g : FpGroup} : (s.fpCheck t g).1.Kept l c :=
  State.fpCheck_cases (P := fun p => p.1.Kept l c) (fun s1 hpull => h.fpPull hpull)
    (fun s1 b s2 hit hpull hmatch => by
      have h2 : s2.Kept l c := (h.fpPull hpull).fpMatches hmatch
      exact h2.setTile h2.tile.fpCounted)
    (fun s1 b s2 hit s3 hpull hmatch hwords => ((h.fpPull hpull).fpMatches hmatch).fpPull hwords)
    fun s1 b s2 hit s3 ws s5 ok again hpull hmatch hwords hagain => by
      have h3 : s3.Kept l c := ((h.fpPull hpull).fpMatches hmatch).fpPull hwords
      have hx : (fpWritten g ws (s3.tile t)).Kept c := .foldl h3.tile fun _ _ hy => hy.writePhys
      have h5 : s5.Kept l c := (h3.setTile hx.withInj.csrCount.fpNote).fpMatches hagain
      exact (h5.setTile (.fpCounted (.cond h5.tile h5.tile.fpNote))).raise

theorem fpSweepAll {t : Nat} : (s.fpSweepAll t).Kept l c := .foldl h fun _ _ hu => hu.fpCheck

theorem fpStep {t : Nat} : (s.fpStep t).Kept l c :=
  State.fpStep_cases (P := State.Kept l c) (fun _ => h) (fun _ _ => h.setTile h.tile.fpStop)
    (fun g s1 _ _ hcheck => by
      have h1 : (s.fpCheck t g).1.Kept l c := h.fpCheck
      rw [hcheck] at h1
      exact h1)
    fun g s1 _ _ hcheck => by
      have h1 : (s.fpCheck t g).1.Kept l c := h.fpCheck
      rw [hcheck] at h1
      have hz : (fpMoved (s.tile t) (s1.tile t)).Kept c := (State.Kept.tile h1).withLeft.csrField
      exact State.Kept.setTile h1 (.cond hz.fpStop hz)

end State.Kept

end Sys2Proof.Machine
end

section
/-!
What the power and the links of fields, the persistent store and the routes keep.
-/

namespace Sys2Proof.Map

variable {α : Type} {p : Nat × α → Bool}

theorem all_filter {m : Map α} {q : Nat × α → Bool} (h : m.all p = true) : (m.filter q).all p = true :=
  List.all_eq_true.mpr fun x hx => List.all_eq_true.mp h x (List.mem_filter.mp hx).1

/-- Where the change of an entry keeps a property, the changed map keeps it. -/
theorem all_changed [DecidableEq α] {d : Nat → α} {g : Nat → α → α} {m : Map α} (h : m.all p = true)
    (hg : ∀ k x, p (k, x) = true → p (k, g k x) = true) : (changed d g m).all p = true :=
  all_filter (List.all_eq_true.mpr fun x hx => by
    obtain ⟨y, hy, rfl⟩ := List.mem_map.mp hx
    exact hg _ _ (List.all_eq_true.mp h y hy))

end Sys2Proof.Map

namespace Sys2Proof.Machine

variable {c : Prop} {l : List Instr}

theorem Tile.Kept.clearCross {f t : Nat} {x : Tile} (h : x.Kept c) : (clearCross f t x).Kept c := h

namespace Field.Kept
variable {x : Field} (h : x.Kept c)
include h

theorem stopTest : (stopTest x).Kept c := .cond (.csrField h.csrField) h

end Field.Kept

namespace State.Kept
variable {s : State} (h : s.Kept l c)
include h

/-- The tiles replaced by others in canonical form. -/
theorem withTiles {m : Map Tile} (hwf : c → Map.wf (fun _ => ({} : Tile)) m = true) (hall : c → (m.all fun e => e.2.canonical) = true) :
    State.Kept l c { s with tiles := m } :=
  ⟨h.1, fun hc => by
    obtain ⟨-, hfields, hsites, hports, hparts, -, rest⟩ := State.canonical_iff.mp (h.2 hc)
    exact State.canonical_iff.mpr ⟨hwf hc, hfields, hsites, hports, hparts, hall hc, rest⟩⟩

/-- So the sites. -/
theorem withSites {m : Map Site} (hwf : c → Map.wf blankSite m = true) (hall : c → (m.all fun e => e.2.canonical) = true) :
    State.Kept l c { s with sites := m } :=
  ⟨h.1, fun hc => by
    obtain ⟨htiles, hfields, -, hports, hparts, allTiles, allFields, -, rest⟩ := State.canonical_iff.mp (h.2 hc)
    exact State.canonical_iff.mpr ⟨htiles, hfields, hwf hc, hports, hparts, allTiles, allFields, hall hc, rest⟩⟩

theorem tilesWf (hc : c) : Map.wf (fun _ => ({} : Tile)) s.tiles = true := (State.canonical_iff.mp (h.2 hc)).1
theorem tilesAll (hc : c) : (s.tiles.all fun e => e.2.canonical) = true := by
  obtain ⟨-, -, -, -, -, all, -⟩ := State.canonical_iff.mp (h.2 hc)
  exact all
theorem sitesWf (hc : c) : Map.wf blankSite s.sites = true := by
  obtain ⟨-, -, wf, -⟩ := State.canonical_iff.mp (h.2 hc)
  exact wf
theorem sitesAll (hc : c) : (s.sites.all fun e => e.2.canonical) = true := by
  obtain ⟨-, -, -, -, -, -, -, all, -⟩ := State.canonical_iff.mp (h.2 hc)
  exact all

/-- The tiles for which `p` holds. -/
theorem filterTiles {p : Nat × Tile → Bool} : State.Kept l c { s with tiles := s.tiles.filter p } :=
  h.withTiles (fun hc => Map.wf_filter (h.tilesWf hc)) fun hc => Map.all_filter (h.tilesAll hc)

/-- Each tile changed. -/
theorem changedTiles {g : Nat → Tile → Tile} (hg : ∀ t x, Tile.Kept c x → Tile.Kept c (g t x)) :
    State.Kept l c { s with tiles := Map.changed (fun _ => {}) g s.tiles } :=
  h.withTiles (fun hc => Map.wf_changed g (h.tilesWf hc)) fun hc =>
    Map.all_changed (h.tilesAll hc) fun t x hx => hg t x (fun _ => hx) hc

/-- Each site changed. -/
theorem changedSites {g : Nat → Site → Site} (hg : ∀ n x, Site.Kept c x → Site.Kept c (g n x)) :
    State.Kept l c { s with sites := Map.changed blankSite g s.sites } :=
  h.withSites (fun hc => Map.wf_changed g (h.sitesWf hc)) fun hc =>
    Map.all_changed (h.sitesAll hc) fun n x hx => hg n x (fun _ => hx) hc

theorem setFresh {f n : Nat} : (s.setField f { s.field f with fresh := n }).Kept l c := by
  refine h.setField ?_
  exact h.field

theorem paceSync {f : Nat} : (s.paceSync f).Kept l c := by
  unfold State.paceSync
  extract_lets x s1
  have h1 : s1.Kept l c := h.setFresh
  refine .cond (.cond h ?_) (.cond h.setFresh h)
  have hchanged : (s1.tiles.map fun e => if fieldOf e.1 = f then (e.1, { e.2 with credit := none }) else e) =
      s1.tiles.map fun e => (e.1, if fieldOf e.1 = f then { e.2 with credit := none } else e.2) :=
    List.map_congr_left fun e _ => by split <;> rfl
  rw [hchanged]
  exact h1.changedTiles (g := fun t x => if fieldOf t = f then { x with credit := none } else x) fun t x hx => .cond hx hx

theorem levels {f : Nat} : (s.levels f).Kept l c := (h.paceSync.ezField).ezField
theorem allLevels : s.allLevels.Kept l c := .foldl h fun _ _ hu => hu.levels
theorem setFieldOwner {f p : Nat} : (s.setFieldOwner f p).Kept l c := (((h.setField h.field.csrField).ezField).ezField).levels

theorem xmaskAbort {f : Nat} : (s.xmaskAbort f).Kept l c := by
  unfold State.xmaskAbort
  extract_lets m s1
  have h1 : s1.Kept l c := .foldl h fun _ _ hu => .cond hu.requestAbort hu
  exact .cond h1.post h1

theorem setNodes {f : Nat} {b : Bool} : (s.setField f { s.field f with nodes := b }).Kept l c := by
  refine h.setField ?_
  exact h.field
theorem setLock {f : Nat} {b : Bool} : (s.setField f { s.field f with lock := b }).Kept l c := by
  refine h.setField ?_
  exact h.field

theorem startNodes {f : Nat} : (s.startNodes f).Kept l c := by
  unfold State.startNodes
  extract_lets x s1 j
  have h1 : s1.Kept l c := h.setNodes
  exact .cond h (.cond (.foldl h1 fun _ _ hu => .cond hu.setLock hu) h1)

theorem loseLock {f : Nat} : (s.loseLock f).Kept l c := by
  unfold State.loseLock
  extract_lets x s1
  have h1 : s1.Kept l c := h.setLock
  exact .cond (.cond h1.xmaskAbort h1) h

theorem stopNodes {f : Nat} : (s.stopNodes f).Kept l c := .foldl h.setNodes.loseLock fun _ _ hu => .cond hu.loseLock hu

theorem emptied {f power : Nat} : (s.emptied f power).Kept l c := by
  unfold State.emptied
  extract_lets x kept sent s0
  have hx : x.Kept c := h.field.stopTest
  have h0 : s0.Kept l c := by
    refine h.setField ?_
    exact hx
  clear_value x
  have h1 : State.Kept l c { s0 with tiles := s0.tiles.filter fun t => decide (fieldOf t.1 ≠ f) } := h0.filterTiles
  have h2 := h1.changedTiles (g := clearCross f) fun t y hy => hy.clearCross
  exact h2.changedSites (g := fun _ => sent) fun n y hy => hy

theorem stageOff {f power cause : Nat} {stop : Bool} : (s.stageOff f power cause stop).Kept l c := by
  rw [State.stageOff_eq]
  have hd : (s.darkened f power cause).Kept l c := (((h.emptied.ezField).ezField).ezField).ezField
  exact .levels (.cond hd.stopNodes hd)

theorem goDark {f power cause : Nat} : (s.goDark f power cause).Kept l c := h.stageOff.xmaskAbort

theorem fuseOpen {f : Nat} {inj : Bool} : (s.fuseOpen f inj).Kept l c := by
  unfold State.fuseOpen
  extract_lets x s1 y s2
  have h1 : s1.Kept l c := h.goDark
  have h2 : s2.Kept l c := by
    have hy : y.Kept c := h1.field
    clear_value y s1
    refine h1.setField ?_
    exact hy
  exact .cond h2.raise h

theorem squall {f cause : Nat} {inj : Bool} : (s.squall f cause inj).Kept l c := by
  unfold State.squall
  extract_lets x third s0 s1 s2 s3 s4
  have h0 : s0.Kept l c := by
    refine .ezField (h.setField ?_)
    exact h.field
  have h1 : s1.Kept l c := .cond h0.post h0
  have h3 : s3.Kept l c := ((h1.ezField).ezField).levels.xmaskAbort
  have h4 : s4.Kept l c := .cond h3.stageOff h3
  exact .cond h4.raise h

theorem throttle {f vth tpace : Nat} : (s.throttle f vth tpace).Kept l c := (((h.ezField).ezField).ezField).levels

theorem sensorReading {f : Nat} {temps : List (Option Nat)} : (s.sensorReading f temps).Kept l c := by
  unfold State.sensorReading
  extract_lets ts ninv t x inj w s1 calm y s2 s3
  have h1 : s1.Kept l c := h.ezPut
  have hy : y.Kept c := h.field
  have h2 : s2.Kept l c := h1.setField hy
  have h3 : s3.Kept l c := h2.throttle.post
  exact .cond h2.squall (.cond h2.squall (.cond (.cond h3.post h3) h2))

theorem throttleMore {f : Nat} : (s.throttleMore f).Kept l c := .cond h (.cond h.throttle h.throttle)
theorem throttleLess {f : Nat} : (s.throttleLess f).Kept l c := .cond h (.cond h.throttle h.throttle)

/-! The persistent store. -/

theorem pregPut {o : Nat} {v back : Word} : (s.pregPut o v back).Kept l c := by
  unfold State.pregPut
  extract_lets n s1
  have h1 : s1.Kept l c := h.updMod (Module.kept_iff.mpr fun hc => by
    obtain ⟨hcsr, hpreg, hwear, rest⟩ := Module.kept_iff.mp h.mod hc
    refine ⟨hcsr, ?_, ?_, rest⟩
    · dsimp only
      exact Map.wf_set hpreg
    · dsimp only
      exact Map.wf_set hwear)
  exact .cond h1.raise h1

theorem journalWrite {f : Nat} {ws : List MapWord} : (s.journalWrite f ws).Kept l c := .foldl h fun _ _ hu => hu.pregPut

theorem setJournal {b : Bool} : (s.setJournal b).Kept l c := by
  refine h.updMod ?_
  exact h.mod

theorem closeJournal : s.closeJournal.Kept l c := by
  unfold State.closeJournal
  split
  · exact .cond h.journalWrite.setJournal h
  · exact h

theorem rootRecord {k : Nat} : (s.rootRecord k).Kept l c := h.raise

end State.Kept

end Sys2Proof.Machine
end

section
/-!
What the field map, the powering of fields, the coolant, the energy windows and the time base keep.
-/

namespace Sys2Proof.Machine

variable {c : Prop} {l : List Instr}

namespace State.Kept
variable {s : State} (h : s.Kept l c)
include h

theorem writeMap {f : Nat} {ws : List MapWord} {bad byp : Nat} {retired : Bool} {cut : Option Nat} :
    (s.writeMap f ws bad byp retired cut).Kept l c := by
  unfold State.writeMap
  extract_lets s0 words old sum after all s1
  have h0 : s0.Kept l c := h.closeJournal
  have h1 : s1.Kept l c := by
    refine h0.updMod ?_
    exact h0.mod
  split
  · exact .cond h1.journalWrite h1.journalWrite.setJournal
  · exact h1.journalWrite.setJournal

theorem restoreMap {f : Nat} : (s.restoreMap f).Kept l c := by
  unfold State.restoreMap
  split
  · exact h.rootRecord
  · exact h.writeMap

theorem leaveDark {f : Nat} {mapErr : Bool} : (s.leaveDark f mapErr).Kept l c := by
  refine State.Kept.startNodes (h.setField ?_)
  exact h.field

theorem fieldWordsWf {f : Nat} (hc : c) : Map.wf factoryWord (s.fieldWords f) = true := by
  obtain ⟨-, hpreg, -⟩ := Module.kept_iff.mp h.mod hc
  exact Map.wf_filter hpreg

theorem checkMap {f : Nat} : (s.checkMap f).Kept l c := by
  unfold State.checkMap
  refine .cond h.leaveDark ?_
  split
  · have hx : Field.Kept c { s.field f with accepted := s.fieldWords f } := h.field.withAccepted h.fieldWordsWf
    refine h.setField ?_
    exact hx
  · exact h.leaveDark.raise

theorem setPower {f n : Nat} : (s.setField f { s.field f with power := n }).Kept l c := by
  refine h.setField ?_
  exact h.field

theorem powerUp {f : Nat} : (s.powerUp f).Kept l c := by
  unfold State.powerUp
  extract_lets on s1
  have hon (u : State) (hu : u.Kept l c) : (on u).Kept l c := State.Kept.checkMap (.cond hu.setPower.startNodes hu.setPower)
  have h1 : s1.Kept l c := hon _ h.ezField
  exact .cond h1 (.cond (hon _ h1.closeJournal) h1.restoreMap)

theorem fieldCmd {f cmd : Nat} : (s.fieldCmd f cmd).Kept l c := by
  have hx : (s.field f).Kept c := h.field
  unfold State.fieldCmd
  dsimp only
  split
  · exact h.powerUp
  · refine State.Kept.ezField (h.setField ?_)
    exact hx
  · refine h.setField ?_
    exact hx
  · exact h

theorem updPow {g : Module → Pow} : (s.updMod fun m => { m with pow := g m }).Kept l c := by
  refine h.updMod ?_
  exact h.mod

theorem joinGroup {f : Nat} : (s.joinGroup f).Kept l c := by
  have h1 : (s.setField f { s.field f with tried := true }).Kept l c := by
    refine h.setField ?_
    exact h.field
  exact .cond h h1.updPow

theorem fieldCmdNext {f cmd : Nat} : (s.fieldCmdNext f cmd).Kept l c := .cond h.joinGroup.fieldCmd h.fieldCmd

theorem fieldCmdWrite {priv : Bool} {f cmd : Nat} : (s.fieldCmdWrite priv f cmd).Kept l c := by
  unfold State.fieldCmdWrite
  refine h.privileged ?_
  split
  · exact h.refuse
  · exact .cond h h.fieldCmdNext

theorem fieldReady {f : Nat} {microcode lock : Bool} : (s.fieldReady f microcode lock).Kept l c := by
  unfold State.fieldReady
  extract_lets s1 x y s2a s2
  have h1 : s1.Kept l c := h.startNodes
  have hx : x.Kept c := h1.field
  have hdark : (s1.setField f { x with power := 0, lock := false, reserve := false, kept := false }).Kept l c := by
    refine h1.setField ?_
    exact hx
  have hy : y.Kept c := Field.kept_iff.mpr fun hc => ⟨Map.wf_filter (hx.csrWf hc), hx.acceptedWf hc, hx.acceptedWf hc⟩
  have h2 : s2.Kept l c := State.Kept.filterTiles (s := s1.setField f y) (h1.setField hy)
  exact .cond h (.cond h.leaveDark (.cond h.leaveDark.raise (.cond hdark h2.levels)))

theorem drained {f q : Nat} : (s.drained f q).Kept l c := .cond h.stageOff h

theorem retestDone {f : Nat} {reached : Bool} : (s.retestDone f reached).Kept l c :=
  .cond (.cond (State.Kept.startNodes (State.Kept.ezField h.setPower)) h.raise) h

/-! The coolant and the windows of energy. -/

theorem setEcap : s.setEcap.Kept l c := h.ezField
theorem coolDown : s.coolDown.Kept l c := .foldl h fun _ _ hu => .cond hu.fieldCmd hu

theorem requestAborts {ps : List Nat} {cause : Nat} : (ps.foldl (fun s p => s.requestAbort p cause) s).Kept l c := .foldl h fun _ _ hu => hu.requestAbort

theorem coolant {tin tout flow : Nat} : (s.coolant tin tout flow).Kept l c := by
  unfold State.coolant
  extract_lets tin tout flow inj m slow raw old held top new s1 s2 s3
  have h1 : s1.Kept l c := State.Kept.ezPut h.updPow
  have h2 : s2.Kept l c := h1.setEcap.allLevels
  have h3 : s3.Kept l c := h2.raise.post
  exact .cond h2 (.cond h3.requestAborts.coolDown h3)

theorem setGov {p glvl gpace : Nat} : (s.setGov p glvl gpace).Kept l c :=
  .foldl h.ezPut fun _ _ hu => ((hu.ezField).ezField).levels

theorem partWindow {e : List Nat} {p : Nat} : (s.partWindow e p).Kept l c := by
  unfold State.partWindow
  extract_lets mj x cap tot s1 glvl gpace all s2 floor x3
  have h2 : s2.Kept l c := h.ezPut.ezPut.ezPut.ezPut.setPart
  exact .cond h2 (.cond (.cond h2.setPart.setGov h2.setPart.setGov)
    (.cond (.cond h2.setPart (.cond h2.setPart.setGov h2.setPart.setGov)) h2.setPart))

theorem capWindow {k mj cap : Nat} : (s.capWindow k mj cap).Kept l c := by
  unfold State.capWindow
  extract_lets g u put
  have hput (g u : Nat) : (put g u).Kept l c := h.updPow
  exact .cond (hput _ _) (.cond (.cond (hput _ _) (hput _ _)) (hput _ _))

theorem feedHeld {k : Nat} : (s.feedHeld k).Kept l c := .cond h.ezField h
theorem stopTests : s.stopTests.Kept l c := .foldl h fun _ _ hu => .cond (hu.setField hu.field.stopTest) hu

theorem windowEnd {a b m : Nat} {parts fields : List Nat} : (s.windowEnd a b m parts fields).Kept l c := by
  unfold State.windowEnd
  extract_lets s0 s1 s2 s3 s4 s5 lower
  have h1 : s1.Kept l c := State.Kept.ezField (State.Kept.ezField (State.Kept.ezField h.updPow))
  have h2 : s2.Kept l c := .foldl h1 fun _ _ hu => hu.ezField
  have h3 : s3.Kept l c := .foldl h2 fun _ _ hu => hu.partWindow
  have h4 : s4.Kept l c := h3.capWindow.capWindow.capWindow
  clear_value s4
  have h5 : s5.Kept l c := h4.feedHeld.feedHeld.allLevels
  exact .cond h5.stopTests h5

theorem pacingTick : s.pacingTick.Kept l c := by
  unfold State.pacingTick
  extract_lets on s1
  have h1 : s1.Kept l c := .foldl h fun _ _ hu => .cond hu.setFresh hu
  refine .foldl h1 fun u e hu => ?_
  dsimp only
  split
  · exact hu
  · exact .cond (hu.setTile hu.tile) hu

theorem firstLock {b : Bool} {v : DWord} {k : Bool} : State.Kept l c { s.updMod fun m => { m with firstLock := b } with now := v, counting := k } := by
  have h1 : (s.updMod fun m => { m with firstLock := b }).Kept l c := by
    refine h.updMod ?_
    exact h.mod
  exact h1

theorem locks {fs : List Nat} {q : Nat → Bool} :
    (fs.foldl (fun s f => if (s.field f).nodes then s.setField f { s.field f with lock := q f } else s) s).Kept l c :=
  .foldl h fun _ _ hu => .cond hu.setLock hu

theorem cirSet {priv : Bool} {v : DWord} : (s.cirSet priv v).Kept l c := by
  unfold State.cirSet
  extract_lets s0 s1 j
  have h1 : s1.Kept l c := h.firstLock
  exact h.privileged (.cond h.refuse h1.locks)

theorem phaseLoss {f perr : Nat} : (s.phaseLoss f perr).Kept l c := by
  unfold State.phaseLoss
  extract_lets e x y
  have hy : y.Kept c := h.field
  have h1 : (s.setField f y).Kept l c := h.setField hy
  have h2 : ((s.ezField (0x3100 + 4 * f) 1 1 1).setField f { y with losses := x.losses ++ [s.now] }).Kept l c := by
    refine h.ezField.setField ?_
    exact hy
  exact .cond h1 h2.raise

end State.Kept

end Sys2Proof.Machine
end

section
/-!
What field routes, the register windows of tiles and the messages of hosts keep.
-/

namespace Sys2Proof.Machine

variable {c : Prop} {l : List Instr}

theorem Field.Kept.csrPuts {α : Type} {x : Field} {as : List α} {o : α → Nat} {v : α → Word} (h : x.Kept c) :
    (as.foldl (fun x d => x.csrPut (o d) (v d)) x).Kept c :=
  List.foldlRecOn (motive := Field.Kept c) as _ h fun _ hy _ _ => hy.csrPut

namespace State.Kept
variable {s : State} (h : s.Kept l c)
include h

theorem updCc {g : Module → CC} (hconf : ∀ m, (g m).conf = m.cc.conf) : (s.updMod fun m => { m with cc := g m }).Kept l c := by
  refine h.updMod (Module.kept_iff.mpr fun hc => ?_)
  dsimp only
  rw [hconf]
  exact Module.kept_iff.mp h.mod hc

/-! Routes. -/

theorem setActive {f bank : Nat} : (s.setActive f bank).Kept l c := by
  unfold State.setActive
  extract_lets x y
  have hy : y.Kept c := h.field.csrField
  clear_value y
  refine h.setField ?_
  exact hy

theorem putXmask : s.putXmask.Kept l c := .foldl h fun _ _ hu => hu.ezField

theorem holds {ps : List Nat} {q : State → Nat → Bool} {b : Bool} :
    (ps.foldl (fun s p => if q s p then s.setPart p { s.part p with hold := b } else s) s).Kept l c :=
  .foldl h fun _ _ hu => .cond hu.setPart hu

theorem setSwap {b : Bool} : (s.updMod fun m => { m with cc := { m.cc with swap := b } }).Kept l c := h.updCc fun _ => rfl

theorem finishSwap : s.finishSwap.Kept l c := by
  unfold State.finishSwap
  extract_lets bank s1 s2
  have h1 : s1.Kept l c := .foldl h fun _ _ hu => hu.setActive
  have h2 : s2.Kept l c := h1.holds (q := fun s p => (s.part p).hold)
  exact h2.setSwap.putXmask.reportGuar

theorem heldSwap : s.heldSwap.Kept l c := .cond h.finishSwap h

theorem setUnreach {f : Nat} {lost : Bool} : (s.setUnreach f lost).Kept l c := by
  unfold State.setUnreach
  extract_lets x s1
  have h1 : s1.Kept l c := by
    refine h.setField ?_
    exact h.field
  exact .cond h1.xmaskAbort h1

theorem loadTables {kept main : List Nat} {r : RouteSet} : (s.loadTables kept main r).Kept l c :=
  .foldl h fun _ _ hu => hu.setField (Field.Kept.csrField hu.field.csrPuts)

theorem reroute : s.reroute.Kept l c := by
  unfold State.reroute
  refine .cond h.putXmask.heldSwap ?_
  split
  next kept r heq =>
    extract_lets main s1 s2 s3
    have h1 : s1.Kept l c := .foldl h fun _ _ hu => hu.setUnreach
    have h2 : s2.Kept l c := h1.loadTables
    have h3 : s3.Kept l c := h2.holds (q := fun _ p => s1.routesChange kept r p)
    exact .cond h3.setSwap.putXmask.heldSwap h2.finishSwap

theorem withOutbox {ms : List Msg} : State.Kept l c { s with outbox := ms } := h

theorem tileAccess {priv : Bool} {t off : Nat} {k : State} (hk : k.Kept l c) : (s.tileAccess priv t off k).Kept l c := by
  unfold State.tileAccess
  refine h.privileged ?_
  split
  · exact h.refuse
  · exact .cond hk hk.withOutbox

theorem entryWrite {priv : Bool} {f bank d : Nat} {v : Word} : (s.entryWrite priv f bank d v).Kept l c :=
  h.privileged (.cond h.refuse (.cond h (.cond h.refuse (.cond h.refuse (h.setField h.field.csrPut)))))

theorem xmasks : s.xmasks.Kept l c := .cond h.putXmask h
theorem epochWrite {priv : Bool} {f : Nat} {v : Word} : (s.epochWrite priv f v).Kept l c := h.privileged h.setActive.xmasks
theorem rerouteUp : (if s.mod.cc.up then s.reroute else s).Kept l c := .cond h.reroute h

/-! Messages of hosts. -/

theorem wrongPart {tag p : Nat} : (s.wrongPart tag p).Kept l c := State.Kept.raise h.say

theorem message {hd : Hdr} {k : State} (hk : k.Kept l c) : (s.message hd k).Kept l c := by
  unfold State.message
  refine .cond h ?_
  split
  · exact h
  · exact .cond h (.cond h.wrongPart hk)

theorem settleRun {p : Nat} : (s.settleRun p).Kept l c := by
  unfold State.settleRun
  extract_lets q
  split
  · exact .cond h.setPart h
  · exact h

theorem submit {p tag : Nat} {m : Manifest} : (s.submit p tag m).Kept l c := by
  unfold State.submit
  refine .cond h.say ?_
  split
  · exact h.say
  · extract_lets bins hi lo s1 x s2
    have h2 : s2.Kept l c := h.pregPut.pregPut.setPart
    exact .cond h2.raise h2

theorem loaded {p : Nat} : (s.loaded p).Kept l c := by
  unfold State.loaded
  extract_lets q
  split
  · exact h
  · exact .cond h (State.Kept.say h.loadManifest.setPart)

theorem runMsg {p tag : Nat} {r : RunReq} : (s.runMsg p tag r).Kept l c := .cond (State.Kept.say h.setPart) h.say
theorem haltRun {p : Nat} : (s.haltRun p).Kept l c := State.Kept.settleRun h.setPart

theorem abortMsg {p tag : Nat} : (s.abortMsg p tag).Kept l c :=
  .cond (State.Kept.say h.requestAbort) (.cond h.say h.requestAbort.setPart)

theorem taintMsg {p : Nat} {halve : Bool} : (s.taintMsg p halve).Kept l c := .cond h h.siteWrite

theorem exportStart {p : Nat} : (s.exportStart p).Kept l c := by
  unfold State.exportStart
  extract_lets s1
  have h1 : s1.Kept l c := .foldl h fun _ _ hu => hu.siteWrite
  exact h1.setPart

theorem exportBoundary {p : Nat} {m : Manifest} : (s.exportBoundary p m).Kept l c := .cond h (.cond h.exportStart h.setPart)
theorem exportMsg {p tag : Nat} : (s.exportMsg p tag).Kept l c := .cond h.setPart h.setPart.exportStart
theorem unload {p : Nat} : (s.unload p).Kept l c := h.setPart
theorem releaseNow {p : Nat} : (s.releaseNow p).Kept l c := .cond h.unload h
theorem releaseMsg {p : Nat} : (s.releaseMsg p).Kept l c := .cond h.haltRun.setPart.releaseNow h.haltRun
theorem capMsg {p tag cap : Nat} : (s.capMsg p tag cap).Kept l c := .cond h.say (State.Kept.say h.ezField)
theorem putMsg {p tag a : Nat} {bs : List Byte} : (s.putMsg p tag a bs).Kept l c :=
  .cond h.say (.cond (State.Kept.raise h.say) (State.Kept.say h.memPut))

theorem haltAnswered {p tag : Nat} : (let s1 := s.haltRun p; s1.say (s1.statusMsg p tag)).Kept l c := State.Kept.say h.haltRun
theorem taintAnswered {p tag : Nat} {halve : Bool} : (let s1 := s.taintMsg p halve; s1.say (s1.statusMsg p tag)).Kept l c :=
  State.Kept.say h.taintMsg

theorem addSession {x : Session} {n : Nat} :
    (s.updMod fun m => { m with cc := { m.cc with sessions := m.cc.sessions ++ [x], nextSession := n } }).Kept l c := h.updCc fun _ => rfl

end State.Kept

end Sys2Proof.Machine
end

section
/-!
What the start of invocations, phase swaps and the relocation of fields keep.
-/

namespace Sys2Proof.Machine

variable {c : Prop} {l : List Instr}

namespace Tile.Kept
variable {t : Tile} (h : t.Kept c)
include h

theorem loadRegion {cl : ClassRec} {g : Nat} : (loadRegion cl t g).Kept c := .cond h (.cond h.setRegion h.setRegion)
theorem swapRegion {old new : ClassRec} {g : Nat} : (swapRegion old new t g).Kept c := .cond h (.cond h.setRegion h.loadRegion)
theorem loadResident {img : Nat → Nat → List Word} {p : Nat × Region × Nat} : (loadResident img t p).Kept c := .cond h (h.setRegion.writeRegion _)

theorem putStep {v : Word} : (putStep t v).Kept c := by
  unfold Machine.putStep
  extract_lets t1
  have h1 : t1.Kept c := .csrPut (.csrPut h.csrPut)
  exact h1

theorem startTile {vals : List DWord} {cl : ClassRec} {entry pseed seed : Nat} {step : Word} {now : DWord} :
    (startTile vals cl entry pseed seed step now t).Kept c := by
  unfold Machine.startTile
  extract_lets t1 t2 t3
  have hs : Map.wf (fun _ => 0#64) ((List.range 32).foldl (fun m i => Map.set (fun _ => 0#64) m i (nth 0#64 vals i)) []) = true :=
    List.foldlRecOn (motive := fun m => Map.wf (fun _ => 0#64) m = true) _ _ rfl fun _ hm _ _ => Map.wf_set hm
  have h1 : t1.Kept c := ((h.withSregs fun _ => hs).withVregs fun _ => rfl).withPregs fun _ => rfl
  have h2 : t2.Kept c := .foldl h1 fun _ _ hy => hy.loadRegion
  have h3 : t3.Kept c := Tile.Kept.putSeed (Tile.Kept.putStep h2.csrPut)
  exact h3

theorem swapTile {b0 : Bool} {m : Manifest} {old new : Program} {c0 c1 : ClassRec} {cls : Nat} : (swapTile b0 m old new c0 c1 cls t).Kept c := by
  unfold Machine.swapTile
  extract_lets t1
  have h1 : t1.Kept c := .cond h h.loadProgram
  exact Tile.Kept.fpImage (.foldl h1 fun _ _ hy => hy.swapRegion)

end Tile.Kept

namespace State.Kept
variable {s : State} (h : s.Kept l c)
include h

theorem eventTaken {ring : Nat} : (s.eventTaken ring).Kept l c := by
  unfold State.eventTaken
  split
  · exact h
  · extract_lets x through s1
    have hx : x.Kept c := h.tile
    have h1 : s1.Kept l c := by
      refine State.Kept.setTile h.setMail ?_
      exact hx
    exact .cond h1.say (.cond h1.taintMsg h1)

theorem loadImages {p : Nat} {m : Manifest} {b : Binary} : (s.loadImages p m b).Kept l c := by
  refine .foldl h fun u t hu => ?_
  dsimp only
  split
  · exact hu
  · exact .cond hu (State.Kept.fpSweepAll (hu.setTile (.foldl hu.tile fun _ _ hy => hy.loadResident)))

theorem restoreTile {m : Manifest} {k : Nat} {pr : Program} {t : Nat} : (s.restoreTile m k pr t).Kept l c :=
  .cond (h.setTile (.foldl h.tile.loadProgram.fpImage fun _ _ hy => hy.putTileImage)) h

theorem restoreTiles {p : Nat} {m : Manifest} {b : Binary} : (s.restoreTiles p m b).Kept l c := .foldl h fun _ _ hu => hu.restoreTile

theorem startTiles {p : Nat} {m : Manifest} {b : Binary} {pseed : Nat} {step : Word} : (s.startTiles p m b pseed step).Kept l c :=
  .foldl h fun _ _ hu => hu.setTile hu.tile.startTile

theorem adaptSrate {p : Nat} {m : Manifest} {b : Binary} : (s.adaptSrate p m b).Kept l c := .cond h h.setPart.putSrate
theorem stopRun {p : Nat} : (s.stopRun p).Kept l c := h.setPart

theorem armStep {p : Nat} {step : Word} : (s.armStep p step).Kept l c :=
  .cond h (State.Kept.siteWrite (h.eachSite fun _ hx => hx.csrPut.redStepWrite))

theorem invoke {p : Nat} {m : Manifest} {b : Binary} {r : RunCtl} : (s.invoke p m b r).Kept l c := by
  unfold State.invoke
  extract_lets q rollout d step s0 s1 srec s2 s3 s4 s5
  have h0 : s0.Kept l c := h.restoreTiles.loadImages
  have h1 : s1.Kept l c := .cond h0.exportBoundary h0.exportBoundary.adaptSrate
  have h2 : s2.Kept l c := h1.memPut
  have h3 : s3.Kept l c := .cond h2 h2.armStep
  have h5 : s5.Kept l c := h3.startTiles.ezPut
  exact .cond h0 (.cond h3.stopRun.say h5.setPart)

theorem invocationStart {p : Nat} : (s.invocationStart p).Kept l c := by
  unfold State.invocationStart
  extract_lets q
  split
  · refine .cond h (.cond (.cond h h.setPart.post) ?_)
    split
    · exact h.stopRun.post
    · exact h.invoke
  · exact h

theorem tileEnded {p : Nat} : (s.tileEnded p).Kept l c := .cond h h.setPart.endRun

theorem phaseSwap {p : Nat} : (s.phaseSwap p).Kept l c := by
  unfold State.phaseSwap
  extract_lets q
  split
  · extract_lets zs s1 s2
    have h1 : s1.Kept l c := .foldl h fun _ _ hu => hu.setTile hu.tile.swapTile
    exact .cond h h1.swapTables.setPart
  · exact h

theorem reloadStopped {b : Binary} {fmap : List Nat} : (s.reloadStopped b fmap).Kept l c := .foldl h fun _ _ hu => .cond (hu.setTile hu.tile.loadProgram) hu
theorem waitField {p f : Nat} : (s.waitField p f).Kept l c := .cond h h.setPart.post

theorem movedField {p f g : Nat} {m m1 : Manifest} {b : Binary} : (s.movedField p f g m m1 b).Kept l c := by
  unfold State.movedField
  extract_lets q fmap s1 s2 x s3 s4 k s6
  have h1 : s1.Kept l c := State.Kept.setFieldOwner (State.Kept.setFieldOwner h.ezField)
  have h2 : s2.Kept l c := h1.putTables
  have h3 : s3.Kept l c := by
    refine h2.setField ?_
    exact h2.field
  have h4 : s4.Kept l c := .foldl h3 fun _ _ hu => hu.setTile hu.tile.loadProgram.fpImage
  exact h4.setConf.setPart

theorem moveField {p f g : Nat} {m m1 : Manifest} {b : Binary} : (s.moveField p f g m m1 b).Kept l c := h.movedField.reroute

theorem relocate {p f : Nat} : (s.relocate p f).Kept l c := by
  unfold State.relocate
  extract_lets q
  split
  · refine .cond h (.cond h.waitField ?_)
    split
    · exact h.waitField
    · exact h.moveField
  · exact h

end State.Kept

end Sys2Proof.Machine
end

section
/-!
What aborts and resets of partitions, restarts of the control complex, changes of owner and the reserve keep.
-/

namespace Sys2Proof.Machine

variable {c : Prop} {l : List Instr}

namespace Tile.Kept
variable {t : Tile} (h : t.Kept c)
include h

theorem clearFaults : (clearFaults t).Kept c := .csrField (.csrField (.csrField (.csrField h.csrField)))

theorem abortTile : (abortTile t).Kept c := by
  unfold Machine.abortTile
  extract_lets t1
  have h1 : t1.Kept c := Tile.kept_iff.mpr fun hc =>
    ⟨h.csrWf hc, rfl, rfl, h.istoreWf hc, h.iparWf hc, h.sregsWf hc, h.vregsWf hc, h.pregsWf hc, rfl⟩
  clear_value t1
  exact .csrField (.csrField (.csrPut h1.csrPut))

theorem resetTile : (resetTile t).Kept c := by
  unfold Machine.resetTile
  have h1 : (Machine.abortTile t).Kept c := h.abortTile
  generalize Machine.abortTile t = x at h1 ⊢
  refine .clearFaults (Tile.kept_iff.mpr fun hc => ?_)
  exact ⟨h1.csrWf hc, h1.spdWf hc, h1.parWf hc, h1.istoreWf hc, h1.iparWf hc, rfl, rfl, rfl, h1.regionsWf hc⟩

theorem emptySpd : Tile.Kept c { t with spd := [], par := [] } :=
  Tile.kept_iff.mpr fun hc => ⟨h.csrWf hc, rfl, rfl, h.istoreWf hc, h.iparWf hc, h.sregsWf hc, h.vregsWf hc, h.pregsWf hc, h.regionsWf hc⟩

theorem withRtr {r : Router} : Tile.Kept c { t with rtr := r } := h

end Tile.Kept

namespace Site.Kept
variable {x : Site} (h : x.Kept c)
include h

theorem wipes {b str : Bool} {p : Nat} : Site.Kept c { x with wiping := b, wipeStr := str, wipeFor := p } := h

theorem leaveSite : (leaveSite x).Kept c := by
  unfold Machine.leaveSite
  extract_lets p y z w
  have hy : y.Kept c := h.dropKey.discardPlain.disarmAll
  have hz : z.Kept c := hy.withCsr fun hc => Map.wf_filter (hy.csrWf hc)
  have hw : w.Kept c := hz.csrField
  exact hw

end Site.Kept

namespace Port.Kept
variable {o : Port} (h : o.Kept c)
include h

theorem clearWindows : (clearWindows o).Kept c := .foldl h fun _ _ hy => .csrField (.csrPut (.csrPut hy.csrPut))
theorem clearWindowsOf {n : Nat} : (clearWindowsOf n o).Kept c := .foldl h fun _ _ hy => .cond (.csrField (.csrPut (.csrPut hy.csrPut))) hy

end Port.Kept

namespace State.Kept
variable {s : State} (h : s.Kept l c)
include h

theorem mapTiles {f : Nat → Tile → Tile} (hf : ∀ t x, Tile.Kept c x → Tile.Kept c (f t x)) : (s.mapTiles f).Kept l c := h.changedTiles hf

theorem freeLocks : s.freeLocks.Kept l c := h.mapTiles fun _ _ hx => hx.withRtr

theorem discard {p : Nat} {reset : Bool} : (s.discard p reset).Kept l c := by
  unfold State.discard
  extract_lets s1 keep s2
  have h1 : s1.Kept l c := h.mapTiles fun t x hx => by
    have hy : Tile.Kept c { x with rtr := s.purgeRouter p x.rtr } := hx
    exact .cond (.cond hy.resetTile hy.abortTile) hy
  have h2 : s2.Kept l c := .foldl h1.freeLocks fun u n hu => by
    have hx := SS.Kept.siteAbort (e := u.siteEnv n) (x := { s := u.site n, free := u.free }) (code := 0x18) (.of hu.site)
    refine hu.setSite ?_
    exact hx
  exact .foldl h2 fun _ _ hu => hu.endAll

theorem updSec {g : Module → Sec} (hactive : ∀ m, (g m).active = m.sec.active) (hboot : ∀ m, (g m).boot = m.sec.boot) :
    (s.updMod fun m => { m with sec := g m }).Kept l c := by
  refine h.updMod (Module.kept_iff.mpr fun hc => ?_)
  dsimp only
  rw [hactive, hboot]
  exact Module.kept_iff.mp h.mod hc

theorem snapSec : s.snapSec.Kept l c := h.updSec (fun _ => rfl) fun _ => rfl

theorem setAbortBusy {b : Bool} : (s.updMod fun m => { m with abortBusy := b }).Kept l c := by
  refine h.updMod ?_
  exact h.mod

theorem abortDone {p : Nat} : (s.abortDone p).Kept l c := by
  unfold State.abortDone
  extract_lets q s1 q1 s2a s2 s3 tags s4 s5
  have h2a : s2a.Kept l c := h.discard.setPart
  have h2 : s2.Kept l c := .cond h2a.snapSec h2a
  have h3 : s3.Kept l c := .cond (h2.unload.eachSite fun _ hx => hx.exportCommand) h2
  have h4 : s4.Kept l c := State.Kept.releaseNow (.foldl h3 fun _ _ hu => hu.post)
  have h5 : s5.Kept l c := .cond h4.setAbortBusy h4
  exact .cond h (.cond h5.coolDown h5)

theorem partCommand {p cmd : Nat} : (s.partCommand p cmd).Kept l c := by
  unfold State.partCommand
  dsimp only
  split
  · exact h.requestAbort
  · exact .cond h (State.Kept.setPart (State.Kept.requestAbort (.cond h.requestAbort h)))
  · exact .cond h h.requestAbort.setPart
  · exact h.setPart
  · exact h

theorem partCtl {priv : Bool} {p cmd : Nat} : (s.partCtl priv p cmd).Kept l c := h.privileged (.cond h.refuse h.partCommand)

theorem modAbort : s.modAbort.Kept l c := by
  unfold State.modAbort
  extract_lets s1 s2
  have h2 : s2.Kept l c := h.requestAborts.setAbortBusy
  exact .foldl h2 fun _ _ hu => hu.setField hu.field.stopTest

theorem watchdog {p : Nat} : (s.watchdog p).Kept l c := .cond h.requestAbort h

theorem stall {p : Nat} {held : List Nat} : (s.stall p held).Kept l c := by
  unfold State.stall
  dsimp only
  split
  · exact h
  · exact .cond h (.cond (State.Kept.setPart h.ezPut.ezPut) (State.Kept.post (State.Kept.setPart (State.Kept.setPart h.ezPut.ezPut))))

theorem ccDown : s.ccDown.Kept l c := h.updCc fun _ => rfl

theorem ccUp : s.ccUp.Kept l c := by
  unfold State.ccUp
  extract_lets s1
  have h1 : s1.Kept l c := h.updCc fun _ => rfl
  exact .cond h (.foldl h1 fun _ _ hu => .foldl hu.setMail fun _ _ hv => hv.say)

theorem setReserve {f : Nat} {b : Bool} : (s.setField f { s.field f with reserve := b }).Kept l c := by
  refine h.setField ?_
  exact h.field

theorem keepReserve {f : Nat} : (s.keepReserve f).Kept l c := by
  unfold State.keepReserve
  extract_lets x s1
  have h1 : s1.Kept l c := State.Kept.levels (State.Kept.ezField h.setReserve)
  exact .cond h1.fieldCmd h1

theorem fillReserve : s.fillReserve.Kept l c := .foldl h fun _ _ hu => .cond hu.keepReserve hu.setReserve
theorem refill {f : Nat} : (s.refill f).Kept l c := .cond h.keepReserve h

/-! Changes of owner. -/

theorem confMove {k : ResKind} {i old new : Nat} : (s.confMove k i old new).Kept l c := by
  unfold State.confMove
  extract_lets s1
  have h1 : s1.Kept l c := .cond h.setConf h
  exact .cond h1.setConf h1

theorem jobMoves {p i : Nat} : (s.jobMoves p i).Kept l c := by
  unfold State.jobMoves
  split
  · split
    · exact h.moveField
    · exact h
  · exact h

theorem siteLeaves {n : Nat} : (s.siteLeaves n).Kept l c :=
  .cond h (.foldl (h.setSite h.site.leaveSite) fun _ _ hu => hu.setPort hu.port.clearWindowsOf)

theorem wipeStart {n p : Nat} {str : Bool} : (s.wipeStart n p str).Kept l c := by
  unfold State.wipeStart
  exact h.setSite h.site.loadKey.wipes

theorem cleared {i : Nat} : (s.mapTiles fun t x => if fieldOf t = i then { x with spd := [], par := [] } else x).Kept l c :=
  h.mapTiles fun _ _ hx => .cond hx.emptySpd hx

theorem refillFree {new i : Nat} : (if new = 15 then s.refill i else s).Kept l c := .cond h.refill h

theorem fieldMoves {i old new : Nat} : (s.capacityDo .field i old new).Kept l c :=
  h.jobMoves.cleared.setFieldOwner.refillFree.confMove.reroute

theorem wipeFor {i new : Nat} : (if new < nParts then s.wipeStart i new false else s).Kept l c := .cond h.wipeStart h

theorem siteMoves {i old new : Nat} : (s.capacityDo .site i old new).Kept l c := by
  unfold State.capacityDo
  exact h.siteLeaves.confMove.wipeFor.xmasks

theorem capacityDo {k : ResKind} {i old new : Nat} : (s.capacityDo k i old new).Kept l c := by
  cases k with
  | field => exact h.fieldMoves
  | site => exact h.siteMoves
  | chan =>
    have hput (u : State) (n : Nat) (hu : u.Kept l c) : (u.setSite n (soilShare ((u.site n).csrField 0x14 3 0 new))).Kept l c :=
      hu.setSite (Site.Kept.soilShare hu.site.csrField)
    exact State.Kept.confMove (hput _ _ (hput _ _ h))
  | port => exact State.Kept.confMove (h.setPort (Port.Kept.csrField h.port.clearWindows))

theorem enableSite {k : ResKind} {i : Nat} : (s.enableSite k i).Kept l c := by
  unfold State.enableSite
  have hx : (s.site i).Kept c := h.site
  generalize s.site i = x at hx ⊢
  split
  · refine h.setSite ?_
    exact hx
  · exact h

theorem sameOwner {k : ResKind} {i p : Nat} : (s.sameOwner k i p).Kept l c := by
  unfold State.sameOwner
  extract_lets s1
  have h1 : s1.Kept l c := h.enableSite
  clear_value s1
  split
  · exact h1.say
  · exact h1.say

theorem setChanges {xs : Module → List (ResKind × Nat × Nat)} : (s.updMod fun m => { m with cc := { m.cc with changes := xs m } }).Kept l c :=
  h.updCc fun _ => rfl

theorem capacity {k : ResKind} {i new : Nat} : (s.capacity k i new).Kept l c := by
  unfold State.capacity
  extract_lets old
  refine .cond h (.cond h.sameOwner ?_)
  split
  · exact h.setChanges.say
  · exact h.say
  · exact h.capacityDo.say

theorem changeGo {ch : ResKind × Nat × Nat} : (s.changeGo ch).Kept l c := .cond h.setChanges.capacity h

theorem setReserveConf {n : Nat} {fs : List Nat} :
    (s.updMod fun m => { m with cc := { m.cc with reserveCount := n, reserveNamed := fs } }).Kept l c := h.updCc fun _ => rfl

end State.Kept

end Sys2Proof.Machine
end

section
/-!
What the root of trust keeps: keys, wipes, images, attestation, unlock.
-/

namespace Sys2Proof.Machine

variable {c : Prop} {l : List Instr}

namespace Site.Kept
variable {x : Site} (h : x.Kept c)
include h

theorem freed : Site.Kept c { x.csrField 0x14 3 0 15 with dirty := true, strDirty := true, wiping := false, wipeStr := false, wipeFor := 15 } := by
  have hy : (x.csrField 0x14 3 0 15).Kept c := h.csrField
  exact hy

theorem withDirty {b : Bool} : Site.Kept c { x with dirty := b } := h
theorem withStrDirty {b : Bool} : Site.Kept c { x with strDirty := b } := h

/-- The memory with its bytes and keys of before. -/
theorem withBytes {y : Site} {m : Map Byte} {k : Map Nat} (hm : c → Map.wf (fun _ => 0#8) m = true) (hk : c → Map.wf (fun _ => 0) k = true) :
    Site.Kept c { x with m := { x.m with mem := m, sealed := k } } := h.withM hm hk

theorem zeroMemory {lo hi kind : Nat} : (zeroMemory lo hi kind x).Kept c := by
  unfold Machine.zeroMemory
  extract_lets seen k m0 y w u z m1
  have hy : y.Kept c := h.withM (fun hc => Map.wf_clearRange (h.memWf hc)) fun hc => Map.wf_clearRange (h.sealedWf hc)
  clear_value y
  have hz : z.Kept c := hy.writeUnit
  exact .cond (hz.withM hy.memWf hy.sealedWf) hy

end Site.Kept

namespace State.Kept
variable {s : State} (h : s.Kept l c)
include h

theorem drawKey {k : Nat} {u : State} (hu : s.drawKey = some (u, k)) : u.Kept l c := by
  unfold State.drawKey at hu
  obtain ⟨-, hu⟩ := Option.ite_none_left_eq_some.mp hu
  obtain ⟨rfl, -⟩ := Prod.mk.inj (Option.some.inj hu)
  exact h.updSec (fun _ => rfl) fun _ => rfl

theorem giveKey {p : Nat} {u : State} (hu : s.giveKey p = some u) : u.Kept l c := by
  unfold State.giveKey at hu
  obtain ⟨⟨v, k⟩, hv, rfl⟩ := Option.map_eq_some_iff.mp hu
  exact (h.drawKey hv).setPart

theorem restoreChan {k p : Nat} : (s.restoreChan k p).Kept l c := by
  have h1 : (s.setSite (2 * k) ((s.site (2 * k)).csrField 0x14 3 0 p)).Kept l c := h.setSite h.site.csrField
  exact .cond (h1.setSite h.site.csrField) h

theorem restoreOwned {p : Nat} : (s.restoreOwned p).Kept l c := by
  unfold State.restoreOwned
  extract_lets k s1 s2
  have h1 : s1.Kept l c := .foldl h fun _ _ hu => .cond hu.setFieldOwner hu
  have h2 : s2.Kept l c := .foldl h1 fun _ _ hu => hu.restoreChan
  exact .foldl h2 fun _ _ hu => .cond (hu.setPort hu.port.csrField) hu

theorem definePart {p : Nat} {u : State} (hu : s.definePart p = some u) : u.Kept l c := by
  unfold State.definePart at hu
  obtain ⟨v, hv, rfl⟩ := Option.map_eq_some_iff.mp hu
  exact (h.giveKey hv).setPart.restoreOwned.xmasks

theorem partitionDefine {p cert limit : Nat} : (s.partitionDefine p cert limit).Kept l c := by
  unfold State.partitionDefine
  extract_lets x s0
  have h0 : s0.Kept l c := h.setConf
  refine .cond h (.cond h0.say ?_)
  split
  next u hu => exact (h0.definePart hu).say
  · exact h.rootRecord.say

theorem destroyKey {p : Nat} : (s.destroyKey p).Kept l c := .foldl h.setPart fun _ _ hu => .cond hu (hu.setSite hu.site.dropKey)

theorem releaseAll {p : Nat} : (s.releaseAll p).Kept l c := by
  unfold State.releaseAll
  extract_lets s1 s2 s3
  have h1 : s1.Kept l c := .foldl h fun _ _ hu => hu.capacityDo
  have h2 : s2.Kept l c := .foldl h1 fun _ _ hu => hu.capacityDo
  have h3 : s3.Kept l c := .foldl h2 fun _ _ hu => hu.capacityDo
  exact .foldl h3 fun _ _ hu => hu.capacityDo

theorem partitionFree {p : Nat} : (s.partitionFree p).Kept l c := by
  unfold State.partitionFree
  extract_lets q s1 s2 s3
  have h1 : s1.Kept l c := h.releaseAll.destroyKey.setMail
  have h2 : s2.Kept l c := h1.setPart
  have h3 : s3.Kept l c := State.Kept.updCc (State.Kept.setConf (.cond h2.snapSec h2)) fun _ => rfl
  exact .cond h (.cond h.say h3.say)

theorem siteWipe {n p : Nat} {str : Bool} : (s.siteWipe n p str).Kept l c := .cond h (.cond h.say h.wipeStart)

theorem wipeDone {n : Nat} : (s.wipeDone n).Kept l c := by
  unfold State.wipeDone
  extract_lets x p y1 y2 y z s1
  have hx : x.Kept c := h.site
  have hy : y.Kept c := .cond hx.zeroMemory.withStrDirty hx.zeroMemory.withDirty
  have hz : z.Kept c := hy
  have h1 : s1.Kept l c := State.Kept.confMove (h.setSite hz.csrField)
  exact .cond h (.cond (.cond h1.restoreChan h1) (.cond (h.setSite hz) (h.setSite hz.withDirty)))

theorem debugPolicy {p : Nat} {on : Bool} : (s.debugPolicy p on).Kept l c := .cond h (.cond h.say (State.Kept.say (State.Kept.partCommand h.ezField)))

theorem hostKey {p slot : Nat} {key : Option Nat} {rights : Nat} : (s.hostKey p slot key rights).Kept l c := .cond h (.cond h.say h.setConf.say)

theorem raiseArb {k svn : Nat} : (s.raiseArb k svn).Kept l c := .cond h h.pregPut

/-- The records of the images that run, with one of a class. -/
theorem setBoot {g : Module → Sec} {k a b : Nat} (hactive : ∀ m, (g m).active = m.sec.active ∨ (g m).active = Map.set (fun _ => 0) m.sec.active k a)
    (hboot : ∀ m, (g m).boot = Map.set (fun _ => 0) m.sec.boot k b) : (s.updMod fun m => { m with sec := g m }).Kept l c := by
  refine h.updMod (Module.kept_iff.mpr fun hc => ?_)
  obtain ⟨hcsr, hpreg, hwear, hactiveWf, hbootWf, rest⟩ := Module.kept_iff.mp h.mod hc
  refine ⟨hcsr, hpreg, hwear, ?_, ?_, rest⟩
  · obtain heq | heq := hactive s.mod
    · dsimp only
      rw [heq]
      exact hactiveWf
    · dsimp only
      rw [heq]
      exact Map.wf_set hactiveWf
  · dsimp only
    rw [hboot]
    exact Map.wf_set hbootWf

theorem runClass {k : Nat} : (s.runClass k).1.Kept l c := by
  unfold State.runClass
  split
  · exact h.rootRecord
  · extract_lets i s1
    have h1 : s1.Kept l c := h.setBoot (fun _ => .inr rfl) fun _ => rfl
    exact .cond h1.raiseArb h1

theorem update {i : Image} : (s.update i).Kept l c := by
  unfold State.update
  extract_lets k kk put s1
  have hput : put.Kept l c := h.setBoot (a := 0) (fun _ => .inl rfl) fun _ => rfl
  clear_value put
  have h2 : (put.updMod fun m => { m with stage := 0, failStep := 0, sec := { m.sec with
      recovery := false, failClass := 0, running := [], aliasKey := 0, certIssued := false, conns := [] } }).Kept l c := by
    refine hput.updMod ?_
    exact hput.mod
  have h1 : s1.Kept l c := .cond hput.runClass hput
  exact .cond (.cond h2.snapSec.say h.say) (.cond h (.cond h.say h1.say))

theorem commitVersion {k : Nat} : (s.commitVersion k).Kept l c := .cond h h.raiseArb.say

theorem issueCert : s.issueCert.Kept l c := by
  unfold State.issueCert
  extract_lets s1
  have h1 : s1.Kept l c := h.updSec (fun _ => rfl) fun _ => rfl
  exact .cond h (.cond h1.snapSec h1)

/-! Attestation. -/

theorem setConn {k : Nat} {x : Conn} : (s.setConn k x).Kept l c := h.updSec (fun _ => rfl) fun _ => rfl
theorem spdmGo {k n : Nat} : (s.spdmGo k n).Kept l c := h.setConn
theorem spdmNote {k : Nat} {ws : List Nat} : (s.spdmNote k ws).Kept l c := h.setConn
theorem spdmSay {k code : Nat} {ws : List Nat} : (s.spdmSay k code ws).Kept l c := h.spdmNote.say
theorem spdmSign {k code nonce : Nat} {ws : List Nat} : (s.spdmSign k code nonce ws).Kept l c := State.Kept.say h.spdmNote
theorem spdmReady {k : Nat} {u : State} (hu : u.Kept l c) : (s.spdmReady k u).Kept l c := .cond h.spdmSay (.cond h.spdmSay hu)
theorem spdmVersion {k : Nat} : (s.spdmVersion k).Kept l c := h.setConn.spdmSay
theorem spdmCaps {k : Nat} : (s.spdmCaps k).Kept l c := .cond h.spdmSay h.spdmGo.spdmSay
theorem spdmAlgs {k : Nat} {falcon shake : Bool} : (s.spdmAlgs k falcon shake).Kept l c :=
  .cond h.spdmSay (.cond h.spdmSay (.cond h.spdmGo.spdmSay h.spdmSay))
theorem spdmChallenge {k slot nonce : Nat} : (s.spdmChallenge k slot nonce).Kept l c := h.spdmReady (.cond h.spdmSay h.spdmSign)

theorem spdmMeasure {k idx nonce : Nat} : (s.spdmMeasure k idx nonce).Kept l c := by
  unfold State.spdmMeasure
  refine h.spdmReady (.cond h.spdmSign (.cond h.spdmSign ?_))
  split
  · exact h.spdmSign
  · exact h.spdmSay

/-! The unlock. -/

theorem destroyAll : s.destroyAll.Kept l c := by
  unfold State.destroyAll
  extract_lets seen s1 s2 s3 s4 s5
  have h1 : s1.Kept l c := .foldl h fun _ _ hu => hu.destroyKey
  have h2 : s2.Kept l c := .foldl h1 fun _ _ hu => hu.setSite (Site.Kept.freed (.cond hu.site hu.site.leaveSite))
  have h3 : s3.Kept l c := .foldl h2 fun _ _ hu => hu.setFieldOwner
  have h4 : s4.Kept l c := .foldl h3 fun _ _ hu => hu.setPort (Port.Kept.csrField hu.port.clearWindows)
  have h5 : s5.Kept l c := .foldl h4 fun _ _ hu => hu.setPart
  exact .cond h5.snapSec h5

theorem unlockEnd : s.unlockEnd.Kept l c :=
  .cond h (State.Kept.snapSec (h.destroyAll.rootRecord.updSec (fun _ => rfl) fun _ => rfl))

theorem unlockNow : s.unlockNow.Kept l c := State.Kept.unlockEnd (h.modAbort.updSec (fun _ => rfl) fun _ => rfl)
theorem unlockGo : s.unlockGo.Kept l c := .cond h.unlockEnd (.cond h.unlockNow h)

theorem unlock {serial nonce : Nat} {sigOk : Bool} : (s.unlock serial nonce sigOk).Kept l c := by
  unfold State.unlock
  extract_lets fresh
  refine .cond h (.cond ?_ (.cond (h.updSec (fun _ => rfl) fun _ => rfl) h.unlockNow))
  split
  · exact h.rootRecord
  next u k hu =>
    have h1 : (u.rootRecord 3).Kept l c := (h.drawKey hu).rootRecord
    refine State.Kept.say (h1.updSec ?_ ?_)
    · exact fun _ => rfl
    · exact fun _ => rfl

end State.Kept

end Sys2Proof.Machine
end

section
/-!
What the feeds, power-on and the resets of the module and of tiles keep.
-/

namespace Sys2Proof.Machine

variable {c : Prop} {l : List Instr}

namespace Tile.Kept
variable {t : Tile} (h : t.Kept c)
include h

theorem tileResetDo : (tileResetDo t).Kept c := by
  unfold Machine.tileResetDo
  refine .clearFaults (Tile.kept_iff.mpr fun hc => ?_)
  exact ⟨h.csrWf hc, rfl, rfl, h.istoreWf hc, h.iparWf hc, rfl, rfl, rfl, rfl⟩

theorem postedEvent {code : Nat} {value : DWord} {taken : Bool} : (postedEvent t code value taken).Kept c := h

end Tile.Kept

namespace Site.Kept
variable {x : Site} (h : x.Kept c)
include h

theorem repairSite : (repairSite x).Kept c := h
theorem withState {n : Nat} : Site.Kept c { x with state := n } := h
theorem withChState {n : Nat} : Site.Kept c { x with chState := n } := h
theorem withStates {n k : Nat} : Site.Kept c { x with state := n, chState := k } := h
theorem unmarched {n k : Nat} : Site.Kept c { x with state := n, chState := k, marched := false } := h

end Site.Kept

/-- The sites after the loss of 52 V: the repair lists stay. -/
theorem wf_repairs {m : Map Site} (h : Map.wf blankSite m = true) :
    Map.wf blankSite ((m.filter fun x => x.2.repair ≠ []).map fun x => (x.1, { id := x.1, repair := x.2.repair })) = true := by
  have hkept : Map.changed blankSite (fun n x => { id := n, repair := x.repair }) (m.filter fun x => x.2.repair ≠ []) =
      (m.filter fun x => x.2.repair ≠ []).map fun x => (x.1, { id := x.1, repair := x.2.repair }) := by
    refine List.filter_eq_self.mpr fun e he => ?_
    obtain ⟨y, hy, rfl⟩ := List.mem_map.mp he
    have hrep : y.2.repair ≠ [] := of_decide_eq_true (List.mem_filter.mp hy).2
    exact decide_eq_true fun heq => hrep (congrArg Site.repair heq)
  rw [← hkept]
  exact Map.wf_changed _ (Map.wf_filter h)

namespace State.Kept
variable {s : State} (h : s.Kept l c)
include h

theorem powerLost : s.powerLost.Kept l c :=
  ⟨h.1, fun hc => by
    obtain ⟨-, -, sites, -⟩ := State.canonical_iff.mp (h.2 hc)
    obtain ⟨-, hpreg, hwear, hactive, hboot, hconf, -⟩ := Module.kept_iff.mp h.mod hc
    refine State.canonical_iff.mpr ⟨rfl, rfl, wf_repairs sites, rfl, rfl, rfl, rfl, ?_, rfl, ?_⟩
    · refine List.all_eq_true.mpr fun e he => ?_
      obtain ⟨y, -, rfl⟩ := List.mem_map.mp he
      rfl
    · have hm : Module.Kept True s.powerLost.mod := Module.kept_iff.mpr fun _ => ⟨rfl, hpreg, hwear, hactive, hboot, hconf, rfl⟩
      exact hm trivial⟩

theorem setFeed {k : Nat} {absent : Bool} : (s.setFeed k absent).Kept l c := h.updPow

theorem feedBack {k : Nat} : (s.feedBack k).Kept l c := .cond h (.foldl h.setFeed fun _ _ hu => .cond hu hu.startNodes)

theorem setHoldUp {t : Option DWord} : (s.updMod fun m => { m with holdUp := t }).Kept l c := by
  refine h.updMod ?_
  exact h.mod

theorem feedLost {k : Nat} : (s.feedLost k).Kept l c := by
  unfold State.feedLost
  extract_lets s1 s2
  have h1 : s1.Kept l c := h.setFeed
  have h2 : s2.Kept l c := .foldl h1 fun _ _ hu => .cond hu.goDark (State.Kept.stopNodes (State.Kept.ezField hu.setPower))
  exact .cond h (.cond h2.post.setHoldUp h2)

theorem holdUpOver : s.holdUpOver.Kept l c := by
  unfold State.holdUpOver
  split
  · exact .cond h.powerLost h
  · exact h

theorem feedState {k st cls : Nat} {inj : Bool} : (s.feedState k st cls inj).Kept l c := .cond h.ezField (State.Kept.raise h.ezField)

theorem feedSample {k mv : Nat} : (s.feedSample k mv).Kept l c := by
  unfold State.feedSample
  extract_lets v inj ok pw low good s1 s2 s3
  have h1 : s1.Kept l c := State.Kept.ezField h.updPow
  have h2 : s2.Kept l c := .cond h1.raise h1
  have h3 : s3.Kept l c := h2.feedState.feedHeld
  have hback : (((s3.feedBack k).updMod fun m => { m with pow := { m.pow with uv := m.pow.uv.filter (· ≠ k) } }).allLevels).Kept l c :=
    State.Kept.allLevels h3.feedBack.updPow
  refine .cond h (.cond h1.feedState.feedLost (.cond (.cond hback h3) (.cond h1.feedState.feedLost ?_)))
  exact State.Kept.allLevels h1.feedState.updPow

theorem powered {m : List Nat} :
    (s.updMod fun x => { x with powered := true, stage := 0, failStep := 0, pow := { x.pow with absent := m } }).Kept l c := by
  refine h.updMod ?_
  exact h.mod

theorem powerOn {a b : Bool} : (s.powerOn a b).Kept l c := by
  unfold State.powerOn
  extract_lets s0 back
  have h0 : s0.Kept l c := .cond h.powerLost h
  have hback (u : State) (hu : u.Kept l c) : (back u).Kept l c := by
    have h1 : (if a then (u.feedBack 0).ezField 0x0 2 0 1 else u).Kept l c := .cond hu.feedBack.ezField hu
    exact .cond h1.feedBack.ezField h1
  exact .cond (hback _ h0) (.cond (hback _ h0.powered) h0)

theorem sitesTrain {bad : Nat → Bool} : (s.sitesTrain bad).Kept l c := .foldl h fun _ _ hu => hu.setSite hu.site.withStates

theorem sitesReady {failed : List Nat} : (s.sitesReady failed).Kept l c :=
  .foldl h fun _ _ hu => hu.setSite (Site.Kept.withChState (.cond hu.site.withState hu.site.repairSite.withState))

theorem inRecovery {step cls : Nat} : (s.updMod fun m => { m with
    stage := 7, failStep := step, sec := { m.sec with recovery := true, failClass := cls } }).Kept l c := by
  refine h.updMod ?_
  exact h.mod

theorem recover {step cls : Nat} : (s.recover step cls).Kept l c := by
  unfold State.recover
  extract_lets off s1
  have hoff : off.Kept l c := .foldl h fun _ _ hu => hu.setSite hu.site.withStates
  have h1 : s1.Kept l c := hoff.inRecovery.issueCert
  exact .cond h1 h1.snapSec

theorem setStage {n : Nat} : (s.setStage n).Kept l c := by
  refine h.updMod ?_
  exact h.mod

theorem stageOne {failed : List Nat} : (s.stageOne failed).Kept l c := by
  unfold State.stageOne
  extract_lets r3 s1 r5 s2
  have h3 : r3.1.Kept l c := h.runClass
  have h1 : s1.Kept l c := .cond h3 h3.sitesTrain
  have h5 : r5.1.Kept l c := h1.runClass
  have h2 : s2.Kept l c := .cond (.foldl h5 fun _ _ hu => hu.setPortLike rfl) (.foldl h5 fun _ _ hu => hu.setPortLike rfl)
  exact h2.runClass.setStage

theorem stageZero : s.stageZero.Kept l c := by
  unfold State.stageZero
  extract_lets r
  have hr : r.1.Kept l c := h.runClass
  refine .cond hr ?_
  split
  next u k hu => exact State.Kept.setStage ((hr.drawKey hu).updSec (fun _ => rfl) fun _ => rfl)
  · exact hr.rootRecord.setStage

theorem stageTwo : s.stageTwo.Kept l c := by
  unfold State.stageTwo
  extract_lets r1 r2 s1
  have h1 : r1.1.Kept l c := h.runClass
  have h2 : r2.1.Kept l c := by
    subst r2
    split
    · exact h1.runClass
    · exact h1
  have h3 : s1.Kept l c := State.Kept.issueCert (h2.updSec (fun _ => rfl) fun _ => rfl)
  exact .cond (State.Kept.ccUp (.cond h3.snapSec h3)) h2.recover

theorem stageDone {failed : List Nat} : (s.stageDone failed).Kept l c := by
  unfold State.stageDone
  refine .cond h ?_
  split
  · exact h.stageZero
  · exact h.stageOne
  · exact .cond h.sitesReady.setStage h.stageTwo
  · exact .cond h.setStage h
  · exact State.Kept.setStage (.cond h h.cirSet.post.raise)
  · exact .cond h.reroute.setStage h
  · exact h

theorem setReady {b : Bool} : (s.updMod fun m => { m with ready := b }).Kept l c := by
  refine h.updMod ?_
  exact h.mod

theorem moduleReady : s.moduleReady.Kept l c := by
  unfold State.moduleReady
  split
  · extract_lets s1 s2
    have h1 : s1.Kept l c := .foldl h.setReady fun u p hu => by
      refine .cond ?_ hu
      split
      next v hv => exact hu.definePart hv
      · exact hu.rootRecord
    have h2 : s2.Kept l c := h1.fillReserve
    exact State.Kept.xmasks (.foldl h2 fun _ _ hu => .cond hu hu.setPart.post)
  · exact h

theorem beginReset : (s.updMod fun m => { m with stage := 8, failStep := 0, resetting := true, ready := false }).Kept l c := by
  refine h.updMod ?_
  exact h.mod

theorem moduleReset {priv : Bool} : (s.moduleReset priv).Kept l c := h.privileged (.cond h h.modAbort.beginReset)
theorem vreqWrite {f v : Nat} : (s.vreqWrite f v).Kept l c := ((h.ezField).ezField).levels

theorem setTried {f : Nat} {b : Bool} : (s.setField f { s.field f with tried := b }).Kept l c := by
  refine h.setField ?_
  exact h.field

theorem restart : s.restart.Kept l c := by
  unfold State.restart
  extract_lets s1 s2 s3
  have h1 : s1.Kept l c := .foldl h fun _ _ hu => hu.setSite hu.site.unmarched
  have h2 : s2.Kept l c := .foldl h1 fun _ _ hu => .cond hu.haloRetrain hu
  have h3 : s3.Kept l c := .foldl h2 fun _ _ hu => hu.setTried.vreqWrite
  clear_value s3
  refine h3.updMod ?_
  exact h3.mod

theorem resetGo : s.resetGo.Kept l c := by
  unfold State.resetGo
  extract_lets on s1
  have h1 : s1.Kept l c := .foldl h.destroyAll fun _ _ hu => hu.fieldCmd
  exact .cond h (.cond h.destroyAll.restart (.foldl h1 fun _ _ hu => hu.stageOff.startNodes))

theorem tileReset {priv : Bool} {t : Nat} : (s.tileReset priv t).Kept l c := h.tileAccess (.cond h.refuse (h.setTile h.tile.tileResetDo))

end State.Kept

end Sys2Proof.Machine
end

section
/-!
What events, messages over RoCEv2, the Pavane machine, judgements, self-tests and injections keep.
-/

namespace Sys2Proof.Machine

variable {c : Prop} {l : List Instr}

namespace Tile.Kept
variable {t : Tile} (h : t.Kept c)
include h

theorem testedTile : (testedTile t).Kept c := Tile.kept_iff.mpr fun hc =>
  ⟨Map.wf_filter (h.csrWf hc), rfl, rfl, rfl, h.iparWf hc, h.sregsWf hc, h.vregsWf hc, h.pregsWf hc, rfl⟩

theorem flipStored : (flipStored t).Kept c := by
  unfold Machine.flipStored
  extract_lets i w b m x
  have hx : x.Kept c := h.injFire
  have hy : Tile.Kept c { x with spd := Map.set (fun _ => 0#32) t.spd i (w ^^^ m) } := hx.withSpd fun hc => Map.wf_set (h.spdWf hc)
  exact .cond hx hy.withInj

end Tile.Kept

namespace Field.Kept
variable {x : Field} (h : x.Kept c)
include h

theorem testStart {k : Nat} : (testStart x k).Kept c := h.csrPut
theorem withSensed {b : Bool} {ms : List Nat} : Field.Kept c { x with sensed := b, marked := ms } := h
theorem withReserve {b : Bool} : Field.Kept c { x with reserve := b } := h
theorem withTested {b : Bool} : Field.Kept c { x with tested := b } := h
theorem withRetire {b : Bool} : Field.Kept c { x with retire := b } := h
theorem withRespare {bs : List (Nat × Nat)} {b : Bool} : Field.Kept c { x with respare := bs, retire := b } := h
theorem withBad {bs : List (Nat × Nat)} {b r : Bool} : Field.Kept c { x with respare := bs, reserve := b, retire := r } := h
theorem withRetired {b r : Bool} : Field.Kept c { x with retire := b, reserve := r } := h

end Field.Kept

namespace Site.Kept
variable {x : Site} (h : x.Kept c)
include h

theorem withUpd {u : SiteUpd} : Site.Kept c { x with upd := u } := h
theorem withExp {e : SiteExp} : Site.Kept c { x with exp := e } := h
theorem withMarched {b : Bool} : Site.Kept c { x with marched := b } := h

theorem tempExpiry : (tempExpiry x).Kept c := by
  have hy : (x.csrField 0x30 30 28 0).Kept c := h.csrField
  exact .cond hy h

end Site.Kept

namespace State.Kept
variable {s : State} (h : s.Kept l c)
include h

theorem answerFrame {q kind addr : Nat} {data : List Byte} : (s.answerFrame q kind addr data).Kept l c := .cond h.say h

theorem eventPost {t : Nat} : (s.eventPost t).Kept l c := by
  unfold State.eventPost
  extract_lets p
  split
  · exact h
  · extract_lets x s1 value code
    have h1 : s1.Kept l c := h.setTile h.tile.setEdgeFlits
    exact .cond (h1.setMail.setTile h1.tile.postedEvent) (.cond (h1.setTile h1.tile.postedEvent) h1)

/-! Messages as bytes. -/

theorem hostDo {typ p tag : Nat} {bs : List Byte} : (s.hostDo typ p tag bs).Kept l c := by
  unfold State.hostDo
  dsimp only
  split
  · exact h.submit
  · exact h.runMsg
  · exact h.haltRun.say
  · exact h.abortMsg
  · exact h.taintMsg.say
  · exact h.exportMsg
  · exact h.say
  · exact h.releaseMsg
  · exact h.capMsg
  · exact h.putMsg
  · exact h.say

theorem hostBytes {q : Nat} {bs : List Byte} : (s.hostBytes q bs).Kept l c := .cond h (.cond h.wrongPart (.cond h.say h.hostDo))

theorem roceSend {q qp : Nat} {data : List Byte} : (s.roceSend q qp data).Kept l c := .cond (.cond h.hostBytes h) h.roceLand

theorem postArea {q : Nat} : (s.postArea q).Kept l c := by
  unfold State.postArea
  extract_lets x o v qp area fits
  exact State.Kept.setPortLike h.withFree rfl

/-! The Pavane machine. -/

theorem siteFinish {n : Nat} : (s.siteFinish n).Kept l c := by
  unfold State.siteFinish
  extract_lets s0 x p d u1 s1 y u2 s2
  have h0 : s0.Kept l c := .cond h h.taintPropagate
  have h1 : s1.Kept l c := h0.setSite h0.site.withUpd
  have h2 : s2.Kept l c := h1.setSite h1.site.withUpd
  exact .cond h0 (.cond (h2.eachSite fun _ hx => hx.csrField) h2)

theorem pavaneDecide {p : Nat} : (s.pavaneDecide p).Kept l c := by
  unfold State.pavaneDecide
  extract_lets d x n2 code s1 s2 y fired
  have h1 : s1.Kept l c := h.setSite (Site.Kept.csrPut h.site.csrPut)
  have htaint : (s1.onSite d fun e y => (detectTaint e y 3 0 0 0).upd fun z => { z with upd := { z.upd with taints := [] } }).Kept l c :=
    h1.onSite fun e x hx => SS.Kept.upd (Site.Kept.withUpd (SS.Kept.site hx.detectTaint))
  have h2 : s2.Kept l c := .cond htaint.taintAt h1
  exact .cond h (.cond h2.outcome (.cond (h2.eachSite fun _ hx => hx.csrField) (h2.eachSite fun _ hx => .csrPut hx.csrField)))

theorem foldComplete {p : Nat} : (s.foldComplete p).Kept l c := .cond h (.cond (h.eachSite fun _ hx => hx.csrField) h)

theorem flipComplete {p : Nat} : (s.flipComplete p).Kept l c := by
  unfold State.flipComplete
  extract_lets d x lag step s1
  have h1 : s1.Kept l c := h.eachSite fun y hy => .cond (.csrPut hy.csrPut) (.csrField (.csrPut hy.csrPut))
  exact .cond h h1.outcome

theorem exportComplete {n : Nat} : (s.exportComplete n).Kept l c := by
  unfold State.exportComplete
  extract_lets x k y
  have hy : y.Kept c := h.site.exportRest _
  exact .cond h (.cond (State.Kept.post (h.setSite hy.withExp)) (h.setSite hy))

theorem dsiteReassign {p : Nat} : (s.dsiteReassign p).Kept l c := by
  unfold State.dsiteReassign
  extract_lets d st o r
  split
  · exact h
  · extract_lets s1
    have h1 : s1.Kept l c := h.eachSite fun _ hx => hx.csrField
    exact .cond h (h1.setSite h1.site.writeUnit)

/-! Judgements. -/

theorem respareTo {f b : Nat} {bads : List (Nat × Nat)} : (s.respareTo f b bads).Kept l c := by
  unfold State.respareTo
  exact h.writeMap
theorem retireField {f : Nat} : (s.retireField f).Kept l c := by
  unfold State.retireField
  exact State.Kept.pregPut h.writeMap

theorem judgeBad {phys cause : Nat} : (s.judgeBad phys cause).Kept l c :=
  .cond h (.cond (State.Kept.writeMap (h.setField h.field.withRetire)) (h.setField h.field.withBad))

theorem setSuspects {xs : Module → List Suspect} : (s.updMod fun m => { m with cc := { m.cc with suspects := xs m } }).Kept l c :=
  h.updCc fun _ => rfl

theorem suspectTile {phys source : Nat} {t : DWord} : (s.suspectTile phys source t).Kept l c := by
  unfold State.suspectTile
  extract_lets xs hits
  exact .cond h h.setSuspects

theorem suspectAdder {t : DWord} {tile : Nat} : (s.suspectAdder t tile).Kept l c := by
  unfold State.suspectAdder
  extract_lets phys as s1 n
  have h1 : s1.Kept l c := .cond h (h.updCc fun _ => rfl)
  exact .cond h1.judgeBad h1.suspectTile

theorem startTest {priv : Bool} {f k : Nat} : (s.startTest priv f k).Kept l c :=
  h.privileged (.cond h.refuse (.cond h.refuse (.cond (State.Kept.raise (h.setField h.field.csrPut)) (h.setField h.field.testStart))))

theorem jobTest {priv : Bool} {f k : Nat} : (s.jobTest priv f k).Kept l c := .cond h h.startTest

theorem testDone {f : Nat} {fail : Option (Nat × Nat × Nat)} {outliers : List Nat} : (s.testDone f fail outliers).Kept l c := by
  unfold State.testDone
  extract_lets x k bad y z s1 s2
  have hy : y.Kept c := Field.Kept.csrField h.field.csrField
  have hz : z.Kept c := by
    refine .cond hy.withSensed ?_
    split
    · exact Field.Kept.withReserve hy.csrPut
    · exact hy
  have h1 : s1.Kept l c := h.setField (.cond hz.withTested hz)
  have h2 : s2.Kept l c := .cond (h1.mapTiles fun t v hv => .cond hv.testedTile hv) h1
  refine .cond h (.cond ?_ h2)
  split
  · exact h2.judgeBad
  · exact h2

theorem judgeTile {r : LogRec} : (s.judgeTile r).Kept l c := by
  unfold State.judgeTile
  extract_lets s1
  have h1 : s1.Kept l c := h.suspectTile
  exact .cond (.cond h1.judgeBad h1) (.cond (.cond h1.judgeBad h1) (.cond (.cond h1.judgeBad h1) (.cond h1.judgeBad
    (.cond (.cond h1.judgeBad h1) (.cond (.cond h1.judgeBad h1) h1)))))

theorem judge {r : LogRec} : (s.judge r).Kept l c :=
  .cond (.cond h (.cond h.judgeTile h))
    (.cond (.cond (.foldl h fun _ _ hu => hu.suspectTile) (.foldl h fun _ _ hu => hu.suspectAdder))
      (.cond (.cond h.jobTest h) (.cond (.cond (h.setField h.field.withRetired) h) h)))

theorem judgeSeq {n : Nat} : (s.judgeSeq n).Kept l c := by
  unfold State.judgeSeq
  split
  · exact .cond h.judge h
  · exact h

theorem fieldRespare {f : Nat} : (s.fieldRespare f).Kept l c := by
  unfold State.fieldRespare
  extract_lets x s0
  have h0 : s0.Kept l c := h.setField h.field.withRespare
  refine .cond h (.cond (.cond h.fieldCmd h) (.cond h (.cond h0.retireField ?_)))
  split
  · exact h0
  · exact .cond h0.respareTo.fieldCmd h0.respareTo

theorem tmapChange {f : Nat} {ws : List MapWord} {bad byp : Nat} {cut : Option Nat} : (s.tmapChange f ws bad byp cut).Kept l c :=
  .cond h (.cond h.writeMap.powerLost h.writeMap)

theorem pregWrite {priv : Bool} {o : Nat} {v back : Word} : (s.pregWrite priv o v back).Kept l c :=
  h.privileged (.cond h.refuse (.cond h.refuse (.cond h (.cond (State.Kept.raise h.pregPut.say.say) h.pregPut))))

theorem stepRetry {p : Nat} : (s.stepRetry p).Kept l c := by
  unfold State.stepRetry
  extract_lets q s1
  split
  · have h1 : s1.Kept l c := .cond (.foldl h fun _ _ hu => hu.judge) h
    exact .cond h h1.reloadStopped.setPart
  · exact h

/-! Injections, sweeps and marches. -/

theorem tileInject {priv : Bool} {t : Nat} {v : Word} : (s.tileInject priv t v).Kept l c :=
  h.tileAccess (.cond h.refuse (.cond h.refuse (.cond h.refuse (h.setTile (.cond h.tile.csrPut.flipStored h.tile.csrPut)))))

theorem tileInj {priv : Bool} {t k port arg b : Nat} : (s.tileInj priv t k port arg b).Kept l c :=
  .cond (State.Kept.tileInject (h.setTile h.tile.csrPut)) h.tileInject

theorem siteInj {priv : Bool} {n k unit count temp : Nat} : (s.siteInj priv n k unit count temp).Kept l c :=
  .cond (State.Kept.siteWrite (h.setSite h.site.csrPut)) h.siteWrite

theorem ezInject {priv : Bool} {v : Word} : (s.ezInject priv v).Kept l c :=
  h.privileged (.cond h.ezPut (.cond h.refuse (.cond h.refuse (.cond h.ezPut.fuseOpen h.ezPut))))

theorem ezArm {priv : Bool} {k target sensor value dur : Nat} : (s.ezArm priv k target sensor value dur).Kept l c := .cond h.ezPut.ezInject h.ezInject

theorem fpWrite {priv : Bool} {t off : Nat} {v : Word} : (s.fpWrite priv t off v).Kept l c := by
  have hy (w : Word) : (csrPut (s.tile t) off w).Kept c := h.tile.csrPut
  exact h.tileAccess (.cond h.refuse (h.setTile (.cond (hy _) (.cond (.cond (hy _) (hy _).fpStart) (.cond (hy _).fpStop (hy _))))))

theorem lapse {phys : Nat} : (s.lapse phys).Kept l c := .cond h h.setSuspects

theorem march {n : Nat} {bad : List Nat} : (s.march n bad).Kept l c := by
  unfold State.march
  extract_lets x
  have h1 : (s.setSite n { x with marched := true }).Kept l c := h.setSite h.site.withMarched
  refine .cond h (h1.onSite fun e y hy => .foldl ?_ fun z u hz => .cond ?_ hz)
  · have hzero : (zeroMemory 0 hbmEnd 1 y.s).Kept c := Site.Kept.zeroMemory hy
    exact hzero
  · have hnote : (noteUe true (memErr z.s 0 true 0 u) u).Kept c := Site.Kept.noteUe (Site.Kept.memErr hz)
    exact SS.Kept.raiseUe (x := { z with s := noteUe true (memErr z.s 0 true 0 u) u }) hnote

theorem fieldReadyDo {f : Nat} {microcode lock : Bool} : (s.fieldReadyDo f microcode lock).Kept l c := by
  unfold State.fieldReadyDo
  extract_lets s1
  have h1 : s1.Kept l c := h.fieldReady
  exact .cond h1.refill h1

end State.Kept

end Sys2Proof.Machine
end

section
/-!
What accesses to registers keep, and what a step with an empty queue keeps.
-/

namespace Sys2Proof.Machine

variable {c : Prop} {l : List Instr}

namespace Tile.Kept
variable {t : Tile} (h : t.Kept c)
include h

theorem withFault {b : Bool} : Tile.Kept c { t with fault := b } := h
theorem withLaneBad {n : Nat} : Tile.Kept c { t with laneBad := n } := h

theorem setInstr {i : Nat} {w : Word} :
    Tile.Kept c { t with istore := Map.set (fun _ => 0#32) t.istore i w, ipar := Map.set (fun _ => 0) t.ipar i 0 } :=
  Tile.Kept.setIpar (t := { t with istore := Map.set (fun _ => 0#32) t.istore i w }) h.setIstore

end Tile.Kept

theorem Field.Kept.withMapErr {x : Field} {b : Bool} (h : x.Kept c) : Field.Kept c { x with mapErr := b } := h

namespace State.Kept
variable {s : State} (h : s.Kept l c)
include h

/-! Registers of tiles. -/

theorem rgWrite {t off : Nat} {v : Word} : (s.rgWrite t off v).Kept l c := .cond h.refuse (.cond h.refuse (h.setTile h.tile.setRegion))
theorem hzdWrite {t : Nat} {v : Word} : (s.hzdWrite t v).Kept l c := .cond h (.cond h.refuse (h.setTile h.tile.csrPut))

theorem plainTileWrite {t off : Nat} {v : Word} : (s.plainTileWrite t off v).Kept l c := by
  unfold State.plainTileWrite
  extract_lets a x
  split
  · exact h.refuse
  · exact .cond h.refuse (.cond h.refuse (.cond (h.setTile (.cond h.tile.withFault h.tile)) (.cond (h.setTile h.tile.putStep)
      (.cond (h.setTile h.tile.putSeed) (.cond h (h.setTile h.tile.csrPut))))))

theorem csrWrite {priv : Bool} {t off : Nat} {v : Word} : (s.csrWrite priv t off v).Kept l c :=
  .cond h.fpWrite (.cond h.tileInject (.cond h.tileReset (h.tileAccess (.cond h.rgWrite (.cond h.hzdWrite h.plainTileWrite)))))

theorem windowWrite {priv : Bool} {t off : Nat} {v : Word} : (s.windowWrite priv t off v).Kept l c :=
  .cond h.csrWrite (h.tileAccess (.cond h.refuse (.cond (h.setTile h.tile.writePhys) (.cond (h.setTile h.tile.setInstr) h.refuse))))

theorem windowWord {t off : Nat} : (s.windowWord t off).Kept l c := by
  unfold State.windowWord
  have hread : (readPhys t { t := s.tile t, free := s.free } 6 (off / 4) none).1.Kept c := TS.Kept.readPhys (.of h.tile)
  split
  next ts w bad inj heq =>
    rw [heq] at hread
    have h1 : (({ s with free := ts.free }).setTile t ts.t).Kept l c := State.Kept.setTile h.withFree hread
    exact .cond h1.say h1.say.raise

theorem windowRead {priv : Bool} {t off : Nat} : (s.windowRead priv t off).Kept l c :=
  h.tileAccess (.cond h.refuse (.cond h.windowWord (.cond h.say (.cond (.cond h.say h.refuse) h.refuse))))

/-! Registers of fields and of the module. -/

theorem fieldWrite {priv : Bool} {f o : Nat} {v : Word} : (s.fieldWrite priv f o v).Kept l c := by
  unfold State.fieldWrite
  extract_lets a x
  refine .cond h.entryWrite (.cond h.epochWrite (.cond h.startTest (h.privileged ?_)))
  split
  · exact h.refuse
  · exact .cond (h.setField (.cond h.field.withMapErr h.field))
      (.cond (.cond h.refuse (.cond h.refuse (.cond h.refuse h.setFieldOwner.xmasks)))
        (.cond h.refuse (h.setField (.cond h.field.csrPut.stopTest h.field.csrPut))))

theorem setFlash {g : Module → Log} : (s.updMod fun m => { m with log := g m }).Kept l c := by
  refine h.updMod ?_
  exact h.mod

theorem tailWrite {v : Nat} : (s.tailWrite v).Kept l c := State.Kept.setFlash h.ezField

theorem ezPlain {o : Nat} {v : Word} : (s.ezPlain o v).Kept l c := by
  unfold State.ezPlain
  split
  · exact h.ezPut
  · exact h

theorem ezWrite {priv : Bool} {o : Nat} {v : Word} : (s.ezWrite priv o v).Kept l c := by
  unfold State.ezWrite
  extract_lets a f isField p
  refine .cond h.ezInject (.cond h.cirSet (.cond (h.privileged h.modAbort) (.cond h.moduleReset (.cond h.partCtl (h.privileged ?_)))))
  refine .cond h.refuse (.cond (.cond h.refuse h.ezPut) (.cond h.refuse (.cond h.ezPlain.setEcap (.cond h.tailWrite
    (.cond h.vreqWrite.reportGuar (.cond h.ezPlain.levels (.cond ?_ h.ezPlain)))))))
  split
  · exact h.refuse
  · exact .cond h h.ezPlain.fieldCmdNext.reportGuar

theorem readFree {a : Nat} : (s.readFree a).Kept l c := State.Kept.say h.withFree

theorem mailRead {a o : Nat} : (s.mailRead a o).Kept l c := by
  unfold State.mailRead
  split
  · split
    · exact h.say
    · exact h.readFree
  · exact .cond h.readFree h.refuse

theorem setTimeHigh {w : Word} : (s.updMod fun m => { m with timeHigh := w }).Kept l c := by
  refine h.updMod ?_
  exact h.mod

theorem answered {wafer : Bool} {a : Nat} :
    (match s.regRead wafer a with | some w => s.say (.readData a w) | none => s.refuse a 0x45 (feedLoc 2)).Kept l c := by
  split
  · exact h.say
  · exact h.refuse

theorem addrRead {priv wafer : Bool} {a : Nat} : (s.addrRead priv wafer a).Kept l c := by
  unfold State.addrRead
  split
  · exact h.windowRead
  · exact h.privileged (.cond (State.Kept.say h.withFree) (.cond (State.Kept.say h.setTimeHigh) h.answered))
  · exact h.privileged h.mailRead
  · exact h.privileged h.answered

theorem setDram {o : Nat} {v : Word} : (s.updMod fun m => { m with dram := Map.set (Config.dramFill m.dramGen) m.dram o v }).Kept l c := by
  refine h.updMod (Module.kept_iff.mpr fun hc => ?_)
  obtain ⟨hcsr, hpreg, hwear, hactive, hboot, hconf, hdram⟩ := Module.kept_iff.mp h.mod hc
  exact ⟨hcsr, hpreg, hwear, hactive, hboot, hconf, Map.wf_set hdram⟩

theorem addrWrite {priv wafer : Bool} {a : Nat} {v : Word} : (s.addrWrite priv wafer a v).Kept l c := by
  unfold State.addrWrite
  split
  · exact h.siteWrite
  · exact h.portWrite
  · exact h.ezWrite
  · exact h.pregWrite
  · exact h.privileged (.cond h h.refuse)
  · exact h.windowWrite
  · exact h.fieldWrite
  · exact h.privileged h.setDram
  · exact h.privileged h.refuse

/-! A step with an empty queue. -/

theorem idleTime : s.idleTime.Kept l c := .cond h h
theorem idleRoutes : s.idleRoutes.Kept l c := .cond h h.xmasks.heldSwap

theorem upset : s.upset.Kept l c := by
  unfold State.upset
  extract_lets v t x s1
  have h1 : s1.Kept l c := h.withFree
  have hx : x.Kept c := h.tile
  refine .cond h (.cond h1 ?_)
  split
  · exact h1.setTile hx.withLaneBad
  · exact h1.setTile hx.setIpar
  · exact h1.setTile hx.setPar
  · exact .cond (h1.setTile hx.withRtr) h1
  · exact h1

theorem idleTile {t : Nat} : (s.idleTile t).Kept l c := .cond (h.onTile fun _ _ hts => hts.goVq) h

theorem idleSite {n : Nat} : (s.idleSite n).Kept l c := by
  unfold State.idleSite
  extract_lets s0 s1 x
  have h0 : s0.Kept l c := .foldl h fun _ _ hu => hu.siteRefill
  have h1 : s1.Kept l c := h0.onSite fun _ _ hx => hx.landSlots
  exact h1.setSite (.cond h1.site.exportEntry h1.site)

theorem idlePort {q : Nat} : (s.idlePort q).Kept l c := .cond h.haloTick.postArea h.haloTick

theorem idle : s.idle.Kept l c := by
  unfold State.idle
  extract_lets s1 s2 s3 s4
  have h1 : s1.Kept l c := .foldl h.idleTime.upset fun _ _ hu => hu.idleTile
  have h2 : s2.Kept l c := .foldl h1 fun _ _ hu => hu.idleSite
  have h3 : s3.Kept l c := .foldl h2 fun _ _ hu => hu.idlePort
  have h4 : s4.Kept l c := .foldl h3 fun _ _ hu => hu.releaseNow
  have h5 : (s4.mod.cc.changes.foldl State.changeGo s4).Kept l c := .foldl h4 fun _ _ hu => hu.changeGo
  exact h5.idleRoutes.resetGo.unlockGo.holdUpOver

end State.Kept

end Sys2Proof.Machine
end

section
/-!
What every command keeps, and so every step.
-/

namespace Sys2Proof.Machine

variable {c : Prop} {l : List Instr}

/-- The next state, where the outcome has one, keeps the queue and the canonical form. -/
def NextKept (l : List Instr) (c : Prop) (o : Host.Outcome State Fault Refusal) : Prop := ∀ u, o = .next u → u.Kept l c

namespace NextKept
variable {s : State}

theorem next (h : s.Kept l c) : NextKept l c (.next s) := fun _ hu => Host.Outcome.next.inj hu ▸ h

theorem checked {ok : Bool} {k : State} (_ : s.Kept l c) (hk : k.Kept l c) : NextKept l c (s.checked ok k) := fun u hu => by
  obtain ⟨-, rfl⟩ := State.checked_next.mp hu
  exact hk

theorem tileDo {t : Nat} {f : Env → TS → TS} (h : s.Kept l c) (hf : ∀ e ts, ts.Kept c → (f e ts).Kept c) : NextKept l c (s.tileDo t f) :=
  checked h (.cond (h.onTile hf) h)

theorem issue {t : Nat} {f : Env → TS → Issue} (h : s.Kept l c) (hf : ∀ e ts, ts.Kept c → (f e ts).Kept c) : NextKept l c (s.issue t f) :=
  checked h (.cond (h.onTile fun e ts hts => hts.issueTile (hf e ts hts)) h)

theorem routerDo {t : Nat} {ok : Bool} {k : State} (h : s.Kept l c) (hk : k.Kept l c) : NextKept l c (s.routerDo t ok k) := checked h (.cond hk h)

theorem spdm {k : Nat} {req : List Nat} {f : State → State} (h : s.Kept l c) (hf : ∀ u, u.Kept l c → (f u).Kept l c) :
    NextKept l c (s.spdm k req f) := checked h (.cond (hf _ h.spdmNote) h)

end NextKept

theorem Tile.Kept.orderWords {vec : Bool} {r : Region} {o n : Nat} {t : Tile} (h : t.Kept c) : (orderWords vec r o n t).Kept c := h

namespace State.Kept
variable {s : State} (h : s.Kept l c)
include h

theorem pwinFill {n : FillAt} : NextKept l c (execPwinFill n s) := by
  unfold execPwinFill
  split
  · exact .checked h (h.onSite fun _ _ hx => hx.siteServe)
  · exact .checked h (.cond (h.onSite fun _ _ hx => hx.copyUnit) h)

theorem unitsTaken {q tag off : Nat} {mod : Bool} {data : List Byte} : ((s.haloUnits q tag off mod data).getD s).Kept l c := by
  generalize hu : s.haloUnits q tag off mod data = o
  cases o with
  | none => exact h
  | some u => exact h.haloUnits hu

theorem rdataTaken {q : Nat} {x : HFlit} :
    (if (s.port q).ether then (if (s.port q).state = 2 then (s.haloUnits q x.tag x.off true x.data).getD s else s) else s.haloRx q 4 x).Kept l c :=
  .cond (.cond h.unitsTaken h) h.haloRx

theorem sessionOpen {part : Option Nat} {x : Nat → Session} : (if !s.mod.cc.up then s else
    match part with
    | none => s.say .sessionRefused
    | some p => (s.updMod fun m => { m with cc := { m.cc with sessions := m.cc.sessions ++ [x p], nextSession := s.mod.cc.nextSession + 1 } }).say
        (.sessionOpen s.mod.cc.nextSession p)).Kept l c := by
  refine .cond h ?_
  split
  · exact h.say
  · exact h.addSession.say

theorem setPaused {q : Nat} {ps : List Nat} : (s.setPort q { s.port q with paused := ps }).Kept l c := by
  refine h.setPort ?_
  exact h.port

theorem pauseTaken {q : Nat} {ps qs : List Nat} {pause : Bool} {more : Prop} [Decidable more] : (if !s.roceUp q 0 then s
    else if !pause then (s.setPort q { s.port q with paused := ps }).haloTick q
    else if more then s.setPort q { s.port q with paused := qs } else s).Kept l c :=
  .cond h (.cond h.setPaused.haloTick (.cond h.setPaused h))

theorem setSent {q : Nat} {fs : List HSent} : (s.setPort q { s.port q with sent := fs }).Kept l c := by
  refine h.setPort ?_
  exact h.port

theorem roceAcknowledged {q tag : Nat} {nak : Bool} : (match (s.port q).xfers.find? fun (x : HXfer) => x.tag = tag && x.mod with
    | none => s
    | some x => if !s.roceUp q 0 then s else if nak then s.roceResend q tag
      else (s.setPort q { s.port q with sent := (s.port q).sent.filter fun (f : HSent) => f.tag ≠ tag }).endXfer q x 0 0).Kept l c := by
  split
  · exact h
  · exact .cond h (.cond h.roceResend h.setSent.endXfer)

theorem rngFails : ((s.updMod fun m => { m with sec := { m.sec with rngFail := true } }).rootRecord 0).Kept l c := by
  refine State.Kept.rootRecord (h.updSec ?_ ?_)
  · exact fun _ => rfl
  · exact fun _ => rfl

end State.Kept

/-- Every command keeps the queue, and the canonical form. -/
theorem exec_kept (i : Instr) {s : State} (h : s.Kept l c) : NextKept l c (exec i s) := by
  cases i with
  | submit _ _ => exact .next (h.message h.submit)
  | loaded _ => exact .checked h h.loaded
  | run _ _ => exact .next (h.message h.runMsg)
  | abort _ => exact .next (h.message h.abortMsg)
  | exportMsg _ => exact .next (h.message h.exportMsg)
  | release _ => exact .next (h.message h.releaseMsg)
  | cap _ _ => exact .next (h.message h.capMsg)
  | put _ _ _ => exact .next (h.message h.putMsg)
  | invocationStart _ => exact .checked h h.invocationStart
  | phaseSwap _ => exact .checked h h.phaseSwap
  | beqz _ _ | bnez _ _ | beq _ _ | bne _ _ | blt _ _ | bge _ _ | bltu _ _ | bgeu _ _ => exact .issue h fun _ _ hts => hts.branch
  | jmp _ _ => exact .issue h fun _ _ hts => hts.tJmp
  | jal _ _ => exact .issue h fun _ _ hts => hts.tJal
  | jr _ _ => exact .issue h fun _ _ hts => hts.tJr
  | loop _ _ => exact .issue h fun _ _ hts => hts.tLoop
  | ctlEnd _ _ => exact .issue h fun _ _ hts => hts.tEnd
  | sysNop _ _ => exact .issue h fun _ _ hts => hts.tNop
  | sysFence _ _ => exact .issue h fun _ _ hts => hts.tFence
  | sysTime _ _ => exact .issue h fun _ _ hts => hts.tTime
  | sysEvent _ _ => exact .issue h fun _ _ hts => hts.tEvent
  | eventPost _ => exact .checked h h.eventPost
  | add _ _ | sub _ _ | mul _ _ | and _ _ | or _ _ | xor _ _ | sll _ _ | srl _ _ | sra _ _ | slt _ _ | sltu _ _ | min _ _ | max _ _
  | minu _ _ | maxu _ _ => exact .issue h fun _ _ hts => hts.tAlu
  | mov _ _ => exact .issue h fun _ _ hts => hts.tMov
  | addi _ _ | andi _ _ | ori _ _ | xori _ _ | slli _ _ | srli _ _ | srai _ _ | slti _ _ | sltiu _ _ => exact .issue h fun _ _ hts => hts.tAluImm
  | li _ _ | liu _ _ | lih _ _ => exact .issue h fun _ _ hts => hts.tLoadImm
  | ldw _ _ | ldd _ _ => exact .issue h fun _ _ hts => hts.tLoad
  | stw _ _ | std _ _ => exact .issue h fun _ _ hts => hts.tStore
  | csrr _ _ => exact .issue h fun _ _ hts => hts.tCsrr
  | movVs _ _ | movSv _ _ | movVv _ _ | movPs _ _ | movSp _ _ | vadd _ _ | vsub _ _ | vmul _ _ | vfma _ _ | vmin _ _ | vmax _ _ | vabs _ _
  | vneg _ _ | vdiv _ _ | vsqrt _ _ | vrcp _ _ | vrsqrt _ _ | vexp2 _ _ | vlog2 _ _ | vexp _ _ | vlog _ _ | vtanh _ _ | vsigm _ _ | verf _ _
  | viadd _ _ | visub _ _ | vimul _ _ | vand _ _ | vor _ _ | vxor _ _ | vsll _ _ | vsrl _ _ | vsra _ _ | vimin _ _ | vimax _ _ | vcmpEq _ _
  | vcmpNe _ _ | vcmpLt _ _ | vcmpLe _ _ | vcmpGt _ _ | vcmpGe _ _ | vicmpEq _ _ | vicmpNe _ _ | vicmpLt _ _ | vicmpLe _ _ | vicmpGt _ _
  | vicmpGe _ _ | pand _ _ | por _ _ | pxor _ _ | pnot _ _ | ppop _ _ | vcvt _ _ | vcvtN2 _ _ | sumNf _ _ | sumAmax _ _ | sumAdd _ _
  | sumArgmax _ _ | vld _ _ | vst _ _ | vstCvt _ _ | vstMx _ _ | vqPop _ _ | vqPush _ _ => exact .issue h fun _ _ hts => hts.tVec
  | qWait _ _ | qPop _ _ | qPush _ _ => exact .issue h fun _ _ hts => hts.tQueue fun _ _ _ ht => ht.orderWords
  | qSpace _ _ => exact .issue h fun _ _ hts => hts.tQueue fun _ _ _ ht => ht
  | rgSet _ _ => exact .issue h fun _ _ hts => hts.tRgSet
  | rgGet _ _ => exact .issue h fun _ _ hts => hts.tRgGet
  | spdClr _ _ => exact .issue h fun _ _ hts => hts.tSpdClr
  | opeMulClr _ _ | opeMulCont _ _ => exact .issue h fun _ _ hts => hts.tOpeMul
  | opeDrn _ _ => exact .issue h fun _ _ hts => hts.tOpeDrn
  | opeCube _ _ => exact .issue h fun _ _ hts => hts.tOpeCube
  | tileSrStepWrite _ _ _ | tileRgWrite _ _ _ _ | hzdCtlWrite _ _ _ | rdescWrite _ _ _ _ => exact .checked h h.csrWrite
  | registerWrite _ _ _ _ | tileWindowWrite _ _ _ _ => exact .next h.addrWrite
  | netPull _ _ | netPush _ _ | netSend _ _ | atomAdd _ _ | atomMin _ _ | atomMax _ _ | atomSwap _ _ | atomCas _ _ => exact .issue h fun _ _ hts => hts.tNet
  | netUnitIssue _ _ => exact .routerDo h h.unitIssue
  | flitInject _ => exact .routerDo h h.inject
  | flitHop _ _ _ => exact .routerDo h h.hop
  | tileWindowRead _ _ _ => exact .next h.addrRead
  | routeEntryWrite _ _ _ _ _ => exact .checked h h.entryWrite
  | epochSwap _ _ _ => exact .checked h h.epochWrite
  | redCombine _ _ => exact .routerDo h h.redCombine
  | redRootFlit _ _ => exact .checked h h.redRootFlit
  | siteRedStepWrite _ _ _ | siteScAllocWrite _ _ _ | siteOwnWrite _ _ _ | arm _ _ | taintHalve _ _ | taintNoHalve _ _ | clear _ _
  | exportStart _ _ | exportCancel _ _ | armFilled _ _ _ | armEmpty _ _ _ | disarm _ _ _ => exact .checked h h.siteWrite
  | siteRequestArrive _ => exact .checked h h.requestArrive
  | stackThermalReading _ _ => exact .checked h h.stackTemp
  | taintPropagate _ => exact .checked h h.taintPropagate
  | siteFinished _ => exact .checked h h.siteFinish
  | pavaneDecide _ => exact .checked h h.pavaneDecide
  | foldComplete _ => exact .checked h h.foldComplete
  | flipComplete _ => exact .checked h h.flipComplete
  | exportComplete _ => exact .checked h h.exportComplete
  | dsiteReassign _ => exact .checked h h.dsiteReassign
  | fieldRelocate _ _ => exact .checked h h.relocate
  | feedVoltageSample _ _ => exact .checked h h.feedSample.reportGuar
  | fieldSensorReading _ _ => exact .checked h h.sensorReading.reportGuar
  | throttleEscalate _ => exact .checked h h.throttleMore.reportGuar
  | throttleRelease _ => exact .checked h h.throttleLess.reportGuar
  | squallDrainComplete _ | fieldDrainComplete _ => exact .checked h h.drained.reportGuar
  | fuseOpen _ => exact .checked h h.fuseOpen.reportGuar
  | fieldPowerUp _ _ | fieldPowerDown _ _ | fuseRetest _ _ => exact .checked h h.fieldCmdWrite.reportGuar
  | fieldReady _ _ _ => exact .checked h h.fieldReadyDo.reportGuar
  | fuseRetestComplete _ _ => exact .checked h h.retestDone.reportGuar
  | energyWindowEnd _ _ _ _ _ => exact .checked h h.windowEnd.reportGuar
  | cirSet _ _ => exact .next h.cirSet
  | cirrusPhaseLoss _ _ => exact .checked h h.phaseLoss.reportGuar
  | cirrusNodeStop _ => exact .checked h h.stopNodes.reportGuar
  | haloTrainingComplete _ _ _ => exact .checked h h.haloTrained
  | idle _ _ | wreq _ _ | wdata _ _ | rreq _ _ | cmpl _ _ | ctrl _ _ => exact .checked h h.haloRx
  | haloWriteComplete _ _ => exact .checked h h.haloWritten
  | haloLaneBad _ _ => exact .checked h h.laneBad
  | ringBreak _ => exact .checked h h.ringBreak
  | haloWinWrite _ _ _ _ | haloInjCrc _ _ | haloInjCodewords _ _ _ _ | haloInjLock _ _ _ | haloEnable _ _ | haloDisable _ _
  | haloRetrain _ _ => exact .checked h h.portWrite
  | haloModuleTransfer _ _ _ _ _ => exact .checked h h.moduleTransfer
  | roceWrite _ _ _ _ _ | roceWriteImm _ _ _ _ _ _ | roceRead _ _ _ _ _ => exact .checked h h.roce
  | roceSend _ _ _ => exact .checked h h.roceSend
  | arpRequest _ _ | neighbourDiscovery _ _ | icmpEcho _ _ _ _ => exact .checked h h.answerFrame
  | partAbort _ _ | partReset _ _ | partDisable _ _ | partEnable _ _ => exact .checked h h.partCtl
  | abortComplete _ => exact .checked h h.abortDone
  | watchdogExpiry _ => exact .checked h h.watchdog
  | stallAdvisory _ _ => exact .checked h h.stall
  | capacityChange _ _ _ => exact .checked h h.capacity
  | partitionDefine _ _ _ => exact .checked h h.partitionDefine
  | partitionFree _ => exact .checked h h.partitionFree
  | siteWipe _ _ _ => exact .checked h h.siteWipe
  | wipeComplete _ => exact .checked h h.wipeDone
  | debugPolicySet _ _ => exact .checked h h.debugPolicy
  | hostKeyRegister _ _ _ _ => exact .checked h h.hostKey
  | firmwareUpdate _ => exact .checked h h.update
  | commitSecurityVersion _ => exact .checked h h.commitVersion
  | getVersion k => exact .spdm (f := fun u => u.spdmVersion k) h fun _ hu => hu.spdmVersion
  | getCapabilities k => exact .spdm (f := fun u => u.spdmCaps k) h fun _ hu => hu.spdmCaps
  | negotiateAlgorithms k falcon shake => exact .spdm (f := fun u => u.spdmAlgs k falcon shake) h fun _ hu => hu.spdmAlgs
  | challenge k slot nonce => exact .spdm (f := fun u => u.spdmChallenge k slot nonce) h fun _ hu => hu.spdmChallenge
  | getMeasurements k idx nonce => exact .spdm (f := fun u => u.spdmMeasure k idx nonce) h fun _ hu => hu.spdmMeasure
  | debugUnlock _ _ _ => exact .next h.unlock
  | errorRecordJudge _ => exact .next h.judgeSeq
  | fieldRespare _ => exact .checked h h.fieldRespare.reportGuar
  | tmapChange _ _ _ _ => exact .checked h h.tmapChange
  | pregWrite _ _ _ _ => exact .checked h h.pregWrite
  | stepRetry _ => exact .checked h h.stepRetry
  | tileInjParity _ _ _ _ | tileInjAccumulator _ _ _ _ | tileInjLane _ _ _ | tileInjInstrParity _ _ _ | tileInjFlit _ _ _ _ _
  | tileInjAdder _ _ _ _ | tileInjStoredBits _ _ _ _ | tileInjHazard _ _ _ => exact .checked h h.tileInj
  | siteInjHbm _ _ _ _ | siteInjStratus _ _ _ _ | siteInjCache _ _ _ _ | siteInjTemp _ _ _ => exact .checked h h.siteInj
  | ezInjFeedVoltage _ _ _ _ | ezInjSensorReading _ _ _ _ _ | ezInjSensorInvalid _ _ _ _ | ezInjCoolant _ _ _ _ => exact .checked h h.ezArm
  | ezInjStageFault _ _ | ezInjPhaseError _ _ _ _ => exact .checked h h.ezArm.reportGuar
  | ezInjExpiry => exact .next h.ezField
  | fieldLogicTest _ _ | fieldLinkTest _ _ | rateCalibration _ _ | sensorCheck _ _ => exact .checked h h.jobTest.reportGuar
  | fldTestComplete _ _ _ => exact .checked h h.testDone
  | powerOn _ _ => exact .next h.powerOn
  | powerOnStageComplete _ => exact .next h.stageDone
  | moduleReset _ => exact .next h.moduleReset
  | tileReset _ _ => exact .checked h h.tileReset
  | suspicionLapse _ => exact .next h.lapse
  | siteMemoryMarch _ _ => exact .checked h h.march
  | halt _ => exact .next (h.message h.haltAnswered)
  | taint _ _ => exact .next (h.message h.taintAnswered)
  | status _ => exact .next (h.message h.say)
  | tileEndReport _ => exact .checked h (.cond (h.onTile fun _ _ hts => .upd hts.tile.tEndReport).tileEnded h)
  | eventResend _ => exact .tileDo h fun _ _ hts => hts.tile
  | sharedPortAccess _ _ _ _ => exact .checked h (.cond (h.onTile fun _ _ hts => hts.tShared) h)
  | opeFeedBeat _ => exact .tileDo h fun _ _ hts => hts.out hts.tFeedBeat
  | opeSetReady _ _ => exact .checked h (.cond (h.onTile fun _ _ hts => .upd hts.tile.tSetReady) h)
  | opeDrainStart _ _ => exact .checked h (.cond (h.onTile fun _ _ hts => hts.out hts.tDrainStart) h)
  | opeCheck _ _ _ => exact .checked h (.cond (h.onTile fun _ _ hts => hts.out hts.tCheck) h)
  | combinedReturnCopy _ => exact .routerDo h (h.setTile h.tile.tCombinedCopy)
  | rdataArrive _ => exact .routerDo h (h.setTile h.tile.tDataArrive)
  | unitAckArrive _ => exact .routerDo h (h.setTile h.tile.tAckArrive)
  | netTransferComplete _ _ => exact .routerDo h (h.setTile h.tile.tTransferComplete)
  | sendFlitArrive _ => exact .routerDo h (h.onTile fun _ _ hts => hts.tSendArrive)
  | routeRecompute => exact .next h.rerouteUp
  | redFlitSend _ _ => exact .checked h (.cond (h.onTile fun _ _ hts => hts.out hts.tRedSend) h)
  | bucketCommit _ => exact .checked h (h.redOut (SS.Kept.bucketCommit (.of h.site)))
  | bucketAckReceive _ => exact .checked h (.cond h.ackReceive h)
  | retryDecision _ => exact .checked h (h.onSite fun _ _ hx => hx.retryDecision)
  | siteRequestServe _ _ | pwinRead _ _ => exact .checked h (h.onSite fun _ _ hx => hx.siteServe)
  | pwinFill _ => exact h.pwinFill
  | patrolRead _ _ _ => exact .checked h (h.onSite fun _ _ hx => hx.patrolRead)
  | selfRefreshEntry _ _ => exact .checked h (h.onSite fun _ _ hx => .upd hx.site.selfRefresh)
  | refresh _ => exact .checked h (h.onSite fun _ _ hx => hx)
  | siteDisable _ _ => exact .checked h (h.privileged h.siteDisable)
  | keySlotLoad _ _ => exact .checked h (.cond h (h.setSite h.site.loadKey))
  | bindRecord _ => exact .checked h (h.onSite fun _ _ hx => hx.bindRecord)
  | blockUpdate _ => exact .checked h (h.onSite fun _ _ hx => hx.blockUpdate)
  | updateWriteComplete _ => exact .checked h (h.onSite fun _ _ hx => .upd hx.site.updateComplete)
  | fold _ => exact .checked h (h.onSite fun _ _ hx => .cond hx.foldSite hx)
  | coolantSample _ _ _ => exact .next h.coolant.reportGuar
  | pacingTick => exact .next h.pacingTick
  | rdata _ _ => exact .checked h h.rdataTaken
  | cnpReceived _ _ | nonRoceFrame _ => exact .checked h (.cond (h.setPort h.port) h)
  | ecnMarkedPacket _ _ => exact .checked h (.cond h.say h)
  | modAbort _ => exact .next (h.privileged h.modAbort)
  | ccRestart => exact .next (.cond h.ccDown h)
  | ccRestartComplete => exact .next (.cond h.ccUp h)
  | reserveSet _ _ => exact .checked h (.cond h.setReserveConf.fillReserve.say h)
  | quietWindowSet _ _ => exact .checked h (.cond h.setPart.say h)
  | getDigests k => exact .spdm (f := fun u => u.spdmReady k (u.spdmSay k 0x01 [1, u.chainDigest])) h fun _ hu => hu.spdmReady hu.spdmSay
  | getCertificate k slot => exact .spdm (f := fun u => u.spdmReady k (if slot = 0 then u.spdmSay k 0x02 u.certChain.flatten else u.spdmSay k 0x7F [0x01])) h fun _ hu => hu.spdmReady (.cond hu.spdmSay hu.spdmSay)
  | entropyHealthFail => exact .next h.rngFails
  | siteInjTempExpiry _ => exact .checked h (h.setSite h.site.tempExpiry)
  | fpSweepStart _ _ | fpSweepStop _ _ => exact .checked h h.fpWrite
  | fpGroupCheck _ => exact .checked h (.cond h.fpStep h)
  | fldTestStop _ _ => exact .checked h (State.Kept.reportGuar (h.privileged (h.setField h.field.stopTest)))
  | moduleReady => exact .next h.moduleReady
  | eventAcknowledge _ => exact .checked h (.cond h.eventTaken h)
  | hostSessionOpen _ _ => exact .next h.sessionOpen
  | ethernetLinkDown _ => exact .checked h (.cond h.haloRetrain h)
  | priorityFlowControlFrame _ _ _ => exact .checked h h.pauseTaken
  | roceAcknowledge _ _ _ => exact .checked h h.roceAcknowledged
  | roceRetransmitTimeout _ _ => exact .checked h (.cond h.roceResend h)

/-- A step keeps the canonical form, be it a command or a pass of time. -/
theorem step_canonical {s u : State} (h : s.canonical = true) (hu : step s = .next u) : u.canonical = true := by
  unfold step at hu
  split at hu
  next hp =>
    obtain rfl := Host.Outcome.next.inj hu
    exact (State.Kept.idle (l := []) (c := True) ⟨hp, fun _ => h⟩).2 trivial
  next i l hp => exact (exec_kept (s := { s with pending := l }) (l := l) (c := True) i ⟨rfl, fun _ => h⟩ u hu).2 trivial

end Sys2Proof.Machine

namespace Sys2Proof
open Machine

/-- Settles O57: every function of the model that a command's effect is made of keeps the queue. -/
theorem queueKept : Obligations.QueueKept := by
  unfold Obligations.QueueKept
  exact fun i s u hu => (exec_kept (c := False) i ⟨rfl, False.elim⟩ u hu).1

/-- Settles O60: so does the canonical form, for each part that the function writes. -/
theorem canonicalKept : Obligations.CanonicalKept := by
  unfold Obligations.CanonicalKept
  exact fun s u h hu => step_canonical h hu

end Sys2Proof
end

section
/-!
The error log: which records the rate limit lets pass, and what one that passes leaves.
-/

namespace Sys2Proof.Map

variable {α : Type}

/-- The entry inserted is the first of its key. -/
theorem find_insert (m : Map α) (k : Nat) (x : α) : ((insert m k x).find? fun e => e.1 = k) = some (k, x) := by
  induction m with
  | nil => simp [insert]
  | cons e m ih =>
    obtain ⟨j, v⟩ := e
    simp only [insert]
    split
    · simp
    · split
      · simp
      next hne _ =>
        rw [List.find?_cons_of_neg (by simpa using fun h => hne h.symm)]
        exact ih

end Sys2Proof.Map

namespace Sys2Proof.Machine

/-- The rate limit holds the record back (R445). -/
def State.Limited (s : State) (r : Rec) : Prop :=
  2 ≤ r.cls ∧ r.cls ≤ 4 ∧ ∃ x ∈ s.mod.log.last, x.1 = r.source ∧ x.2.1 = r.loc ∧ s.now.toNat < x.2.2.toNat + 1000000

/-- The entry that a record takes in the ring. -/
def State.logEntry (s : State) (r : Rec) : LogRec :=
  { time := if s.counting then s.now else 0, seqno := (s.ez 0x600C).toNat, source := r.source, cls := r.cls, part := s.locPart r.loc,
    flags := nb (r.cls = 1 && decide (s.locPart r.loc < 8)) + 2 * nb r.inj + 4 * nb s.mod.log.lost, loc := r.loc, offset := r.offset,
    code := (if codeStated r.source && !(decide (8 ≤ r.source) && decide (r.source ≤ 10) && r.cls = 2) then r.code
      else Config.recordCode r.source r.code) % 65536,
    addr := r.addr, phys := s.locPhys r.loc, detail := r.detail.take 7 }

/-- The records that the rate limit knows of after a record. -/
def State.lastAfter (s : State) (r : Rec) : List (Nat × Nat × DWord) :=
  if 2 ≤ r.cls && r.cls ≤ 4 then (s.mod.log.last.filter fun x => !(x.1 = r.source && x.2.1 = r.loc)) ++ [(r.source, r.loc, s.now)] else s.mod.log.last

theorem State.limited_iff {s : State} {r : Rec} : s.Limited r ↔ (2 ≤ r.cls && r.cls ≤ 4 &&
    s.mod.log.last.any fun x => x.1 = r.source && x.2.1 = r.loc && decide (s.now.toNat < x.2.2.toNat + 1000000)) = true := by
  simp only [State.Limited, Bool.and_eq_true, decide_eq_true_eq, List.any_eq_true, and_assoc]

theorem State.logRec_limited {s : State} {r : Rec} (h : s.Limited r) : s.logRec r = s := if_pos (State.limited_iff.mp h)

theorem State.logRec_full {s : State} {r : Rec} (h : ¬ s.Limited r) (hfull : (bits (s.ez 0x6000) 13 0 + 1) % 16384 = bits (s.ez 0x6004) 13 0) :
    s.logRec r = (s.ezPut 0x6008 (BitVec.ofNat 32 (min (2 ^ 32 - 1) ((s.ez 0x6008).toNat + 1)))).updMod fun m =>
      { m with log := { m.log with lost := true } } :=
  (if_neg fun hb => h (State.limited_iff.mpr hb)).trans (if_pos hfull)

theorem State.logRec_takes {s : State} {r : Rec} (h : ¬ s.Limited r) (hfree : (bits (s.ez 0x6000) 13 0 + 1) % 16384 ≠ bits (s.ez 0x6004) 13 0) :
    s.logRec r = ((s.ezPut 0x6000 (BitVec.ofNat 32 ((bits (s.ez 0x6000) 13 0 + 1) % 16384))).ezPut 0x600C (s.ez 0x600C + 1)).updMod fun m =>
      { m with log := { m.log with ring := Map.insert m.log.ring (bits (s.ez 0x6000) 13 0) (s.logEntry r), lost := false, last := s.lastAfter r } } :=
  (if_neg fun hb => h (State.limited_iff.mpr hb)).trans (if_neg hfree)

@[simp] theorem State.ez_log (s : State) (g : Module → Log) (o : Nat) : (s.updMod fun m => { m with log := g m }).ez o = s.ez o := rfl

/-- After a record of CLASS 2 to 4, the rate limit holds back every other of its source and place at that instant. -/
theorem State.limited_after {s u : State} {r v : Rec} (hlast : u.mod.log.last = s.lastAfter r) (hnow : u.now = s.now) (hlow : 2 ≤ r.cls) (hhigh : r.cls ≤ 4)
    (hsource : v.source = r.source) (hloc : v.loc = r.loc) (hv : 2 ≤ v.cls ∧ v.cls ≤ 4) : u.Limited v := by
  refine ⟨hv.1, hv.2, (r.source, r.loc, s.now), ?_, hsource.symm, hloc.symm, ?_⟩
  · simp [hlast, State.lastAfter, hlow, hhigh]
  · rw [hnow]
    exact Nat.lt_add_of_pos_right (by decide)

end Sys2Proof.Machine

namespace Sys2Proof
open Machine

/-- Settles O56: whether the rate limit holds the record back, and whether the ring is full. -/
theorem errorLogRecords : Obligations.ErrorLogRecords := by
  unfold Obligations.ErrorLogRecords
  intro s r hwf
  refine ⟨State.logRec_limited, fun hpass hfree => ?_, fun hpass hfull => ?_⟩
  · have htakes := State.logRec_takes hpass hfree
    have hwf1 := s.ezPut_wf 0x6000 (BitVec.ofNat 32 ((bits (s.ez 0x6000) 13 0 + 1) % 16384)) hwf
    have hez (o : Nat) (ho : o ≠ 0x6000) : (s.ezPut 0x6000 (BitVec.ofNat 32 ((bits (s.ez 0x6000) 13 0 + 1) % 16384))).ez o = s.ez o :=
      State.ez_ezPut_ne _ hwf ho
    obtain ⟨m, hframe⟩ := s.logRec_frame r
    have hrest : { s.logRec r with mod := s.mod } = s := by rw [hframe]
    rw [htakes] at hrest ⊢
    refine ⟨?_, ?_, ?_, rfl, rfl, hrest, ?_, ?_⟩
    · rw [State.ez_log, State.ez_ezPut_ne _ hwf1 (by decide), State.ez_ezPut_self _ _ hwf]
      simp only [bits, BitVec.toNat_ofNat]
      omega
    · rw [State.ez_log, State.ez_ezPut_self _ _ hwf1]
    · rw [State.ez_log, State.ez_ezPut_ne _ hwf1 (by decide), hez _ (by decide)]
    · exact ⟨s.logEntry r, Map.find_insert _ _ _, rfl, rfl, rfl, rfl, rfl, rfl, rfl, rfl⟩
    · exact fun hlow hhigh v hsource hloc hvlow hvhigh =>
        State.logRec_limited (State.limited_after rfl rfl hlow hhigh hsource hloc ⟨hvlow, hvhigh⟩)
  · rw [State.logRec_full hpass hfull]
    refine ⟨rfl, rfl, ?_, ?_⟩
    · rw [State.ez_log, State.ez_ezPut_self _ _ hwf, BitVec.toNat_ofNat]
      omega
    · rw [State.ez_log, State.ez_ezPut_ne _ hwf (by decide)]

end Sys2Proof
end

section
/-!
Attestation: what a request over an SPDM connection leaves of the connection, and what it is answered with.
-/

namespace Sys2Proof.Machine

variable {s : State} {c : Nat}

/-- A request that the root of trust answers. -/
theorem State.answered (hc : c < 8) (hup : s.rootUp = true) (req : List Nat) (k : State → State) {u : State} (hu : k (s.spdmNote c req) = u) :
    s.spdm c req k = .next u := by
  rw [State.spdm, if_pos hup, decide_eq_true hc, State.checked_true, hu]

section
variable (hwf : Map.wf (fun _ => ({} : Conn)) s.mod.sec.conns = true)
include hwf

theorem State.conn_setConn_self (x : Conn) : (s.setConn c x).conn c = x := Map.get_set_self hwf
theorem State.conn_setConn_ne {d : Nat} (x : Conn) (hd : d ≠ c) : (s.setConn c x).conn d = s.conn d := Map.get_set_ne hwf hd

theorem State.setConn_setConn (x y : Conn) : (s.setConn c x).setConn c y = s.setConn c y := by
  have hset : Map.set (fun _ => ({} : Conn)) (Map.set (fun _ => {}) s.mod.sec.conns c x) c y = Map.set (fun _ => {}) s.mod.sec.conns c y :=
    Map.set_set x y hwf
  simp only [State.setConn, State.updMod, hset]

/-- A level that the connection reaches. -/
theorem State.spdmGo_setConn (x : Conn) (k : Nat) : (s.setConn c x).spdmGo c k = s.setConn c { x with level := k } := by
  rw [State.spdmGo, State.conn_setConn_self hwf, State.setConn_setConn hwf]

theorem State.spdmNote_setConn (x : Conn) (l : List Nat) : (s.setConn c x).spdmNote c l = s.setConn c { x with log := x.log ++ l } := by
  rw [State.spdmNote, State.conn_setConn_self hwf, State.setConn_setConn hwf]

/-- An answer, with the transcript that it joins. -/
theorem State.spdmSay_setConn (x : Conn) (code : Nat) (l : List Nat) :
    (s.setConn c x).spdmSay c code l = (s.setConn c { x with log := x.log ++ code :: l }).say (.spdm c code l) := by
  rw [State.spdmSay, State.spdmNote_setConn hwf]

/-- A signed answer, over the transcript with it. -/
theorem State.spdmSign_setConn (x : Conn) (code nonce : Nat) (l : List Nat) : (s.setConn c x).spdmSign c code nonce l =
    (s.setConn c { x with log := x.log ++ code :: l }).say (.spdmSigned c s.mod.sec.aliasKey nonce l (x.log ++ code :: l)) := by
  rw [State.spdmSign, State.spdmNote_setConn hwf, State.conn_setConn_self hwf]
  rfl

/-- A request that needs the certificate and the algorithms, where both are there. -/
theorem State.spdmReady_agreed (x : Conn) (k : State) (hcert : s.mod.sec.certIssued = true) (hlevel : x.level = 3) : (s.setConn c x).spdmReady c k = k := by
  have hissued : (s.setConn c x).mod.sec.certIssued = true := hcert
  rw [State.spdmReady, State.spdmAt, State.conn_setConn_self hwf, hissued, hlevel]
  rfl

theorem State.spdmReady_early (x : Conn) (k : State) (hcert : s.mod.sec.certIssued = true) (hlevel : x.level ≠ 3) :
    (s.setConn c x).spdmReady c k = (s.setConn c x).spdmSay c 0x7F [0x04] := by
  have hissued : (s.setConn c x).mod.sec.certIssued = true := hcert
  rw [State.spdmReady, State.spdmAt, State.conn_setConn_self hwf, hissued, if_neg (by decide), if_pos hlevel]

theorem State.spdmReady_unissued (x : Conn) (k : State) (hcert : s.mod.sec.certIssued = false) :
    (s.setConn c x).spdmReady c k = (s.setConn c x).spdmSay c 0x7F [0x42] := by
  have hissued : (s.setConn c x).mod.sec.certIssued = false := hcert
  rw [State.spdmReady, hissued, if_pos (by decide)]

end

theorem State.chainDigest_setConn (x : Conn) : (s.setConn c x).chainDigest = s.chainDigest := rfl
theorem State.certChain_setConn (x : Conn) : (s.setConn c x).certChain = s.certChain := rfl
theorem State.measure_setConn (x : Conn) (i : Nat) : (s.setConn c x).measure i = s.measure i := rfl

end Sys2Proof.Machine

namespace Sys2Proof
open Machine

/-- Settles O53: the request joins the transcript, and the answer that the level admits follows it. -/
theorem attestation : Obligations.Attestation := by
  unfold Obligations.Attestation
  intro c s hc hup hwf
  have hnote (req : List Nat) : s.spdmNote c req = s.setConn c { level := (s.conn c).level, log := (s.conn c).log ++ req } := rfl
  have hagreed (req : List Nat) (k : State) (hcert : s.mod.sec.certIssued = true) (hnow : (s.conn c).level = 3) :
      (s.setConn c { level := (s.conn c).level, log := (s.conn c).log ++ req }).spdmReady c k = k :=
    State.spdmReady_agreed hwf { level := (s.conn c).level, log := (s.conn c).log ++ req } k hcert hnow
  have hissued (x : Conn) : (s.setConn c x).mod.sec.certIssued = s.mod.sec.certIssued := rfl
  have hat (x : Conn) : (s.setConn c x).spdmAt c = x.level := by rw [State.spdmAt, State.conn_setConn_self hwf]
  refine ⟨?_, fun hnow => ?_, fun hnow => ?_, fun hcert hnow => ⟨?_, fun b => ?_⟩,
    fun k log => ⟨hat _, fun d hd => State.conn_setConn_ne hwf _ hd⟩,
    fun hcert hnow => ⟨?_, ?_, fun nonce => ⟨?_, ?_, fun i l hpos hlt hi => ?_⟩, fun slot nonce hslot => ?_⟩, fun hcert hnow => ?_, fun hcert => ?_⟩
  · refine State.answered hc hup [] (fun u => u.spdmVersion c) ?_
    rw [hnote, State.spdmVersion, State.setConn_setConn hwf, State.spdmSay_setConn hwf]
    rfl
  · refine State.answered hc hup [0xE1] (fun u => u.spdmCaps c) ?_
    rw [hnote, State.spdmCaps, hat, if_pos hnow, State.spdmSay_setConn hwf, hnow]
  · refine State.answered hc hup [0xE1] (fun u => u.spdmCaps c) ?_
    rw [hnote, State.spdmCaps, hat, if_neg hnow, State.spdmGo_setConn hwf, State.spdmSay_setConn hwf]
  · refine State.answered hc hup [0xE3, 1, 1] (fun u => u.spdmAlgs c true true) ?_
    rw [hnote, State.spdmAlgs, hissued, hcert, hat, if_neg (by decide), if_neg (not_not.mpr hnow), if_pos (by decide), State.spdmGo_setConn hwf,
      State.spdmSay_setConn hwf]
  · refine State.answered hc hup [0xE3, 0, nb b] (fun u => u.spdmAlgs c false b) ?_
    rw [hnote, State.spdmAlgs, hissued, hcert, hat, if_neg (by decide), if_neg (not_not.mpr hnow), if_neg (by simp), State.spdmSay_setConn hwf]
  · refine State.answered hc hup [0x81] (fun u => u.spdmReady c (u.spdmSay c 0x01 [1, u.chainDigest])) ?_
    rw [hnote, hagreed _ _ hcert hnow, State.spdmSay_setConn hwf, State.chainDigest_setConn]
  · refine State.answered hc hup [0x82, 0] (fun u => u.spdmReady c (if 0 = 0 then u.spdmSay c 0x02 u.certChain.flatten else u.spdmSay c 0x7F [0x01])) ?_
    rw [hnote, hagreed _ _ hcert hnow, if_pos rfl, State.spdmSay_setConn hwf, State.certChain_setConn]
  · refine State.answered hc hup [0x83, 0, nonce] (fun u => u.spdmChallenge c 0 nonce) ?_
    rw [hnote, State.spdmChallenge, hagreed _ _ hcert hnow, if_neg (by decide), State.spdmSign_setConn hwf,
      State.chainDigest_setConn]
  · refine State.answered hc hup [0xE0, 0, nonce] (fun u => u.spdmMeasure c 0 nonce) ?_
    rw [hnote, State.spdmMeasure, hagreed _ _ hcert hnow, if_pos rfl, State.spdmSign_setConn hwf]
    rfl
  · refine State.answered hc hup [0xE0, i, nonce] (fun u => u.spdmMeasure c i nonce) ?_
    rw [hnote, State.spdmMeasure, hagreed _ _ hcert hnow, if_neg (by omega), if_neg (by omega), State.measure_setConn, hi]
    dsimp only
    rw [State.spdmSign_setConn hwf]
  · refine State.answered hc hup [0x83, slot, nonce] (fun u => u.spdmChallenge c slot nonce) ?_
    rw [hnote, State.spdmChallenge, hagreed _ _ hcert hnow, if_pos hslot, State.spdmSay_setConn hwf]
  · refine State.answered hc hup [0x81] (fun u => u.spdmReady c (u.spdmSay c 0x01 [1, u.chainDigest])) ?_
    rw [hnote, State.spdmReady_early hwf { level := (s.conn c).level, log := (s.conn c).log ++ [0x81] } _ hcert hnow, State.spdmSay_setConn hwf]
  · refine State.answered hc hup [0x81] (fun u => u.spdmReady c (u.spdmSay c 0x01 [1, u.chainDigest])) ?_
    rw [hnote, State.spdmReady_unissued hwf _ _ hcert, State.spdmSay_setConn hwf]

end Sys2Proof
end

section
/-!
Fault injections: what the words of TILE_INJ, SITE_INJ, HALO_INJ and EZ_INJ hold once they are armed.
-/

namespace Sys2Proof

variable {n hi lo : Nat}

theorem bits_or (a b : BitVec n) : bits (a ||| b) hi lo = bits a hi lo ||| bits b hi lo := by
  simp only [bits, BitVec.toNat_or, Nat.shiftRight_or_distrib, Nat.or_mod_two_pow]

theorem bits_and (a b : BitVec n) : bits (a &&& b) hi lo = bits a hi lo &&& bits b hi lo := by
  simp only [bits, BitVec.toNat_and, Nat.shiftRight_and_distrib, Nat.and_mod_two_pow]

theorem bits_lt (w : BitVec n) : bits w hi lo < 2 ^ (hi + 1 - lo) := Nat.mod_lt _ (Nat.two_pow_pos _)

end Sys2Proof

namespace Sys2Proof.Machine

/-- A field of writable bits takes what is written to it. -/
theorem bits_regWrite {hi lo : Nat} {r : Reg} (old v : Word) (hrw : bits (BitVec.ofNat 32 r.rw) hi lo = 2 ^ (hi + 1 - lo) - 1)
    (hw1c : bits (BitVec.ofNat 32 r.w1c) hi lo = 0) : bits (regWrite r old v) hi lo = bits v hi lo := by
  refine Nat.eq_of_testBit_eq fun i => ?_
  rw [testBit_bits, testBit_bits]
  by_cases hin : i < hi + 1 - lo
  · have hm : (BitVec.ofNat 32 r.rw).getLsbD (lo + i) = true := by
      have hones : (2 ^ (hi + 1 - lo) - 1).testBit i = true := by rw [Nat.testBit_two_pow_sub_one]; exact decide_eq_true hin
      rw [← hrw, testBit_bits] at hones
      exact (Bool.and_eq_true_iff.mp hones).2
    have hc : (BitVec.ofNat 32 r.w1c).getLsbD (lo + i) = false := by
      have hzero : (bits (BitVec.ofNat 32 r.w1c) hi lo).testBit i = false := by rw [hw1c]; exact Nat.zero_testBit i
      simpa [testBit_bits, hin] using hzero
    by_cases h32 : lo + i < 32
    · rw [BitVec.getLsbD_eq_getElem h32] at hm hc
      simp [regWrite, hm, hc, hin, h32]
    · simp [BitVec.getLsbD_of_ge _ _ (Nat.le_of_not_lt h32)]
  · simp [hin]

/-! A tile, a site and a port written twice. -/

theorem State.setTile_setTile {s : State} {t : Nat} (x y : Tile) (hwf : Map.wf (fun _ => ({} : Tile)) s.tiles = true) :
    (s.setTile t x).setTile t y = s.setTile t y := congrArg (fun tiles => { s with tiles := tiles }) (Map.set_set x y hwf)

theorem State.tile_setTile_self {s : State} {t : Nat} (x : Tile) (hwf : Map.wf (fun _ => ({} : Tile)) s.tiles = true) : (s.setTile t x).tile t = x :=
  Map.get_set_self hwf

theorem State.setSite_setSite {s : State} {n : Nat} (x y : Site) (hwf : Map.wf blankSite s.sites = true) :
    (s.setSite n x).setSite n y = s.setSite n y := congrArg (fun sites => { s with sites := sites }) (Map.set_set x y hwf)

theorem State.site_setSite_self {s : State} {n : Nat} (x : Site) (hwf : Map.wf blankSite s.sites = true) : (s.setSite n x).site n = x :=
  Map.get_set_self hwf

/-! The way to a tile goes by the tables of the fields, whatever the tiles hold. -/

section
variable (s : State) (a : Nat) (x : Tile)

theorem State.wayEnds_setTile (n : Nat) : ∀ (t : Nat) (f : Flit), (s.setTile a x).wayEnds n t f = s.wayEnds n t f := by
  induction n with
  | zero => exact fun _ _ => rfl
  | succ n ih =>
    intro t f
    have hnext : (s.setTile a x).nextPort t f = s.nextPort t f := rfl
    simp only [State.wayEnds, hnext, ih]

theorem State.ctlCode_setTile (t : Nat) : (s.setTile a x).ctlCode t = s.ctlCode t := by
  unfold State.ctlCode
  simp only [State.wayEnds_setTile]
  rfl

theorem State.ctlReturns_setTile (t : Nat) : (s.setTile a x).ctlReturns t = s.ctlReturns t := by
  unfold State.ctlReturns
  simp only [State.wayEnds_setTile]
  rfl

end

theorem State.reachable_of_ctlCode {s : State} {t : Nat} (h : s.ctlCode t = none) : s.reachable (fieldOf t) = true := by
  by_contra hno
  have hcode : s.ctlCode t = some 0x48 := if_pos (by simp [hno])
  rw [hcode] at h
  cases h

/-! TILE_INJ. -/

/-- The word written to TILE_INJ. -/
def tileInjWord (k port b : Nat) : Word := BitVec.ofNat 32 (k * 2 ^ 24 + port % 8 * 2 ^ 21 + b % 32 * 2 ^ 16)

/-- TILE_INJ after it: FIRED is cleared by a one. -/
def tileInjHeld (old v : Word) : Word := (old &&& 0x80000000 &&& ~~~v) ||| (v &&& 0x0FFF0000)

/-- The tile with kind `k` armed. -/
def armedTile (k port arg b : Nat) (x : Tile) : Tile :=
  csrPut (csrPut x 0xB04 (BitVec.ofNat 32 (arg % 2 ^ 17))) 0xB00
    (tileInjHeld (csrWord (csrPut x 0xB04 (BitVec.ofNat 32 (arg % 2 ^ 17))) 0xB00) (tileInjWord k port b))

theorem bits_tileInjWord {k port b : Nat} (hk : k < 16) (hport : port < 8) (hb : b < 32) : bits (tileInjWord k port b) 27 24 = k ∧
    bits (tileInjWord k port b) 23 21 = port ∧ bits (tileInjWord k port b) 20 16 = b := by
  simp only [bits, tileInjWord, BitVec.toNat_ofNat, Nat.shiftRight_eq_div_pow]
  omega

theorem bits_tileInjHeld (old v : Word) : bits (tileInjHeld old v) 27 24 = bits v 27 24 ∧ bits (tileInjHeld old v) 20 16 = bits v 20 16 := by
  have hkind : bits (0x80000000 : Word) 27 24 = 0 ∧ bits (0x0FFF0000 : Word) 27 24 = 2 ^ 4 - 1 := by decide
  have hbit : bits (0x80000000 : Word) 20 16 = 0 ∧ bits (0x0FFF0000 : Word) 20 16 = 2 ^ 5 - 1 := by decide
  have hk : bits v 27 24 < 2 ^ 4 := bits_lt v
  have hb : bits v 20 16 < 2 ^ 5 := bits_lt v
  simp only [tileInjHeld, bits_or, bits_and, hkind, hbit, Nat.and_zero, Nat.zero_and, Nat.zero_or, Nat.and_two_pow_sub_one_eq_mod]
  exact ⟨Nat.mod_eq_of_lt hk, Nat.mod_eq_of_lt hb⟩

section
variable {x : Tile} (hwf : Map.wf (regReset tileRegs) x.csr = true)
include hwf

theorem csrWord_csrPut_self (o : Nat) (v : Word) : csrWord (csrPut x o v) o = v := Map.get_set_self hwf
theorem csrWord_csrPut_ne {o k : Nat} (v : Word) (hk : k ≠ o) : csrWord (csrPut x o v) k = csrWord x k := Map.get_set_ne hwf hk
theorem wf_csrPut (o : Nat) (v : Word) : Map.wf (regReset tileRegs) (csrPut x o v).csr = true := Map.wf_set hwf

/-- What a tile with an armed kind shows. -/
theorem armedTile_shows {k port arg b : Nat} (hk : k < 16) (hport : port < 8) (harg : arg < 2 ^ 17) (hb : b < 32) :
    injKind (armedTile k port arg b x) = k ∧ injArg (armedTile k port arg b x) = arg ∧ injBit (armedTile k port arg b x) = b := by
  have hwf1 := wf_csrPut hwf 0xB04 (BitVec.ofNat 32 (arg % 2 ^ 17))
  obtain ⟨hkind, -, hbit⟩ := bits_tileInjWord hk hport hb
  obtain ⟨hheldKind, hheldBit⟩ := bits_tileInjHeld (csrWord (csrPut x 0xB04 (BitVec.ofNat 32 (arg % 2 ^ 17))) 0xB00) (tileInjWord k port b)
  refine ⟨?_, ?_, ?_⟩
  · rw [injKind, armedTile, csrWord_csrPut_self hwf1, hheldKind, hkind]
  · rw [injArg, armedTile, csrWord_csrPut_ne hwf1 _ (by decide), csrWord_csrPut_self hwf]
    simp only [bits, BitVec.toNat_ofNat, Nat.shiftRight_zero]
    omega
  · rw [injBit, armedTile, csrWord_csrPut_self hwf1, hheldBit, hbit]

theorem wf_armedTile (k port arg b : Nat) : Map.wf (regReset tileRegs) (armedTile k port arg b x).csr = true :=
  wf_csrPut (wf_csrPut hwf _ _) _ _

/-- An injection that has taken effect shows kind 0. -/
theorem injKind_injFire : injKind (injFire x) = 0 := by
  have hwf1 := wf_csrPut hwf 0xB00 (setBits (csrWord x 0xB00) 27 24 0)
  change bits (csrWord (csrPut (csrPut x 0xB00 (setBits (csrWord x 0xB00) 27 24 0)) 0xB00
    (setBits (csrWord (csrPut x 0xB00 (setBits (csrWord x 0xB00) 27 24 0)) 0xB00) 31 31 1)) 0xB00) 27 24 = 0
  rw [csrWord_csrPut_self hwf1, bits_setBits_apart _ (by decide) _ (by decide), csrWord_csrPut_self hwf, bits_setBits_self _ (by decide) (by decide)]

end

/-- An admitted injection of a tile arms it; kind 7 acts at once. -/
theorem State.tileInj_armed {s : State} {t k port arg b : Nat} (hgo : s.ctlCode t = none) (hback : s.ctlReturns t = true)
    (hinj : s.injectable (s.tilePart t) = true) (hwf : Map.wf (fun _ => ({} : Tile)) s.tiles = true) (hk : k ≤ 8) (hport : port < 8) (hb : b < 32)
    (hdebug : k = 8 → s.tilePart t < 8 ∧ (s.part (s.tilePart t)).debug = true) (hlink : k = 5 → 1 ≤ port ∧ port ≤ 4) :
    s.tileInj true t k port arg b = s.setTile t (if k = 7 then flipStored (armedTile k port arg b (s.tile t)) else armedTile k port arg b (s.tile t)) := by
  obtain ⟨hkind, hdir, -⟩ := bits_tileInjWord (k := k) (port := port) (b := b) (by omega) hport hb
  have hreach := State.reachable_of_ctlCode hgo
  unfold State.tileInj
  rw [hreach, hinj]
  change State.tileInject (s.setTile t (csrPut (s.tile t) 0xB04 (BitVec.ofNat 32 (arg % 2 ^ 17)))) true t (tileInjWord k port b) = _
  unfold State.tileInject
  rw [State.tileAccess_reached ((s.ctlCode_setTile _ _ t).trans hgo) ((s.ctlReturns_setTile _ _ t).trans hback), hkind, hdir,
    State.tile_setTile_self _ hwf, State.setTile_setTile _ _ hwf]
  have hpart : (s.setTile t (csrPut (s.tile t) 0xB04 (BitVec.ofNat 32 (arg % 2 ^ 17)))).tilePart t = s.tilePart t := rfl
  have hadmits : (s.setTile t (csrPut (s.tile t) 0xB04 (BitVec.ofNat 32 (arg % 2 ^ 17)))).injectable (s.tilePart t) = true := hinj
  have hpolicy : (decide (k = 8) && !(decide (s.tilePart t < 8) && (s.part (s.tilePart t)).debug)) = false := by
    by_cases h8 : k = 8
    · obtain ⟨hlt, hdbg⟩ := hdebug h8
      simp [hlt, hdbg]
    · simp [h8]
  have hvalue : (decide (9 ≤ k) || (decide (k = 5) && !(decide (1 ≤ port) && decide (port ≤ 4)))) = false := by
    by_cases h5 : k = 5
    · obtain ⟨hlo, hhi⟩ := hlink h5
      simp [h5, hlo, hhi]
    · simp [h5]
      omega
  rw [hpart, hadmits, if_neg (by simp)]
  exact (if_neg (ne_true_of_eq_false hpolicy)).trans (if_neg (ne_true_of_eq_false hvalue))

end Sys2Proof.Machine
end

section
/-!
Fault injections that are admitted, at a tile, a site, a port and the power units.
-/

namespace Sys2Proof.Machine

/-- A kind other than 7 changes the registers of its tile alone. -/
theorem State.tileInj_shows {s : State} {t k port arg b : Nat} (hgo : s.ctlCode t = none) (hback : s.ctlReturns t = true)
    (hinj : s.injectable (s.tilePart t) = true) (hcanon : s.canonical = true) (hk : k ≤ 8) (h7 : k ≠ 7) (hport : port < 8) (harg : arg < 2 ^ 17)
    (hb : b < 32) (hdebug : k = 8 → s.tilePart t < 8 ∧ (s.part (s.tilePart t)).debug = true) (hlink : k = 5 → 1 ≤ port ∧ port ≤ 4) :
    ∃ c : Map Word, s.tileInj true t k port arg b = s.setTile t { s.tile t with csr := c } ∧ injKind { s.tile t with csr := c } = k ∧
      injArg { s.tile t with csr := c } = arg ∧ injBit { s.tile t with csr := c } = b := by
  have hkept : s.Kept s.pending True := ⟨rfl, fun _ => hcanon⟩
  have harmed := State.tileInj_armed (arg := arg) hgo hback hinj (State.canon hcanon).tiles hk hport hb hdebug hlink
  rw [if_neg h7] at harmed
  exact ⟨(armedTile k port arg b (s.tile t)).csr, harmed, armedTile_shows (hkept.tile.csrWf trivial) (by omega) hport harg hb⟩

/-- Kind 7 flips two bits of the word at once, and is armed no longer. -/
theorem flipStored_armed {x : Tile} {arg b : Nat} (hwf : Map.wf (regReset tileRegs) x.csr = true) (harg : arg < 98304) (hb : b < 32) :
    flipStored (armedTile 7 0 arg b x) = { injFire (armedTile 7 0 arg b x) with
      spd := Map.set (fun _ => 0#32) x.spd arg (Map.get (fun _ => 0#32) x.spd arg ^^^ BitVec.ofNat 32 (2 ^ b + 2 ^ (b ^^^ 1))),
      injWord := some (arg, Map.get (fun _ => 0#32) x.spd arg ^^^ BitVec.ofNat 32 (2 ^ b + 2 ^ (b ^^^ 1))) } := by
  obtain ⟨-, hshown, hbit⟩ := armedTile_shows (k := 7) (port := 0) (arg := arg) hwf (by decide) (by decide) (by omega) hb
  unfold flipStored
  rw [hshown, hbit, if_neg (by omega)]
  rfl

theorem Site.wf_csrPut {x : Site} (hwf : Map.wf (regReset siteRegs) x.csr = true) (o : Nat) (v : Word) :
    Map.wf (regReset siteRegs) (x.csrPut o v).csr = true := Map.wf_set hwf

/-! SITE_INJ. -/

/-- The word written to SITE_INJ. -/
def siteInjWord (k unit count temp : Nat) : Word :=
  BitVec.ofNat 32 (k * 2 ^ 28 + count % 4 * 2 ^ 26 + unit / 2 ^ 32 % 4 * 2 ^ 24 + temp % 256 * 2 ^ 16)

theorem bits_siteInjWord {k unit count temp : Nat} (hk : k < 8) (hunit : unit < 2 ^ 28) (hcount : count < 4) (htemp : temp < 256) :
    bits (siteInjWord k unit count temp) 30 28 = k ∧ bits (siteInjWord k unit count temp) 27 26 = count ∧
      bits (siteInjWord k unit count temp) 25 24 = 0 ∧ bits (siteInjWord k unit count temp) 23 16 = temp := by
  simp only [bits, siteInjWord, BitVec.toNat_ofNat, Nat.shiftRight_eq_div_pow]
  omega

/-- SITE_INJ as its table gives it. -/
def siteInjReg : Reg := ⟨0x30, 0, 1, 0x0, 0x7FFF0000, 0x80000000, 0x0, false⟩

theorem regAt_siteInj : regAt siteRegs 0x30 = some siteInjReg := by decide

/-- A site that may take an injection refuses none of a good value. -/
theorem State.siteRefused_inj {s : State} {n : Nat} {v : Word} (hinj : s.injectable (s.site n).owner = true) (hvalue : siteValueBad 0x30 v = false) :
    s.siteRefused n 0x30 v = none := by
  have hstate : s.siteStateBad n 0x30 v = false := rfl
  unfold State.siteRefused
  rw [regAt_siteInj]
  simp [siteInjReg, hinj, hvalue, hstate]

theorem State.siteAccepted_inj (s : State) (n : Nat) (v : Word) : s.siteAccepted n 0x30 v = s.setSite n
    (if bits v 30 28 = 4 then { (s.site n).csrPut 0x30 (setBits (setBit (regWrite siteInjReg ((s.site n).csrWord 0x30) v) 31 true) 30 28 0) with
        tempSub := some (bits v 23 16) }
      else (s.site n).csrPut 0x30 (regWrite siteInjReg ((s.site n).csrWord 0x30) v)) := by
  unfold State.siteAccepted
  rw [regAt_siteInj]
  rfl

/-- An admitted injection of a site writes UNIT, then SITE_INJ. -/
theorem State.siteInj_accepted {s : State} {n k unit count temp : Nat} (hcanon : s.canonical = true) (hinj : s.injectable (s.site n).owner = true)
    (hvalue : siteValueBad 0x30 (siteInjWord k unit count temp) = false) :
    s.siteInj true n k unit count temp =
      (s.setSite n ((s.site n).csrPut 0x34 (BitVec.ofNat 32 unit))).siteAccepted n 0x30 (siteInjWord k unit count temp) := by
  have howner : ((s.setSite n ((s.site n).csrPut 0x34 (BitVec.ofNat 32 unit))).site n).owner = (s.site n).owner := by
    rw [State.site_setSite_self _ (State.canon hcanon).sites]
    exact congrArg (bits · 3 0) (Site.csrWord_csrPut_ne _ ((State.canon hcanon).siteCsr n) (by decide))
  have hinj1 : (s.setSite n ((s.site n).csrPut 0x34 (BitVec.ofNat 32 unit))).injectable
      ((s.setSite n ((s.site n).csrPut 0x34 (BitVec.ofNat 32 unit))).site n).owner = true := by
    rw [howner]
    exact hinj
  have hunder : s.siteInj true n k unit count temp = if (true && (s.siteRefused n 0x30 (siteInjWord k unit count temp)).isNone) = true then
      (s.setSite n ((s.site n).csrPut 0x34 (BitVec.ofNat 32 unit))).siteWrite true n 0x30 (siteInjWord k unit count temp)
    else s.siteWrite true n 0x30 (siteInjWord k unit count temp) := rfl
  rw [hunder, State.siteRefused_inj hinj hvalue, if_pos (by decide), State.siteWrite_accepted (State.siteRefused_inj hinj1 hvalue)]

/-- A memory injection is armed for its unit. -/
theorem State.siteInj_armed {s : State} {n k unit count : Nat} (hcanon : s.canonical = true) (hinj : s.injectable (s.site n).owner = true)
    (hk : 1 ≤ k ∧ k ≤ 3) (hunit : unit < 2 ^ 28) (hcount : 1 ≤ count ∧ count ≤ 2) :
    ∃ c : Map Word, s.siteInj true n k unit count 0 = s.setSite n { s.site n with csr := c } ∧
      siteInjHit { s.site n with csr := c } k unit = true ∧ bits ({ s.site n with csr := c }.csrWord 0x30) 27 26 = count := by
  obtain ⟨hkind, hnumber, hhigh, -⟩ := bits_siteInjWord (k := k) (count := count) (temp := 0) (by omega) hunit (by omega) (by decide)
  have hvalue : siteValueBad 0x30 (siteInjWord k unit count 0) = false := by
    simp only [siteValueBad, hkind, hnumber]
    simp
    omega
  have hwf := (State.canon hcanon).siteCsr n
  have hwf1 := Site.wf_csrPut hwf 0x34 (BitVec.ofNat 32 unit)
  have hsites := (State.canon hcanon).sites
  refine ⟨(((s.site n).csrPut 0x34 (BitVec.ofNat 32 unit)).csrPut 0x30 (regWrite siteInjReg
    (((s.site n).csrPut 0x34 (BitVec.ofNat 32 unit)).csrWord 0x30) (siteInjWord k unit count 0))).csr, ?_, ?_, ?_⟩
  · rw [State.siteInj_accepted hcanon hinj hvalue, State.siteAccepted_inj, hkind, if_neg (by omega), State.site_setSite_self _ hsites,
      State.setSite_setSite _ _ hsites]
    rfl
  · change siteInjHit (((s.site n).csrPut 0x34 (BitVec.ofNat 32 unit)).csrPut 0x30 _) k unit = true
    unfold siteInjHit
    dsimp only
    rw [Site.csrWord_csrPut_self _ hwf1, Site.csrWord_csrPut_ne _ hwf1 (by decide), Site.csrWord_csrPut_self _ hwf,
      bits_regWrite (r := siteInjReg) (hi := 30) (lo := 28) _ _ (by decide) (by decide),
      bits_regWrite (r := siteInjReg) (hi := 25) (lo := 24) _ _ (by decide) (by decide), hkind, hhigh, BitVec.toNat_ofNat,
      Nat.mod_eq_of_lt (by omega)]
    simp
  · change bits ((((s.site n).csrPut 0x34 (BitVec.ofNat 32 unit)).csrPut 0x30 _).csrWord 0x30) 27 26 = count
    rw [Site.csrWord_csrPut_self _ hwf1, bits_regWrite _ _ (by decide) (by decide), hnumber]

/-- An injected temperature takes the place of the stack's own. -/
theorem State.siteInj_temp {s : State} {n temp : Nat} (hcanon : s.canonical = true) (hinj : s.injectable (s.site n).owner = true) (htemp : temp < 256) :
    ∃ c : Map Word, s.siteInj true n 4 0 0 temp = s.setSite n { s.site n with csr := c, tempSub := some temp } ∧
      bit ({ s.site n with csr := c }.csrWord 0x30) 31 = true ∧ bits ({ s.site n with csr := c }.csrWord 0x30) 30 28 = 0 := by
  obtain ⟨hkind, hnumber, hhigh, hshown⟩ := bits_siteInjWord (k := 4) (unit := 0) (count := 0) (by decide) (by decide) (by decide) htemp
  have hvalue : siteValueBad 0x30 (siteInjWord 4 0 0 temp) = false := by
    simp only [siteValueBad, hkind, hnumber]
    rfl
  have hwf := (State.canon hcanon).siteCsr n
  have hwf1 := Site.wf_csrPut hwf 0x34 (BitVec.ofNat 32 0)
  have hsites := (State.canon hcanon).sites
  refine ⟨(((s.site n).csrPut 0x34 (BitVec.ofNat 32 0)).csrPut 0x30 (setBits (setBit (regWrite siteInjReg
    (((s.site n).csrPut 0x34 (BitVec.ofNat 32 0)).csrWord 0x30) (siteInjWord 4 0 0 temp)) 31 true) 30 28 0)).csr, ?_, ?_, ?_⟩
  · rw [State.siteInj_accepted hcanon hinj hvalue, State.siteAccepted_inj, hkind, if_pos rfl, State.site_setSite_self _ hsites,
      State.setSite_setSite _ _ hsites, hshown]
    rfl
  · change bit ((((s.site n).csrPut 0x34 (BitVec.ofNat 32 0)).csrPut 0x30 _).csrWord 0x30) 31 = true
    rw [Site.csrWord_csrPut_self _ hwf1, bit_setBits_ne _ (by decide) _ (by decide), setBit, bit_setBits_self _ (by decide)]
    rfl
  · change bits ((((s.site n).csrPut 0x34 (BitVec.ofNat 32 0)).csrPut 0x30 _).csrWord 0x30) 30 28 = 0
    rw [Site.csrWord_csrPut_self _ hwf1, bits_setBits_self _ (by decide) (by decide)]

/-! HALO_INJ. -/

/-- HALO_INJ as its table gives it. -/
def haloInjReg : Reg := ⟨0x20, 0, 1, 0x0, 0x7FFF0000, 0x80000000, 0x0, false⟩

theorem regAt_haloInj : regAt portRegs 0x20 = some haloInjReg := by decide

theorem bits_haloInjWord {k lane count : Nat} (hk : k < 8) (hlane : lane < 16) (hcount : count < 256) : bits (haloInjWord k lane count) 30 28 = k ∧
    bits (haloInjWord k lane count) 27 24 = lane ∧ bits (haloInjWord k lane count) 23 16 = count := by
  simp only [bits, haloInjWord, BitVec.toNat_ofNat, Nat.shiftRight_eq_div_pow]
  omega

theorem State.portAccepted_inj (s : State) (q : Nat) (v : Word) : s.portAccepted q 0x20 v =
    (s.setPort q ((s.port q).csrPut 0x20 (regWrite haloInjReg ((s.port q).csrWord 0x20) v))).portInject q v := by
  unfold State.portAccepted
  rw [regAt_haloInj]
  exact (if_neg (by decide)).trans (if_pos rfl)

/-- An admitted injection of a port arms it, and acts. -/
theorem State.portWrite_inj {s : State} {q k lane count : Nat} (hinj : s.injectable (s.portOwner q) = true) (hk : k < 4) (hlane : lane < 9)
    (hcount : count < 256) (hsome : k = 2 → 1 ≤ count) : s.portWrite true q 0x20 (haloInjWord k lane count) =
      (s.setPort q ((s.port q).csrPut 0x20 (regWrite haloInjReg ((s.port q).csrWord 0x20) (haloInjWord k lane count)))).portInject q
        (haloInjWord k lane count) := by
  obtain ⟨hkind, hdir, hnumber⟩ := bits_haloInjWord (k := k) (lane := lane) (count := count) (by omega) (by omega) hcount
  have hvalue : portValueBad 0x20 (haloInjWord k lane count) = false := by
    simp only [portValueBad, hkind, hdir, hnumber]
    simp
    omega
  have hstate : portStateBad (s.port q) 0x20 (haloInjWord k lane count) = false := by simp [portStateBad]
  have hadmitted : s.portRefused q 0x20 (haloInjWord k lane count) = none := by
    unfold State.portRefused
    rw [regAt_haloInj]
    simp [hinj, hvalue, hstate]
  rw [State.portWrite, State.privileged_true, hadmitted]
  exact s.portAccepted_inj q _

theorem State.portInject_crc (s : State) (q : Nat) : s.portInject q (haloInjWord 1 0 0) = s := by
  obtain ⟨hkind, -⟩ := bits_haloInjWord (k := 1) (lane := 0) (count := 0) (by decide) (by decide) (by decide)
  unfold State.portInject
  rw [hkind]
  rfl

/-! EZ_INJ. -/

/-- One bit of a word as a field of it. -/
theorem bit_eq_bits {n : Nat} (w : BitVec n) (i : Nat) : bit w i = decide (bits w i i = 1) := by
  have htest : (bits w i i).testBit 0 = bit w i := by
    rw [testBit_bits, decide_eq_true (by omega)]
    rfl
  rw [← htest, Nat.testBit_zero, Nat.mod_eq_of_lt]
  exact (bits_lt w).trans_eq (by rw [Nat.add_sub_cancel_left, Nat.pow_one])

/-- The word written to EZ_INJ. -/
def ezInjWord (k target sensor value : Nat) : Word :=
  BitVec.ofNat 32 (2 ^ 31 + k * 2 ^ 27 + target % 128 * 2 ^ 20 + sensor % 16 * 2 ^ 16 + value % 65536)

theorem bits_ezInjWord {k target : Nat} (hk : k < 16) (htarget : target < 128) (sensor value : Nat) :
    bit (ezInjWord k target sensor value) 31 = true ∧ bits (ezInjWord k target sensor value) 30 27 = k ∧
      bits (ezInjWord k target sensor value) 26 20 = target := by
  rw [bit_eq_bits]
  simp only [bits, ezInjWord, BitVec.toNat_ofNat, Nat.shiftRight_eq_div_pow, decide_eq_true_eq]
  omega

end Sys2Proof.Machine
end

section
/-!
O37: fault injections.
-/

namespace Sys2Proof.Machine

variable {s : State}

/-- Writing EZ_INJ_DUR changes no condition of EZ_INJ. -/
theorem State.ezInjectable_dur (hwf : Map.wf (regReset modRegs) s.mod.csr = true) (v : Word) (k target : Nat) (htarget : target < 128) :
    (s.ezPut 0x7004 v).ezInjectable k target = s.ezInjectable k target := by
  have hez : (s.ezPut 0x7004 v).ez (pwr target 4) = s.ez (pwr target 4) := State.ez_ezPut_ne v hwf (by unfold pwr; omega)
  have howner : (s.ezPut 0x7004 v).fieldOwner target = s.fieldOwner target := rfl
  have hparts : (s.ezPut 0x7004 v).part = s.part := rfl
  have hadmits : (s.ezPut 0x7004 v).injectable = s.injectable := rfl
  simp only [State.ezInjectable, hez, howner, hparts, hadmits]

/-- An admitted injection of the module is armed with its duration; kind 4 opens the fuse. -/
theorem State.ezArm_armed (hwf : Map.wf (regReset modRegs) s.mod.csr = true) {k target : Nat} (sensor value dur : Nat)
    (hinj : s.ezInjectable k target = true) (hk : k < 16) (htarget : target < 70) :
    s.ezArm true k target sensor value dur = if k = 4 then
        ((s.ezPut 0x7004 (BitVec.ofNat 32 dur)).ezPut 0x7000 (setBit (ezInjWord k target sensor value) 31 false)).fuseOpen target true
      else (s.ezPut 0x7004 (BitVec.ofNat 32 dur)).ezPut 0x7000 (ezInjWord k target sensor value) := by
  obtain ⟨hset, hkind, hdir⟩ := bits_ezInjWord hk (show target < 128 by omega) sensor value
  have hadmitted : (s.ezPut 0x7004 (BitVec.ofNat 32 dur)).ezInjectable k target = true :=
    (State.ezInjectable_dur hwf _ k target (by omega)).trans hinj
  have hfirst : s.ezArm true k target sensor value dur =
      (s.ezPut 0x7004 (BitVec.ofNat 32 dur)).ezInject true (ezInjWord k target sensor value) := if_pos (by rw [hinj]; rfl)
  rw [hfirst, State.ezInject, State.privileged_true, hset, hkind, hdir, hadmitted]
  have hfield : (decide (2 ≤ k) && decide (k ≤ 5) && decide (nFields ≤ target)) = false := by
    rw [decide_eq_false (show ¬ nFields ≤ target from Nat.not_le_of_lt htarget), Bool.and_false]
  rw [hfield]
  exact (if_neg (by decide)).trans ((if_neg (by decide)).trans (if_neg (by decide)))

/-- O37's clause for the module. -/
theorem exec_ezInj (hwf : Map.wf (regReset modRegs) s.mod.csr = true) {f sensor target feed : Nat} (hf : f < 70) (hsensor : sensor < 16)
    (htarget : target < 3) (hfeed : feed < 2) (value dur : Nat) :
    (∀ e ∈ [(Instr.ezInjFeedVoltage true feed value dur, 1, feed, 0, value), (.ezInjSensorReading true f sensor value dur, 2, f, sensor, value),
        (.ezInjSensorInvalid true f sensor dur, 3, f, sensor, 0), (.ezInjCoolant true target value dur, 6, target, 0, value)],
      s.ezInjectable e.2.1 e.2.2.1 = true →
      exec e.1 s = .next ((s.ezPut 0x7004 (BitVec.ofNat 32 dur)).ezPut 0x7000 (ezInjWord e.2.1 e.2.2.1 e.2.2.2.1 e.2.2.2.2))) := by
  have harm (k t sen val : Nat) (hinj : s.ezInjectable k t = true) (hk : k < 16) (hne : k ≠ 4) (ht : t < 70) :
      s.ezArm true k t sen val dur = (s.ezPut 0x7004 (BitVec.ofNat 32 dur)).ezPut 0x7000 (ezInjWord k t sen val) :=
    (State.ezArm_armed hwf sen val dur hinj hk ht).trans (if_neg hne)
  simp only [List.forall_mem_cons, List.not_mem_nil, false_imp_iff, implies_true, and_true]
  refine ⟨fun hinj => ?_, fun hinj => ?_, fun hinj => ?_, fun hinj => ?_⟩
  · exact s.checked_of (decide_eq_true hfeed) (harm _ _ _ _ hinj (by decide) (by decide) (by omega))
  · exact s.checked_of (by simp [hf, hsensor, nFields]) (harm _ _ _ _ hinj (by decide) (by decide) hf)
  · exact s.checked_of (by simp [hf, hsensor, nFields]) (harm _ _ _ _ hinj (by decide) (by decide) hf)
  · exact s.checked_of (decide_eq_true htarget) (harm _ _ _ _ hinj (by decide) (by decide) (by omega))

theorem ezInjWord_phase {f : Nat} (hf : f < 70) (value : Nat) :
    ezInjWord 5 f 0 value = BitVec.ofNat 32 (2 ^ 31 + 5 * 2 ^ 27 + f * 2 ^ 20 + value % 65536) := by
  rw [ezInjWord, Nat.mod_eq_of_lt (show f < 128 by omega), Nat.zero_mod, Nat.zero_mul, Nat.add_zero]

theorem exec_ezInjPhase (hwf : Map.wf (regReset modRegs) s.mod.csr = true) {f : Nat} (hf : f < 70) (value dur : Nat)
    (hinj : s.ezInjectable 5 f = true) : exec (.ezInjPhaseError true f value dur) s =
      .next ((s.ezPut 0x7004 (BitVec.ofNat 32 dur)).ezPut 0x7000 (ezInjWord 5 f 0 value)).reportGuar :=
  s.fieldDo_of hf ((State.ezArm_armed hwf 0 value dur hinj (by decide) hf).trans (if_neg (by decide)))

theorem exec_ezInjStage (hwf : Map.wf (regReset modRegs) s.mod.csr = true) {f : Nat} (hf : f < 70) (hinj : s.ezInjectable 4 f = true) :
    exec (.ezInjStageFault true f) s =
      .next ((((s.ezPut 0x7004 (BitVec.ofNat 32 0)).ezPut 0x7000 (setBit (ezInjWord 4 f 0 0) 31 false)).fuseOpen f true).reportGuar) :=
  s.fieldDo_of hf ((State.ezArm_armed hwf 0 0 0 hinj (by decide) hf).trans (if_pos rfl))

theorem State.ezPut_ezPut_mod (s : State) (o o' : Nat) (v v' : Word) : ∃ m, (s.ezPut o v).ezPut o' v' = { s with mod := m } := ⟨_, rfl⟩

/-- A phase error and a stage fault, at a field. -/
theorem exec_ezInj_field (hwf : Map.wf (regReset modRegs) s.mod.csr = true) {f : Nat} (hf : f < 70) (value dur : Nat) :
    (s.ezInjectable 5 f = true → exec (.ezInjPhaseError true f value dur) s = .next ((s.ezPut 0x7004 (BitVec.ofNat 32 dur)).ezPut 0x7000
      (BitVec.ofNat 32 (2 ^ 31 + 5 * 2 ^ 27 + f * 2 ^ 20 + value % 65536))).reportGuar) ∧
    (s.ezInjectable 4 f = true → ∃ u : State, u.tiles = s.tiles ∧ u.parts = s.parts ∧ u.fields = s.fields ∧
      exec (.ezInjStageFault true f) s = .next (u.fuseOpen f true).reportGuar) := by
  rw [← ezInjWord_phase hf]
  refine ⟨fun hinj => exec_ezInjPhase hwf hf value dur hinj, fun hinj => ?_⟩
  have hexec := exec_ezInjStage hwf hf hinj
  obtain ⟨m, hregs⟩ := State.ezPut_ezPut_mod s 0x7004 0x7000 (BitVec.ofNat 32 0) (setBit (ezInjWord 4 f 0 0) 31 false)
  rw [hregs] at hexec
  exact ⟨{ s with mod := m }, rfl, rfl, rfl, hexec⟩

/-- O37's clause for a port. -/
theorem exec_haloInj {q lane count : Nat} (hq : q < 12) (hlane : lane < 9) (hlo : 1 ≤ count) (hhi : count < 256)
    (hinj : s.injectable (s.portOwner q) = true) :
    ∃ w : Word → Word, let armed (v : Word) : State := s.setPort q ((s.port q).csrPut 0x20 (w v))
      exec (.haloInjCrc true q) s = .next (armed (haloInjWord 1 0 0)) ∧
      exec (.haloInjCodewords true q lane count) s = .next ((armed (haloInjWord 2 lane count)).portInject q (haloInjWord 2 lane count)) ∧
      exec (.haloInjLock true q lane) s = .next ((armed (haloInjWord 3 lane 0)).portInject q (haloInjWord 3 lane 0)) ∧
      bits (w (haloInjWord 1 0 0)) 30 28 = 1 := by
  have hport : decide (q < nPorts) = true := decide_eq_true hq
  refine ⟨fun v => regWrite haloInjReg ((s.port q).csrWord 0x20) v, ?_, ?_, ?_, ?_⟩
  · refine s.checked_of hport ((State.portWrite_inj hinj (by decide) (by decide) (by decide) (by decide)).trans ?_)
    exact State.portInject_crc _ q
  · exact s.checked_of hport (State.portWrite_inj hinj (by decide) hlane hhi fun _ => hlo)
  · exact s.checked_of hport (State.portWrite_inj hinj (by decide) hlane (by decide) (by decide))
  · dsimp only
    rw [bits_regWrite (r := haloInjReg) (hi := 30) (lo := 28) _ _ (by decide) (by decide)]
    decide

/-- O37's clause for a site. -/
theorem exec_siteInj {n unit count temp : Nat} (hn : n < 48) (hcanon : s.canonical = true) (hinj : s.injectable (s.site n).owner = true)
    (hunit : unit < 2 ^ 28) (hlo : 1 ≤ count) (hhi : count ≤ 2) (htemp : temp < 256) :
    let x := s.site n
    (∀ e ∈ [(Instr.siteInjHbm true n unit count, 1), (.siteInjStratus true n unit count, 2), (.siteInjCache true n unit count, 3)],
      ∃ c : Map Word, exec e.1 s = .next (s.setSite n { x with csr := c }) ∧
        siteInjHit { x with csr := c } e.2 unit = true ∧ bits ({ x with csr := c }.csrWord 0x30) 27 26 = count) ∧
    (∃ c : Map Word, exec (.siteInjTemp true n temp) s = .next (s.setSite n { x with csr := c, tempSub := some temp }) ∧
      bit ({ x with csr := c }.csrWord 0x30) 31 = true ∧ bits ({ x with csr := c }.csrWord 0x30) 30 28 = 0) ∧
    exec (.siteInjTempExpiry n) s = .next (s.setSite n
      (if x.tempSub.isSome then { x.csrField 0x30 30 28 0 with tempSub := none } else x)) := by
  have hsite : decide (n < nSites) = true := decide_eq_true hn
  have harmed (k : Nat) (hk : 1 ≤ k ∧ k ≤ 3) := State.siteInj_armed hcanon hinj hk hunit ⟨hlo, hhi⟩
  refine ⟨?_, ?_, s.checked_of hsite rfl⟩
  · simp only [List.forall_mem_cons, List.not_mem_nil, false_imp_iff, implies_true, and_true]
    obtain ⟨c1, h1, hrest1⟩ := harmed 1 (by decide)
    obtain ⟨c2, h2, hrest2⟩ := harmed 2 (by decide)
    obtain ⟨c3, h3, hrest3⟩ := harmed 3 (by decide)
    exact ⟨⟨c1, s.checked_of hsite h1, hrest1⟩, ⟨c2, s.checked_of hsite h2, hrest2⟩, ⟨c3, s.checked_of hsite h3, hrest3⟩⟩
  · obtain ⟨c, h, hrest⟩ := State.siteInj_temp hcanon hinj htemp
    exact ⟨c, s.checked_of hsite h, hrest⟩

theorem csrPut_csr (x : Tile) (o : Nat) (v : Word) : ∃ c : Map Word, csrPut x o v = { x with csr := c } := ⟨_, rfl⟩

/-- Arming and taking effect write registers of the tile alone. -/
theorem injFire_armedTile (k port arg b : Nat) (x : Tile) : ∃ c : Map Word, injFire (armedTile k port arg b x) = { x with csr := c } := by
  obtain ⟨c1, harg⟩ := csrPut_csr x 0xB04 (BitVec.ofNat 32 (arg % 2 ^ 17))
  unfold armedTile
  rw [harg]
  obtain ⟨c2, hword⟩ := csrPut_csr { x with csr := c1 } 0xB00 (tileInjHeld (csrWord { x with csr := c1 } 0xB00) (tileInjWord k port b))
  rw [hword]
  exact ⟨_, rfl⟩

/-- O37's clause for a tile. -/
theorem exec_tileInj {t arg b port : Nat} (ht : isTile t = true) (hgo : s.ctlCode t = none) (hback : s.ctlReturns t = true)
    (hinj : s.injectable (s.tilePart t) = true) (hcanon : s.canonical = true) (harg : arg < 2 ^ 17) (hb : b < 32) (hlo : 1 ≤ port) (hhi : port ≤ 4) :
    let x := s.tile t
    (∀ e ∈ [(Instr.tileInjParity true t arg b, 1), (.tileInjAccumulator true t arg b, 2), (.tileInjFlit true t port arg b, 5),
        (.tileInjAdder true t arg b, 6)],
      ∃ c : Map Word, exec e.1 s = .next (s.setTile t { x with csr := c }) ∧ injKind { x with csr := c } = e.2 ∧
        injArg { x with csr := c } = arg ∧ injBit { x with csr := c } = b) ∧
    (∃ c : Map Word, exec (.tileInjLane true t b) s = .next (s.setTile t { x with csr := c }) ∧ injKind { x with csr := c } = 3 ∧
      injBit { x with csr := c } = b) ∧
    (∃ c : Map Word, exec (.tileInjInstrParity true t arg) s = .next (s.setTile t { x with csr := c }) ∧ injKind { x with csr := c } = 4 ∧
      injArg { x with csr := c } = arg) ∧
    (s.tilePart t < 8 → (s.part (s.tilePart t)).debug = true → ∃ c : Map Word, exec (.tileInjHazard true t arg) s =
      .next (s.setTile t { x with csr := c }) ∧ injKind { x with csr := c } = 8 ∧ injArg { x with csr := c } = arg) ∧
    (arg < 98304 → ∃ y : Tile, exec (.tileInjStoredBits true t arg b) s = .next (s.setTile t y) ∧ { y with csr := x.csr, spd := x.spd, injWord := x.injWord } = x ∧
      y.spd = Map.set (fun _ => 0#32) x.spd arg (Map.get (fun _ => 0#32) x.spd arg ^^^ BitVec.ofNat 32 (2 ^ b + 2 ^ (b ^^^ 1))) ∧
      y.injWord = some (arg, Map.get (fun _ => 0#32) x.spd arg ^^^ BitVec.ofNat 32 (2 ^ b + 2 ^ (b ^^^ 1))) ∧ injKind y = 0) := by
  have hshows (k p a c : Nat) (hk : k ≤ 8) (h7 : k ≠ 7) (hp : p < 8) (ha : a < 2 ^ 17) (hc : c < 32)
      (hdebug : k = 8 → s.tilePart t < 8 ∧ (s.part (s.tilePart t)).debug = true) (hlink : k = 5 → 1 ≤ p ∧ p ≤ 4) :=
    State.tileInj_shows hgo hback hinj hcanon hk h7 hp ha hc hdebug hlink
  refine ⟨?_, ?_, ?_, fun hpart hdebug => ?_, fun hword => ?_⟩
  · simp only [List.forall_mem_cons, List.not_mem_nil, false_imp_iff, implies_true, and_true]
    obtain ⟨c1, h1, hrest1⟩ := hshows 1 0 arg b (by decide) (by decide) (by decide) harg hb nofun nofun
    obtain ⟨c2, h2, hrest2⟩ := hshows 2 0 arg b (by decide) (by decide) (by decide) harg hb nofun nofun
    obtain ⟨c5, h5, hrest5⟩ := hshows 5 port arg b (by decide) (by decide) (by omega) harg hb nofun fun _ => ⟨hlo, hhi⟩
    obtain ⟨c6, h6, hrest6⟩ := hshows 6 0 arg b (by decide) (by decide) (by decide) harg hb nofun nofun
    exact ⟨⟨c1, s.onTileOk_of ht h1, hrest1⟩, ⟨c2, s.onTileOk_of ht h2, hrest2⟩, ⟨c5, s.onTileOk_of ht h5, hrest5⟩,
      ⟨c6, s.onTileOk_of ht h6, hrest6⟩⟩
  · obtain ⟨c, h, hkind, -, hbit⟩ := hshows 3 0 0 b (by decide) (by decide) (by decide) (by decide) hb nofun nofun
    exact ⟨c, s.onTileOk_of ht h, hkind, hbit⟩
  · obtain ⟨c, h, hkind, harg', -⟩ := hshows 4 0 arg 0 (by decide) (by decide) (by decide) harg (by decide) nofun nofun
    exact ⟨c, s.onTileOk_of ht h, hkind, harg'⟩
  · obtain ⟨c, h, hkind, harg', -⟩ := hshows 8 0 arg 0 (by decide) (by decide) (by decide) harg (by decide) (fun _ => ⟨hpart, hdebug⟩) nofun
    exact ⟨c, s.onTileOk_of ht h, hkind, harg'⟩
  · have hkept : s.Kept s.pending True := ⟨rfl, fun _ => hcanon⟩
    have hwf := (hkept.tile (t := t)).csrWf trivial
    have harmed := State.tileInj_armed (k := 7) (port := 0) (arg := arg) hgo hback hinj (State.canon hcanon).tiles (by decide) (by decide) hb
      nofun nofun
    rw [if_pos rfl, flipStored_armed hwf hword hb] at harmed
    have hfired := injKind_injFire (wf_armedTile hwf 7 0 arg b)
    obtain ⟨c, hregs⟩ := injFire_armedTile 7 0 arg b (s.tile t)
    rw [hregs] at harmed hfired
    exact ⟨_, s.onTileOk_of ht harmed, rfl, rfl, rfl, hfired⟩

end Sys2Proof.Machine

namespace Sys2Proof

open Machine

/-- Settles O37, a clause for each kind of unit: the word that each command writes passes the checks of its register, and shows its
KIND and argument once written. -/
theorem injections : Obligations.Injections := by
  unfold Obligations.Injections
  intro s
  refine ⟨?_, ?_, ?_, ?_, rfl⟩
  · intro t arg b port ht hgo hback hinj hcanon harg hb hlo hhi
    exact exec_tileInj ht hgo hback hinj hcanon harg hb hlo hhi
  · intro n unit count temp hn hcanon hinj hunit hlo hhi htemp
    exact exec_siteInj hn hcanon hinj hunit hlo hhi htemp
  · intro q lane count hq hlane hlo hhi hinj
    exact exec_haloInj hq hlane hlo hhi hinj
  · intro f sensor target feed value dur hwf hf hsensor htarget hfeed
    exact ⟨exec_ezInj hwf hf hsensor htarget hfeed value dur, exec_ezInj_field hwf hf value dur⟩

end Sys2Proof
end

section
/-!
O38: fingerprint sweeps, field self-tests and the march of a site memory.
-/

namespace Sys2Proof.Map

variable {α : Type} (d : Nat → α) (m : Map α) (k : Nat) (x y : α)

/-! A key just listed, in any list of entries. -/

theorem insert_insert : insert (insert m k x) k y = insert m k y := by
  induction m with
  | nil => simp [insert]
  | cons e m ih =>
    obtain ⟨j, v⟩ := e
    simp only [insert]
    split
    · simp [insert]
    · split <;> simp_all [insert]

theorem erase_insert : erase (insert m k x) k = erase m k := by
  induction m with
  | nil => simp [insert, erase]
  | cons e m ih =>
    obtain ⟨j, v⟩ := e
    simp only [insert, erase]
    split
    · simp [erase]
    · split <;> simp_all [erase]

variable {d m k x} [DecidableEq α]

theorem get_set_of_ne_default (hx : x ≠ d k) : get d (set d m k x) k = x := by
  rw [set, if_neg hx, get_insert_self]

theorem set_set_of_ne_default (hx : x ≠ d k) : set d (set d m k x) k y = set d m k y := by
  rw [set, set, set, if_neg hx, erase_insert, insert_insert]

end Sys2Proof.Map

namespace Sys2Proof.Machine

/-! A sweep starts and stops. -/

/-- TILE_FP_CTL as its table gives it. -/
def fpCtlReg : Reg := ⟨0xB18, 0, 1, 0x8000000, 0xFF000000, 0x0, 0x3, false⟩

theorem regAt_fpCtl : regAt tileRegs 0xB18 = some fpCtlReg := by decide

theorem bits_fpCommand (x : Tile) {cmd : Nat} (hcmd : cmd < 4) : bits (fpCommand x cmd) 31 24 = bits (csrWord x 0xB18) 31 24 ∧
    bits (fpCommand x cmd) 1 0 = cmd := by
  have hgroups : bits (csrWord x 0xB18) 31 24 < 2 ^ 8 := bits_lt _
  rw [fpCommand]
  generalize bits (csrWord x 0xB18) 31 24 = n at hgroups ⊢
  simp only [bits, BitVec.toNat_ofNat, Nat.shiftRight_eq_div_pow]
  omega

/-- The tile with a command in TILE_FP_CTL. -/
def fpOrdered (x : Tile) (cmd : Nat) : Tile := csrPut x 0xB18 (regWrite fpCtlReg (csrWord x 0xB18) (fpCommand x cmd))

theorem fpGroups_csr (x : Tile) (c : Map Word) : fpGroups { x with csr := c } = fpGroups x := rfl

section
variable {x : Tile} (hwf : Map.wf (regReset tileRegs) x.csr = true) {cmd : Nat} (hcmd : cmd < 4)
include hwf hcmd

theorem bits_fpOrdered : bits (csrWord (fpOrdered x cmd) 0xB18) 31 24 = bits (csrWord x 0xB18) 31 24 := by
  rw [fpOrdered, csrWord_csrPut_self hwf, bits_regWrite _ _ (by decide) (by decide), (bits_fpCommand x hcmd).1]

/-- BUSY is as it is set, and NGRP as it was. -/
theorem fpOrdered_busy (n v : Nat) :
    bit (csrWord (csrField { fpOrdered x cmd with fpLeft := n } 0xB18 2 2 v) 0xB18) 2 = v.testBit 0 ∧
      bits (csrWord (csrField { fpOrdered x cmd with fpLeft := n } 0xB18 2 2 v) 0xB18) 31 24 = bits (csrWord x 0xB18) 31 24 := by
  have hwf1 : Map.wf (regReset tileRegs) { fpOrdered x cmd with fpLeft := n }.csr = true := wf_csrPut hwf _ _
  rw [csrField, csrWord_csrPut_self hwf1, bits_setBits_apart _ (by decide) _ (by decide), bit_setBits_self _ (by decide)]
  exact ⟨rfl, bits_fpOrdered hwf hcmd⟩

end

section
variable {s : State} {t : Nat} (hgo : s.ctlCode t = none) (hback : s.ctlReturns t = true) (hrun : runBit (s.tile t) = false)
include hgo hback hrun

theorem State.fpWrite_start (hbusy : bit (csrWord (s.tile t) 0xB18) 2 = false) :
    s.fpWrite true t 0xB18 (fpCommand (s.tile t) 1) = s.setTile t (fpStart (fpOrdered (s.tile t) 1)) := by
  rw [State.fpWrite, State.tileAccess_reached hgo hback, hrun, regAt_fpCtl, (bits_fpCommand _ (by decide)).2, hbusy]
  rfl

theorem State.fpWrite_stop : s.fpWrite true t 0xB18 (fpCommand (s.tile t) 2) = s.setTile t (fpStop (fpOrdered (s.tile t) 2)) := by
  rw [State.fpWrite, State.tileAccess_reached hgo hback, hrun, regAt_fpCtl, (bits_fpCommand _ (by decide)).2]
  rfl

end

/-- Where a tile has groups a sweep is over NGRP of them, all for 0. -/
theorem fpStart_groups {x : Tile} (hgroups : fpGroups x ≠ []) : fpStart x = csrField { x with
    fpLeft := if bits (csrWord x 0xB18) 31 24 = 0 then (fpGroups x).length else bits (csrWord x 0xB18) 31 24 } 0xB18 2 2 1 :=
  if_neg (by simpa using hgroups)

/-- O38's clause for the start and the stop of a sweep. -/
theorem exec_fpSweep {s : State} {t : Nat} (ht : isTile t = true) (hcanon : s.canonical = true) (hgo : s.ctlCode t = none)
    (hback : s.ctlReturns t = true) (hrun : runBit (s.tile t) = false) :
    let x := s.tile t
    (fpGroups x ≠ [] → bit (csrWord x 0xB18) 2 = false →
      ∃ c : Map Word, bit (csrWord { x with csr := c } 0xB18) 2 = true ∧ bits (csrWord { x with csr := c } 0xB18) 31 24 = bits (csrWord x 0xB18) 31 24 ∧
        exec (.fpSweepStart true t) s = .next (s.setTile t
          (let n := bits (csrWord x 0xB18) 31 24
          { x with csr := c, fpLeft := (if n = 0 then (fpGroups x).length else n) }))) ∧
    (∃ c : Map Word, bit (csrWord { x with csr := c } 0xB18) 2 = false ∧
      exec (.fpSweepStop true t) s = .next (s.setTile t { x with csr := c, fpLeft := 0 })) := by
  have hkept : s.Kept s.pending True := ⟨rfl, fun _ => hcanon⟩
  have hwf := (hkept.tile (t := t)).csrWf trivial
  dsimp only
  refine ⟨fun hgroups hbusy => ?_, ?_⟩
  · obtain ⟨hset, hn⟩ := fpOrdered_busy hwf (cmd := 1) (by decide) (if bits (csrWord (s.tile t) 0xB18) 31 24 = 0 then (fpGroups (s.tile t)).length
      else bits (csrWord (s.tile t) 0xB18) 31 24) 1
    refine ⟨_, hset, hn, s.onTileOk_of ht ((State.fpWrite_start hgo hback hrun hbusy).trans (congrArg _ ?_))⟩
    rw [fpStart_groups (x := fpOrdered (s.tile t) 1) hgroups, bits_fpOrdered hwf (by decide)]
    rfl
  · obtain ⟨hclear, -⟩ := fpOrdered_busy hwf (cmd := 2) (by decide) 0 0
    exact ⟨_, hclear, s.onTileOk_of ht (State.fpWrite_stop hgo hback hrun)⟩

/-- O38's clause for a checked group. -/
theorem exec_fpGroupCheck {s u : State} {t : Nat} {g : FpGroup} (ht : isTile t = true) (hon : (s.field (fieldOf t)).power = 2)
    (hrun : runBit (s.tile t) = false) (hbusy : bit (csrWord (s.tile t) 0xB18) 2 = true)
    (hg : (fpGroups (s.tile t))[bits (csrWord (s.tile t) 0xB18) 23 8 % (fpGroups (s.tile t)).length]? = some g)
    (hcheck : s.fpCheck t g = (u, true)) (hleft : 1 < (u.tile t).fpLeft) :
    exec (.fpGroupCheck t) s = .next (u.setTile t (csrField { u.tile t with fpLeft := (u.tile t).fpLeft - 1 } 0xB18 23 8
      ((bits (csrWord (s.tile t) 0xB18) 23 8 % (fpGroups (s.tile t)).length + 1) % (fpGroups (s.tile t)).length))) := by
  have hgoes : (!bit (csrWord (s.tile t) 0xB18) 2 || runBit (s.tile t)) = false := by rw [hbusy, hrun]; rfl
  refine s.onTileOk_of ht ((if_pos hon).trans ?_)
  refine State.fpStep_cases (P := fun v => v = _) (fun hstill => ?_) (fun _ hnone => ?_) (fun g' s1 _ hg' hwaits => ?_) (fun g' s1 _ hg' hmoves => ?_)
  · rw [hgoes] at hstill
    cases hstill
  · rw [hg] at hnone
    cases hnone
  all_goals
    rw [hg] at hg'
    cases hg'
  · rw [hcheck] at hwaits
    cases hwaits
  · rw [hcheck] at hmoves
    cases hmoves
    have hmore : (fpMoved (s.tile t) (u.tile t)).fpLeft ≠ 0 := Nat.sub_ne_zero_of_lt hleft
    rw [if_neg hmore]
    rfl

/-- O38's clause for a group whose fingerprint is that of the image. -/
theorem State.fpCheck_match {s s1 s2 : State} {t : Nat} {g : FpGroup} {b : List Byte} {hit : Bool} (hpull : s.fpPull t g.sumAt 8 = (s1, some b))
    (hmatch : s1.fpMatches t g (ofLeBytes b) = (s2, true, hit)) : s.fpCheck t g = (s2.setTile t (fpCounted (s2.tile t)), true) := by
  refine State.fpCheck_cases (P := fun p => p = (s2.setTile t (fpCounted (s2.tile t)), true)) (fun _ hnone => ?_) (fun _ _ _ _ hsome hgood => ?_)
    (fun _ _ _ _ _ hsome hbad _ => ?_) (fun _ _ _ _ _ _ _ _ _ hsome hbad _ _ => ?_)
  · rw [hpull] at hnone
    cases hnone
  all_goals
    rw [hpull] at hsome
    cases hsome
  · rw [hmatch] at hgood
    cases hgood
    rfl
  all_goals
    rw [hmatch] at hbad
    cases hbad

/-! Field tests. -/

section
variable {s : State} {f k : Nat}

theorem State.startTest_admitted (hbusy : testBusy (s.field f) = false) (hlo : 1 ≤ k) (hhi : k ≤ 4) (hok : k ≠ 4 → s.testable f = true) :
    s.startTest true f k = s.setField f ((s.field f).csrPut 0x20 (BitVec.ofNat 32 (k * 2 ^ 24 + 4))) := by
  have hkind : (decide (k = 0) || decide (5 ≤ k)) = false := by simp; omega
  have hadmits : (decide (k ≠ 4) && !s.testable f) = false := by
    by_cases h4 : k = 4
    · simp [h4]
    · simp [hok h4]
  rw [State.startTest, State.privileged_true, hbusy, if_neg (by decide)]
  exact (if_neg (ne_true_of_eq_false hkind)).trans (if_neg (ne_true_of_eq_false hadmits))

theorem State.jobTest_admitted (hbusy : testBusy (s.field f) = false) (hlo : 1 ≤ k) (hhi : k ≤ 4)
    (hok : k ≠ 4 → s.testable f = true ∧ s.testAllowed f = true) :
    s.jobTest true f k = s.setField f ((s.field f).csrPut 0x20 (BitVec.ofNat 32 (k * 2 ^ 24 + 4))) := by
  refine Eq.trans (if_neg ?_) (State.startTest_admitted hbusy hlo hhi fun h4 => (hok h4).1)
  by_cases h4 : k = 4
  · simp [h4]
  · simp [(hok h4).2]

/-- O38's clause for the start of a field test. -/
theorem exec_fieldTests (hf : f < 70) (hbusy : testBusy (s.field f) = false) :
    (∀ e ∈ [(1, Instr.fieldLogicTest true f), (2, .fieldLinkTest true f), (3, .rateCalibration true f)],
      s.testable f = true → s.testAllowed f = true →
      exec e.2 s = .next (s.setField f ((s.field f).csrPut 0x20 (BitVec.ofNat 32 (e.1 * 2 ^ 24 + 4)))).reportGuar) ∧
    exec (.sensorCheck true f) s = .next (s.setField f ((s.field f).csrPut 0x20 (BitVec.ofNat 32 (4 * 2 ^ 24 + 4)))).reportGuar := by
  have hstart (k : Nat) (hk : 1 ≤ k ∧ k ≤ 4) (htest : s.testable f = true) (hallowed : s.testAllowed f = true) :=
    State.jobTest_admitted hbusy hk.1 hk.2 fun _ => ⟨htest, hallowed⟩
  refine ⟨?_, s.fieldDo_of hf (State.jobTest_admitted hbusy (by decide) (by decide) fun h => absurd rfl h)⟩
  simp only [List.forall_mem_cons, List.not_mem_nil, false_imp_iff, implies_true, and_true]
  exact ⟨fun h1 h2 => s.fieldDo_of hf (hstart 1 (by decide) h1 h2), fun h1 h2 => s.fieldDo_of hf (hstart 2 (by decide) h1 h2),
    fun h1 h2 => s.fieldDo_of hf (hstart 3 (by decide) h1 h2)⟩

/-- O38's clause for a link test or a rate calibration that is complete. -/
theorem exec_fldTestComplete_link (hf : f < 70) (hbusy : testBusy (s.field f) = true) (hk : k = 2 ∨ k = 3)
    (hkind : bits ((s.field f).csrWord 0x20) 27 24 = k) :
    let ended (r : Nat) : Field := ((s.field f).csrField 0x20 2 2 0).csrField 0x20 15 12 r
    exec (.fldTestComplete f none []) s = .next (s.setField f (ended 1)) ∧
    ∀ u c r, 1 ≤ u → u ≤ 6 → c < 36 → r < 48 → exec (.fldTestComplete f (some (u, c, r)) []) s =
      .next (s.setField f { (ended 2).csrPut 0x24 (BitVec.ofNat 32 (2 ^ 31 + u * 2 ^ 28 + c * 2 ^ 16 + r * 2 ^ 10)) with reserve := false }) := by
  have h4 : k ≠ 4 := by omega
  have h1 : k ≠ 1 := by omega
  refine ⟨s.checked_of (by simp [hf, nFields]) ?_, fun u c r hlo hhi hc hr => s.checked_of (by simp [hf, hlo, hhi, hc, hr, nFields]) ?_⟩
  · simp [State.testDone, hbusy, hkind, h4, h1]
  · simp [State.testDone, hbusy, hkind, h4, h1, Nat.mod_eq_of_lt (show u < 8 by omega), Nat.mod_eq_of_lt (show c < 64 by omega),
      Nat.mod_eq_of_lt (show r < 64 by omega)]

/-- O38's clause for a sensor check that is complete. -/
theorem exec_fldTestComplete_sensors (hf : f < 70) (hbusy : testBusy (s.field f) = true) (hkind : bits ((s.field f).csrWord 0x20) 27 24 = 4) :
    let x := s.field f
    let ended (r : Nat) : Field := (x.csrField 0x20 2 2 0).csrField 0x20 15 12 r
    exec (.fldTestComplete f none []) s = .next (s.setField f { ended 1 with sensed := true }) ∧
    ∀ i < 16, i ∉ x.marked →
      exec (.fldTestComplete f none [i]) s = .next (s.setField f { ended 2 with sensed := true, marked := x.marked ++ [i] }) := by
  have hmarked (r : Nat) : (((s.field f).csrField 0x20 2 2 0).csrField 0x20 15 12 r).marked = (s.field f).marked := rfl
  refine ⟨s.checked_of (by simp [hf, nFields]) ?_, fun i hi hnew => s.checked_of (by simp [hf, hi, nFields]) ?_⟩
  · simp [State.testDone, hbusy, hkind]
  · simp [State.testDone, hbusy, hkind, hmarked, hnew]

end

/-! The march. -/

/-- O38's clause for the march of a dirty site. -/
theorem exec_siteMemoryMarch {s : State} {n : Nat} (hn : n < 48) (hup : s.mod.cc.up = true) (hdirty : (s.site n).dirty = true)
    (howner : (s.site n).owner = 15) (hwiping : (s.site n).wiping = false) (hstate : (s.site n).state = 2) :
    exec (.siteMemoryMarch n []) s = .next (s.setSite n (zeroMemory 0 hbmEnd 1 { s.site n with marched := true })) := by
  refine s.checked_of (decide_eq_true hn) ?_
  have hdefault : { s.site n with marched := true } ≠ blankSite n := fun h => Bool.noConfusion (congrArg Site.marched h)
  have hread : (s.setSite n { s.site n with marched := true }).site n = { s.site n with marched := true } := Map.get_set_of_ne_default hdefault
  have hwrite (y : Site) : (s.setSite n { s.site n with marched := true }).setSite n y = s.setSite n y :=
    congrArg (fun sites => { s with sites := sites }) (Map.set_set_of_ne_default y hdefault)
  have hgoes : (!s.mod.cc.up || !(s.site n).dirty || decide ((s.site n).owner ≠ 15) || (s.site n).wiping || decide ((s.site n).state ≠ 2)) = false := by
    rw [hup, hdirty, howner, hwiping, hstate]
    rfl
  refine (if_neg (ne_true_of_eq_false hgoes)).trans ?_
  dsimp only
  generalize { s.site n with marched := true } = x at hread hwrite ⊢
  rw [State.onSite, hread]
  exact hwrite _

end Sys2Proof.Machine

namespace Sys2Proof

open Machine

/-- Settles O38, a clause for each command: it passes the checks that its premises name, and what it writes is read off. -/
theorem selfTests : Obligations.SelfTests := by
  unfold Obligations.SelfTests
  refine ⟨fun t s ht hcanon => ⟨fun hgo hback hrun => ?_, fun hon hrun hbusy g u hg hcheck hleft => ?_, ?_⟩, fun s => ⟨?_, ?_, ?_, ?_⟩⟩
  · exact exec_fpSweep ht hcanon hgo hback hrun
  · exact exec_fpGroupCheck ht hon hrun hbusy hg hcheck hleft
  · exact fun g s1 s2 b hit hpull hmatch => State.fpCheck_match hpull hmatch
  · exact fun f hf hbusy => exec_fieldTests hf hbusy
  · exact fun f hf => s.fieldDo_of hf rfl
  · intro f hf hbusy
    exact ⟨fun k hkind hk => exec_fldTestComplete_link hf hbusy hk hkind, fun hkind => exec_fldTestComplete_sensors hf hbusy hkind⟩
  · exact fun n hn hup hdirty howner hwiping hstate => exec_siteMemoryMarch hn hup hdirty howner hwiping hstate

end Sys2Proof
end

section
/-!
Registers of the power block written field by field, and what pacing changes: the credit of tiles, `fresh` of fields, and registers.
-/

namespace Sys2Proof.Machine

/-! A field of a module register. -/

section
variable {s : State} (hwf : Map.wf (regReset modRegs) s.mod.csr = true) (o hi lo v : Nat)
include hwf

theorem State.wf_ezField : Map.wf (regReset modRegs) (s.ezField o hi lo v).mod.csr = true := State.ezPut_wf o _ hwf

theorem State.ez_ezField_self : (s.ezField o hi lo v).ez o = setBits (s.ez o) hi lo v := State.ez_ezPut_self o _ hwf

theorem State.ez_ezField_ne {k : Nat} (hk : k ≠ o) : (s.ezField o hi lo v).ez k = s.ez k := State.ez_ezPut_ne _ hwf hk

variable {o hi lo v}

theorem State.bits_ezField_self (hhi : hi < 32) (hv : v < 2 ^ (hi + 1 - lo)) : bits ((s.ezField o hi lo v).ez o) hi lo = v := by
  rw [State.ez_ezField_self hwf, bits_setBits_self _ hhi hv]

theorem State.bits_ezField_apart {h l : Nat} (hhi : hi < 32) (hapart : h < lo ∨ hi < l) :
    bits ((s.ezField o hi lo v).ez o) h l = bits (s.ez o) h l := by
  rw [State.ez_ezField_self hwf, bits_setBits_apart _ hhi _ hapart]

end

/-! What changes with the pace. -/

/-- Two tiles differ in their pacing credit alone; so do all of two states. -/
def SameTiles (s u : State) : Prop := ∀ t, { u.tile t with credit := none } = { s.tile t with credit := none }

theorem SameTiles.of_tiles_eq {s u : State} (h : u.tiles = s.tiles) : SameTiles s u := fun t =>
  congrArg (fun m => { Map.get (fun _ => ({} : Tile)) m t with credit := none }) h

theorem SameTiles.trans {s u v : State} (h : SameTiles s u) (k : SameTiles u v) : SameTiles s v := fun t => (k t).trans (h t)

/-- What a change of levels at fields may change: the pace at which tiles are fed, and the registers `R`. -/
structure PaceWork (R : Nat → Prop) (s u : State) : Prop where
  frame : ∃ tiles fields csr, u = { s with tiles := tiles, fields := fields, mod := { s.mod with csr := csr } }
  fields : Map.wf (fun _ => ({} : Field)) s.fields = true → Map.wf (fun _ => ({} : Field)) u.fields = true ∧
    ∀ k, ∃ fresh, u.field k = { s.field k with fresh := fresh }
  tiles : Map.wf (fun _ => ({} : Tile)) s.tiles = true → Map.wf (fun _ => ({} : Tile)) u.tiles = true ∧ SameTiles s u
  csr : Map.wf (regReset modRegs) s.mod.csr = true → Map.wf (regReset modRegs) u.mod.csr = true ∧ ∀ o, ¬ R o → u.ez o = s.ez o

section
variable {R : Nat → Prop}

theorem PaceWork.refl (s : State) : PaceWork R s s where
  frame := ⟨s.tiles, s.fields, s.mod.csr, rfl⟩
  fields := fun h => ⟨h, fun _ => ⟨_, rfl⟩⟩
  tiles := fun h => ⟨h, fun _ => rfl⟩
  csr := fun h => ⟨h, fun _ _ => rfl⟩

theorem PaceWork.trans {s u v : State} (h : PaceWork R s u) (k : PaceWork R u v) : PaceWork R s v where
  frame := by
    obtain ⟨_, _, _, rfl⟩ := h.frame
    obtain ⟨tiles, fields, csr, rfl⟩ := k.frame
    exact ⟨tiles, fields, csr, rfl⟩
  fields := fun hwf => by
    obtain ⟨hu, hfield⟩ := h.fields hwf
    obtain ⟨hv, kfield⟩ := k.fields hu
    refine ⟨hv, fun f => ?_⟩
    obtain ⟨_, hf⟩ := hfield f
    obtain ⟨fresh, kf⟩ := kfield f
    exact ⟨fresh, by rw [kf, hf]⟩
  tiles := fun hwf => by
    obtain ⟨hu, hsame⟩ := h.tiles hwf
    obtain ⟨hv, ksame⟩ := k.tiles hu
    exact ⟨hv, fun t => (ksame t).trans (hsame t)⟩
  csr := fun hwf => by
    obtain ⟨hu, hsame⟩ := h.csr hwf
    obtain ⟨hv, ksame⟩ := k.csr hu
    exact ⟨hv, fun o ho => (ksame o ho).trans (hsame o ho)⟩

theorem PaceWork.foldl {α : Type} {step : State → α → State} {l : List α} (h : ∀ u, ∀ a ∈ l, PaceWork R u (step u a)) (s : State) :
    PaceWork R s (l.foldl step s) :=
  List.foldlRecOn (motive := PaceWork R s) l step (PaceWork.refl s) fun u hu a ha => hu.trans (h u a ha)

theorem LevelWork.paceWork {f : Nat} {s u : State} (h : LevelWork f s u) (hR : R (pwr f 0)) : PaceWork R s u where
  frame := h.frame
  fields := fun hwf => by
    obtain ⟨hu, hother, hf⟩ := h.fields hwf
    refine ⟨hu, fun k => ?_⟩
    by_cases hk : k = f
    · exact hk ▸ hf
    · exact ⟨_, hother k hk⟩
  tiles := fun hwf => by
    obtain ⟨hu, -, hcredit⟩ := h.tiles hwf
    refine ⟨hu, fun t => ?_⟩
    rcases hcredit t with ht | ht <;> rw [ht]
  csr := fun hwf => by
    obtain ⟨hu, hsame⟩ := h.csr hwf
    exact ⟨hu, fun o ho => hsame o fun heq => ho (heq ▸ hR)⟩

theorem State.ezPut_paceWork (s : State) {o : Nat} (v : Word) (hR : R o) : PaceWork R s (s.ezPut o v) where
  frame := ⟨s.tiles, s.fields, _, rfl⟩
  fields := fun h => ⟨h, fun _ => ⟨_, rfl⟩⟩
  tiles := fun h => ⟨h, fun _ => rfl⟩
  csr := fun h => ⟨Map.wf_set h, fun _ ho => Map.get_set_ne h fun heq => ho (heq ▸ hR)⟩

theorem State.ezField_paceWork (s : State) {o : Nat} (hi lo v : Nat) (hR : R o) : PaceWork R s (s.ezField o hi lo v) :=
  s.ezPut_paceWork _ hR

theorem State.levels_paceWork (s : State) {f : Nat} (hR : R (pwr f 0)) : PaceWork R s (s.levels f) := (s.levels_levelWork f).paceWork hR

end

section
variable {R : Nat → Prop} {s u : State} (h : PaceWork R s u)
include h

theorem PaceWork.sites_eq : u.sites = s.sites := by obtain ⟨_, _, _, hu⟩ := h.frame; rw [hu]
theorem PaceWork.parts_eq : u.parts = s.parts := by obtain ⟨_, _, _, hu⟩ := h.frame; rw [hu]
theorem PaceWork.part_eq (p : Nat) : u.part p = s.part p := congrArg (Map.get (fun _ => ({} : Part)) · p) h.parts_eq

end

/-- A register of a field's power block. -/
def IsPwr (o : Nat) : Prop := 0x1000 ≤ o ∧ o < 0x2000

theorem isPwr_pwr {f o : Nat} (hf : f < 70) (ho : o < 0x20) : IsPwr (pwr f o) := by
  unfold IsPwr pwr
  omega

theorem State.allLevels_paceWork (s : State) : PaceWork IsPwr s s.allLevels :=
  PaceWork.foldl (fun u _ hf => u.levels_paceWork (isPwr_pwr (List.mem_range.mp hf) (by decide))) s

/-- The levels of a field leave its request and the ceilings of its throttle and its governor. -/
theorem State.levels_low {s : State} (f : Nat) {hi lo : Nat} (hhi : hi < 9) (hwf : Map.wf (regReset modRegs) s.mod.csr = true) :
    bits ((s.levels f).ez (pwr f 0)) hi lo = bits (s.ez (pwr f 0)) hi lo := by
  have hpace : (s.paceSync f).ez (pwr f 0) = s.ez (pwr f 0) ∧ Map.wf (regReset modRegs) (s.paceSync f).mod.csr = true := by
    have hcsr : (s.paceSync f).mod = s.mod := by
      unfold State.paceSync
      dsimp only
      split
      · split <;> rfl
      · split <;> rfl
    rw [State.ez, hcsr]
    exact ⟨rfl, hwf⟩
  obtain ⟨hsame, hwf1⟩ := hpace
  refine (State.bits_ezField_apart (State.wf_ezField hwf1 _ _ _ _) (by decide) (.inl (by omega))).trans ?_
  exact (State.bits_ezField_apart hwf1 (by decide) (.inl (by omega))).trans (by rw [hsame])

end Sys2Proof.Machine
end

section
/-!
O43: samples of the feeds, of the coolant and of the sensors; the throttle; the energy window; the pacing tick.
-/

namespace Sys2Proof.Machine

/-- Two states differ in the guarantees of the partitions alone, as far as partitions go. -/
def SameParts (s u : State) : Prop := ∀ p, { u.part p with guar := 0 } = { s.part p with guar := 0 }

theorem SameParts.of_parts_eq {s u : State} (h : u.parts = s.parts) : SameParts s u := fun p =>
  congrArg (fun m => { Map.get (fun _ => ({} : Part)) m p with guar := 0 }) h

theorem SameParts.trans {s u v : State} (h : SameParts s u) (k : SameParts u v) : SameParts s v := fun p => (k p).trans (h p)

theorem State.reportGuar_sameParts {s : State} (hwf : Map.wf (fun _ => ({} : Part)) s.parts = true) : SameParts s s.reportGuar :=
  (s.reportGuar_same.2 hwf).2

theorem State.reportGuar_log (s : State) : s.reportGuar.mod.log = s.mod.log := by
  obtain ⟨_, _, _, h⟩ := s.reportGuar_frame
  rw [h]

/-! The feeds. -/

theorem State.feedState_normal (s : State) (k cls : Nat) (inj : Bool) : s.feedState k 1 cls inj = s.ezField (0x10 * k) 2 0 1 :=
  if_pos (by simp)

theorem State.feedHeld_normal {s : State} (k : Nat) (hwf : Map.wf (regReset modRegs) s.mod.csr = true) :
    (s.ezField (0x10 * k) 2 0 1).feedHeld k =
      (s.ezField (0x10 * k) 2 0 1).ezField (0x10 * k) 2 0 (if Map.get (fun _ => 0) s.mod.pow.gov k = 0 then 1 else 4) :=
  if_pos (by rw [State.bits_ezField_self hwf (by decide) (by decide)]; rfl)

/-- A sample in the normal band counts as good, and short of 10 ms of them nothing follows. -/
theorem countUp_good {m : Map Nat} {k : Nat} (hgood : Map.get (fun _ => 0) m k < 900) :
    Map.get (fun _ => 0) (countUp m k true) k ≠ 1000 := by
  rw [countUp, if_pos rfl, Map.get_set_of_ne_default (show min 1000 (Map.get (fun _ => 0) m k + 1) ≠ 0 by omega)]
  omega

/-- A sample in the normal band writes the registers of its feed. -/
theorem State.feedSample_normal {s : State} {k v : Nat} (hwf : Map.wf (regReset modRegs) s.mod.csr = true) (hon : s.mod.powered = true)
    (hhold : s.mod.holdUp = none) (hinj : s.ezInj 1 k = none) (hlo : 4600 ≤ v) (hhi : v ≤ 5600)
    (hgood : Map.get (fun _ => 0) s.mod.pow.good k < 900) :
    ∃ pow : Pow, s.feedSample k v =
      ((({ s with mod := { s.mod with pow := pow } } : State).ezField (0x10 * k) 31 16 v).ezField (0x10 * k) 2 0 1).ezField (0x10 * k) 2 0
        (if Map.get (fun _ => 0) s.mod.pow.gov k = 0 then 1 else 4) := by
  have hok : (decide (4600 ≤ v) && decide (v ≤ 5700)) = true := by simp; omega
  refine ⟨{ s.mod.pow with low := countUp s.mod.pow.low k (v < 4200), good := countUp s.mod.pow.good k true }, ?_⟩
  unfold State.feedSample
  rw [hon, hhold, hinj, if_neg (by decide)]
  dsimp only
  rw [Option.getD_none, hok, Nat.min_eq_left (show v ≤ 65535 by omega)]
  rw [if_neg (show ¬ 5700 < v by omega), if_pos rfl, if_neg (show ¬ 5600 < v by omega), if_neg (countUp_good hgood), State.feedState_normal,
    State.feedHeld_normal]
  · rfl
  · exact State.wf_ezField hwf _ _ _ _

/-- O43's clause for a feed. -/
theorem exec_feedVoltageSample {s : State} (hcanon : s.canonical = true) {k : Nat} (hk : k < 2) {v : Nat} (hon : s.mod.powered = true)
    (hhold : s.mod.holdUp = none) (hinj : s.ezInj 1 k = none) (hlo : 4600 ≤ v) (hhi : v ≤ 5600)
    (hgood : Map.get (fun _ => 0) s.mod.pow.good k < 900) :
    ∃ u : State, exec (.feedVoltageSample k v) s = .next u ∧ bits (u.ez (0x10 * k)) 31 16 = v ∧
      bits (u.ez (0x10 * k)) 2 0 = (if Map.get (fun _ => 0) s.mod.pow.gov k = 0 then 1 else 4) ∧
      u.fields = s.fields ∧ u.tiles = s.tiles ∧ u.sites = s.sites ∧ SameParts s u ∧ u.mod.log = s.mod.log := by
  have hwf := (State.canon hcanon).modCsr
  obtain ⟨pow, hsample⟩ := State.feedSample_normal hwf hon hhold hinj hlo hhi hgood
  have hwf1 := State.wf_ezField (s := { s with mod := { s.mod with pow := pow } }) hwf (0x10 * k) 31 16 v
  have hwf2 := State.wf_ezField hwf1 (0x10 * k) 2 0 1
  obtain ⟨csr, hframe⟩ : ∃ csr, s.feedSample k v = { s with mod := { s.mod with pow := pow, csr := csr } } := ⟨_, hsample⟩
  refine ⟨(s.feedSample k v).reportGuar, s.checked_of (decide_eq_true hk) rfl, ?_, ?_, ?_, ?_, ?_, ?_, ?_⟩
  · rw [State.reportGuar_ez, hsample, State.bits_ezField_apart hwf2 (by decide) (by decide), State.bits_ezField_apart hwf1 (by decide) (by decide),
      State.bits_ezField_self (s := { s with mod := { s.mod with pow := pow } }) hwf (by decide) (by omega)]
  · rw [State.reportGuar_ez, hsample, State.bits_ezField_self hwf2 (by decide) (by split <;> decide)]
  · rw [State.reportGuar_fields, hframe]
  · rw [State.reportGuar_tiles, hframe]
  · rw [State.reportGuar_sites, hframe]
  · rw [hframe]
    exact State.reportGuar_sameParts (s := { s with mod := { s.mod with pow := pow, csr := csr } }) (State.canon hcanon).parts
  · rw [State.reportGuar_log, hframe]

/-! The coolant. -/

section
variable {s : State} {tin tout flow : Nat}

/-- The word that a sample of the coolant shows. -/
def coolWord (tin tout flow new : Nat) : Word := BitVec.ofNat 32 (min tin 255 * 2 ^ 24 + min tout 255 * 2 ^ 16 + min flow 255 * 2 ^ 8 + new)

/-- The module with a sample shown and ECAP set. -/
def State.cooled (s : State) (pow : Pow) (w : Word) : State := ((({ s with mod := { s.mod with pow := pow } } : State).ezPut 0x30 w).setEcap).allLevels

/-- A sample with no injection, in the condition that stands or in a higher one short of 3. -/
theorem State.coolant_sampled (hinj : ∀ i ∈ List.range 3, s.ezInj 6 i = none) {raw : Nat}
    (hraw : coolRaw tin flow (if flow < 10 then s.mod.pow.flowLow + 1 else 0) = raw) (hcond : raw = s.coolst ∨ (s.coolst < raw ∧ raw < 3)) :
    ∃ pow, s.coolant tin tout flow = s.cooled pow (coolWord tin tout flow raw) ∨
      ∃ r m, Rec.cls r = 4 ∧ s.coolant tin tout flow = ((s.cooled pow (coolWord tin tout flow raw)).raise r).post 8 m := by
  have h0 := hinj 0 (by decide)
  have h1 := hinj 1 (by decide)
  have h2 := hinj 2 (by decide)
  have hheld : ¬ raw < s.coolst := by omega
  have hnew : (if s.coolst < raw then raw else if 100 ≤ 0 then 0 else s.coolst) = raw := by
    rw [if_neg (show ¬ 100 ≤ 0 by decide)]
    split <;> omega
  unfold State.coolant
  dsimp only
  rw [h0, h1, h2, Option.getD_none, Option.getD_none, Option.getD_none, hraw]
  simp only [if_neg hheld]
  rw [hnew]
  refine ⟨{ s.mod.pow with
    flowLow := if flow < 10 then s.mod.pow.flowLow + 1 else 0
    coolHeld := if raw = s.coolst then 0 else 0, coolMax := if raw = s.coolst then 0 else 0 }, ?_⟩
  split
  next => exact .inl rfl
  next hne =>
    rw [if_neg (show ¬ raw = 3 by omega)]
    exact .inr ⟨_, _, rfl, rfl⟩

theorem coolRaw_le (tin flow slow : Nat) : coolRaw tin flow slow ≤ 3 := by
  unfold coolRaw
  split
  · decide
  · split
    · decide
    · split <;> decide

theorem coolWord_eq {new : Nat} (hin : tin < 256) (hout : tout < 256) (hflow : flow < 256) :
    coolWord tin tout flow new = BitVec.ofNat 32 (tin * 2 ^ 24 + tout * 2 ^ 16 + flow * 2 ^ 8 + new) := by
  rw [coolWord, Nat.min_eq_left (by omega), Nat.min_eq_left (by omega), Nat.min_eq_left (by omega)]

theorem bits_coolWord {new : Nat} (hnew : new ≤ 3) : bits (coolWord tin tout flow new) 1 0 = new := by
  simp only [bits, coolWord, BitVec.toNat_ofNat, Nat.shiftRight_zero]
  omega

/-- ECAP follows the coolant, and the levels follow both. -/
theorem State.setEcap_levels {x : State} (hwf : Map.wf (regReset modRegs) x.mod.csr = true) (htiles : Map.wf (fun _ => ({} : Tile)) x.tiles = true) :
    let v := x.setEcap.allLevels
    v.ez 0x30 = x.ez 0x30 ∧ bits (v.ez 0x20) 31 16 = min (bits (x.ez 0x20) 15 0) (coolCap x.coolst) ∧
      Map.wf (regReset modRegs) v.mod.csr = true ∧ SameTiles x v ∧ v.sites = x.sites ∧ v.parts = x.parts := by
  have hcap : min (bits (x.ez 0x20) 15 0) (coolCap x.coolst) < 2 ^ 16 :=
    Nat.lt_of_le_of_lt (Nat.min_le_left _ _) (bits_lt (x.ez 0x20) (hi := 15) (lo := 0))
  have hkept : PaceWork (fun o => IsPwr o ∨ o = 0x20) x x.setEcap := x.ezField_paceWork _ _ _ (.inr rfl)
  have hlevels := x.setEcap.allLevels_paceWork
  obtain ⟨hwf1, hez1⟩ := hkept.csr hwf
  obtain ⟨hwf2, hez2⟩ := hlevels.csr hwf1
  obtain ⟨htiles1, hsame1⟩ := hkept.tiles htiles
  refine ⟨?_, ?_, hwf2, fun t => ((hlevels.tiles htiles1).2 t).trans (hsame1 t), hlevels.sites_eq.trans hkept.sites_eq,
    hlevels.parts_eq.trans hkept.parts_eq⟩
  · exact (hez2 0x30 (by unfold IsPwr; omega)).trans (hez1 0x30 (by unfold IsPwr; omega))
  · rw [hez2 0x20 (by unfold IsPwr; omega)]
    exact State.bits_ezField_self hwf (by decide) hcap

/-- What the module shows after a sample. -/
theorem State.cooled_shows (hcanon : s.canonical = true) {raw : Nat} (hraw : raw ≤ 3) (pow : Pow) :
    let v := s.cooled pow (coolWord tin tout flow raw)
    v.ez 0x30 = coolWord tin tout flow raw ∧ bits (v.ez 0x20) 31 16 = min (bits (s.ez 0x20) 15 0) (coolCap raw) ∧
      Map.wf (regReset modRegs) v.mod.csr = true ∧ SameTiles s v ∧ v.sites = s.sites ∧ v.parts = s.parts := by
  have hwf : Map.wf (regReset modRegs) ({ s with mod := { s.mod with pow := pow } } : State).mod.csr = true := (State.canon hcanon).modCsr
  obtain ⟨x, hx⟩ : ∃ x, x = ({ s with mod := { s.mod with pow := pow } } : State).ezPut 0x30 (coolWord tin tout flow raw) := ⟨_, rfl⟩
  obtain ⟨m, hmod⟩ : ∃ m, x = { s with mod := m } := ⟨_, hx⟩
  have hshown : x.ez 0x30 = coolWord tin tout flow raw := by rw [hx]; exact State.ez_ezPut_self _ _ hwf
  have hlimit : x.ez 0x20 = s.ez 0x20 := by rw [hx]; exact State.ez_ezPut_ne _ hwf (by decide)
  have hwf1 : Map.wf (regReset modRegs) x.mod.csr = true := by rw [hx]; exact State.ezPut_wf _ _ hwf
  have htiles : x.tiles = s.tiles ∧ x.sites = s.sites ∧ x.parts = s.parts := by rw [hmod]; exact ⟨rfl, rfl, rfl⟩
  obtain ⟨htiles, hsites, hparts⟩ := htiles
  obtain ⟨hword, hecap, hwf2, hsame, ksites, kparts⟩ := State.setEcap_levels hwf1 (htiles ▸ (State.canon hcanon).tiles)
  have hcooled : s.cooled pow (coolWord tin tout flow raw) = x.setEcap.allLevels := by rw [State.cooled, hx]
  dsimp only
  rw [hcooled]
  refine ⟨hword.trans hshown, ?_, hwf2, (SameTiles.of_tiles_eq htiles).trans hsame, ksites.trans hsites, kparts.trans hparts⟩
  rw [hecap, hlimit, State.coolst, hshown, bits_coolWord hraw]

/-- A record that is no hard fault, and a notice after it. -/
theorem State.raise_post_same {v : State} {r : Rec} (hr : r.cls ≠ 1) (p : Nat) (m : Msg) (hwf : Map.wf (regReset modRegs) v.mod.csr = true) :
    let u := (v.raise r).post p m
    (∀ o < 0x6000, u.ez o = v.ez o) ∧ u.tiles = v.tiles ∧ u.sites = v.sites ∧ u.parts = v.parts := by
  obtain ⟨csr, log, hraise, hcsr⟩ := State.raise_same (s := v) hr
  obtain ⟨mail, out, hpost⟩ := (v.raise r).post_frame p m
  dsimp only
  rw [hpost, hraise]
  exact ⟨(hcsr hwf).2, rfl, rfl, rfl⟩

/-- O43's clause for the coolant. -/
theorem exec_coolantSample (hcanon : s.canonical = true) (hinj : ∀ i ∈ List.range 3, s.ezInj 6 i = none) (hin : tin < 256) (hout : tout < 256)
    (hflow : flow < 256) :
    let raw := coolRaw tin flow (if flow < 10 then s.mod.pow.flowLow + 1 else 0)
    raw = s.coolst ∨ (s.coolst < raw ∧ raw < 3) →
    ∃ u : State, exec (.coolantSample tin tout flow) s = .next u ∧
      u.ez 0x30 = BitVec.ofNat 32 (tin * 2 ^ 24 + tout * 2 ^ 16 + flow * 2 ^ 8 + raw) ∧
      bits (u.ez 0x20) 31 16 = min (bits (s.ez 0x20) 15 0) (coolCap raw) ∧ SameTiles s u ∧ u.sites = s.sites ∧ SameParts s u := by
  intro raw hcond
  obtain ⟨pow, hcoolant⟩ := State.coolant_sampled (tout := tout) hinj rfl hcond
  obtain ⟨hword, hecap, hwf, htiles, hsites, hparts⟩ := State.cooled_shows (tin := tin) (tout := tout) (flow := flow) hcanon (coolRaw_le _ _ _ : raw ≤ 3) pow
  have hword := hword.trans (coolWord_eq hin hout hflow)
  have hshown : ∃ u, s.coolant tin tout flow = u ∧ u.ez 0x30 = BitVec.ofNat 32 (tin * 2 ^ 24 + tout * 2 ^ 16 + flow * 2 ^ 8 + raw) ∧
      bits (u.ez 0x20) 31 16 = min (bits (s.ez 0x20) 15 0) (coolCap raw) ∧ SameTiles s u ∧ u.sites = s.sites ∧ u.parts = s.parts := by
    rcases hcoolant with h | ⟨r, m, hr, h⟩
    · exact ⟨_, h, hword, hecap, htiles, hsites, hparts⟩
    · obtain ⟨hez, ktiles, ksites, kparts⟩ := State.raise_post_same (r := r) (by rw [hr]; decide) 8 m hwf
      refine ⟨_, h, (hez 0x30 (by decide)).trans hword, (congrArg (bits · 31 16) (hez 0x20 (by decide))).trans hecap, htiles.trans (.of_tiles_eq ktiles),
        ksites.trans hsites, kparts.trans hparts⟩
  obtain ⟨u, hu, hword, hecap, htiles, hsites, hparts⟩ := hshown
  have hsame : SameParts u u.reportGuar := State.reportGuar_sameParts (by rw [hparts]; exact (State.canon hcanon).parts)
  refine ⟨u.reportGuar, congrArg (fun v => Host.Outcome.next (State.reportGuar v)) hu, ?_, ?_, htiles.trans (.of_tiles_eq u.reportGuar_tiles), ?_,
    (SameParts.of_parts_eq hparts).trans hsame⟩
  · exact (u.reportGuar_ez _).trans hword
  · exact (congrArg (bits · 31 16) (u.reportGuar_ez _)).trans hecap
  · rw [State.reportGuar_sites, hsites]

end

end Sys2Proof.Machine
end

section
/-!
The sensors of a field and its throttle.
-/

namespace Sys2Proof.Machine

/-! The throttle. -/

theorem State.throttle_paceWork (s : State) (f v g : Nat) : PaceWork (fun _ => True) s (s.throttle f v g) :=
  (((s.ezField_paceWork _ _ _ trivial).trans (State.ezField_paceWork _ _ _ _ trivial)).trans (State.ezField_paceWork _ _ _ _ trivial)).trans
    (State.levels_paceWork _ trivial)

/-- A throttle step writes the ceiling, the pace and THR. -/
theorem State.throttle_shows {s : State} (hwf : Map.wf (regReset modRegs) s.mod.csr = true) (htiles : Map.wf (fun _ => ({} : Tile)) s.tiles = true)
    (hfields : Map.wf (fun _ => ({} : Field)) s.fields = true) {f v g : Nat} (hv : v < 8) (hg : g < 256) :
    let u := s.throttle f v g
    bits (u.ez (0x1000 + 0x20 * f)) 5 3 = v ∧ bits (u.ez (0x1010 + 0x20 * f)) 15 8 = g ∧
      (bits (u.ez (0x1008 + 0x20 * f)) 0 0 = 1 ↔ v < 7 ∨ g ≠ 0) ∧ SameTiles s u ∧
      ∀ h, { u.field h with fresh := 0 } = { s.field h with fresh := 0 } := by
  have hwf1 := State.wf_ezField hwf (pwr f 0) 5 3 v
  have hwf2 := State.wf_ezField hwf1 (pwr f 0x10) 15 8 g
  have hwf3 := State.wf_ezField hwf2 (pwr f 8) 0 0 (nb (v < 7 || g ≠ 0))
  have h1 := State.bits_ezField_self hwf (o := pwr f 0) (hi := 5) (lo := 3) (v := v) (by decide) hv
  have h2 := State.bits_ezField_self hwf1 (o := pwr f 0x10) (hi := 15) (lo := 8) (v := g) (by decide) hg
  have h3 := State.bits_ezField_self hwf2 (o := pwr f 8) (hi := 0) (lo := 0) (v := nb (v < 7 || g ≠ 0)) (by decide) (by unfold nb; split <;> decide)
  have hwork := s.throttle_paceWork f v g
  obtain ⟨-, hez⟩ := (State.levels_levelWork (((s.ezField (pwr f 0) 5 3 v).ezField (pwr f 0x10) 15 8 g).ezField (pwr f 8) 0 0
    (nb (v < 7 || g ≠ 0))) f).csr hwf3
  have hne (a b : Nat) (h : a ≠ b) : pwr f a ≠ pwr f b := by unfold pwr; omega
  have hpwr (a : Nat) : 0x1000 + a + 0x20 * f = pwr f a := by unfold pwr; omega
  refine ⟨?_, ?_, ?_, (hwork.tiles htiles).2, fun h => ?_⟩
  · refine (State.levels_low f (by decide) hwf3).trans ?_
    rw [State.ez_ezField_ne hwf2 _ _ _ _ (hne 0 8 (by decide)), State.ez_ezField_ne hwf1 _ _ _ _ (hne 0 0x10 (by decide)), h1]
  · rw [hpwr 0x10, State.throttle, hez _ (hne 0x10 0 (by decide)), State.ez_ezField_ne hwf2 _ _ _ _ (hne 0x10 8 (by decide)), h2]
  · rw [hpwr 8, State.throttle, hez _ (hne 8 0 (by decide)), h3]
    simp only [nb]
    split
    · simp_all
    · simp_all
  · obtain ⟨fresh, hf⟩ := (hwork.fields hfields).2 h
    rw [hf]

/-- O43's clause for the throttle. -/
theorem exec_throttle {s : State} {f : Nat} (hf : f < 70) (hon : (s.field f).power = 2) :
    let w := s.ez (0x1000 + 0x20 * f)
    let pace := bits (s.ez (0x1010 + 0x20 * f)) 15 8
    ((s.field f).hot = true → bits w 14 12 ≠ 0 → exec (.throttleEscalate f) s = .next (s.throttle f (bits w 5 3 - 1) pace).reportGuar) ∧
    ((s.field f).hot = true → bits w 14 12 = 0 →
      exec (.throttleEscalate f) s = .next (s.throttle f (bits w 5 3) (if pace = 0 then 128 else max 16 (pace / 2))).reportGuar) ∧
    ((s.field f).cool = true → pace = 0 → exec (.throttleRelease f) s = .next (s.throttle f (min 7 (bits w 5 3 + 1)) 0).reportGuar) ∧
    ((s.field f).cool = true → pace ≠ 0 →
      exec (.throttleRelease f) s = .next (s.throttle f (bits w 5 3) (if 128 ≤ pace then 0 else pace * 2)).reportGuar) := by
  have hpace : pwr f 0x10 = 0x1010 + 0x20 * f := by unfold pwr; omega
  have hlevels : pwr f 0 = 0x1000 + 0x20 * f := rfl
  refine ⟨fun hhot hup => s.fieldDo_of hf ?_, fun hhot hlow => s.fieldDo_of hf ?_, fun hcool hnone => s.fieldDo_of hf ?_,
    fun hcool hsome => s.fieldDo_of hf ?_⟩
  · unfold State.throttleMore
    dsimp only
    rw [hhot, hon, if_neg (by decide), hlevels, hpace, if_pos hup]
  · unfold State.throttleMore
    dsimp only
    rw [hhot, hon, if_neg (by decide), hlevels, hpace, if_neg (not_not.mpr hlow)]
  · unfold State.throttleLess
    dsimp only
    rw [hcool, hon, if_neg (by decide), hlevels, hpace, if_neg (not_not.mpr hnone)]
  · unfold State.throttleLess
    dsimp only
    rw [hcool, hon, if_neg (by decide), hlevels, hpace, if_pos hsome]

/-! The sensors. -/

section
variable {s : State} {f : Nat} {l : List Nat}

/-- Sixteen good sensors read what they are given. -/
theorem State.sensors_plain (hl : l.length = 16) (hmarked : (s.field f).marked = []) (hvalue : s.ezInj 2 f = none) (hinvalid : s.ezInj 3 f = none) :
    s.sensors f (l.map some) = l.map some := by
  refine List.ext_getElem (by simp [State.sensors, hl]) fun i _ hi => ?_
  have hi' : i < l.length := by simpa using hi
  simp [State.sensors, hmarked, hvalue, hinvalid, nth, hi']

/-- PWR_FLD_TEMP with 16 good readings, the highest `t`. -/
def tempWord (w : Word) (t : Nat) : Word :=
  BitVec.ofNat 32 (max (bits w 31 24) (min t 255) * 2 ^ 24 + min t 255 * 2 ^ 16 + min 0 15 * 2 ^ 12 + bits w 1 0)

theorem bits_tempWord (w : Word) {t : Nat} (ht : t < 256) : bits (tempWord w t) 23 16 = t ∧
    bits (tempWord w t) 31 24 = max (bits w 31 24) t ∧ bits (tempWord w t) 15 12 = 0 := by
  have hmax : max (bits w 31 24) t < 256 := Nat.max_lt.mpr ⟨bits_lt w, ht⟩
  have hlow : bits w 1 0 < 2 ^ 2 := bits_lt w
  rw [tempWord, Nat.min_eq_left (show t ≤ 255 by omega), Nat.zero_min]
  generalize max (bits w 31 24) t = a at hmax ⊢
  generalize bits w 1 0 = b at hlow ⊢
  simp only [bits, BitVec.toNat_ofNat, Nat.shiftRight_eq_div_pow]
  omega

/-- The module with the readings of field `f` shown. -/
def State.felt (s : State) (f t : Nat) (y : Field) : State := (s.ezPut (pwr f 8) (tempWord (s.ez (pwr f 8)) t)).setField f y

/-- What a reading of 16 good sensors does. -/
theorem State.sensorReading_plain (hl : l.length = 16) (hmarked : (s.field f).marked = []) (hvalue : s.ezInj 2 f = none)
    (hinvalid : s.ezInj 3 f = none) : let t := l.foldl max 0
    ∃ bad cool since, let y := { s.field f with sensorBad := bad, hot := decide (95 ≤ t), cool := cool, coolSince := since }
      let u := s.felt f t y
      s.sensorReading f (l.map some) =
        if 110 ≤ t then u.squall f 2 false
        else if ((s.field f).power = 2 && 95 ≤ t && !(s.field f).hot) = true then
          let v := (u.throttle f (bits (u.ez (pwr f 0)) 14 12 - 2) (bits (u.ez (pwr f 0x10)) 15 8)).post 8 (.notice 1 f)
          if s.fieldOwner f < nParts then v.post (s.fieldOwner f) (.hostAdvisory (s.fieldOwner f) 3 [f]) else v
        else u := by
  have hgood : ((l.map some).filter Option.isNone) = [] := by simp [List.filter_eq_nil_iff]
  have hread : (l.map some).filterMap id = l := by simp
  refine ⟨(List.range 16).filter fun i => (nth none (l.map some) i).isNone, decide (l.foldl max 0 ≤ 90),
    if (decide (0 = 0) && decide (l.foldl max 0 ≤ 70)) = true then some ((s.field f).coolSince.getD s.now) else none, ?_⟩
  unfold State.sensorReading
  rw [State.sensors_plain hl hmarked hvalue hinvalid]
  dsimp only
  rw [hgood, hread, hvalue, hinvalid]
  rfl

end

end Sys2Proof.Machine
end

section
/-!
O43's clause for the sensors of a field: what a reading shows, the throttle it moves and the drain it begins.
-/

namespace Sys2Proof.Machine

/-- A message posted leaves the parts of the module and its registers. -/
theorem State.post_same (s : State) (p : Nat) (m : Msg) : (∀ o, (s.post p m).ez o = s.ez o) ∧ (s.post p m).tiles = s.tiles ∧
    (s.post p m).fields = s.fields ∧ (s.post p m).sites = s.sites ∧ (s.post p m).parts = s.parts ∧ (s.post p m).mod.csr = s.mod.csr := by
  obtain ⟨mail, out, h⟩ := s.post_frame p m
  rw [h]
  exact ⟨fun _ => rfl, rfl, rfl, rfl, rfl, rfl⟩

/-! The Squall drain. -/

/-- Field `f` drains to STATE 5, its cause shown. -/
structure State.Draining (f cause : Nat) (u : State) : Prop where
  csr : Map.wf (regReset modRegs) u.mod.csr = true
  fields : Map.wf (fun _ => ({} : Field)) u.fields = true
  power : (u.field f).power = 3
  drainTo : (u.field f).drainTo = 5
  shown : bits (u.ez (pwr f 4)) 7 4 = cause

theorem State.Draining.begins {u : State} {f cause : Nat} (hwf : Map.wf (regReset modRegs) u.mod.csr = true)
    (hfields : Map.wf (fun _ => ({} : Field)) u.fields = true) (hcause : cause < 16) (hpower : (u.field f).power = 3) (hdrain : (u.field f).drainTo = 5) :
    (u.ezField (pwr f 4) 7 4 cause).Draining f cause where
  csr := State.wf_ezField hwf _ _ _ _
  fields := hfields
  power := hpower
  drainTo := hdrain
  shown := State.bits_ezField_self hwf (by decide) hcause

section
variable {u v : State} {f cause : Nat} (h : u.Draining f cause)
include h

theorem State.Draining.ezField {o : Nat} (hi lo n : Nat) (ho : pwr f 4 ≠ o) : (u.ezField o hi lo n).Draining f cause where
  csr := State.wf_ezField h.csr _ _ _ _
  fields := h.fields
  power := h.power
  drainTo := h.drainTo
  shown := by rw [State.ez_ezField_ne h.csr _ _ _ _ ho, h.shown]

theorem State.Draining.post (p : Nat) (m : Msg) : (u.post p m).Draining f cause := by
  obtain ⟨hez, -, hfields, -, -, hcsr⟩ := u.post_same p m
  have hfield : (u.post p m).field f = u.field f := congrArg (Map.get (fun _ => ({} : Field)) · f) hfields
  exact ⟨hcsr ▸ h.csr, hfields ▸ h.fields, hfield ▸ h.power, hfield ▸ h.drainTo, (hez _) ▸ h.shown⟩

theorem State.Draining.lossWork (hf : f < 70) (hwork : LossWork u v) : v.Draining f cause := by
  obtain ⟨hfields, hsame⟩ := hwork.fields h.fields
  obtain ⟨hcsr, hez⟩ := hwork.csr h.csr
  obtain ⟨nodes, lock, hfield, -, -⟩ := hsame f
  refine ⟨hcsr, hfields, ?_, ?_, by rw [hez _ (by unfold pwr; omega), h.shown]⟩
  · rw [hfield]
    exact h.power
  · rw [hfield]
    exact h.drainTo

theorem State.Draining.levels : (u.levels f).Draining f cause := by
  have hwork := u.levels_levelWork f
  obtain ⟨hfields, -, fresh, hfield⟩ := hwork.fields h.fields
  obtain ⟨hcsr, hez⟩ := hwork.csr h.csr
  refine ⟨hcsr, hfields, ?_, ?_, by rw [hez _ (by unfold pwr; omega), h.shown]⟩
  · rw [hfield]
    exact h.power
  · rw [hfield]
    exact h.drainTo

end

theorem State.raise_lossWork (s : State) (r : Rec) : LossWork s (s.raise r) := by
  by_cases hr : r.cls = 1
  · rw [State.raise_hard hr]
    exact (s.logRec_abortWork 0 r).lossWork.trans (State.requestAbort_abortWork _ _ _).lossWork
  · rw [State.raise_soft hr]
    exact (s.logRec_abortWork 0 r).lossWork

/-- A Squall begins the drain of a powered field. -/
theorem State.squall_draining {s : State} {f cause : Nat} (hwf : Map.wf (regReset modRegs) s.mod.csr = true)
    (hfields : Map.wf (fun _ => ({} : Field)) s.fields = true) (hf : f < 70) (hcause : cause < 16) (hon : (s.field f).power = 2) (inj : Bool) :
    (s.squall f cause inj).Draining f cause := by
  have hbegins (y : Field) (h3 : y.power = 3) (h5 : y.drainTo = 5) : ((s.setField f y).ezField (pwr f 4) 7 4 cause).Draining f cause := by
    have hfield : (s.setField f y).field f = y := State.setField_field_self hfields
    exact .begins hwf (State.wf_setField f y hfields) hcause (by rw [hfield, h3]) (by rw [hfield, h5])
  have hne (o : Nat) (ho : 4 ≠ o) : pwr f 4 ≠ pwr f o := by unfold pwr; omega
  have hdrains : (decide ((s.field f).power = 1) || decide ((s.field f).power = 2) ||
      (decide ((s.field f).power = 3) && decide ((s.field f).drainTo ≠ 5))) = true := by simp [hon]
  unfold State.squall
  dsimp only
  rw [if_pos hdrains, if_neg (show ¬ (s.field f).power = 1 by omega)]
  refine State.Draining.lossWork (State.Draining.lossWork (State.Draining.levels (State.Draining.ezField (State.Draining.ezField ?_ _ _ _
    (hne 0 (by decide))) _ _ _ (hne 8 (by decide)))) hf (State.xmaskAbort_lossWork _ f)) hf (State.raise_lossWork _ _)
  split
  · exact (hbegins _ rfl rfl).post _ _
  · exact hbegins _ rfl rfl

/-! A reading. -/

section
variable {s : State} (hcanon : s.canonical = true) (f t : Nat) (y : Field)
include hcanon

/-- What the module shows once a reading stands. -/
theorem State.felt_shows : let u := s.felt f t y
    u.ez (pwr f 8) = tempWord (s.ez (pwr f 8)) t ∧ (∀ o, o ≠ pwr f 8 → u.ez o = s.ez o) ∧ Map.wf (regReset modRegs) u.mod.csr = true ∧
      Map.wf (fun _ => ({} : Field)) u.fields = true ∧ u.field f = y ∧ u.tiles = s.tiles ∧ u.parts = s.parts := by
  have hwf := (State.canon hcanon).modCsr
  have hfields := (State.canon hcanon).fields
  obtain ⟨w, hw⟩ : ∃ w, w = tempWord (s.ez (pwr f 8)) t := ⟨_, rfl⟩
  obtain ⟨v, hv⟩ : ∃ v, v = s.ezPut (pwr f 8) w := ⟨_, rfl⟩
  obtain ⟨m, hmod⟩ : ∃ m, v = { s with mod := m } := ⟨_, hv⟩
  have hself : v.ez (pwr f 8) = w := hv ▸ State.ez_ezPut_self _ w hwf
  have hother (o : Nat) (ho : o ≠ pwr f 8) : v.ez o = s.ez o := hv ▸ State.ez_ezPut_ne w hwf ho
  have hwf1 : Map.wf (regReset modRegs) v.mod.csr = true := hv ▸ State.ezPut_wf _ w hwf
  have hfelt : s.felt f t y = v.setField f y := by rw [State.felt, ← hw, ← hv]
  have hrest : v.fields = s.fields ∧ v.tiles = s.tiles ∧ v.parts = s.parts := by rw [hmod]; exact ⟨rfl, rfl, rfl⟩
  obtain ⟨hf, ht, hp⟩ := hrest
  have hfields1 : Map.wf (fun _ => ({} : Field)) v.fields = true := hf ▸ hfields
  dsimp only
  rw [hfelt, ← hw]
  exact ⟨hself, hother, hwf1, State.wf_setField f y hfields1, State.setField_field_self hfields1, ht, hp⟩

end

section
variable {s : State} (hcanon : s.canonical = true) {f : Nat} (hf : f < 70) {l : List Nat} (hl : l.length = 16) (hmarked : (s.field f).marked = [])
  (hvalue : s.ezInj 2 f = none) (hinvalid : s.ezInj 3 f = none)
include hcanon hf hl hmarked hvalue hinvalid

theorem State.execFieldSensorReading_of {u : State} (hu : s.sensorReading f (l.map some) = u) :
    exec (.fieldSensorReading f (l.map some)) s = .next u.reportGuar :=
  s.checked_of (by simp [hf, hl, nFields]) (congrArg State.reportGuar hu)

/-- A reading below 95 °C is shown. -/
theorem exec_sensorReading_cool (ht : l.foldl max 0 < 95) :
    ∃ u : State, exec (.fieldSensorReading f (l.map some)) s = .next u ∧ bits (u.ez (0x1008 + 0x20 * f)) 23 16 = l.foldl max 0 ∧
      bits (u.ez (0x1008 + 0x20 * f)) 31 24 = max (bits (s.ez (0x1008 + 0x20 * f)) 31 24) (l.foldl max 0) ∧
      bits (u.ez (0x1008 + 0x20 * f)) 15 12 = 0 ∧ (u.field f).power = (s.field f).power ∧ u.tiles = s.tiles ∧ SameParts s u := by
  obtain ⟨bad, cool, since, hread⟩ := State.sensorReading_plain hl hmarked hvalue hinvalid
  obtain ⟨hword, -, -, -, hfield, htiles, hparts⟩ := State.felt_shows hcanon f (l.foldl max 0)
    { s.field f with sensorBad := bad, hot := decide (95 ≤ l.foldl max 0), cool := cool, coolSince := since }
  dsimp only at hread hword hfield htiles hparts
  rw [if_neg (by omega), if_neg (by simp; omega)] at hread
  generalize s.felt f (l.foldl max 0) _ = u at hread hword hfield htiles hparts
  obtain ⟨htemp, hmax, hinv⟩ := bits_tempWord (s.ez (pwr f 8)) (t := l.foldl max 0) (by omega)
  have hpwr : 0x1008 + 0x20 * f = pwr f 8 := by unfold pwr; omega
  refine ⟨_, State.execFieldSensorReading_of hcanon hf hl hmarked hvalue hinvalid hread, ?_, ?_, ?_, ?_, ?_, ?_⟩
  · rw [State.reportGuar_ez, hpwr, hword, htemp]
  · rw [State.reportGuar_ez, hpwr, hword, hmax]
  · rw [State.reportGuar_ez, hpwr, hword, hinv]
  · rw [State.reportGuar_field, hfield]
  · rw [State.reportGuar_tiles, htiles]
  · exact (SameParts.of_parts_eq hparts).trans (State.reportGuar_sameParts (hparts ▸ (State.canon hcanon).parts))

/-- A reading from 95 °C takes two levels at once. -/
theorem exec_sensorReading_hot (hlo : 95 ≤ l.foldl max 0) (hhi : l.foldl max 0 < 110) (hon : (s.field f).power = 2) (hcool : (s.field f).hot = false) :
    ∃ u : State, exec (.fieldSensorReading f (l.map some)) s = .next u ∧ (u.field f).power = 2 ∧ (u.field f).hot = true ∧
      bits (u.ez (0x1000 + 0x20 * f)) 5 3 = bits (s.ez (0x1000 + 0x20 * f)) 14 12 - 2 ∧ SameTiles s u ∧ SameParts s u := by
  obtain ⟨bad, cool, since, hread⟩ := State.sensorReading_plain hl hmarked hvalue hinvalid
  obtain ⟨-, hother, hwf, hfields, hfield, htiles, hparts⟩ := State.felt_shows hcanon f (l.foldl max 0)
    { s.field f with sensorBad := bad, hot := decide (95 ≤ l.foldl max 0), cool := cool, coolSince := since }
  dsimp only at hread hother hwf hfields hfield htiles hparts
  rw [if_neg (by omega), if_pos (by simp [hon, hcool, hlo])] at hread
  generalize s.felt f (l.foldl max 0) _ = u at hread hother hwf hfields hfield htiles hparts
  have hlevel : bits (u.ez (pwr f 0)) 14 12 - 2 < 8 := by
    have := bits_lt (u.ez (pwr f 0)) (hi := 14) (lo := 12)
    omega
  have hwork := u.throttle_paceWork f (bits (u.ez (pwr f 0)) 14 12 - 2) (bits (u.ez (pwr f 0x10)) 15 8)
  obtain ⟨hceil, -, -, hsame, hrest⟩ := State.throttle_shows hwf (htiles ▸ (State.canon hcanon).tiles) hfields hlevel (bits_lt (u.ez (pwr f 0x10)) (hi := 15) (lo := 8))
  dsimp only at hceil hsame hrest
  generalize u.throttle f (bits (u.ez (pwr f 0)) 14 12 - 2) (bits (u.ez (pwr f 0x10)) 15 8) = v at hread hwork hceil hsame hrest
  have hposted : ∃ w, s.sensorReading f (l.map some) = w ∧ (∀ o, w.ez o = v.ez o) ∧ w.tiles = v.tiles ∧ w.fields = v.fields ∧ w.parts = v.parts := by
    obtain ⟨hez, ktiles, kfields, -, kparts, -⟩ := v.post_same 8 (.notice 1 f)
    refine ⟨_, hread, ?_⟩
    split
    · obtain ⟨jez, jtiles, jfields, -, jparts, -⟩ := (v.post 8 (.notice 1 f)).post_same (s.fieldOwner f) (.hostAdvisory (s.fieldOwner f) 3 [f])
      exact ⟨fun o => (jez o).trans (hez o), jtiles.trans ktiles, jfields.trans kfields, jparts.trans kparts⟩
    · exact ⟨hez, ktiles, kfields, kparts⟩
  obtain ⟨w, hw, hez, ktiles, kfields, kparts⟩ := hposted
  have hsameField : { w.field f with fresh := 0 } = { s.field f with
      sensorBad := bad, hot := decide (95 ≤ l.foldl max 0), cool := cool, coolSince := since, fresh := 0 } := by
    refine (congrArg (fun m => { Map.get (fun _ => ({} : Field)) m f with fresh := 0 }) kfields).trans ((hrest f).trans ?_)
    rw [hfield]
  have hallParts : w.parts = s.parts := (kparts.trans hwork.parts_eq).trans hparts
  refine ⟨_, State.execFieldSensorReading_of hcanon hf hl hmarked hvalue hinvalid hw, ?_, ?_, ?_, ?_, ?_⟩
  · rw [State.reportGuar_field]
    exact (congrArg Field.power hsameField).trans hon
  · rw [State.reportGuar_field]
    exact (congrArg Field.hot hsameField).trans (decide_eq_true hlo)
  · rw [State.reportGuar_ez, hez, hceil, hother (pwr f 0) (by unfold pwr; omega)]
    rfl
  · exact ((SameTiles.of_tiles_eq htiles).trans hsame).trans ((SameTiles.of_tiles_eq ktiles).trans (.of_tiles_eq w.reportGuar_tiles))
  · exact (SameParts.of_parts_eq hallParts).trans (State.reportGuar_sameParts (hallParts ▸ (State.canon hcanon).parts))

/-- From 110 °C the field drains. -/
theorem exec_sensorReading_squall (ht : 110 ≤ l.foldl max 0) (hon : (s.field f).power = 2) :
    ∃ u : State, exec (.fieldSensorReading f (l.map some)) s = .next u ∧ (u.field f).power = 3 ∧
      (u.field f).drainTo = 5 ∧ bits (u.ez (0x1004 + 0x20 * f)) 7 4 = 2 := by
  obtain ⟨bad, cool, since, hread⟩ := State.sensorReading_plain hl hmarked hvalue hinvalid
  obtain ⟨-, -, hwf, hfields, hfield, -, -⟩ := State.felt_shows hcanon f (l.foldl max 0)
    { s.field f with sensorBad := bad, hot := decide (95 ≤ l.foldl max 0), cool := cool, coolSince := since }
  dsimp only at hread hwf hfields hfield
  rw [if_pos ht] at hread
  obtain ⟨-, -, hpower, hdrain, hshown⟩ := State.squall_draining (cause := 2) hwf hfields hf (by decide) (by rw [hfield]; exact hon) false
  refine ⟨_, State.execFieldSensorReading_of hcanon hf hl hmarked hvalue hinvalid hread, ?_, ?_, ?_⟩
  · rw [State.reportGuar_field, hpower]
  · rw [State.reportGuar_field, hdrain]
  · rw [State.reportGuar_ez, ← pwr_offcause, hshown]

end

end Sys2Proof.Machine
end

section
/-!
O43's clauses for the energy window and the governor of a partition.
-/

namespace Sys2Proof.Machine

/-- The governor of a partition writes the register that shows it and the registers of its fields. -/
theorem State.setGov_paceWork (s : State) (p glvl gpace : Nat) : PaceWork (0x1000 ≤ ·) s (s.setGov p glvl gpace) := by
  have hpwr (f o : Nat) : 0x1000 ≤ pwr f o := by unfold pwr; omega
  refine (s.ezPut_paceWork _ (by unfold pwrPart; omega)).trans (PaceWork.foldl (fun u f _ => ?_) _)
  exact ((u.ezField_paceWork _ _ _ (hpwr f 0)).trans (State.ezField_paceWork _ _ _ _ (hpwr f 0x10))).trans (State.levels_paceWork _ (hpwr f 0))

/-- What the governor of a partition shows. -/
theorem State.setGov_shows {s : State} (hwf : Map.wf (regReset modRegs) s.mod.csr = true) (p : Nat) {glvl gpace : Nat} (hlevel : glvl < 8)
    (hpace : gpace < 256) : bits ((s.setGov p glvl gpace).ez (pwrPart p 4)) 10 8 = glvl := by
  have hfields : PaceWork IsPwr (s.ezPut (pwrPart p 4) (BitVec.ofNat 32 (glvl * 2 ^ 8 + gpace))) (s.setGov p glvl gpace) := by
    refine PaceWork.foldl (fun u f hf => ?_) _
    have hlt : f < 70 := List.mem_range.mp (List.mem_filter.mp hf).1
    exact ((u.ezField_paceWork _ _ _ (isPwr_pwr hlt (by decide))).trans (State.ezField_paceWork _ _ _ _ (isPwr_pwr hlt (by decide)))).trans
      (State.levels_paceWork _ (isPwr_pwr hlt (by decide)))
  rw [(hfields.csr (State.ezPut_wf _ _ hwf)).2 _ (by unfold IsPwr pwrPart; omega), State.ez_ezPut_self _ _ hwf]
  simp only [bits, BitVec.toNat_ofNat, Nat.shiftRight_eq_div_pow]
  omega

/-! The energy window. -/

/-- A ledger with the energy of one more window, 65,536 windows at most. -/
def ledgerNext (l : List Nat) (mj : Nat) : List Nat := (l ++ [mj]).drop ((l ++ [mj]).length - 65536)

theorem ledgerNext_short {l : List Nat} (mj : Nat) (hl : l.length < 65536) : ledgerNext l mj = l ++ [mj] := by
  have hlen : (l ++ [mj]).length - 65536 = 0 := by simp; omega
  rw [ledgerNext, hlen, List.drop_zero]

/-- What an energy window may change once the powers of the feeds and of the module stand, with the ledgers of the partitions `l` lengthened. -/
structure EnergyWork (e l : List Nat) (s u : State) : Prop where
  sites : u.sites = s.sites
  tiles : Map.wf (fun _ => ({} : Tile)) s.tiles = true → Map.wf (fun _ => ({} : Tile)) u.tiles = true ∧ SameTiles s u
  csr : Map.wf (regReset modRegs) s.mod.csr = true → Map.wf (regReset modRegs) u.mod.csr = true ∧
    ∀ o, 0 < o → o < 0x1000 → o ≠ 0x10 → u.ez o = s.ez o
  parts : Map.wf (fun _ => ({} : Part)) s.parts = true → Map.wf (fun _ => ({} : Part)) u.parts = true ∧
    ∀ p, (u.part p).ledger = if p ∈ l then ledgerNext (s.part p).ledger (nth 0 e p) else (s.part p).ledger

section
variable {e : List Nat}

theorem EnergyWork.refl (s : State) : EnergyWork e [] s s where
  sites := rfl
  tiles := fun h => ⟨h, fun _ => rfl⟩
  csr := fun h => ⟨h, fun _ _ _ _ => rfl⟩
  parts := fun h => ⟨h, fun _ => (if_neg List.not_mem_nil).symm⟩

theorem EnergyWork.append {l k : List Nat} {s u v : State} (h : EnergyWork e l s u) (j : EnergyWork e k u v) (hd : ∀ p ∈ l, p ∉ k) :
    EnergyWork e (l ++ k) s v where
  sites := j.sites.trans h.sites
  tiles := fun hwf => by
    obtain ⟨hu, hsame⟩ := h.tiles hwf
    obtain ⟨hv, jsame⟩ := j.tiles hu
    exact ⟨hv, hsame.trans jsame⟩
  csr := fun hwf => by
    obtain ⟨hu, hsame⟩ := h.csr hwf
    obtain ⟨hv, jsame⟩ := j.csr hu
    exact ⟨hv, fun o h0 h1 h2 => (jsame o h0 h1 h2).trans (hsame o h0 h1 h2)⟩
  parts := fun hwf => by
    obtain ⟨hu, hledger⟩ := h.parts hwf
    obtain ⟨hv, jledger⟩ := j.parts hu
    refine ⟨hv, fun p => ?_⟩
    rw [jledger p, hledger p]
    by_cases hl : p ∈ l
    · simp [hl, hd p hl]
    · simp [hl]

theorem EnergyWork.trans {l : List Nat} {s u v : State} (h : EnergyWork e l s u) (j : EnergyWork e [] u v) : EnergyWork e l s v := by
  have happ := h.append j fun _ _ => List.not_mem_nil
  rwa [List.append_nil] at happ

theorem EnergyWork.then {l : List Nat} {s u v : State} (h : EnergyWork e [] s u) (j : EnergyWork e l u v) : EnergyWork e l s v :=
  h.append j fun _ hp => absurd hp List.not_mem_nil

theorem EnergyWork.foldl {α : Type} {step : State → α → State} (h : ∀ u a, EnergyWork e [] u (step u a)) (l : List α) (s : State) :
    EnergyWork e [] s (l.foldl step s) :=
  List.foldlRecOn (motive := EnergyWork e [] s) l step (.refl s) fun _ hu a _ => hu.trans (h _ a)

theorem PaceWork.energyWork {R : Nat → Prop} {s u : State} (h : PaceWork R s u) (hR : ∀ o, 0 < o → o < 0x1000 → o ≠ 0x10 → ¬ R o) :
    EnergyWork e [] s u where
  sites := h.sites_eq
  tiles := h.tiles
  csr := fun hwf => ⟨(h.csr hwf).1, fun o h0 h1 h2 => (h.csr hwf).2 o (hR o h0 h1 h2)⟩
  parts := fun hwf => ⟨h.parts_eq ▸ hwf, fun p => by rw [h.part_eq]; simp⟩

theorem State.ezPut_energyWork (s : State) {o : Nat} (v : Word) (ho : o = 0 ∨ o = 0x10 ∨ 0x1000 ≤ o) : EnergyWork e [] s (s.ezPut o v) :=
  (s.ezPut_paceWork (R := (· = o)) v rfl).energyWork fun _ _ _ _ => by omega

theorem State.setGov_energyWork (s : State) (p glvl gpace : Nat) : EnergyWork e [] s (s.setGov p glvl gpace) :=
  (s.setGov_paceWork p glvl gpace).energyWork fun _ _ _ _ => by omega

theorem State.setField_energyWork (s : State) (f : Nat) (x : Field) : EnergyWork e [] s (s.setField f x) where
  sites := rfl
  tiles := fun h => ⟨h, fun _ => rfl⟩
  csr := fun h => ⟨h, fun _ _ _ _ => rfl⟩
  parts := fun h => ⟨h, fun _ => (if_neg List.not_mem_nil).symm⟩

theorem State.setPow_energyWork (s : State) (pow : Pow) : EnergyWork e [] s { s with mod := { s.mod with pow := pow } } where
  sites := rfl
  tiles := fun h => ⟨h, fun _ => rfl⟩
  csr := fun h => ⟨h, fun _ _ _ _ => rfl⟩
  parts := fun h => ⟨h, fun _ => (if_neg List.not_mem_nil).symm⟩

theorem State.setPart_energyWork (s : State) (p : Nat) {x : Part} (hx : x.ledger = (s.part p).ledger) : EnergyWork e [] s (s.setPart p x) where
  sites := rfl
  tiles := fun h => ⟨h, fun _ => rfl⟩
  csr := fun h => ⟨h, fun _ _ _ _ => rfl⟩
  parts := fun h => ⟨Map.wf_set h, fun q => by
    rw [if_neg List.not_mem_nil]
    by_cases hq : q = p
    · rw [hq, State.setPart_part_self h, hx]
    · rw [State.setPart_part_ne h hq]⟩

theorem State.setLedger_energyWork (s : State) (p : Nat) :
    EnergyWork e [p] s (s.setPart p { s.part p with ledger := ledgerNext (s.part p).ledger (nth 0 e p) }) where
  sites := rfl
  tiles := fun h => ⟨h, fun _ => rfl⟩
  csr := fun h => ⟨h, fun _ _ _ _ => rfl⟩
  parts := fun h => ⟨Map.wf_set h, fun q => by
    by_cases hq : q = p
    · rw [hq, State.setPart_part_self h, if_pos (List.mem_singleton_self p)]
    · rw [State.setPart_part_ne h hq, if_neg (fun hin => hq (List.mem_singleton.mp hin))]⟩

/-- The registers that show the last window of partition `p`. -/
def State.windowShown (s : State) (p mj : Nat) : State :=
  let tot := (s.ez (pwrPart p 0x14) ++ s.ez (pwrPart p 0x10)).toNat + mj
  (((s.ezPut (pwrPart p 8) (BitVec.ofNat 32 mj)).ezPut (pwrPart p 0xC) (BitVec.ofNat 32 (s.now.toNat / 1000000 - 1))).ezPut
    (pwrPart p 0x10) (BitVec.ofNat 32 tot)).ezPut (pwrPart p 0x14) (BitVec.ofNat 32 (tot / 2 ^ 32))

theorem State.windowShown_paceWork (s : State) (p mj : Nat) : PaceWork (fun o => 0x1000 ≤ o) s (s.windowShown p mj) := by
  have hpart (o : Nat) : 0x1000 ≤ pwrPart p o := by unfold pwrPart; omega
  exact (((s.ezPut_paceWork _ (hpart 8)).trans (State.ezPut_paceWork _ _ (hpart 0xC))).trans (State.ezPut_paceWork _ _ (hpart 0x10))).trans
    (State.ezPut_paceWork _ _ (hpart 0x14))

/-- Partition `p` once its window is shown and its ledger lengthened. -/
def State.windowed (s : State) (e : List Nat) (p : Nat) : State :=
  (s.windowShown p (nth 0 e p)).setPart p { s.part p with ledger := ledgerNext (s.part p).ledger (nth 0 e p) }

theorem State.windowed_energyWork (s : State) (p : Nat) : EnergyWork e [p] s (s.windowed e p) := by
  have hshown : EnergyWork e [] s (s.windowShown p (nth 0 e p)) := (s.windowShown_paceWork p _).energyWork fun _ _ _ _ => by omega
  have hledger := (s.windowShown p (nth 0 e p)).setLedger_energyWork (e := e) p
  rw [(s.windowShown_paceWork p _).part_eq] at hledger
  exact hshown.then hledger

/-- The governor of partition `p` after its window (R369). -/
theorem State.partWindow_eq (s : State) (p : Nat) : s.partWindow e p =
    let u := s.windowed e p
    let cap := bits (s.ez (pwrPart p 0)) 15 0
    let glvl := bits (s.ez (pwrPart p 4)) 10 8
    let gpace := bits (s.ez (pwrPart p 4)) 7 0
    if !bit (s.ez (pwrPart p 0)) 31 then u
    else if cap < nth 0 e p then
      let v := u.setPart p { u.part p with under := 0, glvlSeen := true }
      if ((s.fieldsOf p).all fun f => bits (s.ez (pwr f 0)) 14 12 = 0) = true then v.setGov p glvl (paceDown gpace) else v.setGov p (min 7 (glvl + 1)) gpace
    else if nth 0 e p * 10 ≤ cap * 9 then
      if (s.part p).under + 1 < 8 then u.setPart p { u.part p with under := (s.part p).under + 1 }
      else
        let v := u.setPart p { u.part p with under := 0 }
        if gpace ≠ 0 then v.setGov p glvl (paceUp gpace) else v.setGov p (glvl - 1) 0
    else u.setPart p { u.part p with under := 0 } := rfl

theorem State.partWindow_energyWork (s : State) (p : Nat) : EnergyWork e [p] s (s.partWindow e p) := by
  have hset {u : State} {x : Part} (hu : EnergyWork e [p] s u) (hx : x.ledger = (u.part p).ledger) : EnergyWork e [p] s (u.setPart p x) :=
    hu.trans (u.setPart_energyWork p hx)
  have hgov {u : State} {x : Part} (hu : EnergyWork e [p] s u) (hx : x.ledger = (u.part p).ledger) (glvl gpace : Nat) :
      EnergyWork e [p] s ((u.setPart p x).setGov p glvl gpace) := (hset hu hx).trans (State.setGov_energyWork _ p glvl gpace)
  have hshown := s.windowed_energyWork (e := e) p
  rw [State.partWindow_eq]
  dsimp only
  generalize s.windowed e p = u at hshown ⊢
  split
  · exact hshown
  · split
    · split
      · exact hgov hshown (by rfl) _ _
      · exact hgov hshown (by rfl) _ _
    · split
      · split
        · exact hset hshown rfl
        · split
          · exact hgov hshown (by rfl) _ _
          · exact hgov hshown (by rfl) _ _
      · exact hset hshown rfl

theorem State.foldl_partWindow_energyWork : ∀ (l : List Nat) (s : State), l.Nodup → EnergyWork e l s (l.foldl (fun s p => s.partWindow e p) s)
  | [], s, _ => .refl s
  | p :: l, s, hnd => by
    obtain ⟨hp, hnd⟩ := List.nodup_cons.mp hnd
    exact (s.partWindow_energyWork p).append (foldl_partWindow_energyWork l _ hnd) fun q hq => List.mem_singleton.mp hq ▸ hp

theorem State.capWindow_energyWork (s : State) (k mj cap : Nat) : EnergyWork e [] s (s.capWindow k mj cap) := by
  unfold State.capWindow
  dsimp only
  split
  · exact s.setPow_energyWork _
  · split
    · split
      · exact s.setPow_energyWork _
      · exact s.setPow_energyWork _
    · exact s.setPow_energyWork _

theorem State.feedHeld_energyWork (s : State) {k : Nat} (hk : k < 2) : EnergyWork e [] s (s.feedHeld k) := by
  unfold State.feedHeld
  dsimp only
  split
  · exact s.ezPut_energyWork _ (by omega)
  · exact .refl s

theorem State.stopTests_energyWork (s : State) : EnergyWork e [] s s.stopTests :=
  EnergyWork.foldl (fun u f => by
    split
    · exact u.setField_energyWork f _
    · exact .refl u) _ s

theorem State.allLevels_energyWork (s : State) : EnergyWork e [] s s.allLevels :=
  s.allLevels_paceWork.energyWork fun o _ h _ => by unfold IsPwr; omega

end

theorem SameParts.ledger_eq {s u : State} (h : SameParts s u) (p : Nat) : (u.part p).ledger = (s.part p).ledger := by
  have hledger := congrArg Part.ledger (h p)
  exact hledger

/-- The module with the powers of the feeds and its own shown. -/
def State.powersShown (s : State) (a b m : Nat) : State := ((s.ezField 0x4 15 0 a).ezField 0x14 15 0 b).ezField 0x24 15 0 m

theorem State.powersShown_paceWork (s : State) (a b m : Nat) : PaceWork (fun _ => True) s (s.powersShown a b m) :=
  ((s.ezField_paceWork _ _ _ trivial).trans (State.ezField_paceWork _ _ _ _ trivial)).trans (State.ezField_paceWork _ _ _ _ trivial)

theorem State.powersShown_shows {s : State} (hwf : Map.wf (regReset modRegs) s.mod.csr = true) {a b m : Nat} (ha : a < 65536) (hb : b < 65536)
    (hm : m < 65536) : let u := s.powersShown a b m
    Map.wf (regReset modRegs) u.mod.csr = true ∧ bits (u.ez 0x4) 15 0 = a ∧ bits (u.ez 0x14) 15 0 = b ∧ bits (u.ez 0x24) 15 0 = m := by
  have hwf1 := State.wf_ezField hwf 0x4 15 0 a
  have hwf2 := State.wf_ezField hwf1 0x14 15 0 b
  refine ⟨State.wf_ezField hwf2 0x24 15 0 m, ?_, ?_, State.bits_ezField_self hwf2 (by decide) hm⟩
  · rw [State.powersShown, State.ez_ezField_ne hwf2 _ _ _ _ (by decide), State.ez_ezField_ne hwf1 _ _ _ _ (by decide),
      State.bits_ezField_self hwf (by decide) ha]
  · rw [State.powersShown, State.ez_ezField_ne hwf2 _ _ _ _ (by decide), State.bits_ezField_self hwf1 (by decide) hb]

/-- After the powers are shown a window does energy work alone. -/
theorem State.windowEnd_energyWork (s : State) (a b m : Nat) (parts fields : List Nat) : ∃ pow : Pow,
    EnergyWork parts (List.range nParts) (({ s with mod := { s.mod with pow := pow } } : State).powersShown a b m) (s.windowEnd a b m parts fields) := by
  refine ⟨{ s.mod.pow with windows := (s.mod.pow.windows ++ [m]).drop (s.mod.pow.windows.length - 19) }, ?_⟩
  have hfields (u : State) : EnergyWork parts [] u ((List.range nFields).foldl (fun s f => s.ezField (pwr f 0xC) 15 0 (nth 0 fields f)) u) :=
    EnergyWork.foldl (fun u f => u.ezPut_energyWork _ (by unfold pwr; omega)) _ u
  have hcaps (u : State) (x y z : Nat) : EnergyWork parts [] u (((((u.capWindow 0 a x).capWindow 1 b y).capWindow 2 m z).feedHeld 0).feedHeld 1).allLevels :=
    (((((u.capWindow_energyWork 0 a x).trans (State.capWindow_energyWork _ 1 b y)).trans (State.capWindow_energyWork _ 2 m z)).trans
      (State.feedHeld_energyWork _ (by decide))).trans (State.feedHeld_energyWork _ (by decide))).trans (State.allLevels_energyWork _)
  have hrest (u : State) (x y z : Nat) : EnergyWork parts (List.range nParts) u
      (((((((List.range nParts).foldl (fun s p => s.partWindow parts p) ((List.range nFields).foldl (fun s f =>
        s.ezField (pwr f 0xC) 15 0 (nth 0 fields f)) u)).capWindow 0 a x).capWindow 1 b y).capWindow 2 m z).feedHeld 0).feedHeld 1).allLevels :=
    ((hfields u).then (State.foldl_partWindow_energyWork _ _ List.nodup_range)).trans (hcaps _ x y z)
  unfold State.windowEnd
  dsimp only
  split
  · exact (hrest _ _ _ _).trans (State.stopTests_energyWork _)
  · exact hrest _ _ _ _

/-- O43's clause for an energy window. -/
theorem exec_energyWindowEnd {s : State} (hcanon : s.canonical = true) {a b m : Nat} {parts fields : List Nat} (hparts : parts.length = 8)
    (hfields : fields.length = 70) (ha : a < 65536) (hb : b < 65536) (hm : m < 65536) :
    ∃ u : State, exec (.energyWindowEnd a b m parts fields) s = .next u ∧ bits (u.ez 0x4) 15 0 = a ∧ bits (u.ez 0x14) 15 0 = b ∧
      bits (u.ez 0x24) 15 0 = m ∧ SameTiles s u ∧ u.sites = s.sites ∧
      ∀ p < 8, (s.part p).ledger.length < 65536 → (u.part p).ledger = (s.part p).ledger ++ [nth 0 parts p] := by
  obtain ⟨pow, hwork⟩ := s.windowEnd_energyWork a b m parts fields
  have hpow := s.setPow_energyWork (e := parts) pow
  generalize hx : ({ s with mod := { s.mod with pow := pow } } : State) = x at hwork hpow
  obtain ⟨htiles0, hsame0⟩ := hpow.tiles (State.canon hcanon).tiles
  obtain ⟨hcsr0, -⟩ := hpow.csr (State.canon hcanon).modCsr
  obtain ⟨hparts0, hledger0⟩ := hpow.parts (State.canon hcanon).parts
  obtain ⟨hcsr1, hshowA, hshowB, hshowM⟩ := State.powersShown_shows hcsr0 ha hb hm
  have hshown := x.powersShown_paceWork a b m
  obtain ⟨htiles1, hsame1⟩ := hshown.tiles htiles0
  obtain ⟨-, hsame2⟩ := hwork.tiles htiles1
  obtain ⟨-, hez⟩ := hwork.csr hcsr1
  obtain ⟨hparts2, hledger⟩ := hwork.parts (hshown.parts_eq ▸ hparts0)
  have hguar := State.reportGuar_sameParts hparts2
  refine ⟨(s.windowEnd a b m parts fields).reportGuar, s.checked_of (by simp [hparts, hfields]) rfl, ?_, ?_, ?_, ?_, ?_, fun p hp hshort => ?_⟩
  · rw [State.reportGuar_ez, hez _ (by decide) (by decide) (by decide), hshowA]
  · rw [State.reportGuar_ez, hez _ (by decide) (by decide) (by decide), hshowB]
  · rw [State.reportGuar_ez, hez _ (by decide) (by decide) (by decide), hshowM]
  · exact ((hsame0.trans hsame1).trans hsame2).trans (.of_tiles_eq (State.reportGuar_tiles _))
  · rw [State.reportGuar_sites, hwork.sites, hshown.sites_eq, hpow.sites]
  · have hkept : (x.part p).ledger = (s.part p).ledger := (hledger0 p).trans (if_neg List.not_mem_nil)
    rw [hguar.ledger_eq, hledger p]
    rw [if_pos (show p ∈ List.range nParts from List.mem_range.mpr hp), hshown.part_eq, hkept, ledgerNext_short _ hshort]

/-- O43's clause for a partition above its cap. -/
theorem State.partWindow_lowered {s : State} (hwf : Map.wf (regReset modRegs) s.mod.csr = true) {p : Nat} {e : List Nat}
    (hcap : bit (s.ez (0x2000 + 0x40 * p)) 31 = true) (hover : bits (s.ez (0x2000 + 0x40 * p)) 15 0 < nth 0 e p)
    (hfloor : ((s.fieldsOf p).all fun f => bits (s.ez (0x1000 + 0x20 * f)) 14 12 = 0) = false) :
    bits ((s.partWindow e p).ez (0x2004 + 0x40 * p)) 10 8 = min 7 (bits (s.ez (0x2004 + 0x40 * p)) 10 8 + 1) := by
  have hpwr : 0x2004 + 0x40 * p = pwrPart p 4 := by unfold pwrPart; omega
  have hwf1 : Map.wf (regReset modRegs) (s.windowed e p).mod.csr = true := ((s.windowed_energyWork (e := e) p).csr hwf).1
  have hguard : (!bit (s.ez (pwrPart p 0)) 31) = false := by
    rw [show pwrPart p 0 = 0x2000 + 0x40 * p from rfl, hcap]
    rfl
  rw [hpwr, State.partWindow_eq]
  dsimp only
  rw [hguard, if_neg (by decide), if_pos (show bits (s.ez (pwrPart p 0)) 15 0 < nth 0 e p from hover)]
  have hlow : ((s.fieldsOf p).all fun f => decide (bits (s.ez (pwr f 0)) 14 12 = 0)) = false := hfloor
  rw [if_neg (ne_true_of_eq_false hlow)]
  generalize s.windowed e p = u at hwf1 ⊢
  exact State.setGov_shows (s := u.setPart p _) hwf1 p (by omega) (bits_lt (s.ez (pwrPart p 4)) (hi := 7) (lo := 0))

end Sys2Proof.Machine
end

section
/-!
O43: the pacing tick, and the statement.
-/

namespace Sys2Proof.Map

variable {α : Type} {d : Nat → α} {m : Map α}

/-- A key that is not listed reads as the default. -/
theorem get_of_not_listed {k : Nat} (hk : k ∉ m.map Prod.fst) : get d m k = d k := by
  induction m with
  | nil => rfl
  | cons e m ih =>
    obtain ⟨j, v⟩ := e
    simp only [List.map_cons, List.mem_cons, not_or] at hk
    rw [get, if_neg hk.1]
    split
    · rfl
    · exact ih hk.2

/-- The keys of a map in canonical form are all different. -/
theorem nodup_keys [DecidableEq α] (h : wf d m = true) : (m.map Prod.fst).Nodup := by
  induction m with
  | nil => exact List.nodup_nil
  | cons e m ih =>
    obtain ⟨j, v⟩ := e
    simp only [wf, Bool.and_eq_true] at h
    refine List.nodup_cons.mpr ⟨fun hin => ?_, ih h.2⟩
    obtain ⟨x, hx, hkey⟩ := List.mem_map.mp hin
    have := above_iff.mp h.1.1 x hx
    omega

end Sys2Proof.Map

namespace Sys2Proof.Machine

/-- A tile of a field that regains credit. -/
def paced (on : Bool) (full : Int) (x : Tile) : Tile :=
  match x.credit with
  | none => x
  | some c => if on then { x with credit := if 0 ≤ c then none else some (min (c + full) full) } else x

/-- What a fold over listed tiles leaves where each step replaces its tile by `G`. -/
theorem State.foldl_setTile {step : State → Nat × Tile → State} {G : Nat → Tile → Tile} {I : State → Prop}
    (hstep : ∀ u e, I u → Map.wf (fun _ => ({} : Tile)) u.tiles = true → step u e = u.setTile e.1 (G e.1 (u.tile e.1)))
    (hI : ∀ u t x, I u → I (u.setTile t x)) : ∀ (l : Map Tile) (s : State), (l.map Prod.fst).Nodup → I s →
      Map.wf (fun _ => ({} : Tile)) s.tiles = true → ∃ tiles, l.foldl step s = { s with tiles := tiles } ∧
        ∀ t, (l.foldl step s).tile t = if t ∈ l.map Prod.fst then G t (s.tile t) else s.tile t
  | [], s, _, _, _ => ⟨s.tiles, rfl, fun _ => by simp⟩
  | e :: l, s, hnd, hs, hwf => by
    obtain ⟨he, hnd⟩ := List.nodup_cons.mp hnd
    obtain ⟨tiles, hframe, htile⟩ := foldl_setTile hstep hI l _ hnd (hI s e.1 (G e.1 (s.tile e.1)) hs) (Map.wf_set hwf)
    rw [List.foldl_cons, hstep s e hs hwf]
    refine ⟨tiles, hframe, fun t => ?_⟩
    rw [htile t]
    by_cases ht : t = e.1
    · subst ht
      rw [if_neg he, State.tile_setTile_self _ hwf, if_pos (by simp)]
    · have hother : (s.setTile e.1 (G e.1 (s.tile e.1))).tile t = s.tile t := Map.get_set_ne hwf ht
      rw [hother]
      simp only [List.map_cons, List.mem_cons, ht, false_or]

/-- A tick as two folds: the fields, then the tiles that are listed. -/
def State.tickFields (s : State) : State :=
  (List.range nFields).foldl (fun u f =>
    if (s.field f).lock && decide (s.pace f ≠ 0) then u.setField f { u.field f with fresh := 8 * u.pace f } else u) s

theorem State.pacingTick_eq (s : State) : s.pacingTick = s.tickFields.tiles.foldl (fun u e =>
    match (u.tile e.1).credit with
    | none => u
    | some c =>
      if (s.field (fieldOf e.1)).lock && decide (s.pace (fieldOf e.1) ≠ 0) then
        u.setTile e.1 { u.tile e.1 with credit := if 0 ≤ c then none else some (min (c + 8 * u.pace (fieldOf e.1)) (8 * u.pace (fieldOf e.1))) }
      else u) s.tickFields := rfl

theorem State.pace_congr {s u : State} (h : u.mod = s.mod) (f : Nat) : u.pace f = s.pace f := by
  unfold State.pace State.ez
  rw [h]

/-- O43's clause for the pacing tick. -/
theorem exec_pacingTick {s : State} (hcanon : s.canonical = true) : ∃ u : State, exec .pacingTick s = .next u ∧
    { u with tiles := s.tiles, fields := s.fields } = s ∧
      let on (f : Nat) : Bool := (s.field f).lock && decide (s.pace f ≠ 0)
      (∀ f < 70, u.field f = if on f = true then { s.field f with fresh := 8 * s.pace f } else s.field f) ∧
      ∀ t, fieldOf t < 70 → u.tile t = (match (s.tile t).credit with
        | none => s.tile t
        | some c =>
          if on (fieldOf t) = true then
            { s.tile t with credit := if 0 ≤ c then none else some (min (c + 8 * s.pace (fieldOf t)) (8 * s.pace (fieldOf t))) }
          else s.tile t) := by
  have htiles := (State.canon hcanon).tiles
  obtain ⟨fields, hfields, -, hfield⟩ := State.foldl_setField (l := List.range nFields)
    (step := fun u f => if (s.field f).lock && decide (s.pace f ≠ 0) then u.setField f { u.field f with fresh := 8 * u.pace f } else u)
    (G := fun f x => if ((s.field f).lock && decide (s.pace f ≠ 0)) = true then { x with fresh := 8 * s.pace f } else x)
    (I := fun u => Map.wf (fun _ => ({} : Field)) u.fields = true ∧ u.mod = s.mod) List.nodup_range
    (fun u hu f _ => by
      dsimp only
      split
      · rw [State.pace_congr hu.2]
      · exact (congrArg (fun fields => { u with fields := fields }) (Map.set_get f hu.1)).symm)
    (fun u hu _ f _ => ⟨Map.wf_set hu.1, hu.2⟩) s ⟨(State.canon hcanon).fields, rfl⟩ (State.canon hcanon).fields
  have hticked : s.tickFields = { s with fields := fields } := hfields
  obtain ⟨tiles, hframe, htile⟩ := State.foldl_setTile
    (step := fun u e =>
      match (u.tile e.1).credit with
      | none => u
      | some c =>
        if (s.field (fieldOf e.1)).lock && decide (s.pace (fieldOf e.1) ≠ 0) then
          u.setTile e.1 { u.tile e.1 with credit := if 0 ≤ c then none else some (min (c + 8 * u.pace (fieldOf e.1)) (8 * u.pace (fieldOf e.1))) }
        else u)
    (G := fun t x => paced ((s.field (fieldOf t)).lock && decide (s.pace (fieldOf t) ≠ 0)) (8 * s.pace (fieldOf t)) x) (I := fun u => u.mod = s.mod)
    (fun u e hu hwf => by
      have hsame : u = u.setTile e.1 (u.tile e.1) := (congrArg (fun tiles => { u with tiles := tiles }) (Map.set_get e.1 hwf)).symm
      dsimp only [paced]
      rw [State.pace_congr hu]
      split
      · exact hsame
      · split
        · rfl
        · exact hsame)
    (fun _ _ _ hu => hu) s.tickFields.tiles s.tickFields (by rw [hticked]; exact Map.nodup_keys htiles) (by rw [hticked]) (by rw [hticked]; exact htiles)
  rw [← State.pacingTick_eq] at hframe htile
  rw [hticked] at hframe htile
  refine ⟨s.pacingTick, rfl, ?_, fun f hf => ?_, fun t _ => ?_⟩
  · rw [hframe]
  · have hkept : s.pacingTick.field f = s.tickFields.field f := by rw [hframe, hticked]; rfl
    rw [hkept]
    exact (hfield f).trans (if_pos (List.mem_range.mpr hf))
  · rw [htile t]
    change (if t ∈ s.tiles.map Prod.fst then paced _ _ (s.tile t) else s.tile t) = _
    split
    · rfl
    next hnot =>
      have hdefault : s.tile t = {} := Map.get_of_not_listed hnot
      rw [hdefault]

end Sys2Proof.Machine

namespace Sys2Proof

open Machine

/-- Settles O43, a clause for each command: levels change the credit of tiles and the fresh credit of fields alone, so the registers
that each command shows are read off its own writes. -/
theorem powerSensing : Obligations.PowerSensing := by
  unfold Obligations.PowerSensing
  intro s hcanon
  refine ⟨?_, ?_, ?_, ?_, ?_, ?_, exec_pacingTick hcanon⟩
  · exact fun k hk v hon hhold hinj hlo hhi hgood => exec_feedVoltageSample hcanon hk hon hhold hinj hlo hhi hgood
  · exact fun tin tout flow hinj hin hout hflow => exec_coolantSample hcanon hinj hin hout hflow
  · intro f hf l hl hmarked hvalue hinvalid
    exact ⟨exec_sensorReading_cool hcanon hf hl hmarked hvalue hinvalid, exec_sensorReading_hot hcanon hf hl hmarked hvalue hinvalid,
      exec_sensorReading_squall hcanon hf hl hmarked hvalue hinvalid⟩
  · intro f hf hon
    obtain ⟨hmore, hpaced, hless, hloose⟩ := exec_throttle hf hon
    exact ⟨hmore, hpaced, hless, hloose, fun v g hv hg =>
      State.throttle_shows (State.canon hcanon).modCsr (State.canon hcanon).tiles (State.canon hcanon).fields hv hg⟩
  · exact fun a b m parts fields hparts hfields ha hb hm => exec_energyWindowEnd hcanon hparts hfields ha hb hm
  · exact fun p _ e hcap hover hfloor => State.partWindow_lowered (State.canon hcanon).modCsr hcap hover hfloor

end Sys2Proof
end

section
/-!
O46: a Halo read of a unit of an armed pull window is parked at its site (R264), so it does not join the queue as the statement says.
-/

namespace Sys2Proof.Machine

/-- A read request for unit 3 of window 0. -/
def parkedRead : HFlit :=
  { seq := 0, ack := 4095, nak := false, cred := 0, tag := 5, off := 0, data := [0] ++ leBytes 3 4 ++ leBytes 1 4,
    crc := haloCrc (haloHeader 3 0 4095 false 0 5 0) ([0] ++ leBytes 3 4 ++ leBytes 1 4), rtype := 0, codewords := [] }

/-- Partition 0 with Halo port 0, up, whose window 0 names units 0 to 3 of site 0; the site's pull window 0 is armed over them. -/
def parkingState : State :=
  { State.reset with
    ports := [(0, { state := 2, csr := [(0, 0#32), (0x1008, 4#32), (0x100C, 1#32)] })]
    sites := [(0, { state := 2, csr := [(0x4, 0#32), (0x104, 4#32)], m := { armed := [0] } })] }

/-- The queue of site 0 where a command leads to a next state. -/
def queueAfter : Host.Outcome State Fault Refusal → List SiteReq
  | .next u => (u.site 0).m.queue
  | _ => []

theorem parkedRead_good : haloGood 3 parkedRead = true := by
  have hcrc : parkedRead.crc = haloCrc (haloHeader 3 parkedRead.seq parkedRead.ack parkedRead.nak parkedRead.cred parkedRead.tag parkedRead.off)
      parkedRead.data := by simp only [parkedRead]
  unfold haloGood
  exact Bool.and_eq_true_iff.mpr ⟨by decide, decide_eq_true hcrc⟩

/-- What becomes of a good request or data flit of the expected SEQ (R385). -/
theorem State.haloRx_taken {s : State} {q typ : Nat} {x : HFlit} (hgood : haloGood typ x = true) (hcodes : x.codewords = []) (hflit : 1 ≤ typ ∧ typ ≤ 5)
    (hsends : (s.port q).sends = true) (hether : (s.port q).ether = false) (hinj : bits ((s.port q).csrWord 0x20) 30 28 ≠ 1)
    (hseq : x.seq = ((s.haloAck q x).port q).rxSeq) (hroom : ((s.haloAck q x).port q).rxBuf.length < 4096) :
    let u := s.haloAck q x
    let o := u.port q
    s.haloRx q typ x = (((u.setPort q { o with rxSeq := (o.rxSeq + 1) % 4096, discard := false, rxBuf := o.rxBuf ++ [(typ, x)] }).haloChange q).haloTick
      q).haloIdle q false := by
  have hinjected : (decide (typ ≠ 0) && decide (bits ((s.port q).csrWord 0x20) 30 28 = 1)) = false := by simp [hinj]
  have hnext : (decide (x.seq = ((s.haloAck q x).port q).rxSeq) && decide (((s.haloAck q x).port q).rxBuf.length < 4096)) = true := by simp [hseq, hroom]
  unfold State.haloRx
  dsimp only
  rw [hcodes, if_pos List.isEmpty_nil, hsends, hether, hinjected, hgood, if_neg (by decide), if_neg (by decide), if_neg (by omega), if_pos hnext,
    if_neg (show ¬ typ = 6 by omega)]

theorem exec_rreq {s : State} {q : Nat} (x : HFlit) (hq : q < 12) : exec (.rreq q x) s = .next (s.haloRx q 3 x) := s.checked_of (decide_eq_true hq) rfl

theorem exec_parkedRead : queueAfter (exec (.rreq 0 parkedRead) parkingState) = [] := by
  have htaken := State.haloRx_taken (s := parkingState) (q := 0) parkedRead_good (by decide) (by decide) (by decide) (by decide) (by decide) (by decide)
    (by decide)
  rw [exec_rreq parkedRead (by decide), htaken]
  change (State.site _ 0).m.queue = []
  decide +kernel

end Sys2Proof.Machine

namespace Sys2Proof

open Machine

/-- Refutes O46: the read is parked until its unit is filled, and the queue of the site is as before. -/
theorem not_haloTransfers : ¬ Obligations.HaloTransfers := by
  unfold Obligations.HaloTransfers
  intro h
  obtain ⟨hflits, -⟩ := h 0 parkedRead parkingState (by decide) (by decide)
  obtain ⟨-, -, hread, -⟩ := hflits (by decide) (by decide) (by decide) (by decide) (by decide) (by decide) (by decide) (by decide) (by decide)
    (by decide) (by decide)
  obtain ⟨u, hu, -, -, -, -, -, r, hqueue, -⟩ := hread (by decide) (by decide) (by decide) (by decide) (by decide) (by decide) (by decide)
    (by decide) (by decide) (by decide) parkedRead_good
  have hafter := exec_parkedRead
  rw [hu] at hafter
  have hbefore : (parkingState.site 0).m.queue = [] := by decide
  change (u.site 0).m.queue = [] at hafter
  change (u.site 0).m.queue = (parkingState.site 0).m.queue ++ [r] at hqueue
  rw [hafter, hbefore] at hqueue
  cases hqueue

end Sys2Proof
end

section
/-!
What the link layer of a Halo port changes as it sends: the port's own replay buffer, credits, changes of lanes and registers.
-/

namespace Sys2Proof.Machine

/-! Ports written twice. -/

theorem State.setPort_setPort {s : State} {q : Nat} (x y : Port) (hwf : Map.wf (fun _ => ({} : Port)) s.ports = true) :
    (s.setPort q x).setPort q y = s.setPort q y := congrArg (fun ports => { s with ports := ports }) (Map.set_set x y hwf)

theorem State.setPort_port {s : State} (q : Nat) (hwf : Map.wf (fun _ => ({} : Port)) s.ports = true) : s.setPort q (s.port q) = s :=
  congrArg (fun ports => { s with ports := ports }) (Map.set_get q hwf)

section
variable {o : Port} (hwf : Map.wf (regReset portRegs) o.csr = true)
include hwf

theorem Port.csrWord_csrPut_self (a : Nat) (v : Word) : (o.csrPut a v).csrWord a = v := Map.get_set_self hwf
theorem Port.csrWord_csrPut_ne {a k : Nat} (v : Word) (hk : k ≠ a) : (o.csrPut a v).csrWord k = o.csrWord k := Map.get_set_ne hwf hk
theorem Port.wf_csrPut (a : Nat) (v : Word) : Map.wf (regReset portRegs) (o.csrPut a v).csr = true := Map.wf_set hwf

end

/-! Writes of registers leave the rest of a port. -/

theorem Port.csrPut_csr (o : Port) (a : Nat) (v : Word) : ∃ csr, o.csrPut a v = { o with csr := csr } := ⟨_, rfl⟩

theorem Port.csrPut_csrPut_csr (o : Port) (a b : Nat) (v w : Word) : ∃ csr, (o.csrPut a v).csrPut b w = { o with csr := csr } := ⟨_, rfl⟩

theorem Port.csrField_csr (o : Port) (a hi lo v : Nat) : ∃ csr, o.csrField a hi lo v = { o with csr := csr } := ⟨_, rfl⟩

/-- Writes of registers of a port one after another. -/
theorem Port.foldl_csr {α : Type} {step : Port → α → Port} (h : ∀ o a, ∃ csr, step o a = { o with csr := csr }) (l : List α) (o : Port) :
    ∃ csr, l.foldl step o = { o with csr := csr } :=
  List.foldlRecOn (motive := fun z => ∃ csr, z = { o with csr := csr }) l step ⟨o.csr, rfl⟩ fun z hz a _ => by
    obtain ⟨_, rfl⟩ := hz
    exact h _ a

theorem Port.setLanes_csr (o : Port) (l : List Nat) (st : Nat) : ∃ csr, l.foldl (fun o l => o.setLane l st) o = { o with csr := csr } :=
  Port.foldl_csr (fun o l => o.csrField_csr (0x100 + 4 * l) 2 0 st) l o

theorem Port.swapSpare_csr (o : Port) (l : Nat) : ∃ csr, o.swapSpare l = { o with csr := csr } := ⟨_, rfl⟩

theorem Port.narrow_csr (o : Port) : ∃ csr, o.narrow = { o with csr := csr } := by
  obtain ⟨csr, hset⟩ := Port.foldl_csr (step := fun (z : Port) l => z.setRole l (((o.goodLanes.take 4).idxOf? l).getD 15))
    (fun z l => z.csrField_csr (0x100 + 4 * l) 7 4 _) (List.range 9) o
  unfold Port.narrow
  dsimp only
  rw [hset]
  exact ⟨_, rfl⟩

theorem Port.changeLanes_csr (o : Port) (kind lane : Nat) : ∃ csr, o.changeLanes kind lane = { o with csr := csr } := by
  unfold Port.changeLanes
  split
  · split
    · exact o.swapSpare_csr lane
    · exact ⟨o.csr, rfl⟩
  · split
    · exact o.narrow_csr
    · exact ⟨o.csr, rfl⟩

theorem Port.turnLanes_turn (o : Port) : ∃ turn csr, o.turnLanes = { o with turn := turn, csr := csr } := by
  obtain ⟨csr, hturned⟩ := Port.foldl_csr (fun (o : Port) (c : Nat × Nat × Nat) => o.changeLanes_csr c.1 c.2.1)
    (o.turn.filter fun c => c.2.2 = o.txSeq) { o with turn := o.turn.filter fun c => c.2.2 ≠ o.txSeq }
  exact ⟨_, csr, hturned⟩

/-- Two ports differ in what sending changes alone. -/
def SameLink (a b : Port) : Prop := ∃ owed sent txq txSeq credits turn held csr,
  b = { a with owed := owed, sent := sent, txq := txq, txSeq := txSeq, credits := credits, turn := turn, held := held, csr := csr }

theorem SameLink.refl (a : Port) : SameLink a a := ⟨a.owed, a.sent, a.txq, a.txSeq, a.credits, a.turn, a.held, a.csr, rfl⟩

theorem SameLink.trans {a b c : Port} (h : SameLink a b) (k : SameLink b c) : SameLink a c := by
  obtain ⟨_, _, _, _, _, _, _, _, rfl⟩ := h
  obtain ⟨owed, sent, txq, txSeq, credits, turn, held, csr, rfl⟩ := k
  exact ⟨owed, sent, txq, txSeq, credits, turn, held, csr, rfl⟩

/-- Sending at port `q` changes that port and the outbox alone. -/
structure SendWork (q : Nat) (s u : State) : Prop where
  frame : ∃ ports out, u = { s with ports := ports, outbox := out }
  ports : Map.wf (fun _ => ({} : Port)) s.ports = true → Map.wf (fun _ => ({} : Port)) u.ports = true ∧ SameLink (s.port q) (u.port q)

theorem SendWork.refl (q : Nat) (s : State) : SendWork q s s := ⟨⟨s.ports, s.outbox, rfl⟩, fun h => ⟨h, .refl _⟩⟩

theorem SendWork.trans {q : Nat} {s u v : State} (h : SendWork q s u) (k : SendWork q u v) : SendWork q s v where
  frame := by
    obtain ⟨_, _, rfl⟩ := h.frame
    obtain ⟨ports, out, rfl⟩ := k.frame
    exact ⟨ports, out, rfl⟩
  ports := fun hwf => by
    obtain ⟨hu, hport⟩ := h.ports hwf
    obtain ⟨hv, kport⟩ := k.ports hu
    exact ⟨hv, hport.trans kport⟩

theorem SendWork.foldl {α : Type} {q : Nat} {step : State → α → State} (h : ∀ u a, SendWork q u (step u a)) (l : List α) (s : State) :
    SendWork q s (l.foldl step s) :=
  List.foldlRecOn (motive := SendWork q s) l step (.refl q s) fun _ hu a _ => hu.trans (h _ a)

theorem State.setPort_sendWork {s : State} {q : Nat} {x : Port} (hx : SameLink (s.port q) x) : SendWork q s (s.setPort q x) :=
  ⟨⟨_, s.outbox, rfl⟩, fun hwf => ⟨Map.wf_set hwf, by rw [State.setPort_port_self hwf]; exact hx⟩⟩

theorem State.say_sendWork (q : Nat) (s : State) (m : Msg) : SendWork q s (s.say m) := ⟨⟨s.ports, _, rfl⟩, fun hwf => ⟨hwf, .refl _⟩⟩

theorem State.haloFlush_sendWork (q k : Nat) : ∀ s : State, SendWork q s (s.haloFlush q k) := by
  induction k with
  | zero => exact SendWork.refl q
  | succ k ih =>
    intro s
    simp only [State.haloFlush]
    split
    · exact .refl q s
    · split
      · exact .refl q s
      · split
        · split
          · exact .refl q s
          · exact ((State.setPort_sendWork ⟨_, _, _, _, _, _, _, _, rfl⟩).trans (State.say_sendWork q _ _)).trans (ih _)
        · split
          · exact .refl q s
          · refine ((State.setPort_sendWork ?_).trans (State.say_sendWork q _ _)).trans (ih _)
            generalize hx : ({ s.port q with txq := _, sent := _, txSeq := _, credits := _, owed := _ } : Port) = x
            obtain ⟨turn, csr, hturned⟩ := x.turnLanes_turn
            rw [hturned, ← hx]
            exact ⟨_, _, _, _, _, _, _, _, rfl⟩

theorem State.haloTx_sendWork (s : State) (q typ tag off : Nat) (data : List Byte) : SendWork q s (s.haloTx q typ tag off data) :=
  (State.setPort_sendWork ⟨_, _, _, _, _, _, _, _, rfl⟩).trans (State.haloFlush_sendWork q _ _)

theorem State.roceFlush_sendWork (s : State) (q : Nat) : SendWork q s (s.roceFlush q) := by
  simp only [State.roceFlush]
  split
  · exact .refl q s
  · exact (State.setPort_sendWork ⟨_, _, _, _, _, _, _, _, rfl⟩).trans (SendWork.foldl (fun u _ => u.say_sendWork q _) _ _)

theorem State.haloIdle_sendWork (s : State) (q : Nat) (nak : Bool) : SendWork q s (s.haloIdle q nak) := by
  simp only [State.haloIdle]
  split
  · exact (State.setPort_sendWork ⟨_, _, _, _, _, _, _, _, rfl⟩).trans (State.say_sendWork q _ _)
  · exact .refl q s

theorem State.haloCmpl_sendWork (s : State) (q tag qp status ecode : Nat) (data : List Byte) :
    SendWork q s (s.haloCmpl q tag qp status ecode data) := by
  simp only [State.haloCmpl]
  split
  · split
    · exact (State.setPort_sendWork ⟨_, _, _, _, _, _, _, _, rfl⟩).trans (State.roceFlush_sendWork _ q)
    · exact .refl q s
  · split
    · exact s.haloTx_sendWork q _ _ _ _
    · exact .refl q s

section
variable {q : Nat} {s u : State} (h : SendWork q s u)
include h

theorem SendWork.tiles_eq : u.tiles = s.tiles := by obtain ⟨_, _, hu⟩ := h.frame; rw [hu]
theorem SendWork.sites_eq : u.sites = s.sites := by obtain ⟨_, _, hu⟩ := h.frame; rw [hu]

theorem SendWork.port_eq (hwf : Map.wf (fun _ => ({} : Port)) s.ports = true) : (u.port q).state = (s.port q).state ∧
    (u.port q).xfers = (s.port q).xfers ∧ (u.port q).bad = (s.port q).bad := by
  obtain ⟨-, _, _, _, _, _, _, _, _, hport⟩ := h.ports hwf
  rw [hport]
  exact ⟨rfl, rfl, rfl⟩

end

/-! Transfers that end. -/

theorem State.dropReqs_ports (s : State) (q : Nat) (x : HXfer) : (s.dropReqs q x).ports = s.ports := by
  simp only [State.dropReqs]
  split <;> rfl

/-- Two states differ in their sites alone. -/
def SitesWork (s u : State) : Prop := ∃ sites, u = { s with sites := sites }

theorem SitesWork.refl (s : State) : SitesWork s s := ⟨s.sites, rfl⟩

theorem SitesWork.trans {s u v : State} (h : SitesWork s u) (k : SitesWork u v) : SitesWork s v := by
  obtain ⟨_, rfl⟩ := h
  obtain ⟨sites, rfl⟩ := k
  exact ⟨sites, rfl⟩

theorem State.setSite_sitesWork (s : State) (n : Nat) (x : Site) : SitesWork s (s.setSite n x) := ⟨_, rfl⟩

theorem SitesWork.foldl {α : Type} {step : State → α → State} (h : ∀ u a, SitesWork u (step u a)) (l : List α) (s : State) :
    SitesWork s (l.foldl step s) :=
  List.foldlRecOn (motive := SitesWork s) l step (SitesWork.refl s) fun _ hu a _ => hu.trans (h _ a)

theorem State.recallReqs_sitesWork (s : State) (q : Nat) : SitesWork s (s.recallReqs q) := by
  refine SitesWork.foldl (fun u n => ?_) _ s
  dsimp only
  split
  · exact u.setSite_sitesWork _ _
  · exact SitesWork.refl u

theorem State.recallReqs_port (s : State) (q i : Nat) : (s.recallReqs q).port i = s.port i ∧ (s.recallReqs q).tiles = s.tiles := by
  obtain ⟨sites, hu⟩ := s.recallReqs_sitesWork q
  rw [hu]
  exact ⟨rfl, rfl⟩

theorem Port.noteLast_csr (o : Port) (status ecode win unit : Nat) : ∃ csr, o.noteLast status ecode win unit = { o with csr := csr } := by
  unfold Port.noteLast
  split
  · exact ⟨o.csr, rfl⟩
  · obtain ⟨csr, hput⟩ := Port.csrPut_csrPut_csr o 0x14 0x18 (BitVec.ofNat 32 (2 ^ 31 + status * 2 ^ 24 + ecode * 2 ^ 16 + win % 64)) (BitVec.ofNat 32 unit)
    exact ⟨csr, hput⟩

/-- A transfer that ends is one of its port's no more. -/
theorem State.endXfer_port {s : State} (q : Nat) (x : HXfer) (status ecode : Nat) (hwf : Map.wf (fun _ => ({} : Port)) s.ports = true) :
    let u := s.endXfer q x status ecode
    Map.wf (fun _ => ({} : Port)) u.ports = true ∧ (u.port q).state = (s.port q).state ∧
      (u.port q).xfers = (s.port q).xfers.filter fun y => !(y.tag = x.tag && y.mod == x.mod) := by
  have hended : ∀ v : State, v = (if status = 0 then s.setPort q ((s.port q).dropXfer x)
      else (s.setPort q (((s.port q).dropXfer x).noteLast status ecode x.win x.unit)).dropReqs q x) →
      Map.wf (fun _ => ({} : Port)) v.ports = true ∧ (v.port q).state = (s.port q).state ∧
        (v.port q).xfers = (s.port q).xfers.filter fun y => !(y.tag = x.tag && y.mod == x.mod) := by
    rintro v rfl
    split
    · rw [State.setPort_port_self hwf]
      exact ⟨Map.wf_set hwf, rfl, rfl⟩
    · obtain ⟨csr, hnote⟩ := ((s.port q).dropXfer x).noteLast_csr status ecode x.win x.unit
      rw [hnote]
      generalize hz : ({ (s.port q).dropXfer x with csr := csr } : Port) = z
      have hports := State.dropReqs_ports (s.setPort q z) q x
      have hport : ((s.setPort q z).dropReqs q x).port q = z :=
        (congrArg (Map.get (fun _ => ({} : Port)) · q) hports).trans (State.setPort_port_self hwf)
      rw [hport, hports, ← hz]
      exact ⟨Map.wf_set hwf, rfl, rfl⟩
  simp only [State.endXfer]
  split
  · exact hended _ rfl
  · obtain ⟨hv, hstate, hxfers⟩ := hended _ rfl
    have hsend := State.haloCmpl_sendWork (if status = 0 then s.setPort q ((s.port q).dropXfer x)
      else (s.setPort q (((s.port q).dropXfer x).noteLast status ecode x.win x.unit)).dropReqs q x) q x.tag x.qp status ecode []
    obtain ⟨kstate, kxfers, -⟩ := hsend.port_eq hv
    exact ⟨(hsend.ports hv).1, kstate.trans hstate, kxfers.trans hxfers⟩

/-- Once every transfer of a port has ended the port has none. -/
theorem State.endAll_port {s : State} (q status : Nat) (hwf : Map.wf (fun _ => ({} : Port)) s.ports = true) :
    ((s.endAll q status).port q).state = (s.port q).state ∧ ((s.endAll q status).port q).xfers = [] := by
  have hends (l : List HXfer) : ∀ u : State, Map.wf (fun _ => ({} : Port)) u.ports = true →
      let v := l.foldl (fun s x => s.endXfer q x status 0) u
      (v.port q).state = (u.port q).state ∧ ∀ y ∈ (v.port q).xfers, y ∈ (u.port q).xfers ∧ ∀ x ∈ l, !(y.tag = x.tag && y.mod == x.mod) := by
    induction l with
    | nil => exact fun u _ => ⟨rfl, fun y hy => ⟨hy, fun x hx => absurd hx List.not_mem_nil⟩⟩
    | cons x l ih =>
      intro u hu
      obtain ⟨hv, hstate, hxfers⟩ := State.endXfer_port q x status 0 hu
      obtain ⟨kstate, kxfers⟩ := ih _ hv
      refine ⟨kstate.trans hstate, fun y hy => ?_⟩
      obtain ⟨hin, hrest⟩ := kxfers y hy
      rw [hxfers] at hin
      obtain ⟨hold, hne⟩ := List.mem_filter.mp hin
      exact ⟨hold, List.forall_mem_cons.mpr ⟨hne, hrest⟩⟩
  obtain ⟨hstate, hxfers⟩ := hends (s.port q).xfers s hwf
  refine ⟨hstate, List.eq_nil_iff_forall_not_mem.mpr fun y hy => ?_⟩
  obtain ⟨hin, hnone⟩ := hxfers y hy
  simpa using hnone y hin

end Sys2Proof.Machine
end

section
/-!
The commands of HALO_PORT_CTL, training, an acknowledging IDLE and a window's write, each as it stands on an admitted port.
-/

namespace Sys2Proof.Machine

/-! The roles of lanes. -/

section
variable {o : Port} (hwf : Map.wf (regReset portRegs) o.csr = true)
include hwf

theorem Port.wf_csrField (a hi lo v : Nat) : Map.wf (regReset portRegs) (o.csrField a hi lo v).csr = true := Map.wf_set hwf

theorem Port.role_setRole_self (l : Nat) {r : Nat} (hr : r < 16) : (o.setRole l r).role l = r := by
  rw [Port.role, Port.setRole, Port.csrField, Port.csrWord_csrPut_self hwf, bits_setBits_self _ (by decide) (by omega)]

/-- A field of a register that is no role, or the role of another lane. -/
theorem Port.role_csrField {a hi lo l : Nat} (v : Nat) (hhi : hi < 32) (hapart : 0x100 + 4 * l = a → 7 < lo ∨ hi < 4) :
    (o.csrField a hi lo v).role l = o.role l := by
  rw [Port.role, Port.csrField]
  by_cases ha : 0x100 + 4 * l = a
  · rw [ha, Port.csrWord_csrPut_self hwf, bits_setBits_apart _ hhi _ (hapart ha), ← ha]
    rfl
  · rw [Port.csrWord_csrPut_ne hwf _ ha]
    rfl

/-- A lane out of use for the spare: the spare has its position, it none. -/
theorem Port.role_swapSpare {l : Nat} (hl : l < 8) (hrole : o.role l < 8) : (o.swapSpare l).role 8 = o.role l ∧ (o.swapSpare l).role l = 15 := by
  have hspare := Port.wf_csrField hwf (0x100 + 4 * 8) 7 4 (o.role l)
  have hlane := Port.wf_csrField hspare (0x100 + 4 * l) 7 4 15
  unfold Port.swapSpare Port.setRole
  constructor
  · rw [Port.role_csrField hlane _ (by decide) (by omega), Port.role_csrField hspare _ (by decide) (by omega)]
    exact Port.role_setRole_self hwf 8 (by omega)
  · rw [Port.role_csrField hlane _ (by decide) (by omega)]
    exact Port.role_setRole_self hspare l (by decide)

/-- Training gives each lane its own position. -/
theorem Port.role_trained (n : Nat) (hn : n ≤ 9) :
    let z := (List.range n).foldl (fun o l => (o.setLane l 2).setRole l l) o
    Map.wf (regReset portRegs) z.csr = true ∧ ∀ l < n, z.role l = l := by
  induction n with
  | zero => exact ⟨hwf, fun l hl => absurd hl (Nat.not_lt_zero l)⟩
  | succ n ih =>
    obtain ⟨hz, hrole⟩ := ih (by omega)
    rw [List.range_succ, List.foldl_append]
    have hlane := Port.wf_csrField hz (0x100 + 4 * n) 2 0 2
    refine ⟨Port.wf_csrField hlane _ _ _ _, fun l hl => ?_⟩
    by_cases hln : l = n
    · rw [hln]
      exact Port.role_setRole_self hlane n (by omega)
    · refine (Port.role_csrField hlane _ (by decide) (by omega)).trans ?_
      exact (Port.role_csrField hz _ (by decide) (by omega)).trans (hrole l (by omega))

end

theorem Port.setRoles_csr (o : Port) (l : List Nat) : ∃ csr, l.foldl (fun o l => (o.setLane l 2).setRole l l) o = { o with csr := csr } :=
  Port.foldl_csr (fun _ _ => ⟨_, rfl⟩) l o

/-! Writes of HALO_PORT_CTL and of windows. -/

/-- HALO_PORT_CTL as its table gives it. -/
def haloCtlReg : Reg := ⟨0x0, 0, 1, 0xF00000, 0xF00001, 0x0, 0x6, false⟩

theorem regAt_haloCtl : regAt portRegs 0x0 = some haloCtlReg := by decide

theorem State.portWrite_admitted {s : State} {q a : Nat} {v : Word} (hadmitted : s.portRefused q a v = none) :
    s.portWrite true q a v = s.portAccepted q a v := by
  rw [State.portWrite, State.privileged_true, hadmitted]

theorem bits_ctlWord (o : Port) {cmd : Nat} (hcmd : cmd < 4) : bits (ctlWord o cmd) 2 1 = cmd := bits_setBits_self _ (by decide) (by omega)

/-- The port as an admitted command of HALO_PORT_CTL finds it: its mode is as before. -/
def Port.commanded (o : Port) (cmd : Nat) : Port := o.csrPut 0x0 (regWrite haloCtlReg (o.csrWord 0x0) (ctlWord o cmd))

theorem Port.commanded_ether {o : Port} (hwf : Map.wf (regReset portRegs) o.csr = true) (cmd : Nat) : (o.commanded cmd).ether = o.ether := by
  rw [Port.ether, Port.commanded, Port.csrWord_csrPut_self hwf, Port.ether, bit_eq_bits, bit_eq_bits, bits_regWrite _ _ (by decide) (by decide),
    ctlWord, bits_setBits_apart _ (by decide) _ (by decide)]

theorem State.portWrite_command {s : State} {q cmd : Nat} (hcmd : cmd < 4) (hadmitted : s.portRefused q 0 (ctlWord (s.port q) cmd) = none) :
    s.portWrite true q 0 (ctlWord (s.port q) cmd) = (s.setPort q ((s.port q).commanded cmd)).portCommand q cmd := by
  rw [State.portWrite_admitted hadmitted, State.portAccepted, regAt_haloCtl]
  refine (if_pos rfl).trans ?_
  rw [bits_ctlWord _ hcmd]
  rfl

section
variable {s : State} {q : Nat} (hwf : Map.wf (fun _ => ({} : Port)) s.ports = true)
include hwf

/-- A port that begins its training: fresh sequence numbers, no credits, its own to give in Halo-native mode. -/
theorem State.portCommand_enable (z : Port) : ∃ csr, (s.setPort q z).portCommand q 1 = s.setPort q { z with
    state := 1, rxSeq := 0, discard := false, rxBuf := [], owed := if z.ether then 0 else 4096, txSeq := 0, sent := [], txq := [],
    credits := 0, fails := 0, trainFails := 0, change := [], turn := [], held := [], posted := [], uncorr := [], lame := false, csr := csr } := by
  simp only [State.portCommand]
  rw [State.setPort_port_self hwf, State.setPort_setPort _ _ hwf]
  exact (Port.setLanes_csr _ _ _).imp fun csr h => congrArg (s.setPort q) h

theorem State.haloRetrain_port : ∃ csr, s.haloRetrain q = s.setPort q { s.port q with
    state := 3, trainFails := 0, change := [], turn := [], uncorr := [], fails := 0, csr := csr } :=
  (Port.setLanes_csr _ _ _).imp fun csr h => congrArg (s.setPort q) h

/-- A port whose transfers are all cancelled has none; no tile changes. -/
theorem State.cancelled_port (z : Port) : let u := ((s.setPort q z).endAll q 4).recallReqs q
    (u.port q).state = z.state ∧ (u.port q).xfers = [] ∧ u.tiles = s.tiles := by
  obtain ⟨hstate, hxfers⟩ := State.endAll_port (s := s.setPort q z) q 4 (Map.wf_set hwf)
  obtain ⟨hport, htiles⟩ := ((s.setPort q z).endAll q 4).recallReqs_port q q
  obtain ⟨_, _, _, hframe⟩ := (s.setPort q z).endAll_portWork q 4
  dsimp only
  rw [hport, htiles, hstate, hxfers, hframe, State.setPort_port_self hwf]
  exact ⟨rfl, rfl, rfl⟩

end

/-! Training. -/

theorem State.says_ports {α : Type} (f : α → Msg) (l : List α) (s : State) : (l.foldl (fun s a => s.say (f a)) s).ports = s.ports :=
  List.foldlRecOn (motive := fun u : State => u.ports = s.ports) l _ rfl fun _ hu _ _ => hu

section
variable {s : State} {q : Nat} (hwf : Map.wf (fun _ => ({} : Port)) s.ports = true)
include hwf

theorem State.roceFlush_csr : ((s.roceFlush q).port q).csr = (s.port q).csr := by
  simp only [State.roceFlush]
  split
  · rfl
  · rw [State.port, State.says_ports, ← State.port, State.setPort_port_self hwf]

theorem State.haloIdle_csr (nak : Bool) : ((s.haloIdle q nak).port q).csr = (s.port q).csr := by
  simp only [State.haloIdle]
  split
  · change ((s.setPort q _).port q).csr = _
    rw [State.setPort_port_self hwf]
  · rfl

end

/-- A pass of time at a port with nothing received, nothing to send and no transfer sends what it held. -/
theorem State.haloTick_quiet {s : State} {q : Nat} (hbuf : (s.port q).rxBuf = []) (htxq : (s.port q).txq = []) (hxfers : (s.port q).xfers = [])
    (hstate : ((s.roceFlush q).port q).state ≠ 4) : s.haloTick q = s.roceFlush q := by
  have hdrain : s.haloDrain q (s.port q).rxBuf.length = s := by rw [hbuf]; rfl
  have hpump : s.haloPump q = s := by rw [State.haloPump, hxfers]; rfl
  have hflush : s.haloFlush q (s.port q).txq.length = s := by rw [htxq]; rfl
  simp only [State.haloTick]
  rw [hdrain, hpump, hflush, if_neg hstate]

/-- A port whose training succeeds is up on every lane. -/
theorem State.haloTrained_up {s : State} {q rtt : Nat} (hcanon : s.canonical = true) (hrtt : rtt ≤ 250) (hstate : (s.port q).state = 1)
    (hbuf : (s.port q).rxBuf = []) (htxq : (s.port q).txq = []) (hxfers : (s.port q).xfers = []) : let u := s.haloTrained q true rtt
    (u.port q).state = 2 ∧ (u.port q).bad = [] ∧ (∀ l < 9, (u.port q).role l = l) ∧ u.tiles = s.tiles ∧ u.sites = s.sites := by
  have hwf := (State.canon hcanon).ports
  obtain ⟨w, hw⟩ : ∃ w : Word, w = BitVec.ofNat 32 (rtt * 2 ^ 24 + 15 * 2 ^ 20) := ⟨_, rfl⟩
  obtain ⟨z, hz⟩ : ∃ z, z = { s.port q with state := 2, trainFails := 0, bad := [] }.csrPut 0x4 w := ⟨_, rfl⟩
  have hzwf : Map.wf (regReset portRegs) z.csr = true := by rw [hz]; exact Map.wf_set ((State.canon hcanon).portCsr q)
  obtain ⟨csr, hup⟩ := z.setRoles_csr (List.range 9)
  obtain ⟨-, hroles⟩ := Port.role_trained hzwf 9 (by decide)
  rw [hup] at hroles
  have htrained : s.haloTrained q true rtt = (List.range 17).foldl (fun s _ => if (s.port q).owed = 0 then s else s.haloIdle q false)
      ((s.setPort q { z with csr := csr }).haloTick q) := by
    simp only [State.haloTrained, hstate]
    rw [if_neg (by decide), if_pos (by simp [hrtt]), if_neg (by simp), ← hw, ← hz, hup]
  have h1 : (s.setPort q { z with csr := csr }).port q = { z with csr := csr } := State.setPort_port_self hwf
  obtain ⟨s1, hs1⟩ : ∃ s1, s1 = s.setPort q { z with csr := csr } := ⟨_, rfl⟩
  rw [← hs1] at htrained h1
  have hwf1 : Map.wf (fun _ => ({} : Port)) s1.ports = true := by rw [hs1]; exact Map.wf_set hwf
  have hflush := s1.roceFlush_sendWork q
  have hup1 : ((s1.roceFlush q).port q).state = 2 := by rw [(hflush.port_eq hwf1).1, h1, hz]; rfl
  have htick : s1.haloTick q = s1.roceFlush q := State.haloTick_quiet (by rw [h1, hz]; exact hbuf) (by rw [h1, hz]; exact htxq)
    (by rw [h1, hz]; exact hxfers) (by rw [hup1]; decide)
  rw [htick] at htrained
  have hsent : SendWork q s1 (s.haloTrained q true rtt) ∧ ((s.haloTrained q true rtt).port q).csr = csr := by
    rw [htrained]
    refine List.foldlRecOn (motive := fun u : State => SendWork q s1 u ∧ (u.port q).csr = csr) _ _
      ⟨hflush, (State.roceFlush_csr hwf1).trans (congrArg Port.csr h1)⟩ fun u hu _ _ => ?_
    obtain ⟨hwork, hcsr⟩ := hu
    split
    · exact ⟨hwork, hcsr⟩
    · exact ⟨hwork.trans (u.haloIdle_sendWork q false), (State.haloIdle_csr (hwork.ports hwf1).1 false).trans hcsr⟩
  obtain ⟨hwork, hcsr⟩ := hsent
  obtain ⟨kstate, -, kbad⟩ := hwork.port_eq hwf1
  rw [h1] at kstate kbad
  refine ⟨kstate.trans (by rw [hz]; rfl), kbad.trans (by rw [hz]; rfl), fun l hl => ?_, hwork.tiles_eq.trans (by rw [hs1]; rfl),
    hwork.sites_eq.trans (by rw [hs1]; rfl)⟩
  rw [Port.role, Port.csrWord, hcsr]
  exact hroles l hl

theorem State.haloTrained_again {s : State} {q rtt : Nat} (hstate : (s.port q).state = 1 ∨ (s.port q).state = 3) (hfails : (s.port q).trainFails < 2) :
    s.haloTrained q false rtt = s.setPort q { s.port q with trainFails := (s.port q).trainFails + 1 } := by
  simp only [State.haloTrained]
  rw [if_neg (by rcases hstate with h | h <;> rw [h] <;> decide), if_neg (by simp), if_neg (by omega)]

/-- The third failure in a row fails the port. -/
theorem State.haloTrained_failed {s : State} {q rtt : Nat} (hwf : Map.wf (fun _ => ({} : Port)) s.ports = true)
    (hstate : (s.port q).state = 1 ∨ (s.port q).state = 3) (hfails : 2 ≤ (s.port q).trainFails) :
    ((s.haloTrained q false rtt).port q).state = 5 ∧ ((s.haloTrained q false rtt).port q).xfers = [] := by
  obtain ⟨csr, hfailed⟩ := Port.setLanes_csr { s.port q with state := 5, trainFails := 3 } (List.range 9) 3
  have hended : s.haloTrained q false rtt =
      ((s.setPort q { s.port q with state := 5, trainFails := 3, csr := csr }).endAll q 4).recallReqs q := by
    simp only [State.haloTrained]
    rw [if_neg (by rcases hstate with h | h <;> rw [h] <;> decide), if_neg (by simp), if_pos hfails, hfailed]
  obtain ⟨kstate, kxfers, -⟩ := State.cancelled_port (q := q) hwf { s.port q with state := 5, trainFails := 3, csr := csr }
  rw [hended]
  exact ⟨kstate, kxfers⟩

/-! An IDLE that acknowledges the oldest flit (R385). -/

theorem State.haloRx_idle {s : State} {q : Nat} {x : HFlit} {f : HSent} {l : List HSent} (hwf : Map.wf (fun _ => ({} : Port)) s.ports = true)
    (hstate : (s.port q).state = 2) (hether : (s.port q).ether = false) (hbuf : (s.port q).rxBuf = []) (htxq : (s.port q).txq = [])
    (hxfers : (s.port q).xfers = []) (hheld : (s.port q).held = []) (hgood : haloGood 0 x = true) (hcodes : x.codewords = []) (hnak : x.nak = false)
    (hsent : (s.port q).sent = f :: l) (hack : x.ack = f.seq) :
    s.haloRx q 0 x = s.setPort q { s.port q with sent := l, credits := min 4096 ((s.port q).credits + x.cred), fails := 0 } := by
  have hsends : (s.port q).sends = true := by simp [Port.sends, hstate]
  have hacked : s.haloAck q x = s.setPort q { s.port q with sent := l, credits := min 4096 ((s.port q).credits + x.cred), fails := 0 } := by
    have hfirst : (s.port q).sent.findIdx? (fun f => decide (f.seq = x.ack)) = some 0 := by rw [hsent, hack]; simp [List.findIdx?_cons]
    simp only [State.haloAck]
    rw [hfirst, hnak, Bool.false_and, if_neg (by decide), hsent]
    dsimp only
    rw [if_neg (by simp)]
    rfl
  obtain ⟨z, hz⟩ : ∃ z : Port, z = { s.port q with sent := l, credits := min 4096 ((s.port q).credits + x.cred), fails := 0 } := ⟨_, rfl⟩
  rw [← hz] at hacked ⊢
  have hport : (s.setPort q z).port q = z := State.setPort_port_self hwf
  have hflush : (s.setPort q z).roceFlush q = s.setPort q z := by
    have hnone : z.held.isEmpty = true := by rw [hz, hheld]; rfl
    simp only [State.roceFlush]
    rw [hport, hnone, Bool.true_or, if_pos rfl]
  have htick : (s.setPort q z).haloTick q = s.setPort q z := (State.haloTick_quiet (by rw [hport, hz]; exact hbuf) (by rw [hport, hz]; exact htxq)
    (by rw [hport, hz]; exact hxfers) (by rw [hflush, hport, hz, hstate]; decide)).trans hflush
  unfold State.haloRx
  dsimp only
  rw [hcodes, if_pos List.isEmpty_nil, hsends, hether, hgood, if_neg (by decide), if_neg (by simp), if_pos rfl, hacked, htick]

/-! A window's write (R396). -/

/-- HALO_WIN_BASE and HALO_WIN_SIZE as their table gives them. -/
def haloWinReg (a : Nat) : Reg := ⟨a, 16, 64, 0x0, 0xFFFFFFFF, 0x0, 0x0, false⟩

theorem regAt_haloWin : ∀ w < 64, regAt portRegs (0x1000 + 16 * w) = some (haloWinReg 0x1000) ∧
    regAt portRegs (0x1008 + 16 * w) = some (haloWinReg 0x1008) := by decide

theorem regWrite_haloWin (a : Nat) (old v : Word) : regWrite (haloWinReg a) old v = v := by
  have hall : BitVec.ofNat 32 (haloWinReg a).rw = BitVec.allOnes 32 := by change BitVec.ofNat 32 0xFFFFFFFF = _; decide
  have hnone : BitVec.ofNat 32 (haloWinReg a).w1c = 0 := rfl
  simp only [regWrite, hall, hnone, BitVec.not_allOnes, BitVec.and_zero, BitVec.zero_or, BitVec.and_allOnes, BitVec.not_zero, BitVec.ofNat_eq_ofNat]

theorem State.portRefused_reg {s : State} {q a : Nat} {v : Word} (hadmitted : s.portRefused q a v = none) : ∃ r, regAt portRegs a = some r := by
  cases hreg : regAt portRegs a with
  | none => simp [State.portRefused, hreg] at hadmitted
  | some r => exact ⟨r, rfl⟩

/-- What an admitted write of a window does: a register that is written whole takes the word. -/
theorem State.portAccepted_window {s : State} {q off : Nat} {v : Word} (hwf : Map.wf (fun _ => ({} : Port)) s.ports = true) (hlow : 0x1000 ≤ off)
    (hhigh : off < 0x1400) (hadmitted : s.portRefused q off v = none) : ∃ w : Word, s.portAccepted q off v = s.setPort q (let y := (s.port q).csrPut off w
      let c := 0x100C + 16 * ((off - 0x1000) / 16)
      y.csrField c 31 16 (bits (y.csrWord c) 31 16 + 1)) ∧ (off % 16 = 0 ∨ off % 16 = 8 → w = v) := by
  obtain ⟨r, hreg⟩ := State.portRefused_reg hadmitted
  refine ⟨regWrite r ((s.port q).csrWord off) v, ?_, fun hoff => ?_⟩
  · unfold State.portAccepted
    dsimp only
    rw [hreg, if_neg (by omega), if_neg (by omega), if_pos hlow, State.setPort_port_self hwf, State.setPort_setPort _ _ hwf]
  · obtain ⟨hbase, hsize⟩ := regAt_haloWin ((off - 0x1000) / 16) (by omega)
    rcases hoff with hoff | hoff
    · rw [show 0x1000 + 16 * ((off - 0x1000) / 16) = off by omega, hreg] at hbase
      rw [Option.some.inj hbase]
      exact regWrite_haloWin _ _ _
    · rw [show 0x1008 + 16 * ((off - 0x1000) / 16) = off by omega, hreg] at hsize
      rw [Option.some.inj hsize]
      exact regWrite_haloWin _ _ _

end Sys2Proof.Machine
end

section
/-!
A lane that goes bad with the spare free (R387), and a link of the ring that breaks at rest (R382).
-/

namespace Sys2Proof.Machine

/-! Sending one flit. -/

/-- Without credits nothing is sent. -/
theorem State.haloFlush_credits {s : State} {q k : Nat} (hether : (s.port q).ether = false) (hcredits : (s.port q).credits = 0) :
    s.haloFlush q k = s := by
  cases k with
  | zero => rfl
  | succ k =>
    simp only [State.haloFlush]
    split
    · rfl
    · split
      · rfl
      · rw [hether, if_neg (by decide), if_pos (by simp [hcredits])]

/-- One flit that waits with a credit goes, and the module's lane changes of the next SEQ take effect. -/
theorem State.haloFlush_one {s : State} {q : Nat} {f : HSent} (htxq : (s.port q).txq = [f]) (hsends : (s.port q).sends = true)
    (hether : (s.port q).ether = false) (hcredits : 0 < (s.port q).credits) (hroom : (s.port q).sent.length < 2048) :
    ∃ m, s.haloFlush q 1 = (s.setPort q { s.port q with
      txq := [], sent := (s.port q).sent ++ [{ f with seq := (s.port q).txSeq }], txSeq := ((s.port q).txSeq + 1) % 4096,
      credits := (s.port q).credits - 1, owed := (s.port q).owed - min 255 (s.port q).owed }.turnLanes).say m := by
  simp only [State.haloFlush, htxq, hsends, hether]
  rw [if_neg (by decide), if_neg (by decide), if_neg (by simp; omega)]
  exact ⟨_, rfl⟩

/-- The spare's turn comes at the SEQ it was named for. -/
theorem Port.turnLanes_spare {o : Port} {lane : Nat} (hlane : lane < 8) (hspare : o.role 8 = 8) (hturn : o.turn = [(1, lane, o.txSeq)]) :
    o.turnLanes = { o with turn := [] }.swapSpare lane := by
  have hdue : [(1, lane, o.txSeq)].filter (fun c => decide (c.2.2 = o.txSeq)) = [(1, lane, o.txSeq)] := by simp
  have hrest : [(1, lane, o.txSeq)].filter (fun c => decide (c.2.2 ≠ o.txSeq)) = [] := by simp
  have hfree : ({ o with turn := [] } : Port).role 8 = 8 := hspare
  rw [Port.turnLanes, hturn, hdue, hrest, List.foldl_cons, List.foldl_nil]
  simp only [Port.changeLanes]
  rw [if_pos trivial, if_pos (by simp [hlane, hfree])]

/-- A CTRL flit that goes at once, as the spare's turn comes at the next SEQ. -/
theorem State.haloTx_spare {s : State} {q lane typ tag off : Nat} {data : List Byte} (hwf : Map.wf (fun _ => ({} : Port)) s.ports = true)
    (hcsr : Map.wf (regReset portRegs) (s.port q).csr = true) (hsends : (s.port q).sends = true) (hether : (s.port q).ether = false)
    (htxq : (s.port q).txq = []) (hcredits : 0 < (s.port q).credits) (hroom : (s.port q).sent.length < 2048) (hlane : lane < 8)
    (hrole : (s.port q).role lane < 8) (hspare : (s.port q).role 8 = 8) (hturn : (s.port q).turn = [(1, lane, ((s.port q).txSeq + 1) % 4096)]) :
    let o := (s.haloTx q typ tag off data).port q
    o.role 8 = (s.port q).role lane ∧ o.role lane = 15 ∧ o.turn = [] ∧
      o.sent = (s.port q).sent ++ [{ seq := (s.port q).txSeq, typ := typ, tag := tag, off := off, data := data }] := by
  obtain ⟨x, hx⟩ : ∃ x : Port, x = { s.port q with txq := [{ seq := 0, typ := typ, tag := tag, off := off, data := data }] } := ⟨_, rfl⟩
  have hport : (s.setPort q x).port q = x := State.setPort_port_self hwf
  obtain ⟨m, hflush⟩ := State.haloFlush_one (s := s.setPort q x) (q := q) (by rw [hport, hx]) (by rw [hport, hx]; exact hsends)
    (by rw [hport, hx]; exact hether) (by rw [hport, hx]; exact hcredits) (by rw [hport, hx]; exact hroom)
  have hgiven : s.haloTx q typ tag off data = (s.setPort q x).haloFlush q 1 := by
    simp only [State.haloTx]
    rw [htxq, hx]
    rfl
  rw [hport, State.setPort_setPort _ _ hwf] at hflush
  obtain ⟨y, hy⟩ : ∃ y : Port, y = { x with
    txq := [], sent := x.sent ++ [{ seq := x.txSeq, typ := typ, tag := tag, off := off, data := data }], txSeq := (x.txSeq + 1) % 4096
    credits := x.credits - 1, owed := x.owed - min 255 x.owed } := ⟨_, rfl⟩
  rw [← hy, Port.turnLanes_spare hlane (by rw [hy, hx]; exact hspare) (by rw [hy, hx]; exact hturn)] at hflush
  have hsent : (s.haloTx q typ tag off data).port q = { y with turn := [] }.swapSpare lane := by
    rw [hgiven, hflush]
    exact State.setPort_port_self hwf
  obtain ⟨h8, h15⟩ := Port.role_swapSpare (o := { y with turn := [] }) (l := lane) (by rw [hy, hx]; exact hcsr) hlane (by rw [hy, hx]; exact hrole)
  dsimp only
  rw [hsent, h8, h15]
  refine ⟨by rw [hy, hx]; rfl, rfl, rfl, ?_⟩
  change y.sent = _
  rw [hy, hx]

/-! A bad lane. -/

/-- The port with one more bad lane. -/
def Port.lostLane (o : Port) (lane : Nat) : Port :=
  ({ o with bad := o.bad ++ [lane], uncorr := o.uncorr.filter fun u => u.1 ≠ lane }.csrField (0x100 + 4 * lane) 3 3 1).setLane lane 3

theorem Port.lostLane_csr (o : Port) (lane : Nat) : ∃ csr, o.lostLane lane =
    { o with bad := o.bad ++ [lane], uncorr := o.uncorr.filter fun u => u.1 ≠ lane, csr := csr } := ⟨_, rfl⟩

section
variable {o : Port} (hwf : Map.wf (regReset portRegs) o.csr = true)
include hwf

theorem Port.role_lostLane (lane l : Nat) : (o.lostLane lane).role l = o.role l :=
  (Port.role_csrField (Port.wf_csrField (o := { o with bad := o.bad ++ [lane], uncorr := o.uncorr.filter fun u => u.1 ≠ lane }) hwf _ _ _ _) _
    (by decide) (fun _ => .inr (by decide))).trans (Port.role_csrField (o := { o with bad := o.bad ++ [lane], uncorr := _ }) hwf _ (by decide)
    (fun _ => .inr (by decide)))

theorem Port.lostLane_ether (lane : Nat) : (o.lostLane lane).ether = o.ether := by
  have hne : 0x0 ≠ 0x100 + 4 * lane := by omega
  have hwf1 : Map.wf (regReset portRegs) ({ o with bad := o.bad ++ [lane], uncorr := o.uncorr.filter fun u => u.1 ≠ lane }).csr = true := hwf
  exact congrArg (bit · 0) ((Port.csrWord_csrPut_ne (Port.wf_csrPut hwf1 _ _) _ hne).trans (Port.csrWord_csrPut_ne hwf1 _ hne))

theorem Port.wf_lostLane (lane : Nat) : Map.wf (regReset portRegs) (o.lostLane lane).csr = true := Map.wf_set (Map.wf_set hwf)

end

/-- The record of a bad lane, with the port's registers. -/
def laneRec (q lane : Nat) (z : Port) : Rec :=
  { source := 0x0C, cls := 2, loc := portLoc q lane, inj := false, detail := [z.csrWord 0x4, z.csrWord 0x10, z.csrWord (0x100 + 4 * lane)] }

/-- A bad lane whose place the spare may take: its CTRL flit is given to the port to send. -/
theorem State.laneBad_spare {s : State} {q lane : Nat} (hcanon : s.canonical = true) (hlane : lane < 8) (hstate : (s.port q).state = 2)
    (hether : (s.port q).ether = false) (hgood : lane ∉ (s.port q).bad) (hrole : (s.port q).role lane < 8) (hspare : (s.port q).role 8 = 8)
    (hturn : (s.port q).turn = []) :
    let sq := ((s.port q).txSeq + (s.port q).txq.length + 1) % 4096
    ∃ m, s.laneBad q lane false = ({ s with mod := m }.setPort q { (s.port q).lostLane lane with turn := [(1, lane, sq)] }).haloTx q 6 0 0
      ([1, BitVec.ofNat 8 lane] ++ leBytes sq 2) := by
  have hwf := (State.canon hcanon).ports
  have hcsr := (State.canon hcanon).portCsr q
  obtain ⟨z, hz⟩ : ∃ z, z = (s.port q).lostLane lane := ⟨_, rfl⟩
  obtain ⟨csr, hlost⟩ := (s.port q).lostLane_csr lane
  have hzrole (l : Nat) : z.role l = (s.port q).role l := by rw [hz]; exact Port.role_lostLane hcsr lane l
  have hzturn : z.turn = [] := by rw [hz, hlost]; exact hturn
  have hzseq : (z.txSeq + z.txq.length + 1) % 4096 = ((s.port q).txSeq + (s.port q).txq.length + 1) % 4096 := by rw [hz, hlost]
  obtain ⟨csr, log, hraise, -⟩ := State.raise_same (s := s.setPort q z) (r := laneRec q lane z) (show (2 : Nat) ≠ 1 by decide)
  rw [← hz]
  refine ⟨{ s.mod with csr := csr, log := log }, ?_⟩
  have hport : ((s.setPort q z).raise (laneRec q lane z)).port q = z := by rw [hraise]; exact State.setPort_port_self hwf
  unfold State.laneBad
  dsimp only
  rw [if_neg (by simp [hstate, hgood])]
  rw [← Port.lostLane, ← hz, ← laneRec, hether, if_neg (by decide), hzrole, hzrole, hzturn, if_neg (by omega), if_neg (by simp; omega),
    if_pos (by simp [hspare]), if_neg (by decide), hport, hzturn, hzseq, hraise]
  exact congrArg (State.haloTx · q 6 0 0 ([1, BitVec.ofNat 8 lane] ++ leBytes _ 2))
    (State.setPort_setPort (s := { s with mod := { s.mod with csr := csr, log := log } }) z _ hwf)

/-- What a bad lane shows whose place the spare may take: at once where the flit goes, else at its SEQ. -/
theorem State.laneBad_shown {s : State} {q lane : Nat} (hcanon : s.canonical = true) (hlane : lane < 8) (hstate : (s.port q).state = 2)
    (hether : (s.port q).ether = false) (hgood : lane ∉ (s.port q).bad) (hrole : (s.port q).role lane < 8) (hspare : (s.port q).role 8 = 8)
    (hturn : (s.port q).turn = []) :
    let o := s.port q
    let u := s.laneBad q lane false
    let sq := (o.txSeq + o.txq.length + 1) % 4096
    (u.port q).bad = o.bad ++ [lane] ∧ (u.port q).state = 2 ∧ u.tiles = s.tiles ∧
      (o.txq = [] → 0 < o.credits → o.sent.length < 2048 → (u.port q).role 8 = o.role lane ∧ (u.port q).role lane = 15 ∧ (u.port q).turn = [] ∧
        (u.port q).sent = o.sent ++ [{ seq := o.txSeq, typ := 6, tag := 0, off := 0, data := [1, BitVec.ofNat 8 lane] ++ leBytes sq 2 }]) ∧
      (o.credits = 0 → (u.port q).role 8 = 8 ∧ (u.port q).role lane = o.role lane ∧ (u.port q).turn = [(1, lane, sq)]) := by
  have hwf := (State.canon hcanon).ports
  have hcsr := (State.canon hcanon).portCsr q
  obtain ⟨m, hbad⟩ := State.laneBad_spare hcanon hlane hstate hether hgood hrole hspare hturn
  dsimp only
  rw [hbad]
  obtain ⟨sq, hsq⟩ : ∃ sq, sq = ((s.port q).txSeq + (s.port q).txq.length + 1) % 4096 := ⟨_, rfl⟩
  obtain ⟨data, hdata⟩ : ∃ data, data = [1, BitVec.ofNat 8 lane] ++ leBytes sq 2 := ⟨_, rfl⟩
  rw [← hsq, ← hdata]
  obtain ⟨z, hz⟩ : ∃ z : Port, z = { (s.port q).lostLane lane with turn := [(1, lane, sq)] } := ⟨_, rfl⟩
  rw [← hz]
  have hzrole (l : Nat) : z.role l = (s.port q).role l := by rw [hz]; exact Port.role_lostLane hcsr lane l
  have hzcsr : Map.wf (regReset portRegs) z.csr = true := by rw [hz]; exact Port.wf_lostLane hcsr lane
  have hzether : z.ether = false := by rw [hz, ← hether]; exact Port.lostLane_ether hcsr lane
  obtain ⟨csr, hlost⟩ := (s.port q).lostLane_csr lane
  rw [hlost] at hz
  have hwf1 : Map.wf (fun _ => ({} : Port)) ({ s with mod := m }.setPort q z).ports = true := Map.wf_set hwf
  have hport : ({ s with mod := m }.setPort q z).port q = z := Map.get_set_self hwf
  have htiles : ({ s with mod := m }.setPort q z).tiles = s.tiles := rfl
  obtain ⟨t, ht⟩ : ∃ t, t = { s with mod := m }.setPort q z := ⟨_, rfl⟩
  rw [← ht] at hwf1 hport htiles ⊢
  have hsend := t.haloTx_sendWork q 6 0 0 data
  obtain ⟨kstate, -, kbad⟩ := hsend.port_eq hwf1
  refine ⟨by rw [kbad, hport, hz], by rw [kstate, hport, hz]; exact hstate, hsend.tiles_eq.trans htiles, fun htxq hcredits hroom => ?_, fun hcredits => ?_⟩
  · have hnext : sq = ((s.port q).txSeq + 1) % 4096 := by rw [hsq, htxq]; rfl
    obtain ⟨k8, kl, kturn, ksent⟩ := State.haloTx_spare (s := t) (q := q) (lane := lane) (typ := 6) (tag := 0) (off := 0) (data := data) hwf1
      (by rw [hport]; exact hzcsr) (by rw [hport, hz]; simp [Port.sends, hstate]) (by rw [hport]; exact hzether) (by rw [hport, hz]; exact htxq)
      (by rw [hport, hz]; exact hcredits) (by rw [hport, hz]; exact hroom) hlane (by rw [hport, hzrole]; exact hrole) (by rw [hport, hzrole]; exact hspare)
      (by rw [hport, hz, hnext])
    refine ⟨by rw [k8, hport, hzrole], kl, kturn, ksent.trans ?_⟩
    rw [hport, hz]
  · have hkept : (t.haloTx q 6 0 0 data).port q = { z with txq := z.txq ++ [{ seq := 0, typ := 6, tag := 0, off := 0, data := data }] } := by
      simp only [State.haloTx]
      rw [hport]
      have hself (x : Port) : (t.setPort q x).port q = x := State.setPort_port_self hwf1
      rw [State.haloFlush_credits (by rw [hself]; exact hzether) (by rw [hself, hz]; exact hcredits), hself]
    rw [hkept]
    exact ⟨(hzrole 8).trans hspare, hzrole lane, by rw [hz]⟩

end Sys2Proof.Machine
end

section
/-!
O45: Halo ports (R382 to R397).
-/

namespace Sys2Proof.Machine

/-- Nothing changes where no step of a fold changes what it begins with. -/
theorem foldl_still {α β : Type} {f : β → α → β} {b : β} {l : List α} (h : ∀ a ∈ l, f b a = b) : l.foldl f b = b := by
  induction l with
  | nil => rfl
  | cons a l ih =>
    obtain ⟨ha, hl⟩ := List.forall_mem_cons.mp h
    rw [List.foldl_cons, ha, ih hl]

theorem State.raiseAll_soft {l : List Rec} (h : ∀ r ∈ l, r.cls ≠ 1) : ∀ s : State, ∃ m, s.raiseAll l = { s with mod := m } := by
  induction l with
  | nil => exact fun s => ⟨s.mod, rfl⟩
  | cons r l ih =>
    intro s
    obtain ⟨hr, hl⟩ := List.forall_mem_cons.mp h
    obtain ⟨csr, log, hraise, -⟩ := State.raise_same (s := s) hr
    obtain ⟨m, hm⟩ := ih hl (s.raise r)
    exact ⟨m, by rw [State.raiseAll, List.foldl_cons, ← State.raiseAll, hm, hraise]⟩

/-- The records of a link of the ring that breaks. -/
def ringRecs (link : Nat) : List Rec :=
  [{ source := 0x0C, cls := 4, loc := siteLoc link }, { source := 0x0C, cls := 4, loc := siteLoc ((link + 1) % 48) }]

/-- A broken link of the ring is listed and recorded; nothing else changes where nothing is on its way. -/
theorem State.ringBreak_of {s u : State} {link : Nat} (hlink : link ∉ s.mod.ring)
    (hu : (s.updMod fun m => { m with ring := m.ring ++ [link] }).raiseAll (ringRecs link) = u)
    (hports : ∀ q ∈ List.range nPorts, (u.port q).xfers = []) (hparts : ∀ p ∈ List.range nParts, (u.part p).step = false) : s.ringBreak link = u := by
  unfold State.ringBreak
  refine (if_neg (by simpa using hlink)).trans ?_
  extract_lets old s1 now hit s2
  have hs1 : s1 = u := hu
  have hs2 : s2 = u := (foldl_still fun q hq => by rw [hs1, hports q hq, List.foldl_nil]).trans hs1
  rw [hs2]
  exact foldl_still fun p hp => by rw [hparts p hp]; rfl

theorem State.ringBreak_still {s : State} {link : Nat} (hlink : link ∉ s.mod.ring) (hports : ∀ q ∈ List.range 12, (s.port q).xfers = [])
    (hparts : ∀ p ∈ List.range 8, (s.part p).step = false) :
    s.ringBreak link = (s.updMod fun m => { m with ring := m.ring ++ [link] }).raiseAll (ringRecs link) := by
  have hsoft : ∀ r ∈ ringRecs link, r.cls ≠ 1 := by
    simp only [ringRecs, List.forall_mem_cons, List.not_mem_nil, false_imp_iff, implies_true, and_true]
    decide
  obtain ⟨m, hm⟩ := State.raiseAll_soft hsoft (s.updMod fun m => { m with ring := m.ring ++ [link] })
  obtain ⟨u, hu⟩ : ∃ u, (s.updMod fun m => { m with ring := m.ring ++ [link] }).raiseAll (ringRecs link) = u := ⟨_, rfl⟩
  have hkports : u.ports = s.ports := by rw [← hu, hm]; rfl
  have hkparts : u.parts = s.parts := by rw [← hu, hm]; rfl
  rw [hu]
  exact State.ringBreak_of hlink hu (fun q hq => by rw [State.port, hkports]; exact hports q hq)
    (fun p hp => by rw [State.part, hkparts]; exact hparts p hp)

end Sys2Proof.Machine

namespace Sys2Proof

open Machine

/-- Settles O45: command by command of HALO_PORT_CTL, then training, acknowledgements, lanes, windows and the ring. -/
theorem haloPorts : Obligations.HaloPorts := by
  intro s hcanon
  have hwf := (State.canon hcanon).ports
  refine ⟨fun q hq => ?_, fun link hlink hwhole hports hparts => s.checked_of (decide_eq_true hlink) (State.ringBreak_still hwhole hports hparts)⟩
  have hport : decide (q < nPorts) = true := decide_eq_true hq
  refine ⟨fun hadmitted => ?_, fun hadmitted => ?_, fun hadmitted => ?_, fun rtt hrtt hstate hbuf htxq hxfers => ?_, fun rtt hstate hfails => ?_,
    fun rtt hstate hfails => ?_, fun x f l hstate hether hbuf htxq hxfers hheld hgood hcodes hnak hsent hack => ?_,
    fun lane hlane hstate hether hgood hrole hspare hturn => ?_, fun off v hlow hhigh halign hadmitted => ?_, fun hup => ?_⟩
  case refine_1 =>
    obtain ⟨csr, henabled⟩ := State.portCommand_enable (q := q) hwf ((s.port q).commanded 1)
    refine ⟨_, s.checked_of hport ((State.portWrite_command (by decide) hadmitted).trans henabled), rfl, rfl, rfl, rfl, rfl, rfl, rfl, ?_, rfl⟩
    rw [Port.commanded_ether ((State.canon hcanon).portCsr q)]
  case refine_2 =>
    obtain ⟨hstate, hxfers, htiles⟩ := State.cancelled_port (q := q) hwf
      { (s.port q).commanded 2 with state := 4, lame := decide (((s.port q).commanded 2).state ≠ 2) }
    refine ⟨_, s.checked_of hport ((State.portWrite_command (by decide) hadmitted).trans ?_), hstate, hxfers, htiles⟩
    simp only [State.portCommand]
    rw [State.setPort_port_self hwf, State.setPort_setPort _ _ hwf]
  case refine_3 =>
    obtain ⟨csr, hretrain⟩ := State.haloRetrain_port (s := s.setPort q ((s.port q).commanded 3)) (q := q) (Map.wf_set hwf)
    rw [State.setPort_port_self hwf, State.setPort_setPort _ _ hwf] at hretrain
    exact ⟨_, s.checked_of hport ((State.portWrite_command (by decide) hadmitted).trans hretrain), rfl, rfl, rfl, rfl, rfl, rfl⟩
  case refine_4 => exact ⟨_, s.checked_of hport rfl, State.haloTrained_up hcanon hrtt hstate hbuf htxq hxfers⟩
  case refine_5 => exact s.checked_of hport (State.haloTrained_again hstate hfails)
  case refine_6 => exact ⟨_, s.checked_of hport rfl, State.haloTrained_failed hwf hstate hfails⟩
  case refine_7 => exact s.checked_of hport (State.haloRx_idle hwf hstate hether hbuf htxq hxfers hheld hgood hcodes hnak hsent hack)
  case refine_8 =>
    exact ⟨_, s.checked_of (by simp; exact ⟨hq, by omega⟩) rfl, State.laneBad_shown hcanon hlane hstate hether hgood hrole hspare hturn⟩
  case refine_9 =>
    obtain ⟨w, haccepted, hwhole⟩ := State.portAccepted_window hwf hlow hhigh hadmitted
    refine ⟨w, s.checked_of ?_ ((State.portWrite_admitted hadmitted).trans haccepted), hwhole⟩
    rw [hport]
    simp [hlow, hhigh, halign]
  case refine_10 =>
    obtain ⟨csr, hretrain⟩ := State.haloRetrain_port (s := s) (q := q) hwf
    exact ⟨_, s.checked_of hport ((if_pos hup).trans hretrain), rfl, rfl, rfl⟩

end Sys2Proof
end

section
/-!
O47: the RoCEv2 traffic of a port in Ethernet mode (R391, R396, Table 15.5).
-/

namespace Sys2Proof.Machine

/-! What a port in Ethernet mode is. -/

theorem State.roceUp_iff {s : State} {q qp : Nat} : s.roceUp q qp = true ↔ (s.port q).state = 2 ∧ (s.port q).ether = true ∧ qp < 1024 := by
  simp [State.roceUp, and_assoc]

theorem State.roceGo_paused {s : State} {q : Nat} (hpaused : Config.rocePriority q ∈ (s.port q).paused) : (s.port q).roceGo q = false := by
  simp [Port.roceGo, hpaused]

/-- A pause holds what waits to be sent. -/
theorem State.haloFlush_paused {s : State} {q : Nat} (hether : (s.port q).ether = true) (hpaused : Config.rocePriority q ∈ (s.port q).paused) (k : Nat) :
    s.haloFlush q k = s := by
  cases k with
  | zero => rfl
  | succ k =>
    simp only [State.haloFlush]
    split
    · rfl
    · rw [hether, State.roceGo_paused hpaused]
      split <;> rfl

theorem State.roceFlush_paused {s : State} {q : Nat} (hpaused : Config.rocePriority q ∈ (s.port q).paused) : s.roceFlush q = s := by
  simp only [State.roceFlush]
  rw [State.roceGo_paused hpaused, Bool.not_false, Bool.or_true, if_pos rfl]

/-! Requests on a memory region. -/

/-- The first transfer of a port under the key of a window that admits it. -/
theorem State.roce_begins {s : State} {q qp key off len : Nat} {read : Bool} {data : List Byte} {imm : Option Word} (hup : s.roceUp q qp = true)
    (hxfers : (s.port q).xfers = []) (hlen : 0 < len) (hwin : key % 256 < 64) (hkey : key = haloKey (s.port q) q (key % 256))
    (hstatus : s.haloStatus q (key % 256) (off / 256) ((off + len - 1) / 256 - off / 256 + 1) read = 0) :
    s.roce q qp key off len read data imm = (s.setPort q { s.port q with xfers :=
        [{ haloXfer (s.port q) 256 false read (key % 256) (off / 256) ((off + len - 1) / 256 - off / 256 + 1) with
          qp := qp, skip := off % 256, len := len, data := data, imm := imm }] }).haloAsk q 256 false 2048 := by
  have hkeyed : (decide (64 ≤ key % 256) || decide (key ≠ haloKey (s.port q) q (key % 256))) = false := by
    rw [decide_eq_false (by omega), decide_eq_false (not_not_intro hkey)]
    rfl
  simp only [State.roce]
  rw [hup, if_neg (show ¬ len = 0 by omega), hstatus, hkeyed, hxfers]
  rfl

/-! SENDs of another queue pair. -/

theorem haloKey_window (o : Port) (q : Nat) {w : Nat} (hw : w < 256) : haloKey o q w % 256 = w := by
  rw [haloKey]
  omega

/-- The units that the bytes of a SEND touch from the beginning of its area. -/
theorem roce_units {unit len : Nat} (hlen : 0 < len) : (256 * unit + len - 1) / 256 - 256 * unit / 256 + 1 = (len + 255) / 256 := by omega

theorem State.roceSend_land {s : State} {q qp w unit n : Nat} {l : List (Nat × Nat × Nat)} {data : List Byte} (hup : s.roceUp q qp = true) (hqp : qp ≠ 1)
    (hposted : Map.get (fun _ => []) (s.port q).posted qp = (w, unit, n) :: l) :
    s.roceSend q qp data =
      let u := s.setPort q { s.port q with posted := Map.set (fun _ => []) (s.port q).posted qp l }
      if 256 * n < data.length then u.haloTurnAway q 0 qp w unit 2
      else u.roce q qp (haloKey (s.port q) q w) (256 * unit) data.length false data none := by
  rw [State.roceSend, if_neg hqp]
  simp only [State.roceLand]
  rw [hposted]
  dsimp only
  rw [hup]
  rfl

theorem State.roceSend_unposted {s : State} {q qp : Nat} {data : List Byte} (hqp : qp ≠ 1) (hposted : Map.get (fun _ => []) (s.port q).posted qp = []) :
    s.roceSend q qp data = s := by
  rw [State.roceSend, if_neg hqp]
  simp only [State.roceLand]
  rw [hposted]

/-- A SEND that fits its area becomes a write of it. -/
theorem State.roceSend_begins {s : State} {q qp w unit n : Nat} {l : List (Nat × Nat × Nat)} {data : List Byte}
    (hwf : Map.wf (fun _ => ({} : Port)) s.ports = true) (hup : s.roceUp q qp = true) (hqp : qp ≠ 1)
    (hposted : Map.get (fun _ => []) (s.port q).posted qp = (w, unit, n) :: l) (hw : w < 64) (hsome : 0 < data.length) (hfits : data.length ≤ 256 * n)
    (hxfers : (s.port q).xfers = [])
    (hstatus : (s.setPort q { s.port q with posted := Map.set (fun _ => []) (s.port q).posted qp l }).haloStatus q w unit ((data.length + 255) / 256) false = 0) :
    s.roceSend q qp data = (s.setPort q { s.port q with
        posted := Map.set (fun _ => []) (s.port q).posted qp l
        xfers := [{ haloXfer (s.port q) 256 false false w unit ((data.length + 255) / 256) with
          qp := qp, skip := 0, len := data.length, data := data, imm := none }] }).haloAsk q 256 false 2048 := by
  obtain ⟨p, hp⟩ : ∃ p : Port, p = { s.port q with posted := Map.set (fun _ => []) (s.port q).posted qp l } := ⟨_, rfl⟩
  have hland := State.roceSend_land hup hqp hposted (data := data)
  rw [← hp] at hstatus hland
  have hport : (s.setPort q p).port q = p := State.setPort_port_self hwf
  have hwindow : haloKey (s.port q) q w % 256 = w := haloKey_window _ _ (by omega)
  have hunit : 256 * unit / 256 = unit := Nat.mul_div_cancel_left unit (by decide)
  have hunits := roce_units (unit := unit) hsome
  have hbegins := State.roce_begins (s := s.setPort q p) (q := q) (qp := qp) (key := haloKey (s.port q) q w) (off := 256 * unit) (len := data.length)
    (read := false) (data := data) (imm := none)
    (by obtain ⟨hstate, hether, hpair⟩ := State.roceUp_iff.mp hup
        exact State.roceUp_iff.mpr ⟨by rw [hport, hp]; exact hstate, by rw [hport, hp]; exact hether, hpair⟩)
    (by rw [hport, hp]; exact hxfers) hsome (by omega) (by rw [hwindow, hport, hp]; rfl) (by rw [hwindow, hunits, hunit]; exact hstatus)
  rw [hland]
  dsimp only
  rw [if_neg (by omega), hbegins, hwindow, hunits, hunit, hport, State.setPort_setPort _ _ hwf, Nat.mul_mod_right, hp]
  rfl

/-! Host messages on queue pair 1 (R406). -/

/-- The header of a host message. -/
def hostHeader (typ p tag len : Nat) : List Byte := leBytes typ 2 ++ leBytes 0 2 ++ leBytes p 4 ++ leBytes tag 4 ++ leBytes len 4

section
variable {typ p tag : Nat} {body : List Byte}

theorem length_hostHeader : (hostHeader typ p tag body.length).length = 16 := rfl

/-- The fields of a host message's header. -/
theorem numAt_hostHeader (htyp : typ < 2 ^ 16) (hp : p < 256) (htag : tag < 2 ^ 32) (hbody : body.length < 2 ^ 32) :
    let l := hostHeader typ p tag body.length ++ body
    numAt l 0 2 = typ ∧ numAt l 4 1 = p ∧ numAt l 5 3 = 0 ∧ numAt l 8 4 = tag ∧ numAt l 12 4 = body.length := by
  simp only [numAt, hostHeader, leBytes, ofLeBytes, List.cons_append, List.nil_append, List.drop_succ_cons, List.drop_zero, List.take_succ_cons,
    List.take_zero, BitVec.toNat_ofNat]
  omega

/-- A message that is laid out so, for the partition of its port, is done as its TYPE says; one for another is answered so. -/
theorem State.roceSend_host {s : State} {q : Nat} (hup : s.roceUp q 1 = true) (hcc : s.mod.cc.up = true) (howner : s.portOwner q < 8) (htyp : typ < 11)
    (hp : p < 256) (htag : tag < 2 ^ 32) (hbody : body.length ≤ if typ = 10 then 2 ^ 20 else 65536) :
    s.roceSend q 1 (hostHeader typ p tag body.length ++ body) = if s.portOwner q ≠ p then s.wrongPart tag p else s.hostDo typ p tag body := by
  have hshort : body.length < 2 ^ 32 := by split at hbody <;> omega
  obtain ⟨ktyp, kp, kzero, ktag, klen⟩ := numAt_hostHeader (typ := typ) (by omega) hp htag hshort
  have hmost : ¬ mostPayload typ < body.length := Nat.not_lt.mpr hbody
  have hdrop : (hostHeader typ p tag body.length ++ body).drop 16 = body := List.drop_left' length_hostHeader
  have hlong : ¬ (hostHeader typ p tag body.length ++ body).length < 16 := by rw [List.length_append, length_hostHeader]; omega
  rw [State.roceSend, if_pos rfl, hup, Bool.true_and, if_pos (decide_eq_true (show s.portOwner q < nParts from howner))]
  simp only [State.hostBytes]
  rw [hcc, ktyp, kp, kzero, ktag, klen, hdrop, if_neg (by simpa using hlong)]
  congr 1
  exact if_neg (by simpa using hmost)

end

/-! Frames, pauses and acknowledgements (Table 15.5). -/

/-- The job service answers a frame at one of the port's own addresses; what does not fit a frame it does not. -/
theorem State.answerFrame_own {s : State} {q kind a : Nat} {data : List Byte} (hup : s.roceUp q 0 = true) (hcc : s.mod.cc.up = true)
    (ha : a ∈ (s.port q).addrs) (hdata : data.length ≤ 9152) : s.answerFrame q kind a data = s.say (.frame q kind a data) := by
  have hfits : (if a < 2 ^ 32 then 44 else 64) + data.length ≤ 9216 := by split <;> omega
  simp only [State.answerFrame]
  rw [hup, hcc, List.contains_iff_mem.mpr ha, decide_eq_true hfits]
  rfl

theorem State.answerFrame_other {s : State} {q kind a : Nat} {data : List Byte} (ha : a ∉ (s.port q).addrs) : s.answerFrame q kind a data = s := by
  have hother : (s.port q).addrs.contains a = false := by simpa using ha
  simp only [State.answerFrame]
  rw [hother, Bool.and_false, Bool.false_and]
  rfl

/-- An acknowledged transfer of the module is over. -/
theorem State.endXfer_module {s : State} {q tag : Nat} {x : HXfer} (hwf : Map.wf (fun _ => ({} : Port)) s.ports = true) (htag : x.tag = tag)
    (hmod : x.mod = true) : (s.setPort q { s.port q with sent := (s.port q).sent.filter fun f => f.tag ≠ tag }).endXfer q x 0 0 =
      s.setPort q { s.port q with
        sent := (s.port q).sent.filter fun f => f.tag ≠ tag
        xfers := (s.port q).xfers.filter fun y => !(decide (y.tag = tag) && y.mod) } := by
  simp only [State.endXfer]
  rw [if_pos hmod, if_pos trivial, State.setPort_port_self hwf, State.setPort_setPort _ _ hwf, Port.dropXfer, htag, hmod]
  simp only [beq_true]

section
variable {s : State} {q : Nat} (hq : q < 12)
include hq

theorem exec_unpause {prio : Nat} (hprio : prio < 8) (hup : s.roceUp q 0 = true) : exec (.priorityFlowControlFrame q prio false) s =
    .next ((s.setPort q { s.port q with paused := (s.port q).paused.filter (· ≠ prio) }).haloTick q) :=
  s.checked_of (Bool.and_eq_true_iff.mpr ⟨decide_eq_true hq, decide_eq_true hprio⟩)
    ((if_neg (by rw [hup]; decide)).trans (if_pos (by decide)))

theorem exec_pause {prio : Nat} (hprio : prio < 8) (hup : s.roceUp q 0 = true) (hroom : ((s.port q).paused.filter (· ≠ prio)).length < 2) :
    exec (.priorityFlowControlFrame q prio true) s =
      .next (s.setPort q { s.port q with paused := (s.port q).paused.filter (· ≠ prio) ++ [prio] }) :=
  s.checked_of (Bool.and_eq_true_iff.mpr ⟨decide_eq_true hq, decide_eq_true hprio⟩)
    ((if_neg (by rw [hup]; decide)).trans ((if_neg (by decide)).trans (if_pos hroom)))

variable {tag : Nat} {x : HXfer} (hup : s.roceUp q 0 = true) (hx : ((s.port q).xfers.find? fun y => decide (y.tag = tag) && y.mod) = some x)
include hup hx

theorem exec_roceNak : exec (.roceAcknowledge q tag true) s = exec (.roceRetransmitTimeout q tag) s := by
  have hresend : exec (.roceRetransmitTimeout q tag) s = .next (s.roceResend q tag) := s.checked_of (decide_eq_true hq) (if_pos hup)
  rw [hresend]
  refine s.checked_of (decide_eq_true hq) ?_
  dsimp only
  rw [hx]
  exact (if_neg (by rw [hup]; decide)).trans (if_pos rfl)

theorem exec_roceAck (hwf : Map.wf (fun _ => ({} : Port)) s.ports = true) : exec (.roceAcknowledge q tag false) s =
    .next (s.setPort q { s.port q with
      sent := (s.port q).sent.filter fun f => f.tag ≠ tag
      xfers := (s.port q).xfers.filter fun y => !(decide (y.tag = tag) && y.mod) }) := by
  have hmatch := List.find?_some hx
  obtain ⟨htag, hmod⟩ := Bool.and_eq_true_iff.mp hmatch
  refine s.checked_of (decide_eq_true hq) ?_
  dsimp only
  rw [hx]
  exact ((if_neg (by rw [hup]; decide)).trans (if_neg (by decide))).trans (State.endXfer_module hwf (of_decide_eq_true htag) hmod)

end

end Sys2Proof.Machine

namespace Sys2Proof

open Machine

/-- Settles O47: request by request of Table 15.5, each as the port in Ethernet mode carries it out. -/
theorem roceTraffic : Obligations.RoceTraffic := by
  intro q s hq hcanon
  have hwf := (State.canon hcanon).ports
  have hport : decide (q < nPorts) = true := decide_eq_true hq
  refine ⟨fun qp key off len hup hxfers hlen hwin hkey => ⟨fun hstatus => ?_, fun data hdata hstatus => ⟨?_, fun i => ?_⟩⟩,
    fun qp w unit n l data hup hqp hposted hw => ⟨fun hlong => ?_, fun hsome hfits hxfers hstatus => ?_, ?_⟩,
    fun qp data hup hqp hposted => s.checked_of hport (State.roceSend_unposted hqp hposted),
    fun typ p tag body hup hcc howner htyp hp htag hbody => ?_, fun hup hpaused => ?_, fun qp hup => ?_, fun hup => ?_⟩
  · exact s.checked_of hport (State.roce_begins hup hxfers hlen hwin hkey hstatus)
  · subst hdata
    exact s.checked_of hport (State.roce_begins hup hxfers hlen hwin hkey hstatus)
  · subst hdata
    exact s.checked_of hport (State.roce_begins hup hxfers hlen hwin hkey hstatus)
  · exact s.checked_of hport ((State.roceSend_land hup hqp hposted).trans (if_pos hlong))
  · exact s.checked_of hport (State.roceSend_begins hwf hup hqp hposted hw hsome hfits hxfers hstatus)
  · exact congrArg Port.posted (State.setPort_port_self hwf)
  · have hsend := State.roceSend_host hup hcc howner htyp hp htag hbody
    exact ⟨fun hother => s.checked_of hport (hsend.trans (if_pos hother)), fun hown => s.checked_of hport (hsend.trans (if_neg (not_not_intro hown))),
      rfl, rfl, rfl, rfl, rfl⟩
  · obtain ⟨-, hether, -⟩ := State.roceUp_iff.mp hup
    exact ⟨State.haloFlush_paused hether hpaused, State.roceFlush_paused hpaused⟩
  · exact ⟨s.checked_of hport (if_pos hup), s.checked_of hport (if_pos hup)⟩
  · refine ⟨fun hcc a id data ha => ⟨?_, ?_, ?_⟩, fun hcc a id data ha hdata => ⟨?_, ?_, ?_⟩, s.checked_of hport (if_pos hup),
      fun prio hprio => ⟨?_, fun hroom => ?_⟩, fun tag x hx => ⟨?_, ?_⟩, fun tag f hf => s.checked_of hport ?_⟩
    · exact s.checked_of hport (State.answerFrame_other ha)
    · exact s.checked_of hport (State.answerFrame_other ha)
    · exact s.checked_of hport (State.answerFrame_other ha)
    · exact s.checked_of hport (State.answerFrame_own hup hcc ha (Nat.zero_le _))
    · exact s.checked_of hport (State.answerFrame_own hup hcc ha (Nat.zero_le _))
    · exact s.checked_of hport (State.answerFrame_own hup hcc ha (by rw [List.length_append, length_leBytes]; omega))
    · exact exec_unpause hq hprio hup
    · exact exec_pause hq hprio hup hroom
    · exact exec_roceAck hq hup hx hwf
    · exact exec_roceNak hq hup hx
    · rw [if_pos hup, State.roceResend, hf]
      rfl

end Sys2Proof
end

section
/-!
Aborts of a partition as PART_CTL, a module abort and the watchdog request them (R410, R413 to R416).
-/

namespace Sys2Proof.Machine

/-! The watchdog of the partition that aborts stays stopped. -/

/-- The watchdog of a partition that is stopped stays stopped. -/
structure SameWdog (p : Nat) (s u : State) : Prop where
  parts : Map.wf (fun _ => ({} : Part)) s.parts = true → Map.wf (fun _ => ({} : Part)) u.parts = true
  stopped : Map.wf (fun _ => ({} : Part)) s.parts = true → (s.part p).wdog = false → (u.part p).wdog = false

theorem SameWdog.of_parts_eq {p : Nat} {s u : State} (h : u.parts = s.parts) : SameWdog p s u where
  parts := fun hwf => by rw [h]; exact hwf
  stopped := fun _ hoff => by rw [State.part, h]; exact hoff

theorem SameWdog.trans {p : Nat} {s u v : State} (h : SameWdog p s u) (k : SameWdog p u v) : SameWdog p s v :=
  ⟨fun hwf => k.parts (h.parts hwf), fun hwf hoff => k.stopped (h.parts hwf) (h.stopped hwf hoff)⟩

theorem SameWdog.foldl {α : Type} {p : Nat} {step : State → α → State} (h : ∀ u a, SameWdog p u (step u a)) (l : List α) (s : State) :
    SameWdog p s (l.foldl step s) :=
  List.foldlRecOn (motive := SameWdog p s) l step (.of_parts_eq rfl) fun _ hu a _ => hu.trans (h _ a)

theorem PortWork.sameWdog {s u : State} (p : Nat) (h : PortWork s u) : SameWdog p s u := by
  obtain ⟨_, _, _, hu⟩ := h
  exact .of_parts_eq (by rw [hu])

theorem State.setPart_sameWdog {p : Nat} {s : State} {x : Part} (hx : (s.part p).wdog = false → x.wdog = false) : SameWdog p s (s.setPart p x) :=
  ⟨fun hwf => Map.wf_set hwf, fun hwf h => by rw [State.setPart_part_self hwf]; exact hx h⟩

theorem State.endRun_sameWdog (p : Nat) (s : State) : SameWdog p s (s.endRun p) := by
  simp only [State.endRun]
  split
  · split
    · exact State.setPart_sameWdog id
    · exact .of_parts_eq rfl
  · exact .of_parts_eq rfl

theorem State.post_sameWdog (p : Nat) (s : State) (r : Nat) (m : Msg) : SameWdog p s (s.post r m) := by
  obtain ⟨mail, out, hpost⟩ := s.post_frame r m
  exact .of_parts_eq (by rw [hpost])

theorem State.disarm_sameWdog (p k : Nat) (s : State) : SameWdog p s (s.disarm k) := by
  have hports := (PortWork.foldl (fun (u : State) q => u.setPort_portWork q ((u.port q).csrField 0x20 30 28 0)) (s.portsOf k) s).sameWdog p
  simp only [State.disarm]
  split
  · exact hports.trans (.of_parts_eq rfl)
  · exact hports

theorem State.pavAbort_sameWdog (p : Nat) (s : State) : SameWdog p s (s.pavAbort p) := by
  simp only [State.pavAbort]
  split
  · simp only [State.outcome]
    refine (SameWdog.trans ?_ (State.endRun_sameWdog p _)).trans (State.post_sameWdog p _ _ _)
    exact (((s.eachSite_portWork p _).trans (State.setSite_portWork _ _ _)).sameWdog p).trans (State.setPart_sameWdog fun _ => rfl)
  · exact .of_parts_eq rfl

theorem State.fromSite_sameWdog (p : Nat) (s : State) (n edge : Nat) (f : Flit) : SameWdog p s (s.fromSite n edge f) := by
  simp only [State.fromSite]
  split
  · exact (s.haloReturn_portWork _ _).sameWdog p
  · split
    · exact .of_parts_eq rfl
    · split
      · exact (s.setSite_portWork _ _).sameWdog p
      · exact .of_parts_eq rfl

theorem State.abortRest_sameWdog (p : Nat) (s : State) : SameWdog p s (s.abortRest p) := by
  simp only [State.abortRest]
  refine (((s.pavAbort_sameWdog p).trans ?_).trans (SameWdog.foldl (fun u n => ?_) _ _)).trans (State.disarm_sameWdog p p _)
  · exact (PortWork.foldl (fun u q => (u.endAll_portWork q 5).trans (State.recallReqs_portWork _ q)) _ _).sameWdog p
  · exact ((u.setSite_portWork n _).sameWdog p).trans (SameWdog.foldl (fun v ef => v.fromSite_sameWdog p n _ _) _ _)

theorem State.wf_setPart {s : State} (hwf : Map.wf (fun _ => ({} : Part)) s.parts = true) (p : Nat) (x : Part) :
    Map.wf (fun _ => ({} : Part)) (s.setPart p x).parts = true := Map.wf_set hwf

/-- The watchdog of a running partition whose abort is requested is stopped. -/
theorem State.requestAbort_wdog {s : State} {p cause : Nat} (hwf : Map.wf (fun _ => ({} : Part)) s.parts = true) (hp : p < 8)
    (h0 : (s.part p).state ≠ 0) (h4 : (s.part p).state ≠ 4) (h5 : (s.part p).state ≠ 5) : ((s.requestAbort p cause).part p).wdog = false := by
  rw [State.requestAbort_running hp h0 h4 h5]
  refine (State.abortRest_sameWdog p _).stopped (State.wf_setPart hwf _ _) ?_
  rw [State.setPart_part_self hwf]

/-! PART_CTL. -/

section
variable {s : State} {p : Nat} (hwf : Map.wf (fun _ => ({} : Part)) s.parts = true) (hp : p < 8)
include hwf hp

/-- A loading partition whose abort is requested is free, and then aborts like any other. -/
theorem State.requestAbort_loading (cause : Nat) (h5 : (s.part p).state = 5) :
    Map.wf (fun _ => ({} : Part)) (s.requestAbort p cause).parts = true ∧ ((s.requestAbort p cause).part p).state = 1 := by
  have hidle : s.requestAbort p cause = (s.setPart p { s.part p with state := 1, acause := cause, job := none }).say
      (.hostRefused (s.part p).loadTag p 0x0C 0 0 0) := by
    unfold State.requestAbort
    dsimp only
    rw [h5, if_neg (by simp; omega), if_pos rfl]
  obtain ⟨x, hx, hstate⟩ : ∃ x : Part, x = { s.part p with state := 1, acause := cause, job := none } ∧ x.state = 1 := ⟨_, rfl, rfl⟩
  have hpart : (s.setPart p x).part p = x := State.setPart_part_self hwf
  rw [hidle, ← hx]
  exact ⟨State.wf_setPart hwf p x, (congrArg Part.state hpart).trans hstate⟩

theorem State.partCtl_abort (hstate : (s.part p).state = 1 ∨ (s.part p).state = 2 ∨ (s.part p).state = 3 ∨ (s.part p).state = 6) :
    let u := s.partCtl true p 1
    (u.part p).state = 4 ∧ (u.part p).acause = 1 ∧ (u.part p).wdog = false := by
  obtain ⟨kstate, kcause⟩ := State.requestAbort_part (cause := 1) hwf hp (by omega) (by omega) (by omega)
  exact ⟨kstate, kcause, State.requestAbort_wdog hwf hp (by omega) (by omega) (by omega)⟩

theorem State.partCtl_disable (hstate : (s.part p).state = 1 ∨ (s.part p).state = 2 ∨ (s.part p).state = 3) :
    let u := s.partCtl true p 3
    (u.part p).state = 4 ∧ (u.part p).acause = 5 ∧ (u.part p).after = 6 := by
  obtain ⟨kstate, kcause⟩ := State.requestAbort_part (cause := 5) hwf hp (by omega) (by omega) (by omega)
  obtain ⟨hwf1, -⟩ := (s.requestAbort_abortWork p 5).parts hwf
  have hdisabled : s.partCtl true p 3 = (s.requestAbort p 5).setPart p { (s.requestAbort p 5).part p with after := 6 } := by
    have hdefined : s.partRefused p 3 = false := by simp [State.partRefused]; omega
    simp only [State.partCtl, State.privileged_true, State.partCommand]
    rw [hdefined, if_neg (by decide), if_neg (by omega), if_neg (by omega)]
  dsimp only
  rw [hdisabled, State.setPart_part_self hwf1]
  exact ⟨kstate, kcause, rfl⟩

theorem State.partCtl_reset (h0 : (s.part p).state ≠ 0) (h4 : (s.part p).state ≠ 4) :
    let u := s.partCtl true p 2
    (u.part p).state = 4 ∧ (u.part p).acause = 7 ∧ (u.part p).reset = true ∧ (u.part p).after = 1 := by
  have hidle : ∃ s0 : State, s.partCtl true p 2 = (s0.requestAbort p 7).setPart p { (s0.requestAbort p 7).part p with reset := true, after := 1 } ∧
      Map.wf (fun _ => ({} : Part)) s0.parts = true ∧ (s0.part p).state ≠ 0 ∧ (s0.part p).state ≠ 4 ∧ (s0.part p).state ≠ 5 := by
    have hadmitted : s.partRefused p 2 = false := by simp [State.partRefused]
    simp only [State.partCtl, State.privileged_true, State.partCommand]
    rw [hadmitted, if_neg (by decide), if_neg h0]
    by_cases h5 : (s.part p).state = 5
    · obtain ⟨hwf1, hfree⟩ := State.requestAbort_loading hwf hp 7 h5
      exact ⟨_, by rw [if_pos h5], hwf1, by omega, by omega, by omega⟩
    · exact ⟨s, by rw [if_neg h5], hwf, h0, h4, h5⟩
  obtain ⟨s0, hreset, hwf0, k0, k4, k5⟩ := hidle
  obtain ⟨kstate, kcause⟩ := State.requestAbort_part (cause := 7) hwf0 hp k0 k4 k5
  obtain ⟨hwf1, -⟩ := (s0.requestAbort_abortWork p 7).parts hwf0
  dsimp only
  rw [hreset, State.setPart_part_self hwf1]
  exact ⟨kstate, kcause, rfl, rfl⟩

omit hwf hp in
theorem State.partCtl_enable (h6 : (s.part p).state = 6) :
    s.partCtl true p 4 = s.setPart p { s.part p with state := if (s.part p).job.isSome then 2 else 1 } := by
  have hadmitted : s.partRefused p 4 = false := by simp [State.partRefused, h6]
  simp only [State.partCtl, State.privileged_true, State.partCommand]
  rw [hadmitted, if_neg (by decide)]

omit hwf hp in
theorem State.partCtl_enable_refused (h6 : (s.part p).state ≠ 6) :
    s.partCtl true p 4 = s.refuse (ezAddr (0x4000 + 0x40 * p)) 0x4A (partLoc p) := by
  have hrefused : s.partRefused p 4 = true := by simp [State.partRefused, h6]
  simp only [State.partCtl, State.privileged_true]
  rw [hrefused, if_pos rfl]

/-! The watchdog (R410). -/

omit hwf hp in
/-- A step that has not begun does not time out. -/
theorem State.watchdog_idle (hstart : s.stepStart p = none) (hlimit : 0 < (s.ez (0x4008 + 0x40 * p)).toNat) : s.watchdog p = s := by
  have hzero : s.elapsed p = 0 := by rw [State.elapsed, hstart]
  have hnone : ¬ (s.ez (0x4008 + 0x40 * p)).toNat ≤ s.elapsed p := by omega
  rw [State.watchdog, decide_eq_false hnone, Bool.and_false, if_neg (by decide)]

omit hwf hp in
theorem State.watchdog_out {k : Nat} (hstart : s.stepStart p = some k) (hwdog : (s.part p).wdog = true)
    (hlimit : (s.ez (0x4008 + 0x40 * p)).toNat ≤ (s.now.toNat - k) / 1000000) : s.watchdog p = s.requestAbort p 2 := by
  have hout : (s.ez (0x4008 + 0x40 * p)).toNat ≤ s.elapsed p := by
    simp only [State.elapsed, hstart]
    rw [if_pos hwdog]
    exact hlimit
  rw [State.watchdog, decide_eq_true hout, hwdog]
  rfl

end

/-! A module abort (R414). -/

/-- Every partition that runs or is loaded aborts, and stays so while the others do. -/
theorem State.requestAborts_part {p : Nat} (hp : p < 8) (l : List Nat) : ∀ s : State, Map.wf (fun _ => ({} : Part)) s.parts = true →
    (s.part p).state = 4 ∧ (s.part p).acause = 6 ∨ p ∈ l ∧ 1 ≤ (s.part p).state ∧ (s.part p).state ≤ 3 →
    ((l.foldl (fun s p => s.requestAbort p 6) s).part p).state = 4 ∧ ((l.foldl (fun s p => s.requestAbort p 6) s).part p).acause = 6 := by
  induction l with
  | nil => exact fun s _ h => h.resolve_right fun ⟨hnil, _⟩ => List.not_mem_nil hnil
  | cons k l ih =>
    intro s hwf h
    obtain ⟨hwf1, hother, hself⟩ := (s.requestAbort_abortWork k 6).parts hwf
    refine ih _ hwf1 ?_
    by_cases hk : p = k
    · subst hk
      rcases h with ⟨h4, h6⟩ | ⟨-, hlow, hhigh⟩
      · obtain ⟨kstate, kcause⟩ := hself h4
        exact .inl ⟨kstate, kcause.trans h6⟩
      · exact .inl (State.requestAbort_part hwf hp (by omega) (by omega) (by omega))
    · rw [hother p hk]
      exact h.imp_right fun ⟨hmem, hrange⟩ => ⟨(List.mem_cons.mp hmem).resolve_left hk, hrange⟩

theorem State.modAbort_part {s : State} {p : Nat} (hcanon : s.canonical = true) (hp : p < 8) (hlow : 1 ≤ (s.part p).state) (hhigh : (s.part p).state ≤ 3) :
    (s.modAbort.part p).state = 4 ∧ (s.modAbort.part p).acause = 6 ∧ s.modAbort.mod.abortBusy = true := by
  have hmem : p ∈ List.range nParts := List.mem_range.mpr hp
  obtain ⟨kstate, kcause⟩ := State.requestAborts_part hp (List.range nParts) s (State.canon hcanon).parts (.inr ⟨hmem, hlow, hhigh⟩)
  have hfields (l : List Nat) (u : State) : ∃ fields, l.foldl (fun s f => s.setField f (stopTest (s.field f))) u = { u with fields := fields } :=
    List.foldlRecOn (motive := fun v : State => ∃ fields, v = { u with fields := fields }) l _ ⟨u.fields, rfl⟩ fun v hv f _ => by
      obtain ⟨_, rfl⟩ := hv
      exact ⟨_, rfl⟩
  unfold State.modAbort
  generalize (List.range nParts).foldl (fun s p => s.requestAbort p 6) s = u at kstate kcause ⊢
  have hbusy : ((List.range nParts).any fun p => decide ((u.part p).state = 4)) = true := List.any_eq_true.mpr ⟨p, hmem, decide_eq_true kstate⟩
  dsimp only
  rw [hbusy]
  obtain ⟨fields, hstopped⟩ := hfields (List.range nFields) (u.updMod fun m => { m with abortBusy := true })
  rw [hstopped]
  exact ⟨kstate, kcause, rfl⟩

end Sys2Proof.Machine
end

section
/-!
The completion of an abort (R413) and the stall advisory (R411).
-/

namespace Sys2Proof.Machine

/-! What an abort discards in tiles. -/

theorem State.mapTiles_tile {s : State} {f : Nat → Tile → Tile} (hwf : Map.wf (fun _ => ({} : Tile)) s.tiles = true) (hblank : ∀ t, f t {} = {}) (t : Nat) :
    Map.wf (fun _ => ({} : Tile)) (s.mapTiles f).tiles = true ∧ (s.mapTiles f).tile t = f t (s.tile t) :=
  ⟨Map.wf_changed f hwf, Map.get_changed hblank t hwf⟩

theorem abortTile_blank : abortTile {} = {} := by decide +kernel

theorem runBit_stopped {x : Tile} (h : x.seq = .ended ∨ x.seq = .idle) : runBit x = false := by
  rcases h with h | h <;> rw [runBit, h]

/-- A tile of the partition as an abort leaves it, but for what holds its router's outputs. -/
def Tile.Aborted (x y : Tile) : Prop := ∃ r r', y = { abortTile { x with rtr := r } with rtr := r' }

theorem Tile.Aborted.shows {x y : Tile} (h : Tile.Aborted x y) : y.regions = [] ∧ y.spd = [] ∧ y.vq = [] ∧ y.net = [] ∧ opeIdle y.ope = true ∧
    runBit y = false ∧ y.istore = x.istore ∧ y.sregs = x.sregs := by
  obtain ⟨r, r', rfl⟩ := h
  refine ⟨rfl, rfl, rfl, rfl, rfl, ?_, rfl, rfl⟩
  refine runBit_stopped (ite_eq_or_eq (x.seq = .ended) _ _)

/-- A tile at the abort of a partition: its flits leave every router, its own tiles discard what they held. -/
def State.abortedTile (s : State) (p t : Nat) (x0 : Tile) : Tile :=
  let x := { x0 with rtr := s.purgeRouter p x0.rtr }
  if s.tilePart t = p then abortTile x else x

theorem State.abortedTile_blank (s : State) (p t : Nat) : s.abortedTile p t {} = {} := by
  have hpurged : ({ ({} : Tile) with rtr := s.purgeRouter p ({} : Tile).rtr } : Tile) = {} := rfl
  simp only [State.abortedTile]
  rw [hpurged, abortTile_blank, ite_self]

/-- The outputs of a router that packets still hold. -/
def State.heldLocks (s : State) (t : Nat) (x : Tile) : Tile :=
  { x with rtr := { x.rtr with lock := x.rtr.lock.filter fun k => s.packetLeft 1024 t (k.2 - 1) } }

theorem State.discard_work (s : State) (p : Nat) : PortWork (s.mapTiles (s.abortedTile p)).freeLocks (s.discard p false) := by
  have hsites (u : State) (l : List Nat) (g : State → Nat → Site) : PortWork u (l.foldl (fun s n => s.setSite n (g s n)) u) :=
    PortWork.foldl (fun v n => v.setSite_portWork n (g v n)) l u
  have hports (u : State) : PortWork u ((u.portsOf p).foldl (fun s q => s.endAll q 5) u) := PortWork.foldl (fun v q => v.endAll_portWork q 5) _ u
  exact (hsites _ _ _).trans (hports _)

/-- The completion of an abort changes no part of the module but tiles, sites, ports and the outbox, and discards what the partition's tiles held. -/
theorem State.discard_tiles {s : State} {p : Nat} (hwf : Map.wf (fun _ => ({} : Tile)) s.tiles = true) :
    ∃ tiles sites ports out, s.discard p false = { s with tiles := tiles, sites := sites, ports := ports, outbox := out } ∧
      ∀ t, s.tilePart t = p → Tile.Aborted (s.tile t) (Map.get (fun _ => ({} : Tile)) tiles t) := by
  obtain ⟨s1, hs1⟩ : ∃ s1, s1 = s.mapTiles (s.abortedTile p) := ⟨_, rfl⟩
  have hmapped (t : Nat) := State.mapTiles_tile hwf (s.abortedTile_blank p) t
  rw [← hs1] at hmapped
  have hfreed (t : Nat) : s1.freeLocks.tile t = s1.heldLocks t (s1.tile t) := (State.mapTiles_tile (f := s1.heldLocks) (hmapped t).1 (fun _ => rfl) t).2
  obtain ⟨sites, ports, out, hdiscard⟩ := s.discard_work p
  rw [← hs1] at hdiscard
  refine ⟨s1.freeLocks.tiles, sites, ports, out, by rw [hdiscard, hs1]; rfl, fun t ht => ?_⟩
  have htile : Map.get (fun _ => ({} : Tile)) s1.freeLocks.tiles t = s1.heldLocks t (s.abortedTile p t (s.tile t)) :=
    (hfreed t).trans (congrArg (s1.heldLocks t) (hmapped t).2)
  rw [htile, State.abortedTile, if_pos ht]
  exact ⟨_, _, rfl⟩

/-! The completion of an abort (R413). -/

/-- Messages posted while the job service runs go out. -/
theorem State.posts_up {s : State} {α : Type} (hup : s.mod.cc.up = true) (p : Nat) (f : α → Msg) (l : List α) :
    l.foldl (fun s a => s.post p (f a)) s = { s with outbox := s.outbox ++ l.map f } := by
  induction l generalizing s with
  | nil => rw [List.map_nil, List.append_nil]; rfl
  | cons a l ih =>
    have hsaid : s.post p (f a) = s.say (f a) := if_pos hup
    rw [List.foldl_cons, hsaid, ih (s := s.say (f a)) hup, List.map_cons, List.append_cons]
    rfl

/-- What is posted changes the mailboxes and the outbox alone. -/
theorem State.posts_frame {α : Type} (p : Nat) (f : α → Msg) (l : List α) (s : State) : ∃ mail out, l.foldl (fun s a => s.post p (f a)) s =
    { s with mod := { s.mod with cc := { s.mod.cc with mail := mail } }, outbox := out } :=
  List.foldlRecOn (motive := fun u : State => ∃ mail out, u = { s with mod := { s.mod with cc := { s.mod.cc with mail := mail } }, outbox := out })
    l _ ⟨s.mod.cc.mail, s.outbox, rfl⟩ fun u hu a _ => by
    obtain ⟨_, _, rfl⟩ := hu
    obtain ⟨mail, out, hpost⟩ := State.post_frame _ p (f a)
    exact ⟨mail, out, hpost⟩

/-- The partition once its abort is complete, where it was not to be reset. -/
def Part.settled (q : Part) : Part :=
  { q with
    state := q.after, wdog := false, step := false, run := keepRun q, fails := if q.acause = 4 then q.fails + 1 else 0, waiting := false
    reset := false, atags := [] }

/-- The state whose step record an abort reports. -/
def State.settled (s : State) (p : Nat) : State := (s.discard p false).setPart p (s.part p).settled

/-- The message that answers the host once an abort is complete. -/
def State.abortedMsg (s : State) (p t : Nat) : Msg := .hostAborted t p (s.part p).acause 2 ((s.settled p).stepRecord p)

section
variable {s : State} {p : Nat} (hcanon : s.canonical = true) (hstate : (s.part p).state = 4) (hflip : pavState (s.site (s.dsite p)) ≠ 4)
  (hreset : (s.part p).reset = false) (hafter : (s.part p).after = 2) (hrelease : (s.part p).release = false) (hbusy : s.mod.abortBusy = false)
  (hcool : s.coolst ≠ 3)
include hcanon hstate hflip hreset hafter hrelease hbusy hcool

theorem State.abortDone_settled : s.abortDone p = (if (s.part p).atags.isEmpty then [0] else (s.part p).atags).foldl
    (fun u t => u.post p (s.abortedMsg p t)) (s.settled p) := by
  obtain ⟨tiles, sites, ports, out, hdiscard, -⟩ := State.discard_tiles (p := p) (State.canon hcanon).tiles
  have hkept : (s.discard p false).part p = s.part p := by rw [hdiscard]; rfl
  have hparts : Map.wf (fun _ => ({} : Part)) (s.discard p false).parts = true := by rw [hdiscard]; exact (State.canon hcanon).parts
  have hsettled : (s.settled p).part p = (s.part p).settled := State.setPart_part_self hparts
  have hdone : (s.settled p).coolst = s.coolst ∧ (s.settled p).mod.abortBusy = false := by
    rw [State.settled, hdiscard]
    exact ⟨rfl, hbusy⟩
  unfold State.abortDone
  refine (if_neg (by simp [hstate, hflip])).trans ?_
  extract_lets s1 q1 s2 s2' s3 tags s4 s5
  have hs1 : s1 = s.discard p false := congrArg (s.discard p) hreset
  have hq1 : q1 = s.part p := (congrArg (State.part · p) hs1).trans hkept
  have hs2 : s2 = s.settled p := by
    refine (congrArg (State.setPart · p _) hs1).trans (congrArg (State.setPart _ p) ?_)
    rw [hq1, hreset, if_neg (by decide), if_neg (by decide)]
    rfl
  have hs2' : s2' = s.settled p := by
    refine (if_neg (not_not_intro ?_)).trans hs2
    rw [hs2, hsettled]
    rfl
  have hs3 : s3 = s.settled p := (if_neg (by rw [hreset]; decide)).trans hs2'
  have hmsg (t : Nat) : Msg.hostAborted t p (s.part p).acause (s3.part p).state (s3.stepRecord p) = s.abortedMsg p t := by
    rw [hs3, hsettled, Part.settled, hafter]
    rfl
  obtain ⟨mail, out, hposted⟩ := State.posts_frame p (s.abortedMsg p) tags (s.settled p)
  have hs4 : s4 = tags.foldl (fun u t => u.post p (s.abortedMsg p t)) (s.settled p) := by
    have hfold : tags.foldl (fun u t => u.post p (.hostAborted t p (s.part p).acause (s3.part p).state (s3.stepRecord p))) s3 =
        tags.foldl (fun u t => u.post p (s.abortedMsg p t)) (s.settled p) := by
      simp only [hmsg]
      rw [hs3]
    refine (congrArg (State.releaseNow · p) hfold).trans ?_
    have hkeeps : ((tags.foldl (fun u t => u.post p (s.abortedMsg p t)) (s.settled p)).part p).release = false := by
      rw [hposted]
      exact (congrArg Part.release hsettled).trans hrelease
    rw [State.releaseNow, hkeeps]
    rfl
  have hs5 : s5 = tags.foldl (fun u t => u.post p (s.abortedMsg p t)) (s.settled p) := by
    refine (if_neg ?_).trans hs4
    have hidle : s4.mod.abortBusy = false := by
      rw [hs4, hposted]
      exact hdone.2
    rw [hidle]
    simp
  have hwarm : s5.coolst ≠ 3 := by
    rw [hs5, hposted]
    exact hdone.1.symm ▸ hcool
  rw [if_neg hwarm, hs5]

/-- What the completion of an abort shows. -/
theorem State.abortDone_shown : let u := s.abortDone p
    (u.part p).state = 2 ∧ (u.part p).wdog = false ∧ (u.part p).step = false ∧ (u.part p).acause = (s.part p).acause ∧ (u.part p).atags = [] ∧
      (s.mod.cc.up = true → ∀ t ∈ (if (s.part p).atags = [] then [0] else (s.part p).atags), ∃ r : StepRec,
        Msg.hostAborted t p (s.part p).acause 2 r ∈ u.outbox) ∧
      ∀ t, s.tilePart t = p → (u.tile t).regions = [] ∧ (u.tile t).spd = [] ∧ (u.tile t).vq = [] ∧ (u.tile t).net = [] ∧
        opeIdle (u.tile t).ope = true ∧ runBit (u.tile t) = false ∧ (u.tile t).istore = (s.tile t).istore ∧ (u.tile t).sregs = (s.tile t).sregs := by
  obtain ⟨tiles, sites, ports, out, hdiscard, htiles⟩ := State.discard_tiles (p := p) (State.canon hcanon).tiles
  have hparts : Map.wf (fun _ => ({} : Part)) (s.discard p false).parts = true := by rw [hdiscard]; exact (State.canon hcanon).parts
  have hsettled : (s.settled p).part p = (s.part p).settled := State.setPart_part_self hparts
  have hkept : (s.settled p).tiles = tiles ∧ (s.settled p).mod = s.mod := by
    rw [State.settled, hdiscard]
    exact ⟨rfl, rfl⟩
  obtain ⟨htile, hmod⟩ := hkept
  obtain ⟨mail, sent, hposted⟩ := State.posts_frame p (s.abortedMsg p) (if (s.part p).atags.isEmpty then [0] else (s.part p).atags) (s.settled p)
  have hdone := State.abortDone_settled hcanon hstate hflip hreset hafter hrelease hbusy hcool
  have hpart : (s.abortDone p).part p = (s.part p).settled := by
    rw [hdone, hposted]
    exact hsettled
  have htiled (t : Nat) : (s.abortDone p).tile t = Map.get (fun _ => ({} : Tile)) tiles t := by
    rw [hdone, hposted, ← htile]
    rfl
  dsimp only
  rw [hpart]
  refine ⟨hafter, rfl, rfl, rfl, rfl, fun hup t ht => ⟨(s.settled p).stepRecord p, ?_⟩, fun t ht => ?_⟩
  · rw [hdone, State.posts_up (by rw [hmod]; exact hup)]
    simp only [List.isEmpty_iff]
    exact List.mem_append_right _ (List.mem_map_of_mem ht)
  · rw [htiled]
    exact (htiles t ht).shows

end

/-! The stall advisory (R411). -/

theorem State.setPart_again {s : State} (hwf : Map.wf (fun _ => ({} : Part)) s.parts = true) (p : Nat) (x y : Part) :
    (s.setPart p x).setPart p y = s.setPart p y := congrArg (fun parts => { s with parts := parts }) (Map.set_set x y hwf)

section
variable {s : State} {p t : Nat} {l : List Nat} (hcanon : s.canonical = true)
  (hheld : ∀ k ∈ t :: l, isTile k = true ∧ s.tilePart k = p ∧ (s.tile k).waiting = true ∧ runBit (s.tile k) = true ∧
    (s.tile k).lastIssue.toNat + 10000000 ≤ s.now.toNat)
include hcanon hheld

omit hcanon in
theorem stuck_held {k : Nat} (hk : k ∈ t :: l) : stuck s.now (s.tile k) = true := by
  obtain ⟨-, -, hwaiting, hrun, hissued⟩ := hheld k hk
  rw [stuck, hwaiting, hrun, decide_eq_true hissued]
  rfl

/-- A first stall is advised with its first tile. -/
theorem State.stall_first (hstate : (s.part p).state = 3) (hbit : bit (s.ez (0x4010 + 0x40 * p)) 31 = false) (hadvised : (s.part p).advised = none)
    (hup : s.mod.cc.up = true) : s.stall p (t :: l) =
      (((s.ezPut (0x4010 + 0x40 * p) (BitVec.ofNat 32 (2 ^ 31))).ezPut (0x4014 + 0x40 * p) (BitVec.ofNat 32 t)).setPart p
        { s.part p with stalled := (t :: l).map fun k => (k, (s.tile k).lastIssue), advised := some s.now }).say (.hostAdvisory p 1 [l.length + 1, t]) := by
  have hall : (t :: l).filter (fun t => decide (s.tilePart t = p) && stuck s.now (s.tile t)) = t :: l := List.filter_eq_self.mpr fun k hk => by
    obtain ⟨-, hpart, -⟩ := hheld k hk
    rw [decide_eq_true hpart, stuck_held hheld hk]
    rfl
  have hwf := (State.canon hcanon).parts
  have hoff : 0x4010 + 0x40 * p + 4 = 0x4014 + 0x40 * p := by omega
  unfold State.stall
  dsimp only
  rw [hall, hbit, hadvised, hoff]
  dsimp only
  rw [if_neg (not_not_intro hstate), Bool.and_false, if_neg (by decide), Bool.false_and, if_neg (by decide)]
  obtain ⟨e, he, hewf, heup⟩ : ∃ e, e = (s.ezPut (0x4010 + 0x40 * p) (BitVec.ofNat 32 (2 ^ 31))).ezPut (0x4014 + 0x40 * p) (BitVec.ofNat 32 t) ∧
    Map.wf (fun _ => ({} : Part)) e.parts = true ∧ e.mod.cc.up = true := ⟨_, rfl, by exact hwf, by exact hup⟩
  rw [← he, State.setPart_part_self hewf, State.setPart_again hewf]
  exact if_pos heup

omit hcanon in
/-- NTILES counts every tile that the advisory names. -/
theorem State.heldNow_held {u : State} (htiles : u.tiles = s.tiles) (hfields : u.fields = s.fields) (hnow : u.now = s.now) (hnd : (t :: l).Nodup) :
    l.length + 1 ≤ u.heldNow p := by
  have hpart (k : Nat) : u.tilePart k = s.tilePart k := by rw [State.tilePart, State.fieldOwner, State.field, hfields]; rfl
  have hlisted : t :: l ⊆ ((u.busyTiles p).filter fun x => stuck u.now x.2).map Prod.fst := fun k hk => by
    obtain ⟨-, hown, -, hrun, -⟩ := hheld k hk
    have hmem : (k, s.tile k) ∈ s.tiles := (Map.get_mem_or (fun _ => ({} : Tile)) s.tiles k).resolve_right fun hblank => by
      rw [State.tile, hblank] at hrun
      cases hrun
    refine List.mem_map.mpr ⟨(k, s.tile k), List.mem_filter.mpr ⟨List.mem_filter.mpr ⟨htiles ▸ hmem, ?_⟩, ?_⟩, rfl⟩
    · exact decide_eq_true ((hpart k).trans hown)
    · rw [hnow]
      exact stuck_held hheld hk
  have hcount := (hnd.subperm hlisted).length_le
  rw [List.length_map] at hcount
  exact hcount

omit hcanon in
theorem State.heldNow_advised (hnd : (t :: l).Nodup) (a b : Nat) (v w : Word) (x : Part) (m : Msg) :
    l.length + 1 ≤ ((((s.ezPut a v).ezPut b w).setPart p x).say m).heldNow p :=  by
  obtain ⟨csr, parts, out, hu⟩ : ∃ csr parts out, (((s.ezPut a v).ezPut b w).setPart p x).say m =
    { s with parts := parts, outbox := out, mod := { s.mod with csr := csr } } := ⟨_, _, _, rfl⟩
  rw [hu]
  exact State.heldNow_held hheld (by rfl) (by rfl) (by rfl) hnd

end

end Sys2Proof.Machine
end

section
/-!
O48: aborts (R403, R410, R411, R413 to R416).
-/

namespace Sys2Proof

open Machine

/-- Settles O48: command by command of PART_CTL, then the watchdog, the completion of an abort, the advisory and the module abort. -/
theorem aborts : Obligations.Aborts := by
  intro s hcanon
  have hwf := (State.canon hcanon).parts
  refine ⟨fun p hp => ?_, s.modAbort, rfl, fun p hp hlow hhigh => State.modAbort_part hcanon hp hlow hhigh⟩
  have hpart : decide (p < nParts) = true := decide_eq_true hp
  refine ⟨fun hstate => ⟨⟨_, s.checked_of hpart rfl, State.partCtl_abort hwf hp hstate⟩,
      fun h6 => ⟨_, s.checked_of hpart rfl, State.partCtl_disable hwf hp (by omega)⟩⟩,
    fun h0 h4 => ⟨_, s.checked_of hpart rfl, State.partCtl_reset hwf hp h0 h4⟩,
    fun h6 => s.checked_of hpart (State.partCtl_enable h6), fun h6 => s.checked_of hpart (State.partCtl_enable_refused h6),
    fun hstart hlimit => s.checked_of hpart (State.watchdog_idle hstart hlimit), fun k hstart hstate hwdog hlimit => ⟨?_, ?_⟩,
    fun hstate hflip hreset hafter hrelease hbusy hcool => ⟨_, s.checked_of hpart rfl,
      State.abortDone_shown hcanon hstate hflip hreset hafter hrelease hbusy hcool⟩,
    fun t l hstate hheld hbit hadvised hup => ⟨s.checked_of ?_ (State.stall_first hcanon hheld hstate hbit hadvised hup),
      fun hnd => State.heldNow_advised hheld hnd _ _ _ _ _ _⟩⟩
  · exact s.checked_of hpart (State.watchdog_out hstart hwdog hlimit)
  · exact State.requestAbort_part hwf hp (by omega) (by omega) (by omega)
  · rw [hpart, Bool.true_and]
    exact List.all_eq_true.mpr fun k hk => (hheld k hk).1

end Sys2Proof
end

section
/-!
Firmware images, anti-rollback counters and the keys of partitions (R421, R423, R427, R434).
-/

namespace Sys2Proof.Machine

/-! Sites and partitions that are all changed. -/

/-- Each site that a fold writes has what every write gives it. -/
theorem State.foldl_setSite_all {P : Site → Prop} {g : State → Nat → Site} (hg : ∀ u n, P (g u n)) (l : List Nat) : ∀ s : State,
    Map.wf blankSite s.sites = true → ∀ n, n ∈ l ∨ P (s.site n) → P ((l.foldl (fun s n => s.setSite n (g s n)) s).site n) := by
  induction l with
  | nil => exact fun s _ n h => h.resolve_left List.not_mem_nil
  | cons k l ih =>
    intro s hwf n h
    refine ih (s.setSite k (g s k)) (Map.wf_set hwf) n ?_
    by_cases hnk : n = k
    · rw [hnk, State.site_setSite_self _ hwf]
      exact .inr (hg s k)
    · rw [State.setSite_site_ne hwf hnk]
      exact h.imp_left fun hmem => (List.mem_cons.mp hmem).resolve_left hnk

/-- Each partition that a fold writes has what every write gives it. -/
theorem State.foldl_setPart_all {P : Part → Prop} {g : State → Nat → Part} (hg : ∀ u p, P (g u p)) (l : List Nat) : ∀ s : State,
    Map.wf (fun _ => ({} : Part)) s.parts = true → ∀ p, p ∈ l ∨ P (s.part p) → P ((l.foldl (fun s p => s.setPart p (g s p)) s).part p) := by
  induction l with
  | nil => exact fun s _ p h => h.resolve_left List.not_mem_nil
  | cons k l ih =>
    intro s hwf p h
    refine ih (s.setPart k (g s k)) (Map.wf_set hwf) p ?_
    by_cases hpk : p = k
    · rw [hpk, State.setPart_part_self hwf]
      exact .inr (hg s k)
    · rw [State.setPart_part_ne hwf hpk]
      exact h.imp_left fun hmem => (List.mem_cons.mp hmem).resolve_left hpk

theorem State.foldl_sites {α : Type} {step : State → α → State} (h : ∀ u a, (step u a).sites = u.sites) (l : List α) (s : State) :
    (l.foldl step s).sites = s.sites :=
  List.foldlRecOn (motive := fun u : State => u.sites = s.sites) l step rfl fun _ hu a _ => (h _ a).trans hu

theorem State.levels_sites (s : State) (f : Nat) : (s.levels f).sites = s.sites := by
  obtain ⟨tiles, fields, csr, h⟩ := (s.levels_levelWork f).frame
  rw [h]

theorem State.setFieldOwner_sites (s : State) (f p : Nat) : (s.setFieldOwner f p).sites = s.sites := by
  simp only [State.setFieldOwner, State.levels_sites, State.ezField, State.ezPut, State.updMod_sites, State.setField_sites]

/-- A partition that is not defined any more. -/
def Part.Freed (q : Part) : Prop := q.key = 0 ∧ q.state = 0 ∧ q.job = none

/-- The freed state, before the security status is taken anew. -/
theorem State.destroyAll_cases {s : State} (hcanon : s.canonical = true) : ∃ u : State, (s.destroyAll = u.snapSec ∨ s.destroyAll = u) ∧
    (∀ p < 8, (u.part p).Freed) ∧ ∀ n < 48, (u.site n).dirty = true := by
  have hkept : s.Kept s.pending True := ⟨rfl, fun _ => hcanon⟩
  unfold State.destroyAll
  extract_lets seen s1 s2 s3 s4 s5
  have h1 : s1.Kept s.pending True := .foldl hkept fun _ _ hu => hu.destroyKey
  have h2 : s2.Kept s.pending True := .foldl h1 fun _ _ hu => hu.setSite (Site.Kept.freed (.cond hu.site hu.site.leaveSite))
  have h3 : s3.Kept s.pending True := .foldl h2 fun _ _ hu => hu.setFieldOwner
  have h4 : s4.Kept s.pending True := .foldl h3 fun _ _ hu => hu.setPort (Port.Kept.csrField hu.port.clearWindows)
  have hsites3 : s3.sites = s2.sites := State.foldl_sites (fun u f => u.setFieldOwner_sites f 15) _ _
  have hsites4 : s4.sites = s3.sites := State.foldl_sites (fun u q => u.setPort_sites q _) _ _
  have hsites5 : s5.sites = s4.sites := State.foldl_sites (fun u p => u.setPart_sites p _) _ _
  have hdirty (n : Nat) (hn : n < 48) : (s2.site n).dirty = true :=
    State.foldl_setSite_all (P := fun x => x.dirty = true) (fun _ _ => rfl) _ s1 (h1.sitesWf trivial) n (.inl (List.mem_range.mpr hn))
  have hfreed (p : Nat) (hp : p < 8) : (s5.part p).Freed :=
    State.foldl_setPart_all (P := Part.Freed) (fun _ _ => ⟨rfl, rfl, rfl⟩) _ s4 (State.canon (h4.2 trivial)).parts p (.inl (List.mem_range.mpr hp))
  have hend (n : Nat) (hn : n < 48) : (s5.site n).dirty = true := by rw [State.site, hsites5, hsites4, hsites3]; exact hdirty n hn
  exact ⟨s5, ite_eq_or_eq _ _ _, hfreed, hend⟩

/-- No key, no partition and no clean site is left (R434, R470). -/
theorem State.destroyAll_freed {s : State} (hcanon : s.canonical = true) :
    (∀ p < 8, (s.destroyAll.part p).Freed) ∧ ∀ n < 48, (s.destroyAll.site n).dirty = true := by
  obtain ⟨u, hu | hu, hfreed, hdirty⟩ := State.destroyAll_cases hcanon
  · rw [hu]
    exact ⟨hfreed, hdirty⟩
  · rw [hu]
    exact ⟨hfreed, hdirty⟩

theorem State.rootRecord_frame (s : State) (code : Nat) : ∃ csr log, s.rootRecord code = { s with mod := { s.mod with csr := csr, log := log } } := by
  obtain ⟨csr, log, h, -⟩ := State.raise_same (s := s) (r := { source := 0x2A, cls := 4, loc := feedLoc 2, code := code }) (show (4 : Nat) ≠ 1 by decide)
  exact ⟨csr, log, h⟩

/-- The end of an unlock (R434): what it leaves once no partition aborts. -/
theorem State.unlockEnd_done {s : State} (hcanon : s.canonical = true) (hnone : ∀ p ∈ List.range 8, (s.part p).state ≠ 4) :
    let u := s.unlockEnd
    u.mod.sec.modDbg = true ∧ u.mod.sec.unlock = 0 ∧ u.mod.sec.nonce = none ∧ (∀ p < 8, (u.part p).Freed) ∧ ∀ n < 48, (u.site n).dirty = true := by
  have hidle : ¬ ((List.range nParts).any fun p => decide ((s.part p).state = 4)) = true := by
    rw [List.any_eq_true]
    exact fun ⟨p, hp, h4⟩ => hnone p hp (of_decide_eq_true h4)
  obtain ⟨hfreed, hdirty⟩ := State.destroyAll_freed hcanon
  unfold State.unlockEnd
  rw [if_neg hidle]
  obtain ⟨csr, log, hrecord⟩ := s.destroyAll.rootRecord_frame 2
  rw [hrecord]
  exact ⟨rfl, rfl, rfl, hfreed, hdirty⟩

theorem State.unlockEnd_waits {s : State} {p : Nat} (hp : p < 8) (h4 : (s.part p).state = 4) : s.unlockEnd = s :=
  if_pos (List.any_eq_true.mpr ⟨p, List.mem_range.mpr hp, decide_eq_true h4⟩)

end Sys2Proof.Machine
end

section
/-!
O52: firmware updates, anti-rollback counters, the debug unlock and the random bit generator (R420, R421, R423, R434).
-/

namespace Sys2Proof.Machine

/-! Flash copies. -/

/-- The image written to the inactive copy of its class, which the next start tries first. -/
def State.installed (s : State) (i : Image) : State :=
  let k := 1 - Map.get (fun _ => 0) s.mod.sec.active i.cls
  s.updMod fun m => { m with sec := { m.sec with
    images := (m.sec.images.filter fun x => x.1 ≠ 2 * i.cls + k) ++ [(2 * i.cls + k, i)], boot := Map.set (fun _ => 0) m.sec.boot i.cls k } }

section
variable {s : State} {i : Image}

theorem State.installed_self : (s.installed i).flash i.cls (1 - Map.get (fun _ => 0) s.mod.sec.active i.cls) = i := by
  obtain ⟨j, hj⟩ : ∃ j, j = 2 * i.cls + (1 - Map.get (fun _ => 0) s.mod.sec.active i.cls) := ⟨_, rfl⟩
  have hfound : ((s.mod.sec.images.filter fun x => decide (x.1 ≠ j)) ++ [(j, i)]).find? (fun x => decide (x.1 = j)) = some (j, i) := by
    rw [List.find?_append, List.find?_eq_none.mpr fun x hx => by simpa using (List.mem_filter.mp hx).2]
    simp
  rw [hj] at hfound
  simp only [State.flash, State.installed, State.updMod]
  rw [hfound]

theorem State.installed_other {c k : Nat} (hk : k ≤ 1) (hother : (c, k) ≠ (i.cls, 1 - Map.get (fun _ => 0) s.mod.sec.active i.cls)) :
    (s.installed i).flash c k = s.flash c k := by
  obtain ⟨j, hj⟩ : ∃ j, j = 2 * i.cls + (1 - Map.get (fun _ => 0) s.mod.sec.active i.cls) := ⟨_, rfl⟩
  have hne : 2 * c + k ≠ j := fun heq => hother (by rw [Prod.mk.injEq]; omega)
  have hfound : ((s.mod.sec.images.filter fun x => decide (x.1 ≠ j)) ++ [(j, i)]).find? (fun x => decide (x.1 = 2 * c + k)) =
      s.mod.sec.images.find? fun x => decide (x.1 = 2 * c + k) := by
    have hlast : [(j, i)].find? (fun x => decide (x.1 = 2 * c + k)) = none := by simp [Ne.symm hne]
    have hboth : (fun x : Nat × Image => decide (decide (x.1 ≠ j) = true ∧ decide (x.1 = 2 * c + k) = true)) = fun x => decide (x.1 = 2 * c + k) := by
      funext x
      rw [decide_eq_decide, decide_eq_true_iff, decide_eq_true_iff, and_iff_right_iff_imp]
      exact fun hx => hx ▸ hne
    rw [List.find?_append, hlast, Option.or_none, List.find?_filter, hboth]
  rw [hj] at hfound
  simp only [State.flash, State.installed, State.updMod]
  rw [hfound]

theorem State.installed_boot (hcanon : s.canonical = true) :
    Map.get (fun _ => 0) (s.installed i).mod.sec.boot i.cls = 1 - Map.get (fun _ => 0) s.mod.sec.active i.cls := by
  have hkept : s.Kept s.pending True := ⟨rfl, fun _ => hcanon⟩
  obtain ⟨-, -, -, -, hboot, -⟩ := Module.kept_iff.mp hkept.mod trivial
  exact Map.get_set_self hboot

/-! FIRMWARE_UPDATE (R421, R423). -/

theorem State.update_old (hup : s.mod.cc.up = true) (hrun : s.mod.sec.recovery = false) (hcls : i.cls < 6) (hold : i.svn < (s.arb i.cls).toNat) :
    s.update i = s.say (.redfish false 9) := by
  simp only [State.update]
  rw [hrun, hup, if_neg (by decide), if_neg (by decide), decide_eq_true hcls, decide_eq_true hold]
  rfl

theorem State.update_installs (hup : s.mod.cc.up = true) (hrun : s.mod.sec.recovery = false) (hnew : i.cls = 6 ∨ (s.arb i.cls).toNat ≤ i.svn)
    (hjob : i.cls ≠ 4 ∨ (s.running 4).1 ≠ 0) : s.update i = (s.installed i).say (.redfish true 1) := by
  have hfresh : (decide (i.cls < 6) && decide (i.svn < (s.arb i.cls).toNat)) = false := by simp; omega
  have hlater : ¬ (decide (i.cls = 4) && decide ((s.running 4).1 = 0)) = true := by simp; omega
  simp only [State.update]
  rw [hrun, hup, if_neg (by decide), if_neg (by decide), hfresh, if_neg (by decide), if_neg hlater]
  rfl

/-- Recovery takes the failing class alone, and then begins power-on anew. -/
theorem State.update_recovers (hrecovery : s.mod.sec.recovery = true) (hcls : i.cls = 1 ∨ i.cls = 2) (hfail : i.cls = s.mod.sec.failClass)
    (hok : s.verifies i.cls i = true) : ∃ u : State, s.update i = u.say (.redfish true 1) ∧ u.mod.stage = 0 ∧ u.mod.sec.recovery = false ∧
      u.mod.sec.certIssued = false ∧ u.mod.sec.images = (s.installed i).mod.sec.images ∧ { u with mod := s.mod } = s := by
  have hfailing : s.failing i.cls = true := by rw [State.failing, decide_eq_true hfail, Bool.and_true]; simpa using hcls
  simp only [State.update]
  rw [hrecovery, if_pos rfl, hfailing, hok, Bool.and_self, if_pos rfl]
  exact ⟨_, rfl, rfl, rfl, rfl, rfl, rfl⟩

theorem State.update_unfit (hrecovery : s.mod.sec.recovery = true) (hbad : i.cls ≠ s.mod.sec.failClass ∨ s.verifies i.cls i = false) :
    s.update i = s.say (.redfish false 9) := by
  have hunfit : (s.failing i.cls && s.verifies i.cls i) = false := by
    rcases hbad with hother | hbad
    · rw [State.failing, decide_eq_false hother, Bool.and_false, Bool.false_and]
    · rw [hbad, Bool.and_false]
  simp only [State.update]
  rw [hrecovery, if_pos rfl, hunfit, if_neg (by decide)]

end

/-! COMMIT_SECURITY_VERSION (R423). -/

theorem State.raiseArb_work (s : State) (c svn : Nat) : StoreWork s (s.raiseArb c svn) := by
  simp only [State.raiseArb]
  split
  · exact StoreWork.refl s
  · exact s.pregPut_storeWork _ _ _

/-- The counter is the greater of what it was and the SVN. -/
theorem State.arb_raiseArb {s : State} {c svn : Nat} (hcanon : s.canonical = true) (hc : c < 6) (hsvn : svn < 2 ^ 32) :
    ((s.raiseArb c svn).arb c).toNat = max (s.arb c).toNat svn := by
  have hmask : pregMask (0x90000 + 4 * c) = BitVec.allOnes 32 := by
    rw [pregMask, if_neg (by omega), if_neg (by omega)]
    decide
  by_cases hle : svn ≤ (s.arb c).toNat
  · rw [State.raiseArb, decide_eq_true hle, Bool.or_true, Bool.true_or, if_pos rfl, Nat.max_eq_left hle]
  · have hraised : s.raiseArb c svn = s.pregPut (0x90000 + 4 * c) (BitVec.ofNat 32 svn) (BitVec.ofNat 32 svn) := if_neg (by simp; omega)
    obtain ⟨hpreg, -⟩ := s.pregPut_store (0x90000 + 4 * c) (BitVec.ofNat 32 svn) (BitVec.ofNat 32 svn)
    rw [hraised, State.arb, State.preg, hpreg, Map.get_set_self (State.canon hcanon).preg, ite_self, hmask, BitVec.and_allOnes, BitVec.toNat_ofNat,
      Nat.mod_eq_of_lt hsvn, Nat.max_eq_right (by omega)]

/-! DEBUG_UNLOCK (R434). -/

section
variable {s : State} {serial nonce : Nat}

/-- A token that is none draws a fresh nonce. -/
theorem State.unlock_unsigned (hroot : s.rootUp = true) (hrng : s.mod.sec.rngFail = false) : let u := s.unlock serial nonce false
    u.mod.sec.nonce = some (keyDraw s.mod.sec.drawn, s.now) ∧ u.mod.sec.modDbg = s.mod.sec.modDbg ∧ u.parts = s.parts ∧ u.sites = s.sites := by
  have hdrawn : s.drawKey = some (s.updMod fun m => { m with sec := { m.sec with drawn := m.sec.drawn + 1 } }, keyDraw s.mod.sec.drawn) :=
    if_neg (by rw [hrng]; decide)
  obtain ⟨csr, log, hrecord⟩ := (s.updMod fun m => { m with sec := { m.sec with drawn := m.sec.drawn + 1 } }).rootRecord_frame 3
  simp only [State.unlock]
  rw [hroot, if_neg (by decide), Bool.false_and, if_pos (by simp), hdrawn]
  dsimp only
  rw [hrecord]
  exact ⟨rfl, rfl, rfl, rfl⟩

variable {t : DWord} (hroot : s.rootUp = true) (hnonce : s.mod.sec.nonce = some (nonce, t)) (hsoon : s.now.toNat < t.toNat + 600000000000)
include hroot hnonce hsoon

theorem State.unlock_valid : s.unlock s.mod.serial nonce true =
    if s.clearing then s.updMod fun m => { m with sec := { m.sec with nonce := none, unlock := 1 } } else s.unlockNow := by
  simp only [State.unlock]
  rw [hroot, hnonce, if_neg (by decide)]
  dsimp only
  rw [if_neg (by simp [hsoon])]

end

/-- The state once the module abort of an unlock is requested. -/
def State.unlocking (s : State) : State := s.modAbort.updMod fun m => { m with sec := { m.sec with unlock := 2, nonce := none } }

theorem State.unlockEnd_nonce {s : State} (h : s.mod.sec.nonce = none) : s.unlockEnd.mod.sec.nonce = none := by
  unfold State.unlockEnd
  split
  · exact h
  · rfl

theorem State.part_updMod (s : State) (f : Module → Module) (p : Nat) : (s.updMod f).part p = s.part p := rfl

/-- A partition that runs keeps the unlock waiting for its abort. -/
theorem State.unlockNow_waits {s : State} {p : Nat} (hcanon : s.canonical = true) (hp : p < 8) (hlow : 1 ≤ (s.part p).state) (hhigh : (s.part p).state ≤ 3) :
    (s.unlockNow.part p).state = 4 ∧ (s.unlockNow.part p).acause = 6 ∧ s.unlockNow.mod.sec.unlock = 2 := by
  obtain ⟨h4, h6, -⟩ := State.modAbort_part hcanon hp hlow hhigh
  have hpart : s.unlocking.part p = s.modAbort.part p := State.part_updMod _ _ p
  have hnow : s.unlockNow = s.unlocking := State.unlockEnd_waits hp (by rw [← State.unlocking, hpart, h4])
  rw [hnow, hpart]
  exact ⟨h4, h6, rfl⟩

theorem State.modAbort_free {s : State} (hfree : ∀ p ∈ List.range 8, (s.part p).state = 0) : s.modAbort.parts = s.parts := by
  have hstill : (List.range nParts).foldl (fun s p => s.requestAbort p 6) s = s := foldl_still fun p hp => State.requestAbort_none (.inr (.inl (hfree p hp)))
  have hfields (l : List Nat) (u : State) : (l.foldl (fun s f => s.setField f (stopTest (s.field f))) u).parts = u.parts :=
    List.foldlRecOn (motive := fun v : State => v.parts = u.parts) l _ rfl fun _ hv _ _ => hv
  unfold State.modAbort
  dsimp only
  rw [hstill, hfields]
  rfl

theorem State.unlocking_canonical {s : State} (hcanon : s.canonical = true) : s.unlocking.canonical = true := by
  have hkept : s.Kept s.pending True := ⟨rfl, fun _ => hcanon⟩
  exact (hkept.modAbort.updSec (g := fun m => { m.sec with unlock := 2, nonce := none }) (fun _ => rfl) fun _ => rfl).2 trivial

theorem State.unlockNow_eq (s : State) : s.unlockNow = s.unlocking.unlockEnd := by rw [State.unlockNow, State.unlocking]

theorem State.unlocking_nonce (s : State) : s.unlocking.mod.sec.nonce = none := by rw [State.unlocking]; rfl

theorem State.unlockNow_nonce (s : State) : s.unlockNow.mod.sec.nonce = none := by
  rw [State.unlockNow_eq]
  exact State.unlockEnd_nonce s.unlocking_nonce

/-- With no partition defined an unlock is over at once. -/
theorem State.unlockNow_free {s : State} (hcanon : s.canonical = true) (hfree : ∀ p ∈ List.range 8, (s.part p).state = 0) :
    s.unlockNow.mod.sec.modDbg = true ∧ (∀ p < 8, (s.unlockNow.part p).Freed) ∧ ∀ n < 48, (s.unlockNow.site n).dirty = true := by
  have hpart (p : Nat) : s.unlocking.part p = s.part p := by rw [State.unlocking, State.part_updMod, State.part, State.modAbort_free hfree, State.part]
  rw [State.unlockNow_eq]
  obtain ⟨hdebug, -, -, hfreed, hdirty⟩ := State.unlockEnd_done (State.unlocking_canonical hcanon) fun p hp => by rw [hpart, hfree p hp]; decide
  exact ⟨hdebug, hfreed, hdirty⟩

end Sys2Proof.Machine

namespace Sys2Proof

open Machine

/-- Settles O52: updates in service and in recovery, the counters, the generator's failure, then the unlock step by step. -/
theorem firmwareAndKeys : Obligations.FirmwareAndKeys := by
  intro s hcanon
  refine ⟨fun i hcls hup hrun => ⟨fun h6 hold => ?_, fun hnew ha hjob => ⟨s.installed i, ?_, State.installed_self, fun c k hk => State.installed_other hk,
      State.installed_boot hcanon, rfl, rfl⟩⟩,
    fun i hcls hrecovery => ⟨fun hclass hfail hok => ?_, fun hbad => ?_⟩, fun c hc hup hsvn => ?_, rfl, fun hroot => ⟨fun serial nonce t hnonce hsoon hserial => ?_,
      fun hunlock hnone => ?_, fun serial nonce hrng => ⟨_, rfl, State.unlock_unsigned hroot hrng⟩⟩⟩
  · exact s.checked_of (decide_eq_true hcls) (State.update_old hup hrun h6 hold)
  · exact s.checked_of (decide_eq_true hcls) (State.update_installs hup hrun hnew hjob)
  · obtain ⟨u, hu, hstage, hdone, hcert, himages, hrest⟩ := State.update_recovers hrecovery hclass hfail hok
    refine ⟨u, s.checked_of (decide_eq_true hcls) hu, hstage, hdone, hcert, ?_, hrest⟩
    have hinstalled : (s.installed i).flash i.cls (1 - Map.get (fun _ => 0) s.mod.sec.active i.cls) = i := State.installed_self
    rw [State.flash, ← himages, ← State.flash] at hinstalled
    exact hinstalled
  · exact s.checked_of (decide_eq_true hcls) (State.update_unfit hrecovery hbad)
  · obtain ⟨_, _, _, _, _, hwork, -⟩ := s.raiseArb_work c (s.running c).2
    have hcommit : s.commitVersion c = (s.raiseArb c (s.running c).2).say (.redfish true 1) := if_neg (by rw [hup]; decide)
    refine ⟨(s.raiseArb c (s.running c).2).say (.redfish true 1), s.checked_of (decide_eq_true hc) hcommit, State.arb_raiseArb hcanon hc hsvn, ?_⟩
    rw [hwork]
    exact ⟨rfl, rfl, rfl⟩
  · subst hserial
    have hvalid := State.unlock_valid hroot hnonce hsoon
    refine ⟨fun hbusy => congrArg Host.Outcome.next (hvalid.trans (if_pos hbusy)), fun hidle => ?_⟩
    have hnow : s.unlock s.mod.serial nonce true = s.unlockNow := hvalid.trans (if_neg (by rw [hidle]; decide))
    refine ⟨s.unlockNow, congrArg Host.Outcome.next hnow, s.unlockNow_nonce, fun p hp => State.unlockNow_waits hcanon hp, fun hfree => ?_⟩
    obtain ⟨hdebug, hfreed, hdirty⟩ := State.unlockNow_free hcanon hfree
    exact ⟨hdebug, fun p hp => (hfreed p hp).1, hdirty⟩
  · obtain ⟨hdebug, hover, -, hfreed, hdirty⟩ := State.unlockEnd_done hcanon hnone
    have hgo : s.unlockGo = s.unlockEnd := if_pos hunlock
    dsimp only
    rw [hgo]
    exact ⟨hdebug, hover, hfreed, hdirty⟩

end Sys2Proof
end

section
/-!
What the starting classes of firmware, sites and feeds change in power-on (R421, R463, R466).
-/

namespace Sys2Proof.Machine

/-! Sites written one after another. -/

theorem State.foldl_setSite_each {G : Nat → Site → Site} {l : List Nat} (hnd : l.Nodup) : ∀ s : State, Map.wf blankSite s.sites = true → ∀ n,
    (l.foldl (fun s n => s.setSite n (G n (s.site n))) s).site n = if n ∈ l then G n (s.site n) else s.site n := by
  induction l with
  | nil => exact fun s _ n => (if_neg List.not_mem_nil).symm
  | cons k l ih =>
    intro s hwf n
    obtain ⟨hk, hl⟩ := List.nodup_cons.mp hnd
    rw [List.foldl_cons, ih hl _ (Map.wf_set hwf)]
    by_cases hnk : n = k
    · rw [hnk, if_neg hk, if_pos List.mem_cons_self, State.site_setSite_self _ hwf]
    · rw [State.setSite_site_ne hwf hnk]
      simp only [List.mem_cons, hnk, false_or]

/-! Feeds that come back (R463). -/

/-- Two states differ in their fields alone. -/
def FieldsWork (s u : State) : Prop := ∃ fields, u = { s with fields := fields }

theorem FieldsWork.refl (s : State) : FieldsWork s s := ⟨s.fields, rfl⟩

theorem FieldsWork.trans {s u v : State} (h : FieldsWork s u) (k : FieldsWork u v) : FieldsWork s v := by
  obtain ⟨_, rfl⟩ := h
  obtain ⟨fields, rfl⟩ := k
  exact ⟨fields, rfl⟩

theorem FieldsWork.foldl {α : Type} {step : State → α → State} (h : ∀ u a, FieldsWork u (step u a)) (l : List α) (s : State) :
    FieldsWork s (l.foldl step s) :=
  List.foldlRecOn (motive := FieldsWork s) l step (.refl s) fun _ hu a _ => hu.trans (h _ a)

theorem State.setField_fieldsWork (s : State) (f : Nat) (x : Field) : FieldsWork s (s.setField f x) := ⟨_, rfl⟩

theorem State.startNodes_fieldsWork (s : State) (f : Nat) : FieldsWork s (s.startNodes f) := by
  simp only [State.startNodes]
  split
  · exact .refl s
  · split
    · refine (s.setField_fieldsWork f _).trans (FieldsWork.foldl (fun u g => ?_) _ _)
      split
      · exact u.setField_fieldsWork g _
      · exact .refl u
    · exact s.setField_fieldsWork f _

/-- A feed that was absent supplies its half again. -/
theorem State.feedBack_fieldsWork {s : State} {k : Nat} (habsent : s.mod.pow.absent.contains k = true) : FieldsWork (s.setFeed k false) (s.feedBack k) := by
  unfold State.feedBack
  rw [habsent, Bool.not_true, if_neg (by decide)]
  refine FieldsWork.foldl (fun u f => ?_) _ _
  dsimp only
  split
  · exact .refl u
  · exact u.startNodes_fieldsWork f

/-- The module as power-on began, with the feeds of `l` absent. -/
structure Begun (l : List Nat) (s u : State) : Prop where
  powered : u.mod.powered = true
  stage : u.mod.stage = 0
  tiles : u.tiles = s.tiles
  sites : u.sites = s.sites
  absent : u.mod.pow.absent = l

theorem Begun.feed {l : List Nat} {s u : State} {k : Nat} (h : Begun l s u) (o : Nat) (hk : l.contains k = true) :
    Begun (l.filter (· ≠ k)) s ((u.feedBack k).ezField o 2 0 1) := by
  obtain ⟨fields, hback⟩ := State.feedBack_fieldsWork (s := u) (k := k) (by rw [h.absent]; exact hk)
  obtain ⟨v, hv, hpow⟩ : ∃ v : State, v = { u.setFeed k false with fields := fields } ∧ v.mod.pow.absent = u.mod.pow.absent.filter (· ≠ k) := ⟨_, rfl, rfl⟩
  rw [hback, ← hv]
  constructor
  · rw [hv]; exact h.powered
  · rw [hv]; exact h.stage
  · rw [hv]; exact h.tiles
  · rw [hv]; exact h.sites
  · exact hpow.trans (by rw [h.absent])

/-- Power-on begins at stage 0, with the feeds that are present. -/
theorem State.powerOn_begins {s : State} {a b : Bool} (hoff : s.mod.powered = false) (hhold : s.mod.holdUp = none) (hsome : a = true ∨ b = true) :
    Begun ((if a then [] else [0]) ++ if b then [] else [1]) s (s.powerOn a b) := by
  obtain ⟨t, ht⟩ : ∃ t, t = s.updMod fun m => { m with powered := true, stage := 0, failStep := 0, pow := { m.pow with absent := [0, 1] } } := ⟨_, rfl⟩
  have hpowered : Begun [0, 1] s t := by rw [ht]; exact ⟨rfl, rfl, rfl, rfl, rfl⟩
  have hbegun : s.powerOn a b =
      (let t1 := if a then (t.feedBack 0).ezField 0x0 2 0 1 else t
      if b then (t1.feedBack 1).ezField 0x10 2 0 1 else t1) := by
    have hheld : (if s.mod.holdUp.isSome then s.powerLost else s) = s := by rw [hhold]; rfl
    have hany : (a || b) = true := by simpa using hsome
    simp only [State.powerOn]
    rw [hheld, hoff, if_neg (by decide), hany, if_pos rfl, ← ht]
  rw [hbegun]
  cases a
  · cases b
    · exact absurd hsome (by decide)
    · exact hpowered.feed (k := 1) 0x10 (by decide)
  · have hfirst := hpowered.feed 0x0 (k := 0) (by decide)
    cases b
    · exact hfirst
    · exact hfirst.feed (k := 1) 0x10 (by decide)

/-! A class of firmware that starts (R421, R423). -/

/-- What the start of a class changes: records, the persistent store, and which copies run. -/
def StartWork (s u : State) : Prop := ∃ csr log preg wear opened active boot running, u = { s with mod := { s.mod with
  csr := csr, log := log, preg := preg, wear := wear, cc := { s.mod.cc with journalOpen := opened },
  sec := { s.mod.sec with active := active, boot := boot, running := running } } }

theorem StoreWork.startWork {s u : State} (h : StoreWork s u) : StartWork s u := by
  obtain ⟨csr, log, preg, wear, opened, rfl, -⟩ := h
  exact ⟨csr, log, preg, wear, opened, _, _, _, rfl⟩

theorem StartWork.trans {s u v : State} (h : StartWork s u) (k : StartWork u v) : StartWork s v := by
  obtain ⟨_, _, _, _, _, _, _, _, rfl⟩ := h
  obtain ⟨csr, log, preg, wear, opened, active, boot, running, rfl⟩ := k
  exact ⟨csr, log, preg, wear, opened, active, boot, running, rfl⟩

/-- The copy of a class that runs, and is started first next time. -/
def State.started (s : State) (c k : Nat) : State :=
  s.updMod fun m => { m with sec := { m.sec with
    active := Map.set (fun _ => 0) m.sec.active c k, boot := Map.set (fun _ => 0) m.sec.boot c k,
    running := Map.set (fun _ => (0, 0)) m.sec.running c ((s.flash c k).digest, (s.flash c k).svn) } }

theorem State.started_work (s : State) (c k : Nat) : StartWork s (s.started c k) := ⟨_, _, _, _, _, _, _, _, rfl⟩

theorem State.runClass_none {s : State} {c : Nat} (h : s.goodCopy c = none) : s.runClass c = (s.rootRecord (0x10 + c), false) := by
  rw [State.runClass, h]

theorem State.runClass_some {s : State} {c k : Nat} (h : s.goodCopy c = some k) :
    s.runClass c = (if (s.flash c k).commit then (s.started c k).raiseArb c (s.flash c k).svn else s.started c k, true) := by
  rw [State.runClass, h]
  rfl

theorem State.runClass_startWork (s : State) (c : Nat) : StartWork s (s.runClass c).1 := by
  cases h : s.goodCopy c with
  | none =>
    obtain ⟨csr, log, hrecord⟩ := s.rootRecord_frame (0x10 + c)
    rw [State.runClass_none h, hrecord]
    exact ⟨csr, log, _, _, _, _, _, _, rfl⟩
  | some k =>
    rw [State.runClass_some h]
    dsimp only
    split
    · exact (s.started_work c k).trans (State.raiseArb_work _ _ _).startWork
    · exact s.started_work c k

theorem State.runClass_ok (s : State) (c : Nat) : (s.runClass c).2 = (s.goodCopy c).isSome := by
  cases h : s.goodCopy c with
  | none => rw [State.runClass_none h]; rfl
  | some k => rw [State.runClass_some h]; rfl

end Sys2Proof.Machine
end

section
/-!
The stages of power-on (R419, R421, R463, R464, R466, R468).
-/

namespace Sys2Proof.Machine

section
variable {s u : State} (h : StartWork s u)
include h

theorem StartWork.same : u.tiles = s.tiles ∧ u.sites = s.sites ∧ u.mod.stage = s.mod.stage ∧ u.mod.cc.up = s.mod.cc.up ∧
    u.mod.sec.aliasKey = s.mod.sec.aliasKey ∧ u.mod.sec.rngFail = s.mod.sec.rngFail ∧ u.mod.sec.drawn = s.mod.sec.drawn := by
  obtain ⟨_, _, _, _, _, _, _, _, rfl⟩ := h
  exact ⟨rfl, rfl, rfl, rfl, rfl, rfl, rfl⟩

/-- What a copy's verification rests on besides its counter. -/
theorem StartWork.images : u.mod.sec.images = s.mod.sec.images ∧ u.mod.revoke0 = s.mod.revoke0 ∧ u.mod.b0 = s.mod.b0 := by
  obtain ⟨_, _, _, _, _, _, _, _, rfl⟩ := h
  exact ⟨rfl, rfl, rfl⟩

end

/-! Another class verifies as before. -/

theorem State.goodCopy_congr {s u : State} {c : Nat} (hboot : Map.get (fun _ => 0) u.mod.sec.boot c = Map.get (fun _ => 0) s.mod.sec.boot c)
    (himages : u.mod.sec.images = s.mod.sec.images ∧ u.mod.revoke0 = s.mod.revoke0 ∧ u.mod.b0 = s.mod.b0) (harb : u.arb c = s.arb c) :
    u.goodCopy c = s.goodCopy c := by
  obtain ⟨himg, hrevoke, hb0⟩ := himages
  have hflash (k : Nat) : u.flash c k = s.flash c k := by rw [State.flash, himg]; rfl
  have hverifies (i : Image) : u.verifies c i = s.verifies c i := by rw [State.verifies, hrevoke, hb0, harb]; rfl
  simp only [State.goodCopy]
  rw [hboot, hflash, hflash, hverifies, hverifies]

theorem State.arb_raiseArb_ne {s : State} {c d svn : Nat} (hpreg : Map.wf factoryWord s.mod.preg = true) (hd : d ≠ c) :
    (s.raiseArb c svn).arb d = s.arb d := by
  simp only [State.raiseArb]
  split
  · rfl
  · obtain ⟨hput, -⟩ := s.pregPut_store (0x90000 + 4 * c) (BitVec.ofNat 32 svn) (BitVec.ofNat 32 svn)
    rw [State.arb, State.preg, hput, Map.get_set_ne hpreg (by omega)]
    rfl

theorem StoreWork.boot_eq {s u : State} (h : StoreWork s u) : u.mod.sec.boot = s.mod.sec.boot := by
  obtain ⟨_, _, _, _, _, rfl, -⟩ := h
  rfl

/-- A class that starts leaves the copies of the others as they verified. -/
theorem State.goodCopy_runClass {s : State} {c d : Nat} (hcanon : s.canonical = true) (hd : d ≠ c) : (s.runClass c).1.goodCopy d = s.goodCopy d := by
  have hkept : s.Kept s.pending True := ⟨rfl, fun _ => hcanon⟩
  obtain ⟨-, hpreg, -, -, hboots, -⟩ := Module.kept_iff.mp hkept.mod trivial
  have himages := (s.runClass_startWork c).images
  cases h : s.goodCopy c with
  | none =>
    rw [State.runClass_none h] at himages ⊢
    obtain ⟨csr, log, hrecord⟩ := s.rootRecord_frame (0x10 + c)
    exact State.goodCopy_congr (by rw [hrecord]) himages (by rw [hrecord]; rfl)
  | some k =>
    rw [State.runClass_some h] at himages ⊢
    dsimp only at himages ⊢
    have hstarted : Map.get (fun _ => 0) (s.started c k).mod.sec.boot d = Map.get (fun _ => 0) s.mod.sec.boot d := Map.get_set_ne hboots hd
    split at himages
    next hcommit =>
      rw [if_pos hcommit]
      exact State.goodCopy_congr ((congrArg (Map.get (fun _ => 0) · d) (State.raiseArb_work _ _ _).boot_eq).trans hstarted) himages
        ((State.arb_raiseArb_ne (s := s.started c k) hpreg hd).trans rfl)
    next hcommit =>
      rw [if_neg hcommit]
      exact State.goodCopy_congr hstarted himages rfl

/-! Stage 0 (R419). -/

theorem State.setStage_sites (s : State) (n : Nat) : (s.setStage n).sites = s.sites := rfl

theorem State.stageZero_done {s : State} (hgood : (s.goodCopy 0).isSome = true) (hrng : s.mod.sec.rngFail = false) : let u := s.stageZero
    u.mod.stage = 1 ∧ u.mod.sec.aliasKey = keyDraw s.mod.sec.drawn ∧ u.sites = s.sites := by
  obtain ⟨-, hsites, -, -, -, kfail, kdrawn⟩ := (s.runClass_startWork 0).same
  have hok : (s.runClass 0).2 = true := (s.runClass_ok 0).trans hgood
  have hdrawn : (s.runClass 0).1.drawKey = some ((s.runClass 0).1.updMod fun m => { m with sec := { m.sec with drawn := m.sec.drawn + 1 } },
      keyDraw (s.runClass 0).1.mod.sec.drawn) := if_neg (by rw [kfail, hrng]; decide)
  obtain ⟨r, hr⟩ : ∃ r, r = (s.runClass 0).1 := ⟨_, rfl⟩
  rw [← hr] at hsites kdrawn hdrawn
  simp only [State.stageZero]
  rw [hok, if_neg (by decide), ← hr, hdrawn, kdrawn]
  exact ⟨rfl, rfl, (State.setStage_sites _ 1).trans hsites⟩

/-! Stage 1 (R466). -/

theorem State.sitesTrain_sites {s : State} (bad : Nat → Bool) (hwf : Map.wf blankSite s.sites = true) : (∃ sites, s.sitesTrain bad = { s with sites := sites }) ∧
    ∀ n < 48, ((s.sitesTrain bad).site n).state = (if bad n then 3 else 1) ∧ ((s.sitesTrain bad).site n).m = (s.site n).m := by
  refine ⟨State.foldl_setSite_frame (fun _ _ => ⟨_, _, rfl⟩) _ s, fun n hn => ?_⟩
  have heach := State.foldl_setSite_each (G := fun n x => { x with state := if bad n then 3 else 1, chState := 1 }) (List.nodup_range (n := nSites)) s hwf n
  rw [if_pos (show n ∈ List.range nSites from List.mem_range.mpr hn)] at heach
  rw [State.sitesTrain, heach]
  exact ⟨rfl, rfl⟩

theorem State.foldl_setPort_same {g : State → Nat → Port} (l : List Nat) (s : State) :
    (l.foldl (fun s q => s.setPort q (g s q)) s).tiles = s.tiles ∧ (l.foldl (fun s q => s.setPort q (g s q)) s).sites = s.sites :=
  List.foldlRecOn (motive := fun u : State => u.tiles = s.tiles ∧ u.sites = s.sites) l _ ⟨rfl, rfl⟩ fun _ hu _ _ => hu

/-- The end of stage 1 begins the training of the sites that did not fail. -/
theorem State.stageOne_done {s : State} (l : List Nat) (hwf : Map.wf blankSite s.sites = true) (hrun : s.mod.sec.recovery = false)
    (hgood : (s.goodCopy 3).isSome = true) : let u := s.stageOne l
    u.mod.stage = 2 ∧ u.tiles = s.tiles ∧ ∀ n < 48, (u.site n).state = (if n ∈ l then 3 else 1) ∧ (u.site n).m = (s.site n).m := by
  have hok : (s.runClass 3).2 = true := (s.runClass_ok 3).trans hgood
  obtain ⟨htiles3, hsites3, -⟩ := (s.runClass_startWork 3).same
  obtain ⟨⟨sites, hframe⟩, htrained⟩ := State.sitesTrain_sites (s := (s.runClass 3).1) (fun n => !(s.runClass 3).2 || l.contains n) (by rw [hsites3]; exact hwf)
  unfold State.stageOne
  extract_lets r3 s1 r5 s2
  have h1 : s1 = r3.1.sitesTrain fun n => !r3.2 || l.contains n := if_neg (by rw [hrun]; decide)
  have htiles1 : s1.tiles = s.tiles := by rw [h1, hframe]; exact htiles3
  obtain ⟨htiles5, hsites5, -⟩ := (s1.runClass_startWork 5).same
  have h2 : s2.tiles = r5.1.tiles ∧ s2.sites = r5.1.sites := by
    cases hr5 : r5.2 with
    | true => exact (congrArg (fun u : State => u.tiles = r5.1.tiles ∧ u.sites = r5.1.sites) (if_pos hr5)).mpr (State.foldl_setPort_same _ _)
    | false => exact (congrArg (fun u : State => u.tiles = r5.1.tiles ∧ u.sites = r5.1.sites) (if_neg (by rw [hr5]; decide))).mpr (State.foldl_setPort_same _ _)
  obtain ⟨htiles2, hsites2⟩ := h2
  obtain ⟨htiles4, hsites4, -⟩ := (s2.runClass_startWork 4).same
  refine ⟨rfl, (htiles4.trans (htiles2.trans htiles5)).trans htiles1, fun n hn => ?_⟩
  have hsite : ((s2.runClass 4).1.setStage 2).site n = s1.site n := by
    change Map.get blankSite (s2.runClass 4).1.sites n = Map.get blankSite s1.sites n
    rw [hsites4, hsites2, hsites5]
  obtain ⟨kstate, kmem⟩ := htrained n hn
  rw [hsite, h1, kstate, kmem, State.site, hsites3, hok]
  simp
  rfl

end Sys2Proof.Machine
end

section
/-!
Stages 2 to 6 of power-on: the control complex or recovery, the trained sites, the first lock (R419, R421, R463, R466, R468).
-/

namespace Sys2Proof.Machine

/-! The certificate (R419). -/

/-- Two states differ in the certificate and the words of measurement 9 alone. -/
def CertWork (s u : State) : Prop := ∃ issued meas words, u = { s with mod := { s.mod with sec := { s.mod.sec with
  certIssued := issued, meas := meas, secWords := words } } }

theorem State.snapSec_certWork (s : State) : CertWork s s.snapSec := ⟨_, _, _, rfl⟩

theorem State.issueCert_certWork (s : State) : CertWork s s.issueCert := by
  simp only [State.issueCert]
  split
  · exact ⟨_, _, _, rfl⟩
  · split
    · exact ⟨_, _, _, rfl⟩
    · exact ⟨_, _, _, rfl⟩

theorem State.issueCert_issued {s : State} (hkey : s.mod.sec.aliasKey ≠ 0) : s.issueCert.mod.sec.certIssued = true := by
  simp only [State.issueCert]
  rw [if_neg hkey]
  split
  · rfl
  · rfl

theorem CertWork.trans {s u v : State} (h : CertWork s u) (k : CertWork u v) : CertWork s v := by
  obtain ⟨_, _, _, rfl⟩ := h
  obtain ⟨issued, meas, words, rfl⟩ := k
  exact ⟨issued, meas, words, rfl⟩

/-! Stage 2 (R421, R468). -/

/-- With the boot loader and the operating system the job service starts. -/
theorem State.stageTwo_up {s : State} (hcanon : s.canonical = true) (hdown : s.mod.cc.up = false) (hboot : (s.goodCopy 1).isSome = true)
    (hsystem : (s.goodCopy 2).isSome = true) : let u := s.stageTwo
    u.mod.stage = s.mod.stage ∧ u.mod.cc.up = true ∧ (s.mod.sec.aliasKey ≠ 0 → u.mod.sec.certIssued = true) ∧ u.sites = s.sites := by
  have hok1 : (s.runClass 1).2 = true := (s.runClass_ok 1).trans hboot
  have hok2 : ((s.runClass 1).1.runClass 2).2 = true := (State.runClass_ok _ 2).trans (by rw [State.goodCopy_runClass hcanon (by decide)]; exact hsystem)
  obtain ⟨-, hsites, hstage, hup, hkey, -⟩ := ((s.runClass_startWork 1).trans (State.runClass_startWork _ 2)).same
  unfold State.stageTwo
  extract_lets r1 r2 s1 u
  have hr2 : r2 = r1.1.runClass 2 := if_pos hok1
  have hgo : r2.2 = true := by rw [hr2]; exact hok2
  obtain ⟨t, ht, htkey, htup, htstage, htsites⟩ : ∃ t, t = r2.1.updMod (fun m => { m with sec := { m.sec with recovery := false, failClass := 0 } }) ∧
      t.mod.sec.aliasKey = r2.1.mod.sec.aliasKey ∧ t.mod.cc.up = r2.1.mod.cc.up ∧ t.mod.stage = r2.1.mod.stage ∧ t.sites = r2.1.sites :=
    ⟨_, rfl, rfl, rfl, rfl, rfl⟩
  rw [hr2] at htkey htup htstage htsites
  have hs1 : s1 = t.issueCert := congrArg State.issueCert ht.symm
  obtain ⟨v, hv, hcert⟩ : ∃ v, v = (if s.mod.sec.recovery then s1.snapSec else s1) ∧ (s.mod.sec.aliasKey ≠ 0 → v.mod.sec.certIssued = true) ∧ CertWork t v := by
    have hissued : s.mod.sec.aliasKey ≠ 0 → s1.mod.sec.certIssued = true := fun hne => by
      rw [hs1]
      exact State.issueCert_issued (by rw [htkey, hkey]; exact hne)
    have hwork : CertWork t s1 := hs1 ▸ t.issueCert_certWork
    cases s.mod.sec.recovery
    · exact ⟨s1, rfl, hissued, hwork⟩
    · exact ⟨s1.snapSec, rfl, hissued, hwork.trans s1.snapSec_certWork⟩
  obtain ⟨hcert, _, _, _, hframe⟩ := hcert
  have hvdown : v.mod.cc.up = false := by rw [hframe]; exact htup.trans (hup.trans hdown)
  obtain ⟨mail, out, hstarted⟩ := State.ccUp_frame hvdown
  have hu : u = v.ccUp := (if_pos hgo).trans (congrArg State.ccUp hv.symm)
  rw [hu, hstarted]
  refine ⟨?_, rfl, hcert, ?_⟩
  · rw [hframe]
    exact htstage.trans hstage
  · rw [hframe]
    exact htsites.trans hsites

/-- Recovery for a class: STAGE 7. -/
theorem State.recover_shown (s : State) (step cls : Nat) : let u := s.recover step cls
    u.mod.stage = 7 ∧ u.mod.failStep = step ∧ u.mod.sec.recovery = true ∧ u.mod.sec.failClass = cls := by
  unfold State.recover
  extract_lets off s1 u
  obtain ⟨t, ht, hstage, hstep, hrecovery, hclass⟩ : ∃ t, t = off.updMod (fun m => { m with
      stage := 7, failStep := step, sec := { m.sec with recovery := true, failClass := cls } }) ∧ t.mod.stage = 7 ∧ t.mod.failStep = step ∧
      t.mod.sec.recovery = true ∧ t.mod.sec.failClass = cls := ⟨_, rfl, rfl, rfl, rfl, rfl⟩
  have hwork : CertWork t s1 := by
    have hs1 : s1 = t.issueCert := congrArg State.issueCert ht.symm
    exact hs1 ▸ t.issueCert_certWork
  have hshown (u : State) (hu : CertWork t u) : u.mod.stage = 7 ∧ u.mod.failStep = step ∧ u.mod.sec.recovery = true ∧ u.mod.sec.failClass = cls := by
    obtain ⟨_, _, _, rfl⟩ := hu
    exact ⟨hstage, hstep, hrecovery, hclass⟩
  rcases ite_eq_or_eq (s.mod.sec.recovery = true) s1 s1.snapSec with h | h
  · rw [show u = s1 from h]
    exact hshown _ hwork
  · rw [show u = s1.snapSec from h]
    exact hshown _ (hwork.trans s1.snapSec_certWork)

/-- Without one of the two the module enters recovery for the first that fails. -/
theorem State.stageTwo_recovers {s : State} (hcanon : s.canonical = true) (hbad : s.goodCopy 1 = none ∨ s.goodCopy 2 = none) : let u := s.stageTwo
    u.mod.stage = 7 ∧ u.mod.failStep = 2 ∧ u.mod.sec.recovery = true ∧ u.mod.sec.failClass = (if s.goodCopy 1 = none then 1 else 2) := by
  unfold State.stageTwo
  extract_lets r1 r2 s1 u
  have hok1 : r1.2 = (s.goodCopy 1).isSome := s.runClass_ok 1
  cases h1 : s.goodCopy 1 with
  | none =>
    have hfail : r1.2 = false := by rw [hok1, h1]; rfl
    have hr2 : r2 = r1 := if_neg (by rw [hfail]; decide)
    have hu : u = r2.1.recover 2 (if r1.2 then 2 else 1) := if_neg (by rw [hr2, hfail]; decide)
    rw [hu, hfail, if_neg (by decide), if_pos rfl]
    exact State.recover_shown _ _ _
  | some k =>
    have hgood : r1.2 = true := by rw [hok1, h1]; rfl
    have hr2 : r2 = r1.1.runClass 2 := if_pos hgood
    have hnone : s.goodCopy 2 = none := hbad.resolve_left (by rw [h1]; simp)
    have hfail : r2.2 = false := by
      rw [hr2, State.runClass_ok, State.goodCopy_runClass hcanon (by decide), hnone]
      rfl
    have hu : u = r2.1.recover 2 (if r1.2 then 2 else 1) := if_neg (by rw [hfail]; decide)
    rw [hu, hgood, if_pos rfl, if_neg (by simp)]
    exact State.recover_shown _ _ _

/-! Stage 3 (R463, R466). -/

/-- A trained site is ready, one that failed is out of service. -/
theorem State.sitesReady_site {s : State} (hwf : Map.wf blankSite s.sites = true) (l : List Nat) {n : Nat} (hn : n < 48) :
    ((s.sitesReady l).site n).state = if (s.site n).state = 3 ∨ n ∈ l then 3 else 2 := by
  have heach := State.foldl_setSite_each (G := fun n x => { (if x.state = 3 || l.contains n then { x with state := 3 } else { repairSite x with state := 2 }) with
    chState := if l.contains (64 + n / 2) then 3 else 2 }) (List.nodup_range (n := nSites)) s hwf n
  rw [if_pos (show n ∈ List.range nSites from List.mem_range.mpr hn)] at heach
  rw [State.sitesReady, heach]
  dsimp only
  by_cases hbad : (s.site n).state = 3 ∨ n ∈ l
  · rw [if_pos hbad, if_pos (by simpa using hbad)]
  · rw [if_neg hbad, if_neg (by simpa using hbad)]

theorem State.marchesDone_iff {s : State} : s.marchesDone = true ↔ ∀ n ∈ List.range 48, (s.site n).state ≠ 2 ∨ (s.site n).marched = true := by
  simp only [State.marchesDone, List.all_eq_true, Bool.or_eq_true, decide_eq_true_eq]
  rfl

/-! Stage 4: the first lock (R374, R463). -/

theorem State.firstLock_done {s : State} (hstage : s.mod.stage = 4) (hfirst : s.mod.firstLock = false) :
    let u := (((s.cirSet true 0).post 8 (.notice 6 0)).raise { source := 0x11, cls := 4, loc := feedLoc 2 }).setStage 5
    u.mod.stage = 5 ∧ u.now = 0 ∧ u.counting = true ∧ u.mod.firstLock = true := by
  obtain ⟨fields, hlock⟩ := State.cirSet_first (s := s) 0 hfirst (by omega) (by omega)
  obtain ⟨mail, out, hpost⟩ := (s.cirSet true 0).post_frame 8 (.notice 6 0)
  obtain ⟨csr, log, hraise, -⟩ := State.raise_same (s := (s.cirSet true 0).post 8 (.notice 6 0)) (r := { source := 0x11, cls := 4, loc := feedLoc 2 })
    (show (4 : Nat) ≠ 1 by decide)
  dsimp only
  rw [hraise, hpost, hlock]
  exact ⟨rfl, rfl, rfl, rfl⟩

end Sys2Proof.Machine
end

section
/-!
The stored partitions are defined again once the module is ready (R467).
-/

namespace Sys2Proof.Machine

/-! The configuration, and whether the module is ready, stay while units are given to partitions. -/

/-- Whether the module is ready, and its configuration of the partitions. -/
def State.settings (s : State) : Bool × Map PartConf := (s.mod.ready, s.mod.cc.conf)

theorem State.conf_of_settings {s u : State} (h : u.settings = s.settings) (p : Nat) : u.conf p = s.conf p :=
  congrArg (Map.get (fun _ => ({} : PartConf)) · p) (Prod.mk.inj h).2

theorem State.settings_foldl {α : Type} {step : State → α → State} (h : ∀ u a, (step u a).settings = u.settings) (l : List α) (s : State) :
    (l.foldl step s).settings = s.settings :=
  List.foldlRecOn (motive := fun u : State => u.settings = s.settings) l step rfl fun _ hu a _ => (h _ a).trans hu

@[simp] theorem State.settings_setField (s : State) (f : Nat) (x : Field) : (s.setField f x).settings = s.settings := rfl
@[simp] theorem State.settings_setSite (s : State) (n : Nat) (x : Site) : (s.setSite n x).settings = s.settings := rfl
@[simp] theorem State.settings_setPort (s : State) (q : Nat) (x : Port) : (s.setPort q x).settings = s.settings := rfl
@[simp] theorem State.settings_setPart (s : State) (p : Nat) (x : Part) : (s.setPart p x).settings = s.settings := rfl
@[simp] theorem State.settings_ezField (s : State) (o hi lo v : Nat) : (s.ezField o hi lo v).settings = s.settings := rfl

@[simp] theorem State.settings_levels (s : State) (f : Nat) : (s.levels f).settings = s.settings := by
  obtain ⟨_, _, _, h⟩ := (s.levels_levelWork f).frame
  rw [h]
  rfl

theorem FieldsWork.settings_eq {s u : State} (h : FieldsWork s u) : u.settings = s.settings := by
  obtain ⟨_, rfl⟩ := h
  rfl

theorem StoreWork.settings_eq {s u : State} (h : StoreWork s u) : u.settings = s.settings := by
  obtain ⟨_, _, _, _, _, rfl, -⟩ := h
  rfl

@[simp] theorem State.settings_post (s : State) (r : Nat) (m : Msg) : (s.post r m).settings = s.settings := by
  obtain ⟨_, _, h⟩ := s.post_frame r m
  rw [h]
  rfl

@[simp] theorem State.settings_xmasks (s : State) : s.xmasks.settings = s.settings := by
  unfold State.xmasks
  split
  · obtain ⟨_, h⟩ := s.putXmask_frame
    rw [h]
    rfl
  · rfl

@[simp] theorem State.settings_startNodes (s : State) (f : Nat) : (s.startNodes f).settings = s.settings := (s.startNodes_fieldsWork f).settings_eq

@[simp] theorem State.settings_leaveDark (s : State) (f : Nat) (err : Bool) : (s.leaveDark f err).settings = s.settings := by
  simp [State.leaveDark]

@[simp] theorem State.settings_checkMap (s : State) (f : Nat) : (s.checkMap f).settings = s.settings := by
  unfold State.checkMap
  split
  · exact s.settings_leaveDark f _
  · split
    · exact s.settings_setField f _
    · exact (State.raise_storeWork (show (4 : Nat) ≠ 1 by decide)).settings_eq.trans (s.settings_leaveDark f true)

@[simp] theorem State.settings_supplied (s : State) (f : Nat) : (s.supplied f).settings = s.settings := by
  simp only [State.supplied]
  split
  · simp
  · simp

@[simp] theorem State.settings_restoreMap (s : State) (f : Nat) : (s.restoreMap f).settings = s.settings := by
  simp only [State.restoreMap]
  split
  · exact (State.raise_storeWork (s := s) (show (4 : Nat) ≠ 1 by decide)).settings_eq
  · obtain ⟨_, _, _, _, _, h⟩ := s.writeMap_done f _ _ _ false
    rw [h]
    rfl

@[simp] theorem State.settings_powerUp (s : State) (f : Nat) : (s.powerUp f).settings = s.settings := by
  rw [State.powerUp_eq]
  dsimp only
  split
  · simp
  · split
    · simp [(State.closeJournal_storeWork _).settings_eq]
    · simp

@[simp] theorem State.settings_keepReserve (s : State) (f : Nat) : (s.keepReserve f).settings = s.settings := by
  simp only [State.keepReserve]
  split
  · simp [State.fieldCmd]
  · simp

@[simp] theorem State.settings_fillReserve (s : State) : s.fillReserve.settings = s.settings :=
  State.settings_foldl (fun u f => by
    split
    · exact u.settings_keepReserve f
    · exact u.settings_setField f _) _ s

@[simp] theorem State.settings_setFieldOwner (s : State) (f p : Nat) : (s.setFieldOwner f p).settings = s.settings := by simp [State.setFieldOwner]

@[simp] theorem State.settings_restoreChan (s : State) (k p : Nat) : (s.restoreChan k p).settings = s.settings := by
  unfold State.restoreChan
  split
  · simp
  · rfl

@[simp] theorem State.settings_restoreOwned (s : State) (p : Nat) : (s.restoreOwned p).settings = s.settings := by
  simp only [State.restoreOwned]
  refine (State.settings_foldl (fun u q => ?_) _ _).trans ((State.settings_foldl (fun u k => u.settings_restoreChan k p) _ _).trans
    (State.settings_foldl (fun u f => ?_) _ _))
  · split
    · exact u.settings_setPort q _
    · rfl
  · split
    · exact u.settings_setFieldOwner f p
    · rfl

/-! A partition defined again. -/

/-- What the definition of partitions leaves of the rest of the module. -/
structure DefineWork (s u : State) : Prop where
  settings : u.settings = s.settings
  rng : u.mod.sec.rngFail = s.mod.sec.rngFail
  tiles : Map.wf (fun _ => ({} : Tile)) s.tiles = true → Map.wf (fun _ => ({} : Tile)) u.tiles = true ∧
    ∀ t, { u.tile t with credit := none } = { s.tile t with credit := none }

theorem DefineWork.of_tiles_eq {s u : State} (hsettings : u.settings = s.settings) (hrng : u.mod.sec.rngFail = s.mod.sec.rngFail)
    (htiles : u.tiles = s.tiles) : DefineWork s u :=
  ⟨hsettings, hrng, fun hwf => ⟨htiles ▸ hwf, fun t => by rw [State.tile, htiles]; rfl⟩⟩

theorem DefineWork.trans {s u v : State} (h : DefineWork s u) (k : DefineWork u v) : DefineWork s v where
  settings := k.settings.trans h.settings
  rng := k.rng.trans h.rng
  tiles := fun hwf => by
    obtain ⟨hu, hsame⟩ := h.tiles hwf
    obtain ⟨hv, ksame⟩ := k.tiles hu
    exact ⟨hv, fun t => (ksame t).trans (hsame t)⟩

theorem DefineWork.foldl {α : Type} {step : State → α → State} (h : ∀ u a, DefineWork u (step u a)) (l : List α) (s : State) :
    DefineWork s (l.foldl step s) :=
  List.foldlRecOn (motive := DefineWork s) l step (.of_tiles_eq rfl rfl rfl) fun _ hu a _ => hu.trans (h _ a)

theorem ReserveWork.defineWork {s u : State} (h : ReserveWork s u) (hsettings : u.settings = s.settings) : DefineWork s u :=
  ⟨hsettings, congrArg Sec.rngFail h.sec, h.tiles⟩

/-- A stored partition is defined again, or the root of trust has no key to give it. -/
def State.defineAgain (s : State) (p : Nat) : State :=
  if (s.conf p).known && decide ((s.part p).state = 0) then (match s.definePart p with | some t => t | none => s.rootRecord 1) else s

theorem State.definePart_none {s : State} (p : Nat) (hrng : s.mod.sec.rngFail = true) : s.definePart p = none := by
  unfold State.definePart State.giveKey State.drawKey
  rw [hrng]
  rfl

theorem State.keyed_defineWork (s : State) (p : Nat) : DefineWork s ((s.keyed p).restoreOwned p).xmasks := by
  have hkeyed : DefineWork s (s.keyed p) := .of_tiles_eq rfl rfl rfl
  exact (hkeyed.trans ((State.restoreOwned_reserveWork _ p).defineWork (State.settings_restoreOwned _ p))).trans
    ((State.xmasks_reserveWork _).defineWork (State.settings_xmasks _))

theorem State.defineAgain_defineWork (s : State) (p : Nat) : DefineWork s (s.defineAgain p) := by
  unfold State.defineAgain
  split
  · cases hrng : s.mod.sec.rngFail with
    | false =>
      rw [State.definePart_of p hrng]
      exact s.keyed_defineWork p
    | true =>
      rw [State.definePart_none p hrng]
      have hrecord : StoreWork s (s.rootRecord 1) := State.raise_storeWork (show (4 : Nat) ≠ 1 by decide)
      exact hrecord.reserveWork.defineWork hrecord.settings_eq
  · exact .of_tiles_eq rfl rfl rfl

/-- A partition in STATE 1 whose key has two halves that differ. -/
def Part.Defined (q : Part) : Prop := q.state = 1 ∧ q.key / 2 ^ 256 ≠ q.key % 2 ^ 256

theorem State.keyed_others {s : State} (k : Nat) (hwf : Map.wf (fun _ => ({} : Part)) s.parts = true) :
    Map.wf (fun _ => ({} : Part)) (s.keyed k).parts = true ∧ ∀ p, p ≠ k → (s.keyed k).part p = s.part p := by
  unfold State.keyed
  extract_lets s1 q s2
  have hwf2 : Map.wf (fun _ => ({} : Part)) s2.parts = true := State.setPart_partsKept s1 k _ hwf
  refine ⟨State.setPart_partsKept s2 k _ hwf2, fun p hp => ?_⟩
  rw [State.setPart_part_ne hwf2 hp]
  exact State.setPart_part_ne (s := s1) hwf hp

/-- The partitions after one is defined again. -/
theorem State.defineAgain_parts {s : State} {k : Nat} (hrng : s.mod.sec.rngFail = false) (hwf : Map.wf (fun _ => ({} : Part)) s.parts = true) :
    Map.wf (fun _ => ({} : Part)) (s.defineAgain k).parts = true ∧ (∀ p, p ≠ k → (s.defineAgain k).part p = s.part p) ∧
      ((s.part k).state ≠ 0 → s.defineAgain k = s) ∧ ((s.conf k).known = true → (s.part k).state = 0 → ((s.defineAgain k).part k).Defined) := by
  have hparts : ((((s.keyed k).restoreOwned k).xmasks).parts) = (s.keyed k).parts :=
    (State.xmasks_reserveWork _).parts.trans (State.restoreOwned_reserveWork _ k).parts
  obtain ⟨hkeyed, hother⟩ := State.keyed_others k hwf
  have hself := State.keyed_part k hwf
  unfold State.defineAgain
  by_cases hdue : ((s.conf k).known && decide ((s.part k).state = 0)) = true
  · rw [if_pos hdue, State.definePart_of k hrng]
    dsimp only
    refine ⟨by rw [hparts]; exact hkeyed, fun p hp => ?_, fun h0 => ?_, fun _ _ => ?_⟩
    · rw [State.part, hparts]
      exact hother p hp
    · exact absurd (of_decide_eq_true (Bool.and_eq_true_iff.mp hdue).2) h0
    · rw [State.part, hparts, ← State.part, hself]
      exact ⟨rfl, keyDraw_halves _⟩
  · rw [if_neg hdue]
    exact ⟨hwf, fun _ _ => rfl, fun _ => rfl, fun hknown h0 => absurd (by rw [hknown, decide_eq_true h0]; rfl) hdue⟩

/-- Every stored partition that is not defined is defined once the others are too. -/
theorem State.defineAgains_part {p : Nat} (l : List Nat) : ∀ s : State, s.mod.sec.rngFail = false → Map.wf (fun _ => ({} : Part)) s.parts = true →
    (s.conf p).known = true → (s.part p).Defined ∨ p ∈ l ∧ (s.part p).state = 0 →
    Map.wf (fun _ => ({} : Part)) (l.foldl State.defineAgain s).parts = true ∧ ((l.foldl State.defineAgain s).part p).Defined := by
  induction l with
  | nil => exact fun s _ hwf _ h => ⟨hwf, h.resolve_right fun ⟨hnil, _⟩ => List.not_mem_nil hnil⟩
  | cons k l ih =>
    intro s hrng hwf hknown h
    have hwork := s.defineAgain_defineWork k
    obtain ⟨hwf1, hother, hdefined, hnew⟩ := State.defineAgain_parts (k := k) hrng hwf
    refine ih (s.defineAgain k) (hwork.rng.trans hrng) hwf1 (by rw [State.conf_of_settings hwork.settings]; exact hknown) ?_
    by_cases hk : p = k
    · subst hk
      rcases h with h | ⟨-, h0⟩
      · rw [hdefined (by rw [h.1]; decide)]
        exact .inl h
      · exact .inl (hnew hknown h0)
    · rw [hother p hk]
      exact h.imp_right fun ⟨hmem, h0⟩ => ⟨(List.mem_cons.mp hmem).resolve_left hk, h0⟩

end Sys2Proof.Machine
end

section
/-!
The module is ready (R467), a module reset (R470), and the stages of power-on.
-/

namespace Sys2Proof.Machine

/-! The module is ready. -/

/-- The guarantee of a defined partition is reported, as `w` gives it. -/
def State.tellGuar (w s : State) (p : Nat) : State :=
  if (s.part p).state = 0 then s
  else (s.setPart p { s.part p with guar := w.guarantee p }).post p (.hostAdvisory p 5 [w.guarantee p])

theorem State.tellGuar_defineWork (w s : State) (p : Nat) : DefineWork s (w.tellGuar s p) := by
  unfold State.tellGuar
  split
  · exact .of_tiles_eq rfl rfl rfl
  · obtain ⟨_, _, hpost⟩ := (s.setPart p { s.part p with guar := w.guarantee p }).post_frame p (.hostAdvisory p 5 [w.guarantee p])
    rw [hpost]
    exact .of_tiles_eq rfl rfl rfl

theorem State.tellGuar_defined {w s : State} {p : Nat} (k : Nat)
    (h : Map.wf (fun _ => ({} : Part)) s.parts = true ∧ (s.part p).Defined) :
    Map.wf (fun _ => ({} : Part)) (w.tellGuar s k).parts = true ∧ ((w.tellGuar s k).part p).Defined := by
  obtain ⟨hwf, hdefined⟩ := h
  unfold State.tellGuar
  split
  · exact ⟨hwf, hdefined⟩
  · obtain ⟨_, _, hpost⟩ := (s.setPart k { s.part k with guar := w.guarantee k }).post_frame k (.hostAdvisory k 5 [w.guarantee k])
    rw [hpost]
    refine ⟨State.setPart_partsKept s k _ hwf, ?_⟩
    by_cases hk : p = k
    · subst hk
      exact (State.setPart_part_self hwf).symm ▸ hdefined
    · exact (State.setPart_part_ne hwf hk).symm ▸ hdefined

theorem State.moduleReady_eq {s : State} (hstage : s.mod.stage = 6) (hup : s.mod.cc.up = true) (hnot : s.mod.ready = false) :
    ∃ w : State, w = ((List.range nParts).foldl State.defineAgain (s.updMod fun m => { m with ready := true })).fillReserve ∧
      s.moduleReady = ((List.range nParts).foldl w.tellGuar w).xmasks :=
  ⟨_, rfl, if_pos (by rw [hstage, hup, hnot]; decide)⟩

/-- The module is ready, and each stored partition is defined with a key of its own. -/
theorem State.moduleReady_done {s : State} (hcanon : s.canonical = true) (hstage : s.mod.stage = 6) (hup : s.mod.cc.up = true)
    (hnot : s.mod.ready = false) : s.moduleReady.mod.ready = true ∧
      (∀ t, { s.moduleReady.tile t with credit := none } = { s.tile t with credit := none }) ∧
      ∀ p < 8, (s.conf p).known = true → (s.part p).state = 0 → s.mod.sec.rngFail = false → (s.moduleReady.part p).Defined := by
  obtain ⟨w, hw, hready⟩ := State.moduleReady_eq hstage hup hnot
  obtain ⟨t, ht, hset, hrng, htiles, hparts, hconf⟩ : ∃ t, t = (s.updMod fun m => { m with ready := true }) ∧ t.mod.ready = true ∧
    t.mod.sec.rngFail = s.mod.sec.rngFail ∧ t.tiles = s.tiles ∧ t.parts = s.parts ∧ t.mod.cc.conf = s.mod.cc.conf := ⟨_, rfl, rfl, rfl, rfl, rfl, rfl⟩
  rw [← ht] at hw
  have hfill := State.fillReserve_reserveWork ((List.range nParts).foldl State.defineAgain t)
  have hagain : DefineWork t w := hw ▸ (DefineWork.foldl State.defineAgain_defineWork _ t).trans (hfill.defineWork (State.settings_fillReserve _))
  have hend := State.xmasks_reserveWork ((List.range nParts).foldl w.tellGuar w)
  have hwork : DefineWork t s.moduleReady := hready ▸ (hagain.trans (DefineWork.foldl w.tellGuar_defineWork _ w)).trans
    (hend.defineWork (State.settings_xmasks _))
  refine ⟨(Prod.mk.inj hwork.settings).1.trans hset, fun i => ?_, fun p hp hknown h0 hfail => ?_⟩
  · obtain ⟨-, hsame⟩ := hwork.tiles (htiles ▸ (State.canon hcanon).tiles)
    rw [hsame i, State.tile, htiles]
    rfl
  · have hpart : t.part p = s.part p := by rw [State.part, hparts]; rfl
    have hknownt : (t.conf p).known = true := by rw [State.conf, hconf]; exact hknown
    have hdefined := State.defineAgains_part (p := p) (List.range nParts) t (hrng.trans hfail) (hparts ▸ (State.canon hcanon).parts) hknownt
      (.inr ⟨List.mem_range.mpr hp, by rw [hpart]; exact h0⟩)
    rw [State.part, ← hfill.parts, ← State.part, ← hw] at hdefined
    have htold := List.foldlRecOn (motive := fun v : State => Map.wf (fun _ => ({} : Part)) v.parts = true ∧ (v.part p).Defined)
      (List.range nParts) w.tellGuar hdefined fun v hv k _ => State.tellGuar_defined k hv
    rw [hready, State.part, hend.parts, ← State.part]
    exact htold.2

/-! A module reset. -/

theorem State.moduleReset_again {s : State} (hstage : s.mod.stage = 8) : s.moduleReset true = s := if_pos hstage

theorem State.moduleReset_begins {s : State} (hstage : s.mod.stage ≠ 8) :
    s.moduleReset true = s.modAbort.updMod fun m => { m with stage := 8, failStep := 0, resetting := true, ready := false } := if_neg hstage

/-! The stages of power-on. -/

theorem State.site_setStage (s : State) (k n : Nat) : (s.setStage k).site n = s.site n := rfl

section
variable {s : State} (hpowered : s.mod.powered = true) (l : List Nat)
include hpowered

theorem State.stageDone_zero (hstage : s.mod.stage = 0) : s.stageDone l = s.stageZero := by
  simp only [State.stageDone, hpowered, hstage, Bool.not_true, Bool.false_eq_true, if_false]

theorem State.stageDone_one (hstage : s.mod.stage = 1) : s.stageDone l = s.stageOne l := by
  simp only [State.stageDone, hpowered, hstage, Bool.not_true, Bool.false_eq_true, if_false]

theorem State.stageDone_two (hstage : s.mod.stage = 2) :
    s.stageDone l = if s.mod.cc.up then (s.sitesReady l).setStage 3 else s.stageTwo := by
  simp only [State.stageDone, hpowered, hstage, Bool.not_true, Bool.false_eq_true, if_false]

theorem State.stageDone_three (hstage : s.mod.stage = 3) : s.stageDone l = if s.marchesDone then s.setStage 4 else s := by
  simp only [State.stageDone, hpowered, hstage, Bool.not_true, Bool.false_eq_true, if_false]

theorem State.stageDone_four (hstage : s.mod.stage = 4) : s.stageDone l = (if s.mod.firstLock then s
    else ((s.cirSet true 0).post 8 (.notice 6 0)).raise { source := 0x11, cls := 4, loc := feedLoc 2 }).setStage 5 := by
  simp only [State.stageDone, hpowered, hstage, Bool.not_true, Bool.false_eq_true, if_false]

theorem State.stageDone_five (hstage : s.mod.stage = 5) : s.stageDone l = if s.fieldsDone then s.reroute.setStage 6 else s := by
  simp only [State.stageDone, hpowered, hstage, Bool.not_true, Bool.false_eq_true, if_false]

theorem State.stageDone_later (hstage : 6 ≤ s.mod.stage) : s.stageDone l = s := by
  simp only [State.stageDone, hpowered, Bool.not_true, Bool.false_eq_true, if_false]
  obtain ⟨n, hn⟩ := Nat.exists_eq_add_of_le' hstage
  rw [hn]
  rfl

end

end Sys2Proof.Machine

namespace Sys2Proof
open Machine

/-- Settles O54: each stage by the law of its end, power-on by what a feed that comes back changes, MODULE_READY by the definitions
it repeats, a module reset by the aborts it requests. -/
theorem powerOnAndReset : Obligations.PowerOnAndReset := by
  intro s hcanon
  refine ⟨fun a b hoff hhold hsome => ?_, fun hpowered => ⟨fun hstage hgood hrng l => ?_, fun hstage hrun hgood l => ?_,
    fun hstage hdown hboot hsystem l => ?_, fun hstage hdown hbad l => ?_, fun hstage hup l => ?_, fun hstage l => ⟨fun hdone => ?_, fun hwait => ?_⟩,
    fun hstage hfirst l => ?_, fun hstage hfirst l => ?_, fun hstage l => ⟨fun hdone => ?_, fun hwait => ?_⟩, fun hstage l => ?_⟩,
    fun hstage hup hnot => ?_, fun hstage => ?_, fun hstage => congrArg Host.Outcome.next (State.moduleReset_again hstage)⟩
  · obtain ⟨hpow, hstage, htiles, hsites, habsent⟩ := State.powerOn_begins hoff hhold hsome
    refine ⟨s.powerOn a b, rfl, hpow, hstage, htiles, hsites, ?_, ?_⟩
    · rw [habsent]
      cases a <;> cases b <;> decide
    · rw [habsent]
      cases a <;> cases b <;> decide
  · exact ⟨s.stageZero, congrArg Host.Outcome.next (State.stageDone_zero hpowered l hstage), State.stageZero_done hgood hrng⟩
  · exact ⟨s.stageOne l, congrArg Host.Outcome.next (State.stageDone_one hpowered l hstage),
      State.stageOne_done l (State.canon hcanon).sites hrun hgood⟩
  · obtain ⟨h2, hup, hcert, hsites⟩ := State.stageTwo_up hcanon hdown hboot hsystem
    exact ⟨s.stageTwo, congrArg Host.Outcome.next ((State.stageDone_two hpowered l hstage).trans (if_neg (by rw [hdown]; decide))),
      h2.trans hstage, hup, hcert, hsites⟩
  · exact ⟨s.stageTwo, congrArg Host.Outcome.next ((State.stageDone_two hpowered l hstage).trans (if_neg (by rw [hdown]; decide))),
      State.stageTwo_recovers hcanon hbad⟩
  · exact ⟨(s.sitesReady l).setStage 3, congrArg Host.Outcome.next ((State.stageDone_two hpowered l hstage).trans (if_pos hup)), rfl,
      fun n hn => (congrArg Site.state (State.site_setStage _ 3 n)).trans (State.sitesReady_site (State.canon hcanon).sites l hn)⟩
  · exact congrArg Host.Outcome.next ((State.stageDone_three hpowered l hstage).trans (if_pos (State.marchesDone_iff.mpr hdone)))
  · obtain ⟨n, hn, h2, hleft⟩ := hwait
    refine congrArg Host.Outcome.next ((State.stageDone_three hpowered l hstage).trans (if_neg fun hdone => ?_))
    rcases State.marchesDone_iff.mp hdone n hn with h | h
    · exact h h2
    · exact absurd h (by rw [hleft]; decide)
  · exact congrArg Host.Outcome.next ((State.stageDone_four hpowered l hstage).trans (by rw [if_pos hfirst]))
  · exact ⟨_, congrArg Host.Outcome.next ((State.stageDone_four hpowered l hstage).trans (by rw [hfirst, if_neg (by decide)])),
      State.firstLock_done hstage hfirst⟩
  · exact congrArg Host.Outcome.next ((State.stageDone_five hpowered l hstage).trans (if_pos hdone))
  · exact congrArg Host.Outcome.next ((State.stageDone_five hpowered l hstage).trans (if_neg (by rw [hwait]; decide)))
  · exact congrArg Host.Outcome.next (State.stageDone_later hpowered l hstage)
  · obtain ⟨hready, htiles, hparts⟩ := State.moduleReady_done hcanon hstage hup hnot
    exact ⟨s.moduleReady, rfl, hready, htiles, hparts⟩
  · refine ⟨_, congrArg Host.Outcome.next (State.moduleReset_begins hstage), rfl, rfl, rfl, fun p hp hlow hhigh => ?_⟩
    obtain ⟨h4, h6, -⟩ := State.modAbort_part hcanon hp hlow hhigh
    rw [State.part_updMod]
    exact ⟨h4, h6⟩

end Sys2Proof
end
